-- ==== Sys2Proof/Word.lean ====
section
/-! DEFINITION. The words the block is described with: bytes, registers, and banks of a fixed number of like things. -/

namespace Sys2Proof

/-- A byte of a record, a package or a memory. -/
abbrev Byte := BitVec 8

/-- A register of the register map (00_scope R8, R468: every register is 32 bits wide). -/
abbrev Word := BitVec 32

/-- A fixed number of like things: the ring pairs, the stalls, the channels. -/
abbrev Bank (n : Nat) (α : Type) := Vector α n

/-- The same value in every place of a bank. -/
def Bank.fill {α : Type} (n : Nat) (a : α) : Bank n α := Vector.replicate n a

/-- One member of a bank. -/
def Bank.at {α : Type} {n : Nat} (b : Bank n α) (i : Fin n) : α := b[i]

/-- A bank with one member replaced. -/
def Bank.put {α : Type} {n : Nat} (b : Bank n α) (i : Fin n) (a : α) : Bank n α := b.set i a

/-- A bank with one member changed by `f`. -/
def Bank.upd {α : Type} {n : Nat} (b : Bank n α) (i : Fin n) (f : α → α) : Bank n α := b.put i (f (b.at i))

/-- A bank with every member changed by `f`, which is told the member's number. -/
def Bank.each {α : Type} {n : Nat} (b : Bank n α) (f : Fin n → α → α) : Bank n α :=
  Vector.ofFn (fun i => f i (b.at i))

end Sys2Proof
end

