-- ==== Sys2Proof/Syntax.lean ====
section
/-! DEFINITION. The commands of the block: one constructor for each row of spec/opcode_table.json, with the operands the row's rule names (the table gives a row no bits). -/

namespace Sys2Proof

/-- Who makes a register access: the host through its BARs, or a core through the register window (01 R25). -/
inductive View where
  | host
  | core (c : Fin 16)
deriving DecidableEq, Repr

/-- The two base address registers of the host (02, BARs). -/
inductive Bar where
  | bar0
  | bar2
deriving DecidableEq, Repr

/-- A submitted command as it executes: the ring pair and stamp it was fetched with, its TAG, NO_IRQ, and
its 32 operand bytes, byte 0 in the low bits (02 R61, R63). -/
structure Cmd where
  ring  : Fin 16
  stamp : BitVec 32
  tag   : BitVec 16
  noIrq : Bool
  ops   : BitVec 256
deriving DecidableEq, Repr

/-- STATUS of a sample slot (04 R141). -/
inductive Status where
  | valid | alignReduced | unaligned | missing | saturated | borrowed | cellInvalid | notInList
deriving DecidableEq, Repr

/-- One slot of a record: its VALUE and STATUS (04 R140). -/
structure Sample where
  val : Int
  st  : Status
deriving DecidableEq, Repr

/-- The clocks that are checked (01 R23): those the halter checks, and the halter's own, which TB checks. -/
inductive ClkId where
  | coreA | tb | port (p : Fin 4) | halter
deriving DecidableEq, Repr

/-- What a codeword read finds (01 R30, R32). -/
inductive EccRead where
  | clean | correctable | uncorrectable
deriving DecidableEq, Repr

/-- The three resets of the host interface (02 R45). -/
inductive HifReset where
  | flr | hotReset | perst
deriving DecidableEq, Repr

/-- One ring pair's slot of the doorbell block, as the poll read it (02 R53, R56). -/
structure DbSlot where
  sqPi : BitVec 32
  cqCi : BitVec 32
deriving DecidableEq, Repr

/-- Which transfer of a ring pair completed with an error (02 R53). -/
inductive DmaKind where
  | submissionRead | completionWrite | mirrorWrite
deriving DecidableEq, Repr

/-- A source of stream records (02 R79): a stall's trough or the estimator trough. -/
inductive Source where
  | stall (s : Fin 32)
  | estimator
deriving DecidableEq, Repr

/-- A record on its way to a trough: its 32-bit words, the stalls whose selection it follows as a mask, and the bank
and offset of the uncorrectable error that loses it, if one does (02 R77, R79; 01 R33). -/
structure TroughRec where
  words : List (BitVec 32)
  mask  : BitVec 32
  ue    : Option (Fin 32 × BitVec 22)
deriving DecidableEq, Repr

/-- A whole record of an upstream window (03 R90): header fields, raw codes, the 112 reply bits, and whether
its CRC was right and it ended inside the window. -/
structure UpRecord where
  unit     : Fin 4
  kind     : BitVec 2
  tag      : BitVec 8
  flags    : BitVec 15
  codes    : List (BitVec 18)
  reply    : BitVec 112
  crcOk    : Bool
  inWindow : Bool
deriving DecidableEq, Repr

/-- The four kinds of the fast trip comparators (04 R143). -/
inductive TripKind where
  | ov | uv | ot | oc
deriving DecidableEq, Repr

/-- The plausibility conditions (05 R160), each with the unit or string it stands on. -/
inductive PlausId where
  | stackWarn (u : Fin 128)
  | stackFail (u : Fin 128)
  | currentPair (s : Fin 4)
  | stringSum (s : Fin 4)
deriving DecidableEq, Repr

/-- The two directions of a data-age crossing (05 R158). -/
inductive Crossing where
  | up | down
deriving DecidableEq, Repr

/-- The two insulation conditions (07 R237). -/
inductive IsoCond where
  | fault | warn
deriving DecidableEq, Repr

/-- The halter's cause details (08 R250), in code order from 0x01. -/
inductive Detail where
  | tripOv | tripUv | tripOt | tripOc | isoFault | sinDemand | netDemand | hostDemand | sinDisc | sinTp
  | netLoss | netStrikes | hbLoss | clock | rstkStuck | swcTp | startup | pair0Mismatch | protUe | thermal
deriving DecidableEq, Repr

/-- Where a crossing leads (01 R19; 08 R246): the entries the model passes over a crossing. -/
inductive XEntry where
  | trip (k : TripKind) (s : Fin 4)
  | isoFault (s : Fin 4)
  | clockFault
  | memFault
  | enables (mask : BitVec 12) (cutoffClosed : Bool)
  | studbook (trigger : BitVec 6) (subject : BitVec 8) (detail : BitVec 128) (time : Nat)
deriving DecidableEq, Repr

/-- The crossings the model holds (01 R19, R21). -/
inductive XChan where
  | portToHalter (p : Fin 4)
  | memToHalter
  | tbToHalter
  | halterToSw1
  | toRecorder
deriving DecidableEq, Repr

/-- The readings of a channel around a test pulse of a safety input (08 R253). -/
structure PulseReading where
  openInPulse : Bool
  closedAfter : Bool
deriving DecidableEq, Repr

/-- A raw reading of a converter: its code or nothing (used where a mean over a phase is delivered, µV). -/
abbrev Reading := Option Int

/-- The islands that a wake brings up on demand (15 R417). -/
inductive Island where
  | est | port (p : Fin 4) | net | host
deriving DecidableEq, Repr

/-- The wake sources that a WAKE_EVENT can name (15 R416, codes 1–7). -/
inductive WakeSrc where
  | rtcAlarm | rtcCheck | wake0 | wake1 | canWake | safetyInput | pcie
deriving DecidableEq, Repr

/-- Why an entry phase ran out of time (15 R407). -/
inductive EntryTimeout where
  | command | completionTrough | mramQueue
deriving DecidableEq, Repr

/-- What a debugger writes (14 R396, R397): a register of the hart, one TCM word, or an address outside the TCM. -/
inductive DbgWrite where
  | reg (n : BitVec 16) (v : BitVec 32)
  | tcm (addr : BitVec 17) (v : BitVec 32)
  | other (addr : BitVec 32) (v : BitVec 32)
deriving DecidableEq, Repr

/-- The commands of the block, in the order of spec/opcode_table.json. -/
inductive Instr where
  -- architecture, register accesses
  | aonPowerOn (snsExternal rstkA rstkB : Bool)
  | hostNarrowAccess (bar : Bar) (off : BitVec 16)
  | coreNarrowAccess (core : Fin 16) (off : BitVec 16)
  | accessFault (core : Fin 16) (addr : BitVec 32) (write : Bool)
  | selectorWrite (view : View) (off : BitVec 16) (v : Word)
  | registerWrite (view : View) (bar : Bar) (off : BitVec 16) (v : Word)
  | shadowCaptureRead (view : View) (bar : Bar) (off : BitVec 16)
  | crossingDeliver (x : XChan)
  | clockCheckWindow (k : ClkId) (permille : Nat)
  | scrubRead (inMram : Bool) (found : EccRead)
  | eccCntClr (bank : Fin 32)
  -- host interface
  | hostInterfaceReset (kind : HifReset)
  | busMasterEnableChange (en : Bool)
  | pollNudge (v : Word)
  | dbBaseWrite (hi : Bool) (v : Word)
  | dbErrClear
  | ringEnable (r : Fin 16) (cfg : Word)
  | ringDisable (r : Fin 16) (cfg : Word)
  | doorbellPoll
  | doorbellReadComplete (read : Option (Bank 16 DbSlot))
  | dmaErrorCompletion (r : Fin 16) (kind : DmaKind)
  | submissionFetch
  | submissionArrival (r : Fin 16) (entry : BitVec 512)
  | commandDependencyResolved (stamp : BitVec 32)
  | completionToHost (r : Fin 16)
  | coalesceTimer (r : Fin 16)
  | msixUnmask (vec : Fin 32)
  | drainComplete (r : Fin 16)
  | troughRecord (src : Source) (rec : TroughRec)
  | streamRecordTransfer (src : Source) (listEntry : BitVec 128)
  | streamFlushTimer (stamp : BitVec 32)
  | streamSamples (c : Cmd)
  | streamImpedance (c : Cmd)
  | streamEstimates (c : Cmd)
  | streamStop (c : Cmd)
  | nopAdmin (c : Cmd)
  | nopControl (c : Cmd)
  | nopQuery (c : Cmd)
  | nopStream (c : Cmd)
  -- stalls
  | frameEdge (senseMv : Bank 12 Nat)
  | upstreamRecord (stall : Fin 32) (rec : UpRecord)
  | upstreamWindowEnd (stall : Fin 32)
  | breakDeclared (stall : Fin 32) (pos : Fin 4)
  | eightFrameBoundary
  | enumReplyTimeout (stall : Fin 32)
  | loopbackTest (stall : Fin 32) (readBack : Word)
  | phyFault (stall : Fin 32)
  | phyFaultRecovery (stall : Fin 32)
  | balanceLeaseRefresh (u : Fin 128)
  | balanceDurationExpiry (u : Fin 128)
  | rosterAdopt (c : Cmd) (pkg : List Byte)
  | stallService (c : Cmd) (pkg : List Byte)
  | enumerate (c : Cmd)
  | balanceSet (c : Cmd)
  | rosterRead (c : Cmd)
  | stallErrCntClr (stall : Fin 32)
  -- sweeps
  | rateChangeApply (str : Fin 4)
  | slotListApply (u : Fin 128)
  | tripRequest (str : Fin 4) (k : TripKind)
  | tripKindClear (str : Fin 4) (k : TripKind)
  | tripLimits (c : Cmd)
  | sweepConfig (c : Cmd)
  | sampleRead (c : Cmd)
  | alignCntClr (u : Fin 128)
  | checkCycleDecide
  -- cell integrity
  | plausibilityEvaluation (u : Fin 128)
  | plausibilitySet (p : PlausId)
  | plausibilityClear (p : PlausId)
  | openWireProbeStart
  | probePulseEnd (u : Fin 128)
  | probeDecision (u : Fin 128)
  | probeRetry (u : Fin 128) (wire : Fin 16)
  | invalidAgeExpiry (u : Fin 128) (cell : Fin 16)
  | dataAgeDerate (str : Fin 4) (dir : Crossing)
  | dataAgeDisconnect (str : Fin 4) (dir : Crossing)
  | currentAgeDerate (str : Fin 4) (dir : Crossing)
  | currentAgeDisconnect (str : Fin 4) (dir : Crossing)
  | balTestSchedule
  | balTestPhaseEnd (u : Fin 128) (vbr : Reading)
  | openWireProbe (c : Cmd)
  | balTest (c : Cmd)
  -- estimation
  | estimatorStep
  | limitStaleTimeout (str : Fin 4)
  | estimatorCheckpoint (ok : Bool)
  | lockinBlockEnd (str : Fin 4) (bin : Fin 32)
  | excitationStart (str : Fin 4)
  | excitationToggle (str : Fin 4)
  | healthUpdate (str : Fin 4)
  | estimateStreamTick
  | estConfig (c : Cmd) (pkg : List Byte)
  | estQuery (c : Cmd)
  -- strings
  | stringClose (c : Cmd)
  | stringOpen (c : Cmd)
  | serviceMode (c : Cmd)
  | limitsRead (c : Cmd)
  | preCnTimeout (str : Fin 4)
  | prechargeCheckpoint (str : Fin 4)
  | prechargeTimeout (str : Fin 4)
  | overlapTimeout (str : Fin 4)
  | openingRelease (str : Fin 4)
  | openingForcedRelease (str : Fin 4)
  | openingCnOff (str : Fin 4)
  | weldCheckTimeout (str : Fin 4)
  | weldedRelease (str : Fin 4)
  | auxInputChange (k : Fin 12) (closed : Bool)
  | auxMismatch (k : Fin 12)
  | auxClosedWhileOpen (k : Fin 12)
  | contactorDipTimeout
  | prechargeCauseExpiry (str : Fin 4)
  | isoPersistenceElapsed (str : Fin 4) (cond : IsoCond)
  | isoClear (str : Fin 4) (cond : IsoCond)
  | overTempSet (str : Fin 4)
  | overTempClear (str : Fin 4)
  | serviceModeExpiry (str : Fin 4)
  -- halter
  | halterCauseEntry (d : Detail) (w : Fin 16)
  | lockoutWordCopy
  | safetyInputChange (n : Fin 8) (chB : Bool) (closed : Bool)
  | sinTestPulse (k : Fin 4)
  | sinTestPulseJudge (k : Fin 4) (read : Bank 16 PulseReading)
  | sinDiscrepancy (n : Fin 8)
  | guardProofExpiry (n : Fin 8)
  | heartbeatWrite (view : View) (v : Word)
  | heartbeatLate
  | heartbeatLoss
  | telegramReceived (net : Fin 2) (bytes : BitVec 128)
  | telegramPairTimeout (net : Fin 2)
  | netLoss
  | statusTelegram (sent0 sent1 : Bool)
  | closePermitExpiry (str : Fin 4)
  | contactorTestPulse (j : Fin 12)
  | contactorTestPulseEnd (j : Fin 12) (echoFell outFell outRecovered : Bool)
  | enableRefresh
  | enableRefreshTimeout
  | resetKeyPressStart
  | resetKeyPressEnd (otherWithin50ms : Bool)
  | rstkHeld
  | rstkDisc
  | resetEnable
  | halterResetReq (c : Cmd)
  | hostSafeRequest (v : Word)
  | halterStartupTestsDone (stageOk eccOk comparatorsOk : Bool)
  -- switch channels
  | swcSet (c : Cmd)
  | swcConfig (c : Cmd) (pkg : List Byte)
  | limitTimeout (ch : Fin 12)
  | contactorOvercurrent (j : Fin 12)
  | thermalTrip (ch : Fin 24)
  | channelRestart (ch : Fin 12)
  | pullInEnd (j : Fin 12) (dutyPermille : Nat) (iEndMa : Nat)
  | economiserUpdate (vbat10mV : BitVec 12)
  | dutyCompensationUpdate (vbat10mV : BitVec 12)
  | generalTestPulse (ch : Fin 12)
  | generalTestPulseEnd (ch : Fin 12) (fell : Bool)
  | supplyDip (die : Fin 2) (vbat10mV : BitVec 12)
  | supplyRestore (die : Fin 2) (vbat10mV : BitVec 12)
  | supplyLoss (die : Fin 2) (vbat10mV : BitVec 12)
  | senseGSample (senseMv : Nat)
  | snsSelRead (pins : BitVec 4)
  -- weighbridge
  | tariffTag (c : Cmd)
  | counterSlotWrite (str : Fin 4)
  | exposureTick (str : Fin 4)
  | exposureSlotWrite
  | meterStatement (c : Cmd)
  | healthStatement (c : Cmd)
  | statementRelease
  -- sharing
  | yardArbitrationRound (target : Fin 12) (arriving : BitVec 25)
  | halterMirrorRead
  | mramWriteSlot (verified : Bool)
  | yardMaxwaitClr
  | mqMaxlatClr
  -- calibration
  | calRoutingRenew (u : Fin 128)
  | liveRunChannelDone (u : Fin 128)
  | calGenerationSwitch (u : Fin 128)
  | driftEvaluation (u : Fin 128)
  | shuntAutoStart (str : Fin 4)
  | shuntOffsetRunEnd (str : Fin 4)
  | shuntGainRunEnd (str : Fin 4)
  | calDeferredWrite (u : Fin 128)
  | calRun (c : Cmd)
  | calWrite (c : Cmd) (data : List Byte)
  | calRead (c : Cmd)
  -- studbook
  | studbookRequest (trigger : BitVec 6) (subject : BitVec 8) (detail : BitVec 128)
  | recordCapture (captureUs : Nat)
  | recorderFault (kind : BitVec 8) (bank7 : Bool) (slot : BitVec 15)
  | refusedCountWrite
  | studbookClear (c : Cmd) (pkg : List Byte)
  | studbookRead (c : Cmd) (badRecord : Option Nat)
  -- core pairs
  | lockstepMismatch (p : Fin 8) (lane : BitVec 2) (group : BitVec 4) (pc : BitVec 32)
  | pairSelftestStart (p : Fin 8)
  | pairSelftestEnd (p : Fin 8) (result : BitVec 4) (core : Bool)
  | pairStart (writer : Fin 16) (p : Fin 8)
  | pairStop (writer : Fin 16) (p : Fin 8)
  | pairDone (writer : Fin 16)
  | debugHalt (p : Fin 8)
  | debugResume (p : Fin 8)
  | debugWrite (p : Fin 8) (second : Bool) (w : DbgWrite)
  | jtagExtest
  | debugUnlock (c : Cmd) (pkg : List Byte)
  | debugUnlockExpiry
  | pairSelftest (c : Cmd)
  -- power
  | setPowerState (c : Cmd)
  | setRunLevel (c : Cmd)
  | setHostVeto (c : Cmd)
  | powerAccount (c : Cmd)
  | pwrReqState (core : Fin 16) (v : Word)
  | pwrReqLevel (core : Fin 16) (v : Word)
  | pmbusAck (statusWord : BitVec 16)
  | pmbusAttemptFail (statusWord : Option (BitVec 16))
  | pgoodLoss
  | pgoodRecovery
  | entryPhaseComplete
  | wakeEvent (src : WakeSrc)
  | wakeStepReady (imageOk : Bool) (comparatorCode : BitVec 8)
  | sramBlockRestore (block : Fin 1536)
  | islandWakeOnAccess (i : Island)
  | wakeRetry
  | retCreditTick
  | stabledSinScan (readings : BitVec 16)
  -- thermal
  | sensorReadingCheck (readings : Bank 12 Int)
  | sensorFail (n : Fin 12)
  | offsetLearning
  | throttleLevelUpdate
  | throttlePauseEnd
  | comparatorVote (n : Fin 12)
  | thermalRestart
  -- time
  | hoursCellWrite
  | rtcSet (c : Cmd)
  | rtcAlarm
  | periodicCheckAlarm
  -- security
  | boot (comparatorCode : BitVec 8) (ue0 ue1 : Option (Fin 0x600000))
  | configLoad (c : Cmd) (pkg : List Byte)
  | configRead (c : Cmd)
  | imageWrite (c : Cmd) (data : List Byte)
  | imageActivate (c : Cmd) (ue0 ue1 : Option (Fin 0x600000))
  | attest (c : Cmd)
  | ownerKey (c : Cmd) (pkg : List Byte)
  -- register map
  | identify (c : Cmd)
  | evtEnWrite (v : Word)
  | canBusOffRecovery (ctl : Fin 4)
  -- the rows added later in the table
  | aonPowerLoss
  | entryPhaseTimeout (why : EntryTimeout)
  | pairSelftestIdleTimeout
  | driftRunDeferredStart (u : Fin 128)
  | currentLimitChange (ch : Fin 12) (inLimit : Bool)
  | debuggerAttach (on : Bool)
  | faultPinMismatch (pinA : Bool)
  | ethLinkChange (m : Fin 2) (link : Bool) (speed : BitVec 2)
  | commandDataDmaComplete (stamp : BitVec 32) (ok : Bool)
deriving DecidableEq, Repr

end Sys2Proof
end

