-- ==== Sys2Proof/Machine/Bytes.lean ====
section
/-! DEFINITION. Byte strings: little-endian fields, the two CRCs of the manual, and IEEE 754 binary32 numbers. -/

namespace Sys2Proof.Machine

/-- The `n` bytes of a number, least significant first (00, Numbers, units and type). -/
def leBytes : Nat → Nat → List Byte
  | 0, _ => []
  | n + 1, v => BitVec.ofNat 8 v :: leBytes n (v / 256)

/-- The number that a byte string spells, least significant byte first. -/
def leNat : List Byte → Nat
  | [] => 0
  | b :: bs => b.toNat + 256 * leNat bs

/-- `len` bytes of a string from offset `off`; bytes past its end read 0. -/
def slice (bs : List Byte) (off len : Nat) : List Byte :=
  let part := (bs.drop off).take len
  part ++ List.replicate (len - part.length) 0

/-- The little-endian number of the `len` bytes at `off`. -/
def field (bs : List Byte) (off len : Nat) : Nat := leNat ((bs.drop off).take len)

/-- The signed little-endian number of the `len` bytes at `off`. -/
def sfield (bs : List Byte) (off len : Nat) : Int :=
  let v := field bs off len
  if v < 2 ^ (8 * len - 1) then v else (v : Int) - 2 ^ (8 * len)

/-- A signed number as it stands in a field of `len` bytes. -/
def sBytes (len : Nat) (v : Int) : List Byte := leBytes len (v % (2 ^ (8 * len) : Int)).toNat

/-- The bytes of a vector of bits, least significant first. -/
def bvBytes {w : Nat} (n : Nat) (v : BitVec w) : List Byte := leBytes n v.toNat

/-- A byte string with the bytes at `off` replaced by `bs`. -/
def splice (whole : List Byte) (off : Nat) (bs : List Byte) : List Byte :=
  slice whole 0 off ++ bs ++ whole.drop (off + bs.length)

/-- A string cut or filled with zero bytes to `n`. -/
def padTo (n : Nat) (bs : List Byte) : List Byte := slice bs 0 n

/-- The little-endian number of `len` operand bytes from offset `off` of a command (02 R61). -/
def opField (c : Cmd) (off len : Nat) : Nat := (c.ops.toNat / 2 ^ (8 * off)) % 2 ^ (8 * len)

/-- One operand byte. -/
def opByte (c : Cmd) (off : Nat) : Nat := opField c off 1

/-- A signed operand field. -/
def opSigned (c : Cmd) (off len : Nat) : Int :=
  let v := opField c off len
  if v < 2 ^ (8 * len - 1) then v else (v : Int) - 2 ^ (8 * len)

/-- Bits `lo` to `lo + len - 1` of a number. -/
def bitsOf (v lo len : Nat) : Nat := v / 2 ^ lo % 2 ^ len

/-- One step of a CRC that shifts towards the most significant bit. -/
def crc16Bit (crc : BitVec 16) (bit : Bool) : BitVec 16 :=
  let top := crc.getLsbD 15 ^^ bit
  if top then (crc <<< 1) ^^^ 0x1021 else crc <<< 1

/-- One byte into CRC-16/CCITT-FALSE, most significant bit first (03 R88, R90). -/
def crc16Byte (crc : BitVec 16) (b : Byte) : BitVec 16 :=
  [7, 6, 5, 4, 3, 2, 1, 0].foldl (fun c i => crc16Bit c (b.getLsbD i)) crc

/-- CRC-16/CCITT-FALSE: polynomial 0x1021, initial value 0xFFFF, no final inversion. -/
def crc16 (bs : List Byte) : BitVec 16 := bs.foldl crc16Byte 0xFFFF

/-- One byte into the reflected Castagnoli CRC (08 R258). -/
def crc32cByte (crc : BitVec 32) (b : Byte) : BitVec 32 :=
  [0, 1, 2, 3, 4, 5, 6, 7].foldl
    (fun c _ => if c.getLsbD 0 then (c >>> 1) ^^^ 0x82F63B78 else c >>> 1) (crc ^^^ b.setWidth 32)

/-- CRC-32C: Castagnoli, reflected, initial value and final XOR 0xFFFF_FFFF (08 R258). -/
def crc32c (bs : List Byte) : BitVec 32 := (bs.foldl crc32cByte 0xFFFFFFFF) ^^^ 0xFFFFFFFF

/-- `bs` followed by its CRC-32C. -/
def withCrc32c (bs : List Byte) : List Byte := bs ++ bvBytes 4 (crc32c bs)

/-- Two to an integer power. -/
def pow2 (e : Int) : Rat := if e < 0 then 1 / (2 ^ e.natAbs : Nat) else ((2 ^ e.natAbs : Nat) : Rat)

/-- The value of an IEEE 754 binary32 number; none for an infinity or a NaN. -/
def f32Value (bits : Nat) : Option Rat :=
  let sign : Rat := if bitsOf bits 31 1 = 1 then -1 else 1
  let e := bitsOf bits 23 8
  let m := bitsOf bits 0 23
  if e = 255 then none
  else if e = 0 then some (sign * m * pow2 (-149))
  else some (sign * (m + 2 ^ 23 : Nat) * pow2 ((e : Int) - 150))

/-- The binary32 number of four bytes at `off`. -/
def f32Field (bs : List Byte) (off : Nat) : Option Rat := f32Value (field bs off 4)

/-- ⌊log₂ a⌋ or one more, for a positive rational. -/
def ratLog (a : Rat) : Int := (Nat.log2 a.num.natAbs : Int) - (Nat.log2 a.den : Int)

/-- The largest integer at most a rational. -/
def ratFloor (q : Rat) : Int := q.num / q.den

/-- A rational rounded to the nearest integer, halves upwards. -/
def ratRound (q : Rat) : Int := ratFloor (q + 1 / 2)

/-- A number held between two bounds. -/
def clampInt (lo hi v : Int) : Int := if v < lo then lo else if hi < v then hi else v

/-- A counter that saturates. -/
def satAdd (max v n : Nat) : Nat := if v + n ≤ max then v + n else max

end Sys2Proof.Machine
end

