-- ==== Sys2Proof/Machine/Crypto.lean ====
section
/-! DEFINITION. SHA-512 (FIPS 180-4) and Ed25519 (RFC 8032, pure), as chapter 18 names them. -/

namespace Sys2Proof.Machine

/-- The round constants of SHA-512. -/
def sha512K : List (BitVec 64) :=
  [0x428a2f98d728ae22, 0x7137449123ef65cd, 0xb5c0fbcfec4d3b2f, 0xe9b5dba58189dbbc] ++
  [0x3956c25bf348b538, 0x59f111f1b605d019, 0x923f82a4af194f9b, 0xab1c5ed5da6d8118] ++
  [0xd807aa98a3030242, 0x12835b0145706fbe, 0x243185be4ee4b28c, 0x550c7dc3d5ffb4e2] ++
  [0x72be5d74f27b896f, 0x80deb1fe3b1696b1, 0x9bdc06a725c71235, 0xc19bf174cf692694] ++
  [0xe49b69c19ef14ad2, 0xefbe4786384f25e3, 0x0fc19dc68b8cd5b5, 0x240ca1cc77ac9c65] ++
  [0x2de92c6f592b0275, 0x4a7484aa6ea6e483, 0x5cb0a9dcbd41fbd4, 0x76f988da831153b5] ++
  [0x983e5152ee66dfab, 0xa831c66d2db43210, 0xb00327c898fb213f, 0xbf597fc7beef0ee4] ++
  [0xc6e00bf33da88fc2, 0xd5a79147930aa725, 0x06ca6351e003826f, 0x142929670a0e6e70] ++
  [0x27b70a8546d22ffc, 0x2e1b21385c26c926, 0x4d2c6dfc5ac42aed, 0x53380d139d95b3df] ++
  [0x650a73548baf63de, 0x766a0abb3c77b2a8, 0x81c2c92e47edaee6, 0x92722c851482353b] ++
  [0xa2bfe8a14cf10364, 0xa81a664bbc423001, 0xc24b8b70d0f89791, 0xc76c51a30654be30] ++
  [0xd192e819d6ef5218, 0xd69906245565a910, 0xf40e35855771202a, 0x106aa07032bbd1b8] ++
  [0x19a4c116b8d2d0c8, 0x1e376c085141ab53, 0x2748774cdf8eeb99, 0x34b0bcb5e19b48a8] ++
  [0x391c0cb3c5c95a63, 0x4ed8aa4ae3418acb, 0x5b9cca4f7763e373, 0x682e6ff3d6b2b8a3] ++
  [0x748f82ee5defb2fc, 0x78a5636f43172f60, 0x84c87814a1f0ab72, 0x8cc702081a6439ec] ++
  [0x90befffa23631e28, 0xa4506cebde82bde9, 0xbef9a3f7b2c67915, 0xc67178f2e372532b] ++
  [0xca273eceea26619c, 0xd186b8c721c0c207, 0xeada7dd6cde0eb1e, 0xf57d4f7fee6ed178] ++
  [0x06f067aa72176fba, 0x0a637dc5a2c898a6, 0x113f9804bef90dae, 0x1b710b35131c471b] ++
  [0x28db77f523047d84, 0x32caab7b40c72493, 0x3c9ebe0a15c9bebc, 0x431d67c49c100d4c] ++
  [0x4cc5d4becb3e42b6, 0x597f299cfc657e2a, 0x5fcb6fab3ad6faec, 0x6c44198c4a475817]

/-- The initial hash value of SHA-512. -/
def sha512H0 : List (BitVec 64) := [0x6a09e667f3bcc908, 0xbb67ae8584caa73b, 0x3c6ef372fe94f82b, 0xa54ff53a5f1d36f1, 0x510e527fade682d1, 0x9b05688c2b3e6c1f, 0x1f83d9abfb41bd6b, 0x5be0cd19137e2179]

/-- A big-endian number of `n` bytes. -/
def beBytes (n v : Nat) : List Byte := (leBytes n v).reverse

/-- The number of a big-endian byte string. -/
def beNat (bs : List Byte) : Nat := leNat bs.reverse

/-- A message with the padding of FIPS 180-4: a 1 bit, zeros, and the length in bits in 16 bytes. -/
def sha512Pad (m : List Byte) : List Byte :=
  let zeros := (239 - m.length % 128) % 128
  m ++ [0x80] ++ List.replicate zeros 0 ++ beBytes 16 (8 * m.length)

/-- One more word of the message schedule; the list holds the last 16 words, newest first. -/
def sha512Next (w : List (BitVec 64)) : BitVec 64 :=
  let x := w.getD 14 0
  let y := w.getD 1 0
  let s0 := x.rotateRight 1 ^^^ x.rotateRight 8 ^^^ (x >>> 7)
  let s1 := y.rotateRight 19 ^^^ y.rotateRight 61 ^^^ (y >>> 6)
  s1 + w.getD 6 0 + s0 + w.getD 15 0

/-- The eight working variables after one round with schedule word `w` and constant `k`. -/
def sha512Round (v : List (BitVec 64)) (w k : BitVec 64) : List (BitVec 64) :=
  match v with
  | [a, b, c, d, e, f, g, h] =>
    let s1 := e.rotateRight 14 ^^^ e.rotateRight 18 ^^^ e.rotateRight 41
    let ch := (e &&& f) ^^^ (~~~e &&& g)
    let t1 := h + s1 + ch + k + w
    let s0 := a.rotateRight 28 ^^^ a.rotateRight 34 ^^^ a.rotateRight 39
    let maj := (a &&& b) ^^^ (a &&& c) ^^^ (b &&& c)
    [t1 + s0 + maj, a, b, c, d + t1, e, f, g]
  | _ => v

/-- The rounds over the constants that are left; `ws` are the words of the block not used yet, `last` the words
used so far, newest first. -/
def sha512Rounds : List (BitVec 64) → List (BitVec 64) → List (BitVec 64) → List (BitVec 64) → List (BitVec 64)
  | [], _, _, v => v
  | k :: ks, w :: ws, last, v => sha512Rounds ks ws (w :: last.take 15) (sha512Round v w k)
  | k :: ks, [], last, v =>
    let w := sha512Next last
    sha512Rounds ks [] (w :: last.take 15) (sha512Round v w k)

/-- The 16 words of a block of 128 bytes. -/
def sha512Words (block : List Byte) : List (BitVec 64) :=
  (List.range 16).map (fun i => BitVec.ofNat 64 (beNat (slice block (8 * i) 8)))

/-- The hash value after one block. -/
def sha512Block (h : List (BitVec 64)) (block : List Byte) : List (BitVec 64) :=
  (h.zip (sha512Rounds sha512K (sha512Words block) [] h)).map (fun p => p.1 + p.2)

/-- SHA-512 of a byte string, in the byte order of the standard. -/
def sha512 (m : List Byte) : List Byte :=
  let p := sha512Pad m
  let h := (List.range (p.length / 128)).foldl (fun h i => sha512Block h (slice p (128 * i) 128)) sha512H0
  h.flatMap (fun w => beBytes 8 w.toNat)

namespace Ed

/-- The field prime 2^255 - 19. -/
def p : Nat := 2 ^ 255 - 19

/-- The order of the base point. -/
def order : Nat := 2 ^ 252 + 27742317777372353535851937790883648493

/-- A power modulo the prime, over `n` bits of the exponent. -/
def powMod : Nat → Nat → Nat → Nat
  | 0, _, _ => 1
  | n + 1, b, e =>
    let half := powMod n (b * b % p) (e / 2)
    if e % 2 = 1 then half * b % p else half

/-- The inverse modulo the prime. -/
def inv (a : Nat) : Nat := powMod 255 (a % p) (p - 2)

/-- The curve constant d = -121665 / 121666. -/
def d : Nat := (p - 121665) * inv 121666 % p

/-- A point in extended coordinates X, Y, Z, T with x = X / Z, y = Y / Z and x y = T / Z. -/
structure Point where
  x : Nat
  y : Nat
  z : Nat
  t : Nat
deriving DecidableEq, Repr

/-- The neutral point. -/
def zero : Point := ⟨0, 1, 1, 0⟩

/-- The sum of two points (RFC 8032, 5.1.4). -/
def add (a b : Point) : Point :=
  let aa := (a.y + p - a.x) * (b.y + p - b.x) % p
  let bb := (a.y + a.x) * (b.y + b.x) % p
  let cc := a.t * 2 * d * b.t % p
  let dd := a.z * 2 * b.z % p
  let e := bb + p - aa
  let f := dd + p - cc
  let g := dd + cc
  let h := bb + aa
  ⟨e * f % p, g * h % p, f * g % p, e * h % p⟩

/-- A multiple of a point, over `n` bits of the factor. -/
def mul : Nat → Nat → Point → Point
  | 0, _, _ => zero
  | n + 1, k, q =>
    let rest := mul n (k / 2) (add q q)
    if k % 2 = 1 then add q rest else rest

/-- Whether two points are equal. -/
def same (a b : Point) : Bool :=
  (a.x * b.z) % p == (b.x * a.z) % p && (a.y * b.z) % p == (b.y * a.z) % p

/-- The x coordinate of the point with this y and this low bit of x (RFC 8032, 5.1.3). -/
def recoverX (y sign : Nat) : Option Nat :=
  if p ≤ y then none
  else
    let u := (y * y + p - 1) % p
    let v := (d * y % p * y + 1) % p
    let v3 := v * v % p * v % p
    let v7 := v3 * v3 % p * v % p
    let r := u * v3 % p * powMod 255 (u * v7 % p) ((p - 5) / 8) % p
    let chk := v * r % p * r % p
    let root : Option Nat :=
      if chk = u then some r
      else if chk = (p - u) % p then some (r * powMod 255 2 ((p - 1) / 4) % p)
      else none
    match root with
    | none => none
    | some x =>
      if x = 0 ∧ sign = 1 then none
      else if x % 2 = sign then some x else some (p - x)

/-- The point of a 32-byte string. -/
def decode (bs : List Byte) : Option Point :=
  let v := leNat (slice bs 0 32)
  let y := v % 2 ^ 255
  match recoverX y (v / 2 ^ 255) with
  | some x => some ⟨x, y, 1, x * y % p⟩
  | none => none

/-- The 32-byte string of a point. -/
def encode (q : Point) : List Byte :=
  let zi := inv q.z
  let x := q.x * zi % p
  let y := q.y * zi % p
  leBytes 32 (y + 2 ^ 255 * (x % 2))

/-- The base point: y = 4 / 5 with an even x. -/
def base : Point :=
  let y := 4 * inv 5 % p
  let x := (recoverX y 0).getD 0
  ⟨x, y, 1, x * y % p⟩

/-- The scalar of a seed (RFC 8032, 5.1.5). -/
def scalar (seed : List Byte) : Nat :=
  let a := leNat ((sha512 seed).take 32)
  a % 2 ^ 254 / 8 * 8 + 2 ^ 254

/-- The public key of a seed. -/
def publicKey (seed : List Byte) : List Byte := encode (mul 256 (scalar seed) base)

/-- The signature of a message (RFC 8032, 5.1.6). -/
def sign (seed msg : List Byte) : List Byte :=
  let a := scalar seed
  let pub := publicKey seed
  let r := leNat (sha512 ((sha512 seed).drop 32 ++ msg)) % order
  let rs := encode (mul 256 r base)
  let k := leNat (sha512 (rs ++ pub ++ msg)) % order
  rs ++ leBytes 32 ((r + k * a) % order)

/-- Whether a signature verifies (RFC 8032, 5.1.7, with the factor 8). -/
def verify (pub msg sig : List Byte) : Bool :=
  let s := leNat (slice sig 32 32)
  match decode pub, decode (sig.take 32) with
  | some a, some r =>
    let k := leNat (sha512 (sig.take 32 ++ pub ++ msg)) % order
    decide (s < order) && same (mul 259 (8 * s) base) (add (mul 4 8 r) (mul 259 (8 * k) a))
  | _, _ => false

end Ed

end Sys2Proof.Machine
end

