-- ==== Sys2Proof/Config.lean ====
section
/-! DEFINITION. What one part fixes, and the values that the manual leaves open: constants without a body, so that nothing can be proved about them. -/

namespace Sys2Proof

namespace Config

/-- The seed of the device identity key (18, keys table: generated inside the device). -/
opaque deviceSeed : BitVec 256
/-- The factory serial number (19 R470). -/
opaque serial : BitVec 64
/-- STEPPING and ROM_VER of `DEV_REV` (19 R470). -/
opaque stepping : BitVec 8
/-- ROM_VER of `DEV_REV` (19 R470). -/
opaque romVer : BitVec 8
/-- The vendor root hash in OTP (18). -/
opaque vendorRoot : BitVec 512
/-- The factory digest of the device calibration section (12 R350). -/
opaque factoryDigest : BitVec 512
/-- The assigned addresses of the two MACs (18 R460). -/
opaque macAddr : Fin 2 → BitVec 48

/-- The converter code at each of the 64 points of the factory's thermistor curve (12 R500: their own documentation
defines the scaling; the MX9 does not). -/
opaque thermCode : Nat → Int

/-- A Lagrange weight as the skew corrector holds it to 18 bits (04 R130). -/
opaque weight18 : Rat → Rat

/-- BAL_K of a cell, derived from its balancing-resistor value in Ω in a way that the manual does not give (05 R171). -/
opaque balK : Rat → Rat

/-- The exponential of a number as the estimator's table gives it (06 R185: relative error at most 2^-20). -/
opaque expTable : Rat → Rat
/-- The square root of a number in the estimator's arithmetic (06 R195). -/
opaque sqrtReal : Rat → Rat
/-- Cosine of a number of turns in the lock-in bank's arithmetic (06 R195). -/
opaque cosTurn : Rat → Rat
/-- Sine of a number of turns in the lock-in bank's arithmetic (06 R195). -/
opaque sinTurn : Rat → Rat
/-- The numbers of the generic curves in chemistry tables 0 to 2, by table and by byte offset of the CHEM descriptor, in the
units of that field (06 R207 names the curves and gives no points). -/
opaque chemNumber : Fin 3 → Nat → Rat
/-- The cell whose data stand at an offset of the estimator's working store (06 R181 gives no layout). -/
opaque workCell : Nat → Nat

/-- Which of the two neighbouring integers the hardware makes of a number that is not an integer. -/
opaque roundsUp : Rat → Bool
/-- The same for the square root of a number. -/
opaque rootRoundsUp : Rat → Bool
/-- A fresh number that the manual leaves open, not an integer, by the counter it is drawn at. -/
opaque freeRat : Nat → Rat
/-- What a field of a number of bits holds of a number that does not fit it. -/
opaque misfit : Nat → Int → Nat
/-- A fresh byte that the manual leaves open, by the counter it is drawn at. -/
opaque freeByte : Nat → BitVec 8
/-- A fresh number that the manual leaves open, by the counter it is drawn at. -/
opaque freeNat : Nat → Nat

end Config

end Sys2Proof
end

