-- ==== Sys2Proof/Machine/StateArch.lean ====
section
/-! DEFINITION. State of the whole device: selectors, memories and their error records, crossings, the yard, the event registers, and what leaves the device. Defaults are the reset values. -/

namespace Sys2Proof.Machine

/-- The selectors of one view (00 R12, R13, R14). -/
structure Sel where
  ring  : Fin 16 := 0
  stall : Fin 32 := 0
  unit  : Fin 4 := 0
  str   : Fin 4 := 0
  swc   : Fin 24 := 0
  pair  : Fin 8 := 0
  tsens : Fin 12 := 0
deriving DecidableEq, Repr

/-- `MEM_UE_STAT` and `MEM_UE_ADDR` without UE_VALID, which `Evts.memUe` holds (01 R35). -/
structure MemUe where
  bank  : BitVec 5 := 0
  src   : BitVec 3 := 0
  prot  : Bool := false
  count : Nat := 0
  off   : BitVec 22 := 0
deriving DecidableEq, Repr

/-- One `ECC_CNT_n` (01 R35). -/
structure EccCnt where
  corr : Nat := 0
  ue   : Nat := 0
deriving DecidableEq, Repr

/-- The regions of the MRAM partition (01 R27). -/
inductive Region where
  | imageA | config | faultCell (n : Fin 3) | imageB | calibration | retention | weighbridge | studbook | reserved
deriving DecidableEq, Repr

/-- The four lanes of the MRAM write queue (11 R339), numbered as LANE of `MQ_MAXLAT` numbers them. -/
inductive Lane where
  | wb | sb | cal | cr
deriving DecidableEq, Repr

/-- A codeword that waits in a lane: its MRAM address (a multiple of 16), its bytes and when it entered (11 R339, R341). -/
structure Codeword where
  addr  : Nat
  bytes : List Byte
  at_   : Nat
deriving DecidableEq, Repr

/-- The MRAM write queue (11 R339–R341). `slot` is the wheel position (DESIGN CHOICE 0 at reset). -/
structure MramQueue where
  wb     : List Codeword := []
  sb     : List Codeword := []
  cal    : List Codeword := []
  cr     : List Codeword := []
  slot   : Fin 10 := 0
  maxUs  : Nat := 0
  maxLane : BitVec 2 := 0
deriving DecidableEq, Repr

/-- The two memories and the scrubber (01 R25–R35). A memory lists only bytes that are not 0. -/
structure Mem where
  sram      : List Host.Cell := []
  mram      : List Host.Cell := []
  scrubSram : Nat := 0
  scrubMram : Nat := 0
  queue     : MramQueue := {}
  ue        : MemUe := {}
  ecc       : Bank 32 EccCnt := Bank.fill 32 {}
deriving DecidableEq, Repr

/-- The event registers and every other bit that `EVT_SUM` sums (19 R473), with the enables and `ACC_ERR`. -/
structure Evts where
  memUe : Bool := false
  acc   : Bool := false
  stall : BitVec 32 := 0
  integ : BitVec 32 := 0
  trip  : BitVec 16 := 0
  time  : BitVec 3 := 0
  est   : BitVec 8 := 0
  str   : BitVec 20 := 0
  swc   : BitVec 26 := 0
  hlt   : BitVec 8 := 0
  stb   : BitVec 5 := 0
  wb    : BitVec 7 := 0
  cal   : BitVec 5 := 0
  pair  : BitVec 26 := 0
  sec   : BitVec 4 := 0
  pwr   : BitVec 6 := 0
  th    : BitVec 5 := 0
  aged  : BitVec 16 := 0
  dbErr : Bool := false
  ring  : Bank 16 (BitVec 4) := Bank.fill 16 0
  en    : BitVec 20 := 0
deriving DecidableEq, Repr

/-- `ACC_ERR` without VALID, which `Evts.acc` holds (19 R474). -/
structure AccErr where
  kind  : BitVec 3 := 0
  count : Nat := 0
  off   : BitVec 16 := 0
deriving DecidableEq, Repr

/-- The entries written into each crossing and not yet delivered, oldest first (01 R20). -/
structure Crossings where
  portToHalter : Bank 4 (List XEntry) := Bank.fill 4 []
  memToHalter  : List XEntry := []
  tbToHalter   : List XEntry := []
  halterToSw1  : List XEntry := []
  toRecorder   : List XEntry := []
deriving DecidableEq, Repr

/-- One requester's request at a yard target: its identity and how many rounds it has waited (11 R325, R328). -/
structure YardReq where
  id   : Fin 25
  wait : Nat
deriving DecidableEq, Repr

/-- The arbiter of one yard target (11 R325–R328). `ptr` is the requester visited last, and `lastProt` says whether the
halter mirror had the last reserved round that was granted (DESIGN CHOICE at reset: the pointer is about to reach ID 0). -/
structure Arbiter where
  round    : Nat := 0
  reqs     : List YardReq := []
  credit   : Bank 25 Nat := Bank.fill 25 0
  ptr      : Fin 25 := 24
  lastProt : Bool := false
deriving DecidableEq, Repr

/-- The yard and its registers (11 R324–R330). `accGrants` and `accIdle` count the reserved rounds of bank 0 in millisecond
`accFrom` of yard time, `protGrants` and `protIdle` those of the millisecond before it. -/
structure Yard where
  arb        : Bank 12 Arbiter := Bank.fill 12 {}
  weight0    : Word := 0x22222222
  weight1    : Word := 0x22222222
  weight2    : Word := 0x12422224
  weight3    : BitVec 4 := 1
  maxRounds  : Nat := 0
  maxId      : BitVec 5 := 0
  maxTarget  : BitVec 4 := 0
  agedCnt    : Nat := 0
  protGrants : Nat := 0
  protIdle   : Nat := 0
  accGrants  : Nat := 0
  accIdle    : Nat := 0
  accFrom    : Nat := 0
deriving DecidableEq, Repr

/-- A command slot of a downstream window (03 R89): BCAST, ADDR, CMD and ARG. -/
structure LinkSlot where
  bcast : Bool
  addr  : Fin 4
  cmd   : BitVec 5
  arg   : BitVec 32
deriving DecidableEq, Repr

/-- What leaves the device, in the order in which it leaves (the model's own record; no behaviour reads it). -/
inductive OutEvent where
  /-- A posted write of the DMA engine to host memory. -/
  | hostWrite (addr : BitVec 64) (bytes : List Byte)
  /-- A read request of the DMA engine. -/
  | hostRead (addr : BitVec 64) (len : Nat)
  /-- An MSI-X message of a vector. -/
  | msix (vec : Fin 32) (addr : BitVec 64) (data : Word)
  /-- What a register read returned. -/
  | busRead (w : Word)
  /-- A command slot that the downstream window of a stall carries in a frame. -/
  | link (stall : Fin 32) (frame : Nat) (slot : LinkSlot)
  /-- A downstream window of a stall begins: its ENUM bit and YTIME (03 R88); its command slots follow as `link`. -/
  | window (stall : Fin 32) (enum : Bool) (ytime : BitVec 64)
  /-- A frame on a CAN controller. -/
  | can (c : Fin 4) (id : Nat) (bytes : List Byte)
  /-- A status telegram on one of the two halter networks. -/
  | telegram (net : Fin 2) (bytes : List Byte)
  /-- A write to the core-rail regulator: its address, the PMBus command and the data (15 R402). -/
  | pmbus (addr : BitVec 7) (cmd : BitVec 8) (data : BitVec 16)
  /-- A test pulse on a `TPO` output. -/
  | tpo (k : Fin 4)
deriving DecidableEq, Repr

end Sys2Proof.Machine
end

