-- ==== Sys2Proof/Machine/StateHost.lean ====
section
/-! DEFINITION. State of the host interface: ring pairs, commands in flight, streams and troughs, interrupts (chapters 02 and 11). Defaults are the reset values. -/

namespace Sys2Proof.Machine

/-- The states of a ring pair (02 R53), in the order of STATE of `RING_STAT`. -/
inductive RingState where
  | disabled | active | draining | error
deriving DecidableEq, Repr

/-- A completion in a completion trough: the fields that are fixed when it is created (02 R69). `result` is
dwords 2–5, dword 2 in the low bits. -/
structure Completion where
  tag    : BitVec 16
  status : BitVec 8
  opcode : BitVec 8
  stamp  : BitVec 32
  result : BitVec 128
  ctime  : BitVec 32
  final  : Bool
  gap    : Bool
  noIrq  : Bool
deriving DecidableEq, Repr

/-- A ring pair (02 R47–R53, R56, R74, R76; 11 R332–R334). The W1C bits of `RING_STAT` are in `Evts.ring`. -/
structure Ring where
  st        : RingState := .disabled
  enable    : Bool := false
  cls       : BitVec 2 := 0
  sqLog2    : BitVec 4 := 4
  cqLog2    : BitVec 4 := 4
  vec       : BitVec 5 := 0
  irqEn     : Bool := false
  quantum   : BitVec 8 := 1
  sqBase    : BitVec 64 := 0
  cqBase    : BitVec 64 := 0
  coalCount : BitVec 8 := 0
  coalTime  : BitVec 10 := 0
  sqCi      : Nat := 0
  cqPi      : Nat := 0
  cqPhase   : Bool := true
  /-- SQ_PI and CQ_CI as the previous poll read them. -/
  sqPi      : Nat := 0
  cqCi      : Nat := 0
  /-- Stamps fetched since the last enable, newest first (for KIND 2). -/
  fetched   : List (BitVec 32) := []
  /-- Entries whose read has been issued and that have not arrived. -/
  reading   : Nat := 0
  /-- The completion trough, oldest first. -/
  trough    : List Completion := []
  /-- Completions of commands that were in flight when an Error was left are discarded (R53). -/
  discard   : Bool := false
  pendIrq   : Nat := 0
  oldestAt  : Nat := 0
  /-- TIME_US as it applies to the pending completions (R76). -/
  useTime   : BitVec 10 := 0
  credit    : Nat := 0
  eligibleAt : Option Nat := none
deriving DecidableEq, Repr

/-- The stage of a command in flight. -/
inductive Stage where
  | waiting | executing
deriving DecidableEq, Repr

/-- A dependency in use of a command in flight: the stamp it names, whether COND needs SUCCESS, and what the
named command ended with once it has ended (02 R62, R65). -/
structure Dep where
  stamp   : BitVec 32
  success : Bool
  ended   : Option (BitVec 8)
deriving DecidableEq, Repr

/-- A command in flight (02 R61, R68). `dmaDone` counts its command-data transfers that have completed (11 R335). -/
structure Flight where
  cmd     : Cmd
  opcode  : BitVec 8
  deps    : List Dep
  stage   : Stage
  dmaDone : Nat
deriving DecidableEq, Repr

/-- The final status of a command (02 R65), and whether it was a stream command (R84). -/
structure Final where
  stamp  : BitVec 32
  status : BitVec 8
  stream : Bool
deriving DecidableEq, Repr

/-- A record or gap marker in a source trough: its words, the stalls whose selection it follows, and the opcode of the
streams that take it. -/
structure TroughItem where
  words : List (BitVec 32)
  mask  : BitVec 32
  op    : BitVec 8
deriving DecidableEq, Repr

/-- A source trough (02 R78, R79): what it holds, oldest first, and the whole records lost since the last one. -/
structure Trough where
  items : List TroughItem := []
  lost  : Nat := 0
deriving DecidableEq, Repr

/-- An active stream (02 R81–R84). `cur` is the current buffer's address and length; `mask` the stalls it
selects; `since` when the current buffer received its first record. -/
structure StreamS where
  cmd     : Cmd
  opcode  : BitVec 8
  mask    : BitVec 32
  list    : BitVec 64
  count   : Nat
  flushMs : Nat
  idx     : Nat
  cur     : Option (BitVec 64 × Nat)
  bytes   : Nat
  records : Nat
  gap     : Bool
  since   : Option Nat
deriving DecidableEq, Repr

/-- One entry of the MSI-X table and its pending bit (02 R75, R76). PRESUMED from the MSI-X standard: masked at reset. -/
structure Vec where
  masked  : Bool := true
  pending : Bool := false
  addr    : BitVec 64 := 0
  data    : Word := 0
deriving DecidableEq, Repr

/-- The global part of the host interface (02 R44, R50, R57–R60, R63, R65). -/
structure Hif where
  busMaster   : Bool := false
  dbBase      : BitVec 64 := 0
  pollEn      : Bool := false
  evtVec      : BitVec 5 := 0
  pollGap     : Nat := 0
  dbFails     : Nat := 0
  outstanding : Bool := false
  nudge       : Bool := false
  dueAt       : Nat := 0
  /-- The outstanding poll was started by a nudge before its time. -/
  early       : Bool := false
  activeAt    : Nat := 0
  /-- Stamps issued since the counter last started from 0; `STAMP_NEXT` is this modulo 2^32. -/
  issued      : Nat := 0
  flights     : List Flight := []
  finals      : List Final := []
  streams     : List StreamS := []
  /-- Ring pairs whose entries are being read, in the order of the reads. -/
  fetchQ      : List (Fin 16) := []
  /-- The last ring pair visited in each class. -/
  ptr         : Bank 4 (Fin 16) := Bank.fill 4 15
  agedCnt     : Nat := 0
deriving DecidableEq, Repr

/-- The source troughs: one per stall, and the estimator's (02 R79). -/
structure Troughs where
  stall : Bank 32 Trough := Bank.fill 32 {}
  est   : Trough := {}
deriving DecidableEq, Repr

end Sys2Proof.Machine
end

