-- ==== Sys2Proof/Machine/StateStalls.lean ====
section
/-! DEFINITION. State of the stalls, units and cells: links, sweeps, integrity and calibration (chapters 03, 04, 05, 12). Unit position u is 4 × stall + unit (04 R138). Defaults are the reset values. -/

namespace Sys2Proof.Machine

/-- LSTATE of `STALL_STAT`, in the order of its encoding (03). -/
inductive LState where
  | off | enumerating | running | degraded | lost | outOfService | phyFault
deriving DecidableEq, Repr

/-- Where an enumeration or rejoin stands (03 R96): before RELEASE, asking for position `pos` since frame `a`,
about to assign, about to send SET_DELAY, or waiting for the next edge. -/
inductive EnumPhase where
  | start | query | assign | setDelay | settle
deriving DecidableEq, Repr

/-- An enumeration (`rejoin = false`) or a rejoin attempt in progress (03 R95, R96, R107). `first` is the first
position it set out to find. -/
structure EnumRun where
  phase  : EnumPhase
  pos    : Nat
  a      : Nat
  rejoin : Bool
  first  : Nat
deriving DecidableEq, Repr

/-- Averaging settings accepted by SWEEP_CONFIG that wait for the stall's next sweep start (04 R149). -/
structure AvgSet where
  locked : Bool
  w      : Nat
  stream : Bool
  period : Word
  cmd    : Cmd
deriving DecidableEq, Repr

/-- One stall (03 R86–R113; 04 R135, R136). -/
structure Stall where
  str       : Option (Fin 4) := none
  oos       : Bool := false
  lstate    : LState := .off
  breakPos  : BitVec 3 := 4
  loopOk    : Bool := false
  breakCnt  : Nat := 0
  found     : BitVec 3 := 0
  cause     : BitVec 4 := 0
  enumCnt   : BitVec 8 := 0
  crcCnt    : Nat := 0
  missCnt   : Nat := 0
  loopFail  : Nat := 0
  loopRun   : Nat := 0
  /-- Consecutive failures, consecutive passes since PHY fault, and which pattern is next (R110). -/
  failRun   : Nat := 0
  passRun   : Nat := 0
  loopAlt   : Bool := false
  enum      : Option EnumRun := none
  linkQ     : List LinkSlot := []
  /-- Positions asked by ROLL_CALL that have not answered, and the frame of the question (R107). -/
  rollCall  : List (Fin 4) := []
  rollAt    : Nat := 0
  /-- Averaging as configured and in use (04 R135, R136). -/
  locked    : Bool := false
  wCfg      : Nat := 8
  wUsed     : Nat := 8
  lockFail  : Bool := false
  streamAvg : Bool := false
  invPeriod : Word := 0
  avgPend   : List AvgSet := []
  /-- ENUMERATE commands that wait for this stall's enumeration (R113). -/
  enumCmds  : List Cmd := []
  /-- The stall is Lost, and the loss has been marked (R108). -/
  lost      : Bool := false
  /-- A full enumeration has completed since AON power-on. -/
  known     : Bool := false
deriving DecidableEq, Repr

/-- What the link knows of a unit position (03 R96–R106, R114, R115). -/
structure UnitLink where
  foundType  : BitVec 8 := 0
  foundId    : BitVec 64 := 0
  rosterType : BitVec 8 := 0
  rosterId   : BitVec 64 := 0
  outcome    : BitVec 3 := 4
  reached    : Bool := false
  segDelay   : Nat := 0
  delay      : Nat := 0
  /-- The frame from which the unit is swept (R96 step 6, R107). -/
  sweepFrom  : Option Nat := none
  missRun    : Nat := 0
  delivering : Bool := false
  gotSweep   : Bool := false
  gotCurrent : Bool := false
  hostMask   : BitVec 16 := 0
  /-- Duration of the host mask in s (0 none), and the moment at which it came into force. -/
  hostDur    : Nat := 0
  hostFrom   : Option Nat := none
  probeMask  : Option (BitVec 16) := none
  /-- BALANCE ARG [31:16] while a balancing-switch test runs (05 R171). -/
  testArg    : BitVec 16 := 0
  excMask    : Option (BitVec 16) := none
  applied    : BitVec 16 := 0
  /-- The frame of the latest BALANCE command (R115). -/
  leaseAt    : Nat := 0
  /-- Masks sent, newest first, with their frames. -/
  maskLog    : List (Nat × BitVec 16) := []
  /-- The applied mask has not been sent yet. -/
  stale      : Bool := false
deriving DecidableEq, Repr

/-- One sweep of a unit as it arrived: its start frame, its raw codes (none: the sweep is missing), the slot list,
RATE, generation and averaging era it belongs to, and the slots that were borrowed (04 R130, R132). -/
structure Sweep where
  start    : Nat
  raw      : Option (List (BitVec 18))
  codes    : List (BitVec 8)
  rate     : BitVec 2
  era      : Nat
  flags    : BitVec 15
  borrowed : BitVec 24
deriving DecidableEq, Repr

/-- A sample record without the fields that follow from where it is kept (04 R140). -/
structure SampleRec where
  missing   : Bool := true
  timeUnc   : Bool := false
  calBusy   : Bool := false
  tag       : BitVec 8 := 0
  gen       : BitVec 8 := 0
  rate      : BitVec 2 := 0
  nslot     : BitVec 5 := 0
  locked    : Bool := false
  utype     : BitVec 8 := 0
  ystart    : Nat := 0
  flags     : BitVec 15 := 0
  fill      : Nat := 0
  wm1       : Nat := 0
  slots     : List Sample := []
  start     : Nat := 0
deriving DecidableEq, Repr

/-- A fast trip comparator input of one kind: its count, and how many samples in a row lay in the release band
(04 R144). `key` is the slot code; 0x100 + first cell for a run of Invalid cells, 0x200 for a stack (05 R168). -/
structure TripInput where
  key  : Nat
  kind : TripKind
  c    : Nat
  rel  : Nat
deriving DecidableEq, Repr

/-- A staged slot list: the list, the boundary frame at which the unit applies it once it has been sent, and the commands
that wait. -/
structure StagedList where
  codes : List (BitVec 8)
  frame : Option Nat
  cmds  : List Cmd
deriving DecidableEq, Repr

/-- The sweep engine's state of a unit (04 R118–R145). -/
structure UnitSweep where
  /-- The configured list, the list in force, and the one before the latest restart (R132). -/
  cfgList   : List (BitVec 8) := []
  codes     : List (BitVec 8) := []
  oldCodes  : List (BitVec 8) := []
  oldRate   : BitVec 2 := 0
  staged    : Option StagedList := none
  /-- Restarts of the slot history so far, and the frame at which the latest took effect. -/
  era       : Nat := 0
  restart   : Nat := 0
  history   : List Sweep := []
  /-- The current pairs of an MP4, newest first: frame, I_MAIN code, I_CHECK code (R124). -/
  pairs     : List (Nat × Option (BitVec 18 × BitVec 18)) := []
  seq       : Nat := 0
  /-- Aligned values of the latest sweeps, newest first: the start frame and the slots by code (05 R163). -/
  alHist    : List (Nat × List (BitVec 8 × Sample)) := []
  aligned   : SampleRec := {}
  averaged  : SampleRec := {}
  /-- Aligned values of the averaging window in force and of the one before the latest restart, newest first. -/
  win       : List (List Sample) := []
  oldWin    : List (List Sample) := []
  winStart  : Nat := 0
  oldW      : Nat := 8
  reduced   : Nat := 0
  sat       : Nat := 0
  trips     : List TripInput := []
  timeUnc   : Bool := false
  /-- The newest sweep's samples as they arrived, by slot code; none while it is missing (04 R143; 07 R223). -/
  now       : List (BitVec 8 × Sample) := []
  /-- Borrowings that have ended, newest first: the slots, and the frames after which and up to which a sweep that started
  was borrowed (11 R342). -/
  borrows   : List (BitVec 24 × Nat × Nat) := []
  /-- Newest valid die temperature and T0 in m°C (12 R349). -/
  tDie      : Option Int := none
  tT0       : Option Int := none
  /-- Cells outside the window of the sleep check in check sweeps so far, and check sweeps so far (04 R155). -/
  chkOut    : Bank 16 Nat := Bank.fill 16 0
  chkSweeps : Nat := 0
  /-- A check sweep carried UW_CAUSE (04 R142, R155). -/
  chkUw     : Bool := false
deriving DecidableEq, Repr

/-- A condition with a persistence and a clearing time: whether it stands, since when its evaluations have held
without a break, and since when they have been absent (05 R160). -/
structure Cond where
  on     : Bool := false
  since  : Option Nat := none
  absent : Option Nat := none
deriving DecidableEq, Repr

/-- Why a probe runs: the pair-sum rule, the start-up check, or a command with its mode (05 R162, R166, R176). -/
inductive ProbeWhy where
  | suspect
  | startup
  | command (mode : BitVec 8) (c : Cmd)
deriving DecidableEq, Repr

/-- A probe: the wires it decides, its mask, the frame p in which it began (none while it waits), and whether the pulse
has ended (05 R163). -/
structure Probe where
  why    : ProbeWhy
  wires  : List (Fin 16)
  mask   : BitVec 16
  p      : Option Nat
  ended  : Bool
deriving DecidableEq, Repr

/-- A probe that waits its turn: its unit (05 R174). -/
structure ProbeReq where
  unit  : Fin 128
  probe : Probe
deriving DecidableEq, Repr

/-- What the device keeps of a wire (05 R165): INCONCLUSIVE outcomes in a row, the moments of CLEARED outcomes, and
when the next probe is due. -/
structure WireHist where
  inconcl : Nat := 0
  cleared : List Nat := []
  retryAt : Option Nat := none
deriving DecidableEq, Repr

/-- The phases of a switch check (05 R171), and waiting to begin one (05 R174; 11 R343). -/
inductive BtPhase where
  | waiting | pre | closed | opened
deriving DecidableEq, Repr

/-- A balancing-switch test of a unit (05 R171, R174): the switches still to test (the first is under test), the
borrowed slot and the frame from which it is borrowed, the phase, since when, and the values measured so far in µV. -/
structure BalTest where
  todo    : List (Fin 16)
  slot    : Nat
  from_   : Nat
  phase   : BtPhase
  since   : Nat
  vPre    : Option Int
  vOn     : Option Int
  sched   : Bool
  cmd     : Option Cmd
  mask    : BitVec 16
deriving DecidableEq, Repr

/-- The integrity state of a unit and its cells (05). -/
structure UnitInteg where
  /-- Suspect wires: bit i is wire i + 1 (R161). -/
  suspW    : BitVec 15 := 0
  invWire  : BitVec 16 := 0
  invStack : BitVec 16 := 0
  /-- Accumulated invalid age in ticks, and the running part's start (none while it stands still) (R169). -/
  invAcc   : Bank 16 Nat := Bank.fill 16 0
  invFrom  : Bank 16 (Option Nat) := Bank.fill 16 none
  broken   : BitVec 15 := 0
  wireChk  : BitVec 3 := 0
  /-- Wires that the start-up check left inconclusive and that are not decided yet (R166). -/
  chkPend  : BitVec 16 := 0
  warn     : Cond := {}
  fail     : Cond := {}
  /-- Averaged cell values of the last evaluations, newest first: the moment and the values (R161). -/
  evals    : List (Nat × List (Option Int)) := []
  probe    : Option Probe := none
  test     : Option BalTest := none
  bt       : Bank 16 (BitVec 4) := Bank.fill 16 0
  /-- Switches whose STUCK_CLOSED cause stands, and those whose STUCK_OPEN or DEGRADED result stands (R173). -/
  stuck    : BitVec 16 := 0
  btC      : BitVec 16 := 0
  wires    : Bank 16 WireHist := Bank.fill 16 {}
  /-- Sweep start of the newest sweep with a usable value of each cell, and of the newest temperature (R157). -/
  cellGood : Bank 16 Nat := Bank.fill 16 0
  tempGood : Option Nat := none
deriving DecidableEq, Repr

/-- Sums over the codes of one reference or current (12 R355, R358): how many, their sum and the sum of their squares, and
how many were lost. -/
structure ChanStat where
  n    : Nat := 0
  sum  : Int := 0
  sq   : Int := 0
  lost : Nat := 0
deriving DecidableEq, Repr

/-- A live run on an MC16 (12 R354, R356): the channel, sweeps still to discard, the codes of references A and B collected,
the finished channels, the sum of the temperatures seen and their number, and the commands that wait for it. `routeAt` is the
frame in which its routing was first sent, none while it waits for a test (11 R343); `len` is RUN_SWEEPS at its start. -/
structure LiveRun where
  ch      : Nat
  skip    : Nat
  len     : Nat
  a       : ChanStat
  b       : ChanStat
  done    : List (ChanStat × ChanStat)
  tempSum : Int
  tempN   : Nat
  cmds    : List Cmd
  routeAt : Option Nat
deriving DecidableEq, Repr

/-- A result that waits for its section's 60 s (12 R360), or a written entry that waits for its sweep start (R353): the
section's bytes, the MRAM offset of the copy, the commands that wait, and whether a CAL_WRITE or a run made it. -/
structure PendEntry where
  entry  : List Byte
  base   : Nat
  cmds   : List Cmd
  result : BitVec 4
  write  : Bool
deriving DecidableEq, Repr

/-- Reading the trim block of a newly adopted unit (12 R352): pages still to ask for, pages asked for with the frame of the
question, pages that have arrived, pages that failed, and how often a failed page may be asked for again. -/
structure TrimRead where
  todo   : List Nat
  asked  : List (Nat × Nat) := []
  got    : List (Nat × List Byte) := []
  fails  : List Nat := []
  again  : Nat
deriving DecidableEq, Repr

/-- Calibration values that a unit used before a switch (12 R353): the sweep start from which they held, their
generation and entry. -/
structure OldGen where
  from_ : Nat
  gen   : BitVec 8
  entry : Option (List Byte)
deriving DecidableEq, Repr

/-- Calibration of a unit position (12). `entry` is the unit entry in use (1 KiB) when it is valid, from the sweep start
`genFrom` on; `olds` are the values before it, newest first. -/
structure UnitCal where
  entry     : Option (List Byte) := none
  gen       : BitVec 8 := 0
  genFrom   : Nat := 0
  olds      : List OldGen := []
  switchQ   : List PendEntry := []
  trims     : Option TrimRead := none
  drift     : Bool := false
  driftRun  : Nat := 0
  clearRun  : Nat := 0
  errA      : Int := 0
  errB      : Int := 0
  /-- Sums of the second under evaluation: VALID values of references A and B, their counts, and all sweeps. -/
  secA      : Int := 0
  secB      : Int := 0
  cntA      : Nat := 0
  cntB      : Nat := 0
  cntAll    : Nat := 0
  run       : Option LiveRun := none
  /-- DRIFT started a run that waits for its 10 min (R357). -/
  runDue    : Bool := false
  lastRunAt : Option Nat := none
  result    : BitVec 4 := 0
  appliedAt : Option Nat := none
  writtenAt : Option Nat := none
  deferred  : Option PendEntry := none
deriving DecidableEq, Repr

/-- A shunt run of a string (12 R358, R359): offset or gain, the frame in which it began and its length in frames, the
codes of both currents, and the reference current in mA. -/
structure ShuntRun where
  gain   : Bool
  since  : Nat
  len    : Nat
  main   : ChanStat
  check  : ChanStat
  iRef   : Int
  cmd    : Option Cmd
deriving DecidableEq, Repr

/-- Calibration of a string's shunt (12 R358, R359). -/
structure StrCal where
  ofsResult  : BitVec 4 := 0
  gainResult : BitVec 4 := 0
  run        : Option ShuntRun := none
  ofsAt      : Option Nat := none
  openedAt   : Nat := 0
  autoAt     : Option Nat := none
  /-- A result that waits for its 60 s, and whether it is a gain run's. -/
  deferred   : Option (Bool × PendEntry) := none
deriving DecidableEq, Repr

/-- The device-wide part of calibration (12 R347, R350, R361). `device` is the device section body in use
(bytes 0x010–0x1FFF), none while nominal values apply. -/
structure CalDev where
  device     : Option (List Byte) := none
  devChanged : Bool := false
  devBad     : Bool := false
  devAt      : Option Nat := none
  devSeq     : Nat := 0
  driftAuto  : Bool := false
  shuntAuto  : Bool := true
  driftUv    : Nat := 800
  runSweeps  : Nat := 64
  devQ       : Option PendEntry := none
deriving DecidableEq, Repr

/-- The sleep-check settings (04 R148) and `SLEEP_CHK` (R155). -/
structure SleepChk where
  mask     : BitVec 32 := 0
  interval : Nat := 0
  upper    : Nat := 0
  lower    : Nat := 0
  sweeps   : Nat := 1
  result   : BitVec 3 := 0
  first    : BitVec 5 := 0
  cnt      : Nat := 0
deriving DecidableEq, Repr

/-- Integrity settings, the queue of waiting probes and the schedule of balancing tests (05 R165, R173, R174, R177). -/
structure Integ where
  owThresh   : Nat := 50
  stackFail  : Nat := 40
  btInterval : Nat := 0
  probeQ     : List ProbeReq := []
  schedNext  : Nat := 0
  schedAt    : Nat := 0
deriving DecidableEq, Repr

end Sys2Proof.Machine
end

