-- ==== Sys2Proof/Machine/StateEst.lean ====
section
/-! DEFINITION. State of the estimator array and the lock-in bank (chapter 06). Numbers are exact rationals; what the array's binary32 arithmetic makes of them is left free by R195. Defaults are the reset values. -/

namespace Sys2Proof.Machine

/-- A 4 × 4 matrix of the filters, by rows. -/
abbrev Mat := Bank 4 (Bank 4 Rat)

/-- The zero matrix. -/
def Mat.zero : Mat := Bank.fill 4 (Bank.fill 4 0)

/-- One cell of the estimator (06 R184–R191). The state vector is (z, v1, v2, h), the parameters (Rs, Rp1, Rp2, Q) in Ω and Ah. -/
structure EstCell where
  live    : Bool := false
  z       : Rat := 0
  v1      : Rat := 0
  v2      : Rat := 0
  h       : Rat := 0
  p       : Mat := Mat.zero
  rs      : Rat := 0
  rp1     : Rat := 0
  rp2     : Rat := 0
  q       : Rat := 0
  pTheta  : Mat := Mat.zero
  infoJ   : Mat := Mat.zero
  infoR   : Bank 4 Rat := Bank.fill 4 0
  g       : Rat := 0
  u1      : Rat := 0
  u2      : Rat := 0
  rejRun  : Nat := 0
  rejSec  : Nat := 0
  rejAcc  : Nat := 0
  bypass  : Bool := false
  clamped : Bool := false
  score   : Nat := 0
  /-- Score of |Z| alone in 1/16 (R203). -/
  zScore  : Nat := 0
  /-- The next initialisation keeps θ (R208), or takes it from the group (R191); `fresh` stands from a change of the unit's
identity until a checkpoint has been written. -/
  keep    : Bool := false
  regroup : Bool := false
  fresh   : Bool := false
  /-- The cell was Invalid at its previous step (R189). -/
  wasInv  : Bool := false
  temp    : Int := 25000
  /-- Alignment instant of the previous step's record, and time of the previous parameter update. -/
  lastA   : Option Nat := none
  paramAt : Nat := 0
  /-- The estimate at the last Valid step (R189). -/
  heldZ   : Rat := 0
  heldV1  : Rat := 0
  heldV2  : Rat := 0
  heldH   : Rat := 0
deriving DecidableEq, Repr

/-- Impedance of a cell at one bin in Ω (06 R199): real and imaginary part. -/
structure Impedance where
  re : Rat := 0
  im : Rat := 0
  ok : Bool := false
deriving DecidableEq, Repr

/-- What the lock-in bank keeps of one aligned record: its alignment instant, the slot samples by code, the
generation, the applied balancing mask and the cells that were Valid (06 R198, R199). -/
structure LiSample where
  a     : Nat
  slots : List (BitVec 8 × Sample)
  gen   : BitVec 8
  mask  : BitVec 16
  valid : BitVec 16
deriving DecidableEq, Repr

/-- The estimator's part of a unit: its cells, impedances, and the lock-in samples since the oldest running block. -/
structure EstUnit where
  cells    : Bank 16 EstCell := Bank.fill 16 {}
  z        : Bank 16 (Bank 32 Impedance) := Bank.fill 16 (Bank.fill 32 {})
  exc      : Bank 16 (BitVec 32) := Bank.fill 16 0
  updated  : Bank 16 (BitVec 32) := Bank.fill 16 0
  updAt    : Bank 16 Nat := Bank.fill 16 0
  sentAt   : Bank 16 Nat := Bank.fill 16 0
  hist     : List LiSample := []
  /-- The applied mask of each sweep of the averaging window, newest first (06 R183). -/
  maskWin  : List (Nat × BitVec 16) := []
  seq      : Nat := 0
  /-- SEQ of each cell's impedance record. -/
  zSeq     : Bank 16 Nat := Bank.fill 16 0
deriving DecidableEq, Repr

/-- EXC_STATE of `EST_STR_EXC`, in the order of its encoding. -/
inductive ExcState where
  | idle | waiting | running | stopped
deriving DecidableEq, Repr

/-- A set of six limits: discharge 2, 10, 30 s, then charge 2, 10, 30 s (06 R205, R210). -/
structure Limits where
  i : Bank 6 Nat := Bank.fill 6 0
  p : Bank 6 Nat := Bank.fill 6 0
deriving DecidableEq, Repr

/-- The estimator's part of a string (06 R198–R206). Currents of limits are in mA, powers in W. -/
structure EstString where
  sohCap    : Nat := 10000
  sohRes    : Nat := 10000
  lim       : Limits := {}
  limCellD  : BitVec 11 := 0
  limCellC  : BitVec 11 := 0
  derateT   : Bool := false
  derateZ   : Bool := false
  capped    : Bool := false
  stale     : Bool := false
  limAt     : Nat := 0
  cellsUsed : Nat := 0
  seq       : Nat := 0
  excState  : ExcState := .idle
  excBin    : BitVec 5 := 0
  excPhase  : Bool := false
  excHigh   : Bool := false
  excFrom   : Nat := 0
  excToggle : Nat := 0
  passCnt   : Nat := 0
  passAt    : Option Nat := none
  openSince : Nat := 0
  /-- Charge counts at the last step (06 R193). -/
  qDisAt    : Nat := 0
  qChgAt    : Nat := 0
  /-- Start of the running block of each bin, in sweeps of the string (06 R198). -/
  blockFrom : Bank 32 (Option Nat) := Bank.fill 32 none
  /-- Excitation blocks that have ended and wait for their last records: bin, start frame and half-period (06 R200). -/
  excDone   : List (Fin 32 × Nat × Nat) := []
  /-- Aligned I_MAIN of the string, newest first, by sweep start frame. -/
  iHist     : List (Nat × Sample) := []
  /-- |I_MAIN| of the last second, newest first: the 10 ms interval, the sum in mA and how many frames (06 R206); and the
  share measured last. -/
  absRing   : List (Nat × Nat × Nat) := []
  share     : Option Rat := none
deriving DecidableEq, Repr

/-- A CHEM descriptor's content (06 R207). -/
structure Chem where
  m     : Rat
  gamma : Rat
  etaC  : Rat
  tau1  : Rat
  tau2  : Rat
  fr    : List Rat
  ocv   : List Rat
  k     : List Rat
deriving DecidableEq, Repr

/-- A chemistry table: empty, a factory curve whose points the spec does not give, or loaded (06 R207). -/
inductive ChemTable where
  | empty
  | factory (n : Fin 3)
  | loaded (c : Chem)
deriving DecidableEq, Repr

/-- A GROUP descriptor (06 R207), with its chemistry table. Q_RATED in mAh. -/
structure Group where
  table   : Fin 4 := 0
  qRated  : Nat := 100000
  rs0     : Rat := 1/1000
  rp10    : Rat := 1/2000
  rp20    : Rat := 1/2000
  boundLo : Rat := 1/4
  boundHi : Rat := 8
  tmap    : BitVec 16 := 0xFF00
deriving DecidableEq, Repr

/-- The FILTER descriptor (06 R207): voltages in V, currents in A. -/
structure Filter where
  sigmaV  : Rat := 1/1000
  sigmaI  : Rat := 1/2
  qz      : Rat := 1/10000000
  qv1     : Rat := 1/100000
  qv2     : Rat := 1/100000
  qh      : Rat := 1/10000
  qpR     : Rat := 1/10000
  qpQ     : Rat := 1/1000000
  gate    : Rat := 5
  iDead   : Rat := 1/2
  zInit   : Rat := 1/20
  rejReset : Nat := 2000
deriving DecidableEq, Repr

/-- A LIMITS descriptor (06 R207): voltages in µV, currents in A, SoC in 0.01 %. -/
structure LimitsDesc where
  vMin  : Nat := 2500000
  vMax  : Nat := 4200000
  zMin  : Nat := 0
  zMax  : Nat := 10000
  iCellD : Nat := 500
  iCellC : Nat := 500
  iStrD : Nat := 500
  iStrC : Nat := 500
  ftD   : Bank 16 Nat := Bank.fill 16 255
  ftC   : Bank 16 Nat := Bank.fill 16 255
  fzD   : Bank 16 Nat := Bank.fill 16 255
  fzC   : Bank 16 Nat := Bank.fill 16 255
deriving DecidableEq, Repr

/-- A LOCKIN descriptor (06 R207). -/
structure Lockin where
  binMask : BitVec 32 := 0xFFFFFFFF
  excMask : BitVec 32 := 0x007FFF00
  cycles  : Nat := 8
  avg     : Nat := 4
  intervalH : Nat := 0
  iMin    : Nat := 2000
  restS   : Nat := 1800
deriving DecidableEq, Repr

/-- The OUTPUT descriptor (06 R207). -/
structure Output where
  estMs   : Nat := 100
  impMs   : Nat := 1000
  outlier : Nat := 56
  refBin  : Fin 32 := 20
deriving DecidableEq, Repr

/-- One decoded descriptor of an EST_CONFIG package (06 R207). -/
inductive Descriptor where
  | chem (t : Fin 4) (c : Chem)
  | group (mask : BitVec 32) (g : Group)
  | filter (f : Filter)
  | limits (s : Fin 4) (l : LimitsDesc)
  | lockin (s : Fin 4) (l : Lockin)
  | output (o : Output)
deriving DecidableEq, Repr

/-- An accepted EST_CONFIG or a KIND 4 query that waits for a step (06 R208, R212). -/
inductive EstWork where
  | config (c : Cmd) (ds : List Descriptor)
  | project (c : Cmd)
deriving DecidableEq, Repr

/-- Everything of the estimator that belongs to no cell, unit or string (06). -/
structure Est where
  running   : Bool := false
  rateHalf  : Bool := false
  ckptOk    : Bool := false
  overrun   : Nat := 0
  limLate   : Nat := 0
  arrayPct  : BitVec 8 := 0
  queryPct  : BitVec 8 := 0
  liPct     : BitVec 8 := 0
  pausePct  : BitVec 8 := 0
  ckptAt    : Option Nat := none
  ckptCnt   : Nat := 0
  ckptGen   : Nat := 0
  ckptCopy  : Bool := false
  ranTicks  : Nat := 0
  lastCell  : BitVec 11 := 0
  reinitCnt : Nat := 0
  /-- Skipped batches of the last 100 steps: step numbers, newest first (15 R405). -/
  skips     : List Nat := []
  /-- Array cycles of the running second: batches, limits and parameters; queries; and throttle pauses in µs. -/
  cycArray  : Nat := 0
  cycQuery  : Nat := 0
  pauseUs   : Nat := 0
  lastStep  : Option Nat := none
  limAt     : Option Nat := none
  yard      : Limits := {}
  yardSeq   : Nat := 0
  yardAt    : Nat := 0
  work      : List EstWork := []
  chem      : Bank 4 ChemTable := #v[.factory 0, .factory 1, .factory 2, .empty]
  group     : Bank 32 Group := Bank.fill 32 {}
  filter    : Filter := {}
  limits    : Bank 4 LimitsDesc := Bank.fill 4 {}
  lockin    : Bank 4 Lockin := Bank.fill 4 {}
  output    : Output := {}
  estTick   : Nat := 0
deriving DecidableEq, Repr

end Sys2Proof.Machine
end

