-- ==== Sys2Proof/Machine/StateStrings.lean ====
section
/-! DEFINITION. State of the strings, the halter and the reset key (chapters 07 and 08). Defaults are the reset values; records of the configuration region hold their factory values. -/

namespace Sys2Proof.Machine

/-- The states of a string (07 R218), in the order of their numbers. -/
inductive StrState where
  | opened | preCn | precharge | overlap | closed | opening | weldCheck | welded
deriving DecidableEq, Repr

/-- A string record of the configuration region (07 R243). `linkGroup` of string s is s at the factory. -/
structure StrRec where
  stallMask    : BitVec 32 := 0
  breakA       : Nat := 350
  preTimeoutMs : Nat := 2000
  preTauMs     : Nat := 100
  pcDelayMs    : Nat := 10
  auxEn        : BitVec 3 := 0
  dischMs      : Nat := 3000
  linkGroup    : Nat := 0
  svcCapPct    : Nat := 10
  isoVref      : Nat := 800
  isoPersistS  : Nat := 5
  otB          : Int := 60
  parDv        : Nat := 50
  svcMaxMin    : Nat := 30
deriving DecidableEq, Repr

/-- The publication record (07 R243). -/
structure PubRec where
  canId : Word := 0x650
  pubEn : BitVec 2 := 3
deriving DecidableEq, Repr

/-- The newest calibrated values of a string's MP4 as they arrived: none where the newest is not valid (07 R223). -/
structure Mp4Now where
  iMain   : Option Int := none
  iCheck  : Option Int := none
  vString : Option Int := none
  vLink   : Option Int := none
  isoP    : Option Int := none
  isoN    : Option Int := none
deriving DecidableEq, Repr

/-- `STR_WELD` (07). -/
structure WeldStat where
  result      : BitVec 2 := 0
  linkHigh    : Bool := false
  undecided   : Bool := false
  auxClosed   : BitVec 3 := 0
  cnPhaseRise : Bool := false
  linkBefore  : Bool := false
  dischMs     : Nat := 0
deriving DecidableEq, Repr

/-- A closure or opening of a string in progress (07 R220–R232). Times are yard times. -/
structure Seq where
  closeCmd   : Option Cmd := none
  openCmds   : List (Cmd × Bool) := []
  /-- Moment of CN on, PC on, CP on, entry to OPENING, release, and entry to WELD_CHECK. -/
  cnAt       : Nat := 0
  pcAt       : Nat := 0
  cpAt       : Nat := 0
  openingAt  : Nat := 0
  releaseAt  : Option Nat := none
  weldAt     : Nat := 0
  /-- V_LINK at CN on and at PC on. -/
  vLinkCn    : Option Int := none
  v0         : Option Int := none
  /-- The link was live at PC on (R225). -/
  parallel   : Bool := false
  /-- Checkpoints passed so far (R224). -/
  passed     : Nat := 0
  parRun     : Nat := 0
  /-- Frames in a row with |I_MAIN| at or below BREAK_A (R227). -/
  lowRun     : Nat := 0
  iRelease   : Option Nat := none
  /-- V_LINK has been seen below 10 % since WELD_CHECK began, and the inputs that have read open since then (R230). -/
  dischOk    : Bool := false
  auxOk      : BitVec 3 := 0
  /-- |I_MAIN| in mA when the running supply dip began, where it was known (R232). -/
  iDip       : Option Nat := none
  /-- Since when every condition of R231 has held in WELDED. -/
  relSince   : Option Nat := none
deriving DecidableEq, Repr

/-- One string (07). -/
structure Str where
  st        : StrState := .opened
  cfg       : StrRec := {}
  service   : Bool := false
  svcFrom   : Nat := 0
  lastCause : BitVec 8 := 0
  lastRefuse : BitVec 16 := 0
  /-- The causes that arise from events, AUX_MISMATCH and SUPPLY_DIP, while they are present (R234). -/
  auxCause  : Bool := false
  dipCause  : Bool := false
  preResult : BitVec 3 := 0
  prePar    : Bool := false
  preFaults : List Nat := []
  /-- The PRECHARGE cause stands until this moment (R226). -/
  preUntil  : Option Nat := none
  preMs     : Nat := 0
  weld      : WeldStat := {}
  ohmPerV   : Nat := 0xFFFF
  iso       : Cond := {}
  isoW      : Cond := {}
  overTemp  : Cond := {}
  closeCnt  : Nat := 0
  overBreak : Nat := 0
  /-- Auxiliary inputs that read closed, when each reading and each channel's command last changed (R222). -/
  aux       : BitVec 3 := 0
  auxAt     : Bank 3 Nat := Bank.fill 3 0
  cmdAt     : Bank 3 Nat := Bank.fill 3 0
  seq       : Seq := {}
  now       : Mp4Now := {}
  /-- Sweep start of the newest frame with a usable current (05 R159), and the crossings that have been acted on. -/
  curGood   : Nat := 0
  ageC      : Bool := false
  ageB      : Bool := false
  curC      : Bool := false
  curB      : Bool := false
  pairCond  : Cond := {}
  sumCond   : Cond := {}
  /-- Sweep rate in force, and accepted changes with their boundary frames and commands, oldest first (04 R120). -/
  rate      : BitVec 2 := 0
  /-- The rate in force before the running check cycle, while one runs (04 R148). -/
  rateKeep  : Option (BitVec 2) := none
  /-- Kinds that read Tripped when the running check cycle began. -/
  tripKeep  : BitVec 4 := 0
  ratePend  : List (BitVec 2 × Nat × Cmd) := []
  tripped   : BitVec 4 := 0
deriving DecidableEq, Repr

/-- Fast trip limits of a string (04 R146), with the factory values of R147. OC hysteresis in 10 mA. -/
structure TripLimits where
  enable : BitVec 4 := 0xF
  ov     : Int := 4250000
  uv     : Int := 2000000
  ot     : Int := 65000
  oc     : Int := 500000
  hystOv : Nat := 20000
  hystUv : Nat := 20000
  hystOt : Nat := 5000
  hystOc : Nat := 1000
  debOv  : Nat := 2
  debUv  : Nat := 2
  debOt  : Nat := 2
  debOc  : Nat := 2
deriving DecidableEq, Repr

/-- Trip limits in force, an accepted change that waits for the next frame edge, and `TRIP_CNT` (04 R144–R147). -/
structure Trips where
  lim  : Bank 4 TripLimits := Bank.fill 4 {}
  pend : Bank 4 (List (TripLimits × Cmd)) := Bank.fill 4 []
  /-- Kinds whose count has reached DEB and whose request has not been sent yet. -/
  due  : Bank 4 (BitVec 4) := Bank.fill 4 0
  cnt  : Nat := 0
deriving DecidableEq, Repr

/-- Limit publication (07 R240, R242). -/
structure LimPub where
  cfg    : PubRec := {}
  alive  : BitVec 8 := 0
  can2Ok : Bool := false
  can3Ok : Bool := false
  txFail : Nat := 0
  last   : List Byte := []
  at_    : Nat := 0
deriving DecidableEq, Repr

/-- One safety input of the halter record (08 R277). -/
structure SinRec where
  role   : BitVec 2 := 0
  guard  : Bool := false
  tpEn   : Bool := false
  tpoA   : BitVec 2 := 0
  tpoB   : BitVec 2 := 0
  strs   : BitVec 4 := 0
  filt   : Nat := 4
  proofH : Nat := 0
deriving DecidableEq, Repr

/-- The halter record (08 R277). -/
structure HaltRec where
  txTg    : BitVec 16 := 0x100
  rxTg    : BitVec 16 := 0x180
  netsel  : Bool := false
  rxEn    : Bool := false
  rstHost : Bool := true
  txCan   : Word := 0x120
  rxCan   : Word := 0x121
  ethDst  : BitVec 48 := 0
  sin     : Bank 8 SinRec := Bank.fill 8 {}
deriving DecidableEq, Repr

/-- One channel of a safety input: its filtered reading, when it last turned open and closed, and its runs of
passed and failed test pulses (08 R252–R254). -/
structure SinChan where
  closed   : Bool := false
  openedAt : Nat := 0
  closedAt : Nat := 0
  /-- It read closed when the running test pulse of its output began. -/
  wasClosed : Bool := false
  passRun  : Nat := 0
  failRun  : Nat := 0
  /-- Two failures in a row, with no run of 8 passes since: SIN_TP stands for this channel. -/
  tpBad    : Bool := false
deriving DecidableEq, Repr

/-- One safety input (08 R252–R255). -/
structure Sin where
  a        : SinChan := {}
  b        : SinChan := {}
  /-- Both channels have read open at the same time since the latest closed reading of both. -/
  bothOpen : Bool := false
  demand   : Bool := false
  proven   : Bool := false
  provenAt : Nat := 0
deriving DecidableEq, Repr

/-- A telegram copy that waits for its partner: its 16 bytes and when it arrived (08 R259). -/
structure TgCopy where
  bytes : BitVec 128
  at_   : Nat
deriving DecidableEq, Repr

/-- Telegram supervision and the status telegram (08 R257–R262). -/
structure HaltNet where
  strikes    : Nat := 0
  txFail     : Nat := 0
  run        : Bool := false
  started    : Bool := false
  lastSeq    : BitVec 16 := 0
  wait       : Bank 2 (Option TgCopy) := Bank.fill 2 none
  /-- Moments of the strikes since supervision started, newest first. -/
  strikeAt   : List Nat := []
  okRun      : Nat := 0
  acceptedAt : Nat := 0
  /-- CLOSE_PERMIT of the previous accepted pair (none before the first), and until when a permit is valid. -/
  permitRef  : Option (BitVec 4) := none
  permit     : Bank 4 (Option Nat) := Bank.fill 4 none
  seq        : BitVec 16 := 0
deriving DecidableEq, Repr

/-- The reset key (08 R267–R270). -/
structure Rstk where
  a         : Bool := false
  b         : Bool := false
  changedAt : Nat := 0
  /-- A press in progress since this moment. -/
  press     : Option Nat := none
  /-- Details that were present at any moment of the press. -/
  seen      : BitVec 20 := 0
  held      : Bool := false
  disc      : Bool := false
  /-- HALTER_RESET_REQ commands accepted during the press. -/
  reqs      : List Cmd := []
  bothOpenAt : Option Nat := none
  shortCnt  : Nat := 0
  disabled  : Bool := true
deriving DecidableEq, Repr

/-- A test pulse of a contactor channel in progress, or the runs of its failures (08 R265, R266). -/
structure CtPulse where
  failRun : Nat := 0
  failed  : Bool := false
  busy    : Bool := false
  discard : Bool := false
deriving DecidableEq, Repr

/-- The lock-out word (08 R249): the detail's code, the string or input, and the operating hours in ms. -/
structure LockWord where
  lockout : Bool := false
  cause   : BitVec 8 := 0
  where_  : BitVec 4 := 0
  hours   : Nat := 0
deriving DecidableEq, Repr

/-- The halter (08). `present` holds, for each detail in code order, the strings or inputs it stands on as a mask
(bit 0 where it concerns none). -/
structure Halter where
  cfg       : HaltRec := {}
  lockout   : Bool := false
  startupOk : Bool := false
  /-- The HALTER island runs its tests (R273): set at each start-up until they are done. -/
  testing   : Bool := true
  lockCause : BitVec 8 := 0
  lockWhere : BitVec 4 := 0
  present   : Bank 20 (BitVec 16) := Bank.fill 20 0
  /-- Enable lines that the halter grants, and whether it keeps the cut-off of SW-1 closed. -/
  enables   : BitVec 12 := 0
  cutoff    : Bool := false
  faultA    : Bool := true
  faultB    : Bool := true
  hb        : BitVec 8 := 0
  badHb     : Nat := 0
  hbArmed   : Bool := false
  hbAt      : Nat := 0
  hbLate    : Bool := false
  hbRun     : Nat := 0
  sin       : Bank 8 Sin := Bank.fill 8 {}
  net       : HaltNet := {}
  pulse     : Bank 12 CtPulse := Bank.fill 12 {}
  tpFailCnt : Nat := 0
  key       : Rstk := {}
  lockCnt   : Nat := 0
  lateCnt   : Nat := 0
  badReq    : Nat := 0
  /-- The lock-out word in AON and its copy in the configuration region, and whether the copy is still to be written (R249). -/
  aonWord   : LockWord := {}
  cfgWord   : LockWord := {}
  copyDue   : Bool := false
  /-- The last status telegram before Rest or Stabled has been sent, with QUIET (R260). -/
  quiet     : Bool := false
  /-- Bytes 6 and 7 as the halter mirror last showed them (11 R330). -/
  mirror6   : BitVec 8 := 0
  mirror7   : BitVec 8 := 0
deriving DecidableEq, Repr

/-- Windows in a row in which each checked clock lay outside and inside its tolerance (01 R23). -/
structure ClockWin where
  bad  : Nat := 0
  good : Nat := 0
deriving DecidableEq, Repr

/-- The checked clocks (01 R23). -/
structure Clocks where
  coreA  : ClockWin := {}
  tb     : ClockWin := {}
  port   : Bank 4 ClockWin := Bank.fill 4 {}
  halter : ClockWin := {}
deriving DecidableEq, Repr

end Sys2Proof.Machine
end

