-- ==== Sys2Proof/Machine/StateDevice.lean ====
section
/-! DEFINITION. State of the switch channels, the Weighbridge, the studbook, the core pairs, power, temperature, time, the tack store and the networks (chapters 09, 10, 13 to 19). Defaults are the reset values; records of the configuration region hold their factory values. -/

namespace Sys2Proof.Machine

/-- The commanded mode of a channel (09 R284), in the order of CMD of `SWC_STAT`. -/
inductive SwcMode where
  | off | on | constPower
deriving DecidableEq, Repr

/-- LATCH_CAUSE of `SWC_STAT` (09). -/
inductive LatchCause where
  | none | thermal | limTmo | overcurrent | dipRestore
deriving DecidableEq, Repr

/-- PHASE of `SWC_STAT` (09 R286). -/
inductive CoilPhase where
  | off | pullIn | hold | full
deriving DecidableEq, Repr

/-- Settings of a channel (09 R306): protections of a general channel, economiser of a contactor channel. -/
structure SwcRec where
  retryMax  : Nat := 3
  retryWinS : Nat := 10
  limTmoMs  : Nat := 20
  pwmHz     : BitVec 2 := 1
  law       : Bool := false
  restartMs : Nat := 100
  bypass    : Bool := false
  econ      : Bool := true
  pullMa    : Nat := 1200
  pullMs    : Nat := 100
  holdMw    : Nat := 8000
deriving DecidableEq, Repr

/-- A switch channel (09). D_REF is in 0.1 %, the present duty in 1/255, currents are in mA, R_COIL in 0.5 Ω. -/
structure Swc where
  cmd       : SwcMode := .off
  dRef      : Nat := 0
  out       : Bool := false
  en        : Bool := false
  phase     : CoilPhase := .off
  limit     : Bool := false
  limitAt   : Nat := 0
  wait      : Bool := false
  tripAt    : Nat := 0
  waitCause : LatchCause := .none
  latched   : Bool := false
  cause     : LatchCause := .none
  stuckOn   : Bool := false
  /-- The channel was commanded ON or CONST_POWER after STUCK_ON was set (R297). -/
  stuckNew  : Bool := false
  failRun   : Nat := 0
  pulse     : Bool := false
  pulseDrop : Bool := false
  pullLow   : Bool := false
  holdLow   : Bool := false
  restarts  : List Nat := []
  duty      : Nat := 0
  iMa       : Nat := 0
  curSat    : Bool := false
  settling  : Bool := false
  sampleAt  : Option Nat := none
  tj        : Int := 0
  tripCnt   : Nat := 0
  latchCnt  : Nat := 0
  rCoil     : Nat := 24
  pullCnt   : Nat := 0
  onAt      : Nat := 0
  cfg       : SwcRec := {}
deriving DecidableEq, Repr

/-- One power die (09 R283, R299, R300). -/
structure Die where
  vbat    : BitVec 12 := 0
  dip     : Bool := false
  dipAt   : Nat := 0
  dipLow  : BitVec 12 := 0xFFF
  /-- Channels that were in current limit when the dip began. -/
  inLimit : BitVec 12 := 0
deriving DecidableEq, Repr

/-- What both dies share, the enable crossing as SW-1 sees it, and the sense pin (09 R283, R288–R290, R306). -/
structure SwcCtl where
  die       : Bank 2 Die := Bank.fill 2 {}
  dipCnt    : Nat := 0
  /-- Enables and cut-off as the latest refresh entry set them, and when it arrived. -/
  enables   : BitVec 12 := 0
  cutoff    : Bool := false
  refreshAt : Nat := 0
  snsExt    : Bool := false
  snsPin    : BitVec 4 := 0
  settling  : Bool := false
  intCh     : Fin 12 := 0
  /-- The last five reads of SNS_SEL, newest first (R290). -/
  pins      : List (BitVec 4) := []
  seq       : BitVec 32 := 0
deriving DecidableEq, Repr

/-- The Weighbridge counters of a string (10 R308–R310). Energies in 2^-32 µWh, charges in 2^-32 µAh. -/
structure WbStr where
  eDis     : Bank 8 Nat := Bank.fill 8 0
  eChg     : Bank 8 Nat := Bank.fill 8 0
  qDis     : Nat := 0
  qChg     : Nat := 0
  gap      : Nat := 0
  subst    : Nat := 0
  sat      : Nat := 0
  openFlow : Nat := 0
  bin      : Fin 8 := 0
  /-- Bins in force by the frame from which they hold, newest first (R312). -/
  bins     : List (Nat × Fin 8) := []
  rollback : Bool := false
  slotSeq  : Nat := 0
  iRated   : Nat := 500
  deadMa   : Nat := 200
  exposure : Bank 16 Nat := Bank.fill 16 0
  unmeas   : Nat := 0
deriving DecidableEq, Repr

/-- The stages of a statement (10 R318): waiting for its start, for the first frame edge, and for its flush writes. -/
inductive StmtStage where
  | queued | armed | flushing
deriving DecidableEq, Repr

/-- A statement (10 R318): its command, meter or health, its stage, edge E with the operating hours, yard time and bins at it,
the bytes without the signature, and the MRAM codewords it waits for. -/
structure Stmt where
  cmd    : Cmd
  health : Bool
  stage  : StmtStage
  edge   : Nat
  oph    : Nat
  ytime  : Nat
  bins   : List Nat
  flags  : Nat
  bytes  : List Byte
  addrs  : List Nat
deriving DecidableEq, Repr

/-- A tariff change that waits for its frame edge (10 R312). -/
structure TariffPend where
  cmd   : Cmd
  mask  : BitVec 4
  bin   : Fin 8
deriving DecidableEq, Repr

/-- The Weighbridge (10). -/
structure Wb where
  str       : Bank 4 WbStr := Bank.fill 4 {}
  /-- The last STMT_SEQ given, and the last one released. -/
  stmtSeq   : Nat := 0
  stmtRel   : Nat := 0
  stmts     : List Stmt := []
  releasedAt : Option Nat := none
  tariff    : List TariffPend := []
  logSeq    : Nat := 0
  loggedAt  : Option Nat := none
  expSeq    : Nat := 0
  /-- Pending change of I_RATED_A and DEAD_MA, applied at the next frame edge (R317). -/
  recPend   : Option (List (Nat × Nat)) := none
deriving DecidableEq, Repr

/-- A waiting studbook request (13 R367). -/
structure StbReq where
  trigger : BitVec 6
  subject : BitVec 8
  detail  : BitVec 128
  time    : Nat
  occur   : Nat
deriving DecidableEq, Repr

/-- A recorder fault word as written (13 R379). -/
structure FaultWord where
  kind     : BitVec 8
  bank     : BitVec 8
  slot     : Nat
  affected : Nat
  oph      : Nat
  gen      : Nat
deriving DecidableEq, Repr

/-- One entry of a snapshot list (13 R377). -/
structure SnapEntry where
  off : BitVec 16
  sel : BitVec 8
deriving DecidableEq, Repr

/-- The snapshot list of each trigger at the factory (13 R373). -/
def defaultListOf (t : Fin 64) : Fin 8 :=
  if t = 0x0A ∨ t = 0x21 ∨ t = 0x22 ∨ t = 0x23 then 4
  else if t = 0x0B ∨ t = 0x0C ∨ t = 0x24 ∨ t = 0x25 then 5
  else if 0x10 ≤ t.val ∧ t.val ≤ 0x13 then 3
  else if 0x14 ≤ t.val ∧ t.val ≤ 0x16 then 1
  else if (0x17 ≤ t.val ∧ t.val ≤ 0x1B) ∨ t = 0x20 then 2
  else 0

/-- A list of registers read with the same SEL. -/
def snapWith (sel : BitVec 8) (offs : List (BitVec 16)) : List SnapEntry := offs.map (fun o => ⟨o, sel⟩)

/-- The factory's snapshot lists (13 R378). -/
def defaultLists : Bank 8 (List SnapEntry) :=
  #v[snapWith 0xFF [0x2400, 0x2404, 0x1C04, 0x1008, 0x100C, 0x1010, 0x1404, 0x2004, 0x2008, 0x2010, 0x4470, 0x1800],
     snapWith 0xFE [0x1C20, 0x1C24, 0x1C28, 0x1C2C, 0x1C30, 0x1C34, 0x1C3C, 0x1824, 0x1820, 0x3040, 0x2C40] ++
       snapWith 0xFF [0x2400, 0x1404],
     snapWith 0xFE [0x1024, 0x1028, 0x102C, 0x1040, 0x1058, 0x105C, 0x1060, 0x1064, 0x1068, 0x1440, 0x3020, 0x3024],
     snapWith 0xFF [0x2400, 0x2404, 0x240C, 0x2410, 0x2414, 0x2418, 0x241C, 0x2428, 0x1C04, 0x1404, 0x2008],
     snapWith 0xFE [0x2024, 0x2028, 0x202C, 0x2030, 0x2020] ++ snapWith 0xFF [0x2010, 0x2008],
     snapWith 0xFF [0x2C00, 0x2C08, 0x3000] ++ snapWith 0xFE [0x2C40, 0x2C44, 0x2C48, 0x1C20],
     [], []]

/-- The studbook record of the configuration region (13 R378). -/
structure StbRec where
  enable : BitVec 64 := 0xFFFFFFFFFFFFFFFF
  wallEn : Bool := true
  list   : Bank 64 (Fin 8) := Vector.ofFn defaultListOf
  lists  : Bank 8 (List SnapEntry) := defaultLists
deriving DecidableEq, Repr

/-- A studbook clear in progress (13 R374): its command and CLEAR_SEQ, the requests that still belong to the old log, and
record 0 of the new log once it is made, with ERASED_COUNT. -/
structure Clearing where
  cmd    : Cmd
  seq    : BitVec 32
  left   : Nat
  first  : Option (List Byte) := none
  erased : Nat := 0
deriving DecidableEq, Repr

/-- The shadows of the _HI halves of 64-bit values: yard time, operating hours, yard time at the latest wake, the serial
number, the statement register and the four Weighbridge counters (10 R323; 17; 19 R470). Each view captures into its own. -/
structure Shadows where
  yt     : Word := 0
  oph    : Word := 0
  wake   : Word := 0
  serial : Word := 0
  stmt   : Word := 0
  edis   : Word := 0
  echg   : Word := 0
  qdis   : Word := 0
  qchg   : Word := 0
deriving DecidableEq, Repr

/-- The studbook recorder (13). `made` records belong to the current log; the newest of them wait in the record queue
`queue` (oldest first), and the first `records` have entered the SB lane. `head` is the SHA-512 of the newest one. -/
structure Stb where
  cfg       : StbRec := {}
  fifo      : List StbReq := []
  queue     : List (List Byte) := []
  records   : Nat := 0
  made      : Nat := 0
  head      : List Byte := []
  logGen    : BitVec 32 := 0
  clearSeq  : BitVec 32 := 0
  refused   : Nat := 0
  refWritten : Nat := 0
  refAt     : Option Nat := none
  full      : Bool := false
  stopped   : Bool := false
  clearing  : Option Clearing := none
  clearedAt : Option Nat := none
  lostReq   : Nat := 0
  merged    : Nat := 0
  lostSince : Nat := 0
  faults    : List FaultWord := []
  sh        : Shadows := {}
deriving DecidableEq, Repr

/-- The states of a core pair (14 R388), in the order of their numbers. -/
inductive PairState where
  | off | run | selftest | dbgHalt | fault | failed | split
deriving DecidableEq, Repr

/-- One entry of the pair record (14 R399). -/
structure PairRec where
  escal     : BitVec 2 := 1
  strs      : BitVec 4 := 0xF
  stEn      : Bool := true
  intervalS : Nat := 60
deriving DecidableEq, Repr

/-- A core pair (14). -/
structure Pair where
  st       : PairState := .off
  prev     : PairState := .off
  done     : Bool := false
  splitFail : BitVec 2 := 0
  cause    : Bool := false
  mmCnt    : Nat := 0
  lastSt   : BitVec 4 := 0
  mmLane   : BitVec 2 := 0
  mmGroup  : BitVec 4 := 0
  mmValid  : Bool := false
  mmPc     : BitVec 24 := 0
  passCnt  : Nat := 0
  failCnt  : Nat := 0
  entry    : BitVec 31 := 0
  /-- The replay buffer (R397), oldest first. -/
  replay   : List DbgWrite := []
  full     : Bool := false
  stopPend : Bool := false
  testedAt : Nat := 0
  cfg      : PairRec := {}
deriving DecidableEq, Repr

/-- A PAIR_SELFTEST that waits for its pair or for the result (14 R394). -/
structure StWait where
  cmd   : Cmd
  pair  : Fin 8
  mode1 : Bool
  since : Nat
  began : Bool
deriving DecidableEq, Repr

/-- `PAIR_BOOT`, the debug unlock and the boot record (14 R391, R395; 18 R460). MODE 0 service, 1 test, 2 recovery. The
unlock ends at `expires` in ms of operating hours. -/
structure PairCtl where
  bootCode : BitVec 8 := 0
  stopCnt  : Nat := 0
  split    : Bool := false
  mode     : BitVec 2 := 0
  unlocked : BitVec 8 := 0
  expires  : Nat := 0
  attached : Bool := false
  dbgSeq   : BitVec 32 := 0
  /-- PAIR_SELFTEST commands that wait, oldest first. -/
  waits    : List StWait := []
  /-- The boundary-scan instruction EXTEST is in force (R393). -/
  extest   : Bool := false
  /-- The boot record: takes effect at the next boot. -/
  bootSplit : Bool := false
  bootTest  : Bool := false
deriving DecidableEq, Repr

/-- The power states (15 R400), in the order of STATE. -/
inductive PwrState where
  | run | idle | rest | stabled
deriving DecidableEq, Repr

/-- A request for a state or a run level, with the host command that made it (15 R408). -/
structure PwrReq where
  level : Bool
  val   : BitVec 2
  wakeEn : BitVec 7
  cmd   : Option Cmd
deriving DecidableEq, Repr

/-- What the regulator was last asked for (15 R402, R403). -/
inductive PmbusWhy where
  | powerOn | levelUp (target : BitVec 2) | levelDown (target : BitVec 2) | revert | entry | wake | check
deriving DecidableEq, Repr

/-- An entry of the accounting log (15 R422): the code, the operating hours in ms and the requested state. -/
structure PwrLog where
  code  : BitVec 4
  hours : Nat
  state : BitVec 2
deriving DecidableEq, Repr

/-- Where a wake or a start-up stands (15 R417, R419, R421): the step that has not yet signalled ready (0 while the AON waits
to retry step 1, 5 once the islands of a check cycle are up or the comparator test has stopped it), the source, whether it is a
check cycle, and whether it boots. `loud` says whether `HOST_WAKE` is asserted; `since` counts RTC ticks. -/
structure Wake where
  step   : Nat
  src    : BitVec 4
  check  : Bool
  boot   : Bool
  loud   : Bool
  since  : Nat
deriving DecidableEq, Repr

/-- The power record (15 R425). -/
structure PwrRec where
  pmbAddr    : BitVec 7 := 0x20
  voutExp    : Int := -12
  startLevel : BitVec 2 := 0
  wakeEn     : BitVec 7 := 0x6F
  sinScanMs  : Nat := 250
deriving DecidableEq, Repr

/-- Which islands are ready (01; 15 R417). -/
structure Islands where
  coreA : Bool := false
  coreB : Bool := false
  est   : Bool := false
  port  : Bank 4 Bool := Bank.fill 4 false
  net   : Bool := false
  host  : Bool := false
  mem   : Bool := false
  tb    : Bool := false
  halter : Bool := false
  /-- When each PORT island last became ready (05 R157). -/
  portAt : Bank 4 Nat := Bank.fill 4 0
deriving DecidableEq, Repr

/-- Power states, run levels and the regulator (15). -/
structure Pwr where
  st        : PwrState := .run
  target    : PwrState := .run
  phase     : Nat := 0
  phaseAt   : Nat := 0
  startAt   : Nat := 0
  entry     : Option PwrReq := none
  joined    : List Cmd := []
  pend      : Option PwrReq := none
  levelBusy : Bool := false
  levelCmd  : Option Cmd := none
  level     : BitVec 2 := 2
  clkLevel  : BitVec 2 := 2
  veto      : Bool := false
  pgood     : Bool := false
  lastSrc   : BitVec 4 := 9
  /-- The mask in force, and the one before the entry in progress. -/
  wakeEn    : BitVec 7 := 0x6F
  wakeKeep  : BitVec 7 := 0x6F
  wakeCnt   : Nat := 0
  refuseCnt : Nat := 0
  abortCnt  : Nat := 0
  log       : List PwrLog := []
  retries   : Nat := 0
  faultCnt  : Nat := 0
  lastStatus : BitVec 16 := 0
  entryMs   : Nat := 0
  wake10us  : Nat := 0
  wakeHours : Nat := 0
  pmbus     : Option PmbusWhy := none
  wake      : Option Wake := none
  /-- A wake event that arrived after A4 (R409), and the retries of a wake after a power fault (R419). -/
  latched   : Option (BitVec 4) := none
  wakeFails : Nat := 0
  failAt    : Nat := 0
  hostWake  : Bool := false
  /-- RTC ticks at the entry of the state, for the seconds of R406. -/
  enteredRtc : Nat := 0
  /-- Safety-input readings at phase 5, bit 2n channel A and 2n + 1 channel B (R416). -/
  sinAt5    : BitVec 16 := 0
  /-- CORE-A, CORE-B and EST are held in reset after a loss of `PGOOD` (R404). -/
  held      : Bool := false
  /-- No boot has completed since the AON power-on, and START_LEVEL is yet to come (R400). -/
  startDue  : Bool := true
  cfg       : PwrRec := {}
deriving DecidableEq, Repr

/-- The retention image (15 R412–R415, R418): the credit and the entries as AON holds them and as the newest image header
holds them, and the 4 KiB blocks of SRAM restored since the wake while the restoration is not complete. -/
structure Ret where
  credit   : Nat := 65535
  imgValid : Bool := false
  imgUe    : Bool := false
  entries  : Nat := 0
  hdrCredit  : Nat := 65535
  hdrEntries : Nat := 0
  pending  : Bool := false
  restored : List Nat := []
  /-- Operating hours in ms at the latest gain of credit. -/
  creditAt : Nat := 0
deriving DecidableEq, Repr

/-- A die sensor (16 R427–R434). Temperatures in 0.25 °C. `held` is the reading before the disagreement that runs since
`disSince`. -/
structure Sensor where
  reading  : Int := 0
  eff      : Int := 0
  failed   : Bool := false
  disSince : Option Nat := none
  held     : Int := 0
  vote     : Bool := false
  subst    : BitVec 4 := 0
  /-- Learned offsets to the lower- and the higher-numbered neighbour, exact. -/
  ofsLo    : Rat := 0
  ofsHi    : Rat := 0
deriving DecidableEq, Repr

/-- Thermal management (16). -/
structure Therm where
  sensor    : Bank 12 Sensor := Bank.fill 12 {}
  warn      : Bool := false
  throttle  : Bool := false
  level     : Nat := 0
  tMax      : Int := 0
  hot       : BitVec 4 := 0
  thrCnt    : Nat := 0
  shutCnt   : Nat := 0
  /-- A thermal shut-down stands, and the sensor that completed its call. -/
  shutDown  : Bool := false
  shutBy    : Fin 12 := 0
  coolSince : Option Nat := none
deriving DecidableEq, Repr

/-- The four clocks of record (17). `ytime` counts yard ticks, `rtc` RTC ticks since the last sub-second reset,
`rtcBase` the seconds they add to. -/
structure Clk where
  ytime    : Nat := 0
  ophMs    : Nat := 0
  /-- Yard ticks towards the next millisecond awake, and the accumulator of R443 in Stabled. -/
  ophTicks : Nat := 0
  ophAcc   : Nat := 0
  pcc      : Nat := 0
  /-- RTC ticks since AON power-on, with the eighths of a yard tick not yet worth one. -/
  rtcTicks : Nat := 0
  rtcFrac  : Nat := 0
  /-- RTC seconds at, and ticks since, the latest set. -/
  rtcBase  : Nat := 0
  rtcFrom  : Nat := 0
  rtcSet   : Bool := false
  alarm    : Nat := 0
  chkS     : Nat := 0
  chkFrom  : Nat := 0
  ytUnc    : Bool := false
  ytWake   : Nat := 0
  y0       : Nat := 0
  c0       : Nat := 0
  /-- Operating hours in ms at the latest write of the hours cell (R445). -/
  hoursAt  : Nat := 0
deriving DecidableEq, Repr

/-- What the device keeps of an image (18 R455–R459): STATE, REASON, UE, level, version and digest. -/
structure Image where
  st      : BitVec 2 := 0
  reason  : BitVec 4 := 0
  ue      : Bool := false
  rbLevel : BitVec 7 := 0
  version : BitVec 32 := 0
  digest  : BitVec 512 := 0
deriving DecidableEq, Repr

/-- A command that completes once its writes are in MRAM (13 R374, 18 R459, R461, 12 R362). -/
structure MramWait where
  cmd    : Cmd
  addrs  : List Nat
  result : BitVec 128
deriving DecidableEq, Repr

/-- The tack store and what boot found (18). -/
structure Sec where
  bootSel  : Bool := false
  running  : Bool := false
  result   : BitVec 2 := 0
  rbCount  : BitVec 7 := 0
  owner    : Option (BitVec 256) := none
  service  : Option (BitVec 256) := none
  ownerSeq : BitVec 32 := 0
  cfgSeq   : BitVec 32 := 0
  test     : Bool := false
  /-- Boot has applied the configuration: configured register fields show it from then on. -/
  booted   : Bool := false
  recovery : Bool := false
  /-- A start-up that boots is under way: the boot ROM has not run yet (R457). -/
  bootDue  : Bool := true
  img      : Bank 2 Image := Bank.fill 2 {}
  waits    : List MramWait := []
deriving DecidableEq, Repr

/-- A CAN controller (19 R472; 18 R460). -/
structure Can where
  st      : BitVec 2 := 3
  tec     : Nat := 0
  rec_    : Nat := 0
  busoff  : Nat := 0
  nomKbps : Nat := 500
  dataKbps : Nat := 2000
  nomSp   : Nat := 800
  dataSp  : Nat := 750
deriving DecidableEq, Repr

/-- An Ethernet MAC (19 R472; 18 R460). `mac` is none while it holds the device's assigned address. -/
structure Eth where
  link   : Bool := false
  speed  : BitVec 2 := 3
  rxDrop : Nat := 0
  mac    : Option (BitVec 48) := none
  cfgSpeed : BitVec 8 := 2
deriving DecidableEq, Repr

/-- The networks (19 R472). -/
structure Net where
  can : Bank 4 Can := Bank.fill 4 {}
  eth : Bank 2 Eth := Bank.fill 2 {}
deriving DecidableEq, Repr

/-- Records of the device that belong nowhere else: access faults of the cores (01 R25), the shadows and the selectors of
the host's view and of each core's (00 R13; 10 R323), and the stall package sequence (03 R101). -/
structure Misc where
  sel       : Sel := {}
  coreSel   : Bank 16 Sel := Bank.fill 16 {}
  accErr    : AccErr := {}
  coreFault : Bank 16 Bool := Bank.fill 16 false
  sh        : Shadows := {}
  coreSh    : Bank 16 Shadows := Bank.fill 16 {}
  stallSeq  : BitVec 32 := 0
deriving DecidableEq, Repr

end Sys2Proof.Machine
end

