-- ==== Sys2Proof/Machine/State.lean ====
section
/-! DEFINITION. The state of the block, the reasons a step can stop, and the state right after reset (an AON power-on of a factory-fresh device, before any step). -/

namespace Sys2Proof.Machine

/-- The block. Unit position u is 4 × stall + unit; switch channel numbers, ring pairs, strings and pairs are those of the spec. -/
structure State where
  /-- Commands that wait, first in, first out. -/
  pending : List Instr := []
  misc    : Misc := {}
  evt     : Evts := {}
  mem     : Mem := {}
  cross   : Crossings := {}
  yard    : Yard := {}
  hif     : Hif := {}
  rings   : Bank 16 Ring := Bank.fill 16 {}
  msix    : Bank 32 Vec := Bank.fill 32 {}
  troughs : Troughs := {}
  stalls  : Bank 32 Stall := Bank.fill 32 {}
  ulink   : Bank 128 UnitLink := Bank.fill 128 {}
  uswp    : Bank 128 UnitSweep := Bank.fill 128 {}
  uint    : Bank 128 UnitInteg := Bank.fill 128 {}
  ucal    : Bank 128 UnitCal := Bank.fill 128 {}
  uest    : Bank 128 EstUnit := Bank.fill 128 {}
  integ   : Integ := {}
  sleep   : SleepChk := {}
  est     : Est := {}
  estr    : Bank 4 EstString := Bank.fill 4 {}
  strs    : Bank 4 Str := #v[{ cfg := { linkGroup := 0 } }, { cfg := { linkGroup := 1 } },
                            { cfg := { linkGroup := 2 } }, { cfg := { linkGroup := 3 } }]
  trips   : Trips := {}
  pub     : LimPub := {}
  halter  : Halter := {}
  clocks  : Clocks := {}
  swc     : Bank 24 Swc := Bank.fill 24 {}
  swctl   : SwcCtl := {}
  wb      : Wb := {}
  cal     : CalDev := {}
  strcal  : Bank 4 StrCal := Bank.fill 4 {}
  stb     : Stb := {}
  pairs   : Bank 8 Pair := Bank.fill 8 {}
  pctl    : PairCtl := {}
  pwr     : Pwr := {}
  isl     : Islands := {}
  ret     : Ret := {}
  therm   : Therm := {}
  clk     : Clk := {}
  sec     : Sec := {}
  net     : Net := {}
  /-- The model's own record of what has left the device, oldest first. -/
  out     : List OutEvent := []
  /-- The model's own counter of free values drawn so far. -/
  free    : Nat := 0
deriving DecidableEq, Repr

/-- Why a step can fault. No rule of the spec stops the block, and no meaning of this model raises a fault: the
constructor exists so that the type is inhabited, and is raised by nobody (safe). -/
inductive Fault where
  /-- Raised by nobody; safe. -/
  | none
deriving DecidableEq, Repr

/-- Why a step can refuse a command. -/
inductive Refusal where
  /-- Raised by the dispatcher for a command whose meaning is not written; safe. -/
  | notModelled (mnemonic : String)
deriving DecidableEq, Repr

/-- The first log, which the factory has written (13 R374): record 0 of the studbook region, a LOG_START with LOG_GEN 0,
CLEAR_SEQ 0 and every erased field 0, one occurrence, and its CRC-32C. The bytes not listed are 0. -/
def factoryLog : List Host.Cell :=
  [(0x1800000, 0x31), (0x1800001, 0x42), (0x1800002, 0x54), (0x1800003, 0x53), (0x1800020, 0x01), (0x18000FC, 0x39),
   (0x18000FD, 0x96), (0x18000FE, 0xF9), (0x18000FF, 0x91)]

/-- The machine right after reset: every field at the value the spec states for an AON power-on, or at the value the
assumption log names. -/
def State.reset : State := { mem := { mram := factoryLog } }

end Sys2Proof.Machine
end

