-- ==== Sys2Proof/Machine/Memory.lean ====
section
/-! DEFINITION. The two memories as sparse lists of bytes, the regions of MRAM, and the MRAM write queue (chapters 01 and 11). -/

namespace Sys2Proof.Machine

/-- What a byte of memory that nothing has written reads as (DESIGN CHOICE, log entry 3). -/
def Memory.blank : Byte := 0

/-- The byte at an address. -/
def Memory.read : List Host.Cell → Nat → Byte
  | [], _ => Memory.blank
  | (k, b) :: m, a => if k = a then b else Memory.read m a

/-- A byte written at an address; the list stays in its one form. -/
def Memory.write : List Host.Cell → Nat → Byte → List Host.Cell
  | [], a, b => if b = Memory.blank then [] else [(a, b)]
  | (k, c) :: m, a, b =>
    if a < k then (if b = Memory.blank then (k, c) :: m else (a, b) :: (k, c) :: m)
    else if a = k then (if b = Memory.blank then m else (a, b) :: m)
    else (k, c) :: Memory.write m a b

/-- Every address of the list is above `lo`, addresses rise strictly, and no listed byte is the blank one. -/
def Memory.sortedFrom : Option Nat → List Host.Cell → Bool
  | _, [] => true
  | lo, (k, b) :: m =>
    (match lo with | none => true | some l => decide (l < k)) && decide (b ≠ Memory.blank) && Memory.sortedFrom (some k) m

/-- The one form of a memory. -/
def Memory.wf (m : List Host.Cell) : Bool := Memory.sortedFrom none m

/-- The bytes at `a`, `a + 1`, … -/
def Memory.readBytes (m : List Host.Cell) (a : Nat) : Nat → List Byte
  | 0 => []
  | n + 1 => Memory.read m a :: Memory.readBytes m (a + 1) n

/-- Bytes written at `a`, `a + 1`, … -/
def Memory.writeBytes (m : List Host.Cell) (a : Nat) : List Byte → List Host.Cell
  | [] => m
  | b :: bs => Memory.writeBytes (Memory.write m a b) (a + 1) bs

/-- The region of an MRAM offset (01 R27). -/
def regionOf (off : Nat) : Region :=
  if off < 0x600000 then .imageA
  else if off < 0x700000 then .config
  else if off < 0x701000 then .faultCell 0
  else if off < 0x800000 then .reserved
  else if off < 0xE00000 then .imageB
  else if off < 0xF00000 then .calibration
  else if off < 0xF01000 then .faultCell 1
  else if off < 0x1000000 then .reserved
  else if off < 0x1680000 then .retention
  else if off < 0x1690000 then .weighbridge
  else if off < 0x1700000 then .reserved
  else if off < 0x1701000 then .faultCell 2
  else if off < 0x1800000 then .reserved
  else .studbook

/-- The lane of a region (11 R339). -/
def laneOf : Region → Lane
  | .weighbridge => .wb
  | .studbook | .faultCell _ => .sb
  | .calibration => .cal
  | .config | .imageA | .imageB | .retention | .reserved => .cr

/-- The codewords of a lane, oldest first. -/
def MramQueue.lane (q : MramQueue) : Lane → List Codeword
  | .wb => q.wb
  | .sb => q.sb
  | .cal => q.cal
  | .cr => q.cr

/-- A queue with a lane replaced. -/
def MramQueue.setLane (q : MramQueue) : Lane → List Codeword → MramQueue
  | .wb, l => { q with wb := l }
  | .sb, l => { q with sb := l }
  | .cal, l => { q with cal := l }
  | .cr, l => { q with cr := l }

/-- Every codeword that waits in a lane. -/
def MramQueue.all (q : MramQueue) : List Codeword := q.wb ++ q.sb ++ q.cal ++ q.cr

/-- The newest codeword for an address that waits in a lane. -/
def MramQueue.newest (q : MramQueue) (addr : Nat) : Option Codeword :=
  ((q.lane (laneOf (regionOf addr))).filter (fun w => w.addr == addr)).getLast?

/-- A byte of MRAM as every requester reads it: queued stores are forwarded (01 R29), reserved regions read 0 (R28). -/
def Mem.mramByte (m : Mem) (a : Nat) : Byte :=
  if regionOf a = .reserved then 0
  else
    match m.queue.newest (a / 16 * 16) with
    | some w => w.bytes.getD (a % 16) 0
    | none => Memory.read m.mram a

/-- Bytes of MRAM as every requester reads them. -/
def Mem.mramBytes (m : Mem) (a : Nat) : Nat → List Byte
  | 0 => []
  | n + 1 => m.mramByte a :: m.mramBytes (a + 1) n

/-- One codeword into the lane of its region; a store of part of a codeword is merged with what the codeword reads (01 R31, 11 R339). -/
def Mem.store (m : Mem) (now addr off : Nat) (bytes : List Byte) : Mem :=
  let old := m.mramBytes addr 16
  let lane := laneOf (regionOf addr)
  let word : Codeword := { addr := addr, bytes := padTo 16 (splice old off bytes), at_ := now }
  if regionOf addr = .reserved then m
  else { m with queue := m.queue.setLane lane (m.queue.lane lane ++ [word]) }

/-- The stores of a byte string, codeword by codeword in rising order; `fuel` bounds the codewords. -/
def Mem.storeAll : Nat → Mem → Nat → Nat → List Byte → Mem
  | 0, m, _, _, _ => m
  | fuel + 1, m, now, addr, bytes =>
    if bytes.isEmpty then m
    else
      let off := addr % 16
      let part := bytes.take (16 - off)
      Mem.storeAll fuel (m.store now (addr - off) off part) now (addr - off + 16) (bytes.drop (16 - off))

/-- A byte string stored at an MRAM offset. -/
def Mem.storeBytes (m : Mem) (now addr : Nat) (bytes : List Byte) : Mem :=
  Mem.storeAll (bytes.length / 16 + 2) m now addr bytes

/-- The owner of each slot of the wheel (11 R340). -/
def wheelOwner (slot : Fin 10) : Lane :=
  if slot = 0 then .wb
  else if slot = 1 ∨ slot = 4 ∨ slot = 7 then .sb
  else if slot = 3 ∨ slot = 6 then .cal
  else .cr

/-- The lanes in the order in which a slot is offered to them (11 R340). -/
def wheelOrder : Lane → List Lane
  | .wb => [.wb, .sb, .cal, .cr]
  | .sb => [.sb, .cal, .cr, .wb]
  | .cal => [.cal, .cr, .wb, .sb]
  | .cr => [.cr, .wb, .sb, .cal]

/-- The lane that writes in this slot: the owner, or the next one that is not empty. -/
def MramQueue.chosen (q : MramQueue) : Option Lane :=
  (wheelOrder (wheelOwner q.slot)).find? (fun l => !(q.lane l).isEmpty)

/-- LANE of `MQ_MAXLAT`. -/
def Lane.code : Lane → BitVec 2
  | .wb => 0
  | .sb => 1
  | .cal => 2
  | .cr => 3

end Sys2Proof.Machine
end

