-- ==== Sys2Proof/Machine/Flags.lean ====
section
/-! DEFINITION. The event bits, what `EVT_SUM` makes of them, and the vectors they send (19 R473; 02 R75, R76). -/

namespace Sys2Proof.Machine

/-- A register with bit `n` set. -/
def setBit {w : Nat} (x : BitVec w) (n : Nat) : BitVec w := x ||| BitVec.ofNat w (2 ^ n)

/-- A register with bit `n` as `v`. -/
def putBit {w : Nat} (x : BitVec w) (n : Nat) (v : Bool) : BitVec w :=
  if v then setBit x n else x &&& ~~~ BitVec.ofNat w (2 ^ n)

/-- The value 1 or 0 of a bit. -/
def bit (b : Bool) : Nat := if b then 1 else 0

/-- `EVT_SUM`: one bit per event source, in the order of R473. -/
def evtSum (e : Evts) : BitVec 20 :=
  [e.memUe, e.acc, e.stall != 0, e.integ != 0, e.trip != 0, e.time != 0, e.est != 0, e.str != 0, e.swc != 0,
   e.hlt != 0, e.stb != 0, e.wb != 0, e.cal != 0, e.pair != 0, e.sec != 0, e.pwr != 0, e.th != 0, e.aged != 0,
   e.dbErr, e.ring.toList.any (fun r => r != 0)].zipIdx.foldl (fun acc p => putBit acc p.2 p.1) 0

/-- Whether the device may send posted writes: Bus Master Enable is 1 and the HOST island is awake (02 R44, R57). -/
def State.canDma (s : State) : Bool := s.hif.busMaster && s.isl.host

/-- A vector is due: its message is sent, or its pending bit is set while it is masked or no message can leave
(02 R76; DESIGN CHOICE for the latter, log entry 5). -/
def State.sendVector (s : State) (v : Fin 32) : State :=
  let e := s.msix.at v
  if e.masked || !s.canDma then { s with msix := s.msix.upd v (fun e => { e with pending := true }) }
  else { s with out := s.out ++ [.msix v e.addr e.data] }

/-- The vector of the event block. -/
def State.evtVector (s : State) : Fin 32 := ⟨s.hif.evtVec.toNat, s.hif.evtVec.isLt⟩

/-- The event interrupt (19 R473): `EVT_VEC` is sent once when an enabled bit of `EVT_SUM` rose from `before` to `after`. -/
def eventInterrupt (before after : State) : State :=
  let rose := evtSum after.evt &&& ~~~ evtSum before.evt &&& after.evt.en
  if rose = 0 then after else after.sendVector after.evtVector

/-- What every meaning answers: the next state, with the event interrupt that the change of the events calls for. -/
def answer (before after : State) : Host.Outcome State Fault Refusal := .next (eventInterrupt before after)

end Sys2Proof.Machine
end

