-- ==== Sys2Proof/Machine/Ops.lean ====
section
/-! DEFINITION. The shared operations: members of the banks, time, event bits, memory errors, studbook requests, MRAM stores, and the completion of commands. -/

namespace Sys2Proof.Machine

-- Members of the banks.

/-- The state with ring pair `r` changed. -/
def State.onRing (s : State) (r : Fin 16) (f : Ring → Ring) : State := { s with rings := s.rings.upd r f }
/-- The state with stall `i` changed. -/
def State.onStall (s : State) (i : Fin 32) (f : Stall → Stall) : State := { s with stalls := s.stalls.upd i f }
/-- The state with the link part of unit position `u` changed. -/
def State.onLink (s : State) (u : Fin 128) (f : UnitLink → UnitLink) : State := { s with ulink := s.ulink.upd u f }
/-- The state with the sweep part of unit position `u` changed. -/
def State.onSweep (s : State) (u : Fin 128) (f : UnitSweep → UnitSweep) : State := { s with uswp := s.uswp.upd u f }
/-- The state with the integrity part of unit position `u` changed. -/
def State.onInteg (s : State) (u : Fin 128) (f : UnitInteg → UnitInteg) : State := { s with uint := s.uint.upd u f }
/-- The state with the calibration part of unit position `u` changed. -/
def State.onCal (s : State) (u : Fin 128) (f : UnitCal → UnitCal) : State := { s with ucal := s.ucal.upd u f }
/-- The state with the estimator part of unit position `u` changed. -/
def State.onEst (s : State) (u : Fin 128) (f : EstUnit → EstUnit) : State := { s with uest := s.uest.upd u f }
/-- The state with the estimator part of string `i` changed. -/
def State.onEstr (s : State) (i : Fin 4) (f : EstString → EstString) : State := { s with estr := s.estr.upd i f }
/-- The state with string `i` changed. -/
def State.onStr (s : State) (i : Fin 4) (f : Str → Str) : State := { s with strs := s.strs.upd i f }
/-- The state with channel `ch` changed. -/
def State.onSwc (s : State) (ch : Fin 24) (f : Swc → Swc) : State := { s with swc := s.swc.upd ch f }
/-- The state with pair `p` changed. -/
def State.onPair (s : State) (p : Fin 8) (f : Pair → Pair) : State := { s with pairs := s.pairs.upd p f }
/-- The state with the event registers changed. -/
def State.onEvt (s : State) (f : Evts → Evts) : State := { s with evt := f s.evt }
/-- The state with the halter changed. -/
def State.onHalter (s : State) (f : Halter → Halter) : State := { s with halter := f s.halter }
/-- The state with one more thing that left the device. -/
def State.emit (s : State) (e : OutEvent) : State := { s with out := s.out ++ [e] }

-- Numbers of places.

/-- The stall of a unit position. -/
def stallOf (u : Fin 128) : Fin 32 := ⟨u.val / 4, by omega⟩
/-- The unit of a unit position within its stall. -/
def unitOf (u : Fin 128) : Fin 4 := ⟨u.val % 4, by omega⟩
/-- The unit position of a unit of a stall (04 R138). -/
def unitPos (st : Fin 32) (k : Fin 4) : Fin 128 := ⟨4 * st.val + k.val, by omega⟩
/-- The four unit positions of a stall. -/
def unitsOf (st : Fin 32) : List (Fin 128) := [unitPos st 0, unitPos st 1, unitPos st 2, unitPos st 3]
/-- The PORT island of a stall. -/
def portOf (st : Fin 32) : Fin 4 := ⟨st.val / 8, by omega⟩
/-- A number as a place of a bank, reduced modulo its size. -/
def idx (n : Nat) (h : 0 < n) (v : Nat) : Fin n := ⟨v % n, Nat.mod_lt v h⟩
/-- Every place of a bank. -/
def places (n : Nat) : List (Fin n) := List.finRange n

/-- The stalls of a string, in order. -/
def State.stallsOf (s : State) (str : Fin 4) : List (Fin 32) :=
  (places 32).filter (fun i => (s.stalls.at i).str == some str)
/-- The unit positions of a string, in order. -/
def State.unitsOfStr (s : State) (str : Fin 4) : List (Fin 128) := (s.stallsOf str).flatMap unitsOf
/-- The string of a unit position. -/
def State.strOf (s : State) (u : Fin 128) : Option (Fin 4) := (s.stalls.at (stallOf u)).str

-- Time.

/-- Ticks of yard time in a frame, a millisecond and a second (17 R439). -/
def ticksPerFrame : Nat := 8000
/-- Ticks of yard time in a millisecond. -/
def ticksPerMs : Nat := 64000
/-- Ticks of yard time in a second. -/
def ticksPerS : Nat := 64000000
/-- Ticks of yard time in a microsecond. -/
def ticksPerUs : Nat := 64
/-- Yard time in ticks. -/
def State.now (s : State) : Nat := s.clk.ytime
/-- The number of the running frame. -/
def State.frame (s : State) : Nat := s.clk.ytime / ticksPerFrame
/-- Milliseconds of yard time. -/
def State.nowMs (s : State) : Nat := s.clk.ytime / ticksPerMs
/-- Whole seconds of the RTC. -/
def State.rtcSec (s : State) : Nat := s.clk.rtcBase + (s.clk.rtcTicks - s.clk.rtcFrom) / 32768
/-- Operating hours in ms. -/
def State.oph (s : State) : Nat := s.clk.ophMs

/-- Time passes while the clocks run: yard time, the operating hours (1 ms per 64,000 ticks) and the RTC, whose tick is
15625 / 8 ticks of yard time (17 R439, R441, R443). -/
def Clk.advance (c : Clk) (n : Nat) : Clk :=
  { c with
    ytime := c.ytime + n
    ophMs := c.ophMs + (c.ophTicks + n) / ticksPerMs, ophTicks := (c.ophTicks + n) % ticksPerMs
    rtcTicks := c.rtcTicks + (c.rtcFrac + 8 * n) / 15625, rtcFrac := (c.rtcFrac + 8 * n) % 15625 }

/-- The state after `n` ticks of yard time in which nothing else happens. -/
def State.advance (s : State) (n : Nat) : State := { s with clk := s.clk.advance n }

-- Free values.

/-- A fresh free value of the model: the counter it is drawn at, and the state with the counter advanced. -/
def State.draw (s : State) : Nat × State := (s.free, { s with free := s.free + 1 })

-- MRAM stores (11 R339).

/-- A byte string stored at an MRAM offset, through its lane. -/
def State.mramStore (s : State) (addr : Nat) (bytes : List Byte) : State :=
  { s with mem := s.mem.storeBytes s.now addr bytes }

/-- Bytes of MRAM. -/
def State.mramRead (s : State) (addr n : Nat) : List Byte := s.mem.mramBytes addr n

/-- The codeword addresses of a byte string at an MRAM offset. -/
def codewordsOf (addr len : Nat) : List Nat :=
  (List.range ((addr % 16 + len + 15) / 16)).map (fun i => addr / 16 * 16 + 16 * i)

-- SRAM and its image (15 R412, R418). TCM of core c lies at key c × 0x2_0000, shared SRAM from key 0x20_0000 on.

/-- Where the retention image lies in MRAM (15 R412). -/
def imageBase : Nat := 0x1000000
/-- Bytes of SRAM in the image. -/
def imageSize : Nat := 0x600000
/-- Bytes of an SRAM block that the restoration moves at a time (15 R418). -/
def blockSize : Nat := 4096

/-- A block of SRAM is restored from the image (15 R418). -/
def State.restoreBlock (s : State) (b : Nat) : State :=
  if s.ret.pending ∧ b ∉ s.ret.restored ∧ b < 1536 then
    let bytes := Memory.readBytes s.mem.mram (imageBase + blockSize * b) blockSize
    let done := b :: s.ret.restored
    { s with
      mem := { s.mem with sram := Memory.writeBytes s.mem.sram (blockSize * b) bytes }
      ret := if done.length = 1536 then { s.ret with pending := false, restored := [] } else { s.ret with restored := done } }
  else s

/-- Bytes into the SRAM: an access to a block that has not been restored waits for it (15 R418). -/
def State.sramStore (s : State) (key : Nat) (bytes : List Byte) : State :=
  let s := (s.restoreBlock (key / blockSize)).restoreBlock ((key + bytes.length - 1) / blockSize)
  { s with mem := { s.mem with sram := Memory.writeBytes s.mem.sram key bytes } }

/-- Bytes of SRAM, as an access reads them. -/
def State.sramRead (s : State) (key n : Nat) : List Byte :=
  Memory.readBytes ((s.restoreBlock (key / blockSize)).restoreBlock ((key + n - 1) / blockSize)).mem.sram key n

-- Studbook requests (13 R367, R373, R375, R379).

/-- Whether a trigger enters requests: IDs 0x00–0x1F and 0x3F always, the others as configured (13 R373, R378). -/
def StbRec.enabled (c : StbRec) (t : BitVec 6) : Bool := t.toNat < 32 || t == 0x3F || c.enable.getLsbD t.toNat

/-- A request arrives at the recorder (13 R367, R375, R379). -/
def Stb.enter (b : Stb) (q : StbReq) : Stb :=
  if b.fifo.length < 256 then { b with fifo := b.fifo ++ [q] }
  else
    match b.fifo.findIdx? (fun e => e.trigger == q.trigger && e.subject == q.subject) with
    | some i =>
      { b with
        fifo := b.fifo.modify i (fun e => { e with occur := satAdd 65535 e.occur q.occur })
        merged := satAdd 0xFFFF b.merged 1 }
    | none => { b with lostReq := satAdd 0xFFFF b.lostReq 1, lostSince := satAdd 0xFFFF b.lostSince 1 }

/-- Whether a request that arrives is lost: the FIFO is full and no entry is its like (13 R367). -/
def Stb.loses (b : Stb) (q : StbReq) : Bool :=
  256 ≤ b.fifo.length && !(b.fifo.any (fun e => e.trigger == q.trigger && e.subject == q.subject))

/-- A request as it reaches the recorder. A full log or a stopped recorder refuses it (13 R375, R379). -/
def State.recorderTakes (s : State) (q : StbReq) : State :=
  if !s.stb.cfg.enabled q.trigger then s
  else if s.stb.stopped || s.stb.full then { s with stb := { s.stb with refused := satAdd 0xFFFFFFFF s.stb.refused 1 } }
  else if s.stb.loses q then { s with stb := s.stb.enter q, evt := { s.evt with stb := setBit s.evt.stb 4 } }
  else { s with stb := s.stb.enter q }

/-- An event requests a studbook record. While the MEM island is not ready it waits in its crossing, and behind what waits
there already (13 R369). -/
def State.studbook (s : State) (trigger : BitVec 6) (subject : Nat) (detail : List Byte) : State :=
  let d := BitVec.ofNat 128 (leNat (detail.take 16))
  let sub := BitVec.ofNat 8 subject
  if s.isl.mem && s.cross.toRecorder.isEmpty then s.recorderTakes { trigger := trigger, subject := sub, detail := d, time := s.now, occur := 1 }
  else { s with cross := { s.cross with toRecorder := s.cross.toRecorder ++ [.studbook trigger sub d s.now] } }

-- Uncorrectable memory errors (01 R33, R34).

/-- The finder of an uncorrectable error (01 R35). -/
inductive UeSrc where
  | coreLoad | coreRmw | dmaRead | trough | estimator | scrubber | mramRmw | bootRom
deriving DecidableEq, Repr

/-- UE_SRC of a finder. -/
def UeSrc.code : UeSrc → BitVec 3
  | .coreLoad => 0
  | .coreRmw => 1
  | .dmaRead => 2
  | .trough => 3
  | .estimator => 4
  | .scrubber => 5
  | .mramRmw => 6
  | .bootRom => 7

/-- Whether a codeword of an ECC bank lies in protection data: TCMs of cores 0 and 1 (core 1 not in split mode), shared
bank 0, the calibration set and the configuration region (01 R34). `off` is the byte offset within the bank. -/
def protectionData (split : Bool) (bank off : Nat) : Bool :=
  bank == 0 || (bank == 1 && !split) || bank == 16 ||
  (24 ≤ bank && (match regionOf ((bank - 24) * 0x400000 + off) with | .config | .calibration => true | _ => false))

/-- One more corrected error of an ECC bank (01 R35). -/
def Mem.countCorrected (m : Mem) (bank : Fin 32) : Mem :=
  { m with ecc := m.ecc.upd bank (fun c => { c with corr := satAdd 0xFFFF c.corr 1 }) }

/-- `MEM_UE_STAT` and `MEM_UE_ADDR` as the studbook detail of MEM_UE carries them (13 R373). -/
def memUeWords (u : MemUe) (valid : Bool) : List Byte :=
  leBytes 4 (u.bank.toNat + 32 * u.src.toNat + 256 * bit u.prot + 512 * bit valid + 65536 * u.count) ++
    leBytes 4 u.off.toNat

/-- The image in whose region an MRAM codeword lies, if it runs now (18 R458). -/
def State.runningImageAt (s : State) (bank off : Nat) : Option (Fin 2) :=
  if bank < 24 || !s.sec.booted || s.sec.recovery then none
  else
    match regionOf ((bank - 24) * 0x400000 + off) with
    | .imageA => if s.sec.running then none else some 0
    | .imageB => if s.sec.running then some 1 else none
    | _ => none

/-- An uncorrectable error in a codeword (01 R33): the registers, the event, the studbook record unless it lies in the
studbook banks, and the halter fault for protection data, through its crossing. One in the running image marks it (18 R458). -/
def State.memoryError (s : State) (src : UeSrc) (bank : Fin 32) (off : Nat) : State :=
  let prot := protectionData s.pctl.split bank.val off
  let ue : MemUe :=
    { bank := BitVec.ofNat 5 bank.val, src := src.code, prot := prot,
      count := satAdd 0xFFFF s.mem.ue.count 1, off := BitVec.ofNat 22 (off / 16 * 16) }
  let s : State := match s.runningImageAt bank.val off with
    | some n => { s with sec := { s.sec with img := s.sec.img.upd n (fun i => { i with ue := true }) } }
    | none => s
  let s := { s with
    mem := { s.mem with ue := ue, ecc := s.mem.ecc.upd bank (fun c => { c with ue := satAdd 0xFF c.ue 1 }) }
    evt := { s.evt with memUe := true } }
  let s := if 30 ≤ bank.val then s else s.studbook 0x06 bank.val (memUeWords ue true)
  if prot then { s with cross := { s.cross with memToHalter := s.cross.memToHalter ++ [.memFault] } } else s

-- Commands in flight and their completion (02 R63 to R76).

/-- STATUS values (02 R70). -/
def stSuccess : BitVec 8 := 0x00
/-- FETCHED. -/
def stFetched : BitVec 8 := 0x01
/-- BAD_OPCODE. -/
def stBadOpcode : BitVec 8 := 0x10
/-- WRONG_CLASS. -/
def stWrongClass : BitVec 8 := 0x11
/-- BAD_OPERAND. -/
def stBadOperand : BitVec 8 := 0x12
/-- DMA_ERROR. -/
def stDmaError : BitVec 8 := 0x13
/-- MEM_UE. -/
def stMemUe : BitVec 8 := 0x14
/-- CANCELLED. -/
def stCancelled : BitVec 8 := 0x15
/-- BUSY. -/
def stBusy : BitVec 8 := 0x16
/-- DEP_FORWARD. -/
def stDepForward : BitVec 8 := 0x20
/-- DEP_FAILED. -/
def stDepFailed : BitVec 8 := 0x21
/-- DEP_STALE. -/
def stDepStale : BitVec 8 := 0x22
/-- AUTH_FAIL. -/
def stAuthFail : BitVec 8 := 0x30
/-- REFUSED. -/
def stRefused : BitVec 8 := 0x31

/-- The submission stamp that the next fetched entry receives (02 R63). -/
def Hif.stampNext (h : Hif) : BitVec 32 := BitVec.ofNat 32 h.issued

/-- How far a stamp lies behind the next one, 1 for the newest issued. -/
def Hif.age (h : Hif) (stamp : BitVec 32) : Nat := (h.stampNext - stamp).toNat

/-- Whether a stamp is one of the 4096 most recent that have been issued (02 R63, R65). -/
def Hif.tracked (h : Hif) (stamp : BitVec 32) : Bool :=
  1 ≤ h.age stamp && h.age stamp ≤ 4096 && h.age stamp ≤ h.issued

/-- The command in flight with a stamp. -/
def Hif.flight (h : Hif) (stamp : BitVec 32) : Option Flight := h.flights.find? (fun f => f.cmd.stamp == stamp)

/-- Commands of a ring pair in flight. -/
def Hif.ringFlights (h : Hif) (r : Fin 16) : Nat := (h.flights.filter (fun f => f.cmd.ring == r)).length

/-- The final status kept of a stamp. -/
def Hif.finalOf (h : Hif) (stamp : BitVec 32) : Option Final := h.finals.find? (fun f => f.stamp == stamp)

/-- A dependency told that a stamp ended. -/
def Dep.told (stamp : BitVec 32) (status : BitVec 8) (d : Dep) : Dep :=
  if d.stamp == stamp then { d with ended := some status } else d

/-- The record of final statuses with one more, for the stamps still tracked (02 R65). -/
def Hif.recordFinal (h : Hif) (stamp : BitVec 32) (status : BitVec 8) (stream : Bool) : Hif :=
  let kept := h.finals.filter (fun f => h.tracked f.stamp && f.stamp != stamp)
  { h with
    finals := if h.tracked stamp then ⟨stamp, status, stream⟩ :: kept else kept
    flights := h.flights.map (fun f => { f with deps := f.deps.map (Dep.told stamp status) }) }

/-- A stream opcode: STREAM_SAMPLES, STREAM_IMPEDANCE or STREAM_ESTIMATES (02 R85). -/
def isStreamOp (op : BitVec 8) : Bool := op == 0xC0 || op == 0xC1 || op == 0xC2

/-- A ring pair's completion trough counts as full (11 R336). -/
def Ring.troughFull (r : Ring) : Bool := 1920 ≤ r.trough.length

/-- Entries free in the host's completion ring as the last poll showed it (02 R49, R74). -/
def Ring.hostFree (r : Ring) : Nat :=
  (r.cqCi + 2 ^ r.cqLog2.toNat - 1 - r.cqPi % 2 ^ r.cqLog2.toNat) % 2 ^ r.cqLog2.toNat

/-- A ring pair is eligible for a fetch (11 R332), `total` being the commands in flight of the device. -/
def Ring.eligible (r : Ring) (own total : Nat) : Bool :=
  r.st == .active && r.sqPi != r.sqCi && own + r.reading < 64 && total < 256 && !r.troughFull

/-- Since when each ring pair has been eligible without a fetch, brought up to date (11 R334). -/
def State.refreshEligible (s : State) : State :=
  let total := s.hif.flights.length + (s.rings.toList.map Ring.reading).sum
  { s with rings := s.rings.each (fun i r =>
      if r.eligible (s.hif.ringFlights i) total then
        { r with eligibleAt := some (r.eligibleAt.getD s.now) }
      else { r with eligibleAt := none }) }

/-- A completion into the trough of its ring pair, which has just been active (02 R57, R74). Nothing is posted on a
disabled ring pair or for a command whose completions are discarded (R53). -/
def State.post (s : State) (c : Cmd) (op status : BitVec 8) (result : BitVec 128) (final gap : Bool) : State :=
  let r := s.rings.at c.ring
  if r.st = .disabled || r.discard then s
  else
    { s.onRing c.ring (fun r => { r with trough := r.trough ++
        [{ tag := c.tag, status := status, opcode := op, stamp := c.stamp, result := result,
           ctime := BitVec.ofNat 32 s.now, final := final, gap := gap, noIrq := c.noIrq }] }) with
      hif := { s.hif with activeAt := s.now, pollGap := 0, dueAt := min s.hif.dueAt (s.now + 128) } }

/-- The final completion of a command: posted if the command is in flight, which then ends; its status is kept, and the
commands that depend on it are told (02 R65, R68). -/
def State.complete (s : State) (c : Cmd) (status : BitVec 8) (result : BitVec 128 := 0) : State :=
  match s.hif.flight c.stamp with
  | none => { s with hif := s.hif.recordFinal c.stamp status false }
  | some f =>
    let s := s.post f.cmd f.opcode status result true false
    let h := { s.hif with flights := s.hif.flights.filter (fun g => g.cmd.stamp != c.stamp) }
    State.refreshEligible { s with hif := h.recordFinal c.stamp status (isStreamOp f.opcode) }

/-- A result of four dwords, dword 2 first (02 R69). -/
def dwords (d2 d3 d4 d5 : Nat) : BitVec 128 :=
  BitVec.ofNat 128 (d2 % 2 ^ 32 + 2 ^ 32 * (d3 % 2 ^ 32) + 2 ^ 64 * (d4 % 2 ^ 32) + 2 ^ 96 * (d5 % 2 ^ 32))

/-- SUCCESS with a result. -/
def State.ok (s : State) (c : Cmd) (result : BitVec 128 := 0) : State := s.complete c stSuccess result
/-- BAD_OPERAND. -/
def State.badOperand (s : State) (c : Cmd) : State := s.complete c stBadOperand
/-- REFUSED with its refuser code in dword 2 (02 R70). -/
def State.refuse (s : State) (c : Cmd) (code : Nat) : State := s.complete c stRefused (dwords code 0 0 0)
/-- BUSY. -/
def State.busy (s : State) (c : Cmd) : State := s.complete c stBusy

/-- AUTH_FAIL: a signed package failed verification, which also sets AUTH_FAIL of `SEC_EVT` (02 R70; 18). -/
def State.authFail (s : State) (c : Cmd) : State :=
  State.complete { s with evt := { s.evt with sec := setBit s.evt.sec 2 } } c stAuthFail

/-- The commands of a list, each completed with the same status and result. -/
def State.completeAll (s : State) (cs : List Cmd) (status : BitVec 8) (result : BitVec 128 := 0) : State :=
  cs.foldl (fun s c => s.complete c status result) s

/-- A command has begun to execute. -/
def State.executing (s : State) (c : Cmd) : State :=
  { s with hif := { s.hif with
      flights := s.hif.flights.map (fun f => if f.cmd.stamp == c.stamp then { f with stage := .executing } else f) } }

/-- Whether a command in flight still waits on its dependencies, and so has no effect yet. -/
def State.waits (s : State) (c : Cmd) : Bool :=
  match s.hif.flight c.stamp with
  | some f => f.stage == .waiting
  | none => false

/-- A command executes (02 R67, check 5): nothing happens while it waits on its dependencies, in recovery mode a command
that the boot ROM does not serve is REFUSED 0x0D07 (18 R458), and otherwise `body` acts. `inRecovery` says whether the
boot ROM serves it. -/
def State.run (s : State) (c : Cmd) (inRecovery : Bool) (body : State → State) : State :=
  if s.waits c then s
  else if s.sec.recovery && !inRecovery then s.refuse c 0x0D07
  else body (s.executing c)

/-- Bytes written to host memory for a command (11 R335, priority 4), in one transfer. -/
def State.toHost (s : State) (addr : Nat) (bytes : List Byte) : State :=
  s.emit (.hostWrite (BitVec.ofNat 64 addr) bytes)

end Sys2Proof.Machine
end

