-- ==== Sys2Proof/Machine/Operands.lean ====
section
/-! DEFINITION. Forms that several commands share: rounding of numbers, calibrated readings, signed packages and their checks (00, 12, 18). -/

namespace Sys2Proof.Machine

/-- A number as an integer field: itself where it is an integer, otherwise one of its two neighbours, which the manual
leaves open. -/
def roundFree (q : Rat) : Int := if q.den = 1 then q.num else ratFloor q + (if Config.roundsUp q then 1 else 0)

/-- The same for a number that is not negative. -/
def roundNat (q : Rat) : Nat := (roundFree q).toNat

/-- The square root of a number that is not negative as an integer field, rounded as the manual leaves open where it is
not exact. -/
def rootFree (q : Rat) : Nat :=
  let r := Nat.sqrt (ratFloor q).toNat
  if ((r * r : Nat) : Rat) = q then r else r + (if Config.rootRoundsUp q then 1 else 0)

/-- The exponent of a positive number's binary32 form: its significand then has 24 bits, fewer for a subnormal number. -/
def f32Exp (a : Rat) : Int :=
  let l := ratLog a
  let e := (if a < pow2 l then l - 1 else l) - 23
  if e < -149 then -149 else e

/-- A number as binary32, rounded as the manual leaves open where it is not exact. -/
def f32Encode (q : Rat) : Nat :=
  if q = 0 then 0
  else
    let a := if q < 0 then -q else q
    let e := f32Exp a
    let m := roundNat (a / pow2 e)
    (if q < 0 then 2 ^ 31 else 0) + ((e + 149) * 2 ^ 23 + m).toNat

/-- The bytes of a number as binary32. -/
def f32Bytes (q : Rat) : List Byte := leBytes 4 (f32Encode q)

/-- A number in a field of `w` bits; what a number that does not fit leaves there is open. -/
def fieldOf (w : Nat) (v : Int) : Nat := if 0 ≤ v ∧ v < 2 ^ w then v.toNat else Config.misfit w v % 2 ^ w

/-- A signed number in a field of `w` bits. -/
def sfieldOf (w : Nat) (v : Int) : Nat :=
  if -(2 ^ (w - 1)) ≤ v ∧ v < 2 ^ (w - 1) then (v % 2 ^ w).toNat else Config.misfit w v % 2 ^ w

/-- A gain and offset of the calibration device section, nominal values where none is in use (12 R348). -/
def CalDev.gainOffset (d : CalDev) (off : Nat) : Rat × Rat :=
  match d.device with
  | none => (1, 0)
  | some body => ((f32Field body (off - 0x10)).getD 1, (f32Field body (off - 0x10 + 4)).getD 0)

/-- The device identity public key. -/
def deviceKey : List Byte := Ed.publicKey (leBytes 32 Config.deviceSeed.toNat)

/-- DEV_DIGEST: the first 8 bytes of the SHA-512 of the device identity public key (18 R453). -/
def devDigest : List Byte := (sha512 deviceKey).take 8

/-- A signature of the device identity key over the SHA-512 of a message (18 R465; 10 R318). -/
def deviceSign (msg : List Byte) : List Byte := Ed.sign (leBytes 32 Config.deviceSeed.toNat) (sha512 msg)

/-- Whether a key's signature over the SHA-512 of a message verifies (18 R453). No key, no verification. -/
def signedBy (key : Option (BitVec 256)) (msg sig : List Byte) : Bool :=
  match key with
  | some k => Ed.verify (leBytes 32 k.toNat) (sha512 msg) sig
  | none => false

/-- Whether every byte from `lo` to `hi - 1` is 0. -/
def zeroBytes (bs : List Byte) (lo hi : Nat) : Bool := ((bs.drop lo).take (hi - lo)).all (fun b => b == 0)

/-- KIND and DEV_DIGEST of a signed package (18 R453). -/
def packageHead (kind : Nat) (pkg : List Byte) : Bool :=
  field pkg 0 4 == kind && (pkg.drop 8).take 8 == devDigest

/-- The signature in the last 64 bytes of a package, over all bytes before it (18 R453). -/
def packageSigned (key : Option (BitVec 256)) (pkg : List Byte) : Bool :=
  signedBy key (pkg.take (pkg.length - 64)) (pkg.drop (pkg.length - 64))

/-- A host address operand aligned to 16 bytes. -/
def aligned16 (addr : Nat) : Bool := addr % 16 == 0

end Sys2Proof.Machine
end

