-- ==== Sys2Proof/Machine/Measure.lean ====
section
/-! DEFINITION. Measured values: the adopted units of a string, calibration of raw codes (04 R126; 12 R349), the ages of data (05 R157 to R159) and the values that the sequencers use (07 R223). -/

namespace Sys2Proof.Machine

-- Units.

/-- The position holds an adopted MC16 (03 R97). -/
def State.isMc16 (s : State) (u : Fin 128) : Bool := (s.ulink.at u).rosterType == 1
/-- The position holds an adopted MP4. -/
def State.isMp4 (s : State) (u : Fin 128) : Bool := (s.ulink.at u).rosterType == 2
/-- The stall of a unit position is out of service (03 R112). -/
def State.outOfService (s : State) (u : Fin 128) : Bool := (s.stalls.at (stallOf u)).oos

/-- The adopted MP4s of a string. -/
def State.mp4sOf (s : State) (str : Fin 4) : List (Fin 128) := (s.unitsOfStr str).filter s.isMp4

/-- The string's MP4 (01 R17). -/
def State.mp4Of (s : State) (str : Fin 4) : Option (Fin 128) := (s.mp4sOf str).head?

/-- The adopted MC16s of a string's stalls in service. -/
def State.mc16sOf (s : State) (str : Fin 4) : List (Fin 128) :=
  (s.unitsOfStr str).filter (fun u => s.isMc16 u && !s.outOfService u)

/-- A string is unused while its STALL_MASK is 0 (07 R214). -/
def State.usedStr (s : State) (str : Fin 4) : Bool := (s.strs.at str).cfg.stallMask != 0

/-- A unit is reached and matches its roster, and its calibration entry is valid: the MX9 configures and sweeps it
(03 R100; 12 R348, R352). -/
def State.sweepable (s : State) (u : Fin 128) : Bool :=
  let l := s.ulink.at u
  !s.outOfService u && l.reached && l.outcome == 0 && (s.isMc16 u || s.isMp4 u) && (s.ucal.at u).entry.isSome

/-- A unit is swept (03 R96 step 6, R107). -/
def State.swept (s : State) (u : Fin 128) : Bool :=
  s.sweepable u && (match (s.ulink.at u).sweepFrom with | some f => decide (f ≤ s.frame) | none => false)

/-- A stall's roster is valid: an enumeration has set its outcomes, and each is MATCH or EMPTY (03 R99). -/
def State.stallRosterOk (s : State) (i : Fin 32) : Bool :=
  (s.stalls.at i).known && (unitsOf i).all (fun u => (s.ulink.at u).outcome == 0 || (s.ulink.at u).outcome == 4)

/-- A string's roster is valid: that of every stall in service is (03 R99). -/
def State.rosterValid (s : State) (str : Fin 4) : Bool :=
  (s.stallsOf str).all (fun i => (s.stalls.at i).oos || s.stallRosterOk i)

-- Cells (05 R156).

/-- The 15 wires of a unit, wire w as bit w - 1, give the cells next to a broken wire. -/
def cellsOfWires (broken : BitVec 15) : BitVec 16 := broken.setWidth 16 ||| (broken.setWidth 16 <<< 1)

/-- The cells of a unit that are Invalid. -/
def UnitInteg.invalid (i : UnitInteg) : BitVec 16 := i.invWire ||| i.invStack

/-- The cells of a unit that are Suspect (05 R161). -/
def UnitInteg.suspect (i : UnitInteg) : BitVec 16 := cellsOfWires i.suspW &&& ~~~ i.invalid

/-- Cell `c` of a unit is Invalid. -/
def State.cellInvalid (s : State) (u : Fin 128) (c : Nat) : Bool := (s.uint.at u).invalid.getLsbD c
/-- Cell `c` of a unit is Valid: neither Suspect nor Invalid nor Excluded. -/
def State.cellValid (s : State) (u : Fin 128) (c : Nat) : Bool :=
  s.isMc16 u && !s.outOfService u && !(s.uint.at u).invalid.getLsbD c && !(s.uint.at u).suspect.getLsbD c

-- Calibration.

/-- The bounds of a VALUE: 24 bits, signed (04 R126). -/
def valueMax : Int := 8388607

/-- A calibrated number as a sample: saturated and clipped outside the range of VALUE. -/
def toSample (q : Rat) : Sample :=
  let v := roundFree q
  if v < -8388608 then { val := -8388608, st := .saturated }
  else if valueMax < v then { val := valueMax, st := .saturated }
  else { val := v, st := .valid }

/-- A saturated code (04 R126). -/
def codeSaturated (x : BitVec 18) : Bool := x == 0x1FFFF || x == 0x20000

/-- G, OFS and TC of input `k` of a unit entry (12 R348). -/
def calInput (entry : List Byte) (k : Nat) : Rat × Rat × Rat :=
  ((f32Field entry (0x20 + 12 * k)).getD 0, (f32Field entry (0x24 + 12 * k)).getD 0, (f32Field entry (0x28 + 12 * k)).getD 0)

/-- The factor 1 + TC × 10⁻⁶ × (T_u − 25), with T_u in m°C. -/
def tempFactor (tc tu : Rat) : Rat := 1 + tc / 1000000 * ((tu - 25000) / 1000)

/-- VALUE of a raw code of input `k` before rounding (12 R349). -/
def calValue (entry : List Byte) (k : Nat) (x : Int) (tu : Int) : Rat :=
  let (g, o, tc) := calInput entry k
  g * ((x : Rat) - o) * tempFactor tc tu

/-- The reference value at T_u: `off` is 0x104 for V_A, 0x108 for V_B (12 R349). -/
def vRef (entry : List Byte) (off : Nat) (tu : Rat) : Rat :=
  (f32Field entry off).getD 0 * tempFactor ((f32Field entry 0x10C).getD 0) tu

/-- R_BAL of a cell in Ω. -/
def rBal (entry : List Byte) (c : Nat) : Rat := (f32Field entry (0x110 + 4 * c)).getD 0

/-- The 64 points of a thermistor table in rising order of code: the device section's, or the generic curve (12 R348, R500). -/
def CalDev.thermistor (d : CalDev) (t : Nat) : List (Int × Int) :=
  let points : List (Int × Int) := match d.device with
    | some body => (List.range 64).map (fun i =>
        (sfield body (0x400 - 0x10 + 512 * t + 8 * i) 4, sfield body (0x404 - 0x10 + 512 * t + 8 * i) 4))
    | none => (List.range 64).map (fun i => (Config.thermCode i, -40000 + 3000 * (i : Int)))
  if (points.headD (0, 0)).1 ≤ (points.getLastD (0, 0)).1 then points else points.reverse

/-- Linear interpolation in a table of rising codes; the end values beyond its end points. -/
def interpolate : List (Int × Int) → Int → Rat
  | [], _ => 0
  | [(_, v)], _ => v
  | (c0, v0) :: (c1, v1) :: rest, x =>
    if x ≤ c0 then v0
    else if x < c1 then (v0 : Rat) + ((v1 - v0 : Int) : Rat) * ((x - c0 : Int) : Rat) / ((c1 - c0 : Int) : Rat)
    else interpolate ((c1, v1) :: rest) x

/-- The calibration values in force for a sweep that starts at frame `start`: generation and entry (12 R353). -/
def UnitCal.forSweep (c : UnitCal) (start : Nat) : BitVec 8 × Option (List Byte) :=
  if c.genFrom ≤ start then (c.gen, c.entry)
  else match c.olds.find? (fun o => decide (o.from_ ≤ start)) with
    | some o => (o.gen, o.entry)
    | none => (c.gen, c.entry)

/-- T_u of a unit in m°C (12 R349). -/
def State.tempOf (s : State) (u : Fin 128) : Int :=
  let w := s.uswp.at u
  match w.tDie, w.tT0 with
  | some t, _ => t
  | none, some t => t
  | none, none => 25000

/-- One raw code of a slot as a sample, with the values `entry` (04 R126; 12 R349). -/
def State.calibrate (s : State) (u : Fin 128) (entry : List Byte) (code : BitVec 8) (x : BitVec 18) : Sample :=
  let k := if s.isMp4 u then code.toNat - 0x80 else code.toNat
  let t0 := if s.isMp4 u then 0x86 else 0x13
  let v := x.toInt
  let smp :=
    if code.toNat = t0 ∨ code.toNat = t0 + 1 then
      toSample (interpolate (s.cal.thermistor ((entry.getD (0x150 + code.toNat - t0) 0).toNat % 4)) v)
    else if code = 0x15 then toSample ((v : Rat) * 125 / 8)
    else toSample (calValue entry k v (s.tempOf u))
  if codeSaturated x then
    { val := if x = 0x1FFFF then valueMax else -8388608, st := .saturated }
  else smp

/-- The slot codes of the newest records of a unit. -/
def UnitSweep.recCodes (w : UnitSweep) : List (BitVec 8) := (w.alHist.headD (0, [])).2.map Prod.fst

/-- The sample of a slot code in a list of samples. -/
def sampleOf (l : List (BitVec 8 × Sample)) (code : BitVec 8) : Option Sample := (l.find? (fun p => p.1 == code)).map Prod.snd

/-- The value of a slot code where it is VALID. -/
def validOf (l : List (BitVec 8 × Sample)) (code : BitVec 8) : Option Int :=
  match sampleOf l code with
  | some x => if x.st = .valid then some x.val else none
  | none => none

-- Ages of data (05 R157 to R159).

/-- The data age of a cell of a unit in ticks (05 R157). -/
def State.cellAge (s : State) (u : Fin 128) (c : Fin 16) : Nat :=
  let i := s.uint.at u
  let ready := s.isl.portAt.at (portOf (stallOf u))
  let temps := (s.uswp.at u).codes.any (fun k => k == 0x13 || k == 0x14 || k == 0x15)
  let good := if temps then min (i.cellGood.at c) (i.tempGood.getD 0) else i.cellGood.at c
  s.now - max good ready

/-- The data age of a string: the largest among its Valid and Suspect cells (05 R158). -/
def State.dataAge (s : State) (str : Fin 4) : Nat :=
  (s.mc16sOf str).foldl (fun m u => (places 16).foldl (fun m c =>
    if s.cellInvalid u c.val then m else max m (s.cellAge u c)) m) 0

/-- The current age of a string (05 R159). -/
def State.currentAge (s : State) (str : Fin 4) : Nat := s.now - (s.strs.at str).curGood

/-- The string's current counts as unknown: an age of 500 ms, or a CURRENT_PAIR condition (05 R159, R160). -/
def State.currentUnknown (s : State) (str : Fin 4) : Bool :=
  decide (500 * ticksPerMs ≤ s.currentAge str) || (s.strs.at str).pairCond.on

/-- |I_MAIN| in mA as the sequencer knows it, none where the current is unknown (05 R159; 07 R227). -/
def State.iAbs (s : State) (str : Fin 4) : Option Nat :=
  if s.currentUnknown str then none else (s.strs.at str).now.iMain.map Int.natAbs

-- Values that the sequencers use (07 R223).

/-- The sum in mV of the string's Valid cells as they arrived; none where a Valid cell has no value, or none is Valid. -/
def State.validCellSum (s : State) (str : Fin 4) : Option Rat :=
  let vals := (s.mc16sOf str).flatMap (fun u => (places 16).filterMap (fun c =>
    if s.cellValid u c.val then some (validOf (s.uswp.at u).now (BitVec.ofNat 8 c.val)) else none))
  if vals.isEmpty then none
  else vals.foldl (fun acc v => match acc, v with | some a, some v => some (a + v / 1000) | _, _ => none) (some (0 : Rat))

/-- V_STRING in mV: the newest value, or the sum of the Valid cells in its place; none where neither is there. -/
def State.vString (s : State) (str : Fin 4) : Option Rat :=
  match (s.strs.at str).now.vString with
  | some v => some v
  | none => s.validCellSum str

/-- V_LINK in mV where the newest value is valid. -/
def State.vLink (s : State) (str : Fin 4) : Option Rat := (s.strs.at str).now.vLink.map (fun v => (v : Rat))

/-- V_LINK lies below 10 % of V_STRING; none where it cannot be decided. -/
def State.linkLow (s : State) (str : Fin 4) : Option Bool :=
  match s.vLink str, s.vString str with
  | some l, some v => some (decide (l < v / 10))
  | _, _ => none

-- Balancing masks (03 R115).

/-- The mask of the first user that holds the unit: probe or test, excitation, host. -/
def UnitLink.chosenMask (l : UnitLink) : BitVec 16 :=
  match l.probeMask, l.excMask with
  | some m, _ => m
  | none, some m => m
  | none, none => l.hostMask

/-- The applied mask follows its users; a change is to be sent within 2 frames. -/
def State.settleMask (s : State) (u : Fin 128) : State :=
  let l := s.ulink.at u
  if l.chosenMask = l.applied then s
  else s.onLink u (fun l => { l with applied := l.chosenMask, stale := true })

end Sys2Proof.Machine
end

