-- ==== Sys2Proof/Machine/Switch.lean ====
section
/-! DEFINITION. The switch channels (chapter 09): outputs, economiser, current sense, protections, supply dips and their commands. -/

namespace Sys2Proof.Machine

/-- A general channel's place among the 24. -/
def genCh (ch : Fin 12) : Fin 24 := ⟨ch.val, by omega⟩
/-- Contactor channel 12 + j. -/
def conCh (j : Fin 12) : Fin 24 := ⟨12 + j.val, by omega⟩
/-- Whether a channel is a contactor channel. -/
def isCon (ch : Fin 24) : Bool := 12 ≤ ch.val
/-- The die of a channel: SW-0 for the general ones, SW-1 for the contactors (01). -/
def dieOf (ch : Fin 24) : Fin 2 := if isCon ch then 1 else 0
/-- The string of a contactor channel (07 R215). -/
def strOfCon (j : Fin 12) : Fin 4 := ⟨j.val / 3, by omega⟩

/-- VBAT_SW at the die of a channel, in 10 mV. -/
def State.vbat (s : State) (ch : Fin 24) : Nat := (s.swctl.die.at (dieOf ch)).vbat.toNat
/-- DIP_HELD of a channel: its output is held off by a dip (09 R299). -/
def State.dipHeld (s : State) (ch : Fin 24) : Bool := (s.swctl.die.at (dieOf ch)).dip

/-- The halter's enable of a contactor channel as SW-1 holds it: granted, and the gate-supply cut-off closed (09 R283). -/
def State.enabled (s : State) (ch : Fin 24) : Bool :=
  s.swctl.enables.getLsbD (ch.val - 12) && s.swctl.cutoff

/-- A channel's output is to be on: commanded on, not latched, not waiting for a restart, not held off by a dip or a
test pulse, and for a contactor channel with its enable (09 R283, R284, R295, R299). -/
def State.mayConduct (s : State) (ch : Fin 24) : Bool :=
  let c := s.swc.at ch
  c.cmd != .off && !c.latched && !c.wait && !s.dipHeld ch && (!isCon ch || s.enabled ch)

/-- The present duty of CONST_POWER in 1/255 (09 R285): D_REF is in 0.1 %, VBAT_SW in 10 mV, and 24 V is 2400. -/
def constDuty (law : Bool) (dRef vbat : Nat) : Nat :=
  if vbat = 0 then 255
  else
    let k : Rat := 2400 / (vbat : Rat)
    min 255 (roundNat ((255 * dRef : Nat) / 1000 * (if law then k else k * k)))

/-- The hold duty before the clamp is above 1 (09 R286): √(HOLD_MW × R_COIL) > VBAT_SW, R_COIL in 0.5 Ω. -/
def holdClamped (c : Swc) (vbat : Nat) : Bool := vbat * vbat < 5 * c.cfg.holdMw * c.rCoil

/-- The hold duty in 1/255 (09 R286). -/
def holdDuty (c : Swc) (vbat : Nat) : Nat :=
  if holdClamped c vbat || vbat == 0 then 255
  else min 255 (rootFree ((65025 * 5 * c.cfg.holdMw * c.rCoil : Nat) / ((vbat * vbat : Nat) : Rat)))

/-- A contactor channel with its hold duty set anew from VBAT_SW. -/
def Swc.held (c : Swc) (vbat : Nat) : Swc :=
  { c with phase := .hold, duty := holdDuty c vbat, holdLow := holdClamped c vbat }

/-- An output turns on: a contactor channel starts a pull-in, or is fully on with ECON = 0; a general channel conducts,
in CONST_POWER at its compensated duty (09 R284 to R286). The duty of a pull-in is what the current regulation needs,
which is a free value. -/
def State.turnOn (s : State) (ch : Fin 24) : State :=
  if isCon ch then
    if (s.swc.at ch).cfg.econ then
      let (n, s) := s.draw
      s.onSwc ch (fun c => { c with
        out := true, phase := .pullIn, onAt := s.now, pullCnt := satAdd 0xFFFF c.pullCnt 1, holdLow := false,
        duty := (Config.freeByte n).toNat })
    else s.onSwc ch (fun c => { c with out := true, phase := .full, onAt := s.now, duty := 255, holdLow := false })
  else
    let v := s.vbat ch
    s.onSwc ch (fun c => { c with
      out := true, onAt := s.now, duty := if c.cmd = .constPower then constDuty c.cfg.law c.dRef v else 255 })

/-- An output turns off. -/
def State.turnOff (s : State) (ch : Fin 24) : State :=
  s.onSwc ch (fun c => { c with out := false, phase := .off, duty := 0, limit := false, holdLow := false })

/-- The output of a channel follows what it may do now; every rise is a turn-on. -/
def State.settleOut (s : State) (ch : Fin 24) : State :=
  let c := s.swc.at ch
  if s.mayConduct ch then (if c.out || c.pulse then s else s.turnOn ch)
  else if c.out then s.turnOff ch else s

/-- The outputs of every contactor channel follow the enables. -/
def State.settleContactors (s : State) : State := (places 12).foldl (fun s j => s.settleOut (conCh j)) s

/-- The sequencer commands a contactor channel on or off. A command to off clears a latch, and drops the result of a
pulse in progress (09 R296; 08 R266). -/
def State.command (s : State) (ch : Fin 24) (on : Bool) : State :=
  let s := s.onSwc ch (fun c =>
    if on then { c with cmd := .on }
    else { c with cmd := .off, latched := false, cause := .none, pulseDrop := c.pulseDrop || c.pulse })
  s.settleOut ch

/-- The three contactor channels of a string: CN, CP and PC (07 R215). -/
def cnOf (str : Fin 4) : Fin 24 := ⟨12 + 3 * str.val, by omega⟩
/-- CP of a string. -/
def cpOf (str : Fin 4) : Fin 24 := ⟨13 + 3 * str.val, by omega⟩
/-- PC of a string. -/
def pcOf (str : Fin 4) : Fin 24 := ⟨14 + 3 * str.val, by omega⟩

-- Trips, latches and restarts (09 R294, R295).

/-- LATCH_CAUSE of `SWC_STAT`. -/
def LatchCause.code : LatchCause → Nat
  | .none => 0
  | .thermal => 1
  | .limTmo => 2
  | .overcurrent => 3
  | .dipRestore => 4

/-- The event bit of a channel. -/
def State.swcEvent (s : State) (ch : Fin 24) : State :=
  { s with evt := { s.evt with swc := setBit s.evt.swc ch.val } }

/-- A channel latches off, with its cause, its event and its record (09 R295, R300; 13 R373). A latched general channel is
commanded OFF; the command of a contactor channel stays the sequencer's (R296). -/
def State.latch (s : State) (ch : Fin 24) (cause : LatchCause) : State :=
  let s := s.onSwc ch (fun c => { c with
    latched := true, cause := cause, wait := false, latchCnt := satAdd 0xFF c.latchCnt 1,
    cmd := if isCon ch then c.cmd else .off })
  (s.swcEvent ch).studbook 0x21 ch.val [BitVec.ofNat 8 cause.code]

/-- Restarts of a channel within its window (09 R295). -/
def Swc.recent (c : Swc) (now : Nat) : List Nat :=
  c.restarts.filter (fun t => decide (now ≤ t + c.cfg.retryWinS * ticksPerS))

/-- A trip of a channel (09 R295, the procedure on_trip). -/
def State.trip (s : State) (ch : Fin 24) (cause : LatchCause) : State :=
  let s := s.turnOff ch
  let s := s.onSwc ch (fun c => { c with restarts := c.recent s.now, tripCnt := satAdd 0xFF c.tripCnt 1 })
  let s := s.swcEvent ch
  let c := s.swc.at ch
  if isCon ch || c.cfg.retryMax ≤ c.restarts.length then s.latch ch cause
  else s.onSwc ch (fun c => { c with wait := true, waitCause := cause, tripAt := s.now })

/-- LIMIT_TIMEOUT (09 R294): a general channel has stayed in current limit for LIM_TMO_MS. -/
def execLimitTimeout (ch : Fin 12) (s : State) : Host.Outcome State Fault Refusal :=
  answer s (let c := s.swc.at (genCh ch)
    if c.out ∧ c.limit ∧ c.limitAt + c.cfg.limTmoMs * ticksPerMs ≤ s.now then s.trip (genCh ch) .limTmo else s)

/-- CONTACTOR_OVERCURRENT (09 R294): a contactor channel above 6 A turns off and latches at once. -/
def execContactorOvercurrent (j : Fin 12) (s : State) : Host.Outcome State Fault Refusal :=
  answer s (if (s.swc.at (conCh j)).out then (s.turnOff (conCh j)).latch (conCh j) .overcurrent else s)

/-- THERMAL_TRIP (09 R295): the channel's junction reaches 175 °C. -/
def execThermalTrip (ch : Fin 24) (s : State) : Host.Outcome State Fault Refusal :=
  answer s (let c := s.swc.at ch
    if c.out || c.pulse then (s.onSwc ch (fun c => { c with tj := max 175 c.tj })).trip ch .thermal else s)

/-- CHANNEL_RESTART (09 R295): the wait of a tripped general channel ends; its junction lies below 150 °C, at a
temperature that the manual leaves open. -/
def execChannelRestart (ch : Fin 12) (s : State) : Host.Outcome State Fault Refusal :=
  answer s (let c := s.swc.at (genCh ch)
    if c.wait ∧ (c.waitCause ≠ .limTmo ∨ c.tripAt + c.cfg.restartMs * ticksPerMs ≤ s.now) then
      let (n, t) := s.draw
      let cool : Int := 149 - (Config.freeNat n % 200 : Nat)
      let t := t.onSwc (genCh ch) (fun c => { c with wait := false, waitCause := .none, tj := min c.tj cool })
      if t.mayConduct (genCh ch) then
        (t.onSwc (genCh ch) (fun c => { c with restarts := t.now :: c.recent t.now })).settleOut (genCh ch)
      else t
    else s)

/-- CURRENT_LIMIT_CHANGE (09 R294): a general channel enters or leaves its current limit. -/
def execCurrentLimitChange (ch : Fin 12) (inLimit : Bool) (s : State) : Host.Outcome State Fault Refusal :=
  answer s (if (s.swc.at (genCh ch)).out then
    s.onSwc (genCh ch) (fun c => { c with limit := inLimit, limitAt := if inLimit && !c.limit then s.now else c.limitAt })
  else s)

-- Economiser and supply compensation (09 R285 to R287).

/-- R_COIL as learned at the end of pull-in, in 0.5 Ω, clamped to 4–400 Ω (09 R286). -/
def learnedCoil (dutyPermille vbat iEndMa : Nat) : Nat :=
  min 800 (max 8 (roundNat ((dutyPermille * vbat : Nat) / (50 * iEndMa : Nat))))

/-- PULL_IN_END (09 R286, R287), with the mean duty and current of the last 10 ms. -/
def execPullInEnd (j : Fin 12) (dutyPermille iEndMa : Nat) (s : State) : Host.Outcome State Fault Refusal :=
  answer s (let ch := conCh j
    let c := s.swc.at ch
    if c.phase = .pullIn ∧ c.onAt + c.cfg.pullMs * ticksPerMs ≤ s.now then
      let v := s.vbat ch
      s.onSwc ch (fun c =>
        ({ c with
          rCoil := if iEndMa < 100 then c.rCoil else learnedCoil dutyPermille v iEndMa
          pullLow := decide (1000 ≤ dutyPermille) && decide (iEndMa < c.cfg.pullMa) }).held v)
    else s)

/-- A measurement of VBAT_SW at a die. -/
def State.setVbat (s : State) (d : Fin 2) (v : BitVec 12) : State :=
  { s with swctl := { s.swctl with die := s.swctl.die.upd d (fun x =>
      { x with vbat := v, dipLow := if x.dip && v.toNat < x.dipLow.toNat then v else x.dipLow }) } }

/-- ECONOMISER_UPDATE (09 R286): every 1 ms, SW-1 measures VBAT_SW and sets the hold duties anew. -/
def execEconomiserUpdate (vbat10mV : BitVec 12) (s : State) : Host.Outcome State Fault Refusal :=
  answer s ((places 12).foldl (fun s j =>
    if (s.swc.at (conCh j)).phase = .hold then s.onSwc (conCh j) (fun c => c.held vbat10mV.toNat) else s)
    (s.setVbat 1 vbat10mV))

/-- DUTY_COMPENSATION_UPDATE (09 R285): every 1 ms, SW-0 measures VBAT_SW and sets the duties of CONST_POWER anew. -/
def execDutyCompensationUpdate (vbat10mV : BitVec 12) (s : State) : Host.Outcome State Fault Refusal :=
  answer s ((places 12).foldl (fun s ch =>
    let c := s.swc.at (genCh ch)
    if c.out && c.cmd == .constPower then
      s.onSwc (genCh ch) (fun c => { c with duty := constDuty c.cfg.law c.dRef vbat10mV.toNat })
    else s) (s.setVbat 0 vbat10mV))

-- Test pulses of general channels (09 R297).

/-- A general channel is due for a test pulse: commanded ON, or in CONST_POWER with no off-edge, on for at least 150 ms,
not bypassed, with no dip and no restart wait. -/
def State.pulseDue (s : State) (ch : Fin 12) : Bool :=
  let c := s.swc.at (genCh ch)
  c.out && (c.cmd == .on || (c.cmd == .constPower && c.duty == 255)) && !c.cfg.bypass && !c.wait &&
  !s.dipHeld (genCh ch) && decide (c.onAt + 150 * ticksPerMs ≤ s.now)

/-- GENERAL_TEST_PULSE (09 R297): the output turns off for 300 µs; a pulse that is not due is skipped. -/
def execGeneralTestPulse (ch : Fin 12) (s : State) : Host.Outcome State Fault Refusal :=
  answer s (if s.pulseDue ch then
    s.onSwc (genCh ch) (fun c => { c with pulse := true, pulseDrop := false, out := false })
  else s)

/-- A result of a pulse or off-edge of a general channel (09 R297). -/
def State.pulseResult (s : State) (ch : Fin 12) (fell : Bool) : State :=
  let g := genCh ch
  if (s.swc.at g).cfg.bypass then s
  else if fell then
    s.onSwc g (fun c => { c with failRun := 0, stuckOn := c.stuckOn && !c.stuckNew, stuckNew := false })
  else
    let s := s.onSwc g (fun c => { c with failRun := c.failRun + 1 })
    if (s.swc.at g).failRun < 2 then s
    else
      let s := s.onSwc g (fun c => { c with stuckOn := true, stuckNew := false, failRun := 0, cmd := .off })
      ((s.settleOut g).swcEvent g).studbook 0x22 ch.val []

/-- GENERAL_TEST_PULSE_END (09 R297): a pulse ends, or a second of CONST_POWER modulation has been judged by its
off-edges. The result of a pulse that met an off-command is discarded. -/
def execGeneralTestPulseEnd (ch : Fin 12) (fell : Bool) (s : State) : Host.Outcome State Fault Refusal :=
  answer s (let g := genCh ch
    let c := s.swc.at g
    if c.pulse then
      let s := s.onSwc g (fun c => { c with pulse := false, out := s.mayConduct g, pulseDrop := false })
      if c.pulseDrop || !s.mayConduct g then s else s.pulseResult ch fell
    else if c.out && c.cmd == .constPower then s.pulseResult ch fell
    else s)

-- Supply dips (09 R299 to R301).

/-- The channels of a die. -/
def dieChannels (d : Fin 2) : List (Fin 24) := (places 24).filter (fun ch => dieOf ch == d)

/-- SUPPLY_DIP (09 R299): VBAT_SW at a die falls below 6.0 V, and all its outputs turn off. -/
def supplyDip (s : State) (die : Fin 2) (v : BitVec 12) : State :=
  if (s.swctl.die.at die).dip then s.setVbat die v
  else
    let lim := (places 12).foldl (fun m ch => if die = 0 ∧ (s.swc.at (genCh ch)).limit then setBit m ch.val else m) (0 : BitVec 12)
    let ctl := { s.swctl with
      dipCnt := satAdd 0xFF s.swctl.dipCnt 1
      die := s.swctl.die.upd die (fun x => { x with vbat := v, dip := true, dipAt := s.now, dipLow := v, inLimit := lim }) }
    let s := { s with swctl := ctl, evt := { s.evt with swc := setBit s.evt.swc (24 + die.val) } }
    (dieChannels die).foldl (fun s ch =>
      let s := s.onSwc ch (fun c => { c with pulseDrop := c.pulseDrop || c.pulse })
      s.turnOff ch) s

/-- A die's record of a dip that has ended: duration in ms and lowest VBAT_SW (13 R373). -/
def State.dipRecord (s : State) (die : Fin 2) : State :=
  let x := s.swctl.die.at die
  s.studbook 0x23 die.val (leBytes 2 (min 0xFFFF ((s.now - x.dipAt) / ticksPerMs)) ++ bvBytes 2 x.dipLow)

/-- A general channel at a restore (09 R300): one that was in current limit counts the restore as a restart, or latches. -/
def State.restoreChannel (s : State) (ch : Fin 24) : State :=
  let c := s.swc.at ch
  let counted := !isCon ch && (s.swctl.die.at 0).inLimit.getLsbD ch.val
  if !s.mayConduct ch then s
  else if counted then
    let recent := c.recent s.now
    if c.cfg.retryMax ≤ recent.length then (s.onSwc ch (fun c => { c with restarts := recent })).latch ch .dipRestore
    else (s.onSwc ch (fun c => { c with restarts := s.now :: recent })).settleOut ch
  else s.settleOut ch

/-- SUPPLY_RESTORE (09 R299, R300): VBAT_SW rises above 6.5 V, and the channels turn on in ascending order. -/
def supplyRestore (s : State) (die : Fin 2) (v : BitVec 12) : State :=
  if (s.swctl.die.at die).dip then
    let s := s.setVbat die v
    let s := s.dipRecord die
    let s := { s with swctl := { s.swctl with die := s.swctl.die.upd die (fun x => { x with dip := false }) } }
    (dieChannels die).foldl State.restoreChannel s
  else s.setVbat die v

/-- A channel as VBAT_SW below 4.5 V leaves it: OFF, with no latch and no history (09 R299). -/
def Swc.lost (c : Swc) : Swc :=
  { c with
    cmd := .off, out := false, phase := .off, limit := false, wait := false, waitCause := .none, latched := false,
    cause := .none, stuckOn := false, stuckNew := false, failRun := 0, pulse := false, pulseDrop := false,
    restarts := [], duty := 0, holdLow := false }

/-- SUPPLY_LOSS (09 R299): VBAT_SW at a die falls below 4.5 V. -/
def supplyLoss (s : State) (die : Fin 2) (v : BitVec 12) : State :=
  let s := supplyDip s die v
  (dieChannels die).foldl (fun s ch => s.onSwc ch Swc.lost) s

-- Current sense (09 R288 to R293).

/-- Core address 0x2005_7800 + 16 × channel as a key of the SRAM (01 R25; 09 R293). -/
def senseImageKey (ch : Fin 24) : Nat := 0x257800 + 16 * ch.val

/-- A sample of a channel into its sense image, with the SEQ of the entry two further (09 R293; 04 R139). -/
def State.writeSense (s : State) (ch : Fin 24) (tag : Nat) : State :=
  let c := s.swc.at ch
  let key := senseImageKey ch
  let seq := (leNat (s.sramRead (key + 12) 4) + 2) % 2 ^ 32
  let w0 := c.iMa % 65536 + 65536 * bit c.curSat + 131072 * bit c.settling
  let bytes := leBytes 4 w0 ++ leBytes 4 s.now ++ leBytes 4 (ch.val + 32 * tag) ++ leBytes 4 seq
  s.sramStore key bytes

/-- The current in mA that a sense voltage in mV stands for, after the calibration of its path: `nominal` is mA per mV. -/
def State.senseMa (s : State) (off mv : Nat) (nominal : Rat) : Nat :=
  let (g, o) := s.cal.gainOffset off
  min 0xFFFF (roundNat (g * nominal * mv + o))

/-- A sample of a channel's current. -/
def State.takeSample (s : State) (ch : Fin 24) (ma : Nat) (sat settling : Bool) (tag : Nat) : State :=
  (s.onSwc ch (fun c => { c with iMa := ma, curSat := sat, settling := settling, sampleAt := some s.now })).writeSense ch tag

/-- SENSE_G_SAMPLE (09 R289, R290): in internal select mode the sequencer's channel is sampled at the end of its dwell;
in external select mode the sample is tagged with the pins, and updates a channel only if they have held still. -/
def execSenseGSample (senseMv : Nat) (s : State) : Host.Outcome State Fault Refusal :=
  answer s (if s.swctl.snsExt then
    let tag := s.swctl.pins.headD 0
    let moving := s.swctl.pins.any (fun p => p != tag)
    let s := { s with swctl := { s.swctl with snsPin := tag, settling := moving } }
    if h : tag.toNat < 12 then
      if moving then s
      else
        let ch := genCh ⟨tag.toNat, h⟩
        s.takeSample ch (s.senseMa (0x10 + 8 * tag.toNat) senseMv (5 / 4)) (decide (3300 < senseMv)) false tag.toNat
    else s
  else
    let j := s.swctl.intCh
    let s := s.takeSample (genCh j) (s.senseMa (0x10 + 8 * j.val) senseMv (5 / 4)) (decide (3300 < senseMv)) false 0
    { s with swctl := { s.swctl with intCh := idx 12 (by decide) (j.val + 1) } })

/-- SNS_SEL_READ (09 R290): the pins are read every 25 µs; they are ignored in internal select mode (R288). -/
def execSnsSelRead (pins : BitVec 4) (s : State) : Host.Outcome State Fault Refusal :=
  answer s (if s.swctl.snsExt then { s with swctl := { s.swctl with pins := (pins :: s.swctl.pins).take 5 } } else s)

/-- The samples of every `SENSE_Kj` at a frame edge (09 R291, R293). -/
def State.sampleContactors (s : State) (mv : Bank 12 Nat) : State :=
  (places 12).foldl (fun s j =>
    s.takeSample (conCh j) (s.senseMa (0x70 + 8 * j.val) (mv.at j) (5 / 4)) (decide (3600 < mv.at j)) false 0) s

-- `SWC_STAT` and the commands (09 R305, R306).

/-- SNS_FAULT: the pin of a contactor channel is driven to the fault level (09 R291). -/
def State.snsFault (s : State) (ch : Fin 24) : Bool :=
  if h : 12 ≤ ch.val then
    let c := s.swc.at ch
    (c.latched && (c.cause == .overcurrent || c.cause == .thermal)) ||
    (s.halter.pulse.at ⟨ch.val - 12, by omega⟩).failed
  else false

/-- CMD of `SWC_STAT`. -/
def SwcMode.code : SwcMode → Nat
  | .off => 0
  | .on => 1
  | .constPower => 2

/-- PHASE of `SWC_STAT`. -/
def CoilPhase.code : CoilPhase → Nat
  | .off => 0
  | .pullIn => 1
  | .hold => 2
  | .full => 3

/-- `SWC_STAT` of a channel. -/
def State.swcStat (s : State) (ch : Fin 24) : Word :=
  let c := s.swc.at ch
  BitVec.ofNat 32 (c.cmd.code + 4 * bit c.out + 8 * bit (if isCon ch then s.enabled ch else c.en) + 16 * c.phase.code +
    64 * bit c.limit + 128 * bit c.wait + 256 * bit c.latched + 512 * c.cause.code + 4096 * bit c.stuckOn +
    8192 * bit (s.dipHeld ch) + 16384 * bit c.pullLow + 32768 * bit c.holdLow + 65536 * bit (s.snsFault ch) +
    2 ^ 20 * min 15 (c.recent s.now).length + 2 ^ 24 * c.duty)

/-- What an accepted SWC_SET makes of a channel (09 R295, R297, R305). -/
def Swc.commanded (c : Swc) (mode : SwcMode) (dRef : Nat) : Swc :=
  { c with
    cmd := mode, dRef := if mode = .constPower then dRef else c.dRef, latched := false, cause := .none,
    restarts := if mode = .off then c.restarts else [], wait := if mode = .off then false else c.wait,
    stuckNew := if mode = .off then c.stuckNew else c.stuckOn, failRun := if mode = .off then c.failRun else 0,
    pulseDrop := c.pulseDrop || (c.pulse && mode == .off) }

/-- What SWC_SET does (09 R305). -/
def swcSet (c : Cmd) (s : State) : State :=
  let mode := opByte c 1
  let dRef := opField c 2 2
  if h : opByte c 0 < 12 then
    if 2 < mode ∨ (mode = 2 ∧ (dRef < 1 ∨ 1000 < dRef)) then s.badOperand c
    else
      let ch := genCh ⟨opByte c 0, h⟩
      if mode ≠ 0 ∧ 150 ≤ (s.swc.at ch).tj then s.refuse c 0x0902
      else
        let m : SwcMode := if mode = 0 then .off else if mode = 1 then .on else .constPower
        let s := (s.onSwc ch (fun x => x.commanded m dRef)).settleOut ch
        let v := s.vbat ch
        let s := s.onSwc ch (fun x =>
          if x.out then { x with duty := if x.cmd = .constPower then constDuty x.cfg.law x.dRef v else 255 } else x)
        s.ok c (dwords (s.swcStat ch).toNat 0 0 0)
  else s.badOperand c

/-- SWC_SET (0x43; 09 R305). -/
def execSwcSet (c : Cmd) (s : State) : Host.Outcome State Fault Refusal := answer s (s.run c false (swcSet c))

/-- A string has a contactor channel commanded on: states 1 to 5 (07 R219). -/
def StrState.on : StrState → Bool
  | .preCn | .precharge | .overlap | .closed | .opening => true
  | _ => false

/-- A string is treated as possibly welded: states 6 and 7 (07 R219). -/
def StrState.welded' : StrState → Bool
  | .weldCheck | .welded => true
  | _ => false

/-- SWC_CONFIG FUNC 0 (09 R306). -/
def swcConfig0 (c : Cmd) (s : State) : State :=
  let rst := opField c 8 2
  if h : opByte c 0 < 12 then
    if 15 < opByte c 2 ∨ opByte c 3 < 1 ∨ 60 < opByte c 3 ∨ opByte c 4 < 1 ∨ 100 < opByte c 4 ∨ 3 < opByte c 5 ∨
       1 < opByte c 6 ∨ rst < 10 ∨ 1000 < rst ∨ rst % 10 ≠ 0 then s.badOperand c
    else
      (s.onSwc (genCh ⟨opByte c 0, h⟩) (fun x => { x with cfg := { x.cfg with
        retryMax := opByte c 2, retryWinS := opByte c 3, limTmoMs := opByte c 4, pwmHz := BitVec.ofNat 2 (opByte c 5)
        law := opByte c 6 == 1, restartMs := rst } })).ok c
  else s.badOperand c

/-- SWC_CONFIG FUNC 1 (09 R306). -/
def swcConfig1 (c : Cmd) (s : State) : State :=
  let ma := opField c 4 2
  let ms := opField c 6 2
  let mw := opField c 8 2
  if h : 12 ≤ opByte c 0 ∧ opByte c 0 < 24 then
    let j : Fin 12 := ⟨opByte c 0 - 12, by omega⟩
    if 1 < opByte c 2 ∨ ma < 500 ∨ 4000 < ma ∨ ms < 20 ∨ 500 < ms ∨ mw < 1000 ∨ 20000 < mw then s.badOperand c
    else
      let st := (s.strs.at (strOfCon j)).st
      if st.on || st.welded' then s.refuse c 0x0901
      else
        (s.onSwc (conCh j) (fun x => { x with cfg := { x.cfg with
          econ := opByte c 2 == 1, pullMa := ma, pullMs := ms, holdMw := mw } })).ok c
  else s.badOperand c

/-- The mask of the channels bypassed. -/
def State.bypassMask (s : State) : Nat :=
  ((places 12).filter (fun ch => (s.swc.at (genCh ch)).cfg.bypass)).foldl (fun m ch => m + 2 ^ ch.val) 0

/-- SWC_CONFIG FUNC 2 (09 R298, R306): an owner-signed package sets or removes the bypass of general channels. -/
def swcConfig2 (c : Cmd) (pkg : List Byte) (s : State) : State :=
  let mask := field pkg 0x10 2
  let act := field pkg 0x12 1
  let seq := field pkg 4 4
  if opField c 0x10 4 ≠ 96 ∨ pkg.length ≠ 96 ∨ packageHead 0x4402 pkg = false ∨ mask = 0 ∨ 4096 ≤ mask ∨ 1 < act ∨
     zeroBytes pkg 0x13 0x20 = false then s.badOperand c
  else if packageSigned s.sec.owner pkg = false then s.authFail c
  else if seq ≤ s.swctl.seq.toNat then s.refuse c 0x0903
  else
    let s := { s with swctl := { s.swctl with seq := BitVec.ofNat 32 seq } }
    let s := (places 12).foldl (fun s ch =>
      if mask.testBit ch.val then
        (s.onSwc (genCh ch) (fun x => { x with cfg := { x.cfg with bypass := act == 0 } })).swcEvent (genCh ch)
      else s) s
    let s := s.studbook 0x0A 0 (leBytes 2 mask ++ leBytes 1 act ++ [0] ++ leBytes 4 seq)
    s.ok c (dwords s.bypassMask 0 0 0)

/-- SWC_CONFIG (0x44; 09 R306). -/
def execSwcConfig (c : Cmd) (pkg : List Byte) (s : State) : Host.Outcome State Fault Refusal :=
  answer s (s.run c false (fun s =>
    if opByte c 1 = 0 then swcConfig0 c s
    else if opByte c 1 = 1 then swcConfig1 c s
    else if opByte c 1 = 2 then swcConfig2 c pkg s
    else s.badOperand c))

end Sys2Proof.Machine
end

