-- ==== Sys2Proof/Machine/StrOps.lean ====
section
/-! DEFINITION. What the rows of several chapters do to a string: entering a state, opening for a category A or B cause, the weld check and WELDED (07 R217 to R235). -/

namespace Sys2Proof.Machine

/-- STATE of a string's state (07 R218). -/
def StrState.code : StrState → Nat
  | .opened => 0
  | .preCn => 1
  | .precharge => 2
  | .overlap => 3
  | .closed => 4
  | .opening => 5
  | .weldCheck => 6
  | .welded => 7

/-- Connected: OVERLAP, CLOSED or OPENING (06 R206). -/
def StrState.connected : StrState → Bool
  | .overlap | .closed | .opening => true
  | _ => false

/-- The state of a string. -/
def State.strSt (s : State) (str : Fin 4) : StrState := (s.strs.at str).st

/-- The string has a contactor channel commanded on, or is treated as possibly welded (07 R219). -/
def State.strHeld (s : State) (str : Fin 4) : Bool := (s.strSt str).on || (s.strSt str).welded'

/-- Every string is in OPEN. -/
def State.allOpen (s : State) : Bool := (places 4).all (fun i => s.strSt i == .opened)

/-- The link is live (07 R217): another string of the link group is in a state from PRE_CN to OPENING. -/
def State.linkLive (s : State) (str : Fin 4) : Bool :=
  (places 4).any (fun t => t != str && (s.strs.at t).cfg.linkGroup == (s.strs.at str).cfg.linkGroup && (s.strSt t).on)

/-- Bits of `STR_EVT`: `base` is 0, 4, 8, 12 or 16. -/
def State.strEvent (s : State) (base : Nat) (str : Fin 4) : State :=
  { s with evt := { s.evt with str := setBit s.evt.str (base + str.val) } }

/-- A shunt run of the string, or its result that waits, ends ABORTED (12 R358, R355, R360): nothing changes, a record is
requested, its command is CANCELLED. -/
def State.abortShunt (s : State) (str : Fin 4) : State :=
  let x := s.strcal.at str
  if x.run.isNone && x.deferred.isNone then s
  else
    let gain := match x.run, x.deferred with
      | some r, _ => r.gain
      | none, some d => d.1
      | none, none => false
    let cmds := (match x.run with | some r => r.cmd.toList | none => []) ++
      (match x.deferred with | some d => d.2.cmds | none => [])
    let s := { s with
      strcal := s.strcal.upd str (fun x => { x with
        run := none, deferred := none, ofsResult := if gain then x.ofsResult else 5, gainResult := if gain then 5 else x.gainResult })
      evt := { s.evt with cal := setBit s.evt.cal 2 } }
    let s : State := match s.mp4Of str with
      | some u => s.studbook 0x0C u.val [4, 5, (s.ucal.at u).gen]
      | none => s
    cmds.foldl (fun s c => s.complete c stCancelled) s

/-- Balancing excitation of the string stops at once (06 R201). -/
def State.stopExcitation (s : State) (str : Fin 4) : State :=
  if (s.estr.at str).excState = .running then
    let s := s.onEstr str (fun x => { x with excState := .stopped, blockFrom := Bank.fill 32 none })
    (s.unitsOfStr str).foldl (fun s u => (s.onLink u (fun l => { l with excMask := none })).settleMask u) s
  else s

/-- A change of STATE (07 R220): the event bit, the record, and what goes with leaving or reaching OPEN. `stamp` is the
stamp of the command behind it, or 0. -/
def State.enterStr (s : State) (str : Fin 4) (new : StrState) (cause : Nat) (stamp : BitVec 32) : State :=
  let old := s.strSt str
  let s := s.onStr str (fun x => { x with st := new })
  let s := s.strEvent 0 str
  let s := if old = .overlap ∧ new = .closed then s
    else s.studbook 0x14 str.val ([BitVec.ofNat 8 old.code, BitVec.ofNat 8 new.code, BitVec.ofNat 8 cause, 0] ++ bvBytes 4 stamp)
  let s := if old = .opened then (s.abortShunt str).stopExcitation str else s
  let s := if new = .overlap then s.onEstr str (fun x => { x with share := none }) else s
  if new = .opened then
    let s := s.onStr str (fun x => { x with auxCause := false, dipCause := false })
    let s := s.onEstr str (fun x => { x with openSince := s.now })
    let s := s.onHalter (fun h => { h with present := h.present.upd 4 (fun m => putBit m str.val false) })
    { s with strcal := s.strcal.upd str (fun x => { x with openedAt := s.now, autoAt := none }) }
  else s

/-- The sequencer commands one of the string's three channels: 0 CN, 1 CP, 2 PC (07 R215, R222). -/
def State.cmdContactor (s : State) (str : Fin 4) (k : Fin 3) (on : Bool) : State :=
  let ch : Fin 24 := if k = 0 then cnOf str else if k = 1 then cpOf str else pcOf str
  if ((s.swc.at ch).cmd != .off) = on then (if on then s else s.command ch on)
  else (s.command ch on).onStr str (fun x => { x with cmdAt := x.cmdAt.put k s.now })

/-- Every channel of the string is commanded off. -/
def State.withdraw (s : State) (str : Fin 4) : State :=
  ((s.cmdContactor str 1 false).cmdContactor str 2 false).cmdContactor str 0 false

-- How a closure ends (07 R221).

/-- The STRING_CLOSE in flight completes REFUSED. -/
def State.closeRefused (s : State) (str : Fin 4) (code d3 : Nat) : State :=
  match (s.strs.at str).seq.closeCmd with
  | none => s
  | some c =>
    (s.onStr str (fun x => { x with lastRefuse := BitVec.ofNat 16 code, seq := { x.seq with closeCmd := none } })).complete
      c stRefused (dwords code d3 0 0)

/-- The STRING_CLOSE in flight completes CANCELLED. -/
def State.closeCancelled (s : State) (str : Fin 4) : State :=
  match (s.strs.at str).seq.closeCmd with
  | none => s
  | some c => (s.onStr str (fun x => { x with seq := { x.seq with closeCmd := none } })).complete c stCancelled

/-- A precharge that a STRING_OPEN or a cause ends has result ABORTED (07 R224). -/
def State.abortPrecharge (s : State) (str : Fin 4) : State :=
  if s.strSt str = .precharge then
    s.onStr str (fun x => { x with preResult := 7, preMs := min 0xFFFF ((s.now - x.seq.pcAt) / ticksPerMs) })
  else s

/-- A release at current `i` counts in OVER_BREAK_CNT, with a record, when it lies above BREAK_A or is unknown (07 R227). -/
def State.countBreak (s : State) (str : Fin 4) (i : Option Nat) : State :=
  let above := match i with
    | some ma => decide (1000 * (s.strs.at str).cfg.breakA < ma)
    | none => true
  if above then
    (s.onStr str (fun x => { x with overBreak := satAdd 0xFFFF x.overBreak 1 })).studbook 0x15 str.val
      (leBytes 4 (min (i.getD 0xFFFFFFFF) 0xFFFFFFFF))
  else s

-- The weld check (07 R230, R231).

/-- The openings that wait for the weld check complete (07 R229). -/
def State.openDone (s : State) (str : Fin 4) (welded : Bool) : State :=
  let q := (s.strs.at str).seq
  let s := s.onStr str (fun x => { x with seq := { x.seq with openCmds := [] } })
  q.openCmds.foldl (fun s p =>
    s.ok p.1 (dwords (bit p.2 + 2 * bit welded) ((q.iRelease.map (· / 1000)).getD 0xFFFFFFFF) 0 0)) s

/-- The string enters WELDED with its evidence (07 R219, R220). -/
def State.enterWelded (s : State) (str : Fin 4) (e : WeldStat) : State :=
  let s := s.onStr str (fun x => { x with
    weld := { e with result := 2, dischMs := x.weld.dischMs }, seq := { x.seq with relSince := none } })
  let s := s.strEvent 12 str
  (s.enterStr str .welded 0 0).openDone str true

/-- The weld check looks at the inputs and at the link, and passes once every condition of R230 is met. -/
def State.weldEval (s : State) (str : Fin 4) : State :=
  if s.strSt str = .weldCheck then
    let low := s.linkLow str == some true
    let s := s.onStr str (fun x => { x with
      seq := { x.seq with auxOk := x.seq.auxOk ||| ~~~ x.aux, dischOk := x.seq.dischOk || low }
      weld := if low && !x.seq.dischOk then
        { x.weld with dischMs := min 0xFFFF ((s.now - x.seq.weldAt) / ticksPerMs) } else x.weld })
    let x := s.strs.at str
    if x.cfg.auxEn &&& ~~~ x.seq.auxOk = 0 && (x.seq.dischOk || s.linkLive str) then
      ((s.onStr str (fun x => { x with weld := { result := 1, dischMs := x.weld.dischMs } })).enterStr str .opened 0 0).openDone
        str false
    else s
  else s

/-- The conditions of R231 hold now: every input in use reads open and, unless the link is live, V_LINK is below 10 %. -/
def State.weldClear (s : State) (str : Fin 4) : Bool :=
  let x := s.strs.at str
  (x.cfg.auxEn &&& x.aux) == 0 && (s.linkLive str || s.linkLow str == some true)

/-- In WELDED, the run of R231 starts, goes on or is broken. -/
def State.weldedEval (s : State) (str : Fin 4) : State :=
  if s.strSt str = .welded then
    let ok := s.weldClear str
    s.onStr str (fun x => { x with seq := { x.seq with relSince := if ok then some (x.seq.relSince.getD s.now) else none } })
  else s

/-- Every channel goes off and the weld check starts; `i` is |I_MAIN| in mA at that moment. -/
def State.startWeldCheck (s : State) (str : Fin 4) (cause : Nat) (stamp : BitVec 32) : State :=
  let s := s.withdraw str
  let s := s.onStr str (fun x => { x with seq := { x.seq with weldAt := s.now, dischOk := false, auxOk := 0 } })
  (s.enterStr str .weldCheck cause stamp).weldEval str

/-- A change of one string's state may make its neighbours' links live or not: their checks look again. -/
def State.weldPeers (s : State) : State := (places 4).foldl (fun s t => (s.weldEval t).weldedEval t) s

-- Openings (07 R227 to R229, R234).

/-- A managed opening starts: the current limits follow from the state, PC goes off (07 R220, R227). -/
def State.startOpening (s : State) (str : Fin 4) (cause : Nat) (stamp : BitVec 32) : State :=
  let s := s.onStr str (fun x => { x with
    lastCause := BitVec.ofNat 8 cause
    seq := { x.seq with openingAt := s.now, releaseAt := none, lowRun := 0, iRelease := none } })
  (s.enterStr str .opening cause stamp).cmdContactor str 2 false

/-- The release of an opening (07 R227, step 3): CP goes off. -/
def State.releaseOpening (s : State) (str : Fin 4) : State :=
  let x := s.strs.at str
  if x.st = .opening ∧ x.seq.releaseAt = none then
    let i := s.iAbs str
    let s := s.onStr str (fun x => { x with seq := { x.seq with releaseAt := some s.now, iRelease := i } })
    (s.countBreak str i).cmdContactor str 1 false
  else s

/-- The string is opened at once, its closure ended by a cause with code `cause`; `i` is the current that is broken, and
`counts` says whether a main contactor breaks it (07 R228, R232). -/
def State.breakNow (s : State) (str : Fin 4) (cause : Nat) (i : Option Nat) : State :=
  let x := s.strs.at str
  let released := x.st == .opening && x.seq.releaseAt.isSome
  let s := s.abortPrecharge str
  let s := if released then s
    else
      let s := if x.st.connected then s.countBreak str i else s
      s.onStr str (fun x => { x with seq := { x.seq with iRelease := i } })
  let s := s.onStr str (fun x => { x with lastCause := BitVec.ofNat 8 cause })
  let s := s.closeRefused str 0x0708 cause
  (s.startWeldCheck str cause 0).weldPeers

/-- A category B cause requests the opening of a string, or ends its closure (07 R220, R233, R234). -/
def State.requestB (s : State) (str : Fin 4) (cause : Nat) : State :=
  match s.strSt str with
  | .preCn | .precharge => (s.strEvent 4 str).breakNow str cause (s.iAbs str)
  | .overlap | .closed => ((s.strEvent 4 str).closeRefused str 0x0708 cause).startOpening str cause 0
  | _ => s

/-- A category A cause opens every string in states 1 to 5 (07 R228). -/
def State.openAllA (s : State) (cause : Nat) : State :=
  (places 4).foldl (fun s str =>
    if (s.strSt str).on then (s.strEvent 8 str).breakNow str cause (s.iAbs str) else s) s

-- Causes (07 R233 to R235).

/-- The invalid age of a cell in ticks (05 R169). -/
def State.invAge (s : State) (u : Fin 128) (c : Fin 16) : Nat :=
  let i := s.uint.at u
  i.invAcc.at c + (match i.invFrom.at c with | some t => s.now - t | none => 0)

/-- A cell of the string has an invalid age of 60 s or more outside service mode (07 R235). -/
def State.openWire (s : State) (str : Fin 4) : Bool :=
  !(s.strs.at str).service && (s.mc16sOf str).any (fun u => (places 16).any (fun c =>
    s.cellInvalid u c.val && decide (60 * ticksPerS ≤ s.invAge u c)))

/-- A STUCK_CLOSED result stands on a switch of the string (05 R173). -/
def State.btStuck (s : State) (str : Fin 4) : Bool := (s.unitsOfStr str).any (fun u => s.isMc16 u && (s.uint.at u).stuck != 0)

/-- A STUCK_OPEN or DEGRADED result stands on a switch of the string (05 R173). -/
def State.btCapped (s : State) (str : Fin 4) : Bool := (s.unitsOfStr str).any (fun u => s.isMc16 u && (s.uint.at u).btC != 0)

/-- A core pair's mismatch is present on the string at the escalation `e` (14 R387). -/
def State.pairCause (s : State) (str : Fin 4) (e : BitVec 2) : Bool :=
  (places 8).any (fun p => p != 0 && (s.pairs.at p).cause && (s.pairs.at p).cfg.escal == e && (s.pairs.at p).cfg.strs.getLsbD str.val)

/-- CAUSE_B of a string: bit n is cause 0x10 + n. -/
def State.causesB (s : State) (str : Fin 4) : BitVec 10 :=
  let x := s.strs.at str
  [s.openWire str, x.ageB, x.curB, s.btStuck str, x.preUntil.isSome, x.overTemp.on, x.pairCond.on, x.auxCause,
   s.pairCause str 2, x.dipCause].zipIdx.foldl (fun m p => putBit m p.2 p.1) 0

/-- CAUSE_C of a string: bit n is cause 0x20 + n. -/
def State.causesC (s : State) (str : Fin 4) : BitVec 8 :=
  let x := s.strs.at str
  [x.ageC, x.curC, (s.mc16sOf str).any (fun u => (s.uint.at u).warn.on), x.sumCond.on, x.isoW.on,
   s.btCapped str, x.service, s.pairCause str 1].zipIdx.foldl (fun m p => putBit m p.2 p.1) 0

/-- The smallest cap in force on the string's limits in % (07 R233). -/
def State.capPct (s : State) (str : Fin 4) : Nat :=
  let c := s.causesC str
  let caps := (if c.getLsbD 0 then [0] else []) ++ (if c.getLsbD 1 then [0] else []) ++
    (if c.getLsbD 2 then [50] else []) ++ (if c.getLsbD 3 then [50] else []) ++
    (if c.getLsbD 6 then [(s.strs.at str).cfg.svcCapPct] else [])
  caps.foldl min 100

/-- The standing causes of a string in ascending order (07 R235): insulation below 100 Ω/V has code 0x05. -/
def State.standing (s : State) (str : Fin 4) : List Nat :=
  let b := s.causesB str
  (if (s.strs.at str).iso.on then [0x05] else []) ++
  ([0, 3, 4, 5, 6, 8].filter (fun n => b.getLsbD n)).map (fun n => 0x10 + n)

end Sys2Proof.Machine
end

