-- ==== Sys2Proof/Machine/HaltOps.lean ====
section
/-! DEFINITION. What several rows do to the halter: details and lock-out (08 R247 to R251), permissives and enables (R263, R264), the status telegram (R258, R260), and the state of a safety input (R252). -/

namespace Sys2Proof.Machine

/-- The place of a detail among the 20, in the order of their codes. -/
def detailPlace : Detail → Fin 20
  | .tripOv => 0
  | .tripUv => 1
  | .tripOt => 2
  | .tripOc => 3
  | .isoFault => 4
  | .sinDemand => 5
  | .netDemand => 6
  | .hostDemand => 7
  | .sinDisc => 8
  | .sinTp => 9
  | .netLoss => 10
  | .netStrikes => 11
  | .hbLoss => 12
  | .clock => 13
  | .rstkStuck => 14
  | .swcTp => 15
  | .startup => 16
  | .pair0Mismatch => 17
  | .protUe => 18
  | .thermal => 19

/-- The code of a detail (08 R250). -/
def detailCode (d : Detail) : Nat := (detailPlace d).val + 1

/-- The cause code of R233 that a detail maps to (08 R250). -/
def causeOfPlace (p : Fin 20) : Nat :=
  if p.val < 5 then p.val + 1 else if p.val < 8 then 6 else if p.val < 17 then 7 else p.val - 9

/-- A detail that is gone at once after recording (08 R250). -/
def detailMomentary : Detail → Bool
  | .hostDemand | .protUe => true
  | _ => false

/-- The trip detail of a kind. -/
def tripDetail : TripKind → Detail
  | .ov => .tripOv
  | .uv => .tripUv
  | .ot => .tripOt
  | .oc => .tripOc

/-- PRESENT of `HLT_PRESENT`: bit n is detail n + 1. -/
def Halter.presentWord (h : Halter) : BitVec 20 :=
  (places 20).foldl (fun m i => if h.present.at i = 0 then m else setBit m i.val) 0

/-- A detail is present for the string or input `w`. -/
def Halter.has (h : Halter) (d : Detail) (w : Nat) : Bool := (h.present.at (detailPlace d)).getLsbD w

/-- A detail's bit for the string or input `w`, as `v`. -/
def Halter.mark (h : Halter) (d : Detail) (w : Nat) (v : Bool) : Halter :=
  { h with present := h.present.upd (detailPlace d) (fun m => putBit m w v) }

/-- The safe state is held: in lock-out, and until the start-up tests have passed (08 R247, R264, R273). -/
def Halter.safe (h : Halter) : Bool := h.lockout || !h.startupOk

/-- The enables, the cut-off and the fault pins follow the safe state (08 R247, R264). -/
def Halter.settle (h : Halter) : Halter :=
  { h with
    enables := if h.safe then 0 else 0xFFF, cutoff := !h.safe, faultA := h.safe, faultB := h.safe }

/-- A refresh entry on the enable crossing (09 R283). -/
def State.sendEnables (s : State) : State :=
  { s with cross := { s.cross with halterToSw1 := s.cross.halterToSw1 ++ [.enables s.halter.enables s.halter.cutoff] } }

/-- Telegram supervision runs under the halter record in force (08 R259). -/
def State.supervises (s : State) : Bool := s.halter.cfg.rxEn || s.pctl.split

/-- A safety input is OK (08 R252); an unused one counts as OK. -/
def Halter.sinOk (h : Halter) (n : Fin 8) : Bool :=
  (h.cfg.sin.at n).role == 0 ||
  ((h.sin.at n).a.closed && (h.sin.at n).b.closed && !h.has .sinDisc n.val && !h.has .sinTp n.val)

/-- An input lets string `str` close: it is OK, or not required for it; and a required guard is proven (08 R263). -/
def Halter.sinPermits (h : Halter) (str : Fin 4) (n : Fin 8) : Bool :=
  let c := h.cfg.sin.at n
  let required := c.role == 1 || (c.role == 2 && c.strs.getLsbD str.val)
  !required || (h.sinOk n && (!c.guard || (h.sin.at n).proven))

/-- A close permit of a string is valid (08 R262). -/
def State.permitValid (s : State) (str : Fin 4) : Bool :=
  match s.halter.net.permit.at str with
  | some t => decide (s.now ≤ t)
  | none => false

/-- The closing permissive of a string (08 R263). -/
def State.permissive (s : State) (str : Fin 4) : Bool :=
  let h := s.halter
  !h.lockout && h.presentWord == 0 && h.startupOk && h.hbArmed && !h.hbLate &&
  (!s.supervises || (h.net.started && h.net.run)) && (places 8).all (h.sinPermits str) &&
  (!s.pctl.split || s.permitValid str)

/-- The closing permissives of the four strings as a mask. -/
def State.permMask (s : State) : Nat := (places 4).foldl (fun m i => m + bit (s.permissive i) * 2 ^ i.val) 0

/-- The inputs that are OK as a mask; none before the HALTER island runs. -/
def State.sinOkMask (s : State) : Nat :=
  if s.isl.halter then (places 8).foldl (fun m n => m + bit (s.halter.sinOk n) * 2 ^ n.val) 0 else 0

/-- A telegram of 16 bytes from its identifier, SEQ, payload and time (08 R258). -/
def telegramBytes (tg : BitVec 16) (seq : BitVec 16) (payload : List Byte) (ytime : Nat) : List Byte :=
  withCrc32c (bvBytes 2 tg ++ bvBytes 2 seq ++ payload ++ leBytes 2 (ytime / 2 ^ 16))

/-- The payload of the status telegram (08 R260). Bytes 6 and 7 are the values of the latest mirror read (11 R330). -/
def State.statusPayload (s : State) : List Byte :=
  let h := s.halter
  leBytes 1 (bit h.safe + 2 * bit h.lockout + 4 * bit s.pctl.split + 8 * bit h.quiet +
      16 * bit (!h.key.reqs.isEmpty) + 32 * bit h.startupOk) ++
  leBytes 1 (s.permMask + 16 * bit (h.enables != 0)) ++ [h.mirror6, h.mirror7] ++
  [if h.lockout then h.lockCause else 0] ++ leBytes 1 s.sinOkMask

/-- The status telegram on both networks (08 R260); a failed transmission is counted and changes no halter state. -/
def State.sendStatus (s : State) (sent0 sent1 : Bool) : State :=
  let n := s.halter.net
  let bytes := telegramBytes s.halter.cfg.txTg n.seq s.statusPayload s.now
  let s := if sent0 then s.emit (.telegram 0 bytes) else s
  let s := if sent1 then s.emit (.telegram 1 bytes) else s
  s.onHalter (fun h => { h with net := { h.net with
    seq := h.net.seq + 1, txFail := satAdd 0xFF h.net.txFail (bit (!sent0) + bit (!sent1)) } })

/-- Bits of `HLT_EVT`. -/
def State.hltEvent (s : State) (n : Nat) : State := { s with evt := { s.evt with hlt := setBit s.evt.hlt n } }

/-- Lock-out is entered for a detail (08 R248, R249): the safe state, the lock-out word to AON, the record, the strings,
and the extra telegram. -/
def State.lockOut (s : State) (d : Detail) (w : Fin 16) : State :=
  let s := s.onHalter (fun h => { h with
    lockout := true, lockCause := BitVec.ofNat 8 (detailCode d), lockWhere := BitVec.ofNat 4 w.val, lockCnt := satAdd 0xFFFF h.lockCnt 1
    aonWord := { lockout := true, cause := BitVec.ofNat 8 (detailCode d), where_ := BitVec.ofNat 4 w.val, hours := s.oph }
    copyDue := true })
  let s := (s.onHalter Halter.settle).sendEnables
  let s := (s.hltEvent 0).studbook 0x10 w.val ([BitVec.ofNat 8 (detailCode d), 0, 0, 0] ++ leBytes 4 s.halter.presentWord.toNat)
  (s.openAllA (causeOfPlace (detailPlace d))).sendStatus true true

/-- A cause detail arises at the halter for the string or input `w` (08 R248, R250, R251). It becomes present when no
other string or input held it; in lock-out it is then a late detail. -/
def State.raiseDetail (s : State) (d : Detail) (w : Fin 16) : State :=
  let stood := (s.halter.present.at (detailPlace d)) != 0
  let locked := s.halter.lockout
  let s := s.onHalter (fun h => { (h.mark d w.val true) with key := { h.key with
    seen := if h.key.press.isSome then setBit h.key.seen (detailPlace d).val else h.key.seen } })
  let s := if !locked then s.lockOut d w
    else if stood then s
    else (s.onHalter (fun h => { h with lateCnt := satAdd 0xFF h.lateCnt 1 })).studbook 0x12 w.val [BitVec.ofNat 8 (detailCode d)]
  if detailMomentary d then s.onHalter (fun h => h.mark d w.val false) else s

/-- A detail's gone condition holds for the string or input `w`. -/
def State.dropDetail (s : State) (d : Detail) (w : Nat) : State := s.onHalter (fun h => h.mark d w false)

/-- A detail is gone for every string and input. -/
def State.clearDetail (s : State) (d : Detail) : State :=
  s.onHalter (fun h => { h with present := h.present.put (detailPlace d) 0 })

/-- A safety input's demand starts with an open reading of either channel, as its role says, and stays until the input
reads OK (08 R250, R252). -/
def State.sinEval (s : State) (n : Fin 8) : State :=
  let h := s.halter
  let c := h.cfg.sin.at n
  let x := h.sin.at n
  let w : Fin 16 := ⟨n.val, by omega⟩
  if h.sinOk n then
    (s.dropDetail .sinDemand n.val).onHalter (fun h => { h with sin := h.sin.upd n (fun x => { x with demand := false }) })
  else
    let wanted := c.role == 1 || (c.role == 2 && (places 4).any (fun t => c.strs.getLsbD t.val && (s.strSt t).on))
    if wanted && !(x.a.closed && x.b.closed) && !x.demand then
      (s.onHalter (fun h => { h with sin := h.sin.upd n (fun x => { x with demand := true }) })).raiseDetail .sinDemand w
    else s

/-- CAUSE_A of a string (07 R234): bit n is cause 0x01 + n, present on every string in use while a detail of it is. -/
def State.causesA (s : State) (str : Fin 4) : BitVec 10 :=
  if s.usedStr str then
    (places 20).foldl (fun m i => if s.halter.present.at i = 0 then m else setBit m (causeOfPlace i - 1)) 0
  else 0

end Sys2Proof.Machine
end

