-- ==== Sys2Proof/Machine/Host.lean ====
section
/-! DEFINITION. The host interface (chapter 02; 11 R332–R337): rings, doorbells, fetch, completions, interrupts, troughs and streams. -/

namespace Sys2Proof.Machine

-- Access errors and W1C bits.

/-- KINDs of `ACC_ERR` (19 R474). -/
inductive AccKind where
  | narrow0 | dbBase | ringCfg | notWritable | narrow2 | bar2Write
deriving DecidableEq, Repr

/-- KIND of `ACC_ERR`. -/
def AccKind.code : AccKind → BitVec 3
  | .narrow0 => 0
  | .dbBase => 1
  | .ringCfg => 2
  | .notWritable => 3
  | .narrow2 => 4
  | .bar2Write => 5

/-- A host access that had no effect is recorded (19 R474). COUNT counts since VALID was last cleared. -/
def State.accError (s : State) (k : AccKind) (off : Nat) : State :=
  let n := if s.evt.acc then satAdd 0xFFF s.misc.accErr.count 1 else 1
  { s with
    misc := { s.misc with accErr := { kind := k.code, count := n, off := BitVec.ofNat 16 off } }
    evt := { s.evt with acc := true } }

/-- The same for an access of a given view: core accesses are never recorded (19 R474). -/
def State.viewError (s : State) (v : View) (k : AccKind) (off : Nat) : State :=
  match v with
  | .host => s.accError k off
  | .core _ => s

/-- A W1C bit of `RING_STAT` of a ring pair is set: 0 QUIESCED, 1 CFG_ERR, 2 DB_RANGE_ERR, 3 DMA_ERR. -/
def State.ringEvent (s : State) (r : Fin 16) (n : Nat) : State :=
  { s with evt := { s.evt with ring := s.evt.ring.upd r (fun b => setBit b n) } }

-- Streams (02 R81 to R84).

/-- The stream commands of the list without one. -/
def dropStream (l : List StreamS) (stamp : BitVec 32) : List StreamS := l.filter (fun x => x.cmd.stamp != stamp)

/-- The opcode of the streams that take records of a RECORD_TYPE (02 R77). -/
def streamOpOf (recordType : BitVec 8) : BitVec 8 :=
  if recordType = 0x01 then 0xC0 else if recordType = 0x02 then 0xC1 else 0xC2

/-- The opcodes of the streams that a source feeds: a stall's trough, or the estimator trough. -/
def sourceFeeds (src : Source) (op : BitVec 8) : Bool :=
  match src with
  | .stall _ => op == 0xC0
  | .estimator => op == 0xC1 || op == 0xC2

/-- The trough of a source. -/
def Troughs.get (t : Troughs) : Source → Trough
  | .stall i => t.stall.at i
  | .estimator => t.est

/-- The troughs with that of a source replaced. -/
def Troughs.set (t : Troughs) (src : Source) (x : Trough) : Troughs :=
  match src with
  | .stall i => { t with stall := t.stall.put i x }
  | .estimator => { t with est := x }

/-- Every source trough keeps only what an active stream still takes (02 R80; DESIGN CHOICE, log entry 9). -/
def State.pruneTroughs (s : State) : State :=
  let wanted (i : TroughItem) : Bool := s.hif.streams.any (fun x => x.opcode == i.op && (x.mask &&& i.mask) != 0)
  let prune (t : Trough) : Trough :=
    let items := t.items.filter wanted
    { items := items, lost := if items.isEmpty && !t.items.isEmpty then 0 else t.lost }
  { s with troughs := { stall := s.troughs.stall.each (fun _ t => prune t), est := prune s.troughs.est } }

/-- A stream ends with its FINAL completion: RESULT holds BUFFER_INDEX, BYTES, RECORDS and UNUSED (02 R83, R84).
`unused` is the buffers of the list that will not be filled. -/
def State.endStream (s : State) (x : StreamS) (status : BitVec 8) (unused : Nat) (withResult : Bool) : State :=
  let s := { s with hif := { s.hif with streams := dropStream s.hif.streams x.cmd.stamp } }
  let s := s.pruneTroughs
  let result := if withResult then dwords x.idx x.bytes x.records unused else 0
  match s.hif.flight x.cmd.stamp with
  | none => { s with hif := s.hif.recordFinal x.cmd.stamp status true }
  | some f =>
    let s := s.post f.cmd f.opcode status result true x.gap
    let h := { s.hif with flights := s.hif.flights.filter (fun g => g.cmd.stamp != x.cmd.stamp) }
    State.refreshEligible { s with hif := h.recordFinal x.cmd.stamp status true }

/-- A stream is stopped: CANCELLED, with what its current buffer holds (02 R84). -/
def State.stopStream (s : State) (x : StreamS) : State :=
  s.endStream x stCancelled (x.count - x.idx - 1) true

/-- A stream's current buffer completes. The last buffer of the list carries FINAL (02 R83). -/
def State.completeBuffer (s : State) (x : StreamS) : State :=
  if x.idx + 1 = x.count then s.endStream x stSuccess 0 true
  else
    let s := s.post x.cmd x.opcode stSuccess (dwords x.idx x.bytes x.records 0) false x.gap
    let next := { x with idx := x.idx + 1, cur := none, bytes := 0, records := 0, gap := false, since := none }
    { s with hif := { s.hif with streams := s.hif.streams.map (fun y => if y.cmd.stamp == x.cmd.stamp then next else y) } }

/-- Every stream of a ring pair is stopped. -/
def State.stopRingStreams (s : State) (r : Fin 16) : State :=
  (s.hif.streams.filter (fun x => x.cmd.ring == r)).foldl (fun s x => s.stopStream x) s

-- Ring states (02 R53).

/-- Entries of a ring pair whose read is outstanding are forgotten: fetching has stopped. -/
def State.dropReads (s : State) (r : Fin 16) : State :=
  { s.onRing r (fun x => { x with reading := 0 }) with
    hif := { s.hif with fetchQ := s.hif.fetchQ.filter (fun q => q != r) } }

/-- An Active or Draining ring pair goes to Error, with its cause: bit 2 DB_RANGE_ERR or bit 3 DMA_ERR (02 R53). -/
def State.ringError (s : State) (r : Fin 16) (n : Nat) : State :=
  let s := s.onRing r (fun x => { x with st := .error })
  ((s.dropReads r).ringEvent r n).refreshEligible

/-- The fields of `RING_CFG` that only a Disabled ring pair takes (02 R51). -/
def Ring.withCfg (x : Ring) (v : Word) : Ring :=
  { x with
    cls := v.extractLsb' 1 2, sqLog2 := v.extractLsb' 4 4, cqLog2 := v.extractLsb' 8 4, vec := v.extractLsb' 12 5,
    irqEn := v.getLsbD 17, quantum := v.extractLsb' 24 8 }

/-- Whether a `RING_CFG` value differs from the locked fields in force (02 R51). -/
def Ring.lockedDiffers (x : Ring) (v : Word) : Bool :=
  x.cls != v.extractLsb' 1 2 || x.sqLog2 != v.extractLsb' 4 4 || x.cqLog2 != v.extractLsb' 8 4 ||
  x.vec != v.extractLsb' 12 5 || x.quantum != v.extractLsb' 24 8

/-- Both ring sizes lie in 4–12 (02 R47, R53). -/
def Ring.sizesValid (x : Ring) : Bool :=
  4 ≤ x.sqLog2.toNat && x.sqLog2.toNat ≤ 12 && 4 ≤ x.cqLog2.toNat && x.cqLog2.toNat ≤ 12

/-- A ring pair as an enable leaves it (02 R53). -/
def Ring.enabled (x : Ring) : Ring :=
  { x with
    st := .active, enable := true, sqCi := 0, cqPi := 0, cqPhase := true, sqPi := 0, cqCi := 0, fetched := [],
    reading := 0, trough := [], discard := false, pendIrq := 0, credit := 0, eligibleAt := none }

/-- A write to `RING_CFG` of a ring pair (02 R51, R53). -/
def State.writeRingCfg (s : State) (view : View) (r : Fin 16) (v : Word) : State :=
  let x := s.rings.at r
  let on := v.getLsbD 0
  match x.st with
  | .disabled =>
    let x := x.withCfg v
    if !on then s.onRing r (fun _ => { x with enable := false })
    else if x.sizesValid then (s.onRing r (fun _ => x.enabled)).refreshEligible
    else (s.onRing r (fun _ => { x with enable := false })).ringEvent r 1
  | st =>
    let s := if x.lockedDiffers v then s.viewError view .ringCfg 0x0C20 else s
    let s := s.onRing r (fun x => { x with enable := on, irqEn := v.getLsbD 17 })
    if on then s
    else match st with
      | .active =>
        ((((s.dropReads r).onRing r (fun x => { x with st := .draining })).stopRingStreams r).refreshEligible)
      | .error =>
        let inFlight (c : Completion) : Bool := (s.hif.flight c.stamp).isSome
        let s := s.onRing r (fun x =>
          { x with st := .draining, discard := true, trough := x.trough.filter (fun c => !inFlight c) })
        s.stopRingStreams r
      | _ => s

/-- A write to one of the four base-address registers of a ring pair (02 R51): `lo` and `sq` choose it. -/
def State.writeRingBase (s : State) (view : View) (r : Fin 16) (sq lo : Bool) (off : Nat) (v : Word) : State :=
  let x := s.rings.at r
  let old := if sq then x.sqBase else x.cqBase
  let part : Word := if lo then v &&& 0xFFFFF000 else v
  let new : BitVec 64 :=
    if lo then old.extractLsb' 32 32 ++ part else part ++ old.extractLsb' 0 32
  if x.st = .disabled then
    s.onRing r (fun x => if sq then { x with sqBase := new } else { x with cqBase := new })
  else if new = old then s
  else s.viewError view .ringCfg off

-- The commands of the host interface.

/-- A host-interface reset (02 R45): ring and MSI-X registers at reset, no ring pair enabled, streams and completions
gone; the stamp counter and what executes goes on. Bus Master Enable returns to 0 (PRESUMED, log entry 6). -/
def hostReset (s : State) : State :=
  let gone := s.hif.flights.filter (fun f => f.stage == .waiting || isStreamOp f.opcode)
  let h := gone.foldl (fun h f => h.recordFinal f.cmd.stamp stCancelled (isStreamOp f.opcode))
    { s.hif with flights := [], streams := [] }
  let s := { s with
    hif := { h with
      busMaster := false, dbBase := 0, pollEn := false, evtVec := 0, pollGap := 0, dbFails := 0, outstanding := false,
      nudge := false, early := false, dueAt := s.now, fetchQ := [], ptr := Bank.fill 4 15 }
    rings := Bank.fill 16 {}
    msix := Bank.fill 32 {}
    misc := { s.misc with sel := { s.misc.sel with ring := 0 }, coreSel := s.misc.coreSel.each (fun _ x => { x with ring := 0 }) }
    evt := { s.evt with dbErr := false, ring := Bank.fill 16 0 } }
  s.pruneTroughs

/-- HOST_INTERFACE_RESET (02 R45). -/
def execHostInterfaceReset (_kind : HifReset) (s : State) : Host.Outcome State Fault Refusal := answer s (hostReset s)

/-- Every unmasked vector whose pending bit is set is sent (02 R76). -/
def State.sendPending (s : State) : State :=
  (places 32).foldl (fun s v =>
    let e := s.msix.at v
    if e.pending && !e.masked && s.canDma then
      ({ s with msix := s.msix.upd v (fun e => { e with pending := false }) }).sendVector v
    else s) s

/-- BUS_MASTER_ENABLE_CHANGE (02 R44). -/
def execBusMasterEnableChange (en : Bool) (s : State) : Host.Outcome State Fault Refusal :=
  let t := { s with hif := { s.hif with busMaster := en } }
  answer s (if en && !s.hif.busMaster then
    State.sendPending { t with hif := { t.hif with pollGap := 0, activeAt := s.now, outstanding := false, dueAt := s.now + 128 } }
  else t)

/-- A write to `DB_BASE_LO` or `DB_BASE_HI` (02 R50). -/
def State.writeDbBase (s : State) (view : View) (hi : Bool) (v : Word) : State :=
  if s.hif.pollEn then s.viewError view .dbBase (if hi then 0x0C08 else 0x0C04)
  else
    let old := s.hif.dbBase
    let new : BitVec 64 := if hi then v ++ old.extractLsb' 0 32 else old.extractLsb' 32 32 ++ (v &&& 0xFFFFFF00)
    { s with hif := { s.hif with dbBase := new } }

/-- DB_BASE_WRITE (02 R50). -/
def execDbBaseWrite (hi : Bool) (v : Word) (s : State) : Host.Outcome State Fault Refusal :=
  answer s (s.writeDbBase .host hi v)

/-- DB_ERR is cleared and polling goes on (02 R59). -/
def State.clearDbErr (s : State) : State :=
  { s with evt := { s.evt with dbErr := false }, hif := { s.hif with dbFails := 0 } }

/-- DB_ERR_CLEAR (02 R59). -/
def execDbErrClear (s : State) : Host.Outcome State Fault Refusal := answer s s.clearDbErr

/-- RING_ENABLE: `RING_CFG` written with ENABLE = 1 (02 R53). -/
def execRingEnable (r : Fin 16) (cfg : Word) (s : State) : Host.Outcome State Fault Refusal :=
  answer s (s.writeRingCfg .host r (cfg ||| 1))

/-- RING_DISABLE: `RING_CFG` written with ENABLE = 0 (02 R53). -/
def execRingDisable (r : Fin 16) (cfg : Word) (s : State) : Host.Outcome State Fault Refusal :=
  answer s (s.writeRingCfg .host r (cfg &&& 0xFFFFFFFE))

/-- POLLING of `HIF_STAT`: the poller runs in Run and Idle (02 R60). -/
def State.polling (s : State) : Bool :=
  s.hif.pollEn && s.canDma && (s.pwr.st == .run || s.pwr.st == .idle)

/-- The gap of a POLL_GAP code in ticks: 2 × 2^c µs, and 1000 µs for code 9 (02 R57). -/
def gapTicks (code : Nat) : Nat := if code ≤ 8 then 2 * 2 ^ code * ticksPerUs else 1000 * ticksPerUs

/-- DOORBELL_POLL (02 R57, R58): a poll that is due, or that a nudge asks for, reads the doorbell block. -/
def execDoorbellPoll (s : State) : Host.Outcome State Fault Refusal :=
  let due := decide (s.hif.dueAt ≤ s.now)
  answer s (if s.polling && !s.evt.dbErr && !s.hif.outstanding && (due || s.hif.nudge) then
    { s.emit (.hostRead s.hif.dbBase 256) with
      hif := { s.hif with
        outstanding := true, nudge := false, early := !due, dueAt := if due then s.now else s.hif.dueAt } }
  else s)

/-- What a poll finds in the slot of a ring pair: nothing to check, an index out of range, or the indices (02 R56). -/
inductive SlotCheck where
  | skip
  | bad
  | taken (sqPi cqCi : Nat) (changed : Bool)
deriving DecidableEq, Repr

/-- The check of one doorbell slot (02 R56). -/
def Ring.checkSlot (x : Ring) (d : DbSlot) : SlotCheck :=
  let n := 2 ^ x.sqLog2.toNat
  let m := 2 ^ x.cqLog2.toNat
  let p' := d.sqPi.toNat
  let q' := d.cqCi.toNat
  if x.st = .active ∨ x.st = .draining then
    if n ≤ p' ∨ m ≤ q' then .bad
    else
      let adv := (p' + n - x.sqPi) % n
      let room := (x.sqCi + 2 * n - 1 - x.sqPi) % n
      let used := (q' + m - x.cqCi) % m
      let written := (x.cqPi + m - x.cqCi) % m
      if room < adv ∨ written < used then .bad else .taken p' q' (p' != x.sqPi || q' != x.cqCi)
  else .skip

/-- One slot of a poll, taken up. The flag says whether any ring pair has changed so far. -/
def takeSlot (slots : Bank 16 DbSlot) (acc : State × Bool) (r : Fin 16) : State × Bool :=
  match (acc.1.rings.at r).checkSlot (slots.at r) with
  | .skip => acc
  | .bad => (acc.1.ringError r 2, acc.2)
  | .taken p q ch => (acc.1.onRing r (fun x => { x with sqPi := p, cqCi := q }), acc.2 || ch)

/-- The next gap code after a poll (02 R57). -/
def nextGap (h : Hif) (now : Nat) (changed : Bool) : Nat :=
  if changed then 0
  else if h.early then h.pollGap
  else if now < h.activeAt + ticksPerMs then h.pollGap
  else if h.pollGap < 9 then h.pollGap + 1 else 9

/-- DOORBELL_READ_COMPLETE (02 R56, R57, R59): the read returns with the 16 slots, or fails. The first poll that
completes releases `HOST_WAKE` (15 R420). -/
def execDoorbellReadComplete (read : Option (Bank 16 DbSlot)) (s : State) : Host.Outcome State Fault Refusal :=
  answer s (if !s.hif.outstanding then s
  else
    match read with
    | none =>
      let fails := s.hif.dbFails + 1
      let next := if s.hif.early then s.hif.dueAt else s.hif.dueAt + gapTicks s.hif.pollGap
      { s with
        hif := { s.hif with outstanding := false, dbFails := fails, dueAt := next }
        evt := { s.evt with dbErr := s.evt.dbErr || decide (3 ≤ fails) } }
    | some slots =>
      let (t, changed) := (places 16).foldl (takeSlot slots) (s, false)
      let gap := nextGap s.hif s.now changed
      let from_ := if s.hif.early then (if changed then s.now else s.hif.dueAt) else s.hif.dueAt
      let next := if s.hif.early && !changed then s.hif.dueAt else from_ + gapTicks gap
      State.refreshEligible { t with
        hif := { t.hif with
          outstanding := false, dbFails := 0, pollGap := gap, dueAt := next,
          activeAt := if changed then s.now else t.hif.activeAt }
        pwr := { t.pwr with hostWake := false } })

/-- DMA_ERROR_COMPLETION (02 R53): a submission read, completion write or mirror write completes with an error. -/
def execDmaErrorCompletion (r : Fin 16) (_kind : DmaKind) (s : State) : Host.Outcome State Fault Refusal :=
  answer s (match (s.rings.at r).st with
    | .active | .draining => s.ringError r 3
    | _ => s)

-- Fetch (11 R332 to R334).

/-- The rank of a class in R333: Control, Admin, Query, Stream. -/
def classOrder : List (BitVec 2) := [1, 0, 2, 3]

/-- No entry to Rest or Stabled has stopped fetching (15 R409). -/
def State.fetching (s : State) : Bool := (s.pwr.st == .run || s.pwr.st == .idle) && s.pwr.phase == 0

/-- Whether ring pair `r` may be fetched from. -/
def State.mayFetch (s : State) (r : Fin 16) : Bool :=
  s.fetching &&
  (s.rings.at r).eligible (s.hif.ringFlights r) (s.hif.flights.length + (s.rings.toList.map Ring.reading).sum) &&
  decide ((s.rings.at r).reading < ((s.rings.at r).sqPi + 2 ^ (s.rings.at r).sqLog2.toNat - (s.rings.at r).sqCi) %
    2 ^ (s.rings.at r).sqLog2.toNat)

/-- The aged ring pair that has waited longest (11 R334). -/
def State.agedRing (s : State) : Option (Fin 16) :=
  ((places 16).filterMap (fun r =>
    match (s.rings.at r).eligibleAt with
    | some a => if s.mayFetch r && decide (a + 4 * ticksPerMs ≤ s.now) then some (a, r) else none
    | none => none)).foldl (fun best p =>
      match best with
      | none => some p
      | some b => if p.1 < b.1 then some p else best) (none : Option (Nat × Fin 16)) |>.map Prod.snd

/-- The ring pairs of a class in the order in which the pointer visits them next. -/
def State.visitOrder (s : State) (cls : BitVec 2) : List (Fin 16) :=
  let at_ := (s.hif.ptr.at ⟨cls.toNat, cls.isLt⟩).val
  ((List.range 16).map (fun i => idx 16 (by decide) (at_ + 1 + i))).filter (fun r => (s.rings.at r).cls == cls)

/-- The read of `n` entries of a ring pair: the requests leave, and the entries are expected in this order. -/
def State.readEntries (s : State) (r : Fin 16) (n : Nat) : State :=
  let x := s.rings.at r
  let reads := (List.range n).map (fun i =>
    OutEvent.hostRead (x.sqBase + BitVec.ofNat 64 (64 * ((x.sqCi + x.reading + i) % 2 ^ x.sqLog2.toNat))) 64)
  let s := s.onRing r (fun x => { x with reading := x.reading + n, eligibleAt := none })
  State.refreshEligible { s with out := s.out ++ reads, hif := { s.hif with fetchQ := s.hif.fetchQ ++ List.replicate n r } }

/-- Entries that one visit can take: the credit, what the ring holds, and the limits of R68. -/
def State.fetchRoom (s : State) (r : Fin 16) : Nat :=
  let x := s.rings.at r
  let held := (x.sqPi + 2 ^ x.sqLog2.toNat - x.sqCi) % 2 ^ x.sqLog2.toNat - x.reading
  let total := s.hif.flights.length + (s.rings.toList.map Ring.reading).sum
  min held (min (64 - (s.hif.ringFlights r + x.reading)) (256 - total))

/-- Credits of the ring pairs that the pointer passes over return to 0 (11 R333). -/
def State.passOver (s : State) (rs : List (Fin 16)) : State :=
  rs.foldl (fun s r => s.onRing r (fun x => { x with credit := 0 })) s

/-- A visit of a ring pair by its class's pointer (11 R333). -/
def State.visit (s : State) (cls : BitVec 2) (r : Fin 16) : State :=
  let s := s.passOver ((s.visitOrder cls).takeWhile (fun q => q != r))
  let credit := (s.rings.at r).credit + max 1 (s.rings.at r).quantum.toNat
  let n := min credit (s.fetchRoom r)
  let s := s.onRing r (fun x => { x with credit := credit - n })
  ({ s with hif := { s.hif with ptr := s.hif.ptr.put ⟨cls.toNat, cls.isLt⟩ r } }).readEntries r n

/-- SUBMISSION_FETCH (11 R333, R334). -/
def execSubmissionFetch (s : State) : Host.Outcome State Fault Refusal :=
  answer s (if !s.canDma then s
  else
    match s.agedRing with
    | some r =>
      ({ s with
        evt := { s.evt with aged := setBit s.evt.aged r.val }
        hif := { s.hif with agedCnt := satAdd 0xFFFF s.hif.agedCnt 1 } }).readEntries r 1
    | none =>
      match classOrder.findSome? (fun cls => ((s.visitOrder cls).find? s.mayFetch).map (fun r => (cls, r))) with
      | some (cls, r) => s.visit cls r
      | none => s)

/-- The assigned opcodes (02 R85). -/
def opcodeAssigned (op : BitVec 8) : Bool :=
  let n := op.toNat
  (1 ≤ n && n ≤ 0x14) || n == 0x3F || (0x40 ≤ n && n ≤ 0x4B) || n == 0x7F || (0x80 ≤ n && n ≤ 0x88) || n == 0xBF ||
  (0xC0 ≤ n && n ≤ 0xC3) || n == 0xFF

/-- What a dependency reference resolves to (02 R64). -/
inductive DepRes where
  | forward
  | stale
  | wait (stamp : BitVec 32)
deriving DecidableEq, Repr

/-- A reference to stamp `r` from the command with stamp `stamp`, when `issued` stamps came before it (02 R64). -/
def resolveStamp (issued : Nat) (stamp r : BitVec 32) : DepRes :=
  let d := (stamp - r).toNat
  if d = 0 ∨ 2 ^ 31 ≤ d then .forward
  else if 4096 < d then .stale
  else if issued < d then .forward
  else .wait r

/-- A dependency slot in use: KIND 1 or 2 (02 R62, R64). None for a slot that is ignored. -/
def resolveSlot (issued : Nat) (stamp : BitVec 32) (fetched : List (BitVec 32)) (slot : BitVec 64) : Option DepRes :=
  let ref := slot.extractLsb' 0 32
  let kind := slot.extractLsb' 32 8
  if kind = 1 then some (resolveStamp issued stamp ref)
  else if kind = 2 then
    if ref = 0 then some .forward
    else if 4095 < ref.toNat then some .stale
    else
      match fetched[ref.toNat - 1]? with
      | some r => some (resolveStamp issued stamp r)
      | none => some .forward
  else none

/-- The dependencies in use of an entry, in slot order, with whether COND asks for SUCCESS. -/
def entryDeps (issued : Nat) (stamp : BitVec 32) (fetched : List (BitVec 32)) (e : BitVec 512) : List (DepRes × Bool) :=
  let cnt := (e.extractLsb' 10 2).toNat
  ([0, 1, 2].filter (fun i => i < cnt)).filterMap (fun i =>
    let slot := e.extractLsb' (64 + 64 * i) 64
    (resolveSlot issued stamp fetched slot).map (fun d => (d, slot.extractLsb' 40 8 == 0)))

/-- The command in flight after its dependencies have been looked at again: DEP_FAILED, ready to execute, or waiting
(02 R65). -/
def State.settleDeps (s : State) (stamp : BitVec 32) : State :=
  match s.hif.flight stamp with
  | none => s
  | some f =>
    if f.stage ≠ .waiting then s
    else if f.deps.any (fun d => d.success && (match d.ended with | some st => st != stSuccess | none => false)) then
      s.complete f.cmd stDepFailed
    else if f.deps.all (fun d => d.ended.isSome) then s.executing f.cmd
    else s

/-- SUBMISSION_ARRIVAL (02 R63, R64, R67): the entry receives its stamp and passes through the checks at fetch. -/
def arrive (s : State) (r : Fin 16) (e : BitVec 512) : State :=
  let h := s.hif
  let stamp := h.stampNext
  let x := s.rings.at r
  let op := e.extractLsb' 0 8
  let cls := e.extractLsb' 8 2
  let cmd : Cmd :=
    { ring := r, stamp := stamp, tag := e.extractLsb' 16 16, noIrq := e.getLsbD 13, ops := e.extractLsb' 256 256 }
  let deps := entryDeps h.issued stamp x.fetched e
  let known : List Dep := deps.filterMap (fun d =>
    match d.1 with
    | DepRes.wait st => some { stamp := st, success := d.2, ended := (h.finalOf st).map Final.status }
    | _ => none)
  let streams := (h.flights.filter (fun f => f.cmd.ring == r && isStreamOp f.opcode)).length
  let s := s.onRing r (fun x =>
    { x with sqCi := (x.sqCi + 1) % 2 ^ x.sqLog2.toNat, reading := x.reading - 1, fetched := (stamp :: x.fetched).take 4096 })
  let s := { s with
    hif := { h with
      issued := h.issued + 1, fetchQ := h.fetchQ.drop 1
      flights := h.flights ++ [({ cmd := cmd, opcode := op, deps := known, stage := .waiting, dmaDone := 0 } : Flight)] } }
  let s := s.refreshEligible
  if !opcodeAssigned op then s.complete cmd stBadOpcode
  else if cls ≠ op.extractLsb' 6 2 ∨ cls ≠ x.cls then s.complete cmd stWrongClass
  else
    match deps.find? (fun d => d.1 == DepRes.forward || d.1 == DepRes.stale) with
    | some d => s.complete cmd (if d.1 = DepRes.stale then stDepStale else stDepForward)
    | none =>
      if isStreamOp op && 63 ≤ streams then s.complete cmd stBusy
      else
        let s := if e.getLsbD 12 then s.post cmd op stFetched 0 false false else s
        s.settleDeps stamp

/-- SUBMISSION_ARRIVAL: entries arrive in the order of their reads. -/
def execSubmissionArrival (r : Fin 16) (entry : BitVec 512) (s : State) : Host.Outcome State Fault Refusal :=
  answer s (if s.hif.fetchQ.head? = some r ∧ (s.rings.at r).st = .active then arrive s r entry else s)

/-- COMMAND_DEPENDENCY_RESOLVED (02 R65). -/
def execCommandDependencyResolved (stamp : BitVec 32) (s : State) : Host.Outcome State Fault Refusal :=
  answer s (s.settleDeps stamp)

/-- COMMAND_DATA_DMA_COMPLETE (11 R335): a transfer of a command's data completes; with an error, the command ends
DMA_ERROR (02 R70). -/
def execCommandDataDmaComplete (stamp : BitVec 32) (ok : Bool) (s : State) : Host.Outcome State Fault Refusal :=
  answer s (match s.hif.flight stamp with
    | none => s
    | some f =>
      if ok then
        { s with hif := { s.hif with
            flights := s.hif.flights.map (fun g => if g.cmd.stamp == stamp then { g with dmaDone := g.dmaDone + 1 } else g) } }
      else
        match s.hif.streams.find? (fun x => x.cmd.stamp == stamp) with
        | some x => s.endStream x stDmaError 0 false
        | none => s.complete f.cmd stDmaError)

-- Completions to the host (02 R69, R71, R73, R74, R76).

/-- The 32 bytes of a completion entry as it is written (02 R69). -/
def completionBytes (c : Completion) (r : Fin 16) (sqHead : Nat) (phase : Bool) : List Byte :=
  bvBytes 2 c.tag ++ bvBytes 1 c.status ++ bvBytes 1 c.opcode ++ bvBytes 4 c.stamp ++ bvBytes 16 c.result ++
    bvBytes 4 c.ctime ++
    leBytes 4 (sqHead % 4096 + 65536 * r.val + 2 ^ 20 * bit c.final + 2 ^ 21 * bit c.gap + 2 ^ 31 * bit phase)

/-- A ring pair's vector is sent, and its count and age start again (02 R76). -/
def State.sendRingVector (s : State) (r : Fin 16) : State :=
  let v := (s.rings.at r).vec
  (s.onRing r (fun x => { x with pendIrq := 0 })).sendVector ⟨v.toNat, v.isLt⟩

/-- A completion that counts towards interrupts has reached the host (02 R76). -/
def State.countIrq (s : State) (r : Fin 16) : State :=
  let x := s.rings.at r
  if !x.irqEn then s
  else
    let s := s.onRing r (fun x =>
      { x with pendIrq := x.pendIrq + 1, oldestAt := if x.pendIrq = 0 then s.now else x.oldestAt,
               useTime := x.coalTime })
    if max 1 x.coalCount.toNat ≤ x.pendIrq + 1 then s.sendRingVector r else s

/-- One completion moves to the host ring: the entry, then the mirror, then the interrupt if one is due (02 R73). -/
def State.moveCompletion (s : State) (r : Fin 16) (c : Completion) : State :=
  let x := s.rings.at r
  let size := 2 ^ x.cqLog2.toNat
  let next := (x.cqPi + 1) % size
  let phase := if next = 0 then !x.cqPhase else x.cqPhase
  let s := s.onRing r (fun x => { x with trough := x.trough.drop 1, cqPi := next, cqPhase := phase })
  let s := s.emit (.hostWrite (x.cqBase + BitVec.ofNat 64 (32 * x.cqPi)) (completionBytes c r x.sqCi x.cqPhase))
  let s := s.emit (.hostWrite (s.hif.dbBase + BitVec.ofNat 64 (16 * r.val + 8)) (leBytes 4 (next + 2 ^ 31 * bit phase)))
  State.refreshEligible (if c.noIrq then s else s.countIrq r)

/-- COMPLETION_TO_HOST (02 R74). -/
def execCompletionToHost (r : Fin 16) (s : State) : Host.Outcome State Fault Refusal :=
  answer s (let x := s.rings.at r
    if (x.st = .active ∨ x.st = .draining) ∧ s.canDma = true ∧ 0 < x.hostFree then
      match x.trough with
      | c :: _ => s.moveCompletion r c
      | [] => s
    else s)

/-- COALESCE_TIMER (02 R76): the oldest pending completion has waited TIME_US. -/
def execCoalesceTimer (r : Fin 16) (s : State) : Host.Outcome State Fault Refusal :=
  answer s (let x := s.rings.at r
    if x.irqEn ∧ 0 < x.pendIrq ∧ x.useTime ≠ 0 ∧ x.oldestAt + x.useTime.toNat * ticksPerUs ≤ s.now then s.sendRingVector r
    else s)

/-- A vector is unmasked: a pending one is sent (02 R76). -/
def State.unmask (s : State) (v : Fin 32) : State :=
  let pend := (s.msix.at v).pending
  let s := { s with msix := s.msix.upd v (fun e => { e with masked := false, pending := false }) }
  if pend then s.sendVector v else s

/-- MSIX_UNMASK (02 R76). -/
def execMsixUnmask (vec : Fin 32) (s : State) : Host.Outcome State Fault Refusal := answer s (s.unmask vec)

/-- DRAIN_COMPLETE (02 R53): a draining ring pair with nothing in flight and an empty trough is Disabled. -/
def execDrainComplete (r : Fin 16) (s : State) : Host.Outcome State Fault Refusal :=
  answer s (let x := s.rings.at r
    if x.st = .draining ∧ s.hif.ringFlights r = 0 ∧ x.trough = [] then
      (s.onRing r (fun x => { x with st := .disabled, enable := false, discard := false })).ringEvent r 0
    else s)

-- Troughs (02 R78 to R80).

/-- Bytes of a trough: 16 KiB for a stall, 256 KiB for the estimator (02 R79). -/
def sourceCapacity : Source → Nat
  | .stall _ => 16384
  | .estimator => 262144

/-- The gap marker of a source (02 R78). -/
def gapMarker (src : Source) (lost now : Nat) : List (BitVec 32) :=
  let (id, kind) := match src with
    | .stall i => (i.val, 0)
    | .estimator => (0, 1)
  [BitVec.ofNat 32 (0x7F + 256 * id + 65536 * 4 + 2 ^ 24 * kind), BitVec.ofNat 32 lost, BitVec.ofNat 32 now, 0]

/-- Bytes that a trough holds. -/
def Trough.used (t : Trough) : Nat := (t.items.map (fun i => 4 * i.words.length)).sum

/-- A record reaches its source trough: kept if an active stream takes it, after a gap marker if records were lost, or
counted as lost while the trough is full. 16 bytes always stay free for a marker (02 R79, R80). -/
def State.troughTakes (s : State) (src : Source) (words : List (BitVec 32)) (mask : BitVec 32) : State :=
  let op := streamOpOf ((words.headD 0).extractLsb' 0 8)
  if !(s.hif.streams.any (fun x => x.opcode == op && (x.mask &&& mask) != 0)) then s
  else
    let t := s.troughs.get src
    let marker := if t.lost = 0 then [] else [gapMarker src t.lost s.now]
    let new := (marker ++ [words]).map (fun w => ({ words := w, mask := mask, op := op } : TroughItem))
    let need := (new.map (fun i => 4 * i.words.length)).sum
    let t := if t.used + need + 16 ≤ sourceCapacity src then { items := t.items ++ new, lost := 0 }
             else { t with lost := satAdd 0xFFFFFFFF t.lost 1 }
    { s with troughs := s.troughs.set src t }

/-- A record lost to an uncorrectable error counts in LOST of its source (02 R79). -/
def State.troughLoses (s : State) (src : Source) : State :=
  let t := s.troughs.get src
  if s.hif.streams.any (fun x => sourceFeeds src x.opcode) then
    { s with troughs := s.troughs.set src { t with lost := satAdd 0xFFFFFFFF t.lost 1 } }
  else s

/-- TROUGH_RECORD (02 R79; 01 R33). -/
def execTroughRecord (src : Source) (rec_ : TroughRec) (s : State) : Host.Outcome State Fault Refusal :=
  answer s (match rec_.ue with
    | some (bank, off) => (s.troughLoses src).memoryError .trough bank off.toNat
    | none =>
      s.troughTakes src rec_.words (match src with | .stall i => BitVec.ofNat 32 (2 ^ i.val) | .estimator => rec_.mask))

/-- Whether a buffer list entry is in range: aligned to 64 bytes, and a multiple of 64 from 512 B to 1 MiB (02 R81). -/
def listEntryValid (e : BitVec 128) : Bool :=
  let len := (e.extractLsb' 64 32).toNat
  e.extractLsb' 0 6 == 0 && len % 64 == 0 && 512 ≤ len && len ≤ 1048576

/-- The stream that takes the item at the head of a source trough. -/
def State.takerOf (s : State) (i : TroughItem) : Option StreamS :=
  s.hif.streams.find? (fun x => x.opcode == i.op && (x.mask &&& i.mask) != 0)

/-- A stream replaced by its new state. -/
def State.setStream (s : State) (x : StreamS) : State :=
  { s with hif := { s.hif with streams := s.hif.streams.map (fun y => if y.cmd.stamp == x.cmd.stamp then x else y) } }

/-- A record moves from its trough into the current buffer of its stream (02 R83). -/
def State.moveRecord (s : State) (src : Source) (x : StreamS) (i : TroughItem) (buf : BitVec 64) : State :=
  let t := s.troughs.get src
  let bytes := i.words.flatMap (fun w => bvBytes 4 w)
  let s := { s with troughs := s.troughs.set src { t with items := t.items.drop 1 } }
  let s := s.emit (.hostWrite (buf + BitVec.ofNat 64 x.bytes) bytes)
  s.setStream { x with
    bytes := x.bytes + bytes.length, records := x.records + 1
    gap := x.gap || ((i.words.headD 0).extractLsb' 0 8 == 0x7F), since := some (x.since.getD s.now) }

/-- Streams run, or drain their troughs in phase 2 of an entry (15 R409). -/
def State.streaming (s : State) : Bool := s.fetching || s.pwr.phase == 2

/-- STREAM_RECORD_TRANSFER (02 R82, R83; 11 R336): the record at the head of a source trough goes to its stream. A new
buffer is taken from the list entry that is read then; a record that does not fit completes the buffer instead. -/
def execStreamRecordTransfer (src : Source) (listEntry : BitVec 128) (s : State) : Host.Outcome State Fault Refusal :=
  answer s (match (s.troughs.get src).items.head? with
    | none => s
    | some i =>
      match s.takerOf i with
      | none => s
      | some x =>
        if !s.streaming || !s.canDma || (s.rings.at x.cmd.ring).troughFull || (s.rings.at x.cmd.ring).st == .error then s
        else
          match x.cur with
          | some (buf, len) =>
            if x.bytes + 4 * i.words.length ≤ len then s.moveRecord src x i buf else s.completeBuffer x
          | none =>
            let s := s.emit (.hostRead (x.list + BitVec.ofNat 64 (16 * x.idx)) 16)
            if !listEntryValid listEntry then s.endStream x stBadOperand 0 false
            else
              let buf := listEntry.extractLsb' 0 64
              let len := (listEntry.extractLsb' 64 32).toNat
              let x := { x with cur := some (buf, len) }
              let s := s.setStream x
              if 4 * i.words.length ≤ len then s.moveRecord src x i buf else s.completeBuffer x)

/-- STREAM_FLUSH_TIMER (02 R83): a buffer that holds a record completes FLUSH_MS after it received its first. -/
def execStreamFlushTimer (stamp : BitVec 32) (s : State) : Host.Outcome State Fault Refusal :=
  answer s (match s.hif.streams.find? (fun x => x.cmd.stamp == stamp) with
    | none => s
    | some x =>
      match x.since with
      | none => s
      | some t =>
        if 0 < x.flushMs ∧ 0 < x.records ∧ t + x.flushMs * ticksPerMs ≤ s.now ∧ (s.rings.at x.cmd.ring).troughFull = false then
          s.completeBuffer x
        else s)

/-- A stream command begins (02 R81, R82). -/
def startStream (op : BitVec 8) (c : Cmd) (s : State) : State :=
  let list := opField c 0 8
  let count := opField c 8 4
  let mask := c.ops.extractLsb' 96 32
  let flush := opField c 16 2
  let orphan := (places 32).any (fun i => mask.getLsbD i.val && (s.stalls.at i).str.isNone)
  if list % 16 ≠ 0 ∨ count = 0 ∨ 65535 < count ∨ 1000 < flush ∨ mask = 0 ∨ orphan then s.badOperand c
  else if s.hif.streams.any (fun x => x.opcode == op && (x.mask &&& mask) != 0) then s.busy c
  else
    { s with hif := { s.hif with streams := s.hif.streams ++
        [{ cmd := c, opcode := op, mask := mask, list := BitVec.ofNat 64 list, count := count, flushMs := flush,
           idx := 0, cur := none, bytes := 0, records := 0, gap := false, since := none }] } }

/-- STREAM_SAMPLES (0xC0). -/
def execStreamSamples (c : Cmd) (s : State) : Host.Outcome State Fault Refusal :=
  answer s (s.run c false (startStream 0xC0 c))

/-- STREAM_IMPEDANCE (0xC1; 06 R213). -/
def execStreamImpedance (c : Cmd) (s : State) : Host.Outcome State Fault Refusal :=
  answer s (s.run c false (startStream 0xC1 c))

/-- STREAM_ESTIMATES (0xC2; 06 R213). -/
def execStreamEstimates (c : Cmd) (s : State) : Host.Outcome State Fault Refusal :=
  answer s (s.run c false (startStream 0xC2 c))

/-- What STREAM_STOP does (02 R84). -/
def stopByStamp (c : Cmd) (s : State) : State :=
  let stamp := c.ops.extractLsb' 0 32
  match s.hif.streams.find? (fun x => x.cmd.stamp == stamp) with
  | some x => (s.stopStream x).ok c (dwords 1 0 0 0)
  | none =>
    match s.hif.flight stamp with
    | some f =>
      if isStreamOp f.opcode then
        (s.complete f.cmd stCancelled (dwords 0 0 0 (opField f.cmd 8 4))).ok c (dwords 1 0 0 0)
      else s.badOperand c
    | none =>
      match s.hif.finalOf stamp with
      | some f => if f.stream then s.ok c (dwords 0 0 0 0) else s.badOperand c
      | none => s.badOperand c

/-- STREAM_STOP (0xC3; 02 R84). -/
def execStreamStop (c : Cmd) (s : State) : Host.Outcome State Fault Refusal :=
  answer s (s.run c false (stopByStamp c))

/-- NOP of the Admin class (02 R85). -/
def execNopAdmin (c : Cmd) (s : State) : Host.Outcome State Fault Refusal := answer s (s.run c true (fun s => s.ok c))
/-- NOP of the Control class. -/
def execNopControl (c : Cmd) (s : State) : Host.Outcome State Fault Refusal := answer s (s.run c true (fun s => s.ok c))
/-- NOP of the Query class. -/
def execNopQuery (c : Cmd) (s : State) : Host.Outcome State Fault Refusal := answer s (s.run c true (fun s => s.ok c))
/-- NOP of the Stream class. -/
def execNopStream (c : Cmd) (s : State) : Host.Outcome State Fault Refusal := answer s (s.run c true (fun s => s.ok c))

end Sys2Proof.Machine
end

