-- ==== Sys2Proof/Machine/Halter.lean ====
section
/-! DEFINITION. The halter (chapter 08): its inputs, heartbeat, telegrams, test pulses, the reset key and lock-out exit, and the start-up tests. -/

namespace Sys2Proof.Machine

/-- The string or input a detail concerns; 0 where it concerns none (08 R249, R250). -/
def detailWhere (d : Detail) (w : Fin 16) : Fin 16 :=
  match d with
  | .tripOv | .tripUv | .tripOt | .tripOc | .isoFault | .swcTp => ⟨w.val % 4, by omega⟩
  | .sinDemand | .sinDisc | .sinTp => ⟨w.val % 8, by omega⟩
  | _ => 0

/-- HALTER_CAUSE_ENTRY (08 R248): a cause detail becomes present. -/
def execHalterCauseEntry (d : Detail) (w : Fin 16) (s : State) : Host.Outcome State Fault Refusal :=
  answer s (s.raiseDetail d (detailWhere d w))

/-- LOCKOUT_WORD_COPY (08 R249): the retention controller copies the word into the configuration region. -/
def execLockoutWordCopy (s : State) : Host.Outcome State Fault Refusal :=
  answer s (if s.halter.copyDue then s.onHalter (fun h => { h with cfgWord := h.aonWord, copyDue := false }) else s)

-- Safety inputs (08 R252 to R255).

/-- The state with safety input `n` changed. -/
def State.onSin (s : State) (n : Fin 8) (f : Sin → Sin) : State := s.onHalter (fun h => { h with sin := h.sin.upd n f })

/-- When a channel's reading last changed. -/
def SinChan.changedAt (c : SinChan) : Nat := max c.openedAt c.closedAt

/-- A channel with a new reading. -/
def SinChan.turn (c : SinChan) (closed : Bool) (now : Nat) : SinChan :=
  if closed then { c with closed := true, closedAt := now } else { c with closed := false, openedAt := now }

/-- Both channels of an input have turned closed within 50 ms of each other after both were open: SIN_DISC is gone, and
a guard is proven (08 R254, R255). -/
def State.sinPair (s : State) (n : Fin 8) : State :=
  let s := s.dropDetail .sinDisc n.val
  if (s.halter.cfg.sin.at n).guard then s.onSin n (fun x => { x with proven := true, provenAt := s.oph }) else s

/-- SAFETY_INPUT_CHANGE (08 R252, R254, R255): a channel's filtered reading changes. -/
def execSafetyInputChange (n : Fin 8) (chB closed : Bool) (s : State) : Host.Outcome State Fault Refusal :=
  answer s (
    let old := s.halter.sin.at n
    if (if chB then old.b.closed else old.a.closed) = closed then s
    else
      let s := s.onSin n (fun x => if chB then { x with b := x.b.turn closed s.now } else { x with a := x.a.turn closed s.now })
      let x := s.halter.sin.at n
      let s := if !x.a.closed && !x.b.closed then s.onSin n (fun x => { x with bothOpen := true })
        else if x.a.closed && x.b.closed then
          let near := decide (x.a.closedAt ≤ x.b.closedAt + 50 * ticksPerMs) && decide (x.b.closedAt ≤ x.a.closedAt + 50 * ticksPerMs)
          let s := if x.bothOpen && near then s.sinPair n else s
          s.onSin n (fun x => { x with bothOpen := false })
        else s
      s.sinEval n)

/-- An input takes part in test pulses (08 R253). -/
def SinRec.pulsed (c : SinRec) : Bool := c.role != 0 && c.tpEn

/-- SIN_TEST_PULSE (08 R253): output `TPOk` starts its low pulse. -/
def execSinTestPulse (k : Fin 4) (s : State) : Host.Outcome State Fault Refusal :=
  answer s (
    let s := s.emit (.tpo k)
    s.onHalter (fun h => { h with sin := h.sin.each (fun n x =>
      let c := h.cfg.sin.at n
      if c.pulsed then
        { x with
          a := if c.tpoA.toNat = k.val then { x.a with wasClosed := x.a.closed } else x.a
          b := if c.tpoB.toNat = k.val then { x.b with wasClosed := x.b.closed } else x.b }
      else x) }))

/-- A channel after a pulse (08 R250, R253): it passes when it read open in the pulse and closed after it, or while its
input is in demand. A channel that read open before gives no result. -/
def SinChan.judged (c : SinChan) (demand : Bool) (r : PulseReading) : SinChan :=
  if !c.wasClosed then c
  else if demand || (r.openInPulse && r.closedAfter) then
    { c with wasClosed := false, failRun := 0, passRun := c.passRun + 1, tpBad := c.tpBad && decide (c.passRun + 1 < 8) }
  else { c with wasClosed := false, passRun := 0, failRun := c.failRun + 1, tpBad := c.tpBad || decide (2 ≤ c.failRun + 1) }

/-- The judgement of one input's channels that `TPOk` feeds. -/
def State.judgeSin (s : State) (k : Fin 4) (read : Bank 16 PulseReading) (n : Fin 8) : State :=
  let c := s.halter.cfg.sin.at n
  if c.pulsed then
    let s := s.onSin n (fun x =>
      let d := x.demand
      { x with
        a := if c.tpoA.toNat = k.val then x.a.judged d (read.at ⟨2 * n.val, by omega⟩) else x.a
        b := if c.tpoB.toNat = k.val then x.b.judged d (read.at ⟨2 * n.val + 1, by omega⟩) else x.b })
    let x := s.halter.sin.at n
    let w : Fin 16 := ⟨n.val, by omega⟩
    let s := if x.a.tpBad || x.b.tpBad then (if s.halter.has .sinTp n.val then s else s.raiseDetail .sinTp w)
      else s.dropDetail .sinTp n.val
    s.sinEval n
  else s

/-- SIN_TEST_PULSE_JUDGE (08 R253): 200 µs after the pulse end. Readings 2n and 2n + 1 are those of channels A and B of
input n. -/
def execSinTestPulseJudge (k : Fin 4) (read : Bank 16 PulseReading) (s : State) : Host.Outcome State Fault Refusal :=
  answer s ((places 8).foldl (fun s n => s.judgeSin k read n) s)

/-- SIN_DISCREPANCY (08 R254): the channels have disagreed for more than 50 ms. -/
def execSinDiscrepancy (n : Fin 8) (s : State) : Host.Outcome State Fault Refusal :=
  answer s (
    let x := s.halter.sin.at n
    if (s.halter.cfg.sin.at n).role ≠ 0 ∧ x.a.closed ≠ x.b.closed ∧ s.halter.has .sinDisc n.val = false ∧
       max x.a.changedAt x.b.changedAt + 50 * ticksPerMs < s.now then
      (s.raiseDetail .sinDisc ⟨n.val, by omega⟩).sinEval n
    else s)

/-- GUARD_PROOF_EXPIRY (08 R255): PROOF_H operating hours after the proof. -/
def execGuardProofExpiry (n : Fin 8) (s : State) : Host.Outcome State Fault Refusal :=
  answer s (
    let x := s.halter.sin.at n
    let h := (s.halter.cfg.sin.at n).proofH
    if x.proven ∧ h ≠ 0 ∧ x.provenAt + h * 3600000 ≤ s.oph then
      (s.onSin n (fun x => { x with proven := false })).hltEvent 6
    else s)

-- Heartbeat (08 R256).

/-- A view that may write `HLT_HB`: core pair 0, or core 0 in split mode. -/
def State.mayBeat (s : State) : View → Bool
  | .host => false
  | .core c => c == 0 || (c == 1 && !s.pctl.split)

/-- A write to `HLT_HB` is a valid heartbeat, or ignored and counted; the host's is also an access it may not make
(08 R256; 19 R474). -/
def State.writeHeartbeat (s : State) (view : View) (v : Word) : State :=
  let hb : BitVec 8 := v.setWidth 8
  if s.mayBeat view ∧ hb = s.halter.hb + 1 then
    let s := s.onHalter (fun h => { h with hb := hb, hbArmed := true, hbAt := s.now, hbLate := false, hbRun := h.hbRun + 1 })
    if 10 ≤ s.halter.hbRun then s.clearDetail .hbLoss else s
  else (s.onHalter (fun h => { h with badHb := satAdd 0xFF h.badHb 1 })).viewError view .notWritable 0x2420

/-- HEARTBEAT_WRITE (08 R256). -/
def execHeartbeatWrite (view : View) (v : Word) (s : State) : Host.Outcome State Fault Refusal := answer s (s.writeHeartbeat view v)

/-- HEARTBEAT_LATE (08 R256): more than 10 ms since the last valid heartbeat. -/
def execHeartbeatLate (s : State) : Host.Outcome State Fault Refusal :=
  answer s (if s.halter.hbArmed ∧ s.halter.hbAt + 10 * ticksPerMs < s.now then
    s.onHalter (fun h => { h with hbLate := true }) else s)

/-- HEARTBEAT_LOSS (08 R256): more than 60 ms since the last valid heartbeat. -/
def execHeartbeatLoss (s : State) : Host.Outcome State Fault Refusal :=
  answer s (if s.halter.hbArmed ∧ s.halter.hbAt + 60 * ticksPerMs < s.now ∧ s.halter.has .hbLoss 0 = false then
    (s.onHalter (fun h => { h with hbLate := true, hbRun := 0 })).raiseDetail .hbLoss 0 else s)

-- Telegrams (08 R257 to R262).

/-- The state with the telegram supervision changed. -/
def State.onNet (s : State) (f : HaltNet → HaltNet) : State := s.onHalter (fun h => { h with net := f h.net })

/-- One strike (08 R259): strikes before supervision starts are counted and not judged. -/
def State.strike (s : State) : State :=
  let s := (s.onNet (fun n => { n with strikes := satAdd 0xFFFF n.strikes 1, okRun := 0 })).hltEvent 5
  if s.halter.net.started then
    let s := s.onNet (fun n => { n with strikeAt := s.now :: n.strikeAt.filter (fun t => decide (s.now ≤ t + ticksPerS)) })
    if 3 ≤ s.halter.net.strikeAt.length ∧ s.halter.has .netStrikes 0 = false then s.raiseDetail .netStrikes 0 else s
  else s

/-- A byte of a telegram. -/
def tgByte (b : BitVec 128) (i : Nat) : Byte := b.extractLsb' (8 * i) 8

/-- A telegram has a right CRC and the identifier RX_TG_ID (08 R258, R259). -/
def State.tgGood (s : State) (b : BitVec 128) : Bool :=
  b.extractLsb' 0 16 == s.halter.cfg.rxTg && bvBytes 4 (crc32c (bvBytes 12 (b.extractLsb' 0 96))) == bvBytes 4 (b.extractLsb' 96 32)

/-- The permits that an accepted pair arms in split mode (08 R262). -/
def State.armPermits (s : State) (bits : BitVec 4) : State :=
  let s := match s.halter.net.permitRef, s.pctl.split with
    | some ref, true => s.onNet (fun n => { n with permit := n.permit.each (fun i p =>
        if bits.getLsbD i.val && !ref.getLsbD i.val then some (s.now + 100 * ticksPerMs) else p) })
    | _, _ => s
  s.onNet (fun n => { n with permitRef := some bits })

/-- A pair is accepted, or ignored as a duplicate (08 R259 to R262). -/
def State.acceptPair (s : State) (b : BitVec 128) : State :=
  let seq : BitVec 16 := b.extractLsb' 16 16
  let n := s.halter.net
  if n.started && seq == n.lastSeq then s
  else
    let struck := n.started && seq != n.lastSeq + 1
    let run := (tgByte b 4).getLsbD 0
    let s := s.onNet (fun n => { n with started := true, lastSeq := seq, acceptedAt := s.now, run := run })
    let s := if struck then s.strike else s.onNet (fun n => { n with okRun := n.okRun + 1 })
    let s := if 10 ≤ s.halter.net.okRun then (s.clearDetail .netLoss).clearDetail .netStrikes else s
    let s := if run then s.clearDetail .netDemand
      else if s.halter.has .netDemand 0 then s else s.raiseDetail .netDemand 0
    s.armPermits ((tgByte b 5).setWidth 4)

/-- A copy that waits on a network has waited its 10 ms: one strike (08 R259). -/
def State.loneCopy (s : State) (net : Fin 2) : State :=
  match s.halter.net.wait.at net with
  | some w => if w.at_ + 10 * ticksPerMs < s.now then (s.onNet (fun n => { n with wait := n.wait.put net none })).strike else s
  | none => s

/-- TELEGRAM_RECEIVED (08 R259): a copy arrives on one of the two networks. -/
def execTelegramReceived (net : Fin 2) (bytes : BitVec 128) (s : State) : Host.Outcome State Fault Refusal :=
  answer s (
    if !s.supervises || !s.tgGood bytes then s
    else
      let other : Fin 2 := if net = 0 then 1 else 0
      let s := s.loneCopy other
      match s.halter.net.wait.at other with
      | some w =>
        let s := s.onNet (fun n => { n with wait := n.wait.put other none })
        if w.bytes = bytes then s.acceptPair bytes else s.strike
      | none =>
        let s := if (s.halter.net.wait.at net).isSome then s.strike else s
        s.onNet (fun n => { n with wait := n.wait.put net (some ⟨bytes, s.now⟩) }))

/-- TELEGRAM_PAIR_TIMEOUT (08 R259). -/
def execTelegramPairTimeout (net : Fin 2) (s : State) : Host.Outcome State Fault Refusal := answer s (s.loneCopy net)

/-- NET_LOSS (08 R259): no accepted pair for 50 ms since supervision started. -/
def execNetLoss (s : State) : Host.Outcome State Fault Refusal :=
  answer s (if s.supervises ∧ s.halter.net.started ∧ s.halter.net.acceptedAt + 50 * ticksPerMs ≤ s.now ∧
      s.halter.has .netLoss 0 = false then
    (s.onNet (fun n => { n with okRun := 0 })).raiseDetail .netLoss 0 else s)

/-- STATUS_TELEGRAM (08 R260): every 10 ms; after QUIET, telegrams resume at wake. -/
def execStatusTelegram (sent0 sent1 : Bool) (s : State) : Host.Outcome State Fault Refusal :=
  answer s (if s.isl.halter && !s.halter.quiet then s.sendStatus sent0 sent1 else s)

/-- CLOSE_PERMIT_EXPIRY (08 R262). -/
def execClosePermitExpiry (str : Fin 4) (s : State) : Host.Outcome State Fault Refusal :=
  answer s (match s.halter.net.permit.at str with
    | some t => if t ≤ s.now then s.onNet (fun n => { n with permit := n.permit.put str none }) else s
    | none => s)

/-- HALTER_MIRROR_READ (11 R330): the values of status bytes 6 and 7. -/
def execHalterMirrorRead (s : State) : Host.Outcome State Fault Refusal :=
  answer s (
    let mask (f : Fin 4 → Bool) : Nat := (places 4).foldl (fun m i => m + bit (f i) * 2 ^ i.val) 0
    let b6 := mask (fun i => s.strSt i == .closed) + 16 * mask (fun i => s.strSt i == .opening)
    let b7 := mask (fun i => (s.strs.at i).service) + 16 * bit (s.stalls.toList.any Stall.oos) + 32 * bit (s.bypassMask != 0)
    s.onHalter (fun h => { h with mirror6 := BitVec.ofNat 8 b6, mirror7 := BitVec.ofNat 8 b7 }))

-- Contactor test pulses and enables (08 R264 to R266; 09 R283).

/-- The state with the test pulse of contactor channel 12 + j changed. -/
def State.onPulse (s : State) (j : Fin 12) (f : CtPulse → CtPulse) : State :=
  s.onHalter (fun h => { h with pulse := h.pulse.upd j f })

/-- CONTACTOR_TEST_PULSE (08 R265, R266): the enable of channel 12 + j is withdrawn for 300 µs. For the economiser the
pulse is not a turn-off: the channel keeps its phase. -/
def execContactorTestPulse (j : Fin 12) (s : State) : Host.Outcome State Fault Refusal :=
  answer s (
    let ch := conCh j
    let c := s.swc.at ch
    let young := c.cmd != .off && decide (s.now < c.onAt + 150 * ticksPerMs)
    if s.halter.enables = 0 ∨ (s.halter.pulse.at j).busy ∨ young then s
    else
      (s.onPulse j (fun p => { p with busy := true, discard := false })).onSwc ch
        (fun c => { c with pulse := true, pulseDrop := false, out := false }))

/-- The result of a test pulse (08 R265): two failures in a row make SWC_TP present. -/
def State.contactorResult (s : State) (j : Fin 12) (passed : Bool) : State :=
  if passed then s.onPulse j (fun p => { p with failed := false, failRun := 0 })
  else
    let s := s.onPulse j (fun p => { p with failed := true, failRun := p.failRun + 1 })
    let s := s.onHalter (fun h => { h with tpFailCnt := satAdd 0xFFFF h.tpFailCnt 1 })
    let w : Fin 16 := ⟨j.val / 3, by omega⟩
    if 2 ≤ (s.halter.pulse.at j).failRun ∧ s.halter.has .swcTp w.val = false then s.raiseDetail .swcTp w else s

/-- CONTACTOR_TEST_PULSE_END (08 R265, R266): the pulse ends and is judged, unless an off-demand met it. -/
def execContactorTestPulseEnd (j : Fin 12) (echoFell outFell outRecovered : Bool) (s : State) : Host.Outcome State Fault Refusal :=
  answer s (
    let ch := conCh j
    if (s.halter.pulse.at j).busy then
      let c := s.swc.at ch
      let wasOn := c.phase != .off
      let dropped := c.pulseDrop || s.halter.enables == 0
      let s := (s.onPulse j (fun p => { p with busy := false })).onSwc ch (fun c => { c with pulse := false, pulseDrop := false })
      let s := if s.mayConduct ch then (if wasOn then s.onSwc ch (fun c => { c with out := true }) else s.turnOn ch)
        else if wasOn then s.turnOff ch else s
      if dropped then s
      else s.contactorResult j (echoFell && (!wasOn || (outFell && outRecovered)))
    else s)

/-- ENABLE_REFRESH (09 R283): every 100 µs while the HALTER island runs. -/
def execEnableRefresh (s : State) : Host.Outcome State Fault Refusal := answer s (if s.isl.halter then s.sendEnables else s)

/-- ENABLE_REFRESH_TIMEOUT (09 R283, R303): after 500 µs without a refresh entry SW-1 withdraws every enable and opens its
cut-off. -/
def execEnableRefreshTimeout (s : State) : Host.Outcome State Fault Refusal :=
  answer s (if s.swctl.refreshAt + 500 * ticksPerUs ≤ s.now then
    ({ s with swctl := { s.swctl with enables := 0, cutoff := false } }).settleContactors else s)

-- The reset key (08 R267 to R270).

/-- The state with the reset key changed. -/
def State.onKey (s : State) (f : Rstk → Rstk) : State := s.onHalter (fun h => { h with key := f h.key })

/-- The lowest detail code of a mask of details, 0 for none. -/
def lowestDetail (m : BitVec 20) : Nat := (((List.range 20).find? (fun i => m.getLsbD i)).map (· + 1)).getD 0

/-- The commands that joined the press complete REFUSED. -/
def State.pressRefused (s : State) (code d3 : Nat) : State :=
  let reqs := s.halter.key.reqs
  (s.onKey (fun k => { k with reqs := [] })).completeAll reqs stRefused (dwords code d3 0 0)

/-- A press ends as invalid: 1 too short, 2 held, 3 contacts disagreed (08 R268, R270). -/
def State.pressInvalid (s : State) (why : Nat) : State :=
  let s := s.onKey (fun k => { k with press := none, seen := 0 })
  let s := if why = 1 then s.onKey (fun k => { k with shortCnt := satAdd 0xFFFF k.shortCnt 1 })
    else (s.hltEvent (if why = 2 then 2 else 3)).studbook 0x13 0 [if why = 2 then 1 else 2]
  s.pressRefused 0x0805 why

/-- RESET_KEY_PRESS_START (08 R267): the second contact closes within 50 ms of the first. -/
def execResetKeyPressStart (s : State) : Host.Outcome State Fault Refusal :=
  answer s (
    let k := s.halter.key
    if k.press.isSome ∨ k.held then s
    else s.onKey (fun k => { k with
      a := true, b := true, changedAt := s.now, press := some s.now, seen := s.halter.presentWord, disc := false
      reqs := [], bothOpenAt := none }))

/-- Lock-out is left (08 R269): the fault pins and the enables follow, the AON copy is cleared and the
configuration-region copy requested. -/
def State.lockExit (s : State) (pressMs : Nat) : State :=
  let s := s.onHalter (fun h => { h with lockout := false, aonWord := { h.aonWord with lockout := false }, copyDue := true })
  (((s.onHalter Halter.settle).sendEnables).hltEvent 1).studbook 0x11 0 (leBytes 2 (min 0xFFFF pressMs))

/-- A valid press ends (08 R269, R270). -/
def State.pressValid (s : State) (pressMs : Nat) : State :=
  let h := s.halter
  let reqs := h.key.reqs
  let clean := h.presentWord == 0 && h.key.seen == 0
  let leave := h.lockout && !h.key.disabled && clean && (!h.cfg.rstHost || !reqs.isEmpty)
  let s := s.onKey (fun k => { k with press := none, seen := 0 })
  if leave then
    (((s.onKey (fun k => { k with reqs := [] })).lockExit pressMs).completeAll reqs stSuccess (dwords 1 0 0 0))
  else
    let s := s.hltEvent 4
    if !clean then s.pressRefused 0x0803 (if h.presentWord = 0 then lowestDetail h.key.seen else lowestDetail h.presentWord)
    else if h.key.disabled then s.pressRefused 0x0804 0
    else s.pressRefused 0x0801 0

/-- RESET_KEY_PRESS_END (08 R267 to R269): the first contact opens; `otherWithin50ms` says whether the second followed in
time. -/
def execResetKeyPressEnd (otherWithin50ms : Bool) (s : State) : Host.Outcome State Fault Refusal :=
  answer s (
    let k := s.halter.key
    let s := s.onKey (fun k => { k with a := false, b := false, changedAt := s.now, held := false, bothOpenAt := some s.now })
    match k.press with
    | none => s
    | some t =>
      let dur := s.now - t
      if 5 * ticksPerS ≤ dur then s.pressInvalid 2
      else if !otherWithin50ms then s.pressInvalid 3
      else if dur < 500 * ticksPerMs then s.pressInvalid 1
      else s.pressValid (dur / ticksPerMs))

/-- RSTK_HELD (08 R268): a press reaches 5 s. -/
def execRstkHeld (s : State) : Host.Outcome State Fault Refusal :=
  answer s (match s.halter.key.press with
    | some t => if t + 5 * ticksPerS ≤ s.now then (s.pressInvalid 2).onKey (fun k => { k with held := true }) else s
    | none => s)

/-- RSTK_DISC (08 R268): the contacts have disagreed for more than 50 ms. -/
def execRstkDisc (s : State) : Host.Outcome State Fault Refusal :=
  answer s ((s.pressInvalid 3).onKey (fun k => { k with disc := true }))

/-- RESET_ENABLE (08 R268): both contacts have read open together for 1 s. -/
def execResetEnable (s : State) : Host.Outcome State Fault Refusal :=
  answer s (
    let k := s.halter.key
    let long : Bool := match k.bothOpenAt with
      | some t => decide (t + ticksPerS ≤ s.now)
      | none => true
    if k.disabled ∧ k.press.isNone ∧ long then
      (s.onKey (fun k => { k with disabled := false, a := false, b := false, held := false, disc := false })).clearDetail .rstkStuck
    else s)

/-- HALTER_RESET_REQ (0x4B; 08 R270). -/
def execHalterResetReq (c : Cmd) (s : State) : Host.Outcome State Fault Refusal :=
  answer s (s.run c false (fun s =>
    let h := s.halter
    if !h.lockout then s.refuse c 0x0801
    else if h.key.press.isNone then s.refuse c 0x0802
    else if h.presentWord ≠ 0 then s.complete c stRefused (dwords 0x0803 (lowestDetail h.presentWord) 0 0)
    else if h.key.disabled then s.refuse c 0x0804
    else s.onKey (fun k => { k with reqs := k.reqs ++ [c] })))

/-- A write to `HLT_HOST_REQ` (08 R271). -/
def State.writeHostReq (s : State) (v : Word) : State :=
  if v.getLsbD 0 ∧ v.extractLsb' 24 8 = 0xA5 then s.raiseDetail .hostDemand 0
  else s.onHalter (fun h => { h with badReq := satAdd 0xFF h.badReq 1 })

/-- HOST_SAFE_REQUEST (08 R271). -/
def execHostSafeRequest (v : Word) (s : State) : Host.Outcome State Fault Refusal := answer s (s.writeHostReq v)

-- Start-up (08 R273) and the fault pins (R279).

/-- HALTER_STARTUP_TESTS_DONE (08 R250, R273): STARTUP_OK is set, or STARTUP becomes present. -/
def execHalterStartupTestsDone (stageOk eccOk comparatorsOk : Bool) (s : State) : Host.Outcome State Fault Refusal :=
  answer s (if s.halter.testing then
    let s := s.onHalter (fun h => { h with testing := false })
    let s := if stageOk then s.clearDetail .swcTp else s
    if stageOk && eccOk && comparatorsOk then
      let s := s.onHalter (fun h => { h with startupOk := true })
      ((s.clearDetail .startup).onHalter Halter.settle).sendEnables
    else if s.halter.has .startup 0 then s else s.raiseDetail .startup 0
  else s)

/-- FAULT_PIN_MISMATCH (08 R279): a fault pin reads back a level other than the one driven. -/
def execFaultPinMismatch (_pinA : Bool) (s : State) : Host.Outcome State Fault Refusal := answer s (s.hltEvent 7)

end Sys2Proof.Machine
end

