-- ==== Sys2Proof/Machine/Strings.lean ====
section
/-! DEFINITION. The strings (chapter 07): the close and open sequences, the precharge and weld checks, auxiliary inputs, supply dips, insulation, over-temperature, service mode, and LIMITS_READ. -/

namespace Sys2Proof.Machine

-- Precharge (07 R223 to R226).

/-- PRE_MS now: from PC on, in ms. -/
def State.preMsNow (s : State) (str : Fin 4) : Nat := (s.now - (s.strs.at str).seq.pcAt) / ticksPerMs

/-- A precharge fault with its result code (07 R226): PC and CN off at once, the cause for 60 s, or 600 s when it is the
third within 10 min. -/
def State.preFault (s : State) (str : Fin 4) (code : BitVec 3) : State :=
  let inPre := s.strSt str == .precharge
  let i := s.iAbs str
  let s := s.onStr str (fun x =>
    let faults := s.now :: x.preFaults.filter (fun t => decide (s.now < t + 600 * ticksPerS))
    { x with
      preResult := code, preMs := if inPre then min 0xFFFF (s.preMsNow str) else x.preMs, preFaults := faults
      preUntil := some (s.now + (if 3 ≤ faults.length then 600 else 60) * ticksPerS), lastCause := 0x14
      seq := { x.seq with iRelease := i } })
  let s := ((s.strEvent 16 str).strEvent 4 str).closeRefused str 0x0707 code.toNat
  (s.startWeldCheck str 0x14 0).weldPeers

/-- PC turns on and the precharge starts (07 R220, R224, R225). -/
def State.pcOn (s : State) (str : Fin 4) : State :=
  let par := s.linkLive str
  let s := s.onStr str (fun x => { x with
    prePar := par
    seq := { x.seq with pcAt := s.now, v0 := x.now.vLink, parallel := par, passed := 0, parRun := 0 } })
  (s.enterStr str .precharge 0 0).cmdContactor str 2 true

/-- Precharge is complete: CP turns on and the overlap starts (07 R220). -/
def State.preDone (s : State) (str : Fin 4) : State :=
  let s := s.onStr str (fun x => { x with preResult := 1, seq := { x.seq with cpAt := s.now } })
  (s.enterStr str .overlap 0 0).cmdContactor str 1 true

/-- 1 − e^(−1/2), 1 − e^(−1) and 1 − e^(−2) to 30 decimal places (07 R224; log entry 20). -/
def rcFactor (n : Nat) : Rat :=
  if n = 0 then 393469340287366576396200465009 / 1000000000000000000000000000000
  else if n = 1 then 632120558828557678404476229839 / 1000000000000000000000000000000
  else 864664716763387308106000505503 / 1000000000000000000000000000000

/-- The moments of the three checkpoints after t₀, in ticks (07 R224). -/
def checkpointAfter (tauMs n : Nat) : Nat := if n = 0 then tauMs * 32000 else if n = 1 then tauMs * 64000 else tauMs * 128000

/-- t₀ of a precharge. -/
def State.preT0 (s : State) (str : Fin 4) : Nat :=
  let x := s.strs.at str
  x.seq.pcAt + x.cfg.pcDelayMs * ticksPerMs

/-- Checkpoints that have fallen due. -/
def State.checkpointsDue (s : State) (str : Fin 4) : Nat :=
  ((List.range 3).filter (fun n => decide (s.preT0 str + checkpointAfter (s.strs.at str).cfg.preTauMs n ≤ s.now))).length

/-- The 95 % test of a precharge onto a link that is not live (07 R224); `inst` is the instant of the V_LINK value. -/
def State.preComplete (s : State) (str : Fin 4) (inst : Nat) : State :=
  match s.vLink str, s.vString str with
  | some l, some v =>
    if 95 / 100 * v ≤ l then
      if inst < s.preT0 str + checkpointAfter (s.strs.at str).cfg.preTauMs 0 then s.preFault str 3
      else if s.checkpointsDue str ≤ (s.strs.at str).seq.passed then s.preDone str else s
    else s
  | _, _ => s.preFault str 6

/-- The parallel precharge (07 R225): 8 values in a row within PAR_DV of each other. -/
def State.preParallel (s : State) (str : Fin 4) : State :=
  let x := s.strs.at str
  let near := match s.vLink str, s.vString str with
    | some l, some v => decide (v - l ≤ 100 * x.cfg.parDv) && decide (l - v ≤ 100 * x.cfg.parDv)
    | _, _ => false
  let s := s.onStr str (fun x => { x with seq := { x.seq with parRun := if near then x.seq.parRun + 1 else 0 } })
  if 8 ≤ (s.strs.at str).seq.parRun then s.preDone str else s

/-- The rise check of PRE_CN finds more than 5 % of V_STRING (07 R220, R223); none where it cannot be decided. -/
def State.cnRise (s : State) (str : Fin 4) : Option Bool :=
  match s.vLink str, s.vString str, (s.strs.at str).seq.vLinkCn with
  | some l, some v, some l0 => some (decide (v / 20 < l - l0))
  | _, _, _ => none

/-- The rise check fails: CN off, WELDED with evidence CN_PHASE_RISE. -/
def State.cnPhaseFail (s : State) (str : Fin 4) : State :=
  ((((s.withdraw str).closeRefused str 0x0702 0).enterWelded str { cnPhaseRise := true }).weldPeers)

/-- A V_LINK value has arrived, sampled at `inst` (07 R220, R224, R225, R230, R231). -/
def State.onVLink (s : State) (str : Fin 4) (inst : Nat) : State :=
  match s.strSt str with
  | .preCn => if !s.linkLive str && s.cnRise str == some true then s.cnPhaseFail str else s
  | .precharge =>
    if inst < (s.strs.at str).seq.pcAt then s
    else if (s.strs.at str).seq.parallel then s.preParallel str else s.preComplete str inst
  | .weldCheck => (s.weldEval str).weldPeers
  | .welded => s.weldedEval str
  | _ => s

/-- A frame's I_MAIN has arrived: the run of frames at or below BREAK_A goes on or is broken (07 R227). -/
def State.onIMain (s : State) (str : Fin 4) : State :=
  if s.strSt str = .opening then
    let low := match s.iAbs str with
      | some ma => decide (ma ≤ 1000 * (s.strs.at str).cfg.breakA)
      | none => false
    s.onStr str (fun x => { x with seq := { x.seq with lowRun := if low then x.seq.lowRun + 1 else 0 } })
  else s

-- Insulation and over-temperature (07 R236, R237).

/-- A condition told whether it holds and whether it is clear of its release threshold. -/
def Cond.track (c : Cond) (now : Nat) (holds clear : Bool) : Cond :=
  { c with since := if holds then some (c.since.getD now) else none, absent := if clear then some (c.absent.getD now) else none }

/-- New insulation values of a string (07 R237); a value that is not valid keeps the comparison's last result. -/
def State.onIso (s : State) (str : Fin 4) : State :=
  let x := s.strs.at str
  match x.now.isoP, x.now.isoN with
  | some p, some n =>
    let kohm := (min p n).toNat
    let vref := x.cfg.isoVref
    s.onStr str (fun x => { x with
      ohmPerV := min 0xFFFF (1000 * kohm / vref)
      iso := x.iso.track s.now (decide (1000 * kohm < 100 * vref)) (decide (110 * vref < 1000 * kohm))
      isoW := x.isoW.track s.now (decide (1000 * kohm < 500 * vref)) (decide (550 * vref < 1000 * kohm)) })
  | _, _ => s

/-- The highest valid averaged temperature of a string in m°C (07 R236). -/
def State.hottest (s : State) (str : Fin 4) : Option Int :=
  let temps := (s.unitsOfStr str).flatMap (fun u =>
    let w := s.uswp.at u
    let codes : List (BitVec 8) := if s.isMc16 u then [0x13, 0x14, 0x15] else if s.isMp4 u then [0x86, 0x87] else []
    if s.outOfService u || w.averaged.missing then []
    else (w.recCodes.zip w.averaged.slots).filterMap (fun p =>
      if codes.contains p.1 && p.2.st == .valid then some p.2.val else none))
  match temps with
  | [] => none
  | t :: ts => some (ts.foldl max t)

/-- New averaged temperatures of a string (07 R236). -/
def State.onTemps (s : State) (str : Fin 4) : State :=
  match s.hottest str with
  | none => s
  | some t =>
    let ot := (s.strs.at str).cfg.otB * 1000
    s.onStr str (fun x => { x with overTemp := x.overTemp.track s.now (decide (ot < t)) (decide (t < ot - 5000)) })

-- STRING_CLOSE (07 R221).

/-- A refusal at the checks. -/
def State.closeRefuse (s : State) (c : Cmd) (str : Fin 4) (code d3 : Nat) : State :=
  (s.onStr str (fun x => { x with lastRefuse := BitVec.ofNat 16 code })).complete c stRefused (dwords code d3 0 0)

/-- Check 7: data is fresh. -/
def State.fresh (s : State) (str : Fin 4) : Bool :=
  decide (s.dataAge str < 500 * ticksPerMs) && decide (s.currentAge str < 500 * ticksPerMs) &&
  (s.mc16sOf str).all (fun u => !([0, 1, 4] : List (BitVec 3)).contains (s.uint.at u).wireChk)

/-- A supply dip ends a closure or opens the string (07 R232): the cause SUPPLY_DIP, and the current as the dip began. -/
def State.dipEnd (s : State) (str : Fin 4) : State :=
  ((s.onStr str (fun x => { x with dipCause := true })).strEvent 4 str).breakNow str 0x19 (s.strs.at str).seq.iDip

/-- A closure starts: CN on (07 R220, R262). A dip that holds SW-1's outputs off ends it at once (R232). -/
def State.startClose (s : State) (c : Cmd) (str : Fin 4) : State :=
  let s := s.onStr str (fun x => { x with seq := { closeCmd := some c, cnAt := s.now, vLinkCn := x.now.vLink } })
  let s := (s.enterStr str .preCn 0 c.stamp).cmdContactor str 0 true
  let s := if s.pctl.split then
      s.onHalter (fun h => { h with net := { h.net with permit := h.net.permit.put str none } })
    else s
  if (s.swctl.die.at 1).dip then
    (s.onStr str (fun x => { x with seq := { x.seq with iDip := s.iAbs str } })).dipEnd str
  else s

/-- The checks of STRING_CLOSE for a string in use, in order (07 R221). -/
def stringCloseChecked (c : Cmd) (str : Fin 4) (s : State) : State :=
  let x := s.strs.at str
  let groupBusy := (places 4).any (fun t => t != str && (s.strs.at t).cfg.linkGroup == x.cfg.linkGroup &&
    (s.strSt t == .preCn || s.strSt t == .precharge))
  if x.seq.closeCmd.isSome || !x.seq.openCmds.isEmpty || groupBusy then s.busy c
  else if x.st = .closed then s.ok c
  else if x.st = .weldCheck ∨ x.st = .welded then s.closeRefuse c str 0x0702 0
  else if x.st = .opening then s.closeRefuse c str 0x0706 0
  else if x.st ≠ .opened then s.busy c
  else if !s.permissive str then s.closeRefuse c str 0x0701 0
  else if !s.rosterValid str || (s.mp4sOf str).length ≠ 1 then s.closeRefuse c str 0x0703 0
  else if !s.linkLive str && s.linkLow str == none then s.closeRefuse c str 0x0704 0
  else if !s.linkLive str && s.linkLow str == some false then
    ((s.closeRefuse c str 0x0702 0).enterWelded str { linkBefore := true }).weldPeers
  else if !s.fresh str then s.closeRefuse c str 0x0704 0
  else
    match s.standing str with
    | code :: _ => s.closeRefuse c str 0x0705 code
    | [] => s.startClose c str

/-- STRING_CLOSE (0x40; 07 R221). -/
def execStringClose (c : Cmd) (s : State) : Host.Outcome State Fault Refusal :=
  answer s (s.run c false (fun s =>
    if h : opByte c 0 < 4 then
      let str : Fin 4 := ⟨opByte c 0, h⟩
      if s.usedStr str then stringCloseChecked c str s else s.badOperand c
    else s.badOperand c))

/-- A STRING_OPEN that waits for the weld check. -/
def State.joinOpen (s : State) (c : Cmd) (str : Fin 4) (started : Bool) : State :=
  s.onStr str (fun x => { x with seq := { x.seq with openCmds := x.seq.openCmds ++ [(c, started)] } })

/-- STRING_OPEN by state (07 R229). -/
def stringOpen (c : Cmd) (str : Fin 4) (immediate : Bool) (s : State) : State :=
  match s.strSt str with
  | .opened => s.ok c
  | .welded => s.ok c (dwords 2 0 0 0)
  | .preCn | .precharge =>
    let i := s.iAbs str
    let s := (s.joinOpen c str true).abortPrecharge str
    let s := s.onStr str (fun x => { x with lastCause := 0, seq := { x.seq with iRelease := i } })
    ((s.closeCancelled str).startWeldCheck str 0 c.stamp).weldPeers
  | .overlap | .closed =>
    let s := ((s.joinOpen c str true).closeCancelled str).startOpening str 0 c.stamp
    if immediate then s.releaseOpening str else s
  | .opening =>
    let s := s.joinOpen c str false
    if immediate then s.releaseOpening str else s
  | .weldCheck => s.joinOpen c str false

/-- STRING_OPEN (0x41; 07 R229). -/
def execStringOpen (c : Cmd) (s : State) : Host.Outcome State Fault Refusal :=
  answer s (s.run c false (fun s =>
    if h : opByte c 0 < 4 then stringOpen c ⟨opByte c 0, h⟩ (opByte c 1 % 2 == 1) s else s.badOperand c))

-- The rows of the sequences (07 R220).

/-- PRE_CN_TIMEOUT (07 R220, R223): 20 ms after CN on. -/
def execPreCnTimeout (str : Fin 4) (s : State) : Host.Outcome State Fault Refusal :=
  answer s (if s.strSt str = .preCn ∧ (s.strs.at str).seq.cnAt + 20 * ticksPerMs ≤ s.now then
    if s.linkLive str then s.pcOn str
    else match s.cnRise str with
      | some true => s.cnPhaseFail str
      | some false => s.pcOn str
      | none => s.preFault str 6
  else s)

/-- PRECHARGE_CHECKPOINT (07 R224): a checkpoint that has fallen due is judged. -/
def execPrechargeCheckpoint (str : Fin 4) (s : State) : Host.Outcome State Fault Refusal :=
  answer s (let q := (s.strs.at str).seq
    if s.strSt str = .precharge ∧ q.parallel = false ∧ q.passed < s.checkpointsDue str then
      match s.vLink str, s.vString str, q.v0 with
      | some l, some v, some v0 =>
        let exp := (v - v0) * rcFactor q.passed
        let rise := l - v0
        if rise < 8 / 10 * exp then s.preFault str 2
        else if 12 / 10 * exp < rise then s.preFault str 3
        else
          (s.onStr str (fun x => { x with seq := { x.seq with passed := x.seq.passed + 1 } })).preComplete str s.now
      | _, _, _ => s.preFault str 6
    else s)

/-- PRECHARGE_TIMEOUT (07 R224, R225). -/
def execPrechargeTimeout (str : Fin 4) (s : State) : Host.Outcome State Fault Refusal :=
  answer s (let x := s.strs.at str
    if x.st = .precharge ∧ x.seq.pcAt + x.cfg.preTimeoutMs * ticksPerMs ≤ s.now then
      s.preFault str (if x.seq.parallel then 5 else 4)
    else s)

/-- OVERLAP_TIMEOUT (07 R220, R221): 50 ms after CP on. -/
def execOverlapTimeout (str : Fin 4) (s : State) : Host.Outcome State Fault Refusal :=
  answer s (let x := s.strs.at str
    if x.st = .overlap ∧ x.seq.cpAt + 50 * ticksPerMs ≤ s.now then
      let ms := s.preMsNow str
      let s := (s.enterStr str .closed 0 0).cmdContactor str 2 false
      let s := s.onStr str (fun x => { x with
        closeCnt := satAdd 0xFFFF x.closeCnt 1, preMs := min 0xFFFF ms, seq := { x.seq with closeCmd := none } })
      match x.seq.closeCmd with
      | some c => s.ok c (dwords 1 ms 0 0)
      | none => s
    else s)

/-- OPENING_RELEASE (07 R227): 8 frames in a row at or below BREAK_A. -/
def execOpeningRelease (str : Fin 4) (s : State) : Host.Outcome State Fault Refusal :=
  answer s (if 8 ≤ (s.strs.at str).seq.lowRun then s.releaseOpening str else s)

/-- OPENING_FORCED_RELEASE (07 R227): 2 s after OPENING was entered. -/
def execOpeningForcedRelease (str : Fin 4) (s : State) : Host.Outcome State Fault Refusal :=
  answer s (if (s.strs.at str).seq.openingAt + 2 * ticksPerS ≤ s.now then s.releaseOpening str else s)

/-- OPENING_CN_OFF (07 R220): 20 ms after the release. -/
def execOpeningCnOff (str : Fin 4) (s : State) : Host.Outcome State Fault Refusal :=
  answer s (match (s.strs.at str).seq.releaseAt with
    | some t => if s.strSt str = .opening ∧ t + 20 * ticksPerMs ≤ s.now then (s.startWeldCheck str 0 0).weldPeers else s
    | none => s)

/-- What the weld check has found by now: inputs that read closed past their 100 ms, and the link at the end of DISCH_MS (07 R230). -/
def State.weldEvidence (s : State) (str : Fin 4) : WeldStat :=
  let x := s.strs.at str
  let late := (places 3).foldl (fun m k =>
    if x.cfg.auxEn.getLsbD k.val && !x.seq.auxOk.getLsbD k.val && decide (x.cmdAt.at k + 100 * ticksPerMs < s.now) then
      setBit m k.val else m) (0 : BitVec 3)
  let linkDue := !s.linkLive str && !x.seq.dischOk && decide (x.seq.weldAt + x.cfg.dischMs * ticksPerMs ≤ s.now)
  { auxClosed := late, linkHigh := linkDue && (s.linkLow str).isSome, undecided := linkDue && (s.linkLow str).isNone }

/-- WELD_CHECK_TIMEOUT (07 R230): at the end of the auxiliary window or of DISCH_MS, the check passes or fails. -/
def execWeldCheckTimeout (str : Fin 4) (s : State) : Host.Outcome State Fault Refusal :=
  answer s (let s := s.weldEval str
    if s.strSt str = .weldCheck then
      let e := s.weldEvidence str
      if e.auxClosed != 0 || e.linkHigh || e.undecided then (s.enterWelded str e).weldPeers else s
    else s.weldPeers)

/-- WELDED_RELEASE (07 R231): every condition has held for 1 s. -/
def execWeldedRelease (str : Fin 4) (s : State) : Host.Outcome State Fault Refusal :=
  answer s (match (s.strs.at str).seq.relSince with
    | some t => if s.strSt str = .welded ∧ s.weldClear str ∧ t + ticksPerS ≤ s.now then s.enterStr str .opened 0 0 else s
    | none => s)

/-- The string of an auxiliary input, and its place: CN, CP, PC (07 R215). -/
def auxOf (k : Fin 12) : Fin 4 × Fin 3 := (⟨k.val / 3, by omega⟩, ⟨k.val % 3, by omega⟩)

/-- AUX_INPUT_CHANGE (07 R222, R230): a filtered reading changes. -/
def execAuxInputChange (k : Fin 12) (closed : Bool) (s : State) : Host.Outcome State Fault Refusal :=
  answer s (let (str, m) := auxOf k
    if (s.strs.at str).aux.getLsbD m.val = closed then s
    else ((s.onStr str (fun x => { x with aux := putBit x.aux m.val closed, auxAt := x.auxAt.put m s.now })).weldPeers))

/-- Whether a channel of a string is commanded on: 0 CN, 1 CP, 2 PC. -/
def State.commanded (s : State) (str : Fin 4) (m : Fin 3) : Bool :=
  (s.swc.at (if m = 0 then cnOf str else if m = 1 then cpOf str else pcOf str)).cmd != .off

/-- AUX_MISMATCH (07 R222): an input in use has disagreed with its command for 20 ms, past the 100 ms that a change has. -/
def execAuxMismatch (k : Fin 12) (s : State) : Host.Outcome State Fault Refusal :=
  answer s (let (str, m) := auxOf k
    let x := s.strs.at str
    if x.st.on ∧ x.cfg.auxEn.getLsbD m.val ∧ x.aux.getLsbD m.val ≠ s.commanded str m ∧
       max (x.auxAt.at m) (x.cmdAt.at m + 100 * ticksPerMs) + 20 * ticksPerMs ≤ s.now then
      (s.onStr str (fun x => { x with auxCause := true })).requestB str 0x17
    else s)

/-- AUX_CLOSED_WHILE_OPEN (07 R220, R222): an input in use has read closed for 20 ms in OPEN. -/
def execAuxClosedWhileOpen (k : Fin 12) (s : State) : Host.Outcome State Fault Refusal :=
  answer s (let (str, m) := auxOf k
    let x := s.strs.at str
    if x.st = .opened ∧ x.cfg.auxEn.getLsbD m.val ∧ x.aux.getLsbD m.val ∧
       max (x.auxAt.at m) (s.strcal.at str).openedAt + 20 * ticksPerMs ≤ s.now then
      s.enterWelded str { auxClosed := setBit 0 m.val }
    else s)

-- Supply dips (07 R232; 09 R299 to R301).

/-- The strings in CLOSED or OPENING whose outputs have been held off for more than 20 ms are opened (07 R232). -/
def State.dipTimeout (s : State) : State :=
  if (s.swctl.die.at 1).dip ∧ (s.swctl.die.at 1).dipAt + 20 * ticksPerMs < s.now then
    (places 4).foldl (fun s str => if s.strSt str = .closed ∨ s.strSt str = .opening then s.dipEnd str else s) s
  else s

/-- A dip begins at SW-1: each string remembers its current, and a closure ends. -/
def State.dipStart (s : State) : State :=
  (places 4).foldl (fun s str =>
    if (s.strSt str).on then
      let s := s.onStr str (fun x => { x with seq := { x.seq with iDip := s.iAbs str } })
      if s.strSt str = .closed ∨ s.strSt str = .opening then s else s.dipEnd str
    else s) s

/-- SUPPLY_DIP (09 R299; 07 R232): VBAT_SW at a die falls below 6.0 V. -/
def execSupplyDip (die : Fin 2) (vbat10mV : BitVec 12) (s : State) : Host.Outcome State Fault Refusal :=
  answer s (let fresh := !(s.swctl.die.at die).dip
    let s := Sys2Proof.Machine.supplyDip s die vbat10mV
    if die = 1 ∧ fresh then s.dipStart else s)

/-- CONTACTOR_DIP_TIMEOUT (07 R232; 09 R301). -/
def execContactorDipTimeout (s : State) : Host.Outcome State Fault Refusal := answer s s.dipTimeout

/-- SUPPLY_RESTORE (09 R300; 07 R232): VBAT_SW rises above 6.5 V. A command that a dip of more than 20 ms withdraws is
withdrawn before the outputs return. -/
def execSupplyRestore (die : Fin 2) (vbat10mV : BitVec 12) (s : State) : Host.Outcome State Fault Refusal :=
  answer s (Sys2Proof.Machine.supplyRestore (if die = 1 then s.dipTimeout else s) die vbat10mV)

/-- SUPPLY_LOSS (09 R299; 07 R232): VBAT_SW falls below 4.5 V, and every string in states 1 to 5 goes to its weld check. -/
def execSupplyLoss (die : Fin 2) (vbat10mV : BitVec 12) (s : State) : Host.Outcome State Fault Refusal :=
  answer s (if die = 1 then
    let fresh := !(s.swctl.die.at 1).dip
    let s := Sys2Proof.Machine.supplyDip s 1 vbat10mV
    let s := if fresh then s.dipStart else s
    let s := (places 4).foldl (fun s str => if (s.strSt str).on then s.dipEnd str else s) s
    Sys2Proof.Machine.supplyLoss s 1 vbat10mV
  else Sys2Proof.Machine.supplyLoss s die vbat10mV)

-- Causes (07 R226, R236, R237).

/-- PRECHARGE_CAUSE_EXPIRY (07 R226). -/
def execPrechargeCauseExpiry (str : Fin 4) (s : State) : Host.Outcome State Fault Refusal :=
  answer s (match (s.strs.at str).preUntil with
    | some t => if t ≤ s.now then s.onStr str (fun x => { x with preUntil := none }) else s
    | none => s)

/-- ISO_FAULT takes effect: on a string with a contactor channel commanded on, a request enters the dedicated crossing of
the island that holds its MP4 (07 R237). -/
def State.isoRequest (s : State) (str : Fin 4) : State :=
  match s.mp4Of str with
  | some u =>
    if (s.strSt str).on then
      { s with cross := { s.cross with
          portToHalter := s.cross.portToHalter.upd (portOf (stallOf u)) (fun q => q ++ [.isoFault str]) } }
    else s
  | none => s

/-- ISO_PERSISTENCE_ELAPSED (07 R237). -/
def execIsoPersistenceElapsed (str : Fin 4) (cond : IsoCond) (s : State) : Host.Outcome State Fault Refusal :=
  answer s (let x := s.strs.at str
    let c := if cond = .fault then x.iso else x.isoW
    let held := match c.since with
      | some t => decide (t + x.cfg.isoPersistS * ticksPerS ≤ s.now)
      | none => false
    if held && !c.on then
      match cond with
      | .fault => (s.onStr str (fun x => { x with iso := { x.iso with on := true } })).isoRequest str
      | .warn => s.onStr str (fun x => { x with isoW := { x.isoW with on := true } })
    else s)

/-- ISO_CLEAR (07 R237; 08 R250): above 110 % of the threshold for 10 s. -/
def execIsoClear (str : Fin 4) (cond : IsoCond) (s : State) : Host.Outcome State Fault Refusal :=
  answer s (let x := s.strs.at str
    let c := if cond = .fault then x.iso else x.isoW
    let clear := match c.absent with
      | some t => decide (t + 10 * ticksPerS ≤ s.now)
      | none => false
    if clear && c.on then
      match cond with
      | .fault => (s.onStr str (fun x => { x with iso := { x.iso with on := false } })).dropDetail .isoFault str.val
      | .warn => s.onStr str (fun x => { x with isoW := { x.isoW with on := false } })
    else s)

/-- OVER_TEMP_SET (07 R236): above OT_B for 5 s. -/
def execOverTempSet (str : Fin 4) (s : State) : Host.Outcome State Fault Refusal :=
  answer s (let c := (s.strs.at str).overTemp
    match c.since with
    | some t =>
      if c.on = false ∧ t + 5 * ticksPerS ≤ s.now then
        (s.onStr str (fun x => { x with overTemp := { x.overTemp with on := true } })).requestB str 0x15
      else s
    | none => s)

/-- OVER_TEMP_CLEAR (07 R236): below OT_B − 5 °C for 10 s. -/
def execOverTempClear (str : Fin 4) (s : State) : Host.Outcome State Fault Refusal :=
  answer s (let c := (s.strs.at str).overTemp
    match c.absent with
    | some t =>
      if c.on ∧ t + 10 * ticksPerS ≤ s.now then
        s.onStr str (fun x => { x with overTemp := { x.overTemp with on := false } })
      else s
    | none => s)

-- Service mode (07 R238, R239; 05 R169).

/-- The invalid ages of a string's cells stop, or go on. -/
def State.holdAges (s : State) (str : Fin 4) (stop : Bool) : State :=
  (s.unitsOfStr str).foldl (fun s u => s.onInteg u (fun i =>
    if stop then { i with
      invAcc := i.invAcc.each (fun c a => a + (match i.invFrom.at c with | some t => s.now - t | none => 0))
      invFrom := Bank.fill 16 none }
    else { i with invFrom := i.invFrom.each (fun c f => if i.invalid.getLsbD c.val then some (f.getD s.now) else none) })) s

/-- A string leaves service mode (07 R239): R169 applies at once. -/
def State.leaveService (s : State) (str : Fin 4) : State :=
  if (s.strs.at str).service then
    let s := (s.onStr str (fun x => { x with service := false })).holdAges str false
    if s.openWire str then s.requestB str 0x10 else s
  else s

/-- SERVICE_MODE (0x42; 07 R238). -/
def execServiceMode (c : Cmd) (s : State) : Host.Outcome State Fault Refusal :=
  answer s (s.run c false (fun s =>
    if h : opByte c 0 < 4 then
      let str : Fin 4 := ⟨opByte c 0, h⟩
      if 1 < opByte c 1 ∨ s.usedStr str = false then s.badOperand c
      else if opByte c 1 = 0 then (s.leaveService str).ok c
      else
        let s := if (s.strs.at str).service then s else s.holdAges str true
        let s := s.onStr str (fun x => { x with service := true, svcFrom := s.now })
        s.ok c (dwords (s.strs.at str).cfg.svcMaxMin 0 0 0)
    else s.badOperand c))

/-- SERVICE_MODE_EXPIRY (07 R239). -/
def execServiceModeExpiry (str : Fin 4) (s : State) : Host.Outcome State Fault Refusal :=
  answer s (let x := s.strs.at str
    if x.service ∧ x.svcFrom + x.cfg.svcMaxMin * 60 * ticksPerS ≤ s.now then s.leaveService str else s)

-- Registers and LIMITS_READ (07 R242).

/-- `STR_STAT` of a string. -/
def State.strStat (s : State) (str : Fin 4) : Word :=
  let x := s.strs.at str
  BitVec.ofNat 32 (x.st.code + 8 * bit x.st.welded' + 16 * bit (x.st == .opening) + 32 * bit x.service +
    64 * bit (s.linkLive str) + 256 * x.lastCause.toNat + 65536 * x.lastRefuse.toNat)

/-- LIMITS_READ (0x81; 07 R242). -/
def execLimitsRead (c : Cmd) (s : State) : Host.Outcome State Fault Refusal :=
  answer s (s.run c false (fun s =>
    let addr := opField c 8 8
    if aligned16 addr then
      let stats := (places 4).flatMap (fun i => bvBytes 4 (s.strStat i))
      (s.toHost addr (padTo 32 s.pub.last ++ stats ++ leBytes 8 s.pub.at_ ++ leBytes 8 0)).ok c (dwords 64 0 0 0)
    else s.badOperand c))

end Sys2Proof.Machine
end

