-- ==== Sys2Proof/Machine/Sweeps.lean ====
section
/-! DEFINITION. The sweep engine (chapter 04): the sweep grid, the skew corrector, averaging, the sample image, the fast trip comparators, and their commands. -/

namespace Sys2Proof.Machine

-- The sweep grid (04 R117 to R119, R127).

/-- Frames of a sweep at a rate (04 R117). -/
def framesOf (rate : BitVec 2) : Nat := 2 ^ rate.toNat

/-- The rate of a string's units now; the reset rate for a stall in no string. -/
def State.rateNow (s : State) (u : Fin 128) : BitVec 2 :=
  match s.strOf u with
  | some str => (s.strs.at str).rate
  | none => 0

/-- The rate at which a unit's sweep that starts at frame `start` runs. -/
def State.rateAt (s : State) (u : Fin 128) (start : Nat) : BitVec 2 :=
  let w := s.uswp.at u
  if w.restart ≤ start then s.rateNow u else w.oldRate

/-- The slot list of such a sweep. -/
def UnitSweep.codesAt (w : UnitSweep) (start : Nat) : List (BitVec 8) := if w.restart ≤ start then w.codes else w.oldCodes

/-- The start frame of the sweep whose record is expected from a unit in frame `f`, if one is (03 R93, R104; 04 R127). -/
def State.expectedSweep (s : State) (u : Fin 128) (f : Nat) : Option Nat :=
  let k := (unitOf u).val
  let try_ (rate : BitVec 2) : Option Nat :=
    let n := framesOf rate
    if k + n ≤ f ∧ (f - k - n) % n = 0 ∧ s.rateAt u (f - k - n) = rate then some (f - k - n) else none
  match (s.ulink.at u).sweepFrom with
  | none => none
  | some first =>
    let found := match try_ (s.rateNow u) with
      | some st => some st
      | none => try_ (s.uswp.at u).oldRate
    match found with
    | some st => if first ≤ st ∧ s.sweepable u then some st else none
    | none => none

/-- The frame of the current pair that an MP4's current record of frame `f` carries, if one is expected (03 R91; 04 R124). -/
def State.expectedPair (s : State) (u : Fin 128) (f : Nat) : Option Nat :=
  let k := (unitOf u).val
  match (s.ulink.at u).sweepFrom with
  | none => none
  | some first =>
    if s.isMp4 u ∧ s.sweepable u ∧ (s.expectedSweep u f).isNone ∧ first + k + 1 ≤ f then some (f - k - 1) else none

/-- The yard time of the sweep start S (04 R118). -/
def sweepInstant (start : Nat) : Nat := start * ticksPerFrame + 128

/-- The instant of slot `j` of a sweep (04 R119): half-slots of 160 ticks. -/
def slotInstant (start n j : Nat) : Nat := sweepInstant start + (2 * j + 1) * n * 160

-- The skew corrector (04 R129 to R133).

/-- δ_j (04 R129). -/
def slotDelta (n j : Nat) : Rat := 1 / 2 - 16 / (1000 * n : Nat) - (2 * j + 1 : Nat) / 50

/-- The four Lagrange weights at x, as the corrector holds them (04 R130). -/
def lagrange (x : Rat) : Rat × Rat × Rat × Rat :=
  (Config.weight18 (-(x * (x - 1) * (x - 2)) / 6), Config.weight18 ((x + 1) * (x - 1) * (x - 2) / 2),
   Config.weight18 (-((x + 1) * x * (x - 2)) / 2), Config.weight18 ((x + 1) * x * (x - 1) / 6))

/-- The output of a slot from its four taps s[b−1] … s[b+2], its own sample and x (04 R132). -/
def alignTaps (own : Option Sample) (t : Option Sample × Option Sample × Option Sample × Option Sample) (x : Rat) : Sample :=
  let sat (o : Option Sample) : Bool := match o with | some v => v.st == .saturated | none => false
  let unaligned : Sample := match own with
    | some v => if v.st = .saturated then v else { val := v.val, st := .unaligned }
    | none => { val := 0, st := .missing }
  let clipped : Sample := match own with
    | some v => { val := v.val, st := .saturated }
    | none => { val := 0, st := .missing }
  match own, t with
  | none, _ => { val := 0, st := .missing }
  | some _, (some a, some b, some c, some d) =>
    if sat (some a) || sat (some b) || sat (some c) || sat (some d) then clipped
    else
      let (w0, w1, w2, w3) := lagrange x
      toSample (w0 * a.val + w1 * b.val + w2 * c.val + w3 * d.val)
  | some _, (_, some b, some c, _) =>
    if sat (some b) || sat (some c) then clipped
    else
      let v := toSample ((1 - x) * b.val + x * c.val)
      if v.st = .saturated then v else { v with st := .alignReduced }
  | some _, _ => unaligned

/-- A tap: slot `j` of a sweep of the era of sweep `n`, calibrated with `entry`. -/
def State.tap (s : State) (u : Fin 128) (entry : List Byte) (n : Sweep) (sw : Option Sweep) (j : Nat) : Option Sample :=
  match sw with
  | none => none
  | some w =>
    if w.era ≠ n.era ∨ w.borrowed.getLsbD j then none
    else match w.raw with
      | none => none
      | some raw => raw[j]?.map (s.calibrate u entry (n.codes.getD j 0xFF))

/-- A current of the frame-rate pair sequence (04 R131): frames of the other side of a restart are no taps. -/
def State.pairTap (s : State) (u : Fin 128) (entry : List Byte) (n : Sweep) (frame : Nat) (code : BitVec 8) : Option Sample :=
  let w := s.uswp.at u
  if decide (w.restart ≤ frame) != decide (w.restart ≤ n.start) then none
  else match w.pairs.find? (fun p => p.1 == frame) with
    | some (_, some (m, c)) => some (s.calibrate u entry code (if code = 0x80 then m else c))
    | _ => none

/-- Slot `j` of the aligned record of the sweep that lies third in the history (04 R130 to R132). -/
def State.alignSlot (s : State) (u : Fin 128) (entry : List Byte) (h : List Sweep) (n : Sweep) (j : Nat) : Sample :=
  let code := n.codes.getD j 0xFF
  let fr := framesOf n.rate
  let own := s.tap u entry n (some n) j
  if n.borrowed.getLsbD j then { val := 0, st := .borrowed }
  else if code = 0x84 ∨ code = 0x85 then own.getD ({ val := 0, st := .missing } : Sample)
  else if code = 0x80 ∨ code = 0x81 then
    if fr = 1 then own.getD ({ val := 0, st := .missing } : Sample)
    else
      let g := n.start + fr / 2 - 1
      let p (i : Nat) := s.pairTap u entry n i code
      alignTaps own (p (g - 1), p g, p (g + 1), p (g + 2)) (1 / 2)
  else
    let d := slotDelta fr j
    let t (i : Nat) := s.tap u entry n h[i]? j
    if 0 ≤ d then alignTaps own (t 3, t 2, t 1, t 0) d else alignTaps own (t 4, t 3, t 2, t 1) (1 + d)

/-- A slot as the records show it: a cell that is Invalid is marked so, and the cells of a unit whose start-up wire check
is not decided are missing data (05 R156, R166). -/
def State.shown (s : State) (u : Fin 128) (code : BitVec 8) (v : Sample) : Sample :=
  if s.isMc16 u ∧ code.toNat < 16 then
    if !(s.ulink.at u).delivering then { val := 0, st := .missing }
    else if s.cellInvalid u code.toNat ∧ v.st ≠ .missing then { val := v.val, st := .cellInvalid }
    else v
  else v

-- Records (04 R140, R141).

/-- STATUS of a sample (04 R141). -/
def statusCode : Status → Nat
  | .valid => 0
  | .alignReduced => 1
  | .unaligned => 2
  | .missing => 3
  | .saturated => 4
  | .borrowed => 5
  | .cellInvalid => 6
  | .notInList => 7

/-- Valid in the sense of the VALID bits. -/
def usable (v : Sample) : Bool := v.st == .valid || v.st == .alignReduced

/-- The 24 slots of a record. -/
def SampleRec.all (r : SampleRec) : List Sample :=
  (r.slots ++ List.replicate 24 ({ val := 0, st := .notInList } : Sample)).take 24

/-- The 128 bytes of a sample record (04 R140). -/
def sampleBytes (u : Fin 128) (avg : Bool) (imgSeq : Nat) (r : SampleRec) : List Byte :=
  let w0 := 1 + 256 * (stallOf u).val + 65536 * 32 + 2 ^ 24 * (unitOf u).val + 2 ^ 26 * bit avg + 2 ^ 27 * bit r.missing +
    2 ^ 28 * bit r.timeUnc + 2 ^ 29 * bit r.calBusy
  let w1 := r.tag.toNat + 256 * r.gen.toNat + 65536 * r.rate.toNat + 2 ^ 18 * r.nslot.toNat + 2 ^ 23 * bit r.locked +
    2 ^ 24 * r.utype.toNat
  let valid := r.all.zipIdx.foldl (fun m p => if usable p.1 then m + 2 ^ p.2 else m) 0
  leBytes 4 w0 ++ leBytes 4 w1 ++ leBytes 8 r.ystart ++ leBytes 4 valid ++ leBytes 4 (r.flags.toNat + 65536 * r.fill) ++
  leBytes 4 r.wm1 ++ leBytes 4 imgSeq ++
  r.all.flatMap (fun v => leBytes 4 ((v.val % (2 ^ 24 : Int)).toNat + 2 ^ 24 * statusCode v.st))

/-- The keys of a unit's records in the sample image (04 R138; 01 R25). -/
def imageKey (u : Fin 128) (avg : Bool) : Nat := 0x278000 + 256 * u.val + (if avg then 0x80 else 0)

/-- Both image records of a unit written under IMG_SEQ (04 R139). -/
def State.writeImage (s : State) (u : Fin 128) : State :=
  let s := s.onSweep u (fun w => { w with seq := (w.seq + 2) % 2 ^ 32 })
  let w := s.uswp.at u
  (s.sramStore (imageKey u false) (sampleBytes u false w.seq w.aligned)).sramStore (imageKey u true) (sampleBytes u true w.seq w.averaged)

-- Averaging (04 R135 to R137).

/-- The mean of the usable values of one slot of a window, carried over where the newest slot says so (04 R135). -/
def averageSlot (win : List (List Sample)) (j : Nat) : Sample :=
  let newest := (win.headD []).getD j { val := 0, st := .notInList }
  match newest.st with
  | .saturated | .borrowed | .cellInvalid => newest
  | _ =>
    let vals := win.filterMap (fun l => match l[j]? with | some v => if usable v then some v.val else none | none => none)
    if vals.isEmpty then { val := 0, st := .missing }
    else { val := roundFree ((vals.sum : Int) / ((vals.length : Nat) : Rat)), st := .valid }

/-- The window of a unit restarts (04 R137): sweeps that start from frame `from_` on enter the new one. -/
def State.restartWindow (s : State) (u : Fin 128) (from_ : Nat) : State :=
  let w := (s.stalls.at (stallOf u)).wUsed
  s.onSweep u (fun x => { x with oldWin := x.win, oldW := w, win := [], winStart := from_ })

/-- The slot history of a unit restarts at frame `from_` with a list (04 R132, R137); `rate` is the rate before it. -/
def State.restartHistory (s : State) (u : Fin 128) (from_ : Nat) (codes : List (BitVec 8)) (rate : BitVec 2) : State :=
  (s.onSweep u (fun x => { x with
    oldCodes := x.codes, oldRate := rate, codes := codes, era := x.era + 1, restart := from_ })).restartWindow u from_

/-- Whether W sweeps of N frames come within 1 % of a whole number of periods P (04 R136). -/
def lockFits (w n p : Nat) : Bool :=
  let t := w * n * 8000
  let near (m : Nat) : Bool := decide (1 ≤ m) && decide (100 * t ≤ 100 * m * p + p) && decide (100 * m * p ≤ 100 * t + p)
  near (t / p) || near (t / p + 1)

/-- The largest W up to the limit that fits, if any (04 R136). -/
def lockW : Nat → Nat → Nat → Option Nat
  | 0, _, _ => none
  | w + 1, n, p => if lockFits (w + 1) n p then some (w + 1) else lockW w n p

/-- A stall's W in use chosen from its settings and its rate (04 R136). -/
def Stall.chooseW (x : Stall) (rate : BitVec 2) : Stall :=
  if x.locked then
    match lockW x.wCfg (framesOf rate) x.invPeriod.toNat with
    | some w => { x with wUsed := w, lockFail := false }
    | none => { x with wUsed := x.wCfg, lockFail := true }
  else { x with wUsed := x.wCfg, lockFail := false }

-- The aligned and the averaged record of a sweep (04 R133, R135, R140).

/-- The header that both records of a sweep share. -/
def State.recordHead (s : State) (u : Fin 128) (n : Sweep) (gen : BitVec 8) : SampleRec :=
  let st := s.stalls.at (stallOf u)
  { missing := n.raw.isNone, timeUnc := (s.uswp.at u).timeUnc, calBusy := n.borrowed != 0, tag := BitVec.ofNat 8 n.start
    gen := gen, rate := n.rate, nslot := BitVec.ofNat 5 n.codes.length, locked := st.locked && !st.lockFail
    utype := (s.ulink.at u).rosterType, ystart := sweepInstant n.start, flags := n.flags, start := n.start }

/-- The aligned record of the sweep that has just got its last tap, and the averaged record with it; the values as they
stand before the cells are marked go into `alHist`. -/
def State.formRecords (s : State) (u : Fin 128) : State :=
  let h := (s.uswp.at u).history
  match h[2]? with
  | none => s
  | some n =>
    let (gen, entry) := (s.ucal.at u).forSweep n.start
    let raw := (List.range n.codes.length).map (fun j => s.alignSlot u (entry.getD []) h n j)
    let slots := (n.codes.zip raw).map (fun p => s.shown u p.1 p.2)
    let head := s.recordHead u n gen
    let st := s.stalls.at (stallOf u)
    let reduced := (slots.filter (fun v => v.st == .alignReduced || v.st == .unaligned)).length
    let sat := (slots.filter (fun v => v.st == .saturated)).length
    let w := s.uswp.at u
    let inNew := decide (w.winStart ≤ n.start)
    let width := if inNew then st.wUsed else w.oldW
    let win := ((slots :: (if inNew then w.win else w.oldWin)).take width)
    let avg := (List.range n.codes.length).map (averageSlot win)
    s.onSweep u (fun w => { w with
      aligned := { head with slots := slots }
      averaged := { head with slots := avg, fill := win.length, wm1 := width - 1 }
      win := if inNew then win else w.win, oldWin := if inNew then w.oldWin else win
      alHist := ((n.start, n.codes.zip raw) :: w.alHist).take 64
      reduced := satAdd 0xFFFF w.reduced reduced, sat := satAdd 0x7FFF w.sat sat, timeUnc := false })

-- The fast trip comparators (04 R143 to R147; 05 R168).

/-- The place of a kind among the four. -/
def kindPlace : TripKind → Nat
  | .ov => 0
  | .uv => 1
  | .ot => 2
  | .oc => 3

/-- What the comparator of a kind makes of a value against limits scaled by `n`: breach, and inside the release band. -/
def TripLimits.judge (l : TripLimits) (k : TripKind) (n : Nat) (v : Sample) : Bool × Bool :=
  let sat := v.st == .saturated
  match k with
  | .ov => (decide (l.ov * n < v.val) || (sat && decide (0 < v.val)), decide (v.val ≤ (l.ov - l.hystOv) * n) && !sat)
  | .uv => (decide (v.val < l.uv * n) || (sat && decide (v.val < 0)), decide ((l.uv + l.hystUv) * n ≤ v.val) && !sat)
  | .ot => (decide (l.ot < v.val) || (sat && decide (0 < v.val)), decide (v.val ≤ l.ot - l.hystOt) && !sat)
  | .oc => (decide (l.oc < (v.val.natAbs : Int)) || sat, decide ((v.val.natAbs : Int) ≤ l.oc - 10 * l.hystOc) && !sat)

/-- DEB of a kind. -/
def TripLimits.deb (l : TripLimits) : TripKind → Nat
  | .ov => l.debOv
  | .uv => l.debUv
  | .ot => l.debOt
  | .oc => l.debOc

/-- A kind is enabled. -/
def TripLimits.on (l : TripLimits) (k : TripKind) : Bool := l.enable.getLsbD (kindPlace k)

/-- One input of a kind compared: its count, its run in the release band, and a request due when the count reaches DEB
(04 R144). `v` is none for a missing sample, which changes nothing. -/
def State.compare (s : State) (u : Fin 128) (str : Fin 4) (key : Nat) (k : TripKind) (verdict : Option (Bool × Bool)) : State :=
  match verdict with
  | none => s
  | some (breach, inside) =>
    let l := s.trips.lim.at str
    let old := ((s.uswp.at u).trips.find? (fun t => t.key == key && t.kind == k)).getD { key := key, kind := k, c := 0, rel := 0 }
    let new := { old with c := if breach then old.c + 1 else 0, rel := if inside then old.rel + 1 else 0 }
    let s := s.onSweep u (fun w => { w with trips := new :: w.trips.filter (fun t => !(t.key == key && t.kind == k)) })
    if breach ∧ new.c = l.deb k ∧ l.on k then
      { s with trips := { s.trips with due := s.trips.due.upd str (fun m => setBit m (kindPlace k)) } }
    else s

/-- Runs of neighbouring cells in a mask of Invalid cells: first cell and length. -/
def cellRuns (m : BitVec 16) : List (Nat × Nat) :=
  (List.range 16).filterMap (fun c =>
    if m.getLsbD c && (c == 0 || !m.getLsbD (c - 1)) then
      some (c, ((List.range 16).filter (fun d => c ≤ d && (List.range (d - c + 1)).all (fun i => m.getLsbD (c + i)))).length)
    else none)

/-- The sum of samples: none where one is missing, saturated where one is. -/
def sumSamples (l : List (Option Sample)) : Option Sample :=
  l.foldl (fun acc v => match acc, v with
    | some a, some b => if b.st = .missing then none
        else some { val := a.val + b.val, st := if a.st == .saturated || b.st == .saturated then .saturated else .valid }
    | _, _ => none) (some { val := 0, st := .valid })

/-- The substitute inputs of a unit (05 R168): key, samples, and the number that scales the limits. -/
def State.substitutes (s : State) (u : Fin 128) (smp : List (BitVec 8 × Sample)) : List (Nat × Option Sample × Nat) :=
  let i := s.uint.at u
  if i.invStack != 0 then
    [(0x200, (sampleOf smp 0x10).map (fun v => { v with val := v.val * 10 }), 16)]
  else (cellRuns i.invWire).map (fun r =>
    (0x100 + r.1, sumSamples ((List.range r.2).map (fun d => sampleOf smp (BitVec.ofNat 8 (r.1 + d)))), r.2))

/-- The comparisons of an arriving sweep (04 R143): cells and their substitutes, and temperatures. Inputs that are compared
no longer lose their counts. -/
def State.compareSweep (s : State) (u : Fin 128) (str : Fin 4) (smp : List (BitVec 8 × Sample)) : State :=
  let l := s.trips.lim.at str
  let subs := s.substitutes u smp
  let judge (k : TripKind) (n : Nat) (v : Option Sample) : Option (Bool × Bool) :=
    match v with
    | some x => if x.st = .missing then none else some (l.judge k n x)
    | none => none
  let s := s.onSweep u (fun w => { w with trips := w.trips.filter (fun t =>
    if t.key < 16 then !s.cellInvalid u t.key else if 0x100 ≤ t.key then subs.any (fun x => x.1 == t.key) else true) })
  let s := smp.foldl (fun s p =>
    if p.1.toNat < 16 then
      if s.cellInvalid u p.1.toNat then s
      else (s.compare u str p.1.toNat .ov (judge .ov 1 (some p.2))).compare u str p.1.toNat .uv (judge .uv 1 (some p.2))
    else if [0x13, 0x14, 0x15, 0x86, 0x87].contains p.1.toNat then s.compare u str p.1.toNat .ot (judge .ot 1 (some p.2))
    else s) s
  subs.foldl (fun s x => (s.compare u str x.1 .ov (judge .ov x.2.2 x.2.1)).compare u str x.1 .uv (judge .uv x.2.2 x.2.1)) s

/-- The comparison of a frame's currents (04 R143): a breach on either counts once. -/
def State.comparePair (s : State) (u : Fin 128) (str : Fin 4) (m c : Sample) : State :=
  let l := s.trips.lim.at str
  let (bm, im) := l.judge .oc 1 m
  let (bc, ic) := l.judge .oc 1 c
  s.compare u str 0x80 .oc (some (bm || bc, im && ic))

/-- TRIP_REQUEST (04 R144, R145): the request enters the dedicated crossing, and the kind becomes Tripped. -/
def execTripRequest (str : Fin 4) (k : TripKind) (s : State) : Host.Outcome State Fault Refusal :=
  answer s (
    let p := kindPlace k
    if (s.trips.due.at str).getLsbD p ∧ (s.trips.lim.at str).on k then
      let port := match s.mp4Of str, (s.stallsOf str).head? with
        | some u, _ => portOf (stallOf u)
        | none, some i => portOf i
        | none, none => 0
      let s := s.onStr str (fun x => { x with tripped := setBit x.tripped p })
      { s with
        trips := { s.trips with due := s.trips.due.upd str (fun m => putBit m p false), cnt := satAdd 0xFFFF s.trips.cnt 1 }
        evt := { s.evt with trip := setBit s.evt.trip (4 * str.val + p) }
        cross := { s.cross with portToHalter := s.cross.portToHalter.upd port (fun q => q ++ [.trip k str]) } }
    else s)

/-- Every compared input of a kind has lain in the release band for DEB samples in a row (04 R144). -/
def State.released (s : State) (str : Fin 4) (k : TripKind) : Bool :=
  let deb := (s.trips.lim.at str).deb k
  (s.unitsOfStr str).all (fun u => s.outOfService u ||
    (s.uswp.at u).trips.all (fun t => t.kind != k || decide (deb ≤ t.rel)))

/-- TRIP_KIND_CLEAR (04 R144; 08 R250): a Tripped kind clears, and its detail is gone. -/
def execTripKindClear (str : Fin 4) (k : TripKind) (s : State) : Host.Outcome State Fault Refusal :=
  answer s (
    let p := kindPlace k
    if (s.strs.at str).tripped.getLsbD p ∧ (s.released str k ∨ (s.trips.lim.at str).on k = false) then
      (s.onStr str (fun x => { x with tripped := putBit x.tripped p false })).dropDetail (tripDetail k) str.val
    else s)

/-- The limits that TRIP_LIMITS names (04 R146). -/
def tripOperands (c : Cmd) : TripLimits :=
  { enable := BitVec.ofNat 4 (opByte c 1), ov := opField c 4 4, uv := opField c 8 4, ot := opSigned c 12 4, oc := opField c 16 4
    hystOv := opField c 0x14 2, hystUv := opField c 0x16 2, hystOt := opField c 0x18 2, hystOc := opField c 0x1A 2
    debOv := opByte c 0x1C, debUv := opByte c 0x1D, debOt := opByte c 0x1E, debOc := opByte c 0x1F }

/-- The ranges of R146. -/
def TripLimits.inRange (l : TripLimits) : Bool :=
  let deb (n : Nat) : Bool := decide (1 ≤ n) && decide (n ≤ 16)
  decide (l.ov ≤ 8388607) && decide (l.uv < l.ov) && decide (-50000 ≤ l.ot) && decide (l.ot ≤ 150000) &&
  decide (l.oc ≤ 8388607) && deb l.debOv && deb l.debUv && deb l.debOt && deb l.debOc

/-- A change relaxes (04 R147). -/
def TripLimits.relaxes (old new : TripLimits) : Bool :=
  (old.enable &&& ~~~ new.enable) != 0 || decide (old.ov < new.ov) || decide (old.ot < new.ot) || decide (old.oc < new.oc) ||
  decide (new.uv < old.uv) || decide (old.debOv < new.debOv) || decide (old.debUv < new.debUv) ||
  decide (old.debOt < new.debOt) || decide (old.debOc < new.debOc)

/-- TRIP_LIMITS (0x46; 04 R146, R147): it takes effect and completes at the next frame edge. -/
def execTripLimits (c : Cmd) (s : State) : Host.Outcome State Fault Refusal :=
  answer s (s.run c false (fun s =>
    if h : opByte c 0 < 4 then
      let str : Fin 4 := ⟨opByte c 0, h⟩
      let new := tripOperands c
      let old := (((s.trips.pend.at str).getLast?).map Prod.fst).getD (s.trips.lim.at str)
      if 15 < opByte c 1 ∨ new.inRange = false then s.badOperand c
      else if s.strHeld str && old.relaxes new then s.refuse c 0x0402
      else { s with trips := { s.trips with pend := s.trips.pend.upd str (fun l => l ++ [(new, c)]) } }
    else s.badOperand c))

/-- Accepted trip limits take effect at a frame edge, and their commands complete (04 R147). A kind that is disabled reads
Clear. -/
def State.applyTrips (s : State) : State :=
  (places 4).foldl (fun s str =>
    let q := s.trips.pend.at str
    let s := { s with trips := { s.trips with pend := s.trips.pend.put str [] } }
    q.foldl (fun s p =>
      let s := { s with trips := { s.trips with lim := s.trips.lim.put str p.1 } }
      let gone := (s.strs.at str).tripped &&& ~~~ p.1.enable
      let s := s.onStr str (fun x => { x with tripped := x.tripped &&& p.1.enable })
      let s := [TripKind.ov, .uv, .ot, .oc].foldl (fun s k =>
        if gone.getLsbD (kindPlace k) then s.dropDetail (tripDetail k) str.val else s) s
      s.ok p.2) s) s

-- SWEEP_CONFIG (04 R148, R149).

/-- The next 8-frame boundary at or after a frame. -/
def boundary8 (f : Nat) : Nat := (f + 7) / 8 * 8

/-- An MC16 slot list as R122 wants it. -/
def slotListOk (nslot : Nat) (codes : List (BitVec 8)) : Bool :=
  let used := codes.take nslot
  decide (19 ≤ nslot) && decide (nslot ≤ 24) && (codes.drop nslot).all (fun c => c == 0xFF) &&
  (List.range 19).all (fun k => (used.filter (fun c => c.toNat == k)).length == 1) && used.all (fun c => decide (c.toNat ≤ 0x15))

/-- FUNC 0: a change of RATE (04 R120, R149). -/
def sweepRate (c : Cmd) (s : State) : State :=
  if h : opByte c 1 < 4 then
    let str : Fin 4 := ⟨opByte c 1, h⟩
    if 3 < opByte c 3 then s.badOperand c
    else if s.strHeld str then s.refuse c 0x0401
    else s.onStr str (fun x => { x with
      ratePend := x.ratePend ++ [(BitVec.ofNat 2 (opByte c 3), boundary8 (s.frame + 8), c)] })
  else s.badOperand c

/-- The six SLOT_LIST commands of a list (04 R125). -/
def slotListCmds (unit : Fin 4) (codes : List (BitVec 8)) : List LinkSlot :=
  let code (i : Nat) : Nat := match codes[i]? with | some k => k.toNat | none => 0x1F
  [0, 4, 8, 12, 16, 20].map (fun e =>
    { bcast := false, addr := unit, cmd := 6
      arg := BitVec.ofNat 32 (e + 2 ^ 5 * codes.length + 2 ^ 10 * code e + 2 ^ 15 * code (e + 1) + 2 ^ 20 * code (e + 2) +
        2 ^ 25 * code (e + 3)) })

/-- A command to a unit waits for a free slot of the downstream window (03 R89). -/
def State.queueLink (s : State) (i : Fin 32) (l : List LinkSlot) : State := s.onStall i (fun x => { x with linkQ := x.linkQ ++ l })

/-- FUNC 1: a slot list (04 R125, R149). A list for a unit that is unreached is held. -/
def sweepList (c : Cmd) (s : State) : State :=
  if h : opByte c 1 < 32 ∧ opByte c 2 < 4 then
    let i : Fin 32 := ⟨opByte c 1, h.1⟩
    let u := unitPos i ⟨opByte c 2, h.2⟩
    let codes := (List.range 24).map (fun k => BitVec.ofNat 8 (opByte c (4 + k)))
    let list := codes.take (opByte c 3)
    match (s.stalls.at i).str with
    | none => s.badOperand c
    | some str =>
      if s.isMc16 u = false ∨ slotListOk (opByte c 3) codes = false then s.badOperand c
      else if s.strHeld str then s.refuse c 0x0401
      else if (s.stalls.at i).oos then s.refuse c 0x0302
      else
        let s := s.onStall i (fun x => { x with linkQ := x.linkQ.filter (fun k => !(k.cmd == 6 && k.addr == unitOf u)) })
        let s := s.onSweep u (fun w => { w with
          cfgList := list, staged := some { codes := list, frame := none, cmds := ((w.staged.map StagedList.cmds).getD []) ++ [c] } })
        if (s.ulink.at u).reached then s.queueLink i (slotListCmds (unitOf u) list) else s
  else s.badOperand c

/-- FUNC 2: averaging (04 R136, R149). -/
def sweepAverage (c : Cmd) (s : State) : State :=
  let w := opField c 4 2
  let p := opField c 8 4
  if h : opByte c 1 < 32 then
    let i : Fin 32 := ⟨opByte c 1, h⟩
    if (s.stalls.at i).str = none ∨ 1 < opByte c 3 ∨ w < 1 ∨ 1024 < w ∨ 1 < opByte c 6 ∨
       (opByte c 3 = 1 ∧ (p < 640 ∨ 6400000 < p)) then s.badOperand c
    else if (s.stalls.at i).oos then s.refuse c 0x0302
    else s.onStall i (fun x => { x with avgPend := x.avgPend ++
      [{ locked := opByte c 3 == 1, w := w, stream := opByte c 6 == 1, period := BitVec.ofNat 32 p, cmd := c }] })
  else s.badOperand c

/-- FUNC 3: the sleep check (04 R149). -/
def sweepSleep (c : Cmd) (s : State) : State :=
  let mask := opField c 4 4
  let up := opField c 10 2
  let lo := opField c 12 2
  let n := opByte c 14
  if (places 32).any (fun i => mask.testBit i.val && (s.stalls.at i).str == none) ∨ 3600 < opField c 8 2 ∨ 1023 < up ∨
     1023 < lo ∨ up ≤ lo ∨ n < 1 ∨ 64 < n then s.badOperand c
  else
    ({ s with sleep := { s.sleep with
        mask := BitVec.ofNat 32 mask, interval := opField c 8 2, upper := up, lower := lo, sweeps := n } }).ok c

/-- SWEEP_CONFIG (0x45; 04 R148, R149). -/
def execSweepConfig (c : Cmd) (s : State) : Host.Outcome State Fault Refusal :=
  answer s (s.run c false (fun s =>
    if opByte c 0 = 0 then sweepRate c s
    else if opByte c 0 = 1 then sweepList c s
    else if opByte c 0 = 2 then sweepAverage c s
    else if opByte c 0 = 3 then sweepSleep c s
    else s.badOperand c))

/-- Averaging settings take effect at a sweep start of the stall (04 R149): the window restarts when W or the mode changes. -/
def State.applyAverage (s : State) (i : Fin 32) : State :=
  let q := (s.stalls.at i).avgPend
  let s := s.onStall i (fun x => { x with avgPend := [] })
  q.foldl (fun s a =>
    let old := s.stalls.at i
    let rate := s.rateNow (unitPos i 0)
    let new := ({ old with
      locked := a.locked, wCfg := a.w, streamAvg := a.stream, invPeriod := if a.locked then a.period else old.invPeriod }).chooseW rate
    let s := if new.wUsed ≠ old.wUsed ∨ new.locked ≠ old.locked then
      (unitsOf i).foldl (fun s u => s.restartWindow u s.frame) s else s
    (s.onStall i (fun _ => new)).ok a.cmd (dwords new.wUsed 0 0 0)) s

-- Commands that go to a unit in the running frame, and what holds its balancing switches and borrows its slots.

/-- A command slot is sent in the running frame (03 R88, R89). -/
def State.sendLink (s : State) (i : Fin 32) (k : LinkSlot) : State := s.emit (.link i s.frame k)

/-- The BALANCE command of a unit (03 R89, R115; 05 R171). -/
def State.sendBalance (s : State) (u : Fin 128) : State :=
  let l := s.ulink.at u
  (s.onLink u (fun l => { l with leaseAt := s.frame, stale := false, maskLog := ((s.frame, l.applied) :: l.maskLog).take 64 })).sendLink (stallOf u)
    { bcast := false, addr := unitOf u, cmd := 7, arg := l.testArg ++ l.applied }

/-- The mask in force at a unit in a frame. -/
def UnitLink.maskAt (l : UnitLink) (f : Nat) : BitVec 16 :=
  match l.maskLog.find? (fun e => decide (e.1 ≤ f)) with
  | some e => e.2
  | none => 0

/-- A probe or a test sets the unit's mask, and the command goes out at once (05 R163, R171). -/
def State.driveMask (s : State) (u : Fin 128) (m testArg : BitVec 16) : State :=
  (s.onLink u (fun l => { l with probeMask := some m, testArg := testArg, applied := m })).sendBalance u

/-- A probe or a test releases the unit: the mask below it comes back within 2 frames (03 R115). -/
def State.releaseMask (s : State) (u : Fin 128) : State :=
  s.onLink u (fun l =>
    let l := { l with probeMask := none, testArg := 0 }
    { l with applied := l.chosenMask, stale := true })

/-- Where a code stands in the slot list in force. -/
def UnitSweep.slotAt (w : UnitSweep) (code : BitVec 8) : Nat := (w.codes.findIdx? (fun k => k == code)).getD 24

/-- TRIM_READ FUNC 1 or 2 (12 R351): routing of channel `ch`, or its end. -/
def State.sendRouting (s : State) (u : Fin 128) (ch : Option Nat) : State :=
  s.sendLink (stallOf u) { bcast := false, addr := unitOf u, cmd := 8
                           arg := match ch with | some c => BitVec.ofNat 32 (1 + 16 * c) | none => 2 }

/-- A borrowing of slots that began in frame `from_` ends with this frame's sweep start (11 R342). -/
def UnitSweep.endBorrow (w : UnitSweep) (slots : BitVec 24) (from_ frame : Nat) : UnitSweep :=
  { w with borrows := ((slots, from_, frame) :: w.borrows).take 6 }

/-- The slots of references A and B. -/
def UnitSweep.refSlots (w : UnitSweep) : BitVec 24 := setBit (setBit 0 (w.slotAt 0x11)) (w.slotAt 0x12)

/-- A live run's routing begins (12 R351, R354). -/
def State.routeRun (s : State) (u : Fin 128) : State :=
  match (s.ucal.at u).run with
  | some r =>
    (s.onCal u (fun x => { x with run := some { r with routeAt := some s.frame } })).sendRouting u (some r.ch)
  | none => s

/-- The test's slot is that of reference B, and a run holds it (05 R171; 11 R343). -/
def State.refHeld (s : State) (u : Fin 128) (t : BalTest) : Bool :=
  (s.ucal.at u).run.isSome && t.slot == (s.uswp.at u).slotAt 0x12

/-- A test that waits begins its next switch once neither a probe nor a run is in its way (05 R171, R174; 11 R343). -/
def State.resumeTest (s : State) (u : Fin 128) : State :=
  match (s.uint.at u).test with
  | some t =>
    match t.phase, t.todo with
    | .waiting, c :: _ =>
      if (s.uint.at u).probe.isSome ∨ s.integ.probeQ.any (fun q => q.unit == u) ∨ s.refHeld u t then s
      else
        let s := s.onInteg u (fun i => { i with
          test := some { t with phase := .pre, since := s.now, from_ := s.frame, vPre := none, vOn := none } })
        s.driveMask u 0 (BitVec.ofNat 16 (1 + 2 * c.val + 32 * t.slot))
    | _, _ => s
  | none => s

-- What ends a live run (12 R355, R356), and the two rows that change a rate and a list.

/-- The routing of a live run ends from the next sweep (12 R351). -/
def State.stopRouting (s : State) (u : Fin 128) : State :=
  match (s.ucal.at u).run with
  | some r =>
    match r.routeAt with
    | some f => (s.onSweep u (fun w => w.endBorrow w.refSlots f s.frame)).sendRouting u none
    | none => s
  | none => s

/-- A live run, or a run's result that waits for its 60 s, ends without being applied (12 R355, R356, R360): nothing
changes, a record is requested, and its commands complete as R361 says. -/
def State.endRun (s : State) (u : Fin 128) (code : BitVec 4) : State :=
  let x := s.ucal.at u
  let cmds := ((x.run.map LiveRun.cmds).getD []) ++ ((x.deferred.map PendEntry.cmds).getD [])
  let s := s.stopRouting u
  let s := s.onCal u (fun x => { x with run := none, deferred := none, result := code, lastRunAt := some s.now })
  let s := { s with evt := { s.evt with cal := setBit s.evt.cal 0 } }
  let s := (s.studbook 0x0C u.val [2, code.setWidth 8, x.gen]).resumeTest u
  if code = 5 then s.completeAll cmds stCancelled else s.completeAll cmds stRefused (dwords 0x0C05 code.toNat 0 0)

/-- A live run holds the unit: it runs, or its result waits (12 R360). -/
def State.runHolds (s : State) (u : Fin 128) : Bool := (s.ucal.at u).run.isSome || (s.ucal.at u).deferred.isSome

/-- The run that holds a unit, if one does, is ABORTED (12 R356). -/
def State.abortRun (s : State) (u : Fin 128) : State := if s.isMc16 u && s.runHolds u then s.endRun u 5 else s

/-- A change of RATE takes effect on a string at boundary frame `b` (04 R120, R132, R136, R137; 12 R356). -/
def State.applyRate (s : State) (str : Fin 4) (rate : BitVec 2) (b : Nat) : State :=
  let old := (s.strs.at str).rate
  if rate = old then s
  else
    let s := s.onStr str (fun x => { x with rate := rate })
    let s := (s.unitsOfStr str).foldl (fun s u => (s.restartHistory u b (s.uswp.at u).codes old).abortRun u) s
    let s := s.onEstr str (fun x => { x with blockFrom := Bank.fill 32 none })
    (s.stallsOf str).foldl (fun s i => s.onStall i (fun x => x.chooseW rate)) s

/-- RATE_CHANGE_APPLY (04 R120): every accepted change whose boundary has come takes effect, and its command completes. -/
def execRateChangeApply (str : Fin 4) (s : State) : Host.Outcome State Fault Refusal :=
  answer s (
    let due := (s.strs.at str).ratePend.filter (fun p => decide (p.2.1 ≤ s.frame))
    let s := s.onStr str (fun x => { x with ratePend := x.ratePend.filter (fun p => decide (s.frame < p.2.1)) })
    due.foldl (fun s p => (s.applyRate str p.1 p.2.1).ok p.2.2 (dwords 0 p.2.1 0 0)) s)

/-- SLOT_LIST_APPLY (04 R125, R132, R137; 12 R356): the unit has its whole staged list, and the boundary has come. -/
def execSlotListApply (u : Fin 128) (s : State) : Host.Outcome State Fault Refusal :=
  answer s (match (s.uswp.at u).staged with
    | some l => match l.frame with
      | some b =>
        if b ≤ s.frame then
          let s := s.onSweep u (fun w => { w with staged := none })
          let s := if (s.uswp.at u).codes = l.codes then s
            else (s.restartHistory u b l.codes (s.rateNow u)).abortRun u
          s.completeAll l.cmds stSuccess (dwords 0 b 0 0)
        else s
      | none => s
    | none => s)

/-- SAMPLE_READ (0x87; 04 R150). -/
def execSampleRead (c : Cmd) (s : State) : Host.Outcome State Fault Refusal :=
  answer s (s.run c false (fun s =>
    let addr := opField c 8 8
    if h : opByte c 0 < 32 ∧ opByte c 1 < 4 then
      let i : Fin 32 := ⟨opByte c 0, h.1⟩
      let u := unitPos i ⟨opByte c 1, h.2⟩
      if (s.stalls.at i).str = none ∨ (s.isMc16 u = false ∧ s.isMp4 u = false) ∨ 1 < opByte c 2 ∨ aligned16 addr = false then
        s.badOperand c
      else
        let avg := opByte c 2 == 0
        let r := if avg then (s.uswp.at u).averaged else (s.uswp.at u).aligned
        (s.toHost addr (sampleBytes u avg 0 r)).ok c (dwords 128 (s.frame - r.start) 0 0)
    else s.badOperand c))

/-- CLR of `ALIGN_CNT`. -/
def State.clearAlign (s : State) (u : Fin 128) : State := s.onSweep u (fun w => { w with reduced := 0, sat := 0 })

/-- ALIGN_CNT_CLR (04, `ALIGN_CNT`). -/
def execAlignCntClr (u : Fin 128) (s : State) : Host.Outcome State Fault Refusal := answer s (s.clearAlign u)

end Sys2Proof.Machine
end

