-- ==== Sys2Proof/Machine/Integrity.lean ====
section
/-! DEFINITION. Cell integrity (chapter 05): ages, plausibility, suspect pairs, the open-wire probe, the start-up wire check, broken wires, and the balancing-switch test. -/

namespace Sys2Proof.Machine

/-- `INTEG_EVT` of a unit's stall. -/
def State.integEvent (s : State) (u : Fin 128) : State := { s with evt := { s.evt with integ := setBit s.evt.integ (stallOf u).val } }

/-- The unit's string is in service mode (05 R169). -/
def State.unitService (s : State) (u : Fin 128) : Bool :=
  match s.strOf u with
  | some str => (s.strs.at str).service
  | none => false

/-- A change of what is Invalid in a unit: a cell that becomes Invalid starts its invalid age at 0, and a cell that returns
has none (05 R167, R169, R170). -/
def State.changeInvalid (s : State) (u : Fin 128) (f : UnitInteg → UnitInteg) : State :=
  let svc := s.unitService u
  s.onInteg u (fun i =>
    let n := f i
    let fresh (c : Fin 16) : Bool := n.invalid.getLsbD c.val && i.invalid.getLsbD c.val
    { n with
      invAcc := i.invAcc.each (fun c a => if fresh c then a else 0)
      invFrom := i.invFrom.each (fun c t =>
        if fresh c then t else if n.invalid.getLsbD c.val && !svc then some s.now else none) })

-- Ages (05 R157 to R159, R169).

/-- A DATA_AGE record (13 R373). -/
def State.ageRecord (s : State) (str : Fin 4) (current two : Bool) (dir : Crossing) : State :=
  s.studbook 0x16 str.val (leBytes 1 (bit current) ++ leBytes 1 (bit two) ++ leBytes 1 (bit (dir == .up)))

/-- DATA_AGE_DERATE (05 R158): the string data age crosses 500 ms. -/
def execDataAgeDerate (str : Fin 4) (dir : Crossing) (s : State) : Host.Outcome State Fault Refusal :=
  answer s (let old := decide (500 * ticksPerMs ≤ s.dataAge str)
    if s.usedStr str ∧ old = (dir == .up) ∧ (s.strs.at str).ageC = !old then
      (s.onStr str (fun x => { x with ageC := old })).ageRecord str false false dir
    else s)

/-- DATA_AGE_DISCONNECT (05 R158): the string data age crosses 2 s. -/
def execDataAgeDisconnect (str : Fin 4) (dir : Crossing) (s : State) : Host.Outcome State Fault Refusal :=
  answer s (let old := decide (2000 * ticksPerMs ≤ s.dataAge str)
    if s.usedStr str ∧ old = (dir == .up) ∧ (s.strs.at str).ageB = !old then
      let s := (s.onStr str (fun x => { x with ageB := old })).ageRecord str false true dir
      if old then s.requestB str 0x11 else s
    else s)

/-- CURRENT_AGE_DERATE (05 R159): the current age crosses 500 ms. -/
def execCurrentAgeDerate (str : Fin 4) (dir : Crossing) (s : State) : Host.Outcome State Fault Refusal :=
  answer s (let old := decide (500 * ticksPerMs ≤ s.currentAge str)
    if s.usedStr str ∧ old = (dir == .up) ∧ (s.strs.at str).curC = !old then
      (s.onStr str (fun x => { x with curC := old })).ageRecord str true false dir
    else s)

/-- CURRENT_AGE_DISCONNECT (05 R159): the current age crosses 2 s. -/
def execCurrentAgeDisconnect (str : Fin 4) (dir : Crossing) (s : State) : Host.Outcome State Fault Refusal :=
  answer s (let old := decide (2000 * ticksPerMs ≤ s.currentAge str)
    if s.usedStr str ∧ old = (dir == .up) ∧ (s.strs.at str).curB = !old then
      let s := (s.onStr str (fun x => { x with curB := old })).ageRecord str true true dir
      if old then s.requestB str 0x12 else s
    else s)

/-- INVALID_AGE_EXPIRY (05 R169): a cell's invalid age reaches 60 s outside service mode. -/
def execInvalidAgeExpiry (u : Fin 128) (cell : Fin 16) (s : State) : Host.Outcome State Fault Refusal :=
  answer s (match s.strOf u with
    | some str =>
      if s.isMc16 u ∧ s.outOfService u = false ∧ s.cellInvalid u cell.val ∧ s.unitService u = false ∧
         60 * ticksPerS ≤ s.invAge u cell then s.requestB str 0x10 else s
    | none => s)

-- Averaged values as the checks use them (05 R160, R161).

/-- The averaged sample of a code in the unit's newest averaged record. -/
def State.averagedOf (s : State) (u : Fin 128) (code : BitVec 8) : Option Sample :=
  let w := s.uswp.at u
  if w.averaged.missing then none else sampleOf (w.recCodes.zip w.averaged.slots) code

/-- A valid averaged value. -/
def State.avgValid (s : State) (u : Fin 128) (code : BitVec 8) : Option Int :=
  match s.averagedOf u code with
  | some v => if v.st = .valid then some v.val else none
  | none => none

/-- An averaged cell value that is valid, or the value that an Invalid cell still has (04 R141). -/
def State.avgCell (s : State) (u : Fin 128) (c : Nat) : Option Int :=
  match s.averagedOf u (BitVec.ofNat 8 c) with
  | some v => if v.st = .valid ∨ v.st = .cellInvalid then some v.val else none
  | none => none

/-- The sum of numbers, none where one is none. -/
def sumAll (l : List (Option Int)) : Option Int :=
  l.foldl (fun a v => match a, v with | some a, some v => some (a + v) | _, _ => none) (some 0)

/-- |stack total − Σ cells 0–15| in µV (05 R160). -/
def State.stackDiff (s : State) (u : Fin 128) : Option Nat :=
  match s.avgValid u 0x10, sumAll ((List.range 16).map (s.avgCell u)) with
  | some st, some sum => some (10 * st - sum).natAbs
  | _, _ => none

/-- |I_MAIN − I_CHECK| in mA, and whether it exceeds 1 A + 1 % of |I_MAIN|. -/
def State.pairDiff (s : State) (u : Fin 128) : Option (Nat × Bool) :=
  match s.avgValid u 0x80, s.avgValid u 0x81 with
  | some m, some c => some ((m - c).natAbs, decide (100000 + m.natAbs < 100 * (m - c).natAbs))
  | _, _ => none

/-- The cells of a string in µV, while every one is Valid (05 R160). -/
def State.allCells (s : State) (str : Fin 4) : Option Int :=
  let units := s.mc16sOf str
  if units.any (fun u => !s.swept u || (places 16).any (fun c => !s.cellValid u c.val)) then none
  else sumAll (units.flatMap (fun u => (List.range 16).map (fun c => s.avgValid u (BitVec.ofNat 8 c))))

/-- |V_STRING − Σ all cells| in µV, and whether it exceeds 2 V + 0.5 % of V_STRING. -/
def State.sumDiff (s : State) (u : Fin 128) (str : Fin 4) : Option (Nat × Bool) :=
  match s.avgValid u 0x82, s.allCells str with
  | some v, some sum =>
    let d := (1000 * v - sum).natAbs
    some (d, decide (2000000 + 5 * v.natAbs < d))
  | _, _ => none

/-- A condition told of an evaluation: that it holds, that it is absent, or that it could not be evaluated (05 R160). -/
def Cond.evaluate (c : Cond) (now : Nat) (holds : Option Bool) : Cond := c.track now (holds == some true) (holds == some false)

-- Suspect pairs (05 R161, R162).

/-- The state of a wire's history. -/
def State.onWire (s : State) (u : Fin 128) (w : Fin 16) (f : WireHist → WireHist) : State :=
  s.onInteg u (fun i => { i with wires := i.wires.upd w f })

/-- A WIRE record and the integrity event (05 R167; 13 R373). -/
def State.wireRecord (s : State) (u : Fin 128) (w : Fin 16) (outcome sw : Nat) : State :=
  (s.integEvent u).studbook 0x18 u.val (leBytes 1 w.val ++ leBytes 1 outcome ++ [0, 0] ++ leBytes 4 sw)

/-- A wire is broken (05 R167): both cells of the pair become Invalid. -/
def State.confirmWire (s : State) (u : Fin 128) (w : Fin 16) (outcome sw : Nat) : State :=
  let s := s.changeInvalid u (fun i =>
    let b := setBit i.broken (w.val - 1)
    { i with broken := b, invWire := cellsOfWires b, suspW := putBit i.suspW (w.val - 1) false })
  (s.onWire u w (fun h => { h with inconcl := 0, retryAt := none })).wireRecord u w outcome sw

/-- A wire was CLEARED (05 R165): its pair returns to Valid, and Δ restarts from the new values. -/
def State.clearWire (s : State) (u : Fin 128) (w : Fin 16) : State :=
  let s := s.onWire u w (fun h => { inconcl := 0, retryAt := none,
                                    cleared := (s.now :: h.cleared).take 3 })
  if (s.uint.at u).suspW.getLsbD (w.val - 1) then
    s.onInteg u (fun i => { i with
      suspW := putBit i.suspW (w.val - 1) false
      evals := i.evals.map (fun e => (e.1, (e.2.set (w.val - 1) none).set w.val none)) })
  else s

/-- A probe of one wire. -/
def singleProbe (why : ProbeWhy) (w : Fin 16) : Probe :=
  { why := why, wires := [w], mask := BitVec.ofNat 16 (2 ^ (w.val - 1)), p := none, ended := false }

/-- The check of every wire with one pulse (05 R166). -/
def fullProbe (why : ProbeWhy) : Probe :=
  { why := why, wires := (places 16).drop 1, mask := 0x5555, p := none, ended := false }

/-- A probe waits for its turn (05 R174). -/
def State.queueProbe (s : State) (u : Fin 128) (p : Probe) : State :=
  { s with integ := { s.integ with probeQ := s.integ.probeQ ++ [{ unit := u, probe := p }] } }

/-- A pair becomes Suspect (05 R161, R162, R165): a probe is due, or the wire counts as broken after three CLEARED outcomes
within the last 10 min. -/
def State.suspectWire (s : State) (u : Fin 128) (w : Fin 16) : State :=
  let recent := (((s.uint.at u).wires.at w).cleared.filter (fun t => decide (s.now ≤ t + 600 * ticksPerS))).length
  let s := (s.onInteg u (fun i => { i with suspW := setBit i.suspW (w.val - 1) })).integEvent u
  if 3 ≤ recent then s.confirmWire u w 1 0 else s.queueProbe u (singleProbe .suspect w)

/-- Whether the pair of wire `w` fulfils conditions 1 and 2 of R161 between two evaluations. -/
def pairMoves (thresh : Nat) (old new : List (Option Int)) (w : Nat) : Bool :=
  match old.getD (w - 1) none, old.getD w none, new.getD (w - 1) none, new.getD w none with
  | some a0, some b0, some a, some b =>
    let da := a - a0
    let db := b - b0
    decide (da * db < 0) && decide (1000 * thresh < da.natAbs) && decide (1000 * thresh < db.natAbs) && decide ((da + db).natAbs ≤ 8000)
  | _, _, _, _ => false

/-- The pair-sum rule of an MC16 (05 R161). -/
def State.pairSum (s : State) (u : Fin 128) : State :=
  let vals := (List.range 16).map (fun c => if s.cellValid u c then s.avgValid u (BitVec.ofNat 8 c) else none)
  let old := (s.uint.at u).evals.find? (fun e => decide (e.1 + ticksPerS ≤ s.now))
  let settled := decide ((s.uswp.at u).winStart * ticksPerFrame + ticksPerS ≤ s.now)
  let agrees : Bool := match s.stackDiff u with | some d => decide (d ≤ 8000) | none => false
  let s := s.onInteg u (fun i => { i with evals := ((s.now, vals) :: i.evals).take 102 })
  match old with
  | some (_, before) =>
    if settled ∧ agrees ∧ (s.ulink.at u).delivering then
      ((places 16).drop 1).foldl (fun s w =>
        if s.cellValid u (w.val - 1) ∧ s.cellValid u w.val ∧ pairMoves s.integ.owThresh before vals w.val then s.suspectWire u w
        else s) s
    else s
  | none => s

/-- PLAUSIBILITY_EVALUATION (05 R160, R161): the evaluation of one unit, every 10 ms. -/
def execPlausibilityEvaluation (u : Fin 128) (s : State) : Host.Outcome State Fault Refusal :=
  answer s (
    if s.outOfService u then s
    else if s.isMc16 u then
      let d := if s.swept u then s.stackDiff u else none
      let s := s.onInteg u (fun i => { i with
        warn := i.warn.evaluate s.now (d.map (fun x => decide (8000 < x)))
        fail := i.fail.evaluate s.now (d.map (fun x => decide (1000 * s.integ.stackFail < x))) })
      if s.swept u then s.pairSum u else s
    else if s.isMp4 u then
      match s.strOf u with
      | some str =>
        let p := if s.swept u then s.pairDiff u else none
        let q := if s.swept u then s.sumDiff u str else none
        s.onStr str (fun x => { x with
          pairCond := x.pairCond.evaluate s.now (p.map Prod.snd), sumCond := x.sumCond.evaluate s.now (q.map Prod.snd) })
      | none => s
    else s)

/-- The unit of a plausibility condition: a string's conditions stand on its MP4. -/
def State.plausUnit (s : State) : PlausId → Option (Fin 128)
  | .stackWarn u | .stackFail u => some u
  | .currentPair str | .stringSum str => s.mp4Of str

/-- A plausibility condition. -/
def State.plausCond (s : State) : PlausId → Cond
  | .stackWarn u => (s.uint.at u).warn
  | .stackFail u => (s.uint.at u).fail
  | .currentPair str => (s.strs.at str).pairCond
  | .stringSum str => (s.strs.at str).sumCond

/-- A plausibility condition set or clear. -/
def State.setPlaus (s : State) (p : PlausId) (on : Bool) : State :=
  match p with
  | .stackWarn u => s.onInteg u (fun i => { i with warn := { i.warn with on := on } })
  | .stackFail u => s.changeInvalid u (fun i => { i with fail := { i.fail with on := on }, invStack := if on then 0xFFFF else 0 })
  | .currentPair str => s.onStr str (fun x => { x with pairCond := { x.pairCond with on := on } })
  | .stringSum str => s.onStr str (fun x => { x with sumCond := { x.sumCond with on := on } })

/-- Persistence of a condition in ms (05 R160). -/
def plausPersist : PlausId → Nat
  | .currentPair _ => 100
  | _ => 1000

/-- The number of a check in the order of R160. -/
def plausCheck : PlausId → Nat
  | .stackWarn _ => 0
  | .stackFail _ => 1
  | .currentPair _ => 2
  | .stringSum _ => 3

/-- The difference of a check as its record carries it. -/
def State.plausDiff (s : State) : PlausId → Nat
  | .stackWarn u | .stackFail u => (s.stackDiff u).getD 0
  | .currentPair str => match s.mp4Of str with | some u => ((s.pairDiff u).map Prod.fst).getD 0 | none => 0
  | .stringSum str => match s.mp4Of str with | some u => ((s.sumDiff u str).map Prod.fst).getD 0 | none => 0

/-- The event and the record of a plausibility change (05 R160; 13 R373). -/
def State.plausRecord (s : State) (p : PlausId) (on : Bool) : State :=
  match s.plausUnit p with
  | some u => (s.integEvent u).studbook 0x17 u.val
      (leBytes 1 (plausCheck p) ++ leBytes 1 (bit on) ++ [0, 0] ++ leBytes 4 (min (s.plausDiff p) 0xFFFFFFFF))
  | none => s

/-- PLAUSIBILITY_SET (05 R160). -/
def execPlausibilitySet (p : PlausId) (s : State) : Host.Outcome State Fault Refusal :=
  answer s (let c := s.plausCond p
    match c.since with
    | some t =>
      if c.on = false ∧ t + plausPersist p * ticksPerMs ≤ s.now then
        let s := (s.plausRecord p true).setPlaus p true
        match p with
        | .currentPair str => s.requestB str 0x16
        | _ => s
      else s
    | none => s)

/-- PLAUSIBILITY_CLEAR (05 R160). -/
def execPlausibilityClear (p : PlausId) (s : State) : Host.Outcome State Fault Refusal :=
  answer s (let c := s.plausCond p
    match c.absent with
    | some t => if c.on ∧ t + 10 * ticksPerS ≤ s.now then (s.plausRecord p false).setPlaus p false else s
    | none => s)

-- The open-wire probe (05 R163 to R166, R174).

/-- A waiting probe may start: its unit is swept, nothing holds it, and a start-up check has its 8 frames of before values. -/
def State.probeFree (s : State) (q : ProbeReq) : Bool :=
  let i := s.uint.at q.unit
  s.swept q.unit && i.probe.isNone && (match i.test with | some t => t.phase == .waiting | none => true) &&
  (match q.probe.why, (s.ulink.at q.unit).sweepFrom with
    | .startup, some f => decide (f + 8 ≤ s.frame)
    | _, _ => true)

/-- OPEN_WIRE_PROBE_START (05 R163, R174): the first waiting probe whose unit is free sends its mask. -/
def execOpenWireProbeStart (s : State) : Host.Outcome State Fault Refusal :=
  answer s (match s.integ.probeQ.find? s.probeFree with
    | some q =>
      let s := { s with integ := { s.integ with probeQ := s.integ.probeQ.erase q } }
      let s := s.onInteg q.unit (fun i => { i with probe := some { q.probe with p := some s.frame, ended := false } })
      s.driveMask q.unit q.probe.mask 0
    | none => s)

/-- PROBE_PULSE_END (05 R163): 32 frames later the mask goes out without the probed bits. -/
def execProbePulseEnd (u : Fin 128) (s : State) : Host.Outcome State Fault Refusal :=
  answer s (match (s.uint.at u).probe with
    | some q => match q.p with
      | some p =>
        if p + 32 ≤ s.frame ∧ q.ended = false then
          (s.onInteg u (fun i => { i with probe := some { q with ended := true } })).driveMask u 0 0
        else s
      | none => s
    | none => s)

/-- The mean of a cell's aligned values in the sweeps that start in frames `lo` to `hi`; none where there is none or one is
missing, SATURATED or UNALIGNED (05 R163, R164). -/
def UnitSweep.probeMean (w : UnitSweep) (lo hi c : Nat) : Option Rat :=
  let sweeps := w.alHist.filter (fun e => decide (lo ≤ e.1) && decide (e.1 ≤ hi))
  let vals := sweeps.map (fun e => match sampleOf e.2 (BitVec.ofNat 8 c) with
    | some v => if usable v then some v.val else none
    | none => none)
  if vals.isEmpty then none else (sumAll vals).map (fun t => (t : Rat) / ((vals.length : Nat) : Rat))

/-- A number without its sign. -/
def ratAbs (q : Rat) : Rat := if q < 0 then -q else q

/-- The outcome of wire `w` (05 R164) and Sw in mV: 0 CLEARED, 1 CONFIRMED, 2 INCONCLUSIVE. -/
def UnitSweep.probeOutcome (x : UnitSweep) (mask : BitVec 16) (p : Nat) (w : Fin 16) : Nat × Nat :=
  let k := w.val - 1
  match x.probeMean (p - 8) (p - 1) k, x.probeMean (p - 8) (p - 1) w.val,
        x.probeMean (p + 24) (p + 31) k, x.probeMean (p + 24) (p + 31) w.val with
  | some a0, some b0, some a, some b =>
    let sw := ratAbs ((a - b) - (a0 - b0)) / 2
    let sum := ratAbs ((a + b) - (a0 + b0))
    let vb := if mask.getLsbD k then a - a0 else b - b0
    let out := if 150000 ≤ sw ∧ sum ≤ 8000 ∧ vb < 0 then 1 else if sw < 150000 then 0 else 2
    (out, roundNat (sw / 1000))
  | _, _, _, _ => (2, 0)

/-- The start-up check's WIRECHK once a wire is decided (05, `INTEG_STAT`). -/
def UnitInteg.settleCheck (i : UnitInteg) : UnitInteg :=
  if i.wireChk = 4 ∧ i.chkPend = 0 then { i with wireChk := if i.broken = 0 then 2 else 3 } else i

/-- The device's own probe of a wire has an outcome (05 R164, R165). -/
def State.wireOutcome (s : State) (u : Fin 128) (w : Fin 16) (out sw : Nat) : State :=
  let decided (s : State) : State :=
    s.onInteg u (fun i => ({ i with chkPend := putBit i.chkPend w.val false }).settleCheck)
  if out = 1 then decided (s.confirmWire u w 1 sw)
  else if out = 0 then decided (s.clearWire u w)
  else
    let n := ((s.uint.at u).wires.at w).inconcl + 1
    if 3 ≤ n then decided (s.confirmWire u w 2 sw)
    else s.onWire u w (fun h => { h with inconcl := n, retryAt := some (s.now + ticksPerS) })

/-- A wire that a command in mode 2 finds whole (05 R170). -/
def State.mendWire (s : State) (u : Fin 128) (w : Fin 16) (sw : Nat) : State :=
  let s := s.changeInvalid u (fun i =>
    let b := putBit i.broken (w.val - 1) false
    { i with broken := b, invWire := cellsOfWires b })
  (s.clearWire u w).wireRecord u w 0 sw

/-- A command's probe of a wire has an outcome (05 R176). -/
def State.commandOutcome (s : State) (u : Fin 128) (mode : BitVec 8) (w : Fin 16) (out sw : Nat) : State :=
  if out = 1 then s.confirmWire u w 1 sw
  else if out = 0 then (if mode = 2 then s.mendWire u w sw else s.clearWire u w)
  else s

/-- A probe ends with the outcomes of its wires (05 R164 to R166, R176). A start-up check that was stopped has none. -/
def State.endProbe (s : State) (u : Fin 128) (q : Probe) (outs : List (Fin 16 × Nat × Nat)) (stopped : Bool) : State :=
  let held := (s.uint.at u).probe.isSome && q.p.isSome
  let s := if held then (s.onInteg u (fun i => { i with probe := none })).releaseMask u else s
  let s := s.integEvent u
  let s : State := match q.why with
    | .suspect => outs.foldl (fun s o => s.wireOutcome u o.1 o.2.1 o.2.2) s
    | .startup =>
      if stopped then s
      else
        let s := outs.foldl (fun s o => s.wireOutcome u o.1 o.2.1 o.2.2) s
        let pend := outs.foldl (fun m o => if o.2.1 = 2 ∧ ((s.uint.at u).wires.at o.1).retryAt.isSome then setBit m o.1.val else m)
          (0 : BitVec 16)
        (s.onInteg u (fun i => ({ i with chkPend := pend, wireChk := 4 }).settleCheck)).onLink u
          (fun l => { l with delivering := true })
    | .command mode c =>
      let s := outs.foldl (fun s o => s.commandOutcome u mode o.1 o.2.1 o.2.2) s
      let mask (k : Nat) : Nat := outs.foldl (fun m o => if o.2.1 = k then m + 2 ^ o.1.val else m) 0
      if mode = 1 then s.ok c (dwords (mask 1) (mask 2) 0 0)
      else match outs with
        | o :: _ => s.ok c (dwords o.2.1 o.2.2 0 0)
        | [] => s
  s.resumeTest u

/-- PROBE_DECISION (05 R164): the last during value has arrived. -/
def execProbeDecision (u : Fin 128) (s : State) : Host.Outcome State Fault Refusal :=
  answer s (match (s.uint.at u).probe with
    | some q => match q.p with
      | some p =>
        let newest := ((s.uswp.at u).alHist.headD (0, [])).1
        if q.ended ∧ p + 31 < newest + framesOf (s.rateNow u) then
          s.endProbe u q (q.wires.map (fun w => (w, (s.uswp.at u).probeOutcome q.mask p w))) false
        else s
      | none => s
    | none => s)

/-- PROBE_RETRY (05 R165): 1 s after an INCONCLUSIVE outcome the wire is probed again. -/
def execProbeRetry (u : Fin 128) (wire : Fin 16) (s : State) : Host.Outcome State Fault Refusal :=
  answer s (match ((s.uint.at u).wires.at wire).retryAt with
    | some t =>
      if t ≤ s.now ∧ s.swept u ∧ wire ≠ 0 then
        (s.onWire u wire (fun h => { h with retryAt := none })).queueProbe u (singleProbe .suspect wire)
      else s
    | none => s)

/-- An MC16 is configured after an enumeration or a rejoin: its start-up wire check is due before everything else (05 R166). -/
def State.startWireCheck (s : State) (u : Fin 128) : State :=
  let s := (s.onInteg u (fun i => { i with wireChk := 1, chkPend := 0, evals := [] })).onLink u
    (fun l => { l with delivering := false })
  let rest := s.integ.probeQ.filter (fun q => !(q.unit == u && q.probe.why == ProbeWhy.startup))
  { s with integ := { s.integ with probeQ := ProbeReq.mk u (fullProbe .startup) :: rest } }

-- The balancing-switch test (05 R171 to R174, R177).

/-- The cell voltage of R171 in µV. -/
def State.testCell (s : State) (u : Fin 128) (c : Nat) : Option Int := if s.cellValid u c then s.avgValid u (BitVec.ofNat 8 c) else none

/-- V_EXP in µV (05 R171). -/
def State.vExp (s : State) (u : Fin 128) (c : Nat) : Option Rat :=
  (s.testCell u c).map (fun v => (v : Rat) * Config.balK (rBal (((s.ucal.at u).entry).getD []) c))

/-- A V_PRE or V_OFF that shows a closed switch. -/
def showsClosed (exp : Rat) (v : Int) : Bool := decide (exp * (5 / 100) < v)

/-- The outcome of a switch (05 R172), conditions in the order in which they are tested. -/
def switchOutcome (vc : Option Int) (exp : Rat) (pre on off : Option Int) : BitVec 4 :=
  match vc, pre, off with
  | some v, some p, some o =>
    if v < 1000000 then 5
    else if showsClosed exp p then 2
    else match on with
      | none => 5
      | some w =>
        if showsClosed exp o then 2
        else if (w : Rat) < exp * (2 / 10) then 3
        else if (w : Rat) < exp * (8 / 10) then 4
        else 1
  | _, _, _ => 5

/-- A switch receives its outcome (05 R173). -/
def State.switchResult (s : State) (u : Fin 128) (c : Fin 16) (out : BitVec 4) : State :=
  let s := s.onInteg u (fun i => { i with
    bt := i.bt.put c out
    stuck := if out = 2 then setBit i.stuck c.val else if out = 1 ∨ out = 4 then putBit i.stuck c.val false else i.stuck
    btC := if out = 3 ∨ out = 4 then setBit i.btC c.val else if out = 1 ∨ out = 2 then putBit i.btC c.val false else i.btC })
  let s := s.integEvent u
  let s := if out = 1 ∨ out = 0 then s else s.studbook 0x19 u.val [BitVec.ofNat 8 c.val, out.setWidth 8]
  match s.strOf u with
  | some str => if out = 2 then s.requestB str 0x13 else s
  | none => s

/-- `BT_RESULT_LO` and `BT_RESULT_HI` of the switches in a mask. -/
def UnitInteg.btWords (i : UnitInteg) (mask : BitVec 16) : Nat × Nat :=
  let word (o : Nat) : Nat := (List.range 8).foldl (fun m c =>
    if mask.getLsbD (c + o) then m + (i.bt.at (idx 16 (by decide) (c + o))).toNat * 16 ^ c else m) 0
  (word 0, word 8)

/-- A test ends: its unit is released, and its command completes with the outcomes (05 R177). -/
def State.finishTest (s : State) (u : Fin 128) (t : BalTest) : State :=
  let s := (s.onInteg u (fun i => { i with test := none })).releaseMask u
  match t.cmd with
  | some c =>
    let (lo, hi) := (s.uint.at u).btWords t.mask
    s.ok c (dwords lo hi 0 0)
  | none => s

/-- A test has finished its current switch: it ends, goes on, or yields (05 R174; 11 R343). -/
def State.nextSwitch (s : State) (u : Fin 128) (t : BalTest) : State :=
  let s := s.onSweep u (fun w => w.endBorrow (BitVec.ofNat 24 (2 ^ t.slot)) t.from_ s.frame)
  let t := { t with todo := t.todo.drop 1, phase := .waiting }
  if t.todo.isEmpty then s.finishTest u t
  else
    let s := ((s.onInteg u (fun i => { i with test := some t })).releaseMask u).resumeTest u
    match (s.ucal.at u).run with
    | some r => if r.routeAt.isNone && s.refHeld u t then s.routeRun u else s
    | none => s

/-- A test of the switches in `mask` starts (05 R171, R173). -/
def State.startTest (s : State) (u : Fin 128) (mask : BitVec 16) (sched : Bool) (cmd : Option Cmd) : State :=
  let w := s.uswp.at u
  let temps := (List.range w.codes.length).filter (fun j => [0x13, 0x14, 0x15].contains (w.codes.getD j 0xFF).toNat)
  let slot := temps.getLast?.getD (w.slotAt 0x12)
  let t : BalTest := { todo := (places 16).filter (fun c => mask.getLsbD c.val), slot := slot, from_ := 0, phase := .waiting,
                       since := s.now, vPre := none, vOn := none, sched := sched, cmd := cmd, mask := mask }
  (s.onInteg u (fun i => { i with test := some t })).resumeTest u

/-- BAL_TEST_PHASE_END (05 R171, R172): a 2 ms phase ends with the mean of its last 1 ms. -/
def execBalTestPhaseEnd (u : Fin 128) (vbr : Reading) (s : State) : Host.Outcome State Fault Refusal :=
  answer s (match (s.uint.at u).test with
    | some t =>
      match t.phase, t.todo with
      | .waiting, _ | _, [] => s
      | ph, c :: _ =>
        if s.now < t.since + 2 * ticksPerMs then s
        else
          let arg := BitVec.ofNat 16 (1 + 2 * c.val + 32 * t.slot)
          let exp := (s.vExp u c.val).getD 0
          let stuck := match vbr with | some v => (s.testCell u c.val).isSome && showsClosed exp v | none => false
          let enter (t : BalTest) (m : BitVec 16) : State :=
            (s.onInteg u (fun i => { i with test := some { t with since := s.now } })).driveMask u m arg
          if ph = .pre then
            if stuck then enter { t with vPre := vbr, phase := .opened } 0
            else enter { t with vPre := vbr, phase := .closed } (BitVec.ofNat 16 (2 ^ c.val))
          else if ph = .closed then enter { t with vOn := vbr, phase := .opened } 0
          else (s.switchResult u c (switchOutcome (s.testCell u c.val) exp t.vPre t.vOn vbr)).nextSwitch u t
    | none => s)

/-- BAL_TEST_SCHEDULE (05 R173): every BT_INTERVAL minutes the next unit in ascending order is tested, one at a time. -/
def execBalTestSchedule (s : State) : Host.Outcome State Fault Refusal :=
  answer s (
    let busy := (places 128).any (fun u => match (s.uint.at u).test with | some t => t.sched | none => false)
    let ready (u : Fin 128) : Bool := s.swept u && s.isMc16 u && (s.uint.at u).test.isNone && (s.ulink.at u).delivering
    let order := (places 128).filter (fun u => s.integ.schedNext ≤ u.val) ++ (places 128).filter (fun u => u.val < s.integ.schedNext)
    if s.integ.btInterval ≠ 0 ∧ busy = false ∧ s.integ.schedAt + s.integ.btInterval * 60 * ticksPerS ≤ s.now then
      match order.find? ready with
      | some u =>
        ({ s with integ := { s.integ with schedNext := (u.val + 1) % 128, schedAt := s.now } }).startTest u 0xFFFF true none
      | none => s
    else s)

-- What takes a unit away from its probes and tests (05 R164, R172, R175).

/-- The unit becomes unreached: probes of it end INCONCLUSIVE, a test's remaining switches too (05 R164, R172). The device's
own waiting probes stay. -/
def State.loseProbes (s : State) (u : Fin 128) : State :=
  let none_ (q : Probe) : List (Fin 16 × Nat × Nat) := q.wires.map (fun w => (w, 2, 0))
  let isCmd (q : ProbeReq) : Bool := q.unit == u && (match q.probe.why with | .command _ _ => true | _ => false)
  let waiting := s.integ.probeQ.filter isCmd
  let s := { s with integ := { s.integ with
    probeQ := s.integ.probeQ.filter (fun q => !isCmd q && !(q.unit == u && q.probe.why == ProbeWhy.startup)) } }
  let s : State := match (s.uint.at u).test with
    | some t =>
      let s := t.todo.foldl (fun s c => s.switchResult u c 5) s
      let s := if t.phase = .waiting then s
        else s.onSweep u (fun w => w.endBorrow (BitVec.ofNat 24 (2 ^ t.slot)) t.from_ s.frame)
      s.finishTest u t
    | none => s
  let s : State := match (s.uint.at u).probe with
    | some q => s.endProbe u q (none_ q) true
    | none => s
  waiting.foldl (fun s q => s.endProbe u q.probe (none_ q.probe) true) s

/-- At Stabled entry every pending suspect, probe and test is abandoned without an outcome (05 R175). -/
def State.abandonProbes (s : State) : State :=
  let cmdOf (p : Probe) : List Cmd := match p.why with | .command _ c => [c] | _ => []
  let queued := s.integ.probeQ.flatMap (fun q => cmdOf q.probe)
  let s := { s with integ := { s.integ with probeQ := [] } }
  let s := (places 128).foldl (fun s u =>
    let i := s.uint.at u
    let cmds := (match i.probe with | some p => cmdOf p | none => []) ++
      (match i.test with | some t => t.cmd.toList | none => [])
    let held := i.probe.isSome || i.test.isSome
    let s := s.onInteg u (fun i => { i with
      suspW := 0, probe := none, test := none, evals := [], wires := i.wires.each (fun _ h => { h with retryAt := none, inconcl := 0 })
      warn := { i.warn with since := none, absent := none }, fail := { i.fail with since := none, absent := none } })
    let s := if held then s.releaseMask u else s
    s.completeAll cmds stCancelled) s
  s.completeAll queued stCancelled

-- Commands (05 R176 to R178).

/-- The unit that a command names as an MC16 in the adopted roster of a stall in a string (05 R176). -/
def State.namedMc16 (s : State) (stall unit : Nat) : Option (Fin 128) :=
  if h : stall < 32 ∧ unit < 4 then
    let u := unitPos ⟨stall, h.1⟩ ⟨unit, h.2⟩
    if (s.strOf u).isSome && s.isMc16 u then some u else none
  else none

/-- The unit's string has a contactor channel commanded on, or is treated as possibly welded. -/
def State.unitHeld (s : State) (u : Fin 128) : Bool :=
  match s.strOf u with
  | some str => s.strHeld str
  | none => false

/-- A command's probe already holds or waits for the unit (05 R176). -/
def State.commandProbe (s : State) (u : Fin 128) : Bool :=
  let isCmd (p : Probe) : Bool := match p.why with | .command _ _ => true | _ => false
  (match (s.uint.at u).probe with | some p => isCmd p | none => false) ||
  s.integ.probeQ.any (fun q => q.unit == u && isCmd q.probe)

/-- OPEN_WIRE_PROBE (0x49; 05 R176, R178). -/
def execOpenWireProbe (c : Cmd) (s : State) : Host.Outcome State Fault Refusal :=
  answer s (s.run c false (fun s =>
    let mode := opByte c 2
    let w := opByte c 3
    match s.namedMc16 (opByte c 0) (opByte c 1) with
    | none => s.badOperand c
    | some u =>
      let wire := idx 16 (by decide) w
      if 2 < mode ∨ (mode ≠ 1 ∧ (w < 1 ∨ 15 < w)) ∨ (mode = 2 ∧ (s.uint.at u).broken.getLsbD (w - 1) = false) then s.badOperand c
      else if s.outOfService u then s.refuse c 0x0302
      else if mode = 2 ∧ s.unitHeld u then s.refuse c 0x0501
      else if s.swept u = false then s.refuse c 0x0502
      else if s.commandProbe u then s.busy c
      else
        let why := ProbeWhy.command (BitVec.ofNat 8 mode) c
        s.queueProbe u (if mode = 1 then fullProbe why else singleProbe why wire)))

/-- BAL_TEST FUNC 0 (05 R177): a test of one unit. -/
def balTestRun (c : Cmd) (s : State) : State :=
  let mask := BitVec.ofNat 16 (opField c 2 2)
  match s.namedMc16 (opByte c 0) (opByte c 1) with
  | none => s.badOperand c
  | some u =>
    if mask = 0 then s.badOperand c
    else if s.outOfService u then s.refuse c 0x0302
    else if s.swept u = false then s.refuse c 0x0502
    else if (s.uint.at u).invStack = 0xFFFF then s.refuse c 0x0503
    else if (s.uint.at u).test.isSome then s.busy c
    else s.startTest u mask false (some c)

/-- BAL_TEST FUNC 2 (05 R177): the integrity thresholds. -/
def balTestThresholds (c : Cmd) (s : State) : State :=
  let ow := opField c 6 2
  let sf := opField c 8 2
  if ow < 10 ∨ 1000 < ow ∨ sf < 9 ∨ 1000 < sf then s.badOperand c
  else if (s.integ.owThresh < ow ∨ s.integ.stackFail < sf) ∧ (places 4).any s.strHeld then s.refuse c 0x0504
  else ({ s with integ := { s.integ with owThresh := ow, stackFail := sf } }).ok c

/-- BAL_TEST (0x48; 05 R177, R178). -/
def execBalTest (c : Cmd) (s : State) : Host.Outcome State Fault Refusal :=
  answer s (s.run c false (fun s =>
    let f := opByte c 4
    if f = 0 then balTestRun c s
    else if f = 1 then
      if 1440 < opField c 6 2 then s.badOperand c
      else ({ s with integ := { s.integ with btInterval := opField c 6 2, schedAt := s.now } }).ok c
    else if f = 2 then balTestThresholds c s
    else s.badOperand c))

-- Registers.

/-- `INTEG_STAT` of a unit. -/
def State.integStat (s : State) (u : Fin 128) : Word :=
  let i := s.uint.at u
  BitVec.ofNat 32 (i.wireChk.toNat + 8 * bit i.warn.on + 16 * bit i.fail.on + 32 * bit i.probe.isSome + 64 * bit i.test.isSome +
    65536 * i.broken.toNat)

/-- `CELL_AGE` of a unit. -/
def State.cellAgeWord (s : State) (u : Fin 128) : Word :=
  let age := (places 16).foldl (fun m c => if s.cellInvalid u c.val then m else max m (s.cellAge u c)) 0
  let inv := (places 16).foldl (fun m c => if s.cellInvalid u c.val then max m (s.invAge u c) else m) 0
  let ms := if s.isMc16 u && !s.outOfService u then age / ticksPerMs else 0
  BitVec.ofNat 32 (min 0xFFFF ms + 65536 * min 0xFFFF (inv / ticksPerS))

/-- `STRING_AGEs` of a string. -/
def State.stringAge (s : State) (str : Fin 4) : Word :=
  let x := s.strs.at str
  let inv := ((s.mc16sOf str).map (fun u => ((places 16).filter (fun c => s.cellInvalid u c.val)).length)).sum
  BitVec.ofNat 32 (min 0xFFFF (s.dataAge str / ticksPerMs) + 65536 * inv + 2 ^ 27 * bit (x.ageC || x.curC) +
    2 ^ 28 * bit (x.ageB || x.curB) + 2 ^ 29 * bit (s.openWire str) + 2 ^ 30 * bit (s.btStuck str))

end Sys2Proof.Machine
end

