-- ==== Sys2Proof/Machine/Calibration.lean ====
section
/-! DEFINITION. Calibration (chapter 12): the sections and their copies in MRAM, generations, live runs, the drift watch, shunt runs, and the commands. -/

namespace Sys2Proof.Machine

-- Sections (12 R347, R348).

/-- Offset in MRAM of copy `c` of the device section. -/
def deviceCopyAt (c : Nat) : Nat := 0xE00000 + 0x2000 * c

/-- Offset in MRAM of copy `c` of a unit entry. -/
def unitCopyAt (u : Fin 128) (c : Nat) : Nat := 0xE04000 + 2048 * u.val + 1024 * c

/-- A device section is valid: MAGIC and CRC match. -/
def deviceSectionOk (b : List Byte) : Bool := field b 0 4 == 0x43414C44 && field b 8 4 == (crc32c (b.drop 0x10)).toNat

/-- The bytes that a unit entry's CRC covers. -/
def unitCovered (b : List Byte) : List Byte := (b.drop 4).take 16 ++ b.drop 0x18

/-- A unit entry is valid: MAGIC and CRC match. -/
def unitEntryOk (b : List Byte) : Bool := field b 0 4 == 0x43414C55 && field b 0x14 4 == (crc32c (unitCovered b)).toNat

/-- Of two copies with their validity and SEQ: the one to write, and the SEQ that it gets (12 R348). A copy that is not valid
counts as the lower. -/
def copyToWrite (ok0 ok1 : Bool) (seq0 seq1 : Nat) : Nat × Nat :=
  let (a, b) := (if ok0 then seq0 else 0, if ok1 then seq1 else 0)
  if !ok0 then (0, (b + 1) % 2 ^ 32) else if !ok1 then (1, (a + 1) % 2 ^ 32)
  else if a ≤ b then (0, (b + 1) % 2 ^ 32) else (1, (a + 1) % 2 ^ 32)

/-- The copy that is used (12 R348): the valid one with the higher SEQ. -/
def copyToUse (ok0 ok1 : Bool) (seq0 seq1 : Nat) : Option Nat :=
  match ok0, ok1 with
  | false, false => none
  | true, false => some 0
  | false, true => some 1
  | true, true => if seq1 ≤ seq0 then some 0 else some 1

/-- The two copies of a unit entry as they read now. -/
def State.unitCopies (s : State) (u : Fin 128) : List Byte × List Byte :=
  (s.mramRead (unitCopyAt u 0) 1024, s.mramRead (unitCopyAt u 1) 1024)

/-- The two copies of the device section. -/
def State.deviceCopies (s : State) : List Byte × List Byte :=
  (s.mramRead (deviceCopyAt 0) 0x2000, s.mramRead (deviceCopyAt 1) 0x2000)

/-- A unit entry with MAGIC, SEQ and CRC. -/
def sealUnit (body : List Byte) (seq : Nat) : List Byte :=
  let b := splice (splice (padTo 1024 body) 0 (leBytes 4 0x43414C55)) 0x10 (leBytes 4 seq)
  splice b 0x14 (bvBytes 4 (crc32c (unitCovered b)))

/-- A device section with MAGIC, SEQ and CRC, from its body (bytes 0x010 to 0x1FFF). -/
def sealDevice (body : List Byte) (seq : Nat) : List Byte :=
  leBytes 4 0x43414C44 ++ leBytes 4 seq ++ bvBytes 4 (crc32c body) ++ [0, 0, 0, 0] ++ body

/-- The device body while nominal values apply (12 R348, R500): gain 1, offset 0, the generic curve in every table. -/
def nominalBody (d : CalDev) : List Byte :=
  let pair := leBytes 4 0x3F800000 ++ leBytes 4 0
  let curve := (d.thermistor 0).flatMap (fun p => sBytes 4 p.1 ++ sBytes 4 p.2)
  let gains := (List.replicate 34 pair).flatten
  padTo 0x1FF0 (padTo 0x3F0 gains ++ curve ++ curve ++ curve ++ curve)

/-- The device body in use. -/
def CalDev.body (d : CalDev) : List Byte := d.device.getD (nominalBody d)

/-- DEV_CHANGED (12 R350). -/
def CalDev.judge (d : CalDev) : CalDev := { d with devChanged := sha512 d.body != leBytes 64 Config.factoryDigest.toNat }

/-- The set digest (12 R350). -/
def State.setDigest (s : State) : List Byte :=
  sha512 (s.cal.body ++ (places 128).flatMap (fun u => match (s.ucal.at u).entry with
    | some e => slice e 0x4 12 ++ slice e 0x20 992
    | none => List.replicate 1004 0))

/-- Whether codewords of an MRAM range still wait in the CAL lane. -/
def State.calWaits (s : State) (base len : Nat) : Bool :=
  s.mem.queue.cal.any (fun w => decide (base ≤ w.addr) && decide (w.addr < base + len))

-- Changes of a unit entry (12 R353, R360).

/-- The newest bytes of a unit's entry, those that wait for their sweep start included. -/
def UnitCal.newest (x : UnitCal) : Option (List Byte) :=
  match x.switchQ.getLast? with
  | some p => some p.entry
  | none => x.entry

/-- The generation that the next change gets. -/
def UnitCal.nextGen (x : UnitCal) : BitVec 8 :=
  match x.switchQ.getLast? with
  | some p => p.entry.getD 6 0 + 1
  | none => x.gen + 1

/-- The unit's section was written within the last 60 s (12 R360). -/
def State.recentUnit (s : State) (u : Fin 128) : Bool :=
  match (s.ucal.at u).writtenAt with
  | some t => decide (s.now < t + 60 * ticksPerS)
  | none => false

/-- The device section was written within the last 60 s. -/
def State.recentDevice (s : State) : Bool :=
  match s.cal.devAt with
  | some t => decide (s.now < t + 60 * ticksPerS)
  | none => false

/-- An entry enters the CAL lane, body first and header last (12 R348, R353). -/
def State.writeEntry (s : State) (u : Fin 128) (body : List Byte) (source : Nat) (cmds : List Cmd) (result : BitVec 4)
    (write : Bool) : State :=
  let (c0, c1) := s.unitCopies u
  let (c, seq) := copyToWrite (unitEntryOk c0) (unitEntryOk c1) (field c0 0x10 4) (field c1 0x10 4)
  let entry := sealUnit (splice body 5 [BitVec.ofNat 8 source, (s.ucal.at u).nextGen]) seq
  let base := unitCopyAt u c
  let s := (s.mramStore (base + 0x20) (entry.drop 0x20)).mramStore (base + 0x10) (slice entry 0x10 16)
  let s := s.mramStore base (entry.take 16)
  s.onCal u (fun x => { x with
    switchQ := x.switchQ ++ [{ entry := entry, base := base, cmds := cmds, result := result, write := write }]
    writtenAt := some s.now })

/-- The MX9 configures a unit (03 R96 step 6, R107; 04 R125, R132, R137): its rate and slot list are loaded, and it is swept
from frame `first` on; a wire check is due unless this is a check cycle (05 R166). -/
def State.configureUnit (s : State) (u : Fin 128) (first : Nat) : State :=
  let w := s.uswp.at u
  let codes := if s.isMp4 u then (List.range 8).map (fun k => BitVec.ofNat 8 (0x80 + k))
    else if w.cfgList.isEmpty then (List.range 21).map (BitVec.ofNat 8) else w.cfgList
  let rate := s.rateNow u
  let s := s.restartHistory u first codes rate
  let s := s.onSweep u (fun w => { w with aligned := {}, averaged := {}, alHist := [], now := [], chkOut := Bank.fill 16 0, chkSweeps := 0, chkUw := false })
  let s := s.onLink u (fun l => { l with sweepFrom := some first, missRun := 0, gotSweep := false, gotCurrent := false, stale := true })
  let s := s.queueLink (stallOf u) [{ bcast := false, addr := unitOf u, cmd := 5, arg := rate.setWidth 32 }]
  if s.isMc16 u then
    let s := s.queueLink (stallOf u) (slotListCmds (unitOf u) codes)
    let check := match s.pwr.wake with | some k => k.check | none => false
    if check then s.onLink u (fun l => { l with delivering := true }) else s.startWireCheck u
  else s

/-- The first 8-frame boundary that lies at least 8 frames after a frame. -/
def firstAfter (f : Nat) : Nat := boundary8 (f + 8)

/-- CAL_GENERATION_SWITCH (12 R353): the oldest written entry is in MRAM, and the unit's next sweep starts. -/
def execCalGenerationSwitch (u : Fin 128) (s : State) : Host.Outcome State Fault Refusal :=
  answer s (match (s.ucal.at u).switchQ with
    | [] => s
    | p :: rest =>
      if s.calWaits p.base 1024 then s
      else
        let n := framesOf (s.rateNow u)
        let from_ := (s.frame + n - 1) / n * n
        let gen := p.entry.getD 6 0
        let first := (s.ucal.at u).entry.isNone
        let s := s.onCal u (fun x => { x with
          switchQ := rest, olds := (({ from_ := x.genFrom, gen := x.gen, entry := x.entry } : OldGen) :: x.olds).take 5
          genFrom := if first then 0 else from_, gen := gen, entry := some p.entry })
        let s := s.restartWindow u from_
        let s := if p.write then
            { (s.studbook 0x0C u.val [3, 1, gen]) with evt := { s.evt with cal := setBit s.evt.cal 3 } }
          else s
        let s := s.completeAll p.cmds stSuccess (if p.write then dwords gen.toNat 0 0 0 else dwords 1 gen.toNat 0 0)
        if first ∧ (s.ulink.at u).sweepFrom.isNone ∧ s.sweepable u then s.configureUnit u (firstAfter s.frame) else s)

-- Live runs (12 R354 to R356).

/-- A live run begins for the commands that wait for it; it waits while a test holds reference B (11 R343). -/
def State.startRun (s : State) (u : Fin 128) (cmds : List Cmd) : State :=
  let run : LiveRun := { ch := 0, skip := 2, len := s.cal.runSweeps, a := {}, b := {}, done := [], tempSum := 0, tempN := 0,
                         cmds := cmds, routeAt := none }
  let s := s.onCal u (fun x => { x with run := some run, runDue := false })
  match (s.uint.at u).test with
  | some t => if t.phase ≠ .waiting ∧ s.refHeld u t then s else s.routeRun u
  | none => s.routeRun u

/-- One more code of a series; none is lost. -/
def ChanStat.add (x : ChanStat) (code : Option Int) : ChanStat :=
  match code with
  | some v => { x with n := x.n + 1, sum := x.sum + v, sq := x.sq + v * v }
  | none => { x with lost := x.lost + 1 }

/-- The codes of both references in a sweep of a unit under a live run (12 R354). -/
def State.runSweep (s : State) (u : Fin 128) (start : Nat) (a b : Option Int) : State :=
  match (s.ucal.at u).run with
  | none => s
  | some r =>
    match r.routeAt with
    | none => s
    | some f =>
      if start ≤ f ∨ r.a.n + r.a.lost = r.len then s
      else if 0 < r.skip then s.onCal u (fun x => { x with run := some { r with skip := r.skip - 1 } })
      else s.onCal u (fun x => { x with run := some { r with
        a := r.a.add a, b := r.b.add b, tempSum := r.tempSum + s.tempOf u, tempN := r.tempN + 1 } })

/-- The mean of a series. -/
def ChanStat.mean (x : ChanStat) : Rat := (x.sum : Rat) / ((x.n : Nat) : Rat)

/-- The square of the standard deviation of a series. -/
def ChanStat.variance (x : ChanStat) : Rat := (x.sq : Rat) / ((x.n : Nat) : Rat) - x.mean * x.mean

/-- What one channel of a run gives (12 R355): new gain and offset, and whether the change is within its limits. -/
structure RunChannel where
  g   : Rat
  o   : Rat
  far : Bool
deriving DecidableEq, Repr

/-- Channel `c` of a run at the mean temperature `tu`. -/
def runChannel (entry : List Byte) (c : Nat) (st : ChanStat × ChanStat) (tu : Rat) : RunChannel :=
  let (g, o, tc) := calInput entry c
  let tf := tempFactor tc tu
  let unit : Rat := if c = 0x10 then 10 else 1
  let va := vRef entry 0x104 tu / unit
  let vb := vRef entry 0x108 tu / unit
  let (ma, mb) := (st.1.mean, st.2.mean)
  let g' := (vb - va) / (mb - ma) / tf
  let o' := ma - va / (g' * tf)
  let off (m v : Rat) : Bool := decide (5000 < unit * ratAbs (g * (m - o) * tf - v))
  { g := g', o := o', far := decide (ma = mb) || decide (1 / 100 < ratAbs (g' / g - 1)) || off ma va || off mb vb }

/-- The outcome of a run that has all its channels (12 R355). -/
def runOutcome (len : Nat) (done : List (ChanStat × ChanStat)) (chans : List RunChannel) : BitVec 4 :=
  if done.any (fun d => decide (len < 8 * d.1.lost) || decide (len < 8 * d.2.lost)) then 4
  else if done.any (fun d => decide (256 < d.1.variance) || decide (256 < d.2.variance)) then 3
  else if chans.any RunChannel.far then 2
  else 1

/-- The entry with the gains and offsets of a run. -/
def runEntry (entry : List Byte) (chans : List RunChannel) : List Byte :=
  chans.zipIdx.foldl (fun e p => splice e (0x20 + 12 * p.2) (f32Bytes p.1.g ++ f32Bytes p.1.o)) entry

/-- A result is written (12 R353, R355). -/
def State.applyRun (s : State) (u : Fin 128) (body : List Byte) (cmds : List Cmd) : State :=
  let s := s.onCal u (fun x => { x with result := 1, appliedAt := some s.now, deferred := none })
  let s := { s with evt := { s.evt with cal := setBit s.evt.cal 0 } }
  s.writeEntry u body 2 cmds 1 false

/-- A live run is evaluated after its last channel (12 R355, R360). -/
def State.evaluateRun (s : State) (u : Fin 128) (r : LiveRun) : State :=
  match (s.ucal.at u).newest with
  | none => s.endRun u 5
  | some entry =>
    let tu := (r.tempSum : Rat) / ((r.tempN : Nat) : Rat)
    let chans := r.done.zipIdx.map (fun p => runChannel entry p.2 p.1 tu)
    let out := runOutcome r.len r.done chans
    if out ≠ 1 then s.endRun u out
    else
      let s := s.stopRouting u
      let body := runEntry entry chans
      let s := s.onCal u (fun x => { x with run := none, lastRunAt := some s.now })
      let s := if s.recentUnit u then
          s.onCal u (fun x => { x with deferred := some { entry := body, base := 0, cmds := r.cmds, result := 1, write := false } })
        else s.applyRun u body r.cmds
      s.resumeTest u

/-- LIVE_RUN_CHANNEL_DONE (12 R354). -/
def execLiveRunChannelDone (u : Fin 128) (s : State) : Host.Outcome State Fault Refusal :=
  answer s (match (s.ucal.at u).run with
    | some r =>
      if r.skip = 0 ∧ r.a.n + r.a.lost = r.len then
        let r := { r with done := r.done ++ [(r.a, r.b)] }
        if r.ch = 0x12 then s.evaluateRun u r
        else
          (s.onCal u (fun x => { x with run := some { r with ch := r.ch + 1, skip := 2, a := {}, b := {} } })).sendRouting u
            (some (r.ch + 1))
      else s
    | none => s)

/-- CAL_ROUTING_RENEW (12 R351): every 32 frames. -/
def execCalRoutingRenew (u : Fin 128) (s : State) : Host.Outcome State Fault Refusal :=
  answer s (match (s.ucal.at u).run with
    | some r => if r.routeAt.isSome then s.sendRouting u (some r.ch) else s
    | none => s)

/-- CAL_DEFERRED_WRITE (12 R360): a held result is written once 60 s have passed since the previous write to its section. -/
def execCalDeferredWrite (u : Fin 128) (s : State) : Host.Outcome State Fault Refusal :=
  answer s (
    if s.recentUnit u then s
    else match (s.ucal.at u).deferred with
      | some p => s.applyRun u p.entry p.cmds
      | none =>
        match s.strOf u with
        | some str =>
          if s.mp4Of str = some u then
            match (s.strcal.at str).deferred with
            | some (gain, p) =>
              let s := { s with strcal := s.strcal.upd str (fun x => { x with
                deferred := none, ofsResult := if gain then x.ofsResult else 1, gainResult := if gain then 1 else x.gainResult
                ofsAt := if gain then x.ofsAt else some s.now }) }
              s.writeEntry u p.entry 4 p.cmds 1 false
            | none => s
          else s
        | none => s)

-- The drift watch (12 R357).

/-- What a swept MC16's references add to the running second. -/
def State.driftSweep (s : State) (u : Fin 128) (a b : Option Int) : State :=
  s.onCal u (fun x => { x with
    secA := x.secA + a.getD 0, cntA := x.cntA + bit a.isSome, secB := x.secB + b.getD 0, cntB := x.cntB + bit b.isSome
    cntAll := x.cntAll + 1 })

/-- The unit's previous run lies less than 10 min back (12 R357). -/
def State.runEarly (s : State) (u : Fin 128) : Bool :=
  match (s.ucal.at u).lastRunAt with
  | some t => decide (s.now < t + 600 * ticksPerS)
  | none => false

/-- A CAL_DRIFT record's errors. -/
def driftBytes (a b : Int) : List Byte := sBytes 2 a ++ sBytes 2 b

/-- DRIFT_EVALUATION (12 R357). -/
def execDriftEvaluation (u : Fin 128) (s : State) : Host.Outcome State Fault Refusal :=
  answer s (
    let x := s.ucal.at u
    let s := s.onCal u (fun x => { x with secA := 0, secB := 0, cntA := 0, cntB := 0, cntAll := 0 })
    match x.entry with
    | some e =>
      if s.swept u = false ∨ s.isMc16 u = false ∨ x.cntA = 0 ∨ x.cntB = 0 ∨ 2 * x.cntA < x.cntAll ∨ 2 * x.cntB < x.cntAll then s
      else
        let tu : Rat := s.tempOf u
        let ea := (x.secA : Rat) / ((x.cntA : Nat) : Rat) - vRef e 0x104 tu
        let eb := (x.secB : Rat) / ((x.cntB : Nat) : Rat) - vRef e 0x108 tu
        let uv : Rat := s.cal.driftUv
        let high := decide (uv < ratAbs ea) || decide (uv < ratAbs eb)
        let low := decide (ratAbs ea ≤ 3 / 4 * uv) && decide (ratAbs eb ≤ 3 / 4 * uv)
        let (ia, ib) := (clampInt (-32768) 32767 (roundFree ea), clampInt (-32768) 32767 (roundFree eb))
        let n := if high then x.driftRun + 1 else 0
        let m := if low then x.clearRun + 1 else 0
        let rise := !x.drift && decide (3 ≤ n)
        let s := s.onCal u (fun x => { x with
          errA := ia, errB := ib, driftRun := n, clearRun := m
          drift := if rise then true else if x.drift && decide (10 ≤ m) then false else x.drift })
        if rise then
          let s := ({ s with evt := { s.evt with cal := setBit s.evt.cal 1 } }).studbook 0x25 u.val (driftBytes ia ib)
          if s.cal.driftAuto = false ∨ s.runHolds u then s
          else if s.runEarly u then s.onCal u (fun x => { x with runDue := true })
          else s.startRun u []
        else s
    | none => s)

/-- DRIFT_RUN_DEFERRED_START (12 R357): a run that DRIFT started begins once 10 min have passed since the unit's previous run. -/
def execDriftRunDeferredStart (u : Fin 128) (s : State) : Host.Outcome State Fault Refusal :=
  answer s (
    if (s.ucal.at u).runDue ∧ s.runEarly u = false ∧ s.runHolds u = false ∧ s.swept u then s.startRun u [] else s)

-- Shunt runs (12 R358, R359).

/-- A shunt run begins. -/
def State.startShunt (s : State) (str : Fin 4) (gain : Bool) (iRef : Int) (secs : Nat) (cmd : Option Cmd) : State :=
  let run : ShuntRun := { gain := gain, since := s.frame, len := 8000 * secs, main := {}, check := {}, iRef := iRef, cmd := cmd }
  { s with strcal := s.strcal.upd str (fun x => { x with run := some run, autoAt := some s.now }) }

/-- The currents of frame `g` reach a shunt run: a saturated code is lost (12 R358). -/
def State.shuntFrame (s : State) (str : Fin 4) (g : Nat) (m c : BitVec 18) : State :=
  match (s.strcal.at str).run with
  | some r =>
    if g < r.since ∨ r.since + r.len ≤ g then s
    else
      let code (v : BitVec 18) : Option Int := if codeSaturated v then none else some v.toInt
      { s with strcal := s.strcal.upd str (fun x => { x with run := some { r with main := r.main.add (code m), check := r.check.add (code c) } }) }
  | none => s

/-- A shunt run has all its frames: the last of them has had time to arrive (03 R93). -/
def State.shuntOver (s : State) (r : ShuntRun) (u : Fin 128) : Bool := decide (r.since + r.len + (unitOf u).val + 1 ≤ s.frame)

/-- Changes nothing, and says so (12 R355, R361). -/
def State.shuntFailed (s : State) (str : Fin 4) (u : Fin 128) (r : ShuntRun) (out : BitVec 4) : State :=
  let s := { s with
    strcal := s.strcal.upd str (fun x => { x with
      run := none, ofsResult := if r.gain then x.ofsResult else out, gainResult := if r.gain then out else x.gainResult })
    evt := { s.evt with cal := setBit s.evt.cal 2 } }
  (s.studbook 0x0C u.val [4, out.setWidth 8, (s.ucal.at u).gen]).completeAll r.cmd.toList stRefused (dwords 0x0C05 out.toNat 0 0)

/-- A shunt run's new entry is written, or waits for its 60 s (12 R353, R360). A gain run has a record (R359). -/
def State.shuntApplied (s : State) (str : Fin 4) (u : Fin 128) (r : ShuntRun) (body : List Byte) : State :=
  let s := { s with
    strcal := s.strcal.upd str (fun x => { x with run := none })
    evt := { s.evt with cal := setBit s.evt.cal 2 } }
  let s := if r.gain then s.studbook 0x0C u.val [4, 1, (s.ucal.at u).nextGen] else s
  if s.recentUnit u then
    let p : PendEntry := { entry := body, base := 0, cmds := r.cmd.toList, result := 1, write := false }
    { s with strcal := s.strcal.upd str (fun x => { x with deferred := some (r.gain, p) }) }
  else
    let s := { s with strcal := s.strcal.upd str (fun x => { x with
      ofsResult := if r.gain then x.ofsResult else 1, gainResult := if r.gain then 1 else x.gainResult
      ofsAt := if r.gain then x.ofsAt else some s.now }) }
    s.writeEntry u body 4 r.cmd.toList 1 false

/-- The outcome of an offset run (12 R358): the new offsets are the mean codes. -/
def offsetOutcome (entry : List Byte) (tu : Rat) (r : ShuntRun) : BitVec 4 :=
  let ma (k : Nat) : Rat := (calInput entry k).1 * tempFactor (calInput entry k).2.2 tu
  let ofs (k : Nat) : Rat := (calInput entry k).2.1
  let lost (x : ChanStat) : Bool := decide (1000 < r.len - x.n)
  let noisy (k : Nat) (x : ChanStat) : Bool := decide (250000 < x.variance * ma k * ma k)
  let far (k : Nat) (x : ChanStat) : Bool := decide (5000 < ratAbs ((x.mean - ofs k) * ma k))
  if lost r.main || lost r.check then 4
  else if noisy 0 r.main || noisy 1 r.check then 3
  else if far 0 r.main || far 1 r.check then 2
  else 1

/-- SHUNT_OFFSET_RUN_END (12 R358). -/
def execShuntOffsetRunEnd (str : Fin 4) (s : State) : Host.Outcome State Fault Refusal :=
  answer s (match (s.strcal.at str).run, s.mp4Of str with
    | some r, some u =>
      if r.gain = false ∧ s.shuntOver r u then
        match (s.ucal.at u).newest with
        | some e =>
          let out := offsetOutcome e (s.tempOf u) r
          if out = 1 then
            s.shuntApplied str u r (splice (splice e 0x24 (f32Bytes r.main.mean)) 0x30 (f32Bytes r.check.mean))
          else s.shuntFailed str u r out
        | none => s.shuntFailed str u r 4
      else s
    | _, _ => s)

/-- The factor of a gain run for input `k` (12 R359): I_REF divided by the mean of the offset-corrected current. -/
def gainFactor (entry : List Byte) (tu : Rat) (k : Nat) (iRef : Int) (x : ChanStat) : Option Rat :=
  let (g, o, tc) := calInput entry k
  let m := g * (x.mean - o) * tempFactor tc tu
  if x.n = 0 ∨ m = 0 then none
  else
    let f := (iRef : Rat) / m
    if f < 95 / 100 ∨ 105 / 100 < f then none else some f

/-- SHUNT_GAIN_RUN_END (12 R359). -/
def execShuntGainRunEnd (str : Fin 4) (s : State) : Host.Outcome State Fault Refusal :=
  answer s (match (s.strcal.at str).run, s.mp4Of str with
    | some r, some u =>
      if r.gain ∧ s.shuntOver r u then
        match (s.ucal.at u).newest with
        | some e =>
          let tu : Rat := s.tempOf u
          match gainFactor e tu 0 r.iRef r.main, gainFactor e tu 1 r.iRef r.check with
          | some f, some h =>
            s.shuntApplied str u r
              (splice (splice e 0x20 (f32Bytes ((calInput e 0).1 * f))) 0x2C (f32Bytes ((calInput e 1).1 * h)))
          | _, _ => s.shuntFailed str u r 2
        | none => s.shuntFailed str u r 2
      else s
    | _, _ => s)

/-- SHUNT_AUTO_START (12 R358): 2 s after each entry to OPEN, then every 600 s. -/
def execShuntAutoStart (str : Fin 4) (s : State) : Host.Outcome State Fault Refusal :=
  answer s (
    let x := s.strcal.at str
    let due : Bool := match x.autoAt with
      | some t => decide (t + 600 * ticksPerS ≤ s.now)
      | none => decide (x.openedAt + 2 * ticksPerS ≤ s.now)
    if s.cal.shuntAuto ∧ due ∧ s.usedStr str ∧ s.strSt str = .opened ∧ x.run.isNone ∧ x.deferred.isNone ∧ (s.mp4Of str).isSome then
      s.startShunt str false 0 1 none
    else s)

-- CAL_RUN (12 R361).

/-- FUNC 0: a live run on a unit, or joining the one that holds it. -/
def calRunLive (c : Cmd) (s : State) : State :=
  match s.namedMc16 (opByte c 1) (opByte c 2) with
  | none => s.badOperand c
  | some u =>
    if s.outOfService u then s.refuse c 0x0302
    else if s.swept u = false then s.refuse c 0x0C04
    else match (s.ucal.at u).run, (s.ucal.at u).deferred with
      | some r, _ => s.onCal u (fun x => { x with run := some { r with cmds := r.cmds ++ [c] } })
      | none, some p => s.onCal u (fun x => { x with deferred := some { p with cmds := p.cmds ++ [c] } })
      | none, none => if s.recentUnit u then s.refuse c 0x0C03 else s.startRun u [c]

/-- FUNC 1 and 2: a shunt run on a string. -/
def calRunShunt (c : Cmd) (gain : Bool) (s : State) : State :=
  let iRef := opSigned c 4 4
  let secs := opByte c 8
  if h : opByte c 1 < 4 then
    let str : Fin 4 := ⟨opByte c 1, h⟩
    let x := s.strcal.at str
    let oos := match s.mp4Of str with | some u => s.outOfService u | none => false
    let recent := match s.mp4Of str with | some u => s.recentUnit u | none => false
    if s.usedStr str = false ∨ (gain ∧ (iRef.natAbs < 10000 ∨ secs < 1 ∨ 60 < secs)) then s.badOperand c
    else if oos then s.refuse c 0x0302
    else if x.run.isSome ∨ x.deferred.isSome then s.busy c
    else if s.strSt str ≠ .opened then s.refuse c 0x0C02
    else if recent then s.refuse c 0x0C03
    else
      let auto := x.autoAt
      let s := s.startShunt str gain (if gain then iRef else 0) (if gain then secs else 1) (some c)
      { s with strcal := s.strcal.upd str (fun x => { x with autoAt := auto }) }
  else s.badOperand c

/-- FUNC 3: settings. -/
def calRunSettings (c : Cmd) (s : State) : State :=
  let uv := opField c 4 2
  let n := opField c 6 2
  if uv < 200 ∨ 5000 < uv ∨ n < 16 ∨ 1024 < n then s.badOperand c
  else
    ({ s with cal := { s.cal with
        driftAuto := (opByte c 1).testBit 0, shuntAuto := (opByte c 1).testBit 1, driftUv := uv, runSweeps := n } }).ok c

/-- CAL_RUN (0x0F; 12 R361). -/
def execCalRun (c : Cmd) (s : State) : Host.Outcome State Fault Refusal :=
  answer s (s.run c false (fun s =>
    let f := opByte c 0
    if f = 0 then calRunLive c s
    else if f = 1 then calRunShunt c false s
    else if f = 2 then calRunShunt c true s
    else if f = 3 then calRunSettings c s
    else s.badOperand c))

-- CAL_WRITE and CAL_READ (12 R362, R363).

/-- Offsets of the binary32 fields of a section: gains, then the others. -/
def sectionGains (unit mp4 : Bool) : List Nat :=
  if unit then (List.range (if mp4 then 6 else 19)).map (fun k => 0x20 + 12 * k)
  else (List.range 12).map (fun j => 0x10 + 8 * j) ++ (List.range 12).map (fun j => 0x70 + 8 * j) ++ [0xD0, 0xD8] ++
    (List.range 8).map (fun m => 0xE0 + 8 * m)

/-- The binary32 fields that are no gains. -/
def sectionFloats (unit mp4 : Bool) : List Nat :=
  if unit then (List.range (if mp4 then 6 else 19)).flatMap (fun k => [0x24 + 12 * k, 0x28 + 12 * k]) ++
    (if mp4 then [] else [0x104, 0x108, 0x10C] ++ (List.range 16).map (fun c => 0x110 + 4 * c))
  else (sectionGains false false).map (· + 4) ++ (List.range 12).map (fun n => 0x120 + 4 * n)

/-- The reserved ranges of a section. -/
def sectionReserved (unit mp4 : Bool) : List (Nat × Nat) :=
  if unit then (if mp4 then [(0x68, 0x150)] else []) ++ [(0x152, 0x400)] else [(0x150, 0x400), (0xC00, 0x2000)]

/-- Whether the bytes `lo` to `hi - 1` of a section touch the field of 4 bytes at `f`. -/
def touches (lo hi f : Nat) : Bool := decide (lo < f + 4) && decide (f < hi)

/-- Check 1 of R362 on the section as it would read: reserved bytes 0, numbers finite, gains positive. -/
def sectionWriteOk (unit mp4 : Bool) (section_ : List Byte) (lo hi : Nat) : Bool :=
  (sectionReserved unit mp4).all (fun r => zeroBytes section_ (max lo r.1) (max (max lo r.1) (min hi r.2))) &&
  (sectionGains unit mp4).all (fun f => !touches lo hi f || (match f32Field section_ f with | some g => decide (0 < g) | none => false)) &&
  (sectionFloats unit mp4).all (fun f => !touches lo hi f || (f32Field section_ f).isSome)

/-- A device write enters the CAL lane (12 R348, R353). -/
def State.writeDevice (s : State) (c : Cmd) (body : List Byte) : State :=
  let (c0, c1) := s.deviceCopies
  let (k, seq) := copyToWrite (deviceSectionOk c0) (deviceSectionOk c1) (field c0 4 4) (field c1 4 4)
  let base := deviceCopyAt k
  let s := (s.mramStore (base + 0x10) body).mramStore base ((sealDevice body seq).take 16)
  { s with cal := { s.cal with
      devAt := some s.now, devQ := some { entry := body, base := base, cmds := [c], result := 1, write := true } } }

/-- A device write whose codewords are all in MRAM applies (12 R353, R362). -/
def State.settleDevice (s : State) : State :=
  match s.cal.devQ with
  | some p =>
    if s.calWaits p.base 0x2000 then s
    else
      let s := { s with
        cal := ({ s.cal with device := some p.entry, devQ := none, devBad := false, devSeq := leNat (s.mramRead (p.base + 4) 4) }).judge
        evt := { s.evt with cal := setBit s.evt.cal 3 } }
      (s.studbook 0x0C 0xFF [3, 1, 0]).completeAll p.cmds stSuccess
  | none => s

/-- SECTION 0 of CAL_WRITE. -/
def calWriteDevice (c : Cmd) (off len : Nat) (data : List Byte) (s : State) : State :=
  let sect := splice (List.replicate 16 0 ++ ((s.cal.devQ.map PendEntry.entry).getD s.cal.body)) off (padTo len data)
  if off < 0x10 ∨ 0x2000 < off + len ∨ sectionWriteOk false false sect off (off + len) = false then s.badOperand c
  else if s.allOpen = false then s.refuse c 0x0C01
  else if s.recentDevice then s.refuse c 0x0C03
  else s.writeDevice c (sect.drop 16)

/-- SECTION 1 of CAL_WRITE. -/
def calWriteUnit (c : Cmd) (off len : Nat) (data : List Byte) (s : State) : State :=
  if h : opField c 2 2 < 128 then
    let u : Fin 128 := ⟨opField c 2 2, h⟩
    let old := ((s.ucal.at u).newest).getD []
    let sect := splice old off (padTo len data)
    let busyStr : Bool := match s.strOf u with
      | some str => (s.strcal.at str).run.isSome || (s.strcal.at str).deferred.isSome
      | none => false
    if off < 0x20 ∨ 0x400 < off + len ∨ sectionWriteOk true (s.isMp4 u) sect off (off + len) = false then s.badOperand c
    else if s.runHolds u ∨ busyStr then s.busy c
    else if (s.ucal.at u).entry.isNone then s.refuse c 0x0C04
    else if s.unitHeld u then s.refuse c 0x0C01
    else if s.recentUnit u then s.refuse c 0x0C03
    else s.writeEntry u sect 3 [c] 1 true
  else s.badOperand c

/-- CAL_WRITE (0x10; 12 R362). -/
def execCalWrite (c : Cmd) (data : List Byte) (s : State) : Host.Outcome State Fault Refusal :=
  answer s (s.run c false (fun s =>
    let off := opField c 4 4
    let len := opField c 0x10 4
    if len < 4 ∨ 4096 < len ∨ len % 4 ≠ 0 then s.badOperand c
    else if opByte c 0 = 0 then calWriteDevice c off len data s
    else if opByte c 0 = 1 then calWriteUnit c off len data s
    else s.badOperand c))

/-- CAL_READ (0x85; 12 R363). -/
def execCalRead (c : Cmd) (s : State) : Host.Outcome State Fault Refusal :=
  answer s (s.run c false (fun s =>
    let addr := opField c 8 8
    if h : opField c 2 2 < 128 then
      let u : Fin 128 := ⟨opField c 2 2, h⟩
      let body := s.cal.body
      let bytes : Option (List Byte) :=
        if opByte c 0 = 0 then
          some (if s.cal.device.isSome then sealDevice body s.cal.devSeq else List.replicate 16 0 ++ body)
        else if opByte c 0 = 1 then some (((s.ucal.at u).entry).getD (List.replicate 1024 0))
        else if opByte c 0 = 2 then some (leBytes 64 Config.factoryDigest.toNat ++ sha512 body ++ s.setDigest)
        else none
      match bytes with
      | some b => (s.toHost addr b).ok c (dwords b.length 0 0 0)
      | none => s.badOperand c
    else s.badOperand c))

-- Loading at an AON power-on (12 R348).

/-- The device section and the unit entries as they are found at an AON power-on. -/
def State.loadCalibration (s : State) : State :=
  let (d0, d1) := s.deviceCopies
  let s : State := match copyToUse (deviceSectionOk d0) (deviceSectionOk d1) (field d0 4 4) (field d1 4 4) with
    | some c =>
      let d := if c = 0 then d0 else d1
      { s with cal := ({ s.cal with device := some (d.drop 16), devSeq := field d 4 4, devBad := false }).judge }
    | none =>
      ({ s with cal := ({ s.cal with device := none, devBad := true }).judge, evt := { s.evt with cal := setBit s.evt.cal 4 } }).studbook
        0x0C 0xFF [0, 0, 0]
  (places 128).foldl (fun s u =>
    let (e0, e1) := s.unitCopies u
    let adopted := s.isMc16 u || s.isMp4 u
    match copyToUse (unitEntryOk e0) (unitEntryOk e1) (field e0 0x10 4) (field e1 0x10 4) with
    | some c =>
      let e := if c = 0 then e0 else e1
      s.onCal u (fun x => { x with entry := if adopted then some e else none, gen := e.getD 6 0 })
    | none =>
      if adopted then
        ({ s with evt := { s.evt with cal := setBit s.evt.cal 4 } }).studbook 0x0C u.val [0, 0, 0]
      else s) s

end Sys2Proof.Machine
end

