-- ==== Sys2Proof/Machine/EstModel.lean ====
section
/-! DEFINITION. The cell model and the filters of the estimator, in exact numbers (06 R184 to R191, R204). Currents are in A, voltages in V, times in s, charges in Ah. -/

namespace Sys2Proof.Machine

-- Matrices of four rows.

/-- A matrix from its entries. -/
def Mat.ofFn (f : Fin 4 → Fin 4 → Rat) : Mat := Vector.ofFn (fun i => Vector.ofFn (fun j => f i j))
/-- An entry. -/
def Mat.get (m : Mat) (i j : Fin 4) : Rat := (m.at i).at j
/-- A matrix with one entry replaced. -/
def Mat.put (m : Mat) (i j : Fin 4) (v : Rat) : Mat := Mat.ofFn (fun a b => if a = i ∧ b = j then v else m.get a b)
/-- A sum over the four places. -/
def sum4 (f : Fin 4 → Rat) : Rat := f 0 + f 1 + f 2 + f 3
/-- A diagonal matrix. -/
def Mat.diag (d : Bank 4 Rat) : Mat := Mat.ofFn (fun i j => if i = j then d.at i else 0)
/-- The sum of two matrices. -/
def Mat.add (a b : Mat) : Mat := Mat.ofFn (fun i j => a.get i j + b.get i j)
/-- The product of two matrices. -/
def Mat.mul (a b : Mat) : Mat := Mat.ofFn (fun i j => sum4 (fun k => a.get i k * b.get k j))
/-- The transposed matrix. -/
def Mat.tr (a : Mat) : Mat := Mat.ofFn (fun i j => a.get j i)
/-- `x` times the product of a column and a row. -/
def Mat.outer (x : Rat) (v w : Bank 4 Rat) : Mat := Mat.ofFn (fun i j => x * v.at i * w.at j)
/-- A matrix times a column. -/
def Mat.app (a : Mat) (v : Bank 4 Rat) : Bank 4 Rat := Vector.ofFn (fun i => sum4 (fun k => a.get i k * v.at k))
/-- A row times a column. -/
def dot (v w : Bank 4 Rat) : Rat := sum4 (fun k => v.at k * w.at k)
/-- The places of four without `i`. -/
def skip (i : Fin 4) (k : Fin 3) : Fin 4 := if k.val < i.val then k.castSucc else k.succ
/-- A determinant of three rows. -/
def det3 (f : Fin 3 → Fin 3 → Rat) : Rat :=
  f 0 0 * (f 1 1 * f 2 2 - f 1 2 * f 2 1) - f 0 1 * (f 1 0 * f 2 2 - f 1 2 * f 2 0) + f 0 2 * (f 1 0 * f 2 1 - f 1 1 * f 2 0)
/-- The cofactor of an entry. -/
def Mat.cofactor (a : Mat) (i j : Fin 4) : Rat :=
  (if (i.val + j.val) % 2 = 0 then 1 else -1) * det3 (fun x y => a.get (skip i x) (skip j y))
/-- The inverse of a matrix. -/
def Mat.inv (a : Mat) : Mat :=
  let d := sum4 (fun j => a.get 0 j * a.cofactor 0 j)
  Mat.ofFn (fun i j => a.cofactor j i / d)

-- Chemistry tables (06 R185, R207).

/-- A CHEM descriptor's content from its fields: `num off` is the number at a byte offset, in the descriptor's own unit. -/
def chemFrom (num : Nat → Rat) : Chem :=
  { m := num 0x08 / 1000000, gamma := num 0x0C, etaC := num 0x10, tau1 := num 0x14 / 1000, tau2 := num 0x18 / 1000
    fr := (List.range 16).map (fun k => num (0x20 + 2 * k) / 4096)
    ocv := (List.range 256).map (fun n => num (0x40 + 8 * n) / 1000000)
    k := (List.range 256).map (fun n => num (0x44 + 8 * n) / 1000000) }

/-- The content of a chemistry table; an empty table is never used (06 R207). -/
def ChemTable.content : ChemTable → Chem
  | .empty => chemFrom (fun _ => 0)
  | .factory n => chemFrom (Config.chemNumber n)
  | .loaded c => c

/-- A table holds content. -/
def ChemTable.holds : ChemTable → Bool
  | .empty => false
  | .factory _ => true
  | .loaded _ => true

/-- The segment of the 255 that holds z; the end segments are extended. -/
def segment (z : Rat) : Nat := (clampInt 0 254 (ratFloor (255 * z))).toNat

/-- A point of a list of numbers. -/
def point (l : List Rat) (n : Nat) : Rat := l.getD n 0

/-- The value at point `n` at temperature `t` in °C. -/
def Chem.node (c : Chem) (t : Rat) (n : Nat) : Rat := point c.ocv n + (t - 25) * point c.k n

/-- OCV(z, T) (06 R185). -/
def Chem.ocvAt (c : Chem) (z t : Rat) : Rat :=
  let n := segment z
  c.node t n + (255 * z - n) * (c.node t (n + 1) - c.node t n)

/-- The slope s(z) of the segment that holds z (06 R185). -/
def Chem.slope (c : Chem) (z t : Rat) : Rat :=
  let n := segment z
  255 * (c.node t (n + 1) - c.node t n)

/-- The segment whose lower point is the last at or below a voltage, by bisection between `lo` and `hi`. -/
def Chem.bisect (c : Chem) (t v : Rat) : Nat → Nat → Nat → Nat
  | 0, lo, _ => lo
  | fuel + 1, lo, hi =>
    if hi ≤ lo + 1 then lo
    else
      let mid := (lo + hi) / 2
      if c.node t mid ≤ v then c.bisect t v fuel mid hi else c.bisect t v fuel lo mid

/-- OCV⁻¹(v, T) by bisection on the table (06 R191). -/
def Chem.ocvInv (c : Chem) (v t : Rat) : Rat :=
  let n := c.bisect t v 9 0 255
  ((n : Rat) + (v - c.node t n) / (c.node t (n + 1) - c.node t n)) / 255

/-- Linear interpolation between 16 points at −40 + 8k °C, clamped at the ends. -/
def interp16 (l : List Rat) (t : Rat) : Rat :=
  let x := (t + 40) / 8
  if x ≤ 0 then point l 0
  else if 15 ≤ x then point l 15
  else
    let n := (ratFloor x).toNat
    point l n + (x - n) * (point l (n + 1) - point l n)

/-- The exponential of −x by the estimator's table. -/
def expNeg (x : Rat) : Rat := Config.expTable (-x)

-- One step of a cell (06 R184, R186, R187, R190).

/-- What one step of a cell uses: its chemistry and filter settings, Δt in s, the temperature in °C, the current in A, the
voltage in V where the cell makes a measurement update, and by how much the deviation of z grows while the current is
unknown. -/
structure CellStep where
  chem : Chem
  filt : Filter
  dt   : Rat
  t    : Rat
  i    : Rat
  v    : Option Rat
  grow : Rat

/-- σ of a current (06 R184). -/
def sign (dead i : Rat) : Rat := if dead < i then 1 else if i < -dead then -1 else 0

/-- η of a current (06 R184). -/
def Chem.eta (c : Chem) (i : Rat) : Rat := if 0 ≤ i then 1 else c.etaC

/-- The absolute value of a number. -/
def absRat (q : Rat) : Rat := if q < 0 then -q else q

/-- z held inside its range (06 R186). -/
def clampRat (lo hi q : Rat) : Rat := if q < lo then lo else if hi < q then hi else q

/-- One step of the state filter (06 R186), with the sensitivities and the information of the parameter filter (R187). -/
def EstCell.step (c : EstCell) (x : CellStep) : EstCell :=
  let f := interp16 x.chem.fr x.t
  let eta := x.chem.eta x.i
  let a1 := expNeg (x.dt / x.chem.tau1)
  let a2 := expNeg (x.dt / x.chem.tau2)
  let al := expNeg (x.chem.gamma * absRat x.i * x.dt / (3600 * c.q))
  let z := c.z - eta * x.i * x.dt / (3600 * c.q)
  let v1 := a1 * c.v1 + f * c.rp1 * (1 - a1) * x.i
  let v2 := a2 * c.v2 + f * c.rp2 * (1 - a2) * x.i
  let h := al * c.h - (1 - al) * sign x.filt.iDead x.i
  let y := x.chem.ocvAt z x.t + x.chem.m * h - v1 - v2 - f * c.rs * x.i
  let sl := x.chem.slope z x.t
  let row : Bank 4 Rat := #v[sl, -1, -1, x.chem.m]
  let b : Bank 4 Rat := #v[-eta * x.dt / (3600 * c.q), f * c.rp1 * (1 - a1), f * c.rp2 * (1 - a2), 0]
  let am := Mat.diag #v[1, a1, a2, al]
  let g := x.filt
  let noise := Mat.diag #v[g.qz * g.qz, g.qv1 * g.qv1, g.qv2 * g.qv2, g.qh * g.qh]
  let p0 := (((am.mul c.p).mul am.tr).add noise).add (Mat.outer (g.sigmaI * g.sigmaI) b b)
  let pzz := p0.get 0 0
  let pp := if x.grow = 0 then p0 else p0.put 0 0 (pzz + 2 * x.grow * Config.sqrtReal pzz + x.grow * x.grow)
  let u1 := a1 * c.u1 + (1 - a1) * x.i
  let u2 := a2 * c.u2 + (1 - a2) * x.i
  let dq := c.g + eta * x.i * x.dt / (3600 * c.q * c.q)
  let c := { c with u1 := u1, u2 := u2, g := dq }
  let cp := dot row (pp.app row)
  let sv := cp + g.sigmaV * g.sigmaV + (f * c.rs * g.sigmaI) * (f * c.rs * g.sigmaI)
  let predicted := { c with z := z, v1 := v1, v2 := v2, h := h, p := pp }
  let out : EstCell := match x.v with
    | none => predicted
    | some v =>
      let e := v - y
      if g.gate * g.gate * sv < e * e ∧ c.bypass = false then
        let run := c.rejRun + 1
        let r := { predicted with rejRun := run, rejAcc := c.rejAcc + 1 }
        if g.rejReset ≤ run then
          { r with p := if pp.get 0 0 < g.zInit * g.zInit then pp.put 0 0 (g.zInit * g.zInit) else pp, bypass := true }
        else r
      else
        let pc := pp.app row
        let k : Bank 4 Rat := Vector.ofFn (fun i => pc.at i / sv)
        let m := Mat.ofFn (fun i j => (if i = j then 1 else 0) - k.at i * row.at j)
        let joseph := ((m.mul pp).mul m.tr).add (Mat.outer (sv - cp) k k)
        let sens : Bank 4 Rat := #v[-f * x.i, -f * u1, -f * u2, sl * dq]
        { predicted with
          z := z + k.at 0 * e, v1 := v1 + k.at 1 * e, v2 := v2 + k.at 2 * e, h := h + k.at 3 * e, p := joseph
          rejRun := 0, bypass := false
          infoJ := c.infoJ.add (Mat.outer (1 / sv) sens sens)
          infoR := Vector.ofFn (fun i => c.infoR.at i + sens.at i * e / sv) }
  { out with
    z := clampRat (-1/50) (51/50) out.z, h := clampRat (-1) 1 out.h
    clamped := decide (out.z < -1/50) || decide (51/50 < out.z) }

/-- The parameter filter of a Valid cell, `t` seconds after its previous update (06 R188). -/
def EstCell.learn (c : EstCell) (g : Group) (f : Filter) (t : Rat) : EstCell :=
  let sq (q : Rat) : Rat := q * q
  let grow := Mat.diag #v[sq (f.qpR * c.rs) * t, sq (f.qpR * c.rp1) * t, sq (f.qpR * c.rp2) * t, sq (f.qpQ * c.q) * t]
  let p := ((c.pTheta.add grow).inv.add c.infoJ).inv
  let d := p.app c.infoR
  let bound (r r0 : Rat) : Rat := clampRat (g.boundLo * r0) (g.boundHi * r0) r
  let q0 : Rat := (g.qRated : Rat) / 1000
  { c with
    rs := bound (c.rs + d.at 0) g.rs0, rp1 := bound (c.rp1 + d.at 1) g.rp10, rp2 := bound (c.rp2 + d.at 2) g.rp20
    q := clampRat (3/10 * q0) (6/5 * q0) (c.q + d.at 3)
    pTheta := p, infoJ := Mat.zero, infoR := Bank.fill 4 0, g := 0 }

/-- CAP_LEARN (06 R188). -/
def EstCell.capLearn (c : EstCell) : Bool := c.live && decide (c.pTheta.get 3 3 < c.q / 50 * (c.q / 50))

/-- A checkpoint entry of a cell: Rs, Rp1, Rp2, Q and P_θ[Q][Q] (06 R192). -/
structure CkptEntry where
  rs  : Rat
  rp1 : Rat
  rp2 : Rat
  q   : Rat
  pqq : Rat

/-- A cell initialised at a voltage and a temperature (06 R191; R208 where it keeps θ). -/
def EstCell.start (c : EstCell) (chem : Chem) (g : Group) (f : Filter) (ck : Option CkptEntry) (v t : Rat) : EstCell :=
  let sq (q : Rat) : Rat := q * q
  let theta : EstCell :=
    if c.keep then c
    else
      let (rs, rp1, rp2, q, pq) := match ck with
        | some e => (e.rs, e.rp1, e.rp2, e.q, e.pqq)
        | none => (g.rs0, g.rp10, g.rp20, (g.qRated : Rat) / 1000, sq ((g.qRated : Rat) / 1000 / 20))
      { c with rs := rs, rp1 := rp1, rp2 := rp2, q := q
               pTheta := Mat.diag #v[sq (rs / 5), sq (rp1 / 5), sq (rp2 / 5), pq] }
  let z := chem.ocvInv v t
  { theta with
    live := true, keep := false, regroup := false, z := z, v1 := 0, v2 := 0, h := 0
    p := Mat.diag #v[sq f.zInit, 25/1000000, 25/1000000, 1]
    infoJ := Mat.zero, infoR := Bank.fill 4 0, g := 0, u1 := 0, u2 := 0, rejRun := 0, bypass := false, clamped := false
    heldZ := z, heldV1 := 0, heldV2 := 0, heldH := 0 }

/-- A cell that leaves Invalid (06 R189). -/
def EstCell.recover (c : EstCell) (f : Filter) : EstCell :=
  let up (m : Mat) (i : Fin 4) (v : Rat) : Mat := if m.get i i < v then m.put i i v else m
  { c with p := up (up (up c.p 0 (f.zInit * f.zInit)) 1 (25/1000000)) 2 (25/1000000), bypass := true }

/-- A cell advanced across an interval of `t` seconds without steps, over which the string gave `q` Ah net (06 R193). -/
def EstCell.advance (c : EstCell) (chem : Chem) (f : Filter) (t q : Rat) : EstCell :=
  { c with
    v1 := c.v1 * expNeg (t / chem.tau1), v2 := c.v2 * expNeg (t / chem.tau2), z := c.z - q / c.q
    p := c.p.put 0 0 (c.p.get 0 0 + f.qz * f.qz * t * 1000), lastA := none }

-- Projection (06 R204).

/-- What a projection starts from: z, v1, v2, h, the parameters and the temperature. -/
structure ProjCell where
  z   : Rat
  v1  : Rat
  v2  : Rat
  h   : Rat
  rs  : Rat
  rp1 : Rat
  rp2 : Rat
  q   : Rat
  t   : Rat

/-- The estimate of a cell that limits use: the present one of a Valid cell, the held one of a Suspect cell (06 R189). -/
def EstCell.forLimits (c : EstCell) (held : Bool) : ProjCell :=
  { z := if held then c.heldZ else c.z, v1 := if held then c.heldV1 else c.v1, v2 := if held then c.heldV2 else c.v2
    h := if held then c.heldH else c.h, rs := c.rs, rp1 := c.rp1, rp2 := c.rp2, q := c.q, t := (c.temp : Rat) / 1000 }

/-- SoC after `t` seconds at a constant current. -/
def ProjCell.soc (c : ProjCell) (chem : Chem) (i t : Rat) : Rat := c.z - chem.eta i * i * t / (3600 * c.q)

/-- The terminal voltage after `t` seconds at a constant current, in closed form (06 R204). -/
def ProjCell.volt (c : ProjCell) (chem : Chem) (dead i t : Rat) : Rat :=
  let f := interp16 chem.fr c.t
  let a1 := expNeg (t / chem.tau1)
  let a2 := expNeg (t / chem.tau2)
  let al := expNeg (chem.gamma * absRat i * t / (3600 * c.q))
  chem.ocvAt (c.soc chem i t) c.t + chem.m * (al * c.h - (1 - al) * sign dead i)
    - (a1 * c.v1 + f * c.rp1 * (1 - a1) * i) - (a2 * c.v2 + f * c.rp2 * (1 - a2) * i) - f * c.rs * i

/-- The terminal voltage at t = 0⁺. -/
def ProjCell.volt0 (c : ProjCell) (chem : Chem) (i : Rat) : Rat :=
  chem.ocvAt c.z c.t + chem.m * c.h - c.v1 - c.v2 - interp16 chem.fr c.t * c.rs * i

/-- A cell stands `n` A for `t` seconds: of discharge, or of charge (06 R204). -/
def ProjCell.stands (c : ProjCell) (chem : Chem) (l : LimitsDesc) (dead t : Rat) (charge : Bool) (n : Nat) : Bool :=
  if charge then
    let i : Rat := -(n : Rat)
    let top : Rat := (l.vMax : Rat) / 1000000
    decide (c.volt0 chem i ≤ top) && decide (c.volt chem dead i t ≤ top) && decide (c.soc chem i t ≤ (l.zMax : Rat) / 10000)
  else
    let i : Rat := n
    let low : Rat := (l.vMin : Rat) / 1000000
    decide (low ≤ c.volt0 chem i) && decide (low ≤ c.volt chem dead i t) && decide ((l.zMin : Rat) / 10000 ≤ c.soc chem i t)

/-- The largest number from `lo` below `hi` that `ok` accepts, by bisection: `lo` is accepted and `hi` is not. -/
def largest (ok : Nat → Bool) : Nat → Nat → Nat → Nat
  | 0, lo, _ => lo
  | fuel + 1, lo, hi =>
    if hi ≤ lo + 1 then lo
    else if ok ((lo + hi) / 2) then largest ok fuel ((lo + hi) / 2) hi else largest ok fuel lo ((lo + hi) / 2)

/-- A cell's limit in whole amperes for a horizon in s and a direction (06 R204). -/
def ProjCell.limit (c : ProjCell) (chem : Chem) (l : LimitsDesc) (dead t : Rat) (charge : Bool) : Nat :=
  let cap := if charge then l.iCellC else l.iCellD
  let ok := c.stands chem l dead t charge
  if ok cap then cap else if ok 0 then largest ok 17 0 cap else 0

/-- A derate table's value at place `x` of its 16, linear between the points and clamped at the ends, as a factor. -/
def derate (tab : Bank 16 Nat) (x : Rat) : Rat := interp16 (tab.toList.map (fun (v : Nat) => ((v : Nat) : Rat) / 255)) (8 * x - 40)

end Sys2Proof.Machine
end

