-- ==== Sys2Proof/Machine/EstRecords.lean ====
section
/-! DEFINITION. What the estimator reports: the unit, string, yard and impedance records, the limit message, and the stream that takes records (06 R182, R209 to R213; 07 R240). -/

namespace Sys2Proof.Machine

/-- The group of a unit's stall (06 R207). -/
def State.groupOf (s : State) (u : Fin 128) : Group := s.est.group.at (stallOf u)

/-- The chemistry of a unit's cells. -/
def State.chemOf (s : State) (u : Fin 128) : Chem := (s.est.chem.at (s.groupOf u).table).content

/-- The global index of a cell (01 R18). -/
def cellIndex (u : Fin 128) (c : Fin 16) : Nat := 16 * u.val + c.val

/-- A cell of the estimator. -/
def State.estCell (s : State) (u : Fin 128) (c : Fin 16) : EstCell := (s.uest.at u).cells.at c

/-- A position carries cells that are not Excluded (05 R156). -/
def State.carries (s : State) (u : Fin 128) : Bool := s.isMc16 u && !s.outOfService u

/-- The cells of a string that limits use: Valid and Suspect cells with an estimate (06 R189, R204). -/
def State.limCells (s : State) (str : Fin 4) : List (Fin 128 × Fin 16) :=
  (s.mc16sOf str).flatMap (fun u => ((places 16).filter (fun c => !s.cellInvalid u c.val && (s.estCell u c).live)).map (fun c => (u, c)))

/-- What a projection of a cell starts from. -/
def State.projCell (s : State) (p : Fin 128 × Fin 16) : ProjCell := (s.estCell p.1 p.2).forLimits (!s.cellValid p.1 p.2.val)

/-- SoC in 0.01 %. -/
def socField (z : Rat) : Int := roundFree (10000 * z)

/-- A record's first word (02 R77). -/
def recWord (type_ place len sub : Nat) : Nat := type_ + 256 * place + 65536 * len + 2 ^ 24 * sub

/-- The words of a record. -/
def wordsOf (bs : List Byte) : List (BitVec 32) :=
  (List.range (bs.length / 4)).map (fun i => BitVec.ofNat 32 (field bs (4 * i) 4))

/-- The 32 bytes of a cell in a unit record (06 R209). -/
def State.cellBytes (s : State) (u : Fin 128) (c : Fin 16) : List Byte :=
  let x := s.estCell u c
  let g := s.chemOf u
  if !s.carries u then leBytes 28 0 ++ leBytes 4 3
  else
    let st := if s.cellInvalid u c.val then 2 else if s.cellValid u c.val then 0 else 1
    if !x.live then leBytes 28 0 ++ leBytes 4 st
    else
      leBytes 4 (sfieldOf 16 (socField x.z) + 65536 * min 0xFFFF (roundNat (100000000 * x.p.get 0 0))) ++
      leBytes 4 (fieldOf 24 (roundFree (1000 * x.q)) + 2 ^ 24 * x.score) ++
      leBytes 4 (fieldOf 24 (roundFree (10000000 * x.rs)) + 2 ^ 24 * sfieldOf 8 (roundFree (127 * x.h))) ++
      leBytes 4 (fieldOf 24 (roundFree (10000000 * x.rp1))) ++
      leBytes 4 (fieldOf 24 (roundFree (10000000 * x.rp2))) ++
      leBytes 4 (fieldOf 32 (roundFree (g.tau1 / x.rp1))) ++ leBytes 4 (fieldOf 32 (roundFree (g.tau2 / x.rp2))) ++
      leBytes 4 (st + 4 * bit x.clamped + 8 * bit x.capLearn + 256 * fieldOf 8 x.rejSec +
        65536 * sfieldOf 16 (roundFree ((x.temp : Rat) / 10)))

/-- The unit estimate record (06 R209). -/
def State.unitRecord (s : State) (u : Fin 128) (seq : Nat) : List Byte :=
  let have_ := (places 16).foldl (fun m c => m + bit (s.carries u && (s.estCell u c).live) * 2 ^ c.val) 0
  leBytes 4 (recWord 3 (stallOf u).val 136 0) ++
  leBytes 4 ((unitOf u).val + 256 * (s.groupOf u).table.val + 65536 * (s.uswp.at u).averaged.gen.toNat + 2 ^ 24 * bit s.est.rateHalf) ++
  leBytes 8 ((s.est.lastStep.getD 0) * ticksPerMs) ++ leBytes 4 have_ ++ leBytes 8 0 ++ leBytes 4 seq ++
  (places 16).flatMap (s.cellBytes u)

/-- The unit record in shared SRAM, with its SEQ two further (06 R182). -/
def State.writeUnitRecord (s : State) (u : Fin 128) : State :=
  let s := s.onEst u (fun e => { e with seq := (e.seq + 2) % 2 ^ 32 })
  s.sramStore (0x258000 + 1024 * u.val) (s.unitRecord u (s.uest.at u).seq)

/-- The smallest and the largest of a list of numbers, and their mean; zeros for an empty list. -/
def spread (l : List Rat) : Rat × Rat × Rat :=
  match l with
  | [] => (0, 0, 0)
  | a :: rest => (rest.foldl (fun m x => if x < m then x else m) a, rest.foldl (fun m x => if m < x then x else m) a, l.sum / l.length)

/-- SoC as limits use it, of every cell of a string that limits use. -/
def State.socs (s : State) (str : Fin 4) : List Rat := (s.limCells str).map (fun p => (s.projCell p).z)

/-- The 24 limit words of a record (06 R210). -/
def Limits.bytes (l : Limits) : List Byte := l.i.toList.flatMap (leBytes 4) ++ l.p.toList.flatMap (leBytes 4)

/-- The string estimate record (06 R210). -/
def State.stringRecord (s : State) (str : Fin 4) : List Byte :=
  let e := s.estr.at str
  let (zLo, zHi, zMean) := spread (s.socs str)
  let (tLo, tHi, _) := spread ((s.limCells str).map (fun p => ((s.estCell p.1 p.2).temp : Rat) / 10))
  let far := ((s.limCells str).filter (fun p => s.est.output.outlier ≤ (s.estCell p.1 p.2).score)).length
  leBytes 4 (recWord 3 str.val 24 1) ++
  leBytes 4 (bit ((s.strs.at str).st == .closed) + 2 * bit e.stale + 4 * bit e.capped + 8 * bit e.derateT + 16 * bit e.derateZ +
    65536 * e.cellsUsed) ++
  leBytes 8 e.limAt ++ e.lim.bytes ++ leBytes 4 (fieldOf 16 e.sohCap + 65536 * fieldOf 16 e.sohRes) ++
  leBytes 4 (sfieldOf 16 (socField zLo) + 65536 * sfieldOf 16 (socField zHi)) ++ leBytes 4 (sfieldOf 16 (socField zMean)) ++
  leBytes 4 (e.limCellD.toNat + 65536 * e.limCellC.toNat) ++
  leBytes 4 (sfieldOf 16 (roundFree tLo) + 65536 * sfieldOf 16 (roundFree tHi)) ++ leBytes 4 far ++ leBytes 4 0 ++ leBytes 4 e.seq

/-- The string record in shared SRAM. -/
def State.writeStringRecord (s : State) (str : Fin 4) : State :=
  let s := s.onEstr str (fun e => { e with seq := (e.seq + 2) % 2 ^ 32 })
  s.sramStore (0x257000 + 256 * str.val) (s.stringRecord str)

/-- A property of the four strings as a mask. -/
def strMask (f : Fin 4 → Bool) : Nat := (places 4).foldl (fun m i => m + bit (f i) * 2 ^ i.val) 0

/-- The connected strings (06 R206). -/
def State.connected (s : State) : List (Fin 4) := (places 4).filter (fun i => (s.strSt i).connected)

/-- The yard limit record (06 R210). -/
def State.yardRecord (s : State) : List Byte :=
  leBytes 4 (recWord 3 (strMask (fun i => (s.strSt i).connected)) 18 2) ++ leBytes 4 (strMask (fun i => (s.estr.at i).stale)) ++
  leBytes 8 s.est.yardAt ++ s.est.yard.bytes ++ leBytes 4 s.est.yardSeq ++ leBytes 4 0

/-- The yard record in shared SRAM. -/
def State.writeYardRecord (s : State) : State :=
  let s := { s with est := { s.est with yardSeq := (s.est.yardSeq + 2) % 2 ^ 32 } }
  s.sramStore 0x257400 s.yardRecord

-- The lock-in frequencies (06 R196, R197).

/-- f_i in 10⁻²⁴ Hz: 0.05 × 40,000^(i/31), to 24 decimal places (06 R196). -/
def binTable : List Nat :=
  [50000000000000000000000, 70375833656093648127527, 99055159255803269128523, 139421788211285519020723,
   196238491503850961158530, 276208948699955237863731, 388768700560651074507918, 547198428027041228389513] ++
  [770190910954139717343298, 1084056548654875438579685, 1525827666838690085695984, 2147627881386102635196117,
   3022822050712343581888450, 4254672436258075396995967, 5988522392705300386651841, 8428945115096402834985098] ++
  [11863880786327351504918752, 16698610014685983977881010, 23503572013630406381244397, 33081669487105430193188343,
   46563001377808012572261773, 65538200789861520811610721, 92246110338139194593971595, 129837938331570890936480137] ++
  [182749063005455565470484129, 257222353177578368072160917, 362044750797084533041671904, 509584023163149986402087764,
   717248008958656319631981393, 1009538531372775277294103656, 1420942315066150232700977541, 2000000000000000000000000000]

/-- f_i in Hz. -/
def binHz (i : Fin 32) : Rat := (binTable.getD i.val 1 : Rat) / 1000000000000000000000000

/-- A bin is usable at a rate of N frames a sweep: f_i ≤ f_s / 4 (06 R197). -/
def binUsable (n : Nat) (i : Fin 32) : Bool := decide (binHz i * 4 * n ≤ 8000)

/-- Frames of a sweep of a string now. -/
def State.strFrames (s : State) (str : Fin 4) : Nat := framesOf (s.strs.at str).rate

/-- A cell's impedance at a bin is VALID: there is a result, and the bin is usable at the present rate (06 R197, R211). -/
def State.zValid (s : State) (u : Fin 128) (c : Fin 16) (i : Fin 32) : Bool :=
  (((s.uest.at u).z.at c).at i).ok && binUsable (framesOf (s.rateNow u)) i

/-- The cell impedance record (06 R211). -/
def State.impedanceRecord (s : State) (u : Fin 128) (c : Fin 16) (updated : Nat) : List Byte :=
  let e := s.uest.at u
  let cyc := match s.strOf u with | some str => (s.est.lockin.at str).cycles | none => 0
  leBytes 4 (recWord 2 (stallOf u).val 72 (16 * (unitOf u).val + c.val)) ++
  leBytes 4 ((s.uswp.at u).aligned.gen.toNat + 256 * (s.rateNow u).toNat + 65536 * cyc) ++ leBytes 8 (e.updAt.at c) ++
  leBytes 4 ((places 32).foldl (fun m i => m + bit (s.zValid u c i) * 2 ^ i.val) 0) ++ bvBytes 4 (e.exc.at c) ++
  leBytes 4 updated ++ leBytes 4 (e.zSeq.at c) ++
  (places 32).flatMap (fun i =>
    let z := (e.z.at c).at i
    if s.zValid u c i then leBytes 4 (sfieldOf 32 (roundFree (1000000000 * z.re))) ++ leBytes 4 (sfieldOf 32 (roundFree (1000000000 * z.im)))
    else leBytes 8 0)

/-- A cell's impedance record in shared SRAM. -/
def State.writeImpedance (s : State) (u : Fin 128) (c : Fin 16) : State :=
  let s := s.onEst u (fun e => { e with zSeq := e.zSeq.upd c (fun q => (q + 2) % 2 ^ 32) })
  s.sramStore (0x280000 + 288 * cellIndex u c) (s.impedanceRecord u c 0)

/-- A cell's impedance record enters the estimator trough when a bin has updated since its last one, at most one in
IMP_DECIM_MS (06 R213). -/
def State.streamImpedance (s : State) (u : Fin 128) (c : Fin 16) : State :=
  let e := s.uest.at u
  let mask : BitVec 32 := setBit 0 (stallOf u).val
  if e.updated.at c = 0 ∨ (e.sentAt.at c ≠ 0 ∧ s.now < e.sentAt.at c + s.est.output.impMs * ticksPerMs) ∨
     s.hif.streams.any (fun x => x.opcode == 0xC1 && (x.mask &&& mask) != 0) = false then s
  else
    let s := s.troughTakes .estimator (wordsOf (s.impedanceRecord u c (e.updated.at c).toNat)) mask
    s.onEst u (fun e => { e with updated := e.updated.put c 0, sentAt := e.sentAt.put c s.now })

-- The limit message (07 R240).

/-- A number where it is known, or a free one. -/
def State.known (s : State) (q : Option Rat) (k : Nat) : Rat := q.getD (Config.freeRat (s.free + k))

/-- The sum of numbers of the closed strings, none where one of them is not known. -/
def sumKnown (l : List (Option Rat)) : Option Rat :=
  l.foldl (fun a v => match a, v with | some a, some v => some (a + v) | _, _ => none) (some 0)

/-- The first 30 bytes of the limit message (07 R240). What a field holds of a mean, an extreme or a sum that does not exist
is free. -/
def State.limitBody (s : State) (alive : Nat) : List Byte :=
  let l := s.est.yard
  let amp (k : Fin 6) : List Byte := leBytes 2 (fieldOf 16 ((l.i.at k / 1000 : Nat) : Int))
  let closed := (places 4).filter (fun i => s.strSt i == .closed)
  let zs := closed.flatMap s.socs
  let (zLo, zHi, _) := spread zs
  let some_ (q : Rat) : Option Rat := if zs.isEmpty then none else some q
  let vMean : Option Rat := if closed.isEmpty then none else (sumKnown (closed.map s.vString)).map (fun v => v / closed.length)
  let iSum := sumKnown (closed.map (fun i => if s.currentUnknown i then none else (s.strs.at i).now.iMain.map (fun (v : Int) => (v : Rat))))
  let forced := (places 4).filterMap (fun i =>
    let x := s.strs.at i
    if x.st == .opening && x.seq.releaseAt.isNone then some ((x.seq.openingAt + 2 * ticksPerS) - s.now) else none)
  let ms := match forced with
    | [] => 0xFFFF
    | a :: rest => roundNat ((rest.foldl min a : Nat) / (ticksPerMs : Nat))
  amp 0 ++ amp 1 ++ amp 2 ++ amp 3 ++ amp 4 ++ amp 5 ++
  leBytes 2 (fieldOf 16 ((l.p.at 1 / 100 : Nat) : Int)) ++ leBytes 2 (fieldOf 16 ((l.p.at 4 / 100 : Nat) : Int)) ++
  leBytes 1 (strMask (fun i => s.strSt i == .closed) + 16 * strMask (fun i => s.strSt i == .opening)) ++
  leBytes 1 (bit ((places 4).any (fun i => (s.estr.at i).stale)) + 2 * bit s.halter.lockout +
    4 * bit ((places 4).any (fun i => (s.strs.at i).service)) + 8 * bit ((places 4).any (fun i => decide (s.capPct i < 100)))) ++
  leBytes 2 (fieldOf 16 (roundFree (s.known vMean 0 / 100))) ++ leBytes 2 (sfieldOf 16 (roundFree (s.known iSum 1 / 1000))) ++
  leBytes 2 (fieldOf 16 ms) ++
  leBytes 1 (fieldOf 8 (roundFree (200 * s.known (some_ zLo) 2))) ++ leBytes 1 (fieldOf 8 (roundFree (200 * s.known (some_ zHi) 3))) ++
  leBytes 2 0 ++ leBytes 1 alive ++ leBytes 1 0

/-- The yard limit message is sent on CAN2 and CAN3 where PUB_EN enables them; a failed transmission counts (07 R240). -/
def State.publish (s : State) : State :=
  let p := s.pub
  if p.cfg.pubEn = 0 then s
  else
    let body := s.limitBody (p.alive + 1).toNat
    let msg := body ++ bvBytes 2 (crc16 body)
    let ready (c : Fin 4) : Bool := s.isl.net && decide ((s.net.can.at c).st < 2)
    let on2 := p.cfg.pubEn.getLsbD 0
    let on3 := p.cfg.pubEn.getLsbD 1
    let s := if on2 && ready 2 then s.emit (.can 2 p.cfg.canId.toNat msg) else s
    let s := if on3 && ready 3 then s.emit (.can 3 p.cfg.canId.toNat msg) else s
    { s with
      pub := { p with
        alive := p.alive + 1, can2Ok := on2 && ready 2, can3Ok := on3 && ready 3
        txFail := satAdd 0xFFFF p.txFail (bit (on2 && !ready 2) + bit (on3 && !ready 3)), last := msg, at_ := s.now }
      free := s.free + 4 }

end Sys2Proof.Machine
end

