-- ==== Sys2Proof/Machine/Estimation.lean ====
section
/-! DEFINITION. The estimator's steps, limits, health, checkpoints, commands and streams (chapter 06). -/

namespace Sys2Proof.Machine

-- Checkpoints (06 R192).

/-- MRAM offset of a checkpoint copy. -/
def ckptBase (copy : Bool) : Nat := if copy then 0x6F0000 else 0x6E0000

/-- A checkpoint copy is valid: MAGIC and the CRC over bytes 0x40 to its end. -/
def State.ckptValid (s : State) (copy : Bool) : Bool :=
  let b := s.mramRead (ckptBase copy) (0x40 + 24 * 2048)
  field b 0 4 == 0x45535450 && field b 0x10 4 == (crc32c (b.drop 0x40)).toNat

/-- The valid copy with the higher GEN. -/
def State.ckptUsed (s : State) : Option Bool :=
  let gen (copy : Bool) : Nat := field (s.mramRead (ckptBase copy + 4) 4) 0 4
  match s.ckptValid false, s.ckptValid true with
  | true, true => some (decide (gen false < gen true))
  | true, false => some false
  | false, true => some true
  | false, false => none

/-- The checkpoint entry of a global index, if the copy in use holds a cell there. -/
def State.ckptEntry (s : State) (g : Nat) : Option CkptEntry :=
  match s.ckptUsed with
  | none => none
  | some copy =>
    let b := s.mramRead (ckptBase copy + 0x40 + 24 * g) 24
    match f32Field b 0, f32Field b 4, f32Field b 8, f32Field b 12, f32Field b 16 with
    | some rs, some rp1, some rp2, some q, some pqq =>
      if (field b 20 4).testBit 1 then some { rs := rs, rp1 := rp1, rp2 := rp2, q := q, pqq := pqq } else none
    | _, _, _, _, _ => none

/-- The entry of a cell in a new checkpoint. -/
def State.ckptBytes (s : State) (g : Nat) : List Byte :=
  let u : Fin 128 := idx 128 (by decide) (g / 16)
  let x := s.estCell u (idx 16 (by decide) g)
  if x.live then
    f32Bytes x.rs ++ f32Bytes x.rp1 ++ f32Bytes x.rp2 ++ f32Bytes x.q ++ f32Bytes (x.pTheta.get 3 3) ++
    leBytes 4 (bit x.capLearn + 2 + 16 * (s.groupOf u).table.val)
  else leBytes 24 0

/-- The state with every cell of a unit changed. -/
def State.onCells (s : State) (u : Fin 128) (f : EstCell → EstCell) : State :=
  s.onEst u (fun e => { e with cells := e.cells.each (fun _ x => f x) })

/-- ESTIMATOR_CHECKPOINT (06 R192): after 600 s of running, a copy is written, its header last. -/
def execEstimatorCheckpoint (ok : Bool) (s : State) : Host.Outcome State Fault Refusal :=
  answer s (
    if s.est.ranTicks < 600 * ticksPerS then s
    else
      let s := { s with est := { s.est with ranTicks := s.est.ranTicks - 600 * ticksPerS } }
      if !ok then { s with evt := { s.evt with est := setBit s.evt.est 2 } }
      else
        let base := ckptBase s.est.ckptCopy
        let gen := (s.est.ckptGen + 1) % 2 ^ 32
        let body := (List.range 2048).flatMap s.ckptBytes
        let head := leBytes 4 0x45535450 ++ leBytes 4 gen ++ leBytes 8 s.now ++ bvBytes 4 (crc32c body) ++ leBytes 44 0
        let s := (s.mramStore (base + 0x40) body).mramStore base head
        let s := (places 128).foldl (fun s u => s.onCells u (fun x => { x with fresh := x.fresh && !x.live })) s
        { s with est := { s.est with
            ckptGen := gen, ckptCopy := !s.est.ckptCopy, ckptAt := some s.now, ckptCnt := (s.est.ckptCnt + 1) % 65536 } })

-- The state filter (06 R183, R186, R189 to R191).

/-- The alignment instant of a unit's newest records (04 R129); none before the first. -/
def UnitSweep.recInstant (w : UnitSweep) : Option Nat :=
  if w.alHist.isEmpty then none else some (w.averaged.start * ticksPerFrame + framesOf w.averaged.rate * 4000)

/-- The average in A of the string's aligned I_MAIN over the sweeps of a window; none where there is no value (06 R183). -/
def EstString.matched (e : EstString) (window : List (Nat × BitVec 16)) : Option Rat :=
  let vals := window.filterMap (fun p => match e.iHist.find? (fun h => h.1 == p.1) with
    | some (_, v) => if usable v then some v.val else none
    | none => none)
  if vals.isEmpty then none else some ((vals.sum : Int) / ((vals.length : Nat) : Rat) / 1000)

/-- The fraction of the sweeps of a window in which a cell's balancing bit was held. -/
def heldPart (window : List (Nat × BitVec 16)) (c : Nat) : Rat :=
  if window.isEmpty then 0
  else ((window.filter (fun p => p.2.getLsbD c)).length : Rat) / ((window.length : Nat) : Rat)

/-- A voltage input that allows a measurement update (06 R183). -/
def measurable (v : Sample) : Bool :=
  v.st == .valid || v.st == .alignReduced || v.st == .unaligned || v.st == .saturated

/-- One cell at a step, `a` being the alignment instant of its record and `cur` the matched average current, none while the
string's current is unknown. -/
def State.cellStep (s : State) (u : Fin 128) (str : Fin 4) (a : Nat) (cur : Option Rat) (c : Fin 16) : EstCell :=
  let w := s.uswp.at u
  let e := s.uest.at u
  let x := e.cells.at c
  let g := s.groupOf u
  let chem := s.chemOf u
  let smp := w.recCodes.zip w.averaged.slots
  let own := sampleOf smp (BitVec.ofNat 8 c.val)
  let first : BitVec 8 := if g.tmap.getLsbD c.val then 0x14 else 0x13
  let other : BitVec 8 := if g.tmap.getLsbD c.val then 0x13 else 0x14
  let temp : Int := match validOf smp first with
    | some t => t
    | none => (validOf smp other).getD x.temp
  let x := { x with temp := temp }
  let t : Rat := (temp : Rat) / 1000
  let valid := s.cellValid u c.val
  let inv := s.cellInvalid u c.val
  let volts : Option Rat := match own with
    | some v => if measurable v then some ((v.val : Rat) / 1000000) else none
    | none => none
  if !x.live then
    match validOf smp (BitVec.ofNat 8 c.val) with
    | some v =>
      if valid then
        let ck := if x.keep || x.regroup || x.fresh then none else s.ckptEntry (cellIndex u c)
        { x.start chem g s.est.filter ck ((v : Rat) / 1000000) t with lastA := some a, paramAt := s.now, wasInv := false }
      else x
    | none => x
  else
    let x := if x.wasInv && !inv then x.recover s.est.filter else x
    let dt : Rat := match x.lastA with | some p => ((a - p : Nat) : Rat) / (ticksPerS : Nat) | none => 0
    let d := heldPart e.maskWin c.val
    let i : Rat := match cur with
      | some i => if d = 0 then i
                  else i + d * (volts.getD (Config.freeRat (s.free + 1 + c.val))) / rBal (((s.ucal.at u).entry).getD []) c.val
      | none => 0
    let grow : Rat := if cur.isSome then 0 else ((s.est.limits.at str).iStrD : Rat) * dt / (3600 * x.q)
    let y := x.step { chem := chem, filt := s.est.filter, dt := dt, t := t, i := i, v := if valid then volts else none, grow := grow }
    let y := { y with lastA := some a, wasInv := inv }
    if valid then { y with heldZ := y.z, heldV1 := y.v1, heldV2 := y.v2, heldH := y.h } else y

/-- A unit's part of its stall's batch. A current that has no value over the window is free. -/
def State.unitStep (s : State) (str : Fin 4) (u : Fin 128) : State :=
  match (s.uswp.at u).recInstant with
  | none => s
  | some a =>
    if !s.carries u then s
    else
      let e := s.uest.at u
      let cur := if s.currentUnknown str then none else some (((s.estr.at str).matched e.maskWin).getD (Config.freeRat s.free))
      let cells : Bank 16 EstCell := Vector.ofFn (fun c => s.cellStep u str a cur c)
      ({ s with free := s.free + 17 }.onEst u (fun e => { e with cells := cells })).writeUnitRecord u

/-- The batch of a stall (06 R179, R186). -/
def State.batch (s : State) (i : Fin 32) : State :=
  match (s.stalls.at i).str with
  | none => s
  | some str => (unitsOf i).foldl (fun s u => s.unitStep str u) s

/-- The parameter filter of a stall (06 R188, R189). -/
def State.learnStall (s : State) (i : Fin 32) : State :=
  if (s.stalls.at i).str.isNone || (s.stalls.at i).oos then s
  else
    (unitsOf i).foldl (fun s u =>
      if !s.carries u then s
      else
        let cells := (s.uest.at u).cells.each (fun c x =>
          if !x.live then x
          else
            let x' : EstCell := if s.cellValid u c.val then x.learn (s.groupOf u) s.est.filter (((s.now - x.paramAt : Nat) : Rat) / (ticksPerS : Nat))
              else { x with infoJ := Mat.zero, infoR := Bank.fill 4 0 }
            { x' with paramAt := s.now })
        s.onEst u (fun e => { e with cells := cells })) s

/-- The stalls whose batches run: in a string and in service (06 R179). -/
def State.batchStalls (s : State) : List (Fin 32) := (places 32).filter (fun i => (s.stalls.at i).str.isSome && !(s.stalls.at i).oos)

/-- The throttle pause in µs (16 R432). -/
def State.pauseLen (s : State) : Nat := if s.therm.level = 0 then 0 else if 11 ≤ s.therm.level then 1000 else 2 ^ (s.therm.level - 1)

/-- The batches of a step (06 R179, R180): batch j starts after j batches of 1.5 µs and j pauses, and after the 19.2 µs of a
limit computation; one that has not started by the next boundary is skipped. -/
def State.batches (s : State) (n : Nat) (limits : Bool) : State :=
  let p := s.pauseLen
  let t0 := if limits then 192 else 0
  let runs := s.batchStalls.zipIdx.filter (fun q => decide (t0 + q.2 * (15 + 10 * p) < 10000))
  let skipped := s.batchStalls.length - runs.length
  let s := runs.foldl (fun s q => s.batch q.1) s
  { s with
    est := { s.est with
      overrun := satAdd 0xFFFF s.est.overrun skipped, skips := (List.replicate skipped n ++ s.est.skips).filter (fun k => decide (n < k + 100))
      cycArray := s.est.cycArray + 600 * runs.length, pauseUs := s.est.pauseUs + min 1000 ((runs.length - 1) * p) }
    evt := if skipped = 0 then s.evt else { s.evt with est := setBit s.evt.est 0 } }

/-- The array is idle no more: each cell is advanced across the interval without steps (06 R193). -/
def State.resumeEst (s : State) : State :=
  if s.est.running then s
  else
    let s := match s.est.lastStep with
      | none => s
      | some m =>
        let t : Rat := ((s.now - m * ticksPerMs : Nat) : Rat) / (ticksPerS : Nat)
        (places 128).foldl (fun s u =>
          match s.strOf u with
          | none => s
          | some str =>
            if !s.carries u then s
            else
              let w := s.wb.str.at str
              let e := s.estr.at str
              let chem := s.chemOf u
              let q : Rat := (((w.qDis - e.qDisAt : Nat) : Rat) - chem.etaC * ((w.qChg - e.qChgAt : Nat) : Rat)) / (1000000 * 4294967296)
              s.onCells u (fun x => if x.live then x.advance chem s.est.filter t q else x)) s
    { s with est := { s.est with running := true } }

-- Limits (06 R204 to R206).

/-- The horizons in s (06 R204). -/
def horizonOf (k : Fin 6) : Rat := if k.val % 3 = 0 then 2 else if k.val % 3 = 1 then 10 else 30

/-- The smallest of the cell limits for a horizon and direction, and its cell's global index. -/
def State.worstCell (s : State) (str : Fin 4) (k : Fin 6) : Option (Nat × Nat) :=
  (s.limCells str).foldl (fun m p =>
    let n := (s.projCell p).limit (s.chemOf p.1) (s.est.limits.at str) s.est.filter.iDead (horizonOf k) (3 ≤ k.val)
    match m with
    | none => some (n, cellIndex p.1 p.2)
    | some (a, g) => if n < a then some (n, cellIndex p.1 p.2) else some (a, g)) none

/-- The number of cells of a string that are not Excluded. -/
def State.notExcluded (s : State) (str : Fin 4) : Nat := 16 * (s.mc16sOf str).length

/-- The string voltage projected from the cells used, in V (06 R205). -/
def State.projectedV (s : State) (str : Fin 4) (i t : Rat) : Rat :=
  let cells := s.limCells str
  (cells.map (fun p => (s.projCell p).volt (s.chemOf p.1) s.est.filter.iDead i t)).sum * (s.notExcluded str : Nat) /
    ((cells.length : Nat) : Rat)

/-- The limits of a string computed anew (06 R205); a string with no cell to project completes no computation. -/
def State.stringLimits (s : State) (str : Fin 4) : State :=
  let cells := s.limCells str
  if cells.isEmpty then s
  else
    let l := s.est.limits.at str
    let temps := cells.map (fun p => ((s.estCell p.1 p.2).temp : Rat) / 1000)
    let (tLo, tHi, _) := spread temps
    let (zLo, zHi, _) := spread (s.socs str)
    let low (a b : Rat) : Rat := if a < b then a else b
    let ft (tab : Bank 16 Nat) : Rat := low (derate tab ((tLo + 40) / 8)) (derate tab ((tHi + 40) / 8))
    let fD := ft l.ftD
    let fC := ft l.ftC
    let gD := derate l.fzD (15 * zLo)
    let gC := derate l.fzC (15 * zHi)
    let cap : Rat := (s.capPct str : Rat) / 100
    let amps (k : Fin 6) : Rat :=
      if s.strSt str = .opening then 0
      else
        let n : Rat := (((s.worstCell str k).map Prod.fst).getD 0 : Nat)
        if 3 ≤ k.val then low (n * fC * gC) l.iStrC * cap else low (n * fD * gD) l.iStrD * cap
    let watts (k : Fin 6) : Rat := amps k * s.projectedV str (if 3 ≤ k.val then -amps k else amps k) (horizonOf k)
    let worst (k : Fin 6) : BitVec 11 := BitVec.ofNat 11 (((s.worstCell str k).map Prod.snd).getD 0)
    s.onEstr str (fun e => { e with
      lim := { i := Vector.ofFn (fun k => roundNat (1000 * amps k)), p := Vector.ofFn (fun k => roundNat (watts k)) }
      limCellD := worst 1, limCellC := worst 4, derateT := decide (fD < 1) || decide (fC < 1)
      derateZ := decide (gD < 1) || decide (gC < 1), capped := s.causesC str != 0, stale := false, limAt := s.now
      cellsUsed := cells.length })

/-- The mean of |I_MAIN| in A over the last second, and its sum in mA (06 R206). -/
def EstString.absMean (e : EstString) : Rat :=
  let n := (e.absRing.map (fun x => x.2.2)).sum
  if n = 0 then 0 else ((e.absRing.map (fun x => x.2.1)).sum : Nat) / ((n : Nat) : Rat) / 1000

/-- The shares of the connected strings are measured while their current is large enough (06 R206). -/
def State.measureShares (s : State) : State :=
  let on := s.connected
  let total : Rat := (on.map (fun i => (s.estr.at i).absMean)).sum
  let rated : Rat := (on.map (fun i => ((s.est.limits.at i).iStrD : Rat))).sum
  if rated * 5 < total * 100 then
    on.foldl (fun s i =>
      let x := (s.estr.at i).absMean / total
      s.onEstr i (fun e => { e with share := some (if x < 1/50 then 1/50 else x) })) s
  else s

/-- The share of a connected string; equal shares while one of them has none (06 R206). -/
def State.shareOf (s : State) (i : Fin 4) : Rat :=
  let on := s.connected
  if on.all (fun j => (s.estr.at j).share.isSome) then ((s.estr.at i).share).getD 1 else 1 / ((on.length : Nat) : Rat)

/-- The yard limits (06 R206). -/
def State.yardLimits (s : State) : State :=
  let s := s.measureShares
  let worst (f : Limits → Nat) : Nat :=
    match s.connected.map (fun i => (f (s.estr.at i).lim : Rat) / s.shareOf i) with
    | [] => 0
    | a :: rest => roundNat (rest.foldl (fun m x => if x < m then x else m) a)
  { s with est := { s.est with
      yard := { i := Vector.ofFn (fun k => worst (fun l => l.i.at k)), p := Vector.ofFn (fun k => worst (fun l => l.p.at k)) }
      yardAt := s.now } }

/-- The limit computation (06 R179, R205, R206; 07 R240): the strings, the yard, the records, the message. -/
def State.computeLimits (s : State) : State :=
  let s := (places 4).foldl (fun s i => s.stringLimits i) s
  let s := s.yardLimits
  let s := ((places 4).foldl (fun s i => s.writeStringRecord i) s).writeYardRecord
  let s := s.publish
  { s with est := { s.est with limAt := some s.now, cycArray := s.est.cycArray + 7680 } }

/-- A mark of 10 ms that no limit computation met (06 R179). -/
def State.limitsLate (s : State) (n : Nat) : State :=
  match s.est.lastStep with
  | some m =>
    let missed := (n - 1) / 10 - m / 10
    if missed = 0 then s
    else { s with est := { s.est with limLate := satAdd 0xFFFF s.est.limLate missed }
                  evt := { s.evt with est := setBit s.evt.est 1 } }
  | none => s

/-- LIMIT_STALE_TIMEOUT (06 R205): 50 ms without a completed computation. -/
def execLimitStaleTimeout (str : Fin 4) (s : State) : Host.Outcome State Fault Refusal :=
  answer s (if (s.estr.at str).limAt + 50 * ticksPerMs ≤ s.now ∧ (s.estr.at str).stale = false then
      (s.onEstr str (fun e => { e with lim := {}, stale := true })).writeStringRecord str
    else s)

-- Query work (06 R212; 11 R338).

/-- The 32 bytes of a projection of a string (06 R212). -/
def State.projection (s : State) (str : Fin 4) (i t : Rat) : List Byte :=
  let cells := (s.limCells str).map (fun p =>
    let x := s.projCell p
    (cellIndex p.1 p.2, x.volt (s.chemOf p.1) s.est.filter.iDead i t, x.soc (s.chemOf p.1) i t))
  match cells with
  | [] => leBytes 32 0
  | a :: rest =>
    let lo := rest.foldl (fun m x => if x.2.1 < m.2.1 then x else m) a
    let hi := rest.foldl (fun m x => if m.2.1 < x.2.1 then x else m) a
    let z := rest.foldl (fun m x => if x.2.2 < m then x.2.2 else m) a.2.2
    leBytes 4 (fieldOf 32 (roundFree (1000 * s.projectedV str i t))) ++ leBytes 4 (fieldOf 32 (roundFree (1000000 * lo.2.1))) ++
    leBytes 4 (fieldOf 32 (roundFree (1000000 * hi.2.1))) ++ leBytes 4 (lo.1 + 65536 * hi.1) ++
    leBytes 2 (sfieldOf 16 (socField z)) ++ leBytes 14 0

/-- A KIND 4 query runs: its result goes to the host, and it completes. -/
def State.runProjection (s : State) (c : Cmd) : State :=
  let str : Fin 4 := idx 4 (by decide) (opField c 2 2)
  let r := s.projection str ((opSigned c 0x10 4 : Rat) / 1000) ((opField c 0x14 4 : Rat) / 1000)
  let s := (s.toHost (opField c 8 8) r).ok c (dwords 32 0 0 0)
  { s with est := { s.est with cycArray := s.est.cycArray + 2000, cycQuery := s.est.cycQuery + 2000 } }

/-- The queries that wait, in stamp order (11 R338). -/
def State.queries (s : State) : List Cmd :=
  let cs := s.est.work.filterMap (fun w => match w with | .project c => some c | .config _ _ => none)
  let insert (l : List Cmd) (c : Cmd) : List Cmd :=
    l.filter (fun d => decide (s.hif.age c.stamp ≤ s.hif.age d.stamp)) ++ [c] ++ l.filter (fun d => decide (s.hif.age d.stamp < s.hif.age c.stamp))
  cs.foldl insert []

/-- The query slice of a step: as many queries as 20,000 cycles hold. -/
def State.queryWork (s : State) : State :=
  let now := s.queries.take 10
  let s := { s with est := { s.est with work := s.est.work.filter (fun w => match w with
    | .project c => !now.any (fun d => d.stamp == c.stamp)
    | .config _ _ => true) } }
  now.foldl (fun s c => s.runProjection c) s

-- Descriptors (06 R207, R208).

/-- A binary32 field between two binary32 bounds, given by their bits. -/
def f32In (b : List Byte) (off lo hi : Nat) : Option Rat :=
  match f32Field b off, f32Value lo, f32Value hi with
  | some q, some a, some z => if a ≤ q ∧ q ≤ z then some q else none
  | _, _, _ => none

/-- A field between two bounds. -/
def natIn (b : List Byte) (off len lo hi : Nat) : Option Nat :=
  let v := field b off len
  if lo ≤ v ∧ v ≤ hi then some v else none

/-- Whether a list of numbers rises strictly. -/
def rising : List Nat → Bool
  | a :: b :: rest => decide (a < b) && rising (b :: rest)
  | _ => true

/-- A CHEM descriptor (06 R207). -/
def parseChem (b : List Byte) : Option Descriptor :=
  let ocv := (List.range 256).map (fun n => field b (0x40 + 8 * n) 4)
  let fr := (List.range 16).map (fun k => field b (0x20 + 2 * k) 2)
  match natIn b 0x08 4 0 100000, f32In b 0x0C 0 0x447A0000, f32In b 0x10 0x3F666666 0x3F800000, natIn b 0x14 4 100 600000,
        natIn b 0x18 4 0 7200000 with
  | some m, some g, some eta, some t1, some t2 =>
    if t1 < t2 ∧ rising ocv ∧ ocv.all (fun v => v ≤ 5000000) ∧ fr.all (fun v => 1 ≤ v) ∧ field b 1 1 < 4 ∧ field b 4 4 = 0 then
      some (.chem (idx 4 (by decide) (field b 1 1))
        { m := (m : Rat) / 1000000, gamma := g, etaC := eta, tau1 := (t1 : Rat) / 1000, tau2 := (t2 : Rat) / 1000
          fr := fr.map (fun (v : Nat) => ((v : Nat) : Rat) / 4096), ocv := ocv.map (fun (v : Nat) => ((v : Nat) : Rat) / 1000000)
          k := (List.range 256).map (fun n => (sfield b (0x44 + 8 * n) 2 : Rat) / 1000000) })
    else none
  | _, _, _, _, _ => none

/-- A GROUP descriptor. -/
def parseGroup (b : List Byte) : Option Descriptor :=
  match natIn b 0x08 4 1000 2000000, f32In b 0x0C 0x3727C5AC 0x3DCCCCCD, f32In b 0x10 0x3727C5AC 0x3DCCCCCD,
        f32In b 0x14 0x3727C5AC 0x3DCCCCCD, f32In b 0x18 0x3DCCCCCD 0x3F800000, f32In b 0x1C 0x3F800000 0x41A00000 with
  | some q, some rs, some r1, some r2, some lo, some hi =>
    if field b 0x22 2 = 0 ∧ field b 1 1 < 4 ∧ field b 4 4 ≠ 0 then
      some (.group (BitVec.ofNat 32 (field b 4 4))
        { table := idx 4 (by decide) (field b 1 1), qRated := q, rs0 := rs, rp10 := r1, rp20 := r2, boundLo := lo, boundHi := hi
          tmap := BitVec.ofNat 16 (field b 0x20 2) })
    else none
  | _, _, _, _, _, _ => none

/-- The FILTER descriptor. -/
def parseFilter (b : List Byte) : Option Descriptor :=
  let sigmas := (f32In b 0x08 0x41200000 0x47C35000, f32In b 0x0C 0x3A83126F 0x42C80000, f32In b 0x10 0 0x3A83126F)
  let states := (f32In b 0x14 0 0x461C4000, f32In b 0x18 0 0x461C4000, f32In b 0x1C 0 0x3DCCCCCD)
  let params := (f32In b 0x20 0 0x3C23D70A, f32In b 0x24 0 0x3A83126F, f32In b 0x28 0x40000000 0x41A00000)
  let rest := (f32In b 0x2C 0 0x41200000, f32In b 0x30 0x3BA3D70A 0x3F000000, natIn b 0x34 4 100 60000)
  match sigmas, states, params, rest with
  | (some sv, some si, some qz), (some q1, some q2, some qh), (some qr, some qq, some gate), (some dead, some zi, some rej) =>
    if field b 1 1 = 0 ∧ field b 4 4 = 0 then
      some (.filter { sigmaV := sv / 1000000, sigmaI := si, qz := qz, qv1 := q1 / 1000000, qv2 := q2 / 1000000, qh := qh
                      qpR := qr, qpQ := qq, gate := gate, iDead := dead, zInit := zi, rejReset := rej })
    else none
  | _, _, _, _ => none

/-- A derate table at an offset. -/
def derateAt (b : List Byte) (off : Nat) : Bank 16 Nat := Vector.ofFn (fun k => field b (off + k.val) 1)

/-- A LIMITS descriptor. -/
def parseLimits (b : List Byte) : Option Descriptor :=
  match natIn b 0x0C 4 0 5000000, natIn b 0x12 2 0 10000, natIn b 0x14 2 1 65535, natIn b 0x16 2 1 65535,
        natIn b 0x18 2 1 65535, natIn b 0x1A 2 1 65535 with
  | some vMax, some zMax, some cd, some cc, some sd, some sc =>
    if field b 0x08 4 < vMax ∧ field b 0x10 2 < zMax ∧ field b 1 1 < 4 ∧ field b 4 4 = 0 then
      some (.limits (idx 4 (by decide) (field b 1 1))
        { vMin := field b 0x08 4, vMax := vMax, zMin := field b 0x10 2, zMax := zMax, iCellD := cd, iCellC := cc, iStrD := sd
          iStrC := sc, ftD := derateAt b 0x20, ftC := derateAt b 0x30, fzD := derateAt b 0x40, fzC := derateAt b 0x50 })
    else none
  | _, _, _, _, _, _ => none

/-- A LOCKIN descriptor. -/
def parseLockin (b : List Byte) : Option Descriptor :=
  match natIn b 0x0C 4 0 0x7FFFFF, natIn b 0x10 1 2 64, natIn b 0x11 1 1 64, natIn b 0x12 2 0 720, natIn b 0x14 4 100 100000,
        natIn b 0x18 4 60 86400 with
  | some exc, some cyc, some avg, some hours, some imin, some rest =>
    if field b 1 1 < 4 ∧ field b 4 4 = 0 then
      some (.lockin (idx 4 (by decide) (field b 1 1))
        { binMask := BitVec.ofNat 32 (field b 0x08 4), excMask := BitVec.ofNat 32 exc, cycles := cyc, avg := avg
          intervalH := hours, iMin := imin, restS := rest })
    else none
  | _, _, _, _, _, _ => none

/-- The OUTPUT descriptor. -/
def parseOutput (b : List Byte) : Option Descriptor :=
  match natIn b 0x08 2 10 60000, natIn b 0x0A 2 100 60000, natIn b 0x0C 1 16 255, natIn b 0x0D 1 0 31 with
  | some e, some i, some o, some r =>
    if field b 1 1 = 0 ∧ field b 4 4 = 0 then
      some (.output { estMs := e, impMs := i, outlier := o, refBin := idx 32 (by decide) r })
    else none
  | _, _, _, _ => none

/-- One descriptor of a type and length. -/
def parseDescriptor (b : List Byte) : Option Descriptor :=
  let len := field b 2 2
  match field b 0 1 with
  | 1 => if len = 2112 then parseChem b else none
  | 2 => if len = 48 then parseGroup b else none
  | 3 => if len = 56 then parseFilter b else none
  | 4 => if len = 112 then parseLimits b else none
  | 5 => if len = 32 then parseLockin b else none
  | 6 => if len = 16 then parseOutput b else none
  | _ => none

/-- The descriptors of a package, back to back; `fuel` bounds their number. -/
def parsePackage : Nat → List Byte → Option (List Descriptor)
  | 0, _ => none
  | fuel + 1, b =>
    if b.isEmpty then some []
    else
      let len := field b 2 2
      if len = 0 ∨ b.length < len then none
      else
        match parseDescriptor (b.take len), parsePackage fuel (b.drop len) with
        | some d, some ds => some (d :: ds)
        | _, _ => none

/-- Check 1 of R208 where it looks at the state: the stalls of a GROUP lie in strings, and its table holds content. -/
def State.descriptorOk (s : State) (ds : List Descriptor) : Descriptor → Bool
  | .group mask g =>
    (places 32).all (fun i => !mask.getLsbD i.val || (s.stalls.at i).str.isSome) &&
      ((s.est.chem.at g.table).holds || ds.any (fun d => match d with | .chem t _ => t == g.table | _ => false))
  | .chem _ _ => true
  | .filter _ => true
  | .limits _ _ => true
  | .lockin _ _ => true
  | .output _ => true

/-- A table has a value above the one before it. -/
def tableRises (old new : Bank 16 Nat) : Bool := (places 16).any (fun k => decide (old.at k < new.at k))

/-- A LIMITS descriptor relaxes the limits in force (06 R208, check 2). -/
def LimitsDesc.relaxes (old new : LimitsDesc) : Bool :=
  decide (new.vMin < old.vMin) || decide (new.zMin < old.zMin) || decide (old.vMax < new.vMax) || decide (old.zMax < new.zMax) ||
  decide (old.iCellD < new.iCellD) || decide (old.iCellC < new.iCellC) || decide (old.iStrD < new.iStrD) ||
  decide (old.iStrC < new.iStrC) || tableRises old.ftD new.ftD || tableRises old.ftC new.ftC || tableRises old.fzD new.fzD ||
  tableRises old.fzC new.fzC

/-- A stall belongs to a string that has a contactor channel commanded on or is treated as possibly welded. -/
def State.stallHeld (s : State) (i : Fin 32) : Bool := match (s.stalls.at i).str with | some str => s.strHeld str | none => false

/-- Checks 2 and 3 of R208: the refuser code of a descriptor, 0 for none. -/
def State.descriptorRefused (s : State) (second : Bool) : Descriptor → Bool
  | .limits str l => !second && s.strHeld str && (s.est.limits.at str).relaxes l
  | .chem t _ => second && (places 32).any (fun i => s.stallHeld i && (s.est.group.at i).table == t)
  | .group mask _ => second && (places 32).any (fun i => mask.getLsbD i.val && s.stallHeld i)
  | .filter _ => false
  | .lockin _ _ => false
  | .output _ => false

/-- EST_CONFIG (0x12; 06 R207, R208): the checks, in order; an accepted package waits for the next step boundary. -/
def execEstConfig (c : Cmd) (pkg : List Byte) (s : State) : Host.Outcome State Fault Refusal :=
  answer s (s.run c false (fun s =>
    let len := opField c 8 4
    if !aligned16 (opField c 0 8) ∨ len < 16 ∨ 65536 < len then s.badOperand c
    else
      match parsePackage 4097 (padTo len pkg) with
      | none => s.badOperand c
      | some ds =>
        if ds.all (s.descriptorOk ds) = false then s.badOperand c
        else if ds.any (s.descriptorRefused false) then s.refuse c 0x0601
        else if ds.any (s.descriptorRefused true) then s.refuse c 0x0602
        else { s with est := { s.est with work := s.est.work ++ [.config c ds] } }))

/-- A descriptor takes effect (06 R208). -/
def State.applyDescriptor (s : State) : Descriptor → State
  | .chem t c =>
    let s := { s with est := { s.est with chem := s.est.chem.put t (.loaded c) } }
    (places 128).foldl (fun s u =>
      if (s.groupOf u).table == t then s.onCells u (fun x => if x.live then { x with live := false, keep := true } else x) else s) s
  | .group mask g =>
    let s := { s with est := { s.est with group := s.est.group.each (fun i old => if mask.getLsbD i.val then g else old) } }
    (places 128).foldl (fun s u =>
      if mask.getLsbD (stallOf u).val then s.onCells u (fun x => { x with live := false, keep := false, regroup := true }) else s) s
  | .filter f => { s with est := { s.est with filter := f } }
  | .limits str l => { s with est := { s.est with limits := s.est.limits.put str l } }
  | .lockin str l =>
    let s := ({ s with est := { s.est with lockin := s.est.lockin.put str l } }).stopExcitation str
    s.onEstr str (fun e => { e with blockFrom := Bank.fill 32 none, excDone := [] })
  | .output o => { s with est := { s.est with output := o } }

/-- The packages that wait take effect at a step boundary, and their commands complete (06 R208). -/
def State.applyConfigs (s : State) : State :=
  let work := s.est.work
  let s := { s with est := { s.est with work := work.filter (fun w => match w with | .config _ _ => false | .project _ => true) } }
  work.foldl (fun s w => match w with
    | .config c ds => (ds.foldl (fun s d => s.applyDescriptor d) s).ok c (dwords ds.length 0 0 0)
    | .project _ => s) s

-- The step.

/-- The lock-in bank's load in % (06 R194). -/
def State.lockinLoad (s : State) : Nat :=
  let mac := (places 4).map (fun i =>
    let bins := ((places 32).filter (fun b => ((s.estr.at i).blockFrom.at b).isSome)).length
    s.notExcluded i * (8000 / s.strFrames i) * bins * 2)
  roundNat ((mac.sum : Nat) * 100 / (1600000000 : Rat))

/-- The loads of a second that ends with this step (`EST_LOAD`). -/
def State.loads (s : State) (n : Nat) : State :=
  if n % 1000 ≠ 0 then s
  else
    let e := s.est
    let pct (cycles : Nat) : BitVec 8 := BitVec.ofNat 8 (roundNat ((cycles : Rat) / 4000000))
    { s with est := { e with
        arrayPct := pct e.cycArray, queryPct := pct e.cycQuery, liPct := BitVec.ofNat 8 s.lockinLoad
        pausePct := BitVec.ofNat 8 (roundNat ((e.pauseUs : Rat) / 10000)), cycArray := 0, cycQuery := 0, pauseUs := 0 } }

/-- What the step n does (06 R179): packages, the gap, limits at every tenth step, batches, a stall's parameters, queries. -/
def State.estStep (s : State) (n : Nat) : State :=
  let ran := match s.est.lastStep with | some m => if s.est.running then (n - m) * ticksPerMs else 0 | none => 0
  let late := s.est.running
  let s := if late then s.limitsLate n else s
  let s := s.resumeEst
  let s := s.applyConfigs
  let s := { s with est := { s.est with lastStep := some n, ranTicks := s.est.ranTicks + ran } }
  let limits := decide (n % 10 = 0)
  let s := if limits then s.computeLimits else s
  let s := if s.est.rateHalf ∧ n % 2 = 1 then s else s.batches n limits
  let s := if h : n % 1000 < 32 then
      let i : Fin 32 := ⟨n % 1000, h⟩
      let s := s.learnStall i
      { s with est := { s.est with cycArray := s.est.cycArray + 400 } }
    else s
  let s := s.queryWork
  let s := s.loads n
  let s := { s with
    est := { s.est with rateHalf := s.est.rateHalf || (s.pwr.level == 3 && 10 ≤ s.est.skips.length) } }
  (places 4).foldl (fun s i =>
    s.onEstr i (fun e => { e with qDisAt := (s.wb.str.at i).qDis, qChgAt := (s.wb.str.at i).qChg })) s

/-- The array steps now: its island is ready, in Run or Idle, and not held in reset (06 R193; 15 R404). -/
def State.estReady (s : State) : Bool := s.isl.est && (s.pwr.st == .run || s.pwr.st == .idle) && !s.pwr.held && decide (s.pwr.phase < 4)

/-- ESTIMATOR_STEP (06 R179): the step of the running millisecond, once. -/
def execEstimatorStep (s : State) : Host.Outcome State Fault Refusal :=
  answer s (if s.estReady = false ∨ s.est.lastStep = some s.nowMs then s else s.estStep s.nowMs)

-- Health and outliers (06 R202, R203).

/-- A number inserted into a rising list. -/
def insertRat (x : Rat) : List Rat → List Rat
  | [] => [x]
  | a :: rest => if x ≤ a then x :: a :: rest else a :: insertRat x rest

/-- The median of a list that is not empty. -/
def median (l : List Rat) : Rat :=
  let m := l.foldl (fun acc x => insertRat x acc) []
  let n := m.length
  if n % 2 = 1 then m.getD (n / 2) 0 else (m.getD (n / 2 - 1) 0 + m.getD (n / 2) 0) / 2

/-- A score in 1/16 of a number among a list of numbers (06 R203). -/
def scoreOf (l : List Rat) (x : Rat) : Nat :=
  let med := median l
  let mad := median (l.map (fun v => absRat (v - med)))
  let floor_ := absRat med * 5 / 1000
  let mad := if mad < floor_ then floor_ else mad
  let dev := absRat (x - med)
  if dev = 0 then 0 else if mad = 0 then 255 else min 255 (roundNat (16 * dev / (14826 / 10000 * mad)))

/-- |Z| of a cell at REF_BIN, where that bin is valid. -/
def State.absZ (s : State) (p : Fin 128 × Fin 16) : Option Rat :=
  let i := s.est.output.refBin
  let z := ((s.uest.at p.1).z.at p.2).at i
  if s.zValid p.1 p.2 i then some (Config.sqrtReal (z.re * z.re + z.im * z.im)) else none

/-- HEALTH_UPDATE (06 R202, R203): every second. REJ of the second that has ended is taken with it (R186). -/
def execHealthUpdate (str : Fin 4) (s : State) : Host.Outcome State Fault Refusal :=
  answer s (if s.estReady = false then s else
    let cells := (s.limCells str).filter (fun p => s.cellValid p.1 p.2.val)
    let of_ (f : EstCell → Rat) : List Rat := cells.map (fun p => f (s.estCell p.1 p.2))
    let caps := (cells.filter (fun p => (s.estCell p.1 p.2).capLearn)).map (fun p =>
      1000 * (s.estCell p.1 p.2).q / ((s.groupOf p.1).qRated : Nat))
    let res := cells.map (fun p => ((s.estCell p.1 p.2).rs + (s.estCell p.1 p.2).rp1) / ((s.groupOf p.1).rs0 + (s.groupOf p.1).rp10))
    let sR := of_ EstCell.rs
    let sQ := of_ EstCell.q
    let sZ := of_ EstCell.z
    let sAbs := cells.filterMap s.absZ
    let scored := cells.map (fun p =>
      let x := s.estCell p.1 p.2
      let zs := match s.absZ p with | some a => scoreOf sAbs a | none => 0
      (p, max (max (scoreOf sR x.rs) (scoreOf sQ x.q)) (max (scoreOf sZ x.z) zs), zs))
    let s := s.onEstr str (fun e => { e with
      sohCap := if caps.isEmpty then e.sohCap else roundNat (10000 * (spread caps).1)
      sohRes := if res.isEmpty then e.sohRes else roundNat (10000 * median res) })
    let s := scored.foldl (fun s q =>
      s.onEst q.1.1 (fun e => { e with cells := e.cells.upd q.1.2 (fun x => { x with score := q.2.1, zScore := q.2.2 }) })) s
    let s := (s.mc16sOf str).foldl (fun s u => s.onCells u (fun x => { x with rejSec := x.rejAcc, rejAcc := 0 })) s
    (s.mc16sOf str).foldl (fun s u => s.writeUnitRecord u) (s.writeStringRecord str))

-- Commands and streams (06 R212, R213).

/-- EST_QUERY (0x80; 06 R212; 11 R338). -/
def execEstQuery (c : Cmd) (s : State) : Host.Outcome State Fault Refusal :=
  answer s (s.run c false (fun s =>
    let i := opField c 2 2
    let give (s : State) (r : List Byte) : State := (s.toHost (opField c 8 8) r).ok c (dwords r.length 0 0 0)
    if !aligned16 (opField c 8 8) then s.badOperand c
    else match opByte c 0 with
      | 0 => if h : i < 128 then give s (s.unitRecord ⟨i, h⟩ 0) else s.badOperand c
      | 1 => if h : i < 4 then give s (s.stringRecord ⟨i, h⟩) else s.badOperand c
      | 2 => if i = 0 then give s s.yardRecord else s.badOperand c
      | 3 => if h : i < 2048 then give s (s.impedanceRecord ⟨i / 16, by omega⟩ (idx 16 (by decide) i) 0) else s.badOperand c
      | 4 =>
        if h : i < 4 then
          let some_ := (s.limCells ⟨i, h⟩).any (fun p => s.cellValid p.1 p.2.val)
          if opField c 0x14 4 < 100 ∨ 60000 < opField c 0x14 4 ∨ some_ = false then s.badOperand c
          else if 10 ≤ s.queries.length then s.busy c
          else { s with est := { s.est with work := s.est.work ++ [.project c] } }
        else s.badOperand c
      | _ => s.badOperand c))

/-- The records that a stream of estimates takes at a tick (06 R213). -/
def State.sendEstimates (s : State) (x : StreamS) : State :=
  let units := (places 128).filter (fun u => s.isMc16 u && x.mask.getLsbD (stallOf u).val)
  let strs := (places 4).filter (fun i => (s.stallsOf i).any (fun k => x.mask.getLsbD k.val))
  let s := units.foldl (fun s u => s.troughTakes .estimator (wordsOf (s.unitRecord u 0)) (setBit 0 (stallOf u).val)) s
  let s := strs.foldl (fun s i =>
    s.troughTakes .estimator (wordsOf (s.stringRecord i))
      ((s.stallsOf i).foldl (fun m k => if x.mask.getLsbD k.val then setBit m k.val else m) 0)) s
  s.troughTakes .estimator (wordsOf s.yardRecord) x.mask

/-- ESTIMATE_STREAM_TICK (06 R213): at every multiple of EST_DECIM_MS the streams of estimates take their records; impedance
records that waited for IMP_DECIM_MS go out. -/
def execEstimateStreamTick (s : State) : Host.Outcome State Fault Refusal :=
  answer s (if s.estReady = false then s else
    let k := s.nowMs / s.est.output.estMs
    let s : State := if k = s.est.estTick then s
      else
        let s := { s with est := { s.est with estTick := k } }
        (s.hif.streams.filter (fun x => x.opcode == 0xC2)).foldl (fun s x => s.sendEstimates x) s
    (places 128).foldl (fun s u => if s.isMc16 u then (places 16).foldl (fun s c => s.streamImpedance u c) s else s) s)

/-- A unit with a new identity at a position: its cells start afresh (06 R191). -/
def State.freshCells (s : State) (u : Fin 128) : State :=
  s.onCells u (fun x => { x with live := false, keep := false, regroup := false, fresh := true })

end Sys2Proof.Machine
end

