-- ==== Sys2Proof/Machine/Lockin.lean ====
section
/-! DEFINITION. The lock-in bank: its inputs, blocks and results, and the balancing excitation (06 R196 to R201). -/

namespace Sys2Proof.Machine

-- Inputs (06 R183, R198, R206).

/-- The bank runs a block for the string, or still has one to finish. -/
def EstString.busyLi (e : EstString) : Bool :=
  e.blockFrom.toList.any Option.isSome || e.excState == .running || !e.excDone.isEmpty

/-- The earliest frame whose sweep a block of the string still needs. -/
def EstString.oldest (e : EstString) : Nat :=
  let starts := e.blockFrom.toList.filterMap id ++ (if e.excState == .running then [e.excFrom] else []) ++ e.excDone.map (fun x => x.2.1)
  match starts with
  | [] => 0
  | a :: rest => rest.foldl min a

/-- An MC16's new records reach the estimator: the applied mask of the sweep, and the aligned values while a block runs. Cells
of a unit that a probe or a test holds during excitation count as not valid (06 R201). -/
def State.estSweep (s : State) (u : Fin 128) (str : Fin 4) : State :=
  let w := s.uswp.at u
  match w.alHist with
  | [] => s
  | (start, slots) :: _ =>
    let l := s.ulink.at u
    let e := s.estr.at str
    let mask := l.maskAt start
    let held := e.excState == .running && l.probeMask.isSome
    let valid : BitVec 16 := (places 16).foldl (fun m c => putBit m c.val (s.cellValid u c.val && !held)) 0
    let n := framesOf w.aligned.rate
    let smp : LiSample := { a := start * ticksPerFrame + n * 4000, slots := slots, gen := w.aligned.gen, mask := mask, valid := valid }
    let from_ := e.oldest
    s.onEst u (fun x => { x with
      maskWin := ((start, mask) :: x.maskWin).take w.averaged.fill
      hist := if e.busyLi then smp :: x.hist.filter (fun y => decide (from_ * ticksPerFrame ≤ y.a)) else [] })

/-- An MP4's new aligned record reaches the estimator: I_MAIN of the sweep. -/
def State.estCurrent (s : State) (u : Fin 128) (str : Fin 4) : State :=
  match (s.uswp.at u).alHist with
  | [] => s
  | (start, slots) :: _ =>
    match sampleOf slots 0x80 with
    | none => s
    | some v => s.onEstr str (fun e =>
        let from_ := e.oldest
        let kept := e.iHist.take 1100 ++ (if e.busyLi then (e.iHist.drop 1100).filter (fun p => decide (from_ ≤ p.1)) else [])
        { e with iHist := (start, v) :: kept })

/-- A frame's |I_MAIN| in mA enters the mean of the last second, by intervals of 10 ms (06 R206). -/
def State.estAbs (s : State) (str : Fin 4) (ma : Nat) : State :=
  let k := s.nowMs / 10
  s.onEstr str (fun e =>
    let kept := e.absRing.filter (fun x => decide (k < x.1 + 100))
    { e with absRing := match kept with
        | (j, sum, n) :: rest => if j = k then (k, sum + ma, n + 1) :: rest else (k, ma, 1) :: kept
        | [] => [(k, ma, 1)] })

-- A block (06 R198, R199).

/-- K_i: the sweeps of a block of a bin (06 R198). -/
def blockLen (cycles n : Nat) (i : Fin 32) : Nat := (ratRound ((cycles : Rat) * (8000 / (n : Rat)) / binHz i)).toNat

/-- The quotient of two complex numbers. -/
def cdiv (a b : Rat × Rat) : Rat × Rat :=
  let d := b.1 * b.1 + b.2 * b.2
  ((a.1 * b.1 + a.2 * b.2) / d, (a.2 * b.1 - a.1 * b.2) / d)

/-- Σ w_n v_n r_n of a block of K values, `turns` being f × T of one sweep (06 R198). -/
def blockSum (turns : Rat) (vals : List Rat) : Rat × Rat :=
  let k : Rat := (vals.length : Nat)
  vals.zipIdx.foldl (fun acc p =>
    let w := 1/2 - Config.cosTurn ((p.2 : Rat) / k) / 2
    (acc.1 + w * p.1 * Config.cosTurn (turns * p.2), acc.2 - w * p.1 * Config.sinTurn (turns * p.2))) ((0 : Rat), (0 : Rat))

/-- Σ w_n of a block of K sweeps. -/
def weightSum (k : Nat) : Rat := ((List.range k).map (fun (n : Nat) => 1/2 - Config.cosTurn ((n : Rat) / (k : Rat)) / 2)).sum

/-- H_x(ω) of the interpolation, ω being `turns` of a turn each sweep (06 R198). -/
def response (x turns : Rat) : Rat × Rat :=
  let (h0, h1, h2, h3) := lagrange x
  [(h0, (-1 : Rat)), (h1, 0), (h2, 1), (h3, 2)].foldl (fun acc p =>
    (acc.1 + p.1 * Config.cosTurn (turns * (p.2 - x)), acc.2 + p.1 * Config.sinTurn (turns * (p.2 - x)))) ((0 : Rat), (0 : Rat))

/-- The position x at which a slot is interpolated (04 R130). -/
def slotX (n j : Nat) : Rat := if 0 ≤ slotDelta n j then slotDelta n j else 1 + slotDelta n j

/-- The result of a block for a cell: `starts` are its sweeps in order, `f` the reference in Hz, and `exc` says that the
current is the balancing current. None where it is rejected (06 R199, R200). -/
def State.blockResult (s : State) (u : Fin 128) (str : Fin 4) (c : Fin 16) (starts : List Nat) (f : Rat) (exc : Bool) :
    Option (Rat × Rat) :=
  let n := s.strFrames str
  let e := s.uest.at u
  let code := BitVec.ofNat 8 c.val
  let found := starts.map (fun st =>
    (e.hist.find? (fun x => x.a == st * ticksPerFrame + n * 4000), (s.estr.at str).iHist.find? (fun p => p.1 == st)))
  let vals : Option (List (LiSample × Rat × Rat)) := found.foldr (fun p acc => match p, acc with
    | (some x, some (_, i)), some l =>
      match validOf x.slots code with
      | some v => if i.st = .valid ∧ x.valid.getLsbD c.val then some ((x, (v : Rat), (i.val : Rat)) :: l) else none
      | none => none
    | _, _ => none) (some [])
  match vals with
  | some ((x0, v0, i0) :: rest) =>
    let l := (x0, v0, i0) :: rest
    let same := rest.all (fun p => p.1.gen == x0.gen && (exc || p.1.mask.getLsbD c.val == x0.mask.getLsbD c.val))
    if !same then none
    else
      let turns := f * n / 8000
      let r := rBal (((s.ucal.at u).entry).getD []) c.val
      let amps := l.map (fun p => if exc then (if p.1.mask.getLsbD c.val then p.2.1 / r / 1000 else 0) else p.2.2)
      let v := cdiv (blockSum turns (l.map (fun p => p.2.1))) (response (slotX n ((s.uswp.at u).slotAt code)) turns)
      let i := cdiv (blockSum turns amps) (if n = 1 then (1, 0) else response (1/2) turns)
      let low : Rat := if exc then 5 else ((s.est.lockin.at str).iMin : Rat)
      let wsum := weightSum l.length
      if 4 * (i.1 * i.1 + i.2 * i.2) < (low * wsum) * (low * wsum) then none
      else
        let z := cdiv v i
        some (-z.1 / 1000, -z.2 / 1000)
  | _ => none

/-- A block ends: the accepted results of the string's cells are taken, written and streamed (06 R199, R211, R213). -/
def State.takeBlock (s : State) (str : Fin 4) (i : Fin 32) (starts : List Nat) (f : Rat) (exc : Bool) : State :=
  let avg : Rat := ((s.est.lockin.at str).avg : Rat)
  (s.mc16sOf str).foldl (fun s u =>
    (places 16).foldl (fun s c =>
      match s.blockResult u str c starts f exc with
      | none => s
      | some (re, im) =>
        let s := s.onEst u (fun e => { e with
          z := e.z.upd c (fun b => b.upd i (fun old =>
            if old.ok then { re := old.re + (re - old.re) / avg, im := old.im + (im - old.im) / avg, ok := true }
            else { re := re, im := im, ok := true }))
          exc := e.exc.upd c (fun m => putBit m i.val exc), updated := e.updated.upd c (fun m => setBit m i.val)
          updAt := e.updAt.put c s.now })
        (s.writeImpedance u c).streamImpedance u c) s) s

/-- The half-period of the excitation of a bin in frames (06 R200). -/
def halfPeriod (i : Fin 32) : Nat := (ratRound (4000 / binHz i)).toNat

/-- The sweeps that start in frames `a` to `b - 1` and end there. -/
def sweepStarts (n a b : Nat) : List Nat :=
  (List.range ((b - a) / n + 1)).filterMap (fun k =>
    let st := (a + n - 1) / n * n + k * n
    if st + n ≤ b then some st else none)

/-- LOCKIN_BLOCK_END (06 R198 to R200): a block whose last records have arrived gives its results, and the next one begins. -/
def execLockinBlockEnd (str : Fin 4) (bin : Fin 32) (s : State) : Host.Outcome State Fault Refusal :=
  answer s (if s.estReady = false then s else
    let e := s.estr.at str
    let n := s.strFrames str
    let cyc := (s.est.lockin.at str).cycles
    match e.excDone.find? (fun x => x.1 == bin && decide (x.2.1 + 2 * x.2.2 * (cyc + 1) + 32 ≤ s.frame)) with
    | some (_, from_, m) =>
      let s := s.takeBlock str bin (sweepStarts n (from_ + 2 * m) (from_ + 2 * m * (cyc + 1))) (4000 / (m : Rat)) true
      s.onEstr str (fun e => { e with excDone := e.excDone.filter (fun x => !(x.1 == bin && x.2.1 == from_)) })
    | none =>
      match e.blockFrom.at bin with
      | none => s
      | some b =>
        let k := blockLen cyc n bin
        if s.frame < b + k * n + 32 then s
        else
          let s := s.takeBlock str bin ((List.range k).map (fun j => b + j * n)) (binHz bin) false
          s.onEstr str (fun e => { e with blockFrom := e.blockFrom.put bin (some (b + k * n)) }))

/-- At an 8-frame boundary the enabled, usable bins of a string begin their first blocks (06 R197, R198). -/
def State.startBlocks (s : State) (str : Fin 4) : State :=
  let e := s.estr.at str
  if s.usedStr str = false ∨ s.estReady = false ∨ e.excState = .running ∨ e.blockFrom.toList.any Option.isSome then s
  else
    let l := s.est.lockin.at str
    let n := s.strFrames str
    let f := s.frame
    s.onEstr str (fun e => { e with
      blockFrom := e.blockFrom.each (fun i _ => if l.binMask.getLsbD i.val && binUsable n i then some f else none) })

-- Balancing excitation (06 R200, R201).

/-- The cells of a unit that the excitation may switch in a phase. -/
def State.excCells (s : State) (u : Fin 128) (phase : Bool) : BitVec 16 :=
  let i := s.uint.at u
  let valid : BitVec 16 := (places 16).foldl (fun m c => putBit m c.val (s.cellValid u c.val)) 0
  (if phase then 0xAAAA else 0x5555) &&& valid &&& ~~~ i.btC

/-- The reached, adopted MC16s of a string. -/
def State.excUnits (s : State) (str : Fin 4) : List (Fin 128) := (s.mc16sOf str).filter (fun u => (s.ulink.at u).reached)

/-- The excitation's masks of a string are set, in the running frame. -/
def State.setExcitation (s : State) (str : Fin 4) : State :=
  let e := s.estr.at str
  (s.excUnits str).foldl (fun s u =>
    let old := (s.ulink.at u).applied
    let s := (s.onLink u (fun l => { l with excMask := some (if e.excHigh then s.excCells u e.excPhase else 0) })).settleMask u
    if (s.ulink.at u).applied = old then s else s.sendBalance u) s

/-- The first bin of EXC_MASK from `i` on. -/
def nextBin (mask : BitVec 32) (i : Nat) : Option (Fin 32) := (places 32).find? (fun b => decide (i ≤ b.val) && mask.getLsbD b.val)

/-- A phase of a bin begins. -/
def State.excPhaseStart (s : State) (str : Fin 4) (bin : Fin 32) (phase : Bool) : State :=
  (s.onEstr str (fun e => { e with
    excBin := BitVec.ofNat 5 bin.val, excPhase := phase, excHigh := true, excFrom := s.frame, excToggle := s.frame })).setExcitation str

/-- A pass is complete. -/
def State.excPassDone (s : State) (str : Fin 4) : State :=
  let s := s.onEstr str (fun e => { e with
    excState := .idle, passCnt := satAdd 0xFFFF e.passCnt 1, passAt := some s.now, blockFrom := Bank.fill 32 none })
  let s := { s with evt := { s.evt with est := setBit s.evt.est (4 + str.val) } }
  (s.unitsOfStr str).foldl (fun s u => (s.onLink u (fun l => { l with excMask := none })).settleMask u) s

/-- Excitation is due for a string: its interval has passed since the last complete pass. -/
def State.excDue (s : State) (str : Fin 4) : Bool :=
  let h := (s.est.lockin.at str).intervalH
  h != 0 && (match (s.estr.at str).passAt with | some t => decide (t + h * 3600 * ticksPerS ≤ s.now) | none => true)

/-- EXCITATION_START (06 R200). -/
def execExcitationStart (str : Fin 4) (s : State) : Host.Outcome State Fault Refusal :=
  answer s (
    let e := s.estr.at str
    let l := s.est.lockin.at str
    if s.estReady = false ∨ s.usedStr str = false ∨ e.excState = .running ∨ s.excDue str = false then s
    else if s.strSt str = .opened ∧ e.openSince + l.restS * ticksPerS ≤ s.now then
      let s := s.onEstr str (fun e => { e with excState := .running, blockFrom := Bank.fill 32 none })
      match nextBin l.excMask 0 with
      | some b => s.excPhaseStart str b false
      | none => s.excPassDone str
    else if e.excState = .idle then s.onEstr str (fun e => { e with excState := .waiting })
    else s)

/-- EXCITATION_TOGGLE (06 R200): the square wave switches; after LI_CYCLES + 1 periods the next phase or bin begins. -/
def execExcitationToggle (str : Fin 4) (s : State) : Host.Outcome State Fault Refusal :=
  answer s (
    let e := s.estr.at str
    let l := s.est.lockin.at str
    let bin : Fin 32 := ⟨e.excBin.toNat, e.excBin.isLt⟩
    let m := halfPeriod bin
    if s.estReady = false ∨ e.excState ≠ .running ∨ s.frame < e.excToggle + m then s
    else if e.excFrom + 2 * m * (l.cycles + 1) ≤ s.frame then
      let s := s.onEstr str (fun e => { e with excDone := e.excDone ++ [(bin, e.excFrom, m)] })
      if !e.excPhase then s.excPhaseStart str bin true
      else match nextBin l.excMask (bin.val + 1) with
        | some b => s.excPhaseStart str b false
        | none => s.excPassDone str
    else (s.onEstr str (fun e => { e with excHigh := !e.excHigh, excToggle := e.excToggle + m })).setExcitation str)

end Sys2Proof.Machine
end

