-- ==== Sys2Proof/Machine/Weighbridge.lean ====
section
/-! DEFINITION. The Weighbridge: accumulation, tariff bins, its slots in MRAM, exposure, and the signed statements (chapter 10). -/

namespace Sys2Proof.Machine

-- The region (10 R314).

/-- MRAM offset of the Weighbridge region. -/
def wbBase : Nat := 0x1680000

/-- Counter slot k of a string. -/
def counterSlotAt (str : Fin 4) (k : Nat) : Nat := wbBase + 0x3000 * str.val + 192 * (k % 64)

/-- A 64-bit counter as it is stored and signed: whole µWh or µAh (10 R308). -/
def whole (x : Nat) : Nat := x / 2 ^ 32

/-- The bytes of a counter slot (10 R314). -/
def counterSlot (str : Fin 4) (w : WbStr) (oph : Nat) : List Byte :=
  let head := leBytes 4 0x57424331 ++ leBytes 1 str.val ++ leBytes 1 w.bin.val ++ leBytes 1 (bit w.rollback) ++ leBytes 1 0 ++
    leBytes 8 w.slotSeq ++ leBytes 8 oph ++ leBytes 4 w.gap ++ leBytes 4 w.subst ++ leBytes 4 w.sat ++ leBytes 4 w.openFlow
  let tail := leBytes 4 0 ++ (places 8).flatMap (fun b => leBytes 8 (whole (w.eDis.at b)) ++ leBytes 8 (whole (w.eChg.at b))) ++
    leBytes 8 (whole w.qDis) ++ leBytes 8 (whole w.qChg)
  head ++ bvBytes 4 (crc32c (head ++ tail)) ++ tail

/-- A counter slot is valid (10 R316). -/
def counterSlotOk (b : List Byte) : Bool :=
  field b 0 4 == 0x57424331 && field b 0x28 4 == (crc32c (b.take 0x28 ++ b.drop 0x2C)).toNat

/-- The state with the counters of a string changed. -/
def State.onWb (s : State) (str : Fin 4) (f : WbStr → WbStr) : State := { s with wb := { s.wb with str := s.wb.str.upd str f } }

/-- Bits of `WB_EVT`. -/
def State.wbEvent (s : State) (n : Nat) : State := { s with evt := { s.evt with wb := setBit s.evt.wb n } }

/-- The next counter slot of a string is written (10 R315). -/
def State.writeCounters (s : State) (str : Fin 4) : State :=
  let s := s.onWb str (fun w => { w with slotSeq := w.slotSeq + 1 })
  let w := s.wb.str.at str
  s.mramStore (counterSlotAt str w.slotSeq) (counterSlot str w s.oph)

/-- COUNTER_SLOT_WRITE (10 R315): once per second for each string. -/
def execCounterSlotWrite (str : Fin 4) (s : State) : Host.Outcome State Fault Refusal :=
  answer s (if s.isl.mem then s.writeCounters str else s)

-- Accumulation (10 R308 to R310).

/-- The bin in force for a frame (10 R312). -/
def WbStr.binAt (w : WbStr) (f : Nat) : Fin 8 :=
  match w.bins.find? (fun b => decide (b.1 ≤ f)) with
  | some b => b.2
  | none => w.bin

/-- The start of a unit's sweep that holds a frame. -/
def State.sweepOf (s : State) (u : Fin 128) (f : Nat) : Nat := f / framesOf (s.rateAt u f) * framesOf (s.rateAt u f)

/-- The I_MAIN of a frame as the string's MP4 sent it, calibrated: it and I_CHECK come as one pair, so that I_CHECK is never
there without it (04 R124; 10 R308). -/
def State.frameCurrent (s : State) (u : Fin 128) (f : Nat) : Option Sample :=
  let w := s.uswp.at u
  match w.pairs.find? (fun p => p.1 == f) with
  | some (_, some (m, _)) => some (s.calibrate u ((((s.ucal.at u).forSweep (s.sweepOf u f)).2).getD []) 0x80 m)
  | _ => none

/-- The alignment instant of a unit's sweep (04 R129). -/
def State.alignInstant (s : State) (u : Fin 128) (start : Nat) : Nat := start * ticksPerFrame + framesOf (s.rateAt u start) * 4000

/-- A value as the interpolation uses it. -/
def usedValue (slots : List (BitVec 8 × Sample)) (code : BitVec 8) : Option Int :=
  match sampleOf slots code with
  | some v => if usable v then some v.val else none
  | none => none

/-- V_STRING in mV at the centre of a frame (10 R308). -/
def State.frameVolts (s : State) (u : Fin 128) (f : Nat) : Option Rat :=
  let h := (s.uswp.at u).alHist
  if framesOf (s.rateAt u f) = 1 then
    match h.find? (fun e => e.1 == f) with
    | some e => (usedValue e.2 0x82).map (fun (v : Int) => (v : Rat))
    | none => none
  else
    let mid := f * ticksPerFrame + 4000
    let before := h.find? (fun e => decide (s.alignInstant u e.1 ≤ mid))
    let after := (h.filter (fun e => decide (mid < s.alignInstant u e.1))).getLast?
    match before, after with
    | some a, some b =>
      match usedValue a.2 0x82, usedValue b.2 0x82 with
      | some x, some y =>
        let ta : Rat := (s.alignInstant u a.1 : Nat)
        let tb : Rat := (s.alignInstant u b.1 : Nat)
        some ((x : Rat) + ((y - x : Int) : Rat) * (((mid : Nat) : Rat) - ta) / (tb - ta))
      | _, _ => none
    | _, _ => none

/-- The sum in mV of the aligned values of the string's Valid and Suspect cells for a frame, scaled to the cells that are not
Excluded; none where there is no value (10 R309). -/
def State.frameCells (s : State) (str : Fin 4) (f : Nat) : Option Rat :=
  let vals := (s.mc16sOf str).flatMap (fun u =>
    match (s.uswp.at u).alHist.find? (fun e => e.1 == s.sweepOf u f) with
    | some e => (places 16).filterMap (fun c => if s.cellInvalid u c.val then none else usedValue e.2 (BitVec.ofNat 8 c.val))
    | none => [])
  if vals.isEmpty then none
  else some (((vals.sum : Int) : Rat) / 1000 * ((s.notExcluded str : Nat) : Rat) / ((vals.length : Nat) : Rat))

/-- A frame's product enters the counters of its bin: `v` in mV, `i` in mA (10 R308). -/
def WbStr.accumulate (w : WbStr) (f : Nat) (v : Rat) (i : Int) : WbStr :=
  let p := v * i
  let b := w.binAt f
  let e := roundNat ((if p < 0 then -p else p) * 4294967296 / 28800000)
  let q := roundNat ((i.natAbs : Nat) * (4294967296 : Rat) / 28800)
  { w with
    eDis := if 0 < p then w.eDis.upd b (· + e) else w.eDis, eChg := if p < 0 then w.eChg.upd b (· + e) else w.eChg
    qDis := if 0 < i then w.qDis + q else w.qDis, qChg := if i < 0 then w.qChg + q else w.qChg }

/-- Frame f of a string (10 R308 to R310). -/
def State.wbFrame (s : State) (str : Fin 4) (f : Nat) : State :=
  match s.mp4Of str with
  | none => s
  | some u =>
    let gap (s : State) : State := s.onWb str (fun w => { w with gap := satAdd 0xFFFFFFFF w.gap 1 })
    if s.isl.port.at (portOf (stallOf u)) = false then (if s.strSt str = .opened then s else gap s)
    else
      match s.frameCurrent u f with
      | none => gap s
      | some i =>
        if i.val.natAbs < (s.wb.str.at str).deadMa then s
        else
          let v := s.frameVolts u f
          match (match v with | some v => some v | none => s.frameCells str f) with
          | none => gap s
          | some mv =>
            let flow := s.strSt str == .opened || s.strSt str == .welded
            let s := s.onWb str (fun w =>
              let w := w.accumulate f mv i.val
              { w with
                subst := satAdd 0xFFFFFFFF w.subst (bit v.isNone), sat := satAdd 0xFFFFFFFF w.sat (bit (i.st == .saturated))
                openFlow := satAdd 0xFFFFFFFF w.openFlow (bit flow) })
            if flow then s.wbEvent (3 + str.val) else s

-- Tariff bins (10 R312, R313).

/-- The bins in force for the four strings. -/
def Wb.binList (w : Wb) : List Nat := (places 4).map (fun i => ((w.str.at i).bin).val)

/-- Whether a tariff change moves a string. -/
def Wb.moves (w : Wb) (mask : BitVec 4) (bin : Fin 8) : Bool := (places 4).any (fun i => mask.getLsbD i.val && (w.str.at i).bin != bin)

/-- TARIFF_TAG (0x4A; 10 R312): an accepted change waits for the next frame edge. -/
def execTariffTag (c : Cmd) (s : State) : Host.Outcome State Fault Refusal :=
  answer s (s.run c false (fun s =>
    let mask := BitVec.ofNat 4 (opByte c 1)
    let unused := (places 4).any (fun i => mask.getLsbD i.val && !s.usedStr i)
    if h : opByte c 0 < 8 then
      let bin : Fin 8 := ⟨opByte c 0, h⟩
      let soon : Bool := match s.wb.loggedAt with | some t => decide (s.now < t + ticksPerS) | none => false
      if 16 ≤ opByte c 1 ∨ mask = 0 ∨ unused then s.badOperand c
      else if s.wb.moves mask bin ∧ (soon ∨ s.wb.tariff.any (fun p => s.wb.moves p.mask p.bin)) then s.refuse c 0x0A01
      else { s with wb := { s.wb with tariff := s.wb.tariff ++ [{ cmd := c, mask := mask, bin := bin }] } }
    else s.badOperand c))

/-- A tariff change applies at a frame edge: its log entry, its record, and the command's end (10 R312, R313). -/
def State.applyTariff (s : State) (p : TariffPend) : State :=
  let frame := s.frame % 2 ^ 32
  if !s.wb.moves p.mask p.bin then s.ok p.cmd (dwords frame 0xFFFFFFFF 0 0)
  else
    let seq := s.wb.logSeq
    let old := (s.wb.binList.zipIdx.map (fun q => q.1 * 8 ^ q.2)).sum
    let body := leBytes 4 seq ++ leBytes 6 s.oph ++ leBytes 2 old ++ leBytes 4 s.clk.pcc ++ leBytes 1 p.mask.toNat ++
      leBytes 1 p.bin.val ++ leBytes 6 0 ++ leBytes 4 frame
    let s := s.mramStore (wbBase + 0xC000 + 32 * (seq % 256)) (withCrc32c body)
    let s := (places 4).foldl (fun s i =>
      if p.mask.getLsbD i.val then
        s.onWb i (fun w => { w with bin := p.bin, bins := ((s.frame, p.bin) :: (if w.bins.isEmpty then [(0, w.bin)] else w.bins)).take 4 })
      else s) s
    let s := { s with wb := { s.wb with logSeq := (seq + 1) % 2 ^ 32, loggedAt := some s.now } }
    ((s.wbEvent 0).studbook 0x24 0 (leBytes 4 seq ++ [BitVec.ofNat 8 p.mask.toNat, BitVec.ofNat 8 p.bin.val])).ok p.cmd (dwords frame seq 0 0)

/-- The tariff changes and the Weighbridge record that wait for a frame edge (10 R312, R317). -/
def State.applyWb (s : State) : State :=
  let q := s.wb.tariff
  let s := { s with wb := { s.wb with tariff := [] } }
  let s := q.foldl (fun s p => s.applyTariff p) s
  match s.wb.recPend with
  | none => s
  | some l =>
    let s := { s with wb := { s.wb with recPend := none } }
    (places 4).foldl (fun s i => match l[i.val]? with
      | some (rated, dead) => s.onWb i (fun w => { w with iRated := rated, deadMa := dead })
      | none => s) s

-- Exposure (10 R315, R320).

/-- The band of a temperature in m°C (10 R320). -/
def tempBand (t : Int) : Fin 16 := idx 16 (by decide) (clampInt 0 15 ((t + 15000) / 5000)).toNat

/-- EXPOSURE_TICK (10 R320): a second of a string. -/
def execExposureTick (str : Fin 4) (s : State) : Host.Outcome State Fault Refusal :=
  answer s (
    let t := if s.pwr.st = .stabled then none else s.hottest str
    match t with
    | some t => s.onWb str (fun w => { w with exposure := w.exposure.upd (tempBand t) (fun n => (n + 1) % 2 ^ 32) })
    | none => s.onWb str (fun w => { w with unmeas := (w.unmeas + 1) % 2 ^ 32 }))

/-- The bytes of an exposure slot (10 R314): the CRC covers what follows the header. -/
def exposureSlot (w : Wb) (seq : Nat) : List Byte :=
  let body := (places 4).flatMap (fun i =>
    (w.str.at i).exposure.toList.flatMap (leBytes 4) ++ leBytes 4 (w.str.at i).unmeas ++ leBytes 8 0)
  leBytes 4 0x57424531 ++ leBytes 8 seq ++ bvBytes 4 (crc32c body) ++ body

/-- The next exposure slot is written. -/
def State.writeExposure (s : State) : State :=
  let seq := s.wb.expSeq + 1
  let s := { s with wb := { s.wb with expSeq := seq } }
  s.mramStore (wbBase + 0xEC00 + 320 * (seq % 16)) (exposureSlot s.wb seq)

/-- EXPOSURE_SLOT_WRITE (10 R315): every 60 s. -/
def execExposureSlotWrite (s : State) : Host.Outcome State Fault Refusal := answer s (if s.isl.mem then s.writeExposure else s)

-- Statements (10 R318 to R320).

/-- FLAGS of a statement (10 R319). -/
def State.stmtFlags (s : State) : Nat :=
  strMask (fun i => (s.wb.str.at i).rollback) + 16 * bit s.pctl.split + 32 * bit ((places 32).any (fun i => (s.stalls.at i).oos)) +
    64 * bit s.cal.devChanged + 128 * bit s.halter.lockout

/-- A statement waits its turn: the command is accepted (10 R318). -/
def State.queueStmt (s : State) (c : Cmd) (health : Bool) : State :=
  { s with wb := { s.wb with stmts := s.wb.stmts ++
      [{ cmd := c, health := health, stage := .queued, edge := 0, oph := 0, ytime := 0, bins := [], flags := 0, bytes := [], addrs := [] }] } }

/-- METER_STATEMENT (0x83; 10 R318). -/
def execMeterStatement (c : Cmd) (s : State) : Host.Outcome State Fault Refusal :=
  answer s (s.run c false (fun s =>
    if !aligned16 (opField c 0 8) then s.badOperand c
    else if opField c 8 4 < 800 then s.complete c stBadOperand (dwords 0 800 0 0)
    else s.queueStmt c false))

/-- HEALTH_STATEMENT (0x84; 10 R318). Its LENGTH is known at its snapshot. -/
def execHealthStatement (c : Cmd) (s : State) : Host.Outcome State Fault Refusal :=
  answer s (s.run c false (fun s => if !aligned16 (opField c 0 8) then s.badOperand c else s.queueStmt c true))

/-- The header of a statement (10 R319). -/
def State.stmtHead (s : State) (x : Stmt) (len : Nat) : List Byte :=
  leBytes 4 (if x.health then 0xA02 else 0xA01) ++ leBytes 4 len ++ leBytes 8 s.wb.stmtSeq ++ leBytes 16 (opField x.cmd 16 16) ++
  deviceKey ++ leBytes 8 x.oph ++ leBytes 4 s.clk.pcc ++ leBytes 4 x.flags ++ leBytes 8 x.ytime

/-- The sum of a string's energies over its bins, in µWh. -/
def energySum (b : Bank 8 Nat) : Nat := (b.toList.map whole).sum

/-- The meter statement without its signature (10 R319). -/
def State.meterBytes (s : State) (x : Stmt) : List Byte :=
  let w (i : Fin 4) := s.wb.str.at i
  s.stmtHead x 800 ++
  (places 4).flatMap (fun i => leBytes 1 (x.bins.getD i.val 0) ++ leBytes 1 (bit (s.usedStr i)) ++ leBytes 2 0 ++
    leBytes 4 (w i).gap ++ leBytes 4 (w i).subst ++ leBytes 4 (w i).sat) ++
  (s.setDigest.take 8) ++
  (places 4).flatMap (fun i => (places 8).flatMap (fun b => leBytes 8 (whole ((w i).eDis.at b)) ++ leBytes 8 (whole ((w i).eChg.at b)))) ++
  (places 4).flatMap (fun i => leBytes 8 (whole (w i).qDis) ++ leBytes 8 (whole (w i).qChg))

/-- The outliers of the strings by falling score, ties by rising index (10 R320). -/
def State.outliers (s : State) : List (Fin 128 × Fin 16) :=
  let all := (places 4).flatMap (fun i => (s.limCells i).filter (fun p =>
    s.cellValid p.1 p.2.val && decide (s.est.output.outlier ≤ (s.estCell p.1 p.2).zScore)))
  let before (p q : Fin 128 × Fin 16) : Bool :=
    let a := (s.estCell p.1 p.2).zScore
    let b := (s.estCell q.1 q.2).zScore
    decide (b < a) || (a == b && decide (cellIndex p.1 p.2 < cellIndex q.1 q.2))
  all.foldl (fun l p => l.filter (fun q => before q p) ++ [p] ++ l.filter (fun q => !before q p)) []

/-- CAP_HIST bin of a part of Q_RATED (10 R320). -/
def capBin (q : Rat) : Nat :=
  let p := 100 * q
  if p < 60 then 0 else if 110 ≤ p then 21 else (ratFloor ((p - 575/10) / (25/10))).toNat

/-- The 256 bytes of a string in the health statement (10 R320). Q_RATED and the table are those of its first stall. -/
def State.healthBlock (s : State) (i : Fin 4) (out : List (Fin 128 × Fin 16)) : List Byte :=
  let e := s.estr.at i
  let w := s.wb.str.at i
  let learned := (s.limCells i).filter (fun p => s.cellValid p.1 p.2.val && (s.estCell p.1 p.2).capLearn)
  let bins := learned.map (fun p => capBin (1000 * (s.estCell p.1 p.2).q / ((s.groupOf p.1).qRated : Nat)))
  let g : Nat × Nat := match (s.stallsOf i).head? with
    | some k => ((s.est.group.at k).qRated, (s.est.group.at k).table.val)
    | none => (0, 0)
  let mine := (out.filter (fun p => s.strOf p.1 == some i)).length
  padTo 256 (leBytes 2 (fieldOf 16 e.sohCap) ++ leBytes 2 (fieldOf 16 e.sohRes) ++ leBytes 2 (s.notExcluded i) ++ leBytes 2 learned.length ++
    leBytes 4 g.1 ++ leBytes 4 g.2 ++ (List.range 22).flatMap (fun k => leBytes 2 ((bins.filter (fun b => b == k)).length)) ++ leBytes 4 0 ++
    w.exposure.toList.flatMap (leBytes 4) ++ leBytes 4 w.unmeas ++ leBytes 4 0 ++ leBytes 8 (energySum w.eDis) ++
    leBytes 8 (energySum w.eChg) ++ leBytes 2 mine ++ leBytes 1 s.est.output.refBin.val)

/-- The health statement without its signature (10 R320). -/
def State.healthBytes (s : State) (x : Stmt) : List Byte :=
  let out := s.outliers
  let listed := out.take 256
  s.stmtHead x (1160 + 8 * listed.length + 64) ++ padTo 32 s.stb.head ++ leBytes 4 (s.stb.made - 1) ++
  leBytes 4 (bit s.stb.full + 2 * bit (!s.stb.faults.isEmpty)) ++ (places 4).flatMap (fun i => s.healthBlock i out) ++
  leBytes 2 listed.length ++ leBytes 2 out.length ++ leBytes 4 0 ++
  listed.flatMap (fun p => leBytes 2 (cellIndex p.1 p.2) ++ leBytes 1 (s.estCell p.1 p.2).zScore ++ leBytes 1 0 ++
    leBytes 4 (fieldOf 32 (roundFree (1000000000 * (s.absZ p).getD 0))))

/-- A statement with its new state; none removes it. -/
def Wb.setStmt (w : Wb) (c : Cmd) (x : Option Stmt) : Wb :=
  { w with stmts := w.stmts.filterMap (fun y => if y.cmd.stamp == c.stamp then x else some y) }

/-- A statement is in progress. -/
def Wb.stmtBusy (w : Wb) : Bool := w.stmts.any (fun x => x.stage != .queued)

/-- The snapshot of edge E is complete: STMT_SEQ, the flush writes, and the statement's bytes (10 R318, steps 1 to 3). -/
def State.snapshot (s : State) (x : Stmt) : State :=
  let len := if x.health then 1224 + 8 * (s.outliers.take 256).length else 800
  if opField x.cmd 8 4 < len then
    ({ s with wb := s.wb.setStmt x.cmd none }).complete x.cmd stBadOperand (dwords 0 len 0 0)
  else
    let s := { s with wb := { s.wb with stmtSeq := s.wb.stmtSeq + 1 } }
    let s := (places 4).foldl (fun s i => s.writeCounters i) s
    let seqs := (places 4).flatMap (fun i => leBytes 8 (s.wb.str.at i).slotSeq)
    let body := leBytes 8 s.wb.stmtSeq ++ seqs
    let slot := wbBase + 0xE000 + 48 * (s.wb.stmtSeq % 64)
    let s := s.mramStore slot (withCrc32c body ++ leBytes 4 0)
    let addrs := (places 4).flatMap (fun i => codewordsOf (counterSlotAt i (s.wb.str.at i).slotSeq) 192) ++ codewordsOf slot 48
    let bytes := if x.health then s.healthBytes x else s.meterBytes x
    { s with wb := s.wb.setStmt x.cmd (some { x with stage := .flushing, bytes := bytes, addrs := addrs }) }

/-- The oldest statement that waits. -/
def State.nextStmt (s : State) : Option Stmt :=
  (s.wb.stmts.filter (fun x => x.stage == .queued)).foldl (fun m x => match m with
    | none => some x
    | some y => if s.hif.age y.cmd.stamp < s.hif.age x.cmd.stamp then some x else some y) none

/-- What the statements do at a frame edge, once the edge's products have entered the counters. -/
def State.stmtEdge (s : State) : State :=
  match s.wb.stmts.find? (fun x => x.stage == .armed) with
  | some x => if x.edge + 35 ≤ s.frame then s.snapshot x else s
  | none =>
    let free := match s.wb.releasedAt with | some t => decide (t + ticksPerS < s.now) | none => true
    if s.wb.stmtBusy ∨ free = false then s
    else match s.nextStmt with
      | none => s
      | some x => { s with wb := s.wb.setStmt x.cmd (some { x with
          stage := .armed, edge := s.frame, oph := s.oph, ytime := s.now, bins := s.wb.binList, flags := s.stmtFlags }) }

/-- What the Weighbridge does at a frame edge. -/
def State.wbEdge (s : State) : State :=
  let s := s.applyWb
  let s := if 36 ≤ s.frame then (places 4).foldl (fun s i => s.wbFrame i (s.frame - 36)) s else s
  s.stmtEdge

/-- STATEMENT_RELEASE (10 R318, steps 4 to 6): the flush writes are in MRAM; the statement is signed and written. -/
def execStatementRelease (s : State) : Host.Outcome State Fault Refusal :=
  answer s (match s.wb.stmts.find? (fun x => x.stage == .flushing) with
    | none => s
    | some x =>
      if s.mem.queue.all.any (fun w => x.addrs.contains w.addr) then s
      else
        let bytes := x.bytes ++ deviceSign x.bytes
        let s := { s with wb := { s.wb.setStmt x.cmd none with releasedAt := some s.now, stmtRel := field x.bytes 8 8 } }
        ((s.toHost (opField x.cmd 0 8) bytes).wbEvent 1).ok x.cmd (dwords bytes.length 0 0 0))

-- AON power-on (10 R312, R316).

/-- The last of the valid slots with the largest number, and whether any slot is invalid. `num` reads a slot's number. -/
def newestSlot (slots : List (List Byte)) (ok : List Byte → Bool) (num : List Byte → Nat) : Option (List Byte) × Bool :=
  ((slots.filter ok).foldl (fun m b => match m with
    | none => some b
    | some a => if num a < num b then some b else some a) none, slots.any (fun b => !ok b))

/-- A string's counters from its slot (10 R316). -/
def WbStr.load (w : WbStr) (b : List Byte) : WbStr :=
  { w with
    eDis := Vector.ofFn (fun k => field b (0x30 + 16 * k.val) 8 * 2 ^ 32), eChg := Vector.ofFn (fun k => field b (0x38 + 16 * k.val) 8 * 2 ^ 32)
    qDis := field b 0xB0 8 * 2 ^ 32, qChg := field b 0xB8 8 * 2 ^ 32, gap := field b 0x18 4, subst := field b 0x1C 4
    sat := field b 0x20 4, openFlow := field b 0x24 4, bin := idx 8 (by decide) (field b 5 1), bins := []
    rollback := (field b 6 1).testBit 0, slotSeq := field b 8 8 }

/-- The Weighbridge at an AON power-on (10 R316). -/
def State.loadWeighbridge (s : State) : State :=
  let (stmt, e0) := newestSlot ((List.range 64).map (fun k => s.mramRead (wbBase + 0xE000 + 48 * k) 48))
    (fun b => field b 40 4 == (crc32c (b.take 40)).toNat) (fun b => field b 0 8)
  let (exp, e1) := newestSlot ((List.range 16).map (fun k => s.mramRead (wbBase + 0xEC00 + 320 * k) 320))
    (fun b => field b 0 4 == 0x57424531 && field b 12 4 == (crc32c (b.drop 16)).toNat) (fun b => field b 4 8)
  let (log, _) := newestSlot ((List.range 256).map (fun k => s.mramRead (wbBase + 0xC000 + 32 * k) 32))
    (fun b => field b 0x1C 4 == (crc32c (b.take 0x1C)).toNat) (fun b => field b 0 4)
  let s := { s with wb := { s.wb with
    stmtSeq := match stmt with | some b => field b 0 8 + 64 | none => 0
    stmtRel := match stmt with | some b => field b 0 8 | none => 0
    expSeq := match exp with | some b => field b 4 8 | none => 0
    logSeq := match log with | some b => (field b 0 4 + 1) % 2 ^ 32 | none => 0 } }
  let s := match exp with
    | none => s
    | some b => (places 4).foldl (fun s i => s.onWb i (fun w => { w with
        exposure := Vector.ofFn (fun k => field b (0x10 + 76 * i.val + 4 * k.val) 4), unmeas := field b (0x10 + 76 * i.val + 64) 4 })) s
  let s := if e0 ∨ e1 then s.wbEvent 2 else s
  (places 4).foldl (fun s i =>
    let (slot, bad) := newestSlot ((List.range 64).map (fun k => s.mramRead (counterSlotAt i k) 192)) counterSlotOk (fun b => field b 8 8)
    let s := if bad then s.wbEvent 2 else s
    let s := match slot with | some b => s.onWb i (fun w => w.load b) | none => s
    let seq := (s.wb.str.at i).slotSeq
    let told := match stmt with | some b => field b (8 + 8 * i.val) 8 | none => 0
    if seq < told then
      (s.onWb i (fun w => { w with rollback := true })).studbook 0x0B i.val (leBytes 8 seq ++ leBytes 8 told)
    else s) s

end Sys2Proof.Machine
end

