-- ==== Sys2Proof/Machine/Links.lean ====
section
/-! DEFINITION. The stall links: units that become reached and unreached, enumeration and rejoin, breaks, and the reading of trim blocks (03 R86 to R108; 12 R351, R352). -/

namespace Sys2Proof.Machine

-- Stalls.

/-- The MX9 drives a stall: it belongs to a string, it is in service, and its PORT island is ready (03 R95, R112). -/
def State.driven (s : State) (i : Fin 32) : Bool :=
  (s.stalls.at i).str.isSome && !(s.stalls.at i).oos && s.isl.port.at (portOf i)

/-- Bits of `STALL_EVT`. -/
def State.stallEvent (s : State) (i : Fin 32) : State := { s with evt := { s.evt with stall := setBit s.evt.stall i.val } }

/-- A STALL_LINK record (13 R373): 1 break, 2 loss, 3 PHY fault, 4 rejoin. -/
def State.linkRecord (s : State) (i : Fin 32) (what : Byte) : State :=
  (s.stallEvent i).studbook 0x1A i.val [what, (s.stalls.at i).breakPos.setWidth 8]

/-- One more break, loss or PHY fault of a stall. -/
def State.countLoss (s : State) (i : Fin 32) : State := s.onStall i (fun x => { x with breakCnt := satAdd 0xFFFF x.breakCnt 1 })

/-- Units of a stall currently reached. -/
def State.reachedOf (s : State) (i : Fin 32) : List (Fin 128) := (unitsOf i).filter (fun u => (s.ulink.at u).reached)

/-- A full enumeration of the stall runs. -/
def Stall.enumerating (x : Stall) : Bool := match x.enum with | some r => !r.rejoin | none => false

-- A unit becomes unreached or reached (03 R95, R106, R114; 05 R164, R172; 12 R356).

/-- A unit becomes unreached: it is swept no more, its probes, tests and runs end, and what was staged for it is held. -/
def State.loseUnit (s : State) (u : Fin 128) : State :=
  let s := (s.loseProbes u).abortRun u
  let s := s.onLink u (fun l => { l with
    reached := false, sweepFrom := none, missRun := 0, delivering := false, gotSweep := false, gotCurrent := false
    maskLog := if l.reached then ((s.frame, 0) :: l.maskLog).take 64 else l.maskLog })
  let s := s.onSweep u (fun w => { w with now := [], staged := w.staged.map (fun l => { l with frame := none }) })
  let s := s.onCal u (fun x => { x with trims := x.trims.map (fun t => { t with
    todo := t.asked.map Prod.snd ++ t.todo, asked := [] }) })
  match s.strOf u with
  | some str => if s.mp4Of str = some u then s.onStr str (fun x => { x with now := {} }) else s
  | none => s

/-- A unit becomes reached: a stored host mask comes into force (03 R114). -/
def State.reachUnit (s : State) (u : Fin 128) : State :=
  s.onLink u (fun l => { l with reached := true, missRun := 0, hostFrom := some (l.hostFrom.getD s.now), stale := true })

-- Outcomes (03 R97, R98).

/-- The outcome of a position from what was found and what the roster holds; `assigned` is false for a unit that answered
beyond the delay limit. -/
def UnitLink.judge (l : UnitLink) (assigned : Bool) : BitVec 3 :=
  if l.foundType = 0 then (if l.rosterType = 0 then 4 else 2)
  else if !assigned then 6
  else if l.foundType ≠ 1 ∧ l.foundType ≠ 2 then 5
  else if l.rosterType = 0 then 3
  else if l.foundType = l.rosterType ∧ l.foundId = l.rosterId then 0
  else 1

-- Trim blocks (12 R351, R352).

/-- PAGES of a unit's trim block. -/
def trimPages (mp4 : Bool) : Nat := if mp4 then 8 else 27

/-- Reading of a unit's trim block starts, or goes on with the pages that are missing; `again` is how often a failed page may
be asked for again. A reading that is under way goes on. -/
def State.readTrims (s : State) (u : Fin 128) (again : Nat) : State :=
  let all := List.range (trimPages (s.isMp4 u))
  s.onCal u (fun x => match x.trims with
    | none => { x with trims := some { todo := all, again := again } }
    | some t =>
      if t.todo.isEmpty ∧ t.asked.isEmpty then
        { x with trims := some { t with
          todo := all.filter (fun p => !(t.got.any (fun g => g.1 == p))), fails := [], again := again } }
      else x)

/-- The new entry that a valid trim block gives (12 R352): header fields and body; `block` is the block, `gen` comes later. -/
def trimEntry (l : UnitLink) (mp4 : Bool) (block : List Byte) : List Byte :=
  let b := splice (splice (List.replicate 1024 0) 4 (bvBytes 1 l.rosterType)) 8 (bvBytes 8 l.rosterId)
  if mp4 then splice (splice b 0x20 (slice block 8 72)) 0x150 (slice block 80 2) else splice b 0x20 (slice block 8 308)

/-- A trim block is valid: its identity and its CRC (12 R352). -/
def trimBlockOk (l : UnitLink) (mp4 : Bool) (block : List Byte) : Bool :=
  let n := if mp4 then 84 else 316
  field block 0 8 == l.rosterId.toNat && field block n 4 == (crc32c (block.take n)).toNat

/-- Every page of a trim block has arrived: a valid block gives a new entry; of a bad one no page is kept. -/
def State.trimsDone (s : State) (u : Fin 128) (t : TrimRead) : State :=
  let mp4 := s.isMp4 u
  let pages := trimPages mp4
  let block := (List.range pages).flatMap (fun p => ((t.got.find? (fun g => g.1 == p)).map Prod.snd).getD [])
  if t.got.length < pages then s
  else if trimBlockOk (s.ulink.at u) mp4 block then
    (s.onCal u (fun x => { x with trims := none })).writeEntry u (trimEntry (s.ulink.at u) mp4 block) 1 [] 1 false
  else s.onCal u (fun x => { x with trims := some { t with todo := [], asked := [], got := [] } })

/-- A reply to TRIM_READ from a unit in the running frame: PAGE and PAGES, then 12 bytes of the block (12 R351). The result is
none where the reply answers no question. -/
def State.trimReply (s : State) (u : Fin 128) (reply : BitVec 112) : Option State :=
  let b := bvBytes 14 reply
  match (s.ucal.at u).trims with
  | none => none
  | some t =>
    match t.asked.find? (fun a => a.1 + (unitOf u).val == s.frame && a.2 == field b 0 1) with
    | none => none
    | some (f, p) =>
      if field b 1 1 ≠ trimPages (s.isMp4 u) then none
      else
        let t := { t with asked := t.asked.filter (fun a => a.1 != f), got := (p, b.drop 2) :: t.got }
        some ((s.onCal u (fun x => { x with trims := some t })).trimsDone u t)

/-- A page whose reply has not come by the end of its frame failed (12 R352). -/
def State.trimsMissed (s : State) (u : Fin 128) : State :=
  s.onCal u (fun x => { x with trims := x.trims.map (fun t =>
    let late := (t.asked.filter (fun a => decide (a.1 + (unitOf u).val ≤ s.frame))).map Prod.snd
    let fails := late ++ t.fails
    let retry := late.filter (fun p => decide (fails.count p ≤ t.again))
    { t with asked := t.asked.filter (fun a => decide (s.frame < a.1 + (unitOf u).val)), fails := fails, todo := retry ++ t.todo }) })

/-- The page that is asked for in the running frame (12 R352: one page per frame). -/
def State.askTrims (s : State) (u : Fin 128) : State :=
  match (s.ucal.at u).trims with
  | some t => match t.todo with
    | p :: rest =>
      (s.onCal u (fun x => { x with trims := some { t with todo := rest, asked := (s.frame, p) :: t.asked } })).sendLink (stallOf u)
        { bcast := false, addr := unitOf u, cmd := 8, arg := BitVec.ofNat 32 (16 * p) }
    | [] => s
  | none => s

-- Enumeration (03 R95, R96).

/-- A command to every addressed unit. -/
def linkAll (cmd : BitVec 5) : LinkSlot := { bcast := true, addr := 0, cmd := cmd, arg := 0 }

/-- QUERY_OPEN: it carries no address, and a unit that holds none answers it (03 R89). -/
def queryOpen : LinkSlot := { bcast := false, addr := 0, cmd := 1, arg := 0 }

/-- ASSIGN of an address to the unit with an identity (03 R89): the unit holds no address yet, so the command is a
broadcast. -/
def assign (k : Fin 4) (id : BitVec 64) : LinkSlot :=
  { bcast := true, addr := k, cmd := 2, arg := BitVec.ofNat 32 (k.val + 4 * (id.toNat % 2 ^ 30)) }

/-- The hold-off of a unit in SET_DELAY (03 R94): H = 2000 ns − D in steps of 3.906 ns, to the nearest step. -/
def holdOff (delay : Nat) : Nat := (ratRound (((2000 - delay : Nat) : Rat) * 256 / 1000)).toNat

/-- SET_DELAY of a unit. -/
def State.setDelay (s : State) (i : Fin 32) (k : Fin 4) : LinkSlot :=
  { bcast := false, addr := k, cmd := 4, arg := BitVec.ofNat 32 (holdOff (s.ulink.at (unitPos i k)).delay) }

/-- A full enumeration of a stall starts (03 R95): its units are unreached, and nothing found before counts. -/
def State.startEnum (s : State) (i : Fin 32) (cause : BitVec 4) : State :=
  let s := (unitsOf i).foldl (fun s u => (s.loseUnit u).onLink u (fun l => { l with foundType := 0, foundId := 0, segDelay := 0, delay := 0 })) s
  s.onStall i (fun x => { x with
    lstate := .enumerating, breakPos := 4, cause := cause, enumCnt := x.enumCnt + 1, linkQ := [], rollCall := []
    enum := some { phase := .start, pos := 0, a := 0, rejoin := false, first := 0 } })

/-- Frame 0 of a full enumeration: RELEASE, and QUERY_OPEN for position 0. -/
def State.kickEnum (s : State) (i : Fin 32) : State :=
  match (s.stalls.at i).enum with
  | some r =>
    if r.phase = .start then
      ((s.sendLink i (linkAll 0x0B)).sendLink i queryOpen).onStall i (fun x => { x with enum := some { r with phase := .query, a := s.frame } })
    else s
  | none => s

/-- The MX9 uses every unit of a stall that became reached (03 R96 step 6, R100, R107; 12 R348, R352): it configures the units
that it sweeps, and reads the trims of those whose entry is not valid. -/
def State.takeUnits (s : State) (i : Fin 32) (first : Nat) : State :=
  (unitsOf i).foldl (fun s u =>
    let l := s.ulink.at u
    if l.reached = false ∨ l.outcome ≠ 0 ∨ l.sweepFrom.isSome then s
    else if (s.ucal.at u).entry.isNone then s.readTrims u 0
    else (s.configureUnit u first).onSweep u (fun w => { w with staged := w.staged.map (fun k => { k with frame := some first }) })) s

/-- ENUMERATE commands that waited for a stall complete once no other stall that they name is still enumerating (03 R113). -/
def State.enumDone (s : State) (i : Fin 32) : State :=
  let cmds := (s.stalls.at i).enumCmds
  let s := s.onStall i (fun x => { x with enumCmds := [] })
  let ready := cmds.filter (fun c => !((places 32).any (fun j => (s.stalls.at j).enumCmds.any (fun d => d == c))))
  ready.foldl (fun s c =>
    let named := (places 32).filter (fun j => (opField c 0 4).testBit j.val && !(s.stalls.at j).oos)
    let mask (p : Fin 32 → Bool) : Nat := (named.filter p).foldl (fun m j => m + 2 ^ j.val) 0
    s.ok c (dwords (mask s.stallRosterOk) (mask (fun j => (s.stalls.at j).found != 0)) 0 0)) s

/-- A stall without unit 0 is Lost (03 R108); the loss is marked once. -/
def State.becomeLost (s : State) (i : Fin 32) : State :=
  let marked := (s.stalls.at i).lost
  let s := s.onStall i (fun x => { x with lstate := .lost, breakPos := 0, lost := true })
  if marked then s else (s.countLoss i).linkRecord i 2

/-- A full enumeration is complete; the units below `n` hold their addresses (03 R96 to R98). -/
def State.completeEnum (s : State) (i : Fin 32) (n : Nat) : State :=
  let s := (unitsOf i).foldl (fun s u =>
    let held := decide ((unitOf u).val < n)
    let s := s.onLink u (fun l => { l with outcome := l.judge held })
    if held then s.reachUnit u else s) s
  let found := ((unitsOf i).filter (fun u => (s.ulink.at u).foundType != 0)).length
  let s := s.onStall i (fun x => { x with enum := none, found := BitVec.ofNat 3 found, known := true })
  let s := if n = 0 then s.becomeLost i
    else s.onStall i (fun x => { x with lstate := .running, breakPos := 4, lost := false })
  ((s.stallEvent i).takeUnits i (firstAfter s.frame)).enumDone i

/-- Every unit of the latest enumeration is reached again, or which position is the first that is not. -/
def State.firstUnreached (s : State) (i : Fin 32) : Option (Fin 4) :=
  (places 4).find? (fun k =>
    let l := s.ulink.at (unitPos i k)
    l.foundType != 0 && l.outcome != 6 && !l.reached)

/-- A rejoin attempt is over; units from `first` to below `n` hold their addresses (03 R107). It began with the SET_DELAY of
the frame before. -/
def State.completeRejoin (s : State) (i : Fin 32) (first n : Nat) : State :=
  let s := s.onStall i (fun x => { x with enum := none })
  if n ≤ first then s
  else
    let s := (unitsOf i).foldl (fun s u =>
      if first ≤ (unitOf u).val ∧ (unitOf u).val < n then s.reachUnit u else s) s
    let s := match s.firstUnreached i with
      | none => s.onStall i (fun x => { x with lstate := .running, breakPos := 4 })
      | some k => s.onStall i (fun x => { x with lstate := .degraded, breakPos := BitVec.ofNat 3 k.val })
    (s.linkRecord i 4).takeUnits i (firstAfter (s.frame - 1))

/-- An enumeration or rejoin is over at a frame edge, units below `n` holding their addresses. -/
def State.completeRun (s : State) (i : Fin 32) (r : EnumRun) : State :=
  if r.rejoin then s.completeRejoin i r.first r.pos else s.completeEnum i r.pos

/-- The units that a run assigned. -/
def EnumRun.assigned (r : EnumRun) : List (Fin 4) := (places 4).filter (fun k => decide (r.first ≤ k.val) && decide (k.val < r.pos))

/-- What an enumeration or a rejoin sends at a frame edge, and how it goes on (03 R96, steps 1, 3, 4 and 5). A rejoin asks
once for each position (R107). -/
def State.enumEdge (s : State) (i : Fin 32) : State :=
  match (s.stalls.at i).enum with
  | none => s
  | some r =>
    let put (s : State) (r : EnumRun) : State := s.onStall i (fun x => { x with enum := some r })
    match r.phase with
    | .start => s.kickEnum i
    | .query =>
      if s.frame = r.a ∨ (r.rejoin = false ∧ r.a < s.frame ∧ s.frame ≤ r.a + r.pos + 3) then s.sendLink i queryOpen else s
    | .assign =>
      let k : Fin 4 := idx 4 (by decide) r.pos
      let s := s.sendLink i (assign k (s.ulink.at (unitPos i k)).foundId)
      if r.pos = 3 then put s { r with phase := .setDelay, pos := 4 }
      else put s { r with phase := .query, pos := r.pos + 1, a := s.frame + 1 }
    | .setDelay => put (r.assigned.foldl (fun s k => s.sendLink i (s.setDelay i k)) s) { r with phase := .settle }
    | .settle => s.completeRun i r

/-- An enumeration ends at the running frame's edge without a further unit: SET_DELAY goes to the units assigned, or it is
complete at once where there is none (03 R96, steps 2 and 5). -/
def State.endEnum (s : State) (i : Fin 32) (r : EnumRun) : State :=
  if r.assigned.isEmpty then s.completeRun i r
  else (r.assigned.foldl (fun s k => s.sendLink i (s.setDelay i k)) s).onStall i (fun x => { x with enum := some { r with phase := .settle } })

/-- A reply record of a unit without an address in an enumeration (03 R94, R96 step 2, R107): type, identity and the delay of
the segment below it. A reply with type 0 or with the identity just assigned counts as none. -/
def State.enumReply (s : State) (i : Fin 32) (reply : BitVec 112) : State :=
  match (s.stalls.at i).enum with
  | none => s
  | some r =>
    let k : Fin 4 := idx 4 (by decide) r.pos
    let u := unitPos i k
    let b := bvBytes 14 reply
    let type_ : BitVec 8 := b.getD 0 0
    let id : BitVec 64 := BitVec.ofNat 64 (field b 1 8)
    let seg := field b 9 2 % 4096
    let before := if r.pos = 0 then none else some (s.ulink.at (unitPos i (idx 4 (by decide) (r.pos - 1))))
    let stale : Bool := match before with | some l => l.foundId == id && l.foundType != 0 | none => false
    if r.phase ≠ .query ∨ s.frame < r.a + r.pos ∨ r.a + r.pos + 3 < s.frame ∨ type_ = 0 ∨ stale then s
    else
      let delay := (match before with | some l => l.delay | none => 0) + seg
      let held := decide (delay ≤ 1600)
      let differs := r.rejoin && ((s.ulink.at u).foundType != type_ || (s.ulink.at u).foundId != id)
      let s := s.onLink u (fun l =>
        let l := { l with foundType := type_, foundId := id, segDelay := seg, delay := delay }
        { l with outcome := if !r.rejoin then l.outcome else if held && differs then 1 else l.judge held })
      if held then s.onStall i (fun x => { x with enum := some { r with phase := .assign } })
      else s.onStall i (fun x => { x with enum := some { r with phase := if r.assigned.isEmpty then .settle else .setDelay } })

-- Breaks (03 R106 to R108).

/-- A break at a position: the units from there up are unreached. -/
def State.declareBreak (s : State) (i : Fin 32) (k : Fin 4) : State :=
  let s := (unitsOf i).foldl (fun s u => if k.val ≤ (unitOf u).val then s.loseUnit u else s) s
  let s := s.onStall i (fun x => { x with
    enum := none, rollCall := x.rollCall.filter (fun j => decide (j.val < k.val))
    linkQ := x.linkQ.filter (fun c => decide (c.addr.val < k.val)) })
  if k = 0 then s.becomeLost i
  else ((s.onStall i (fun x => { x with lstate := .degraded, breakPos := BitVec.ofNat 3 k.val })).countLoss i).linkRecord i 1

/-- ROLL_CALL to the reached units, and a rejoin attempt at the break position unless one still runs (03 R107). -/
def State.rollCall (s : State) (i : Fin 32) : State :=
  let s := s.sendLink i (linkAll 3)
  let s := s.onStall i (fun x => { x with rollCall := (s.reachedOf i).map unitOf, rollAt := s.frame })
  if (s.stalls.at i).enum.isSome then s
  else
    let k : Fin 4 := idx 4 (by decide) (s.stalls.at i).breakPos.toNat
    let s := (s.sendLink i { bcast := false, addr := k, cmd := 3, arg := 0 }).sendLink i queryOpen
    s.onStall i (fun x => { x with enum := some { phase := .query, pos := k.val, a := s.frame, rejoin := true, first := k.val } })

/-- A PORT island has become ready: its stalls in a string and in service enumerate (03 R95); in a check cycle only those of
`mask` (04 R154). -/
def State.startPort (s : State) (p : Fin 4) (mask : BitVec 32) : State :=
  let s := { s with isl := { s.isl with port := s.isl.port.put p true, portAt := s.isl.portAt.put p s.now } }
  (places 32).foldl (fun s i =>
    if portOf i = p ∧ s.driven i ∧ mask.getLsbD i.val then s.startEnum i 0 else s) s

end Sys2Proof.Machine
end

