-- ==== Sys2Proof/Machine/Stalls.lean ====
section
/-! DEFINITION. The rows of the stalls (chapter 03): frame edges, upstream records and what arriving samples do (04 R126 to R143), breaks, loopback, balancing leases, and the commands on stalls. -/

namespace Sys2Proof.Machine

-- The frame edge (03 R87 to R89).

/-- The unit's balancing switches are driven: a reached MC16 that matches its roster (03 R100, R114). -/
def State.balanced (s : State) (u : Fin 128) : Bool :=
  let l := s.ulink.at u
  l.reached && l.outcome == 0 && s.isMc16 u && !s.outOfService u

/-- A string's accepted rate changes are sent to its units in the 8 frames before their boundary (04 R120). -/
def State.sendRates (s : State) (str : Fin 4) : State :=
  (s.strs.at str).ratePend.foldl (fun s p =>
    if s.frame + 7 = p.2.1 then
      (s.unitsOfStr str).foldl (fun s u =>
        if (s.ulink.at u).sweepFrom.isSome then
          s.onStall (stallOf u) (fun x => { x with
            linkQ := ({ bcast := false, addr := unitOf u, cmd := 5, arg := p.1.setWidth 32 } : LinkSlot) :: x.linkQ })
        else s) s
    else s) s

/-- A waiting command goes out; once the last part of a slot list has gone, the unit applies it at the next 8-frame boundary
(04 R125). -/
def State.sendQueued (s : State) (i : Fin 32) (k : LinkSlot) : State :=
  let s := s.sendLink i k
  if k.cmd = 6 ∧ k.arg.toNat % 32 = 20 then
    s.onSweep (unitPos i k.addr) (fun w => { w with
      staged := w.staged.map (fun l => { l with frame := some (l.frame.getD (boundary8 (s.frame + 1))) }) })
  else s

/-- The command slots of a stall's downstream window: what enumeration sends, masks that changed, then what waits, four slots in
all (03 R88, R89, R115); outside an enumeration also a trim page (12 R352). -/
def State.fillWindow (s : State) (i : Fin 32) : State :=
  let before := s.out.length
  let s := s.enumEdge i
  if (s.stalls.at i).enumerating then s
  else
    let stale := ((unitsOf i).filter (fun u => s.balanced u && (s.ulink.at u).stale)).take (4 - (s.out.length - before))
    let s := stale.foldl (fun s u => s.sendBalance u) s
    let room := 4 - (s.out.length - before)
    let q := (s.stalls.at i).linkQ
    let s := (q.take room).foldl (fun s k => s.sendQueued i k) (s.onStall i (fun x => { x with linkQ := q.drop room }))
    let ask := (unitsOf i).filter (fun u => (s.ulink.at u).reached && ((s.ucal.at u).trims.any (fun t => !t.todo.isEmpty)))
    if (s.stalls.at i).enum.isSome then s
    else (ask.take (4 - (s.out.length - before))).foldl (fun s u => s.askTrims u) s

/-- A stall at a frame edge: its averaging settings at a sweep start (04 R149), its window, and its ENUM bit. -/
def State.stallEdge (s : State) (i : Fin 32) : State :=
  if s.driven i then
    let n := framesOf (s.rateNow (unitPos i 0))
    let s := if s.frame % n = 0 ∧ (s.stalls.at i).avgPend ≠ [] then s.applyAverage i else s
    if (s.stalls.at i).lstate = .phyFault then s
    else (s.emit (.window i (s.stalls.at i).enum.isSome (BitVec.ofNat 64 s.now))).fillWindow i
  else s

/-- What happens at a frame edge that has come. -/
def State.atFrameEdge (s : State) (senseMv : Bank 12 Nat) : State :=
  let s := s.applyTrips.sampleContactors senseMv
  let s := (places 4).foldl (fun s str => s.sendRates str) s
  let s := (places 32).foldl (fun s i => s.stallEdge i) s
  s.wbEdge

/-- FRAME_EDGE (03 R87): time goes on to the next frame edge, and the frame's work is done. TB, which clocks yard time, does
not run in Stabled. -/
def execFrameEdge (senseMv : Bank 12 Nat) (s : State) : Host.Outcome State Fault Refusal :=
  answer s (if s.isl.tb then (s.advance (ticksPerFrame - s.now % ticksPerFrame)).atFrameEdge senseMv else s)

-- What a sweep that arrives, or that is missing, does.

/-- The slots of a sweep that calibration or a test borrowed (11 R342; 12 R351; 05 R171). -/
def State.borrowedSlots (s : State) (u : Fin 128) (start : Nat) : BitVec 24 :=
  let w := s.uswp.at u
  let test : BitVec 24 := match (s.uint.at u).test with
    | some t => if t.phase ≠ .waiting ∧ t.from_ < start then BitVec.ofNat 24 (2 ^ t.slot) else 0
    | none => 0
  let run : BitVec 24 := match (s.ucal.at u).run with
    | some r => match r.routeAt with
      | some f => if f < start then w.refSlots else 0
      | none => 0
    | none => 0
  w.borrows.foldl (fun m b => if b.2.1 < start ∧ start ≤ b.2.2 then m ||| b.1 else m) (test ||| run)

/-- A sweep as the history keeps it. -/
def State.makeSweep (s : State) (u : Fin 128) (start : Nat) (raw : Option (List (BitVec 18))) (flags : BitVec 15) : Sweep :=
  let w := s.uswp.at u
  { start := start, raw := raw, codes := w.codesAt start, rate := s.rateAt u start
    era := if w.restart ≤ start then w.era else w.era - 1, flags := flags, borrowed := s.borrowedSlots u start }

/-- The raw codes of a sweep by slot code, without the borrowed slots. -/
def Sweep.own (n : Sweep) : List (BitVec 8 × BitVec 18) :=
  ((n.codes.zip (n.raw.getD [])).zipIdx.filter (fun p => !n.borrowed.getLsbD p.2)).map Prod.fst

/-- The raw code of a slot code, borrowed slots included. -/
def Sweep.rawOf (n : Sweep) (code : BitVec 8) : Option (BitVec 18) :=
  ((n.codes.zip (n.raw.getD [])).find? (fun p => p.1 == code)).map Prod.snd

/-- The samples of a sweep as they arrive (04 R126; 12 R349): the temperatures first, since the others are corrected with
them. -/
def State.arriving (s : State) (u : Fin 128) (n : Sweep) : State × List (BitVec 8 × Sample) :=
  let entry := (((s.ucal.at u).forSweep n.start).2).getD []
  let temps : List (BitVec 8) := [0x15, 0x13, 0x86]
  let hot := (n.own.filter (fun p => temps.contains p.1)).map (fun p => (p.1, s.calibrate u entry p.1 p.2))
  let t0 := if s.isMp4 u then validOf hot 0x86 else validOf hot 0x13
  let s := s.onSweep u (fun w => { w with
    tDie := match validOf hot 0x15 with | some t => some t | none => w.tDie
    tT0 := match t0 with | some t => some t | none => w.tT0 })
  let smp := n.own.map (fun p => (p.1, s.calibrate u entry p.1 p.2))
  (s.onSweep u (fun w => { w with now := smp }), smp)

/-- The newest value of an insulation input: above the range it reads 0x7F_FFFF, which counts (04 R126; 07 R237). -/
def isoOf (smp : List (BitVec 8 × Sample)) (code : BitVec 8) : Option Int :=
  match sampleOf smp code with
  | some v => if v.st = .valid ∨ (v.st = .saturated ∧ v.val = valueMax) then some v.val else none
  | none => none

/-- One frame's currents arrive for a string (04 R124, R143; 05 R159; 07 R227): `g` is their frame, and the codes are none where
they are missing. -/
def State.pairArrives (s : State) (u : Fin 128) (str : Fin 4) (g : Nat) (pair : Option (BitVec 18 × BitVec 18)) : State :=
  let s := s.onSweep u (fun w => { w with pairs := ((g, pair) :: w.pairs).take 64 })
  match pair with
  | none => (s.onStr str (fun x => { x with now := { x.now with iMain := none, iCheck := none } })).onIMain str
  | some (m, c) =>
    let start := s.sweepOf u g
    let entry := (((s.ucal.at u).forSweep start).2).getD []
    let a := s.calibrate u entry 0x80 m
    let b := s.calibrate u entry 0x81 c
    let val (v : Sample) : Option Int := if v.st = .valid then some v.val else none
    let s := s.onStr str (fun x => { x with
      now := { x.now with iMain := val a, iCheck := val b }, curGood := s.now })
    let s := ((s.comparePair u str a b).onIMain str).shuntFrame str g m c
    match val a with
    | some ma => s.estAbs str ma.natAbs
    | none => s

/-- The other inputs of a string's MP4 arrive (07 R220, R223 to R225, R230, R237). -/
def State.mp4Arrives (s : State) (str : Fin 4) (n : Sweep) (smp : List (BitVec 8 × Sample)) : State :=
  let s := s.onStr str (fun x => { x with now := { x.now with
    vString := validOf smp 0x82, vLink := validOf smp 0x83, isoP := isoOf smp 0x84, isoN := isoOf smp 0x85 } })
  let s := if (validOf smp 0x83).isSome then s.onVLink str (slotInstant n.start (framesOf n.rate) 3) else s
  s.onIso str

/-- Marks when each cell and the temperatures last had a value of use (05 R157). The sweep is the one whose aligned record has
just been formed. An Invalid cell's value counts as it would without the mark. -/
def State.markAges (s : State) (u : Fin 128) : State :=
  let w := s.uswp.at u
  match w.alHist with
  | [] => s
  | (start, slots) :: _ =>
    let good (v : Sample) : Bool := v.st == .valid || v.st == .alignReduced || v.st == .unaligned || v.st == .saturated
    let at_ := sweepInstant start
    let temps := slots.any (fun p => (p.1 == 0x13 || p.1 == 0x14 || p.1 == 0x15) && good p.2)
    if (s.ulink.at u).delivering then
      s.onInteg u (fun i => { i with
        cellGood := i.cellGood.each (fun c t => match sampleOf slots (BitVec.ofNat 8 c.val) with
          | some v => if good v then at_ else t
          | none => t)
        tempGood := if temps then some at_ else i.tempGood })
    else s

/-- A check sweep is counted (04 R154, R155): cells outside the window, and UW_CAUSE. -/
def State.checkSweep (s : State) (u : Fin 128) (n : Sweep) (smp : List (BitVec 8 × Sample)) : State :=
  let check := match s.pwr.wake with | some k => k.check | none => false
  if !check then s
  else
    let out (c : Fin 16) : Bool := match sampleOf smp (BitVec.ofNat 8 c.val) with
      | some v => decide ((s.sleep.upper : Int) * 10000 < v.val) || decide (v.val < (s.sleep.lower : Int) * 10000)
      | none => false
    s.onSweep u (fun w => { w with
      chkOut := w.chkOut.each (fun c k => k + bit (out c)), chkSweeps := w.chkSweeps + 1
      chkUw := w.chkUw || (n.raw.isSome && n.flags.getLsbD 0) })

/-- What an MC16's sweep does beyond its records: a live run and the drift watch (12 R354, R357), and the estimator's input. -/
def State.mc16Arrives (s : State) (u : Fin 128) (str : Fin 4) (n : Sweep) (smp : List (BitVec 8 × Sample)) : State :=
  let code (k : BitVec 8) : Option Int := match n.rawOf k with
    | some x => if codeSaturated x then none else some x.toInt
    | none => none
  let s := s.runSweep u n.start (code 0x11) (code 0x12)
  let s := s.driftSweep u (validOf smp 0x11) (validOf smp 0x12)
  (s.checkSweep u n smp).estSweep u str

/-- A sweep of a unit of a string has arrived, or is missing (04 R126 to R143). -/
def State.sweepArrives (s : State) (u : Fin 128) (str : Fin 4) (start : Nat) (raw : Option (List (BitVec 18))) (flags : BitVec 15) : State :=
  let n := s.makeSweep u start raw flags
  let (s, smp) := s.arriving u n
  let s := s.onSweep u (fun w => { w with history := (n :: w.history).take 6 })
  let s := s.compareSweep u str smp
  let mine := s.mp4Of str == some u
  let s := if mine then
      let pair : Option (BitVec 18 × BitVec 18) := match n.rawOf 0x80, n.rawOf 0x81 with
        | some m, some c => some (m, c)
        | _, _ => none
      (s.pairArrives u str (start + framesOf n.rate - 1) pair).mp4Arrives str n smp
    else s
  let s := (s.formRecords u).writeImage u
  let s := if s.isMc16 u then (s.markAges u).mc16Arrives u str n smp else if mine then s.estCurrent u str else s
  s.onTemps str

-- UPSTREAM_RECORD (03 R90 to R93).

/-- A record that is discarded counts in CRC_CNT (03 R92). -/
def State.discard (s : State) (i : Fin 32) : State := s.onStall i (fun x => { x with crcCnt := satAdd 0xFFFF x.crcCnt 1 })

/-- A sweep record (04 R127). -/
def State.sweepRecord (s : State) (i : Fin 32) (str : Fin 4) (r : UpRecord) : State :=
  let u := unitPos i r.unit
  match s.expectedSweep u s.frame with
  | some start =>
    if r.tag ≠ BitVec.ofNat 8 start then s.discard i
    else if (s.ulink.at u).gotSweep then s
    else (s.onLink u (fun l => { l with gotSweep := true })).sweepArrives u str start (some r.codes) r.flags
  | none => if (s.ulink.at u).sweepFrom.isSome then s.discard i else s

/-- A current record (03 R90, R91; 04 R124): its tag is that of the sweep that its frame lies in. -/
def State.currentRecord (s : State) (i : Fin 32) (str : Fin 4) (r : UpRecord) : State :=
  let u := unitPos i r.unit
  match s.expectedPair u s.frame with
  | some g =>
    if r.tag ≠ BitVec.ofNat 8 (s.sweepOf u g) then s.discard i
    else if (s.ulink.at u).gotCurrent then s
    else
      let pair : Option (BitVec 18 × BitVec 18) := match r.codes with
        | m :: c :: _ => some (m, c)
        | _ => none
      let s := s.onLink u (fun l => { l with gotCurrent := true })
      if s.mp4Of str = some u then s.pairArrives u str g pair else s
  | none => if (s.ulink.at u).sweepFrom.isSome then s.discard i else s

/-- A reply record: a trim page, the answer to ROLL_CALL, or the answer to QUERY_OPEN (03 R90, R96, R107; 12 R351). -/
def State.replyRecord (s : State) (i : Fin 32) (r : UpRecord) : State :=
  let u := unitPos i r.unit
  match (if (s.ulink.at u).reached then s.trimReply u r.reply else none) with
  | some t => t
  | none =>
    let x := s.stalls.at i
    if x.rollCall.contains r.unit ∧ s.frame = x.rollAt + r.unit.val then
      s.onStall i (fun x => { x with rollCall := x.rollCall.filter (fun k => k != r.unit) })
    else if r.unit = 0 then s.enumReply i r.reply
    else s

/-- UPSTREAM_RECORD (03 R90): a whole record arrives in the running frame. -/
def execUpstreamRecord (stall : Fin 32) (r : UpRecord) (s : State) : Host.Outcome State Fault Refusal :=
  answer s (match (s.stalls.at stall).str with
    | some str =>
      if s.driven stall = false ∨ (s.stalls.at stall).lstate = .phyFault then s
      else if !r.crcOk || !r.inWindow || r.kind == 3 then s.discard stall
      else if r.kind = 0 then s.sweepRecord stall str r
      else if r.kind = 1 then s.currentRecord stall str r
      else s.replyRecord stall r
    | none => s)

-- UPSTREAM_WINDOW_END (03 R104).

/-- A unit at the end of the upstream window: what was expected and has not come is missing (03 R104, R106). -/
def State.unitWindowEnd (s : State) (u : Fin 128) (str : Fin 4) : State :=
  let l := s.ulink.at u
  let expS := s.expectedSweep u s.frame
  let expP := s.expectedPair u s.frame
  let missS := expS.isSome && !l.gotSweep
  let missP := expP.isSome && !l.gotCurrent
  let s := s.onLink u (fun l => { l with
    gotSweep := false, gotCurrent := false
    missRun := if expS.isNone && expP.isNone then l.missRun else if missS || missP then l.missRun + 1 else 0 })
  let s := match expS with
    | some start =>
      if missS then
        (s.onStall (stallOf u) (fun x => { x with missCnt := satAdd 0x7FFF x.missCnt 1 })).sweepArrives u str start none 0
      else s
    | none => s
  let s := match expP with
    | some g => if missP ∧ s.mp4Of str = some u then s.pairArrives u str g none else s
    | none => s
  s.trimsMissed u

/-- UPSTREAM_WINDOW_END (03 R104, R107): a reached unit that ROLL_CALL asked and that has not answered in its frame counts as a
break. -/
def execUpstreamWindowEnd (stall : Fin 32) (s : State) : Host.Outcome State Fault Refusal :=
  answer s (match (s.stalls.at stall).str with
    | some str =>
      if s.driven stall then
        let s := (unitsOf stall).foldl (fun s u => s.unitWindowEnd u str) s
        let x := s.stalls.at stall
        match x.rollCall.find? (fun k => x.rollAt + k.val == s.frame) with
        | some k => if (s.ulink.at (unitPos stall k)).reached then s.declareBreak stall k else s
        | none => s
      else s
    | none => s)

/-- BREAK_DECLARED (03 R106): three expected frames of a unit in a row brought nothing, and the unit below still delivers. -/
def execBreakDeclared (stall : Fin 32) (pos : Fin 4) (s : State) : Host.Outcome State Fault Refusal :=
  answer s (
    let l := s.ulink.at (unitPos stall pos)
    let below : Bool := pos == 0 || (s.ulink.at (unitPos stall (pos - 1))).missRun == 0
    if s.driven stall ∧ l.reached ∧ 3 ≤ l.missRun ∧ below then s.declareBreak stall pos else s)

/-- EIGHT_FRAME_BOUNDARY (03 R95, R107, R108; 06 R198): Degraded stalls call their units, Lost ones enumerate, and lock-in blocks
begin. -/
def execEightFrameBoundary (s : State) : Host.Outcome State Fault Refusal :=
  answer s (
    if s.frame % 8 = 0 then
      let s := (places 32).foldl (fun s i =>
        if s.driven i = false then s
        else if (s.stalls.at i).lstate = .degraded then s.rollCall i
        else if (s.stalls.at i).lstate = .lost ∧ (s.stalls.at i).enum.isNone then (s.startEnum i 1).kickEnum i
        else s.kickEnum i) s
      (places 4).foldl (fun s str => s.startBlocks str) s
    else s)

/-- ENUM_REPLY_TIMEOUT (03 R96, step 2): no valid reply has arrived in the four frames, and the edge after them has come. -/
def execEnumReplyTimeout (stall : Fin 32) (s : State) : Host.Outcome State Fault Refusal :=
  answer s (match (s.stalls.at stall).enum with
    | some r => if r.phase = .query ∧ r.a + r.pos + 4 ≤ s.frame then s.endEnum stall r else s
    | none => s)

-- Loopback (03 R110).

/-- The pattern of a stall's next loopback test. -/
def Stall.pattern (x : Stall) : Word := if x.loopAlt then 0xA5C33C5A else 0x5A3CC3A5

/-- LOOPBACK_TEST (03 R110): the pattern is read back. -/
def execLoopbackTest (stall : Fin 32) (readBack : Word) (s : State) : Host.Outcome State Fault Refusal :=
  answer s (
    if s.driven stall then
      s.onStall stall (fun x =>
        if readBack = x.pattern then
          { x with loopAlt := !x.loopAlt, loopOk := true, loopRun := satAdd 15 x.loopRun 1, failRun := 0, passRun := x.passRun + 1 }
        else
          { x with loopAlt := !x.loopAlt, loopOk := false, loopRun := 0, loopFail := satAdd 0xFFFF x.loopFail 1
                   failRun := x.failRun + 1, passRun := 0 })
    else s)

/-- PHY_FAULT (03 R110): three failures in a row. -/
def execPhyFault (stall : Fin 32) (s : State) : Host.Outcome State Fault Refusal :=
  answer s (
    if s.driven stall ∧ 3 ≤ (s.stalls.at stall).failRun ∧ (s.stalls.at stall).lstate ≠ .phyFault then
      let s := (unitsOf stall).foldl (fun s u => s.loseUnit u) s
      let s := s.onStall stall (fun x => { x with lstate := .phyFault, breakPos := 4, enum := none, linkQ := [], rollCall := [], passRun := 0 })
      (s.countLoss stall).linkRecord stall 3
    else s)

/-- PHY_FAULT_RECOVERY (03 R110): eight passes in a row. -/
def execPhyFaultRecovery (stall : Fin 32) (s : State) : Host.Outcome State Fault Refusal :=
  answer s (
    if s.driven stall ∧ (s.stalls.at stall).lstate = .phyFault ∧ 8 ≤ (s.stalls.at stall).passRun then s.startEnum stall 4 else s)

-- Balancing masks (03 R114, R115).

/-- BALANCE_LEASE_REFRESH (03 R115). -/
def execBalanceLeaseRefresh (u : Fin 128) (s : State) : Host.Outcome State Fault Refusal :=
  answer s (
    if s.driven (stallOf u) ∧ s.balanced u ∧ (s.stalls.at (stallOf u)).enumerating = false then s.sendBalance u else s)

/-- BALANCE_DURATION_EXPIRY (03 R114): DURATION_S has run out since the mask came into force. -/
def execBalanceDurationExpiry (u : Fin 128) (s : State) : Host.Outcome State Fault Refusal :=
  answer s (
    let l := s.ulink.at u
    match l.hostFrom with
    | some t =>
      if 0 < l.hostDur ∧ t + l.hostDur * ticksPerS ≤ s.now then
        (s.onLink u (fun l => { l with hostMask := 0, hostDur := 0, hostFrom := none })).settleMask u
      else s
    | none => s)

/-- BALANCE_SET (0x47; 03 R114). -/
def execBalanceSet (c : Cmd) (s : State) : Host.Outcome State Fault Refusal :=
  answer s (s.run c false (fun s =>
    if h : opByte c 0 < 32 ∧ opByte c 1 < 4 then
      let u := unitPos ⟨opByte c 0, h.1⟩ ⟨opByte c 1, h.2⟩
      let mask := opField c 2 2
      if s.isMc16 u = false then s.badOperand c
      else if s.outOfService u then s.refuse c 0x0302
      else
        let s := s.onLink u (fun l => { l with
          hostMask := BitVec.ofNat 16 mask, hostDur := opField c 4 2, hostFrom := if l.reached then some s.now else none })
        (s.settleMask u).ok c (dwords mask 0 0 0)
    else s.badOperand c))

-- ENUMERATE, ROSTER_READ, STALL_ERR_CNT_CLR (03 R92, R103, R113).

/-- The stalls that a mask names. -/
def stallsIn (mask : Nat) : List (Fin 32) := (places 32).filter (fun i => mask.testBit i.val)

/-- ENUMERATE (0x0E; 03 R113). -/
def execEnumerate (c : Cmd) (s : State) : Host.Outcome State Fault Refusal :=
  answer s (s.run c false (fun s =>
    let named := stallsIn (opField c 0 4)
    if named = [] ∨ named.any (fun i => (s.stalls.at i).str.isNone) then s.badOperand c
    else if named.any (fun i => (s.stalls.at i).oos) then s.refuse c 0x0302
    else if named.any s.stallHeld then s.refuse c 0x0301
    else named.foldl (fun s i =>
      let s := if (s.stalls.at i).enumerating then s else s.startEnum i 2
      s.onStall i (fun x => { x with enumCmds := x.enumCmds ++ [c] })) s))

/-- LSTATE of `STALL_STAT`. -/
def LState.code : LState → Nat
  | .off => 0
  | .enumerating => 1
  | .running => 2
  | .degraded => 3
  | .lost => 4
  | .outOfService => 5
  | .phyFault => 6

/-- The 24 bytes of a position in a roster report. -/
def UnitLink.report (l : UnitLink) : List Byte :=
  bvBytes 1 l.foundType ++ bvBytes 1 l.rosterType ++ bvBytes 1 l.outcome ++ leBytes 1 (bit l.reached) ++ leBytes 4 0 ++
    bvBytes 8 l.foundId ++ bvBytes 8 l.rosterId

/-- ROSTER_READ (0x86; 03 R103). -/
def execRosterRead (c : Cmd) (s : State) : Host.Outcome State Fault Refusal :=
  answer s (s.run c false (fun s =>
    let addr := opField c 8 8
    if h : opByte c 0 < 32 then
      let i : Fin 32 := ⟨opByte c 0, h⟩
      let x := s.stalls.at i
      let str := match x.str with | some str => str.val | none => 0xFF
      let bytes := leBytes 1 i.val ++ leBytes 1 str ++ leBytes 1 x.lstate.code ++ bvBytes 1 x.found ++ bvBytes 4 s.misc.stallSeq ++
        (unitsOf i).flatMap (fun u => (s.ulink.at u).report)
      if aligned16 addr = false then s.badOperand c else (s.toHost addr bytes).ok c (dwords 104 0 0 0)
    else s.badOperand c))

/-- CLR of `STALL_ERR_CNT`. -/
def State.clearStallErr (s : State) (i : Fin 32) : State := s.onStall i (fun x => { x with crcCnt := 0, missCnt := 0 })

/-- STALL_ERR_CNT_CLR (03, `STALL_ERR_CNT`). -/
def execStallErrCntClr (stall : Fin 32) (s : State) : Host.Outcome State Fault Refusal := answer s (s.clearStallErr stall)

-- ROSTER_ADOPT (03 R101, R102).

/-- The entry of a position in a roster package, `n` being the stall's place among those named: type, reserved byte, identity. -/
def rosterEntry (pkg : List Byte) (n : Nat) (k : Fin 4) : BitVec 8 × Byte × BitVec 64 :=
  let off := 0x20 + 40 * n + 10 * k.val
  (pkg.getD off 0, pkg.getD (off + 1) 0, BitVec.ofNat 64 (field pkg (off + 2) 8))

/-- The positions that a roster package names, each with its entry. -/
def rosterEntries (pkg : List Byte) : List (Fin 128 × BitVec 8 × Byte × BitVec 64) :=
  (stallsIn (field pkg 0x10 4)).zipIdx.flatMap (fun p => (places 4).map (fun k => (unitPos p.1 k, rosterEntry pkg p.2 k)))

/-- Check 1 of R102. -/
def State.rosterPackageOk (s : State) (len : Nat) (pkg : List Byte) : Bool :=
  let named := stallsIn (field pkg 0x10 4)
  !named.isEmpty && len == 32 + 40 * named.length + 64 && pkg.length == len && packageHead 0x0C01 pkg &&
  zeroBytes pkg 0x14 0x20 && named.all (fun i => (s.stalls.at i).str.isSome) &&
  (rosterEntries pkg).all (fun e => decide (e.2.1.toNat ≤ 2) && e.2.2.1 == 0 && (e.2.1 != 0 || e.2.2.2 == 0))

/-- One position of an adopted roster (03 R102; 05 R170; 06 R191; 12 R348, R352): a unit that is new there gets its trims read
and starts afresh. -/
def State.adoptUnit (s : State) (u : Fin 128) (type_ : BitVec 8) (id : BitVec 64) : State :=
  let l := s.ulink.at u
  let changed := l.rosterType != type_ || l.rosterId != id
  let s := if changed then s.loseProbes u else s
  let s := s.onLink u (fun l => { l with rosterType := type_, rosterId := id, outcome := if type_ = 0 then 4 else 0 })
  let s := if changed then
      let s := s.onCal u (fun x => { x with
        entry := none, genFrom := 0, olds := [], switchQ := [], trims := none, drift := false, driftRun := 0, clearRun := 0 })
      let s := (s.mramStore (unitCopyAt u 0) (leBytes 4 0)).mramStore (unitCopyAt u 1) (leBytes 4 0)
      let s := (s.changeInvalid u (fun i => { i with invWire := 0, invStack := 0 })).onInteg u (fun i => { i with
        suspW := 0, broken := 0, wireChk := 0, chkPend := 0, warn := {}, fail := {}, evals := [], bt := Bank.fill 16 0, stuck := 0, btC := 0
        wires := Bank.fill 16 {} })
      (s.onLink u (fun l => { l with sweepFrom := none, delivering := false, hostMask := 0, hostDur := 0 })).freshCells u
    else s
  if type_ = 0 then s
  else if (s.ucal.at u).entry.isNone then s.readTrims u 2
  else if (s.ulink.at u).sweepFrom.isNone then s.configureUnit u (firstAfter s.frame)
  else s

/-- ROSTER_ADOPT (0x0C; 03 R101, R102; 12 R356). -/
def execRosterAdopt (c : Cmd) (pkg : List Byte) (s : State) : Host.Outcome State Fault Refusal :=
  answer s (s.run c false (fun s =>
    let mask := field pkg 0x10 4
    let named := stallsIn mask
    let seq := field pkg 4 4
    let es := rosterEntries pkg
    if s.rosterPackageOk (opField c 8 4) pkg = false ∨ aligned16 (opField c 0 8) = false then s.badOperand c
    else if packageSigned s.sec.owner pkg = false then s.authFail c
    else if seq ≤ s.misc.stallSeq.toNat then s.refuse c 0x0304
    else if named.any s.stallHeld then s.refuse c 0x0301
    else if named.any (fun i => (s.stalls.at i).oos) then s.refuse c 0x0302
    else if named.any (fun i => (s.stalls.at i).enumerating) then s.refuse c 0x0305
    else if es.any (fun e =>
        let l := s.ulink.at e.1
        l.foundType != e.2.1 || l.foundId != e.2.2.2 || (e.2.1 != 0 && !l.reached)) then s.refuse c 0x0303
    else
      let s := es.foldl (fun s e => s.abortRun e.1) s
      let s := es.foldl (fun s e => s.adoptUnit e.1 e.2.1 e.2.2.2) s
      let s := { s with misc := { s.misc with stallSeq := BitVec.ofNat 32 seq } }
      let s := s.studbook 0x1B 0 (leBytes 4 mask ++ [0, 0, 0, 0] ++ leBytes 4 seq)
      s.ok c (dwords mask seq 0 0)))

-- STALL_SERVICE (03 R111, R112).

/-- A stall leaves service (03 R112): RELEASE, and its physical layer goes down. -/
def State.leaveLink (s : State) (i : Fin 32) : State :=
  let s := if s.driven i then s.sendLink i (linkAll 0x0B) else s
  let s := (unitsOf i).foldl (fun s u => s.loseUnit u) s
  let s := s.onStall i (fun x => { x with
    oos := true, lstate := .outOfService, breakPos := 4, enum := none, linkQ := [], rollCall := [], lost := false })
  s.enumDone i

/-- A stall returns to service: a full enumeration, once its PORT island is ready (03 R95, R112). -/
def State.rejoinLink (s : State) (i : Fin 32) : State :=
  let s := s.onStall i (fun x => { x with oos := false, lstate := .enumerating, failRun := 0, passRun := 0 })
  if s.driven i then s.startEnum i 3 else s

/-- STALL_SERVICE (0x0D; 03 R111, R112). -/
def execStallService (c : Cmd) (pkg : List Byte) (s : State) : Host.Outcome State Fault Refusal :=
  answer s (s.run c false (fun s =>
    let mask := field pkg 0x10 4
    let named := stallsIn mask
    let act := field pkg 0x14 1
    let seq := field pkg 4 4
    if opField c 8 4 ≠ 96 ∨ pkg.length ≠ 96 ∨ packageHead 0x0D01 pkg = false ∨ named = [] ∨ 1 < act ∨ zeroBytes pkg 0x15 0x20 = false ∨
       named.any (fun i => (s.stalls.at i).str.isNone) ∨ aligned16 (opField c 0 8) = false then s.badOperand c
    else if packageSigned s.sec.owner pkg = false then s.authFail c
    else if seq ≤ s.misc.stallSeq.toNat then s.refuse c 0x0304
    else if named.any s.stallHeld then s.refuse c 0x0301
    else if named.any (fun i => (unitsOf i).any s.isMp4) then s.refuse c 0x0307
    else
      let s := { s with misc := { s.misc with stallSeq := BitVec.ofNat 32 seq } }
      let s := named.foldl (fun s i =>
        if (s.stalls.at i).oos = (act == 0) then s else if act = 0 then s.leaveLink i else s.rejoinLink i) s
      let s := s.studbook 0x1B 0 (leBytes 4 mask ++ leBytes 1 (act + 1) ++ [0, 0, 0] ++ leBytes 4 seq)
      s.ok c))

-- Registers (03, Stall registers).

/-- A mask of stalls. -/
def stallMask (p : Fin 32 → Bool) : Word := (places 32).foldl (fun m i => putBit m i.val (p i)) 0

/-- `STALL_STAT`. -/
def State.stallStat (s : State) (i : Fin 32) : Word :=
  let x := s.stalls.at i
  BitVec.ofNat 32 (x.lstate.code + 8 * (s.reachedOf i).length + 64 * x.breakPos.toNat + 512 * bit (s.stallRosterOk i) +
    1024 * bit x.loopOk + 65536 * x.breakCnt)

/-- `UNIT_STAT`. -/
def State.unitStat (s : State) (u : Fin 128) : Word :=
  let l := s.ulink.at u
  let held := (l.probeMask.isSome || l.excMask.isSome) && l.hostMask != 0
  BitVec.ofNat 32 (l.foundType.toNat + 256 * l.rosterType.toNat + 65536 * l.outcome.toNat + 2 ^ 19 * bit l.reached + 2 ^ 20 * bit held)

end Sys2Proof.Machine
end

