-- ==== Sys2Proof/Machine/RegRead.lean ====
section
/-! DEFINITION. What every register of BAR0 reads (chapter 19 and the register tables of the chapters it names), and the shadows that a _LO read captures (10 R323). -/

namespace Sys2Proof.Machine

-- Forms that the register tables share.

/-- A word from a number. -/
def w32 (n : Nat) : Word := BitVec.ofNat 32 n

/-- A signed number in a register field of `w` bits, saturating. -/
def satField (w : Nat) (v : Int) : Nat :=
  (clampInt (-(2 ^ (w - 1))) (2 ^ (w - 1) - 1) v % 2 ^ w).toNat

/-- A configured field: its reset value until boot, the configuration's value from then on (04, Sweep registers). -/
def State.configured (s : State) (reset value : Nat) : Nat := if s.sec.booted then value else reset

/-- A mask over the members of a bank. -/
def maskOf (n : Nat) (p : Fin n → Bool) : Nat := (places n).foldl (fun m i => m + bit (p i) * 2 ^ i.val) 0

/-- Fields of `w` bits each, member 0 lowest. -/
def packed (n w : Nat) (f : Fin n → Nat) : Nat := (places n).foldl (fun m i => m + f i % 2 ^ w * 2 ^ (w * i.val)) 0

/-- The upper and lower half of a 64-bit value. -/
def hi32 (n : Nat) : Word := w32 (n / 2 ^ 32)

/-- Whole minutes since a moment, saturating; 0xFFFF where there was none. -/
def State.minutesSince (s : State) (t : Option Nat) : Nat :=
  match t with
  | some t => min 0xFFFF ((s.now - t) / (60 * ticksPerS))
  | none => 0xFFFF

-- Identity (19 R470), power (15 R426) and temperature (16 R438).

/-- `DEV_ID` (19 R470). -/
def devId : Word := 0x4D580009

/-- The identity block. -/
def regIdentity (sh : Shadows) (off : Nat) : Word :=
  match off with
  | 0x00 => devId
  | 0x04 => w32 (Config.stepping.toNat + 256 + 65536 * Config.romVer.toNat)
  | 0x08 => 0x10188420
  | 0x0C => 0x80001800
  | 0x10 => 0x003CC824
  | 0x18 => w32 Config.serial.toNat
  | 0x1C => sh.serial
  | _ => 0

/-- STATE of a power state (15). -/
def PwrState.code : PwrState → Nat
  | .run => 0
  | .idle => 1
  | .rest => 2
  | .stabled => 3

/-- The power block. -/
def State.regPower (s : State) (off : Nat) : Word :=
  let p := s.pwr
  match off with
  | 0x00 =>
    w32 (p.st.code + 4 * p.target.code + 16 * p.phase + 128 * bit p.pend.isSome +
      256 * (match p.pend with | some r => r.val.toNat | none => 0) +
      1024 * (match p.pend with | some r => bit r.level | none => 0) + 2048 * bit p.levelBusy + 4096 * p.level.toNat +
      16384 * bit p.veto + 32768 * bit p.pgood)
  | 0x04 => s.evt.pwr.setWidth 32
  | 0x08 => w32 (p.lastSrc.toNat + 256 * (p.wakeEn ||| 0x60).toNat + 65536 * p.wakeCnt)
  | 0x0C => w32 (p.refuseCnt + 65536 * p.abortCnt)
  | 0x10 => w32 (packed 8 4 (fun i => (((p.log.drop i.val).head?).map (fun l => l.code.toNat)).getD 0))
  | 0x14 => w32 (packed 8 4 (fun i => (((p.log.drop (8 + i.val)).head?).map (fun l => l.code.toNat)).getD 0))
  | 0x18 => w32 (s.configured 0x20 p.cfg.pmbAddr.toNat + 256 * p.retries + 4096 * min 15 p.faultCnt + 65536 * p.lastStatus.toNat)
  | 0x1C => w32 (s.ret.credit + 65536 * bit s.ret.imgValid + 131072 * bit s.ret.imgUe)
  | 0x20 => w32 s.ret.entries
  | 0x28 => w32 (min 0xFFFF p.entryMs + 65536 * min 0xFFFF p.wake10us)
  | _ => 0

/-- The sensors of a cluster: three, in order (16 R427). -/
def clusterOf (n : Fin 12) : Fin 4 := ⟨n.val / 3, by omega⟩

/-- Failed sensors of a cluster. -/
def Therm.failedIn (t : Therm) (c : Fin 4) : Nat :=
  ((places 12).filter (fun n => clusterOf n == c && (t.sensor.at n).failed)).length

/-- The thermal block. -/
def State.regThermal (s : State) (sel : Sel) (off : Nat) : Word :=
  let t := s.therm
  let x := t.sensor.at sel.tsens
  match off with
  | 0x00 => w32 sel.tsens.val
  | 0x04 => w32 (bit t.warn + 2 * bit t.throttle + 4 * t.level + 256 * satField 12 t.tMax + 2 ^ 20 * t.hot.toNat)
  | 0x08 => s.evt.th.setWidth 32
  | 0x0C =>
    w32 (maskOf 12 (fun n => (t.sensor.at n).failed) + 4096 * maskOf 4 (fun c => decide (2 ≤ t.failedIn c)) +
      65536 * maskOf 12 (fun n => (t.sensor.at n).disSince.isSome))
  | 0x10 => w32 (t.thrCnt + 65536 * t.shutCnt)
  | 0x20 =>
    w32 (satField 12 x.reading + 4096 * satField 12 x.eff + 2 ^ 24 * bit x.failed + 2 ^ 25 * bit x.disSince.isSome +
      2 ^ 26 * bit x.vote + 2 ^ 27 * x.subst.toNat)
  | 0x24 => w32 (satField 12 (roundFree x.ofsLo) + 65536 * satField 12 (roundFree x.ofsHi))
  | _ => 0

-- The host interface (02).

/-- STATE of `RING_STAT` (02). -/
def RingState.code : RingState → Nat
  | .disabled => 0
  | .active => 1
  | .draining => 2
  | .error => 3

/-- `HIF_STAT` (02). -/
def State.hifStat (s : State) : Word :=
  w32 (s.hif.pollGap + 16 * bit s.polling + 256 * bit s.evt.dbErr + 65536 * s.hif.flights.length)

/-- `RING_ERR_SUM` (02). -/
def State.ringErrSum (s : State) : Word := w32 (maskOf 16 (fun r => (s.rings.at r).st == .error))

/-- `RING_CFG` of a ring pair (02). -/
def Ring.cfgWord (x : Ring) : Word :=
  w32 (bit x.enable + 2 * x.cls.toNat + 16 * x.sqLog2.toNat + 256 * x.cqLog2.toNat + 4096 * x.vec.toNat +
    131072 * bit x.irqEn + 2 ^ 24 * x.quantum.toNat)

/-- The rings block. -/
def State.regRings (s : State) (sel : Sel) (off : Nat) : Word :=
  let x := s.rings.at sel.ring
  match off with
  | 0x00 => w32 sel.ring.val
  | 0x04 => w32 s.hif.dbBase.toNat
  | 0x08 => hi32 s.hif.dbBase.toNat
  | 0x0C => w32 (bit s.hif.pollEn + 256 * s.hif.evtVec.toNat)
  | 0x10 => s.hifStat
  | 0x14 => s.hif.stampNext
  | 0x18 => s.ringErrSum
  | 0x20 => x.cfgWord
  | 0x24 => w32 x.sqBase.toNat
  | 0x28 => hi32 x.sqBase.toNat
  | 0x2C => w32 x.cqBase.toNat
  | 0x30 => hi32 x.cqBase.toNat
  | 0x34 => w32 (x.coalCount.toNat + 65536 * x.coalTime.toNat)
  | 0x38 =>
    w32 (x.st.code + 8 * (s.evt.ring.at sel.ring).toNat + 128 * bit (x.hostFree == 0) + 256 * bit x.troughFull +
      65536 * s.hif.ringFlights sel.ring)
  | 0x3C => w32 (x.sqCi + 65536 * x.cqPi + 2 ^ 31 * bit x.cqPhase)
  | _ => 0

-- Stalls, cell integrity and sweeps (03, 04, 05).

/-- The unit position that a view's selectors name. -/
def Sel.u (sel : Sel) : Fin 128 := unitPos sel.stall sel.unit

/-- The stall block (03), with the integrity registers that lie in it (05). -/
def State.regStalls (s : State) (sel : Sel) (off : Nat) : Word :=
  let x := s.stalls.at sel.stall
  let u := sel.u
  let l := s.ulink.at u
  let i := s.uint.at u
  match off with
  | 0x00 => w32 sel.stall.val
  | 0x04 => w32 sel.unit.val
  | 0x08 => stallMask (fun i => !(s.reachedOf i).isEmpty)
  | 0x0C => stallMask (fun i => (s.stalls.at i).str.isSome && !(s.stalls.at i).oos && !s.stallRosterOk i)
  | 0x10 => stallMask (fun i => (s.stalls.at i).oos)
  | 0x14 => s.evt.stall
  | 0x18 => s.evt.integ
  | 0x1C => w32 (s.configured 50 s.integ.owThresh + 1024 * s.configured 40 s.integ.stackFail + 2 ^ 20 * s.configured 0 s.integ.btInterval)
  | 0x20 =>
    w32 ((match x.str with | some t => t.val | none => 7) +
      256 * ((unitsOf sel.stall).filter (fun u => (s.ulink.at u).rosterType != 0)).length)
  | 0x24 => s.stallStat sel.stall
  | 0x28 =>
    w32 (x.found.toNat + 256 * packed 4 3 (fun k => (s.ulink.at (unitPos sel.stall k)).outcome.toNat) +
      2 ^ 20 * x.cause.toNat + 2 ^ 24 * x.enumCnt.toNat)
  | 0x2C => w32 (x.crcCnt + 65536 * x.missCnt)
  | 0x30 => w32 (x.loopFail + 65536 * min 15 x.loopRun)
  | 0x40 => s.unitStat u
  | 0x44 => w32 l.foundId.toNat
  | 0x48 => hi32 l.foundId.toNat
  | 0x4C => w32 l.rosterId.toNat
  | 0x50 => hi32 l.rosterId.toNat
  | 0x54 => w32 (l.hostMask.toNat + 65536 * l.applied.toNat)
  | 0x58 => w32 (i.invalid.toNat + 65536 * i.suspect.toNat)
  | 0x5C => s.cellAgeWord u
  | 0x60 => s.integStat u
  | 0x64 => w32 (packed 8 4 (fun c => (i.bt.at ⟨c.val, by omega⟩).toNat))
  | 0x68 => w32 (packed 8 4 (fun c => (i.bt.at ⟨8 + c.val, by omega⟩).toNat))
  | 0x80 => s.stringAge 0
  | 0x84 => s.stringAge 1
  | 0x88 => s.stringAge 2
  | 0x8C => s.stringAge 3
  | _ => 0

/-- The RATE that the configuration gives a string: the newest accepted one, and in a check cycle the one kept from before
it (04 R120, R148). -/
def Str.cfgRate (x : Str) : BitVec 2 :=
  match x.ratePend.getLast? with
  | some p => p.1
  | none => x.rateKeep.getD x.rate

/-- `SLOT_MAPi` of a list of slot codes. -/
def slotMap (codes : List (BitVec 8)) (i : Nat) : Word :=
  w32 (packed 4 8 (fun q => (((codes.drop (4 * i + q.val)).head?).map BitVec.toNat).getD 0xFF))

/-- The sweep block (04). -/
def State.regSweeps (s : State) (sel : Sel) (off : Nat) : Word :=
  let x := s.stalls.at sel.stall
  let w := s.uswp.at sel.u
  let codes := if s.swept sel.u then w.codes else []
  match off with
  | 0x00 => w32 (s.configured 0 (packed 4 2 (fun t => (s.strs.at t).cfgRate.toNat)) + 65536 * maskOf 4 (fun t => !(s.strs.at t).ratePend.isEmpty))
  | 0x04 =>
    w32 (packed 4 4 (fun t => (s.strs.at t).tripped.toNat) +
      65536 * s.configured 0 (packed 4 4 (fun t => (s.trips.lim.at t).enable.toNat)))
  | 0x08 => s.evt.trip.setWidth 32
  | 0x0C => w32 s.trips.cnt
  | 0x10 => w32 (s.sleep.result.toNat + 256 * s.sleep.first.toNat + 65536 * s.sleep.cnt)
  | 0x20 =>
    w32 (x.wUsed - 1 + 1024 * s.configured 0 (bit x.locked) + 2048 * bit x.lockFail + 4096 * s.configured 0 (bit x.streamAvg) +
      65536 * s.configured 7 (x.wCfg - 1))
  | 0x24 => w32 (s.configured 0 x.invPeriod.toNat)
  | 0x40 => w32 (codes.length + 256 * (s.ucal.at sel.u).gen.toNat)
  | 0x44 => slotMap codes 0
  | 0x48 => slotMap codes 1
  | 0x4C => slotMap codes 2
  | 0x50 => slotMap codes 3
  | 0x54 => slotMap codes 4
  | 0x58 => slotMap codes 5
  | 0x60 => w32 (w.reduced + 65536 * min 0x7FFF w.sat)
  | _ => 0

/-- The timebase registers (17). -/
def State.regTime (s : State) (sh : Shadows) (off : Nat) : Word :=
  match off with
  | 0x00 => w32 s.now
  | 0x04 => sh.yt
  | 0x08 => w32 (bit s.clk.ytUnc + 2 * bit s.clk.rtcSet + 4 * bit (s.clk.alarm != 0) + 8 * bit (s.clk.chkS != 0))
  | 0x0C => s.evt.time.setWidth 32
  | 0x10 => w32 s.oph
  | 0x14 => sh.oph
  | 0x18 => w32 s.clk.pcc
  | 0x1C => w32 s.rtcSec
  | 0x20 => w32 s.clk.alarm
  | 0x24 => w32 s.clk.chkS
  | 0x28 => w32 s.clk.ytWake
  | 0x2C => sh.wake
  | _ => 0

-- Estimation (06) and strings (07).

/-- EXC_STATE of `EST_STR_EXC` (06). -/
def ExcState.code : ExcState → Nat
  | .idle => 0
  | .waiting => 1
  | .running => 2
  | .stopped => 3

/-- Cells with an estimate (06). -/
def State.liveCells (s : State) : Nat :=
  (s.uest.toList.map (fun e => (e.cells.toList.filter EstCell.live).length)).sum

/-- The estimator block (06). -/
def State.regEst (s : State) (sel : Sel) (off : Nat) : Word :=
  let e := s.est
  let x := s.estr.at sel.str
  match off with
  | 0x00 =>
    w32 (bit e.running + 2 * bit e.rateHalf + 4 * bit e.ckptOk + 8 * bit ((places 4).any (fun t => (s.estr.at t).excState == .running)) +
      16 * s.configured 0 (maskOf 4 (fun c => (e.chem.at c).holds)) + 256 * maskOf 4 (fun t => (s.estr.at t).stale) +
      65536 * s.liveCells)
  | 0x04 => s.evt.est.setWidth 32
  | 0x08 => w32 (e.overrun + 65536 * e.limLate)
  | 0x0C => w32 (e.arrayPct.toNat + 256 * e.queryPct.toNat + 65536 * e.liPct.toNat + 2 ^ 24 * e.pausePct.toNat)
  | 0x10 =>
    w32 ((match e.ckptAt with | some t => min 0xFFFF ((s.now - t) / ticksPerS) | none => 0) + 65536 * e.ckptCnt)
  | 0x14 => w32 (e.lastCell.toNat + 65536 * e.reinitCnt)
  | 0x20 => w32 (x.sohCap + 65536 * x.sohRes)
  | 0x24 => w32 (min 0xFFFF (x.lim.i.at 1 / 1000) + 65536 * min 0xFFFF (x.lim.i.at 4 / 1000))
  | 0x28 =>
    w32 (x.limCellD.toNat + 65536 * x.limCellC.toNat + 2 ^ 27 * bit x.derateT + 2 ^ 28 * bit x.derateZ + 2 ^ 29 * bit x.capped)
  | 0x2C => w32 (x.excState.code + 256 * x.excBin.toNat + 65536 * x.passCnt)
  | _ => 0

/-- PRE_FAULTS: precharge faults of the last 10 min, saturating (07 R226). -/
def State.preFaultCount (s : State) (str : Fin 4) : Nat :=
  min 15 ((s.strs.at str).preFaults.filter (fun t => decide (s.now < t + 600 * ticksPerS))).length

/-- The strings block (07). -/
def State.regStrings (s : State) (sel : Sel) (off : Nat) : Word :=
  let x := s.strs.at sel.str
  match off with
  | 0x00 => w32 sel.str.val
  | 0x04 =>
    w32 (packed 4 3 (fun t => (s.strSt t).code) + 4096 * maskOf 4 (fun t => (s.strSt t).welded') +
      65536 * maskOf 4 (fun t => s.strSt t == .opening) + 2 ^ 20 * maskOf 4 (fun t => (s.strs.at t).service) +
      2 ^ 24 * maskOf 4 (fun t => !(s.standing t).isEmpty))
  | 0x08 => s.evt.str.setWidth 32
  | 0x0C => w32 (s.pub.alive.toNat + 256 * bit s.pub.can2Ok + 512 * bit s.pub.can3Ok + 65536 * s.pub.txFail)
  | 0x20 => s.strStat sel.str
  | 0x24 => w32 ((s.causesA sel.str).toNat + 65536 * (s.causesB sel.str).toNat)
  | 0x28 => w32 ((s.causesC sel.str).toNat + 256 * s.capPct sel.str)
  | 0x2C => w32 (x.preResult.toNat + 8 * bit x.prePar + 16 * s.preFaultCount sel.str + 65536 * x.preMs)
  | 0x30 =>
    w32 (x.weld.result.toNat + 4 * bit x.weld.linkHigh + 8 * bit x.weld.undecided + 16 * x.weld.auxClosed.toNat +
      128 * bit x.weld.cnPhaseRise + 256 * bit x.weld.linkBefore + 65536 * x.weld.dischMs)
  | 0x34 => w32 (min 0xFFFF x.ohmPerV + 65536 * bit x.isoW.on + 131072 * bit x.iso.on)
  | 0x38 => w32 (x.closeCnt + 65536 * x.overBreak)
  | 0x3C => w32 (x.aux.toNat + 16 * s.configured 0 x.cfg.auxEn.toNat)
  | _ => 0

-- Switch channels (09) and the halter (08).

/-- `SWC_CFG` of a channel (09). -/
def Swc.cfgWord (c : Swc) (con : Bool) : Nat :=
  if con then
    bit c.cfg.econ + 2 * (c.cfg.pullMa / 10) + 1024 * c.cfg.pullMs + 2 ^ 19 * (c.cfg.holdMw / 100)
  else
    c.cfg.retryMax + 16 * c.cfg.retryWinS + 1024 * c.cfg.limTmoMs + 2 ^ 17 * (c.cfg.restartMs / 10) + 2 ^ 24 * c.cfg.pwmHz.toNat +
      2 ^ 26 * bit c.cfg.law + 2 ^ 27 * bit c.cfg.bypass

/-- The switch channel block (09). -/
def State.regSwc (s : State) (sel : Sel) (off : Nat) : Word :=
  let ch := sel.swc
  let c := s.swc.at ch
  match off with
  | 0x00 => w32 ch.val
  | 0x04 => w32 (maskOf 24 (fun ch => (s.swc.at ch).out))
  | 0x08 => w32 (maskOf 24 (fun ch => (s.swc.at ch).latched || (s.swc.at ch).stuckOn || s.snsFault ch))
  | 0x0C => s.evt.swc.setWidth 32
  | 0x10 => w32 ((s.swctl.die.at 0).vbat.toNat + 4096 * (s.swctl.die.at 1).vbat.toNat + 2 ^ 24 * s.swctl.dipCnt)
  | 0x14 => w32 (bit s.swctl.snsExt + 2 * s.swctl.snsPin.toNat + 32 * bit s.swctl.settling + 256 * s.swctl.intCh.val)
  | 0x20 => w32 (s.configured 0 (c.cfgWord (isCon ch)))
  | 0x24 => s.swcStat ch
  | 0x28 =>
    w32 (c.iMa + 65536 * bit c.curSat + 131072 * bit c.settling +
      2 ^ 20 * (match c.sampleAt with | some t => min 0xFFF ((s.now - t) / ticksPerFrame) | none => 0xFFF))
  | 0x2C => w32 (satField 10 c.tj + 65536 * c.tripCnt + 2 ^ 24 * c.latchCnt)
  | 0x30 => w32 (if isCon ch then c.rCoil + 65536 * c.pullCnt else 65536 * c.pullCnt)
  | _ => 0

/-- NEXT_EXP_H of `HLT_GUARD`: hours of operation to the earliest expiry of a guard proof; 0xFFFF where none expires. -/
def State.nextExpiry (s : State) : Nat :=
  (places 8).foldl (fun m n =>
    let c := s.halter.cfg.sin.at n
    let x := s.halter.sin.at n
    if c.guard && x.proven && c.proofH != 0 then
      min m (roundNat (((x.provenAt + c.proofH * 3600000 - s.oph : Nat) : Rat) / 3600000))
    else m) 0xFFFF

/-- The halter block (08). -/
def State.regHalter (s : State) (off : Nat) : Word :=
  let h := s.halter
  match off with
  | 0x00 =>
    w32 (bit h.safe + 2 * bit h.lockout + 4 * bit h.startupOk + 8 * bit h.hbArmed + 16 * bit h.hbLate +
      32 * bit (h.net.started && h.net.run) + 64 * bit (!h.key.reqs.isEmpty) + 128 * bit h.key.disabled + 256 * s.permMask +
      4096 * maskOf 4 (fun t => s.permitValid t) + 65536 * h.lockCause.toNat + 2 ^ 24 * h.lockWhere.toNat + 2 ^ 28 * bit s.pctl.split)
  | 0x04 => h.presentWord.setWidth 32
  | 0x08 => s.evt.hlt.setWidth 32
  | 0x0C =>
    w32 (s.sinOkMask + 256 * maskOf 8 (fun n => (h.sin.at n).demand) + 65536 * maskOf 8 (fun n => h.has .sinDisc n.val) +
      2 ^ 24 * maskOf 8 (fun n => h.has .sinTp n.val))
  | 0x10 =>
    w32 (maskOf 8 (fun n => (h.cfg.sin.at n).guard && (h.sin.at n).proven) +
      256 * s.configured 0 (maskOf 8 (fun n => (h.cfg.sin.at n).guard)) + 65536 * min 0xFFFF s.nextExpiry)
  | 0x14 => w32 (h.net.strikes + 65536 * h.net.txFail + 2 ^ 24 * bit h.net.run + 2 ^ 25 * bit h.net.started)
  | 0x18 => w32 (maskOf 12 (fun j => (h.pulse.at j).failed) + 65536 * h.tpFailCnt)
  | 0x1C => w32 (bit h.key.a + 2 * bit h.key.b + 65536 * h.key.shortCnt)
  | 0x20 => w32 (h.hb.toNat + 256 * h.badHb)
  | 0x28 => w32 (h.lockCnt + 65536 * h.lateCnt + 2 ^ 24 * h.badReq)
  | _ => 0

-- Studbook (13), Weighbridge (10) and calibration (12).

/-- The studbook block (13). -/
def State.regStudbook (s : State) (off : Nat) : Word :=
  let b := s.stb
  match off with
  | 0x00 => w32 (bit b.full + 2 * bit b.stopped + 4 * s.configured 1 (bit b.cfg.wallEn) + 8 * bit b.clearing.isSome + 65536 * b.records)
  | 0x04 => s.evt.stb.setWidth 32
  | 0x08 => b.logGen
  | 0x0C => w32 b.refused
  | 0x10 => w32 (b.lostReq + 65536 * b.merged)
  | 0x14 => w32 (b.fifo.length + 65536 * b.queue.length)
  | 0x18 =>
    w32 (b.faults.length + 256 * (match b.faults.getLast? with | some f => f.kind.toNat % 16 | none => 0) +
      65536 * (match b.faults.getLast? with | some f => min 0xFFFF f.affected | none => 0))
  | 0x20 => w32 (field b.head 0 4)
  | 0x24 => w32 (field b.head 4 4)
  | 0x28 => w32 (field b.head 8 4)
  | 0x2C => w32 (field b.head 12 4)
  | _ => 0

/-- The Weighbridge block (10 R323). -/
def State.regWb (s : State) (sel : Sel) (sh : Shadows) (off : Nat) : Word :=
  let x := s.wb.str.at sel.str
  match off with
  | 0x00 => w32 (packed 4 3 (fun t => (s.wb.str.at t).bin.val) + 4096 * maskOf 4 (fun t => (s.wb.str.at t).rollback) + 65536 * bit s.wb.stmtBusy)
  | 0x04 => s.evt.wb.setWidth 32
  | 0x08 => w32 s.wb.stmtRel
  | 0x0C => sh.stmt
  | 0x20 => w32 (energySum x.eDis)
  | 0x24 => sh.edis
  | 0x28 => w32 (energySum x.eChg)
  | 0x2C => sh.echg
  | 0x30 => w32 (whole x.qDis)
  | 0x34 => sh.qdis
  | 0x38 => w32 (whole x.qChg)
  | 0x3C => sh.qchg
  | 0x40 => w32 x.gap
  | 0x44 => w32 x.subst
  | 0x48 => w32 (min 0xFFFF x.sat + 65536 * min 0xFFFF x.openFlow)
  | _ => 0

/-- The calibration block (12). -/
def State.regCal (s : State) (sel : Sel) (off : Nat) : Word :=
  let c := s.ucal.at sel.u
  let t := s.strcal.at sel.str
  match off with
  | 0x00 =>
    w32 (bit s.cal.devChanged + 2 * bit s.cal.devBad + 4 * s.configured 0 (bit s.cal.driftAuto) + 8 * s.configured 0 (bit s.cal.shuntAuto) +
      16 * s.configured 0 s.cal.driftUv + 2 ^ 17 * s.configured 0 s.cal.runSweeps)
  | 0x04 => s.evt.cal.setWidth 32
  | 0x08 => stallMask (fun i => (unitsOf i).any (fun u => (s.ucal.at u).drift))
  | 0x20 =>
    w32 (bit c.entry.isSome + 2 * (match c.entry with | some e => (e.getD 5 0).toNat % 8 | none => 0) + 16 * bit c.drift +
      32 * bit c.run.isSome + 64 * (match c.run with | some r => r.ch | none => 0) + 2048 * c.result.toNat +
      65536 * s.minutesSince c.appliedAt)
  | 0x24 => w32 (satField 16 c.errA + 65536 * satField 16 c.errB)
  | 0x40 => w32 (t.ofsResult.toNat + 16 * t.gainResult.toNat + 256 * bit t.run.isSome + 65536 * s.minutesSince t.ofsAt)
  | _ => 0

-- Core pairs (14), networks (19) and security (18).

/-- STATE of a pair's state (14 R388). -/
def PairState.code : PairState → Nat
  | .off => 0
  | .run => 1
  | .selftest => 2
  | .dbgHalt => 3
  | .fault => 4
  | .failed => 5
  | .split => 6

/-- A pair runs: RUN or SPLIT. -/
def PairState.runs : PairState → Bool
  | .run | .split => true
  | _ => false

/-- HOURS_LEFT of `DBG_STAT`. -/
def State.unlockHours (s : State) : Nat :=
  if s.pctl.unlocked = 0 then 0 else min 1023 (roundNat (((s.pctl.expires - s.oph : Nat) : Rat) / 3600000))

/-- A pair is in inspect mode (14 R396): in test and recovery mode, and from its release until it writes DONE. -/
def State.inspect (s : State) (p : Fin 8) : Bool := s.pctl.mode != 0 || ((s.pairs.at p).st != .off && !(s.pairs.at p).done)

/-- A cause of R387 is present: for pair 0 always, for another pair unless its ESCAL is 0. -/
def State.pairCauseOn (s : State) (p : Fin 8) : Bool := (s.pairs.at p).cause && (p == 0 || (s.pairs.at p).cfg.escal != 0)

/-- The core pairs block (14). -/
def State.regPairs (s : State) (sel : Sel) (off : Nat) : Word :=
  let x := s.pairs.at sel.pair
  match off with
  | 0x00 => w32 sel.pair.val
  | 0x04 =>
    w32 (maskOf 8 (fun p => (s.pairs.at p).st.runs) +
      256 * maskOf 8 (fun p => (s.pairs.at p).st == .fault || (s.pairs.at p).st == .failed) +
      65536 * maskOf 8 (fun p => (s.pairs.at p).st == .dbgHalt) + 2 ^ 24 * maskOf 8 (fun p => (s.pairs.at p).st == .selftest))
  | 0x08 => s.evt.pair.setWidth 32
  | 0x0C => w32 (s.pctl.bootCode.toNat + 256 * s.pctl.stopCnt + 65536 * bit s.pctl.split + 131072 * s.pctl.mode.toNat)
  | 0x10 => w32 (s.pctl.unlocked.toNat + 256 * bit s.pctl.attached + 512 * s.unlockHours)
  | 0x20 => w32 (s.configured 0 (x.cfg.escal.toNat + 4 * x.cfg.strs.toNat + 64 * bit x.cfg.stEn + 256 * x.cfg.intervalS))
  | 0x24 =>
    w32 (x.st.code + 8 * bit (s.inspect sel.pair) + 16 * bit x.done + 32 * x.splitFail.toNat + 128 * bit (s.pairCauseOn sel.pair) + 256 * x.mmCnt +
      65536 * x.lastSt.toNat)
  | 0x28 => w32 (x.mmLane.toNat + 4 * x.mmGroup.toNat + 128 * bit x.mmValid + 256 * x.mmPc.toNat)
  | 0x2C => w32 (x.passCnt + 65536 * x.failCnt)
  | 0x30 => w32 (2 * x.entry.toNat)
  | 0x34 => w32 (x.replay.length + 8192 * bit x.full)
  | _ => 0

/-- A CAN controller carries halter telegrams: CAN0 always, CAN1 while NETSEL = 0 (08 R257). -/
def State.canHalter (s : State) (c : Fin 4) : Bool := c == 0 || (c == 1 && !s.halter.cfg.netsel)

/-- A CAN controller carries the limit message (07 R240). -/
def State.canLimits (s : State) (c : Fin 4) : Bool := (c == 2 && s.pub.cfg.pubEn.getLsbD 0) || (c == 3 && s.pub.cfg.pubEn.getLsbD 1)

/-- `NET_CANc` (19 R472). -/
def State.netCan (s : State) (c : Fin 4) : Word :=
  let x := s.net.can.at c
  w32 (x.st.toNat + s.configured 0 (4 * bit (x.dataKbps != 0) + 8 * bit (s.canHalter c) + 16 * bit (s.canLimits c)) +
    256 * x.tec + 65536 * x.rec_ + 2 ^ 24 * x.busoff)

/-- `NET_ETHm` (19 R472). -/
def State.netEth (s : State) (m : Fin 2) : Word :=
  let x := s.net.eth.at m
  w32 (bit x.link + 2 * x.speed.toNat + 8 * s.configured 0 (bit (m == 0 && s.halter.cfg.netsel)) + 65536 * x.rxDrop)

/-- The network block (19 R472). -/
def State.regNet (s : State) (off : Nat) : Word :=
  match off with
  | 0x00 => s.netCan 0
  | 0x04 => s.netCan 1
  | 0x08 => s.netCan 2
  | 0x0C => s.netCan 3
  | 0x10 => s.netEth 0
  | 0x14 => s.netEth 1
  | _ => 0

/-- `SEC_IMGn` (18 R467). -/
def Image.word (i : Image) : Word := w32 (i.st.toNat + 4 * i.reason.toNat + 64 * bit i.ue + 256 * i.rbLevel.toNat)

/-- The security block (18 R467), loaded at each boot; the device key reads at all times. -/
def State.regSec (s : State) (off : Nat) : Word :=
  let c := s.sec
  match off with
  | 0x00 =>
    w32 (s.configured 0 (bit c.bootSel + 2 * bit c.running + 4 * c.result.toNat + 16 * c.rbCount.toNat + 2048 * bit c.owner.isSome +
      4096 * bit c.service.isSome + 8192 * bit c.test))
  | 0x04 => s.evt.sec.setWidth 32
  | 0x08 => (c.img.at 0).word
  | 0x0C => (c.img.at 1).word
  | 0x10 => w32 (s.configured 0 c.cfgSeq.toNat)
  | 0x14 => w32 (s.configured 0 c.ownerSeq.toNat)
  | 0x20 => w32 (field deviceKey 0 4)
  | 0x24 => w32 (field deviceKey 4 4)
  | 0x28 => w32 (field deviceKey 8 4)
  | 0x2C => w32 (field deviceKey 12 4)
  | 0x30 => w32 (field deviceKey 16 4)
  | 0x34 => w32 (field deviceKey 20 4)
  | 0x38 => w32 (field deviceKey 24 4)
  | 0x3C => w32 (field deviceKey 28 4)
  | _ => 0

-- Sharing (11), events (19), memory errors (01) and the MSI-X table (02).

/-- A lane's fill in units of 4 codewords (11). -/
def State.laneFill (s : State) (l : Lane) : Nat := roundNat (((min 512 (s.mem.queue.lane l).length : Nat) : Rat) / 4)

/-- The age limit of the yard: 44 rounds in lockstep, 35 in split mode (11). -/
def State.ageLimit (s : State) : Nat := if s.pctl.split then 35 else 44

/-- Reserved rounds of bank 0 granted and left idle in the last completed millisecond (11). -/
def State.protLast (s : State) : Nat × Nat :=
  let y := s.yard
  if s.nowMs = y.accFrom then (y.protGrants, y.protIdle) else if s.nowMs = y.accFrom + 1 then (y.accGrants, y.accIdle) else (0, 0)

/-- The yard arbiter block (11). -/
def State.regYard (s : State) (off : Nat) : Word :=
  let y := s.yard
  let q := s.mem.queue
  match off with
  | 0x00 => w32 (s.ageLimit + 64 * bit s.pctl.split)
  | 0x04 => y.weight0
  | 0x08 => y.weight1
  | 0x0C => y.weight2
  | 0x10 => y.weight3.setWidth 32
  | 0x14 => w32 (min 127 y.maxRounds + 128 * y.maxId.toNat + 4096 * y.maxTarget.toNat + 65536 * y.agedCnt)
  | 0x18 => w32 (min 0xFFFF s.protLast.1 + 65536 * min 0xFFFF s.protLast.2)
  | 0x20 => w32 (s.evt.aged.toNat + 65536 * s.hif.agedCnt)
  | 0x30 => w32 (s.laneFill .wb + 256 * s.laneFill .sb + 65536 * s.laneFill .cal + 2 ^ 24 * s.laneFill .cr)
  | 0x34 => w32 (q.maxUs + 65536 * q.maxLane.toNat)
  | _ => 0

/-- `MEM_UE_STAT` (01 R35). -/
def State.memUeStat (s : State) : Word :=
  let u := s.mem.ue
  w32 (u.bank.toNat + 32 * u.src.toNat + 256 * bit u.prot + 512 * bit s.evt.memUe + 65536 * u.count)

/-- The event block (19 R473, R474) and the memory-fault registers (01 R35). -/
def State.regEvents (s : State) (off : Nat) : Word :=
  if h : 0x80 ≤ off ∧ off < 0x100 then
    let c := s.mem.ecc.at ⟨(off - 0x80) / 4, by omega⟩
    w32 (c.corr + 65536 * c.ue)
  else match off with
  | 0x00 => (evtSum s.evt).setWidth 32
  | 0x04 => s.evt.en.setWidth 32
  | 0x08 => w32 (bit s.evt.acc + 2 * s.misc.accErr.kind.toNat + 16 * s.misc.accErr.count + 65536 * s.misc.accErr.off.toNat)
  | 0x70 => s.memUeStat
  | 0x74 => s.mem.ue.off.setWidth 32
  | _ => 0

/-- A word of the MSI-X table: address low and high, data, and the mask bit (02 R75). -/
def State.msixWord (s : State) (off : Nat) : Word :=
  let e := s.msix.at (idx 32 (by decide) (off / 16))
  if off % 16 = 0 then w32 e.addr.toNat
  else if off % 16 = 4 then hi32 e.addr.toNat
  else if off % 16 = 8 then e.data
  else w32 (bit e.masked)

/-- The Pending Bit Array. -/
def State.msixPba (s : State) : Word := w32 (maskOf 32 (fun v => (s.msix.at v).pending))

/-- What an aligned 32-bit read of a BAR0 offset returns with given selectors and shadows (19 R468). An offset that no
register occupies reads 0 (00 R10), and so does a write-only register (00 R9). -/
def State.readReg (s : State) (sel : Sel) (sh : Shadows) (off : Nat) : Word :=
  if off < 0x0400 then regIdentity sh off
  else if off < 0x0800 then s.regPower (off - 0x0400)
  else if off < 0x0C00 then s.regThermal sel (off - 0x0800)
  else if off < 0x1000 then s.regRings sel (off - 0x0C00)
  else if off < 0x1400 then s.regStalls sel (off - 0x1000)
  else if off < 0x1480 then s.regSweeps sel (off - 0x1400)
  else if off < 0x1800 then s.regTime sh (off - 0x1480)
  else if off < 0x1C00 then s.regEst sel (off - 0x1800)
  else if off < 0x2000 then s.regStrings sel (off - 0x1C00)
  else if off < 0x2400 then s.regSwc sel (off - 0x2000)
  else if off < 0x2800 then s.regHalter (off - 0x2400)
  else if off < 0x2C00 then s.regStudbook (off - 0x2800)
  else if off < 0x3000 then s.regWb sel sh (off - 0x2C00)
  else if off < 0x3400 then s.regCal sel (off - 0x3000)
  else if off < 0x3800 then s.regPairs sel (off - 0x3400)
  else if off < 0x3C00 then s.regNet (off - 0x3800)
  else if off < 0x4000 then s.regSec (off - 0x3C00)
  else if off < 0x4400 then s.regYard (off - 0x4000)
  else if off < 0x4800 then s.regEvents (off - 0x4400)
  else if 0x8000 ≤ off ∧ off < 0x8200 then s.msixWord (off - 0x8000)
  else if off = 0x8400 then s.msixPba
  else 0

/-- A read of a _LO register captures the other half (10 R323; 17; 19 R470). -/
def State.captured (s : State) (sel : Sel) (sh : Shadows) (off : Nat) : Shadows :=
  let x := s.wb.str.at sel.str
  match off with
  | 0x0018 => { sh with serial := hi32 Config.serial.toNat }
  | 0x1480 => { sh with yt := hi32 s.now }
  | 0x1490 => { sh with oph := w32 (s.oph / 2 ^ 32 % 65536) }
  | 0x14A8 => { sh with wake := hi32 s.clk.ytWake }
  | 0x2C08 => { sh with stmt := hi32 s.wb.stmtRel }
  | 0x2C20 => { sh with edis := hi32 (energySum x.eDis) }
  | 0x2C28 => { sh with echg := hi32 (energySum x.eChg) }
  | 0x2C30 => { sh with qdis := hi32 (whole x.qDis) }
  | 0x2C38 => { sh with qchg := hi32 (whole x.qChg) }
  | _ => sh

end Sys2Proof.Machine
end

