-- ==== Sys2Proof/Machine/Pairs.lean ====
section
/-! DEFINITION. The core pairs (chapter 14): mismatches, self-tests, start and stop, debug. -/

namespace Sys2Proof.Machine

/-- Bits of `PAIR_EVT`: 0 MISMATCH, 8 ST_FAIL, 16 ST_PASS, each plus the pair; 24 UNLOCK, 25 REPLAY_FULL. -/
def State.pairEvent (s : State) (n : Nat) : State := { s with evt := { s.evt with pair := setBit s.evt.pair n } }

/-- A PAIR_FAULT record (14 R387). -/
def State.pairRecord (s : State) (p : Fin 8) (kind lane group core pc : Nat) : State :=
  s.studbook 0x07 p.val (leBytes 1 kind ++ leBytes 1 lane ++ leBytes 1 group ++ leBytes 1 core ++ leBytes 4 pc ++
    leBytes 4 (s.pairs.at p).mmCnt)

/-- The consequences of R387 for a pair: the halter detail for pair 0, the configured escalation for the others. -/
def State.pairConsequence (s : State) (p : Fin 8) : State :=
  let s := s.onPair p (fun x => { x with cause := true })
  if p = 0 then s.raiseDetail .pair0Mismatch 0
  else if (s.pairs.at p).cfg.escal = 2 then
    (places 4).foldl (fun s t => if (s.pairs.at p).cfg.strs.getLsbD t.val then s.requestB t 0x18 else s) s
  else s

/-- The cause of a pair is gone (14 R387). -/
def State.pairCauseGone (s : State) (p : Fin 8) : State :=
  let s := s.onPair p (fun x => { x with cause := false })
  if p = 0 then s.clearDetail .pair0Mismatch else s

-- Mismatches (14 R385 to R388).

/-- The groups of a lane (14 R385). -/
def laneGroups (lane : BitVec 2) : Nat := if lane = 0 then 5 else if lane = 2 then 10 else 6

/-- The comparators of a pair are armed: in lockstep, while it runs, and while it is halted in joint mode (14 R388, R392, R396). -/
def State.compared (s : State) (p : Fin 8) : Bool :=
  !s.pctl.split && ((s.pairs.at p).st == .run || ((s.pairs.at p).st == .dbgHalt && !s.inspect p))

/-- LOCKSTEP_MISMATCH (14 R386, R387). -/
def execLockstepMismatch (p : Fin 8) (lane : BitVec 2) (group : BitVec 4) (pc : BitVec 32) (s : State) : Host.Outcome State Fault Refusal :=
  answer s (if s.compared p && decide (group.toNat < laneGroups lane) then
    let s := s.onPair p (fun x => { x with
      st := .fault, mmLane := lane, mmGroup := group, mmValid := true, mmPc := pc.extractLsb' 2 24, mmCnt := satAdd 0xFF x.mmCnt 1 })
    ((s.pairEvent p.val).pairRecord p 1 lane.toNat group.toNat 0 pc.toNat).pairConsequence p
  else s)

-- Live self-tests (14 R388 to R390, R394).

/-- A test is in progress on some pair: a live test, or a recovery test. -/
def State.testRuns (s : State) : Bool := (places 8).any (fun p => (s.pairs.at p).st == .selftest) || s.pctl.waits.any StWait.mode1

/-- A live test of a pair is due: scheduled, or asked for by a PAIR_SELFTEST that waits (14 R389, R394). -/
def State.testDue (s : State) (p : Fin 8) : Bool :=
  let x := s.pairs.at p
  s.pctl.waits.any (fun w => w.pair == p && !w.mode1) ||
  ((s.pctl.split || p != 0) && x.cfg.stEn && decide (x.testedAt + x.cfg.intervalS * ticksPerS ≤ s.now))

/-- PAIR_SELFTEST_START (14 R389): the pair, idle for 100 µs, begins the test that is due. -/
def execPairSelftestStart (p : Fin 8) (s : State) : Host.Outcome State Fault Refusal :=
  answer s (if (s.pairs.at p).st.runs && !s.testRuns && s.testDue p then
    let s := s.onPair p (fun x => { x with prev := x.st, st := .selftest })
    { s with pctl := { s.pctl with waits := s.pctl.waits.map (fun w => if w.pair == p then { w with began := true } else w) } }
  else s)

/-- The commands that wait for a test of this pair to end. -/
def State.testWaiters (s : State) (p : Fin 8) : List Cmd := (s.pctl.waits.filter (fun w => w.pair == p && w.began)).map StWait.cmd

/-- The commands complete with the result of the test (14 R394). -/
def State.testDone (s : State) (p : Fin 8) (result : BitVec 4) : State :=
  let cs := s.testWaiters p
  let s := { s with pctl := { s.pctl with waits := s.pctl.waits.filter (fun w => !(w.pair == p && w.began)) } }
  if result = 1 then s.completeAll cs stSuccess (dwords 1 0 0 0) else s.completeAll cs stRefused (dwords 0x0E05 result.toNat 0 0)

/-- A result code that a test can report: 1 to 5, and in split mode 1 and 5 (14 R390). -/
def State.resultOk (s : State) (result : BitVec 4) : Bool :=
  result == 1 || result == 5 || (!s.pctl.split && 2 ≤ result.toNat && result.toNat ≤ 4)

/-- The TCMs of a pair read zero (14 R388). The TCM of core c lies at key c × 0x2_0000 of the SRAM. -/
def State.clearTcm (s : State) (p : Fin 8) : State :=
  { s with mem := { s.mem with sram := s.mem.sram.filter (fun c => !(decide (c.1 / 0x40000 = p.val))) } }

/-- A recovery test of a pair in FAULT or FAILED ends (14 R388). Pair 0 restarts through the boot ROM. -/
def State.recoveryEnd (s : State) (p : Fin 8) (result : BitVec 4) : State :=
  if result = 1 then
    let s := s.onPair p (fun x => { x with
      st := .off, done := false, splitFail := 0, lastSt := 1, passCnt := satAdd 0xFFFF x.passCnt 1, testedAt := s.now, stopPend := false })
    let s := ((s.clearTcm p).pairEvent (16 + p.val)).pairRecord p 4 1 0 0 0
    let s := if p = 0 then { s with sec := { s.sec with bootDue := true } } else s
    (s.pairCauseGone p).testDone p result
  else
    let s := s.onPair p (fun x => { x with
      st := .failed, lastSt := result, failCnt := satAdd 0xFFFF x.failCnt 1, testedAt := s.now })
    (s.pairEvent (8 + p.val)).testDone p result

/-- A live test of a pair ends (14 R388, R390). A STOP bit that waited takes effect now. -/
def State.liveTestEnd (s : State) (p : Fin 8) (result : BitVec 4) (core : Bool) : State :=
  if result = 1 then
    let s := s.onPair p (fun x => { x with
      st := if x.stopPend then .off else x.prev, stopPend := false, lastSt := 1, passCnt := satAdd 0xFFFF x.passCnt 1, testedAt := s.now })
    (s.pairEvent (16 + p.val)).testDone p result
  else
    let s := s.onPair p (fun x => { x with
      st := .failed, stopPend := false, lastSt := result, failCnt := satAdd 0xFFFF x.failCnt 1, testedAt := s.now
      splitFail := if s.pctl.split then setBit x.splitFail (bit core) else x.splitFail })
    let s := (s.pairEvent (8 + p.val)).pairRecord p 3 result.toNat 0 (if s.pctl.split then bit core else 0) 0
    (s.pairConsequence p).testDone p result

/-- PAIR_SELFTEST_END (14 R388, R390): `core` is the core that failed, in split mode. -/
def execPairSelftestEnd (p : Fin 8) (result : BitVec 4) (core : Bool) (s : State) : Host.Outcome State Fault Refusal :=
  answer s (if !s.resultOk result then s
  else if (s.pairs.at p).st = .selftest then s.liveTestEnd p result core
  else if s.pctl.waits.any (fun w => w.pair == p && w.mode1) then s.recoveryEnd p result
  else s)

/-- PAIR_SELFTEST (0x14; 14 R394). -/
def execPairSelftest (c : Cmd) (s : State) : Host.Outcome State Fault Refusal :=
  answer s (s.run c false (fun s =>
    if h : opByte c 0 < 8 then
      let p : Fin 8 := ⟨opByte c 0, h⟩
      let x := s.pairs.at p
      let recovery := opByte c 1 == 1
      if 1 < opByte c 1 then s.badOperand c
      else if s.testRuns then s.busy c
      else if !recovery && p == 0 && !s.pctl.split then s.refuse c 0x0E01
      else if (if recovery then !(x.st == .fault || x.st == .failed) else !x.st.runs) then s.refuse c 0x0E02
      else if recovery && decide (3 ≤ x.mmCnt) then s.refuse c 0x0E04
      else
        { s with pctl := { s.pctl with waits := s.pctl.waits ++
            [{ cmd := c, pair := p, mode1 := recovery, since := s.now, began := recovery }] } }
    else s.badOperand c))

/-- PAIR_SELFTEST_IDLE_TIMEOUT (14 R394): a pair that has not idled within 1 s. -/
def execPairSelftestIdleTimeout (s : State) : Host.Outcome State Fault Refusal :=
  answer s (
    let late (w : StWait) : Bool := !w.began && decide (w.since + ticksPerS ≤ s.now)
    let cs := (s.pctl.waits.filter late).map StWait.cmd
    let s := { s with pctl := { s.pctl with waits := s.pctl.waits.filter (fun w => !late w) } }
    s.completeAll cs stRefused (dwords 0x0E03 0 0 0))

-- PAIR_CTRL (14 R388, R396).

/-- START bit `p` (14 R388): releases a pair from OFF. -/
def State.startPair (s : State) (writer : Fin 16) (p : Fin 8) : State :=
  if writer = 0 ∧ p ≠ 0 ∧ (s.pairs.at p).st = .off then
    s.onPair p (fun x => { x with st := if s.pctl.split then .split else .run, done := false })
  else s

/-- STOP bit `p` (14 R388): places a pair in OFF, at the end of a test that runs; never pair 0. -/
def State.stopPair (s : State) (writer : Fin 16) (p : Fin 8) : State :=
  if writer = 0 ∧ p ≠ 0 then
    match (s.pairs.at p).st with
    | .run | .split | .dbgHalt => s.onPair p (fun x => { x with st := .off })
    | .selftest => s.onPair p (fun x => { x with stopPend := true })
    | _ => s
  else s

/-- The pair of a core. -/
def pairOf (c : Fin 16) : Fin 8 := ⟨c.val / 2, by omega⟩

/-- DONE (14 R396): ends the start-up of the writer's own pair. -/
def State.pairDone (s : State) (writer : Fin 16) : State :=
  if (s.pairs.at (pairOf writer)).st.runs then s.onPair (pairOf writer) (fun x => { x with done := true }) else s

/-- PAIR_START (14 R388). -/
def execPairStart (writer : Fin 16) (p : Fin 8) (s : State) : Host.Outcome State Fault Refusal := answer s (s.startPair writer p)

/-- PAIR_STOP (14 R388). -/
def execPairStop (writer : Fin 16) (p : Fin 8) (s : State) : Host.Outcome State Fault Refusal := answer s (s.stopPair writer p)

/-- PAIR_DONE (14 R396). -/
def execPairDone (writer : Fin 16) (s : State) : Host.Outcome State Fault Refusal := answer s (s.pairDone writer)

-- Debug (14 R393 to R397).

/-- A debugger reaches a pair: an unlock in force covers it, and dmactive is 1 (14 R395). -/
def State.debugs (s : State) (p : Fin 8) : Bool := s.pctl.attached && s.pctl.unlocked.getLsbD p.val

/-- DEBUG_HALT (14 R388). -/
def execDebugHalt (p : Fin 8) (s : State) : Host.Outcome State Fault Refusal :=
  answer s (if s.debugs p && (s.pairs.at p).st.runs then s.onPair p (fun x => { x with prev := x.st, st := .dbgHalt }) else s)

/-- The key of a TCM word of a core in the SRAM. -/
def tcmKey (core : Nat) (addr : BitVec 17) : Nat := core * 0x20000 + addr.toNat

/-- A replayed entry as it reaches the checker (14 R396). -/
def State.replayEntry (s : State) (p : Fin 8) : DbgWrite → State
  | .tcm addr v => s.sramStore (tcmKey (2 * p.val + 1) addr) (bvBytes 4 v)
  | .reg _ _ => s
  | .other _ _ => s

/-- DEBUG_RESUME (14 R388, R396, R397): the checker replays the buffer, which empties, and the pair runs on. -/
def execDebugResume (p : Fin 8) (s : State) : Host.Outcome State Fault Refusal :=
  answer s (if s.debugs p && (s.pairs.at p).st == .dbgHalt then
    let s := (s.pairs.at p).replay.foldl (fun s w => s.replayEntry p w) s
    s.onPair p (fun x => { x with st := x.prev, replay := [], full := false })
  else s)

/-- JTAG_EXTEST (14 R393): refused while any string is not OPEN. -/
def execJtagExtest (s : State) : Host.Outcome State Fault Refusal := answer s { s with pctl := { s.pctl with extest := s.allOpen } }

/-- The unlock ends, or another takes its place: `mask` is what is unlocked from now on until `expires`. -/
def State.setUnlock (s : State) (mask : BitVec 8) (expires : Nat) : State :=
  let s := if s.pctl.unlocked = 0 ∧ mask = 0 then s else s.pairEvent 24
  { s with pctl := { s.pctl with unlocked := mask, expires := expires, attached := s.pctl.attached && mask != 0 } }

/-- What DEBUG_UNLOCK does (14 R395). -/
def debugUnlock (c : Cmd) (pkg : List Byte) (s : State) : State :=
  let seq := field pkg 4 4
  let hours := field pkg 0x12 2
  if opField c 8 4 ≠ 96 ∨ pkg.length ≠ 96 ∨ packageHead 0x0B01 pkg = false ∨ zeroBytes pkg 0x11 0x12 = false ∨ hours = 0 ∨ 720 < hours ∨
     zeroBytes pkg 0x14 0x20 = false then s.badOperand c
  else if packageSigned s.sec.owner pkg = false then s.authFail c
  else if seq ≤ s.pctl.dbgSeq.toNat then s.refuse c 0x0E06
  else
    let mask : BitVec 8 := pkg.getD 0x10 0
    let s := s.setUnlock mask (s.oph + hours * 3600000)
    let s := { s with pctl := { s.pctl with dbgSeq := BitVec.ofNat 32 seq } }
    (s.studbook 0x05 0x0B ([1, 0, 0, 0] ++ leBytes 4 seq)).ok c (dwords mask.toNat 0 0 0)

/-- DEBUG_UNLOCK (0x0B; 14 R395). -/
def execDebugUnlock (c : Cmd) (pkg : List Byte) (s : State) : Host.Outcome State Fault Refusal :=
  answer s (s.run c false (debugUnlock c pkg))

/-- DEBUG_UNLOCK_EXPIRY (14 R395). -/
def execDebugUnlockExpiry (s : State) : Host.Outcome State Fault Refusal :=
  answer s (if s.pctl.unlocked ≠ 0 ∧ s.pctl.expires ≤ s.oph then s.setUnlock 0 0 else s)

/-- DEBUGGER_ATTACH (14 R395): dmactive is set or cleared; without an unlock the write is ignored. -/
def execDebuggerAttach (on : Bool) (s : State) : Host.Outcome State Fault Refusal :=
  answer s { s with pctl := { s.pctl with attached := on && s.pctl.unlocked != 0 } }

end Sys2Proof.Machine
end

