-- ==== Sys2Proof/Machine/Studbook.lean ====
section
/-! DEFINITION. The studbook recorder (chapter 13): snapshots, records, clearing, faults of the log's memory, reading, and start-up. -/

namespace Sys2Proof.Machine

/-- MRAM offset of a slot of the studbook region (13 R365). -/
def slotAddr (n : Nat) : Nat := 0x1800000 + 256 * n

/-- MRAM offset of a recorder fault cell (01 R27). -/
def faultCell (n : Fin 3) : Nat := if n = 0 then 0x700000 else if n = 1 then 0xF00000 else 0x1700000

/-- The recorder runs in Run and Idle while the MEM island is ready (13 R369). -/
def State.recorderRuns (s : State) : Bool := s.isl.mem && (s.pwr.st == .run || s.pwr.st == .idle)

/-- Bits of `STB_EVT`. -/
def State.stbEvent (s : State) (n : Nat) : State := { s with evt := { s.evt with stb := setBit s.evt.stb n } }

-- Snapshots (13 R377).

/-- The selector that serves a register (19 R468); none for a global one. -/
inductive SelKind where
  | ring | stall | unit | str | swc | pair | tsens
deriving DecidableEq, Repr

/-- The selector of a BAR0 offset, as the index of the register map gives it (19 R468). -/
def selKindOf (off : Nat) : Option SelKind :=
  if 0x0820 ≤ off ∧ off ≤ 0x0824 then some .tsens
  else if 0x0C20 ≤ off ∧ off ≤ 0x0C3C then some .ring
  else if (0x1020 ≤ off ∧ off ≤ 0x1030) ∨ (0x1420 ≤ off ∧ off ≤ 0x1424) then some .stall
  else if (0x1040 ≤ off ∧ off ≤ 0x1068) ∨ (0x1440 ≤ off ∧ off ≤ 0x1460) ∨ (0x3020 ≤ off ∧ off ≤ 0x3024) then some .unit
  else if (0x1820 ≤ off ∧ off ≤ 0x182C) ∨ (0x1C20 ≤ off ∧ off ≤ 0x1C3C) ∨ (0x2C20 ≤ off ∧ off ≤ 0x2C48) ∨ off = 0x3040 then some .str
  else if 0x2020 ≤ off ∧ off ≤ 0x2030 then some .swc
  else if 0x3420 ≤ off ∧ off ≤ 0x3434 then some .pair
  else none

/-- Selectors that name instance `n`; none outside the selector's range. -/
def SelKind.pick (k : SelKind) (n : Nat) : Option Sel :=
  match k with
  | .ring => if h : n < 16 then some { ring := ⟨n, h⟩ } else none
  | .stall => if h : n < 32 then some { stall := ⟨n, h⟩ } else none
  | .unit => if h : n < 128 then some { stall := ⟨n / 4, by omega⟩, unit := ⟨n % 4, by omega⟩ } else none
  | .str => if h : n < 4 then some { str := ⟨n, h⟩ } else none
  | .swc => if h : n < 24 then some { swc := ⟨n, h⟩ } else none
  | .pair => if h : n < 8 then some { pair := ⟨n, h⟩ } else none
  | .tsens => if h : n < 12 then some { tsens := ⟨n, h⟩ } else none

/-- What the subject of a trigger names, where it is a unit position, a stall, a string or a channel (13 R373). -/
def subjectKind (trigger : BitVec 6) (subject : Nat) : Option SelKind :=
  if trigger = 0x17 ∨ trigger = 0x18 ∨ trigger = 0x19 ∨ trigger = 0x25 ∨ (trigger = 0x0C ∧ subject ≠ 0xFF) then some .unit
  else if trigger = 0x1A ∨ trigger = 0x20 then some .stall
  else if trigger = 0x0B ∨ trigger = 0x14 ∨ trigger = 0x15 ∨ trigger = 0x16 then some .str
  else if trigger = 0x21 ∨ trigger = 0x22 then some .swc
  else none

/-- SEL 0xFE: the instance that a subject gives a register of kind `k` (13 R377). -/
def State.subjectSel (s : State) (trigger : BitVec 6) (subject : Nat) (k : SelKind) : Option Sel :=
  match subjectKind trigger subject, k with
  | some .unit, .unit => SelKind.pick .unit subject
  | some .unit, .stall => SelKind.pick .stall (subject / 4)
  | some .unit, .str =>
    if h : subject < 128 then (s.stalls.at ⟨subject / 4, by omega⟩).str.map (fun t => ({ str := t } : Sel)) else none
  | some .stall, .stall => SelKind.pick .stall subject
  | some .stall, .unit => SelKind.pick .unit (4 * subject)
  | some .str, .str => SelKind.pick .str subject
  | some .swc, .swc => SelKind.pick .swc subject
  | _, _ => none

/-- The selectors with which an entry is read; none where it is not captured (13 R377). -/
def State.entrySel (s : State) (trigger : BitVec 6) (subject : Nat) (e : SnapEntry) : Option Sel :=
  match selKindOf e.off.toNat with
  | none => some {}
  | some k => if e.sel = 0xFE then s.subjectSel trigger subject k else k.pick e.sel.toNat

/-- The words of a snapshot list, each with whether it was captured, read one after the other through the recorder's own
shadows. -/
def State.snapWords (s : State) (trigger : BitVec 6) (subject : Nat) : List SnapEntry → Shadows → List (Word × Bool) × Shadows
  | [], sh => ([], sh)
  | e :: es, sh =>
    match s.entrySel trigger subject e with
    | none =>
      let (ws, sh) := s.snapWords trigger subject es sh
      ((0, false) :: ws, sh)
    | some sel =>
      let w := s.readReg sel sh e.off.toNat
      let (ws, sh) := s.snapWords trigger subject es (s.captured sel sh e.off.toNat)
      ((w, true) :: ws, sh)

-- Records (13 R370).

/-- WALL_VALID (13 R372). -/
def State.wallValid (s : State) : Bool := s.stb.cfg.wallEn && s.clk.rtcSet

/-- What a record says besides what it takes from the state: its trigger, list, number of entries, event time, occurrences,
subject, CAPTURE_US, LOST, detail, PREV, snapshot words and SNAP_OK. -/
structure RecordParts where
  trigger : BitVec 6
  list    : Nat := 0
  entries : Nat := 0
  time    : Nat
  occur   : Nat := 1
  subject : BitVec 8 := 0
  capUs   : Nat := 0
  lost    : Nat := 0
  detail  : List Byte := []
  prev    : List Byte := []
  words   : List Byte := []
  ok      : Nat := 0

/-- Operating hours in ms at a yard time that has passed. -/
def State.ophAt (s : State) (time : Nat) : Nat := (s.clk.ophMs * ticksPerMs + s.clk.ophTicks - (s.now - time)) / ticksPerMs

/-- The 256 bytes of a record with a SEQ and LOG_GEN (13 R370). -/
def State.recordBytes (s : State) (seq gen : Nat) (r : RecordParts) : List Byte :=
  withCrc32c (leBytes 4 0x53544231 ++ leBytes 4 seq ++ leBytes 4 gen ++ leBytes 4 s.clk.pcc ++ leBytes 6 (s.ophAt r.time) ++
    leBytes 1 (r.trigger.toNat + 64 * bit s.wallValid + 128 * bit s.clk.ytUnc) ++ leBytes 1 (r.list + 8 * r.entries) ++
    leBytes 4 (if s.wallValid then s.rtcSec else 0) ++ leBytes 4 r.time ++ leBytes 2 r.occur ++ [r.subject, 0] ++
    leBytes 2 (min 0xFFFF r.capUs) ++ leBytes 2 r.lost ++ padTo 16 r.detail ++ padTo 16 r.prev ++ padTo 96 r.words ++
    leBytes 3 r.ok ++ List.replicate 81 0)

/-- The records at the front of the record queue pass to the SB lane while it has room for a whole record (13 R368); `fuel`
bounds them. -/
def State.passRecords : Nat → State → State
  | 0, s => s
  | fuel + 1, s =>
    match s.stb.queue with
    | [] => s
    | r :: rest =>
      if 512 < s.mem.queue.sb.length + 16 then s
      else
        let seq := field r 4 4
        let old := field r 8 4 == s.stb.logGen.toNat
        let s := s.mramStore (slotAddr seq) r
        State.passRecords fuel { s with stb := { s.stb with queue := rest, records := if old then seq + 1 else s.stb.records } }

/-- A record of the current log enters the record queue (13 R368, R371). -/
def State.addRecord (s : State) (r : RecordParts) : State :=
  let bytes := s.recordBytes s.stb.made s.stb.logGen.toNat { r with prev := s.stb.head.take 16, lost := s.stb.lostSince }
  State.passRecords 32 { s with stb := { s.stb with
    queue := s.stb.queue ++ [bytes], made := s.stb.made + 1, head := sha512 bytes, lostSince := 0 } }

/-- Record 0 of the new log enters the record queue, once the requests of the old log are gone (13 R374, steps 2 to 4). -/
def State.startLog (s : State) : State :=
  match s.stb.clearing with
  | some c =>
    if c.left = 0 ∧ c.first = none ∧ s.stb.queue.length < 32 then
      let old := s.stb.logGen
      let gen := (old + 1).toNat
      let bytes := s.recordBytes 0 gen
        { trigger := 0, time := s.now, prev := s.stb.head.take 16, words := (s.stb.head.drop 16).take 16,
          detail := leBytes 4 s.stb.made ++ leBytes 4 old.toNat ++ leBytes 4 s.stb.refused ++ leBytes 4 c.seq.toNat,
          lost := s.stb.lostSince }
      State.passRecords 32 { s with stb := { s.stb with
        queue := s.stb.queue ++ [bytes], lostSince := 0, clearing := some { c with first := some bytes, erased := s.stb.made } } }
    else s
  | none => s

/-- The refused block (13 R375). -/
def refusedBlock (gen refused : Nat) : List Byte := withCrc32c (leBytes 4 0x53544252 ++ leBytes 4 gen ++ leBytes 4 refused)

/-- The refused block in all three cells. -/
def State.writeRefused (s : State) : State :=
  let b := refusedBlock s.stb.logGen.toNat s.stb.refused
  let s := (places 3).foldl (fun s n => s.mramStore (faultCell n + 0x800) b) s
  { s with stb := { s.stb with refWritten := s.stb.refused, refAt := some s.now } }

/-- A clear takes place once record 0 is in MRAM (13 R374, step 5). -/
def State.finishClear (s : State) : State :=
  match s.stb.clearing with
  | none => s
  | some c =>
    match c.first with
    | none => s
    | some bytes =>
      let waits := s.stb.queue.any (fun r => r == bytes) || s.mem.queue.sb.any (fun w => decide (w.addr < slotAddr 1 ∧ slotAddr 0 ≤ w.addr))
      if waits then s
      else
        let gen := s.stb.logGen + 1
        let s := { s with stb := { s.stb with
          logGen := gen, clearSeq := c.seq, made := 1, records := 1, head := sha512 bytes, refused := 0, full := false,
          stopped := false, clearing := none, clearedAt := some s.now } }
        (s.writeRefused.stbEvent 3).ok c.cmd (dwords c.erased gen.toNat 0 0)

/-- A request is taken from the FIFO: a clear that waits for it comes nearer. -/
def Stb.takeOne (b : Stb) : Stb :=
  { b with
    fifo := b.fifo.drop 1
    clearing := b.clearing.map (fun c => { c with left := c.left - 1 }) }

/-- The record of a request, with its snapshot (13 R368, R370). `captureUs` is how long the reads take. -/
def State.captureRecord (s : State) (q : StbReq) (detail : List Byte) (captureUs : Nat) : State :=
  let l := s.stb.cfg.list.at ⟨q.trigger.toNat, q.trigger.isLt⟩
  let entries := (s.stb.cfg.lists.at l).take 24
  let (ws, sh) := s.snapWords q.trigger q.subject.toNat entries s.stb.sh
  let s := { s with stb := { s.stb with sh := sh } }
  s.addRecord
    { trigger := q.trigger, list := l.val, entries := entries.length, time := q.time, occur := q.occur, subject := q.subject,
      capUs := (s.now - q.time) / ticksPerUs + captureUs, detail := detail,
      words := ws.flatMap (fun w => bvBytes 4 w.1), ok := (ws.zipIdx.map (fun w => bit w.1.2 * 2 ^ w.2)).sum }

/-- RECORD_CAPTURE (13 R368): the oldest request becomes a record; with one free slot left LOG_FULL takes its place, and a
full log refuses it (R375). A clear begins its new log once its requests are gone (R374). -/
def execRecordCapture (captureUs : Nat) (s : State) : Host.Outcome State Fault Refusal :=
  answer s (if !s.recorderRuns || 32 ≤ s.stb.queue.length then s
  else if s.stb.clearing.any (fun c => c.left == 0) then s.startLog.finishClear
  else match s.stb.fifo with
    | [] => s
    | q :: _ =>
      let s := { s with stb := s.stb.takeOne }
      let us := min 200 captureUs
      let s := if s.stb.full then { s with stb := { s.stb with refused := satAdd 0xFFFFFFFF s.stb.refused q.occur } }
        else if s.stb.made = 32767 then
          let s := s.captureRecord { trigger := 0x3F, subject := 0, detail := 0, time := q.time, occur := 1 }
            [q.trigger.setWidth 8] us
          { s.stbEvent 1 with stb := { s.stb with full := true, refused := satAdd 0xFFFFFFFF s.stb.refused q.occur } }
        else s.captureRecord q (bvBytes 16 q.detail) us
      s.startLog)

/-- STUDBOOK_REQUEST (13 R367): an event requests a record; triggers that no event requests are never entered (R373). -/
def execStudbookRequest (trigger : BitVec 6) (subject : BitVec 8) (detail : BitVec 128) (s : State) : Host.Outcome State Fault Refusal :=
  let t := trigger.toNat
  let never := t == 0 || (0x0D ≤ t && t ≤ 0x0F) || (0x1C ≤ t && t ≤ 0x1F) || 0x26 ≤ t
  answer s (if never then s else s.studbook trigger subject.toNat (bvBytes 16 detail))

-- Damage to the log's own memory (13 R379, R380).

/-- The 32 bytes of a fault word. -/
def FaultWord.bytes (f : FaultWord) : List Byte :=
  withCrc32c (leBytes 4 0x53544246 ++ [f.kind, f.bank, 0, 0] ++ leBytes 4 f.slot ++ leBytes 4 f.affected ++ leBytes 6 f.oph ++ [0, 0] ++
    leBytes 4 f.gen)

/-- A clear in progress does not take place (13 R374). -/
def State.cancelClear (s : State) : State :=
  match s.stb.clearing with
  | some c => ({ s with stb := { s.stb with clearing := none } }).complete c.cmd stCancelled
  | none => s

/-- The recorder finds damage in its memory (13 R379): a fault word in all three cells while an index is free, and it stops. -/
def State.recorderFault (s : State) (kind : BitVec 8) (slot : Nat) : State :=
  let hit := bit (kind == 4 || decide (slot < s.stb.made))
  let f : FaultWord :=
    { kind := kind, bank := if slot < 16384 then 6 else 7, slot := slot, affected := hit + s.stb.queue.length, oph := s.oph,
      gen := s.stb.logGen.toNat }
  let k := s.stb.faults.length
  let s := if k < 16 then
      let s := (places 3).foldl (fun s n => s.mramStore (faultCell n + 32 * k) f.bytes) s
      { s with stb := { s.stb with faults := s.stb.faults ++ [f] } }
    else s
  let s := { s with stb := { s.stb with stopped := true, fifo := [], queue := [] } }
  (s.stbEvent 2).cancelClear

/-- RECORDER_FAULT (13 R379): KIND 1 to 4 with the bank and slot; the bank of a slot is bank 6 for the first 4 MiB. -/
def execRecorderFault (kind : BitVec 8) (bank7 : Bool) (slot : BitVec 15) (s : State) : Host.Outcome State Fault Refusal :=
  answer s (if kind = 0 ∨ 4 < kind.toNat ∨ bank7 ≠ decide (16384 ≤ slot.toNat) then s else s.recorderFault kind slot.toNat)

/-- REFUSED_COUNT_WRITE (13 R375): the count has changed, and 60 s have passed since it was last written. -/
def execRefusedCountWrite (s : State) : Host.Outcome State Fault Refusal :=
  let due : Bool := match s.stb.refAt with
    | some t => decide (t + 60 * ticksPerS ≤ s.now)
    | none => true
  answer s (if s.stb.refused ≠ s.stb.refWritten ∧ due = true ∧ s.isl.mem = true then s.writeRefused else s)

-- The commands (13 R374, R382).

/-- What STUDBOOK_CLEAR does (13 R374). -/
def studbookClear (c : Cmd) (pkg : List Byte) (s : State) : State :=
  let seq := field pkg 4 4
  let head := (pkg.drop 0x10).take 16
  let recent : Bool := match s.stb.clearedAt with
    | some t => decide (s.now < t + 60 * ticksPerS)
    | none => false
  if opField c 8 4 ≠ 96 ∨ pkg.length ≠ 96 ∨ packageHead 0x1101 pkg = false then s.badOperand c
  else if packageSigned s.sec.owner pkg = false then s.authFail c
  else if seq ≤ s.stb.clearSeq.toNat then s.refuse c 0x0B01
  else if recent then s.refuse c 0x0B02
  else if head ≠ List.replicate 16 0 ∧ head ≠ padTo 16 s.stb.head then s.refuse c 0x0B03
  else if 16 ≤ s.stb.faults.length then s.refuse c 0x0B04
  else if s.stb.clearing.isSome then s.busy c
  else
    State.startLog { s with stb := { s.stb with clearing := some { cmd := c, seq := BitVec.ofNat 32 seq, left := s.stb.fifo.length } } }

/-- STUDBOOK_CLEAR (0x11; 13 R374). -/
def execStudbookClear (c : Cmd) (pkg : List Byte) (s : State) : Host.Outcome State Fault Refusal :=
  answer s (s.run c false (studbookClear c pkg))

/-- Records of the current log that are in MRAM: those before the oldest one of which a codeword still waits in the lane. -/
def State.recordsInMram (s : State) : Nat :=
  let own := s.mem.queue.sb.filter (fun w => decide (0x1800000 ≤ w.addr) &&
    !(s.stb.clearing.any (fun c => c.first.isSome) && decide (w.addr < slotAddr 1)))
  match own with
  | w :: _ => min s.stb.records ((w.addr - 0x1800000) / 256)
  | [] => s.stb.records

/-- A copy of a fault word that is valid. -/
def faultCopyOk (b : List Byte) : Bool := field b 0 4 == 0x53544246 && withCrc32c (b.take 28) == b

/-- The fault word at an index as its three copies give it: the value that the most valid copies hold, a tie to the lowest
cell (13 R380). -/
def State.faultAt (s : State) (k : Nat) : Option (List Byte) :=
  let copies := ((places 3).map (fun n => s.mramRead (faultCell n + 32 * k) 32)).filter faultCopyOk
  copies.foldl (fun best b =>
    match best with
    | none => some b
    | some x => if (copies.filter (· == x)).length < (copies.filter (· == b)).length then some b else some x) none

/-- What STUDBOOK_READ does (13 R382). `badRecord` is a record whose read meets an uncorrectable error. -/
def studbookRead (c : Cmd) (badRecord : Option Nat) (s : State) : State :=
  let first := opField c 0 4
  let count := opField c 4 4
  let addr := opField c 8 8
  let func := opByte c 0x10
  let have_ := s.recordsInMram
  if 1 < func ∨ aligned16 addr = false then s.badOperand c
  else if func = 1 then
    let bytes := (List.range 16).flatMap (fun k => padTo 32 ((s.faultAt k).getD []))
    (s.toHost addr bytes).ok c (dwords 0 have_ 0 0)
  else if have_ < first ∨ count = 0 ∨ 4096 < count then s.badOperand c
  else
    let n := min count (have_ - first)
    let copy (s : State) (k : Nat) : State := if k = 0 then s else s.toHost addr (s.mramRead (slotAddr first) (256 * k))
    match badRecord with
    | some b =>
      if first ≤ b ∧ b < first + n then
        let s := copy s (b - first)
        let s := s.memoryError .dmaRead ⟨(30 + b / 16384) % 32, by omega⟩ (256 * b % 0x400000)
        (s.recorderFault 3 b).complete c stMemUe (dwords (b - first) 0 0 0)
      else (copy s n).ok c (dwords n have_ 0 0)
    | none => (copy s n).ok c (dwords n have_ 0 0)

/-- STUDBOOK_READ (0x82; 13 R382). -/
def execStudbookRead (c : Cmd) (badRecord : Option Nat) (s : State) : Host.Outcome State Fault Refusal :=
  answer s (s.run c false (studbookRead c badRecord))

-- Start-up (13 R375, R376, R380).

/-- A slot holds record `n` of the log of generation `gen`. -/
def State.slotOk (s : State) (gen n : Nat) : Bool :=
  let b := s.mramRead (slotAddr n) 256
  field b 0 4 == 0x53544231 && field b 8 4 == gen && field b 4 4 == n && withCrc32c (b.take 252) == b

/-- The first slot in [lo, hi) that does not belong to the log, by binary search; slots below `lo` belong. -/
def State.searchLog (s : State) (gen : Nat) : Nat → Nat → Nat → Nat
  | 0, lo, _ => lo
  | fuel + 1, lo, hi =>
    if hi ≤ lo then lo
    else
      let mid := (lo + hi) / 2
      if s.slotOk gen mid then s.searchLog gen fuel (mid + 1) hi else s.searchLog gen fuel lo mid

/-- The fault word that 32 bytes hold. -/
def faultOf (b : List Byte) : FaultWord :=
  { kind := b.getD 4 0, bank := b.getD 5 0, slot := field b 8 4, affected := field b 12 4, oph := field b 16 6, gen := field b 24 4 }

/-- The refused count at power-on: the largest among the valid copies of this log (13 R375). -/
def State.refusedAt (s : State) (gen : Nat) : Nat :=
  ((places 3).map (fun n => s.mramRead (faultCell n + 0x800) 16)).foldl (fun m b =>
    if field b 0 4 = 0x53544252 ∧ field b 4 4 = gen ∧ withCrc32c (b.take 12) = b then max m (field b 8 4) else m) 0

/-- The recorder finds its place in the log at a start-up (13 R376). A log whose generation a fault word names stays stopped
until a clear (R379, R380; DEDUCED). The answer says whether a torn record was found, and how many records the log holds; none
where slot 0 holds no LOG_START. `s` is a state whose recorder is at its reset values but for its configuration. -/
def State.scanStudbook (s : State) : State × Option (Bool × Nat) :=
  let faults := ((List.range 16).filterMap s.faultAt).map faultOf
  let s := { s with stb := { s.stb with faults := faults } }
  let b0 := s.mramRead (slotAddr 0) 256
  let gen := field b0 8 4
  let valid := s.slotOk gen 0 && bitsOf (b0.getD 0x16 0).toNat 0 6 == 0
  if !valid then (s.recorderFault 4 0, none)
  else
    let n := s.searchLog gen 15 1 32768
    let last := s.mramRead (slotAddr (n - 1)) 256
    let next := s.mramRead (slotAddr n) 256
    let torn := decide (n < 32768) && field next 0 4 == 0x53544231 && field next 8 4 == gen && withCrc32c (next.take 252) != next
    let refused := s.refusedAt gen
    ({ s with stb := { s.stb with
        logGen := BitVec.ofNat 32 gen, clearSeq := BitVec.ofNat 32 (field b0 0x34 4), made := n, records := n, head := sha512 last,
        full := n == 32768, stopped := faults.any (fun f => f.gen == gen), refused := refused, refWritten := refused } },
     some (torn, n))

/-- What the recorder does at an AON power-on (13 R376): it finds its place, and requests POWER_ON. -/
def State.loadStudbook (s : State) : State :=
  match s.scanStudbook with
  | (s, none) => s
  | (s, some (torn, n)) => s.studbook 0x01 0 (leBytes 1 (bit torn) ++ leBytes 1 (bit (!s.stb.faults.isEmpty)) ++ [0, 0] ++ leBytes 4 n)

end Sys2Proof.Machine
end

