-- ==== Sys2Proof/Machine/Sharing.lean ====
section
/-! DEFINITION. The yard arbiters and the MRAM write port (chapter 11). -/

namespace Sys2Proof.Machine

-- The yard (11 R324 to R329).

/-- A requester exists: all 25 in split mode, and in lockstep all but IDs 8 to 15 (11 R324). -/
def State.requester (s : State) (i : Fin 25) : Bool := s.pctl.split || !(8 ≤ i.val && i.val < 16)

/-- The weight of a requester; a weight of 0 is treated as 1 (11 R327). -/
def Yard.weight (y : Yard) (i : Fin 25) : Nat :=
  let w := if i.val < 8 then y.weight0 else if i.val < 16 then y.weight1 else if i.val < 24 then y.weight2 else y.weight3.setWidth 32
  max 1 (bitsOf w.toNat (4 * (i.val % 8)) 4)

/-- A requester has a request pending. -/
def Arbiter.waiting (a : Arbiter) (i : Fin 25) : Bool := a.reqs.any (fun r => r.id == i)

/-- The next requester in ascending order. -/
def nextReq (i : Fin 25) : Fin 25 := idx 25 (by decide) (i.val + 1)

/-- A protection requester: pair 0, or core 0 in split mode, and the halter mirror (11 R326). -/
def isProtection (i : Fin 25) : Bool := i == 0 || i == 24

/-- The grant of a reserved round: a protection requester, and of two the one not granted last (11 R326). -/
def Arbiter.reserved (a : Arbiter) : Option (Fin 25) :=
  match a.waiting 0, a.waiting 24 with
  | true, true => some (if a.lastProt then 0 else 24)
  | true, false => some 0
  | false, true => some 24
  | false, false => none

/-- The requests that have waited longest among the aged ones (11 R328). -/
def Arbiter.oldestAged (a : Arbiter) (limit : Nat) : List (Fin 25) :=
  let aged := a.reqs.filter (fun r => decide (limit ≤ r.wait))
  let top := aged.foldl (fun m r => max m r.wait) 0
  (aged.filter (fun r => r.wait == top)).map YardReq.id

/-- The pointer moves on from requester to requester until one has a request pending, receives its credit and is granted
(11 R327); `fuel` bounds the visits. -/
def Arbiter.roundRobin (y : Yard) : Nat → Arbiter → Arbiter × Option (Fin 25)
  | 0, a => (a, none)
  | fuel + 1, a =>
    if a.waiting a.ptr && 1 ≤ a.credit.at a.ptr then ({ a with credit := a.credit.upd a.ptr (· - 1) }, some a.ptr)
    else
      let i := nextReq a.ptr
      Arbiter.roundRobin y fuel { a with ptr := i, credit := a.credit.put i (if a.waiting i then y.weight i else 0) }

/-- The arbiter once the requests that arrive have been taken in: each requester presents at most one. -/
def Arbiter.arrive (a : Arbiter) (here : Fin 25 → Bool) : Arbiter :=
  { a with reqs := a.reqs ++ ((places 25).filter (fun i => here i && !a.waiting i)).map (fun i => ⟨i, 0⟩) }

/-- The arbiter after a round that granted `g`: every other request has waited one round more. -/
def Arbiter.after (a : Arbiter) (g : Option (Fin 25)) : Arbiter :=
  { a with
    round := a.round + 1
    reqs := (a.reqs.filter (fun r => some r.id != g)).map (fun r => { r with wait := r.wait + 1 }) }

/-- `YARD_MAXWAIT` after a grant: the longest wait, and the grants of aged requests (11 R328). -/
def Yard.record (y : Yard) (target : Fin 12) (id : Fin 25) (wait : Nat) (aged : Bool) : Yard :=
  let y := if aged then { y with agedCnt := satAdd 0x7FFF y.agedCnt 1 } else y
  if y.maxRounds < wait then
    { y with maxRounds := wait, maxId := BitVec.ofNat 5 id.val, maxTarget := BitVec.ofNat 4 target.val }
  else y

/-- A reserved round of bank 0 is counted in its millisecond. -/
def Yard.countReserved (y : Yard) (ms : Nat) (granted : Bool) : Yard :=
  let y := if ms = y.accFrom then y
    else { y with
      protGrants := if ms = y.accFrom + 1 then y.accGrants else 0, protIdle := if ms = y.accFrom + 1 then y.accIdle else 0
      accGrants := 0, accIdle := 0, accFrom := ms }
  if granted then { y with accGrants := y.accGrants + 1 } else { y with accIdle := y.accIdle + 1 }

/-- YARD_ARBITRATION_ROUND (11 R325 to R328): one decision of a target's arbiter. `arriving` are the requesters whose next
request has become pending at this target. Which of several equally old aged requests is granted is a free value. -/
def execYardArbitrationRound (target : Fin 12) (arriving : BitVec 25) (s : State) : Host.Outcome State Fault Refusal :=
  answer s (
    let a := (s.yard.arb.at target).arrive (fun i => arriving.getLsbD i.val && s.requester i)
    let put (s : State) (a : Arbiter) (g : Option (Fin 25)) (aged : Bool) : State :=
      let wait := ((g.bind (fun i => a.reqs.find? (fun r => r.id == i))).map YardReq.wait).getD 0
      let y := match g with | some i => s.yard.record target i wait aged | none => s.yard
      { s with yard := { y with arb := y.arb.put target (a.after g) } }
    if a.round % 8 = 0 then
      let g := a.reserved
      let s := put s (match g with | some i => { a with lastProt := i == 24 } | none => a) g false
      if target = 0 then { s with yard := s.yard.countReserved s.nowMs g.isSome } else s
    else
      match a.oldestAged s.ageLimit with
      | [] =>
        let (b, g) := Arbiter.roundRobin s.yard 26 a
        if a.reqs.isEmpty then put s a none false else put s b g false
      | [i] => put s a (some i) true
      | i :: rest =>
        let (n, s) := s.draw
        put s a (some ((i :: rest).getD (Config.freeNat n % (rest.length + 1)) i)) true)

/-- CLR of `YARD_MAXWAIT` (11 R328). -/
def State.clearMaxwait (s : State) : State :=
  { s with yard := { s.yard with maxRounds := 0, maxId := 0, maxTarget := 0, agedCnt := 0 } }

/-- YARD_MAXWAIT_CLR (11 R328). -/
def execYardMaxwaitClr (s : State) : Host.Outcome State Fault Refusal := answer s s.clearMaxwait

-- The MRAM write port (11 R340, R341).

/-- CLR of `MQ_MAXLAT` (11 R341). -/
def State.clearMaxlat (s : State) : State :=
  { s with mem := { s.mem with queue := { s.mem.queue with maxUs := 0, maxLane := 0 } } }

/-- MQ_MAXLAT_CLR (11 R341). -/
def execMqMaxlatClr (s : State) : Host.Outcome State Fault Refusal := answer s s.clearMaxlat

/-- Free bytes, each drawn afresh. -/
def State.drawBytes : Nat → State → List Byte × State
  | 0, s => ([], s)
  | n + 1, s =>
    let (k, s) := s.draw
    let (bs, s) := State.drawBytes n s
    (Config.freeByte k :: bs, s)

/-- A lane without its oldest codeword. Of a lane that was held back, the codeword that now takes the last place enters it
at this moment (11 R341). -/
def popLane (now : Nat) (l : List Codeword) : List Codeword := (l.drop 1).modify 511 (fun w => if 512 < l.length then { w with at_ := now } else w)

/-- A codeword reaches MRAM (11 R340). What a write that fails its verification leaves there is a free value. -/
def State.writeCodeword (s : State) (lane : Lane) (w : Codeword) (verified : Bool) : State :=
  let q := s.mem.queue
  let us := min 0xFFFF ((s.now - w.at_) / ticksPerUs)
  let q := { q.setLane lane (popLane s.now (q.lane lane)) with
    slot := idx 10 (by decide) (q.slot.val + 1)
    maxUs := max q.maxUs us, maxLane := if q.maxUs < us then lane.code else q.maxLane }
  let s := { s with mem := { s.mem with queue := q } }
  let (bytes, s) := if verified then (w.bytes, s) else State.drawBytes 16 s
  { s with mem := { s.mem with mram := Memory.writeBytes s.mem.mram w.addr bytes } }

/-- A codeword waits in a lane for one of these addresses. -/
def State.writesWait (s : State) (addrs : List Nat) : Bool := s.mem.queue.all.any (fun w => addrs.contains w.addr)

/-- The commands whose last codeword has been written complete. -/
def State.settleWaits (s : State) : State :=
  let (ready, rest) := s.sec.waits.partition (fun w => !s.writesWait w.addrs)
  let s := { s with sec := { s.sec with waits := rest } }
  ready.foldl (fun s w => s.ok w.cmd w.result) s

/-- MRAM_WRITE_SLOT (11 R340): the owner of the slot writes its oldest codeword, or the next lane that is not empty. A record
write whose verification fails is damage to the studbook's memory (13 R379). -/
def execMramWriteSlot (verified : Bool) (s : State) : Host.Outcome State Fault Refusal :=
  answer s (if !s.isl.mem then s
  else match s.mem.queue.chosen with
    | none => { s with mem := { s.mem with queue := { s.mem.queue with slot := idx 10 (by decide) (s.mem.queue.slot.val + 1) } } }
    | some lane =>
      match s.mem.queue.lane lane with
      | [] => s
      | w :: _ =>
        let record := regionOf w.addr == .studbook
        let s := s.writeCodeword lane w verified
        let s := if record && verified && w.addr % 256 == 240 then s.stbEvent 0 else s
        let s := if record && !verified then s.recorderFault 1 ((w.addr - 0x1800000) / 256) else s
        (((State.passRecords 32 s).finishClear).settleDevice).settleWaits)

end Sys2Proof.Machine
end

