-- ==== Sys2Proof/Machine/Startup.lean ====
section
/-! DEFINITION. What starts and stops the device as a whole: the clocks across Stabled (17 R439 to R443), the hours cell (R445, R446), what outlives an AON power loss and what outlives a restart through the boot ROM (15 R418; 16 R435; 18 R459), and the halter's start-up (08 R249, R273). -/

namespace Sys2Proof.Machine

-- The clocks (17 R440 to R443).

/-- One RTC tick while yard time stands still: the operating hours take it through their accumulator (R443). -/
def Clk.rtcTick (c : Clk) : Clk :=
  { c with
    rtcTicks := c.rtcTicks + 1, ophMs := c.ophMs + (c.ophAcc + 1000) / 32768, ophAcc := (c.ophAcc + 1000) % 32768 }

/-- What happens at an empty queue: one tick of yard time, or one RTC tick while TB stands still. -/
def State.idleTick (s : State) : State := if s.isl.tb then s.advance 1 else { s with clk := s.clk.rtcTick }

/-- Ticks of yard time up to the next RTC edge. -/
def Clk.toEdge (c : Clk) : Nat := (15625 - c.rtcFrac + 7) / 8

/-- TB stops on an RTC edge, where the AON captures y₀ and c₀ (R440). -/
def Clk.halt (c : Clk) : Clk :=
  let c := c.advance c.toEdge
  { c with y0 := c.ytime, c0 := c.rtcTicks, rtcFrac := 0 }

/-- TB restarts on an RTC edge from y₁ (R440, R441). -/
def Clk.restart (c : Clk) : Clk :=
  let y := c.y0 + (c.rtcTicks - c.c0) * 15625 / 8
  { c with ytime := y, ytWake := y, ytUnc := true, rtcFrac := 0 }

/-- Yard time stops (R440). -/
def State.haltTime (s : State) : State := { s with clk := s.clk.halt, isl := { s.isl with tb := false } }

/-- Yard time restarts, and the first record of each unit will say so (R440, R441; 04 R128). -/
def State.restartTime (s : State) : State :=
  { s with
    clk := s.clk.restart, isl := { s.isl with tb := true }, uswp := s.uswp.each (fun _ w => { w with timeUnc := true }) }

/-- RTC seconds as the u32 that the RTC counts (R447). -/
def State.rtcNow (s : State) : Nat := s.rtcSec % 2 ^ 32

-- The hours cell (17 R445, R446).

/-- The two copies of the hours cell in MRAM. -/
def hoursCopyAt (copy : Bool) : Nat := if copy then 0x6DF010 else 0x6DF000

/-- A copy of the hours cell. -/
def hoursBytes (oph pcc : Nat) : List Byte := withCrc32c (leBytes 6 oph ++ [0, 0] ++ leBytes 4 pcc)

/-- What a copy holds, if its CRC matches: operating hours and power-cycle count. -/
def State.hoursCopy (s : State) (copy : Bool) : Option (Nat × Nat) :=
  let b := s.mramRead (hoursCopyAt copy) 16
  if withCrc32c (b.take 12) = b then some (field b 0 6, field b 8 4) else none

/-- The copy to be written: an invalid one, or the older one. -/
def State.olderHours (s : State) : Bool :=
  match s.hoursCopy false, s.hoursCopy true with
  | none, _ => false
  | some _, none => true
  | some a, some b => decide (b.1 < a.1 ∨ (b.1 = a.1 ∧ b.2 < a.2))

/-- The older copy of the hours cell is written (R445). -/
def State.writeHours (s : State) : State :=
  let s := s.mramStore (hoursCopyAt s.olderHours) (hoursBytes s.oph s.clk.pcc)
  { s with clk := { s.clk with hoursAt := s.oph } }

/-- 60 s of operating hours have passed since the hours cell was written. -/
def State.hoursDue (s : State) : Bool := decide (s.clk.hoursAt + 60000 ≤ s.oph)

/-- OPH and PCC of the newest studbook record (R446; 13 R370). -/
def State.newestRecord (s : State) : Nat × Nat :=
  if s.stb.records = 0 then (0, 0)
  else
    let b := s.mramRead (slotAddr (s.stb.records - 1)) 256
    (field b 0x10 6, field b 0x0C 4)

/-- Operating hours of the newest valid counter slot of any string (R446; 10 R314). -/
def State.slotHours (s : State) : Nat :=
  (places 4).foldl (fun m i =>
    match (newestSlot ((List.range 64).map (fun k => s.mramRead (counterSlotAt i k) 192)) counterSlotOk (fun b => field b 8 8)).1 with
    | some b => max m (field b 0x10 6)
    | none => m) 0

/-- Both counters resume at an AON power-on, and both are written (R446). -/
def State.restoreHours (s : State) : State :=
  let copies := [s.hoursCopy false, s.hoursCopy true].filterMap id
  let rec_ := s.newestRecord
  let oph := copies.foldl (fun m c => max m c.1) (max rec_.1 s.slotHours) + 1
  let pcc := copies.foldl (fun m c => max m c.2) rec_.2 + 1
  State.writeHours { s with clk := { s.clk with ophMs := oph, pcc := pcc }, ret := { s.ret with creditAt := oph } }

-- What outlives what.

/-- A string across an AON power loss: its records of the configuration region, and WELDED with its evidence (07 R219). -/
def Str.stored (x : Str) : Str :=
  let welded := x.st = .welded
  { ({} : Str) with
    cfg := x.cfg, rate := x.cfgRate, st := if welded then .welded else .opened, weld := if welded then x.weld else {} }

/-- A stall across an AON power loss: its string, its service and its averaging. -/
def Stall.stored (x : Stall) (rate : BitVec 2) : Stall :=
  let y : Stall := { str := x.str, oos := x.oos, lstate := if x.oos then .outOfService else .off
                     locked := x.locked, wCfg := x.wCfg, streamAvg := x.streamAvg, invPeriod := x.invPeriod }
  let y := x.avgPend.foldl (fun y a => { y with
    locked := a.locked, wCfg := a.w, streamAvg := a.stream, invPeriod := if a.locked then a.period else y.invPeriod }) y
  y.chooseW rate

/-- A channel across a loss of the controller die's supply: a general channel runs on in SW-0 (09 R302, R304), a contactor
channel keeps its settings only (R303). -/
def Swc.stored (x : Swc) (general : Bool) : Swc :=
  if general then { x with tripCnt := 0, latchCnt := 0 } else { ({} : Swc) with cfg := x.cfg }

/-- A cell of the estimator across an AON power loss: whether a checkpoint has been written since its unit changed (06 R191). -/
def EstUnit.stored (x : EstUnit) : EstUnit := { ({} : EstUnit) with cells := x.cells.each (fun _ c => { ({} : EstCell) with fresh := c.fresh }) }

/-- The device without its supplies: what MRAM, OTP, the shielded store and SW-0 hold, everything else at reset. -/
def State.powerOff (s : State) : State :=
  { State.reset with
    pending := s.pending, out := s.out, free := s.free
    mem := { ({} : Mem) with mram := s.mem.mram }
    stalls := s.stalls.each (fun _ x => x.stored (match x.str with | some t => (s.strs.at t).cfgRate | none => 0))
    ulink := s.ulink.each (fun _ x => { ({} : UnitLink) with rosterType := x.rosterType, rosterId := x.rosterId })
    uswp := s.uswp.each (fun _ x => { ({} : UnitSweep) with cfgList := x.cfgList })
    uest := s.uest.each (fun _ x => x.stored)
    integ := { ({} : Integ) with owThresh := s.integ.owThresh, stackFail := s.integ.stackFail, btInterval := s.integ.btInterval }
    sleep := { s.sleep with result := 0, first := 0, cnt := 0 }
    est := { ({} : Est) with
      chem := s.est.chem, group := s.est.group, filter := s.est.filter, limits := s.est.limits, lockin := s.est.lockin
      output := s.est.output }
    strs := s.strs.each (fun _ x => x.stored)
    trips := { ({} : Trips) with lim := s.trips.lim.each (fun i l => (((s.trips.pend.at i).getLast?).map Prod.fst).getD l) }
    pub := { ({} : LimPub) with cfg := s.pub.cfg }
    halter := { ({} : Halter) with cfg := s.halter.cfg, cfgWord := s.halter.cfgWord }
    swc := s.swc.each (fun i x => x.stored (i.val < 12))
    swctl := { ({} : SwcCtl) with die := #v[s.swctl.die.at 0, {}], seq := s.swctl.seq }
    wb := { ({} : Wb) with str := s.wb.str.each (fun i x =>
      let r := ((s.wb.recPend.bind (fun l => l[i.val]?))).getD (x.iRated, x.deadMa)
      { ({} : WbStr) with iRated := r.1, deadMa := r.2 }) }
    cal := { ({} : CalDev) with
      driftAuto := s.cal.driftAuto, shuntAuto := s.cal.shuntAuto, driftUv := s.cal.driftUv, runSweeps := s.cal.runSweeps }
    stb := { ({} : Stb) with cfg := s.stb.cfg }
    pairs := s.pairs.each (fun _ x => { ({} : Pair) with cfg := x.cfg })
    pctl := { ({} : PairCtl) with dbgSeq := s.pctl.dbgSeq, bootSplit := s.pctl.bootSplit, bootTest := s.pctl.bootTest }
    pwr := { ({} : Pwr) with cfg := s.pwr.cfg, wakeEn := s.pwr.cfg.wakeEn, wakeKeep := s.pwr.cfg.wakeEn }
    ret := { ({} : Ret) with
      credit := s.ret.hdrCredit, entries := s.ret.hdrEntries, hdrCredit := s.ret.hdrCredit, hdrEntries := s.ret.hdrEntries }
    clk := { ({} : Clk) with chkS := s.clk.chkS }
    sec := { ({} : Sec) with
      bootSel := s.sec.bootSel, rbCount := s.sec.rbCount, owner := s.sec.owner, service := s.sec.service
      ownerSeq := s.sec.ownerSeq, cfgSeq := s.sec.cfgSeq, img := s.sec.img.each (fun _ i => { ({} : Image) with ue := i.ue }) }
    net := { can := s.net.can.each (fun _ x => { ({} : Can) with
               nomKbps := x.nomKbps, dataKbps := x.dataKbps, nomSp := x.nomSp, dataSp := x.dataSp })
             eth := s.net.eth.each (fun _ x => { ({} : Eth) with mac := x.mac, cfgSpeed := x.cfgSpeed }) }
    misc := { ({} : Misc) with stallSeq := s.misc.stallSeq } }

/-- The estimator's checkpoint as a start-up finds it (06 R192). -/
def State.loadCheckpoint (s : State) : State :=
  match s.ckptUsed with
  | none => s
  | some copy =>
    { s with est := { s.est with
        ckptOk := true, ckptGen := field (s.mramRead (ckptBase copy + 4) 4) 0 4, ckptCopy := !copy } }

-- The halter at a start-up (08 R249, R256, R259, R268, R273).

/-- The lock-out word that a start-up loads: the copy that shows lock-out (08 R249). -/
def Halter.word (h : Halter) : LockWord := if h.aonWord.lockout then h.aonWord else if h.cfgWord.lockout then h.cfgWord else h.aonWord

/-- The halter starts: it loads the lock-out word and continues the lock-out it shows, its tests begin, supervision of the
heartbeat and of the telegrams waits for its first event, resets are disabled, and the contactors stay off. -/
def State.halterStart (s : State) (rstkA rstkB : Bool) : State :=
  let w := s.halter.word
  let s := s.onHalter (fun h => { h with
    lockout := w.lockout, lockCause := if w.lockout then w.cause else 0, lockWhere := if w.lockout then w.where_ else 0
    aonWord := w, startupOk := false, testing := true, quiet := false
    hbArmed := false, hbLate := false, hbRun := 0
    net := { h.net with run := false, started := false, wait := Bank.fill 2 none, strikeAt := [], okRun := 0, permitRef := none, permit := Bank.fill 4 none }
    key := { h.key with
      a := rstkA, b := rstkB, changedAt := s.now, press := none, held := false, disc := false, disabled := true
      bothOpenAt := if rstkA || rstkB then none else some s.now } })
  let s := s.onHalter Halter.settle
  if rstkA || rstkB then s.raiseDetail .rstkStuck 0 else s

-- Starts that boot (18 R457).

/-- A start through the boot ROM other than an AON power-on: AON keeps what it holds, HALTER and SW-1 what they hold if
`halter` says that they ran on, MEM its MRAM queue, the Weighbridge and the recorder if `mem` says that it did; everything else
is at reset or loaded again, and SRAM content is lost (15 R418; 16 R435; 18 R459). -/
def State.rebooted (s : State) (halter mem : Bool) : State :=
  let t := s.powerOff
  let t := { t with
    clk := s.clk, ret := { s.ret with pending := false, restored := [] }, therm := s.therm, swctl := s.swctl, sleep := s.sleep
    pwr := { s.pwr with
      st := .run, target := .run, phase := 0, entry := none, joined := [], pend := none, levelBusy := false, levelCmd := none, pmbus := none
      latched := none, held := false }
    pctl := { t.pctl with bootCode := s.pctl.bootCode, stopCnt := s.pctl.stopCnt, unlocked := s.pctl.unlocked, expires := s.pctl.expires }
    evt := { t.evt with
      time := s.evt.time, pwr := s.evt.pwr, th := s.evt.th, swc := s.evt.swc, hlt := if halter then s.evt.hlt else 0
      wb := if mem then s.evt.wb else 0, stb := if mem then s.evt.stb else 0, memUe := mem && s.evt.memUe }
    halter := if halter then { s.halter with key := { s.halter.key with reqs := [] } } else { t.halter with aonWord := s.halter.aonWord }
    swc := if halter then s.swc else t.swc
    mem := if mem then { s.mem with sram := [] } else t.mem
    cross := if mem then s.cross else { t.cross with toRecorder := s.cross.toRecorder, halterToSw1 := s.cross.halterToSw1 }
    wb := if mem then { s.wb with stmts := [], tariff := [] } else t.wb
    stb := if mem then { s.stb with clearing := none } else t.stb
    isl := { t.isl with halter := halter && s.isl.halter, tb := halter && s.isl.tb, mem := true } }
  let t := if mem then t else (t.loadWeighbridge.scanStudbook).1
  t.loadCalibration.loadCheckpoint

end Sys2Proof.Machine
end

