-- ==== Sys2Proof/Machine/Power.lean ====
section
/-! DEFINITION. Power states, run levels, the regulator, entries and wakes (chapter 15; the check cycle of 04 R152 to R155). -/

namespace Sys2Proof.Machine

-- Small operations.

/-- Bits of `PWR_EVT`: 0 REFUSED, 1 ABORTED, 2 WOKE, 3 PWR_FAULT, 4 LEVEL_DONE, 5 ENTRY_START. -/
def State.pwrEvent (s : State) (n : Nat) : State := { s with evt := { s.evt with pwr := setBit s.evt.pwr n } }

/-- The state with the power state changed. -/
def State.onPwr (s : State) (f : Pwr → Pwr) : State := { s with pwr := f s.pwr }

/-- The code of a power state in requests. -/
def pwrStateOf (n : BitVec 2) : PwrState := if n = 0 then .run else if n = 1 then .idle else if n = 2 then .rest else .stabled

/-- RTC ticks of a number of seconds. -/
def rtcTicksPerS : Nat := 32768

/-- Code of a PMBus command: OPERATION, CLEAR_FAULTS, VOUT_COMMAND (PRESUMED from the PMBus standard). -/
def pmbOperation : BitVec 8 := 0x01
/-- CLEAR_FAULTS. -/
def pmbClearFaults : BitVec 8 := 0x03
/-- VOUT_COMMAND. -/
def pmbVout : BitVec 8 := 0x21

-- Run levels and the regulator (R401 to R405).

/-- VCORE of a run level in V; 4 stands for the retention voltage of Rest (R401). -/
def coreVolts (level : Nat) : Rat :=
  if level = 0 then 9/10 else if level = 1 then 8/10 else if level = 2 then 72/100 else if level = 3 then 65/100 else 6/10

/-- VOUT_COMMAND: round(V × 2^−VOUT_EXP) (R401). -/
def voutCommand (level : Nat) (exp : Int) : BitVec 16 := BitVec.ofNat 16 (ratRound (coreVolts level * pow2 (-exp))).toNat

/-- A STATUS_WORD read shows bits 15, 14, 13, 11, 6, 5, 4, 3, 2 and 1 clear (R402). -/
def statusClean (w : BitVec 16) : Bool := (w &&& 0xE87E) == 0

/-- VOUT_COMMAND for a level leaves. -/
def State.sendVout (s : State) (level : Nat) : State :=
  s.emit (.pmbus s.pwr.cfg.pmbAddr pmbVout (voutCommand level s.pwr.cfg.voutExp))

/-- OPERATION on or off leaves (PRESUMED codes 0x80 and 0x00). -/
def State.sendOperation (s : State) (on : Bool) : State :=
  s.emit (.pmbus s.pwr.cfg.pmbAddr pmbOperation (if on then 0x80 else 0))

/-- The writes of a request leave (R402, R409 phase 6, R410, R417 step 1; 20 R480). -/
def State.sendRequest (s : State) (why : PmbusWhy) : State :=
  match why with
  | .powerOn => (s.sendVout 2).sendOperation true
  | .levelUp t => s.sendVout t.toNat
  | .levelDown t => s.sendVout t.toNat
  | .revert => s.sendVout s.pwr.level.toNat
  | .entry => if s.pwr.target = .stabled then s.sendOperation false else s.sendVout 4
  | .wake | .check => (s.sendVout s.pwr.level.toNat).sendOperation true

/-- The command that a request ends with. -/
def State.requestCommand (s : State) (why : PmbusWhy) : BitVec 8 :=
  match why with
  | .powerOn | .wake | .check => pmbOperation
  | .entry => if s.pwr.target = .stabled then pmbOperation else pmbVout
  | _ => pmbVout

/-- A request to the regulator begins. -/
def State.ask (s : State) (why : PmbusWhy) : State :=
  (s.onPwr (fun p => { p with pmbus := some why, retries := 0 })).sendRequest why

/-- A level change ends (R401, R405, R406): LEVEL_DONE, and the command completes. -/
def State.levelEnd (s : State) (failed : Bool) : State :=
  let c := s.pwr.levelCmd
  let s := (s.onPwr (fun p => { p with levelBusy := false, levelCmd := none })).pwrEvent 4
  match c with
  | none => s
  | some c => if failed then s.refuse c 0x0F08 else s.ok c (dwords s.pwr.level.toNat 0 0 0)

/-- The core clock runs at the level, which is in force; RATE_HALF clears at a change to P0, P1 or P2 (R401, R405). -/
def State.setLevel (s : State) (level : BitVec 2) : State :=
  let s := s.onPwr (fun p => { p with level := level, clkLevel := level })
  if level = 3 then s else { s with est := { s.est with rateHalf := false } }

/-- A change of run level begins: voltage first upwards, clock first downwards (R401). -/
def State.startLevel (s : State) (level : BitVec 2) (c : Option Cmd) : State :=
  if level = s.pwr.level then (match c with | some c => s.ok c (dwords level.toNat 0 0 0) | none => s)
  else
    let s := s.onPwr (fun p => { p with levelBusy := true, levelCmd := c })
    if level.toNat < s.pwr.level.toNat then s.ask (.levelUp level)
    else (s.onPwr (fun p => { p with clkLevel := level })).ask (.levelDown level)

-- Refusals and aborts (R407, R409, R422).

/-- Submission entries that have not been fetched on an Active ring pair (R407). -/
def State.unfetched (s : State) : Bool :=
  (places 16).any (fun r => (s.rings.at r).st == .active && ((s.rings.at r).sqPi != (s.rings.at r).sqCi || (s.rings.at r).reading != 0))

/-- The refuser that holds, the lowest first (R407): `point` is 0 at acceptance, otherwise the abort point. The MRAM refuser
is a matter of time alone. -/
def State.refuser (s : State) (stabled : Bool) (point : Nat) : Option Nat :=
  let strings := (places 4).any (fun i => !(s.strSt i == .opened || s.strSt i == .welded))
  if strings then some 1
  else if point ≤ 1 ∧ s.unfetched then some 2
  else if s.pctl.attached then some 4
  else if s.therm.warn ∨ 420 ≤ s.therm.tMax then some 5
  else if s.pwr.veto then some 6
  else if stabled ∧ s.ret.credit = 0 then some 7
  else none

/-- An entry of the accounting log, newest first (R422). -/
def State.account (s : State) (code : Nat) (state : BitVec 2) : State :=
  s.onPwr (fun p => { p with log := (({ code := BitVec.ofNat 4 code, hours := s.oph, state := state } : PwrLog) :: p.log).take 16 })

/-- A POWER_FAULT record (R402; 13 R373, which requests it for refused entries too). `where_` is the phase, none for a
transition, whose code the manual does not give. -/
def State.powerRecord (s : State) (where_ : Option Nat) (cmd : Option (BitVec 8)) : State :=
  let (k, s) := s.draw
  let b0 : Byte := match where_ with | some n => BitVec.ofNat 8 n | none => Config.freeByte k
  let (k, s) := s.draw
  s.studbook 0x09 0 ([b0, cmd.getD (Config.freeByte k)] ++ bvBytes 2 s.pwr.lastStatus)

/-- A refused entry counts (R407, R422). -/
def State.countRefusal (s : State) (n : Nat) (state : BitVec 2) : State :=
  let s := (s.account n state).onPwr (fun p => { p with refuseCnt := satAdd 0xFFFF p.refuseCnt 1 })
  (s.pwrEvent 0).powerRecord (some s.pwr.phase) none

/-- The commands of a request and of those that joined it. -/
def Pwr.waiting (p : Pwr) : List Cmd := (match p.entry with | some q => q.cmd.toList | none => []) ++ p.joined

/-- The entry in progress is over, and the device is in Run or Idle as before (R409). -/
def State.leaveEntry (s : State) : State :=
  s.onPwr (fun p => { p with
    target := .run, phase := 0, entry := none, joined := [], latched := none, wakeEn := p.wakeKeep })

/-- The refuser `n` ends the entry in progress (R407). -/
def State.refuseEntry (s : State) (n : Nat) : State :=
  let cs := s.pwr.waiting
  let state : BitVec 2 := match s.pwr.entry with | some q => q.val | none => 0
  ((s.countRefusal n state).leaveEntry).completeAll cs stRefused (dwords (0x0F00 + n) 0 0 0)

/-- A wake event with source `src` ends the entry in progress at abort point `point` (R406, R409). -/
def State.abortEntry (s : State) (point : Nat) (src : BitVec 4) : State :=
  let cs := s.pwr.waiting
  let state : BitVec 2 := match s.pwr.entry with | some q => q.val | none => 0
  let s := ((s.account (8 + point) state).onPwr (fun p => { p with abortCnt := satAdd 0xFFFF p.abortCnt 1 })).pwrEvent 1
  s.leaveEntry.completeAll cs stSuccess (dwords 2 (point + 256 * src.toNat) 0 0)

-- Entering (R407, R409, R410).

/-- What other chapters tie to the beginning of Stabled entry (R409): host masks, probes and tests, excitation, service
mode, live runs and the drift watch (03 R115; 05 R175; 06 R201; 07 R239; 12 R356, R357). -/
def State.stabledBegins (s : State) : State :=
  let s := (places 128).foldl (fun s u =>
    if (s.ulink.at u).hostMask = 0 ∧ (s.ulink.at u).hostFrom = none then s
    else (s.onLink u (fun l => { l with hostMask := 0, hostDur := 0, hostFrom := none })).settleMask u) s
  let s := s.abandonProbes
  let s := (places 4).foldl (fun s i => (s.stopExcitation i).leaveService i) s
  (places 128).foldl (fun s u => (s.abortRun u).onCal u (fun x => { x with
    driftRun := 0, clearRun := 0, secA := 0, secB := 0, cntA := 0, cntB := 0, cntAll := 0 })) s

/-- A request for Rest or Stabled is accepted or refused (R407, R409). -/
def State.startEntry (s : State) (q : PwrReq) : State :=
  let stabled := q.val = 3
  match s.refuser stabled 0 with
  | some n =>
    let s := s.countRefusal n q.val
    (match q.cmd with | some c => s.refuse c (0x0F00 + n) | none => s)
  | none =>
    let s := s.onPwr (fun p => { p with
      target := pwrStateOf q.val, phase := 1, phaseAt := s.now, startAt := s.now, entry := some q, joined := [], latched := none
      wakeKeep := p.wakeEn, wakeEn := if q.wakeEn = 0 then p.wakeEn else q.wakeEn ||| 0x60 })
    let s := if stabled then s.stabledBegins else s
    s.pwrEvent 5

/-- A request for a state or a level, with no change in progress (R406, R407). -/
def State.applyRequest (s : State) (q : PwrReq) : State :=
  let done (s : State) : State := match q.cmd with | some c => s.ok c | none => s
  if q.level then s.startLevel q.val q.cmd
  else if q.val.toNat < 2 then
    done (s.onPwr (fun p => { p with st := pwrStateOf q.val, wakeEn := if q.wakeEn = 0 then p.wakeEn else q.wakeEn ||| 0x60 }))
  else s.startEntry q

/-- A change of state or of level is in progress (R408). -/
def Pwr.changing (p : Pwr) : Bool := p.phase != 0 || p.levelBusy || p.wake.isSome

/-- The pending slot takes a request; the one that it replaces is CANCELLED (R408). -/
def State.pendRequest (s : State) (q : PwrReq) : State :=
  let old := s.pwr.pend
  let s : State := match old with
    | some o => (match o.cmd with | some c => s.complete c stCancelled | none => s)
    | none => s
  let joins : Bool := !q.level && s.pwr.phase != 0 && (match s.pwr.entry with | some e => e.val == q.val | none => false)
  if joins then s.onPwr (fun p => { p with pend := none, joined := p.joined ++ q.cmd.toList })
  else s.onPwr (fun p => { p with pend := some q })

/-- A wake begins at step 1 (R417). -/
def State.startWake (s : State) (src : BitVec 4) (check loud : Bool) : State :=
  let s := s.onPwr (fun p => { p with
    wake := some { step := 1, src := src, check := check, boot := false, loud := loud, since := s.clk.rtcTicks }, latched := none })
  s.ask (if check then .check else .wake)

/-- A request arrives (R406, R408). One that arrives in Rest or Stabled wakes the device first, with source 8. -/
def State.request (s : State) (q : PwrReq) : State :=
  if s.pwr.changing then s.pendRequest q
  else if s.pwr.st = .rest ∨ s.pwr.st = .stabled then (s.pendRequest q).startWake 8 false true
  else s.applyRequest q

/-- The pending request acts, once nothing is in progress (R408). -/
def State.applyPending (s : State) : State :=
  match s.pwr.pend with
  | some q => if s.pwr.changing then s else (s.onPwr (fun p => { p with pend := none })).applyRequest q
  | none => s

/-- The pending request asks for a shallower state than the entry in progress: a wake event at its abort points (R408). -/
def Pwr.shallower (p : Pwr) : Bool :=
  match p.pend, p.entry with
  | some q, some e => !q.level && decide (q.val.toNat < e.val.toNat)
  | _, _ => false

-- The phases (R409 to R414).

/-- The executing commands that phase 1 waits for: neither streams nor the power requests themselves. -/
def State.stillExecuting (s : State) : Bool :=
  let own := s.pwr.waiting ++ (match s.pwr.pend with | some q => q.cmd.toList | none => [])
  s.hif.flights.any (fun f => f.stage == .executing && !isStreamOp f.opcode && !own.any (fun c => c.stamp == f.cmd.stamp))

/-- The completion troughs are empty. -/
def State.troughsEmpty (s : State) : Bool := (places 16).all (fun r => (s.rings.at r).trough.isEmpty)

/-- The write queue lanes and the studbook queues are empty (R407; 13 R369). -/
def State.mramEmpty (s : State) : Bool := s.mem.queue.all.isEmpty && s.stb.fifo.isEmpty && s.stb.queue.isEmpty

/-- The records that found no buffer are dropped, and count for a gap marker (R409). -/
def State.dropRecords (s : State) : State :=
  let drop (t : Trough) : Trough := { items := [], lost := satAdd 0xFFFFFFFF t.lost t.items.length }
  { s with troughs := { stall := s.troughs.stall.each (fun _ t => drop t), est := drop s.troughs.est } }

/-- Phase 3 begins: the Weighbridge slots, the refused count and, when due, the hours cell are written (10 R315; 13 R375;
17 R445). -/
def State.flushBegins (s : State) : State :=
  let s := (places 4).foldl (fun s i => s.writeCounters i) s
  let s := if s.stb.refused ≠ s.stb.refWritten then s.writeRefused else s
  if s.hoursDue then s.writeHours else s

/-- The bulk copy: the image of SRAM, byte for byte (R412, R413). -/
def State.copyImage (s : State) : State :=
  let low := s.mem.mram.filter (fun c => decide (c.1 < imageBase))
  let high := s.mem.mram.filter (fun c => decide (imageBase + imageSize ≤ c.1))
  let image := (s.mem.sram.filter (fun c => decide (c.1 < imageSize))).map (fun c => (imageBase + c.1, c.2))
  { s with mem := { s.mem with mram := low ++ image ++ high } }

/-- The entry passes A4: it costs one credit, and the header marks the image valid (R413, R415). -/
def State.passA4 (s : State) : State :=
  let credit := s.ret.credit - 1
  let entries := (s.ret.entries + 1) % 2 ^ 32
  let s := s.copyImage
  { s with ret := { s.ret with credit := credit, entries := entries, hdrCredit := credit, hdrEntries := entries, imgValid := true } }

/-- A link command SLEEP_CFG or SLEEP of a unit (03 R89). -/
def sleepSlot (k : Fin 4) (cmd : BitVec 5) (arg : BitVec 32) : LinkSlot := { bcast := false, addr := k, cmd := cmd, arg := arg }

/-- ARG of SLEEP_CFG of a unit (04 R152). -/
def State.sleepArg (s : State) (i : Fin 32) : BitVec 32 :=
  if s.sleep.mask.getLsbD i.val then BitVec.ofNat 32 (s.sleep.interval % 4096 + 4096 * s.sleep.upper + 2 ^ 22 * s.sleep.lower) else 0

/-- Every reached unit is told to sleep (04 R152). -/
def State.sleepUnits (s : State) : State :=
  let us := (places 128).filter (fun u => (s.ulink.at u).reached && s.driven (stallOf u))
  let s := us.foldl (fun s u => if s.isMc16 u then s.sendLink (stallOf u) (sleepSlot (unitOf u) 9 (s.sleepArg (stallOf u))) else s) s
  us.foldl (fun s u => s.sendLink (stallOf u) (sleepSlot (unitOf u) 10 0)) s

/-- The readings of the safety inputs: bit 2n channel A, bit 2n + 1 channel B (R416). -/
def State.sinReadings (s : State) : BitVec 16 :=
  (places 8).foldl (fun m n => putBit (putBit m (2 * n.val) (s.halter.sin.at n).a.closed) (2 * n.val + 1) (s.halter.sin.at n).b.closed) 0

/-- Phase 5 begins (R409, R410; 08 R260): the units sleep before Stabled, and the last telegram says QUIET. -/
def State.isolateBegins (s : State) : State :=
  let s := if s.pwr.target = .stabled then s.sleepUnits else s
  let s := if s.isl.halter then (s.onHalter (fun h => { h with quiet := true })).sendStatus true true else s
  s.onPwr (fun p => { p with sinAt5 := s.sinReadings })

/-- Phase 4 begins: the cores and the estimator halt, and supervision of the heartbeat disarms (R409; 08 R256). -/
def State.saveBegins (s : State) : State :=
  { (s.onHalter (fun h => { h with hbArmed := false, hbLate := false })) with est := { s.est with running := false } }

/-- Phase `n` of the entry begins. -/
def State.beginPhase (s : State) (n : Nat) : State :=
  let s := s.onPwr (fun p => { p with phase := n, phaseAt := s.now })
  if n = 3 then s.flushBegins
  else if n = 4 then s.saveBegins
  else if n = 5 then s.isolateBegins
  else if n = 6 then s.ask .entry
  else s

/-- The phase after `n` (R409, R410). -/
def State.nextPhase (s : State) (n : Nat) : Nat := if n = 2 ∧ s.pwr.target = .rest then 4 else n + 1

/-- What a phase has to reach before it completes. -/
def State.phaseReady (s : State) : Bool :=
  if s.pwr.phase = 1 then !s.stillExecuting
  else if s.pwr.phase = 2 then s.troughsEmpty
  else if s.pwr.phase = 3 then s.mramEmpty
  else s.pwr.phase == 4 || s.pwr.phase == 5

/-- The wake event that an abort point finds: a latched one, or a shallower request (R408, R409). -/
def Pwr.wakeFound (p : Pwr) : Option (BitVec 4) :=
  match p.latched with
  | some src => some src
  | none => if p.shallower then some 8 else none

/-- An abort point, and the next phase unless something ends the entry there (R409). -/
def State.abortPoint (s : State) (n : Nat) : State :=
  match s.pwr.wakeFound with
  | some src => (s.abortEntry n src).applyPending
  | none =>
    match s.refuser (s.pwr.target == .stabled) n with
    | some r => (s.refuseEntry r).applyPending
    | none =>
      let s := if n = 4 ∧ s.pwr.target = .stabled then s.passA4 else s
      s.beginPhase (s.nextPhase n)

/-- ENTRY_PHASE_COMPLETE (R409, R410). Phase 6 ends with the regulator's answer. -/
def execEntryPhaseComplete (s : State) : Host.Outcome State Fault Refusal :=
  answer s (let n := s.pwr.phase
    if s.phaseReady = false then s
    else if n = 5 then s.beginPhase 6
    else (if n = 2 then s.dropRecords else s).abortPoint n)

/-- ENTRY_PHASE_TIMEOUT (R407). -/
def execEntryPhaseTimeout (why : EntryTimeout) (s : State) : Host.Outcome State Fault Refusal :=
  answer s (
    let past (ms : Nat) : Bool := decide (s.pwr.phaseAt + ms * ticksPerMs ≤ s.now)
    match why with
    | .command => if s.pwr.phase = 1 ∧ s.stillExecuting ∧ past 50 then (s.refuseEntry 2).applyPending else s
    | .completionTrough => if s.pwr.phase = 2 ∧ s.troughsEmpty = false ∧ past 20 then (s.refuseEntry 2).applyPending else s
    | .mramQueue => if s.pwr.phase = 3 ∧ s.mramEmpty = false ∧ past 100 then (s.refuseEntry 3).applyPending else s)

-- Wakes (R416 to R421).

/-- A source that starts a check cycle when it is the only one (R416; 04 R154). -/
def checkSource (src : BitVec 4) : Bool := src == 2 || src == 4

/-- The wake source is enabled (R416). -/
def Pwr.wakeEnabled (p : Pwr) (src : BitVec 4) : Bool :=
  if src = 6 ∨ src = 7 then true else 1 ≤ src.toNat && src.toNat ≤ 5 && p.wakeEn.getLsbD (src.toNat - 1)

/-- The islands of a check cycle go down again, and the rates come back (04 R154). -/
def State.endCheckIslands (s : State) : State :=
  let s := { s with isl := { s.isl with port := Bank.fill 4 false } }
  { s with strs := s.strs.each (fun _ x => match x.rateKeep with
      | some r => { x with rate := r, rateKeep := none }
      | none => x) }

/-- A check cycle becomes a full wake: what remains is step 4 (04 R155). -/
def State.checkToWake (s : State) (src : BitVec 4) : State :=
  let running : Bool := match s.pwr.wake with | some k => k.step == 5 | none => false
  let s := if running then s.endCheckIslands else s
  s.onPwr (fun p => { p with wake := p.wake.map (fun k => { k with check := false, src := src, step := if running then 4 else k.step }) })

/-- Step 1 of a wake or a start-up is tried again (R419; 20 R480). -/
def State.retryWake (s : State) : State :=
  match s.pwr.wake with
  | some k =>
    (s.onPwr (fun p => { p with wake := some { k with step := 1 } })).ask (if k.src = 9 then .powerOn else if k.check then .check else .wake)
  | none => s

/-- An enabled wake source fires (R409, R416, R419; 04 R155). -/
def State.wakeSource (s : State) (src : BitVec 4) : State :=
  if s.therm.shutDown || !s.pwr.wakeEnabled src then s
  else
    match s.pwr.wake with
    | some k =>
      if k.check && src != 2 then s.checkToWake src
      else if k.step = 0 ∧ 3 ≤ s.pwr.wakeFails then s.retryWake
      else s
    | none =>
      if s.pwr.phase ≠ 0 then
        s.onPwr (fun p => { p with latched := match p.latched with
          | some old => some (if checkSource old then src else old)
          | none => some src })
      else if s.pwr.st = .rest ∨ s.pwr.st = .stabled then s.startWake src (checkSource src) true
      else s

/-- The entry is complete (R409, R410, R416): the islands stop, and a latched wake event or a deeper request follows. -/
def State.finishEntry (s : State) : State :=
  let stabled := s.pwr.target = .stabled
  let s : State := if stabled then { s.haltTime with isl := { portAt := s.isl.portAt }, mem := { s.mem with sram := [] } }
    else { s with isl := { s.isl with coreA := false, coreB := false, est := false, port := Bank.fill 4 false, net := false, mem := false } }
  let first := s.pwr.st = .run ∨ s.pwr.st = .idle
  let s := s.onPwr (fun p => { p with
    st := p.target, phase := 0, pmbus := none, wake := none, pgood := p.pgood && !stabled
    entryMs := if first then min 0xFFFF ((s.now - p.startAt) / ticksPerMs) else p.entryMs
    enteredRtc := if first then s.clk.rtcTicks else p.enteredRtc })
  match s.pwr.latched with
  | some src => s.startWake src (checkSource src) true
  | none =>
    match s.pwr.pend with
    | some q => if q.level then s else s.startWake 8 false s.pwr.shallower
    | none => s

/-- A completed wake's command and those that joined it complete (R406). -/
def State.wakeComplete (s : State) (src : BitVec 4) : State :=
  let cs := s.pwr.waiting
  let secs := (s.clk.rtcTicks - s.pwr.enteredRtc) / rtcTicksPerS
  let s := s.onPwr (fun p => { p with entry := none, joined := [] })
  s.completeAll cs stSuccess (dwords 1 src.toNat secs 0)

/-- The registers that every wake writes (R406, R420, R422, R426). -/
def State.countWake (s : State) (k : Wake) : State :=
  (s.onPwr (fun p => { p with
    st := .run, target := .run, wake := none, lastSrc := k.src, wakeCnt := satAdd 0xFFFF p.wakeCnt 1, wakeHours := s.oph
    wake10us := min 0xFFFF ((s.clk.rtcTicks - k.since) * 100000 / rtcTicksPerS), hostWake := p.hostWake || k.loud, wakeFails := 0 })).pwrEvent 2

/-- The doorbell poller starts anew at the 2 µs gap (02 R60). -/
def State.pollAgain (s : State) : State :=
  { s with hif := { s.hif with pollGap := 0, outstanding := false, early := false, activeAt := s.now, dueAt := s.now + 128 } }

/-- The comparator test failed: nothing is released, STARTUP stands, and `PAIR_BOOT` holds the code (14 R391). -/
def State.comparatorsFailed (s : State) (code : BitVec 8) : State :=
  let s := { s with pctl := { s.pctl with bootCode := code, stopCnt := satAdd 0xFF s.pctl.stopCnt 1 } }
  if s.halter.has .startup 0 then s else s.raiseDetail .startup 0

/-- Every island comes up at a start-up that boots (R400; 03 R95). -/
def State.allIslands (s : State) : State :=
  let s := { s with isl := { s.isl with coreA := true, coreB := true, est := true, net := true, host := true, mem := true, tb := true, halter := true } }
  (places 4).foldl (fun s p => s.startPort p 0xFFFFFFFF) s

/-- Step 4 signals ready on a wake that restores its state (R417, R418; 16 R432): registers are ready. -/
def State.restored (s : State) (k : Wake) (code : BitVec 8) : State :=
  let stabled := s.pwr.st = .stabled
  let s : State := if stabled then
      let s := if s.isl.tb then s else s.restartTime
      let s := { s with isl := { s.isl with halter := true }, ret := { s.ret with imgValid := false, pending := true, restored := [] } }
      s.halterStart s.halter.key.a s.halter.key.b
    else s.onHalter (fun h => { h with quiet := false, net := { h.net with
      started := false, run := false, wait := Bank.fill 2 none, strikeAt := [], okRun := 0, permitRef := none, permit := Bank.fill 4 none } })
  let s := { s with therm := { s.therm with level := 0 } }
  let s := (s.countWake k).pollAgain
  if stabled ∧ code ≠ 0 then
    (s.onPwr (fun p => { p with wake := some { k with step := 5 } })).comparatorsFailed code
  else
    let s := { s with
      isl := { s.isl with coreA := true, coreB := true }
      pctl := if stabled then { s.pctl with bootCode := 0 } else s.pctl }
    (s.wakeComplete k.src).applyPending

/-- Step 4 signals ready on a start that boots (18 R457; 15 R418; 16 R435): the boot ROM runs next. At an AON power-on nothing
counts as a wake. -/
def State.bootReady (s : State) (k : Wake) : State :=
  let s := if s.isl.tb || k.src = 9 then s else s.restartTime
  let s := s.allIslands
  let s := if k.src = 9 then s.onPwr (fun p => { p with wake := none, wakeFails := 0 }) else s.countWake k
  let s := { s with therm := { s.therm with level := 0 } }
  ({ s with sec := { s.sec with bootDue := true } }).halterStart s.halter.key.a s.halter.key.b

/-- The PORT islands of CHECK_MASK come up in a check cycle, at RATE 3 (04 R154). -/
def State.startCheck (s : State) : State :=
  let s := if s.pwr.st = .stabled then s.restartTime else s
  let s := { s with strs := s.strs.each (fun _ x => { x with rateKeep := some (x.rateKeep.getD x.rate), rate := 3, tripKeep := x.tripped }) }
  (places 4).foldl (fun s p =>
    if (places 32).any (fun i => portOf i == p && s.sleep.mask.getLsbD i.val && (s.stalls.at i).str.isSome) then s.startPort p s.sleep.mask
    else s) s

/-- Step 3 signals ready: MEM is up, and the image's valid flag is cleared (R413, R417). An image that cannot be used turns
the wake into a boot (R418). -/
def State.memoryReady (s : State) (k : Wake) (imageOk : Bool) : State :=
  let kept : Bool := k.boot || s.pwr.st == PwrState.rest
  let usable := kept || (imageOk && s.ret.imgValid)
  if usable then
    let s := { s with isl := { s.isl with mem := true }, ret := if kept then s.ret else { s.ret with imgValid := k.check, imgUe := false } }
    if k.check then (s.onPwr (fun p => { p with wake := some { k with step := 5 } })).startCheck
    else s.onPwr (fun p => { p with wake := some { k with step := 4 } })
  else
    let s := s.rebooted false false
    let s := { s with ret := { s.ret with imgValid := false, imgUe := true } }
    let s := s.onPwr (fun p => { p with wake := some { k with step := 4, check := false, boot := true } })
    s.powerRecord none none

/-- WAKE_STEP_READY (R417, R418): the step in progress signals ready. `imageOk` says whether step 3 read the header and the
state block back without an uncorrectable error, `comparatorCode` what the comparator test of step 4 found. -/
def execWakeStepReady (imageOk : Bool) (comparatorCode : BitVec 8) (s : State) : Host.Outcome State Fault Refusal :=
  answer s (match s.pwr.wake with
    | none => s
    | some k =>
      if k.step = 2 then s.onPwr (fun p => { p with wake := some { k with step := 3 } })
      else if k.step = 3 then s.memoryReady k imageOk
      else if k.step = 4 then (if k.boot then s.bootReady k else s.restored k comparatorCode)
      else s)

/-- WAKE_EVENT (R416): an RTC alarm or a periodic check has rows of its own, which this one joins once they have fired. -/
def execWakeEvent (src : WakeSrc) (s : State) : Host.Outcome State Fault Refusal :=
  answer s (match src with
    | .rtcAlarm => s.wakeSource 1
    | .rtcCheck => s.wakeSource 2
    | .wake0 => s.wakeSource 3
    | .wake1 => s.wakeSource 4
    | .canWake => s.wakeSource 5
    | .safetyInput => if (places 8).any (fun n => (s.halter.cfg.sin.at n).role != 0) then s.wakeSource 6 else s
    | .pcie => if s.pwr.st = .rest then s.wakeSource 7 else s)

/-- STABLED_SIN_SCAN (R416): the AON pulses `TPO0`–`TPO3` and reads every channel in use. -/
def execStabledSinScan (readings : BitVec 16) (s : State) : Host.Outcome State Fault Refusal :=
  answer s (if s.pwr.st = .stabled then
    let s := (places 4).foldl (fun s k => s.emit (.tpo k)) s
    let differs (n : Fin 8) : Bool :=
      (s.halter.cfg.sin.at n).role != 0 && readings.extractLsb' (2 * n.val) 2 != s.pwr.sinAt5.extractLsb' (2 * n.val) 2
    if (places 8).any differs then s.wakeSource 6 else s
  else s)

/-- WAKE_RETRY (R419): 1 s after a power fault of step 1, and 10 s after the second. -/
def execWakeRetry (s : State) : Host.Outcome State Fault Refusal :=
  answer s (match s.pwr.wake with
    | some k =>
      let wait := if s.pwr.wakeFails = 1 then rtcTicksPerS else 10 * rtcTicksPerS
      if k.step = 0 ∧ s.pwr.wakeFails < 3 ∧ s.pwr.failAt + wait ≤ s.clk.rtcTicks then s.retryWake else s
    | none => s)

-- The regulator's answers (R402, R403, R419).

/-- A request is acknowledged. -/
def State.acknowledged (s : State) (why : PmbusWhy) : State :=
  let s := s.onPwr (fun p => { p with pmbus := none, pgood := true })
  match why with
  | .levelUp t => ((s.setLevel t).levelEnd false).applyPending
  | .levelDown t => ((s.setLevel t).levelEnd false).applyPending
  | .revert => (s.levelEnd true).applyPending
  | .entry => s.finishEntry
  | .powerOn | .wake | .check =>
    s.onPwr (fun p =>
      let fromRest := p.st == PwrState.rest
      { p with wake := p.wake.map (fun k => { k with step := if fromRest && !k.boot then 3 else 2 }) })

/-- PMBUS_ACK (R402): the STATUS_WORD is clean and `PGOOD` is high. -/
def execPmbusAck (statusWord : BitVec 16) (s : State) : Host.Outcome State Fault Refusal :=
  answer s (match s.pwr.pmbus with
    | none => s
    | some why =>
      if statusClean statusWord then (s.onPwr (fun p => { p with lastStatus := statusWord })).acknowledged why else s)

/-- A power fault (R402): FAULT_CNT, PWR_FAULT and the record. -/
def State.powerFault (s : State) (where_ : Option Nat) (cmd : Option (BitVec 8)) : State :=
  let s := s.onPwr (fun p => { p with faultCnt := satAdd 15 p.faultCnt 1 })
  (s.pwrEvent 3).powerRecord where_ cmd

/-- What follows a power fault (R403, R419). -/
def State.faulted (s : State) (why : PmbusWhy) : State :=
  let cmd := s.requestCommand why
  let s := s.onPwr (fun p => { p with pmbus := none })
  match why with
  | .levelUp _ =>
    let s := s.powerFault none (some cmd)
    let c := s.pwr.levelCmd
    let s := s.onPwr (fun p => { p with levelCmd := none })
    let s : State := match c with | some c => s.refuse c 0x0F08 | none => s
    s.ask .revert
  | .levelDown t => (((s.powerFault none (some cmd)).setLevel t).levelEnd true).applyPending
  | .revert => (s.levelEnd true).applyPending
  | .entry => (s.powerFault (some 6) (some cmd)).finishEntry
  | .powerOn | .wake | .check =>
    let s := s.powerFault none (some cmd)
    s.onPwr (fun p => { p with
      wakeFails := p.wakeFails + 1, failAt := s.clk.rtcTicks, wake := p.wake.map (fun k => { k with step := 0 })
      hostWake := p.hostWake || decide (3 ≤ p.wakeFails + 1) })

/-- PMBUS_ATTEMPT_FAIL (R402): a NACK, a PEC error or the timeout; the third in a row is a power fault. The request for
the old voltage gets one attempt (R403). -/
def execPmbusAttemptFail (statusWord : Option (BitVec 16)) (s : State) : Host.Outcome State Fault Refusal :=
  answer s (match s.pwr.pmbus with
    | none => s
    | some why =>
      let s := s.onPwr (fun p => { p with lastStatus := statusWord.getD p.lastStatus })
      if why = .revert ∨ 2 ≤ s.pwr.retries then s.faulted why
      else
        let s := s.onPwr (fun p => { p with retries := p.retries + 1 })
        (s.emit (.pmbus s.pwr.cfg.pmbAddr pmbClearFaults 0)).sendRequest why)

/-- PGOOD_LOSS (R404): `PGOOD` has been low for more than 10 µs in Run or Idle. -/
def execPgoodLoss (s : State) : Host.Outcome State Fault Refusal :=
  answer s (if (s.pwr.st = .run ∨ s.pwr.st = .idle) ∧ s.pwr.wake = none ∧ s.pwr.held = false ∧ s.isl.coreA then
    let s := s.onPwr (fun p => { p with pgood := false, held := true })
    let s := { s with
      isl := { s.isl with coreA := false, coreB := false, est := false }, est := { s.est with running := false }
      pairs := s.pairs.each (fun _ x => match x.st with
        | .fault | .failed | .off => x
        | _ => { x with st := .off, done := false, stopPend := false }) }
    s.powerFault none none
  else s)

/-- PGOOD_RECOVERY (R404): `PGOOD` has been high for 1 ms, and the held islands start through the boot ROM. -/
def execPgoodRecovery (s : State) : Host.Outcome State Fault Refusal :=
  answer s (if s.pwr.held then
    let s := s.onPwr (fun p => { p with pgood := true, held := false })
    { s with isl := { s.isl with coreA := true, coreB := true, est := true }, sec := { s.sec with bootDue := true } }
  else s)

-- The requests (R406, R426).

/-- SET_POWER_STATE (0x02; R406). -/
def execSetPowerState (c : Cmd) (s : State) : Host.Outcome State Fault Refusal :=
  answer s (s.run c false (fun s =>
    if 3 < opByte c 0 then s.badOperand c
    else s.request { level := false, val := BitVec.ofNat 2 (opByte c 0), wakeEn := BitVec.ofNat 7 (opByte c 4), cmd := some c }))

/-- SET_RUN_LEVEL (0x03; R406). -/
def execSetRunLevel (c : Cmd) (s : State) : Host.Outcome State Fault Refusal :=
  answer s (s.run c false (fun s =>
    if 3 < opByte c 0 then s.badOperand c
    else s.request { level := true, val := BitVec.ofNat 2 (opByte c 0), wakeEn := 0, cmd := some c }))

/-- SET_HOST_VETO (0x04; R406). -/
def execSetHostVeto (c : Cmd) (s : State) : Host.Outcome State Fault Refusal :=
  answer s (s.run c false (fun s =>
    if 1 < opByte c 0 then s.badOperand c
    else
      let old := s.pwr.veto
      (s.onPwr (fun p => { p with veto := opByte c 0 == 1 })).ok c (dwords (bit old) 0 0 0)))

/-- A write to `PWR_REQ` (R426): pair 0's, or core 0's in split mode, with KEY 0x5A. -/
def State.writePwrReq (s : State) (core : Fin 16) (v : Word) : State :=
  if !s.mayBeat (.core core) || v.extractLsb' 24 8 != 0x5A then s
  else s.request { level := v.getLsbD 8, val := if v.getLsbD 8 then v.extractLsb' 4 2 else v.extractLsb' 0 2, wakeEn := 0, cmd := none }

/-- PWR_REQ_STATE (R426): KIND 0. -/
def execPwrReqState (core : Fin 16) (v : Word) (s : State) : Host.Outcome State Fault Refusal :=
  answer s (if v.getLsbD 8 then s else s.writePwrReq core v)

/-- PWR_REQ_LEVEL (R426): KIND 1. -/
def execPwrReqLevel (core : Fin 16) (v : Word) (s : State) : Host.Outcome State Fault Refusal :=
  answer s (if v.getLsbD 8 then s.writePwrReq core v else s)

/-- The 160 bytes of POWER_ACCOUNT (R423). -/
def State.accountBytes (s : State) : List Byte :=
  let p := s.pwr
  leBytes 2 p.refuseCnt ++ leBytes 2 p.abortCnt ++ leBytes 4 s.ret.entries ++ leBytes 2 s.ret.credit ++
    [p.lastSrc.setWidth 8, BitVec.ofNat 8 p.faultCnt] ++ leBytes 6 p.wakeHours ++ leBytes 14 0 ++
    (List.range 16).flatMap (fun n => match p.log[n]? with
      | some e => leBytes 6 e.hours ++ [e.code.setWidth 8, e.state.setWidth 8]
      | none => leBytes 8 0)

/-- POWER_ACCOUNT (0x88; R423). -/
def execPowerAccount (c : Cmd) (s : State) : Host.Outcome State Fault Refusal :=
  answer s (s.run c false (fun s =>
    if aligned16 (opField c 8 8) then (s.toHost (opField c 8 8) s.accountBytes).ok c (dwords 160 0 0 0) else s.badOperand c))

-- The rest of the chapter.

/-- SRAM_BLOCK_RESTORE (R418). -/
def execSramBlockRestore (block : Fin 1536) (s : State) : Host.Outcome State Fault Refusal :=
  answer s (if s.isl.mem ∧ s.pwr.st = .run then s.restoreBlock block.val else s)

/-- ISLAND_WAKE_ON_ACCESS (R417; 19 R469): an island that is down comes up in Run or Idle. -/
def execIslandWakeOnAccess (i : Island) (s : State) : Host.Outcome State Fault Refusal :=
  answer s (if (s.pwr.st = .run ∨ s.pwr.st = .idle) ∧ s.isl.mem ∧ s.therm.shutDown = false ∧ s.pwr.held = false then
    match i with
    | .est => { s with isl := { s.isl with est := true } }
    | .port p => if s.isl.port.at p then s else s.startPort p 0xFFFFFFFF
    | .net => { s with isl := { s.isl with net := true } }
    | .host => if s.isl.host then s else State.pollAgain { s with isl := { s.isl with host := true } }
  else s)

/-- RET_CREDIT_TICK (R415): 8 s of operating hours since the last gain. -/
def execRetCreditTick (s : State) : Host.Outcome State Fault Refusal :=
  answer s (if s.ret.creditAt + 8000 ≤ s.oph then
    { s with ret := { s.ret with credit := satAdd 65535 s.ret.credit 1, creditAt := s.ret.creditAt + 8000 } }
  else s)

-- The check cycle's decision (04 R155).

/-- The adopted MC16 units of the stalls in CHECK_MASK that have been reached. -/
def State.checkUnits (s : State) (i : Fin 32) : List (Fin 128) := (unitsOf i).filter (fun u => s.isMc16 u && (s.ulink.at u).reached)

/-- The stalls that a check cycle looks at: those of CHECK_MASK that are in service (03 R112). -/
def State.checkStalls (s : State) : List (Fin 32) :=
  (places 32).filter (fun i => s.sleep.mask.getLsbD i.val && (s.stalls.at i).str.isSome && !(s.stalls.at i).oos)

/-- The check sweeps are over, as far as they can be: no enumeration runs, and every unit reached has swept. -/
def State.checkOver (s : State) : Bool :=
  s.checkStalls.all (fun i => (s.stalls.at i).enum.isNone && (s.checkUnits i).all (fun u => s.sleep.sweeps ≤ (s.uswp.at u).chkSweeps))

/-- A unit of the stall holds a comparator input whose count has reached DEB (04 R144). -/
def State.stallTrips (s : State) (i : Fin 32) : Bool :=
  match (s.stalls.at i).str with
  | some str => (unitsOf i).any (fun u => (s.uswp.at u).trips.any (fun t => (s.trips.lim.at str).on t.kind && decide ((s.trips.lim.at str).deb t.kind ≤ t.c)))
  | none => false

/-- A comparator of the stall's string has entered Tripped in this check cycle, on this stall or on none that shows it any more. -/
def State.checkTrips (s : State) (i : Fin 32) : Bool :=
  match (s.stalls.at i).str with
  | some str =>
    let entered := s.trips.due.at str ||| ((s.strs.at str).tripped &&& ~~~ (s.strs.at str).tripKeep)
    s.stallTrips i || (entered != 0 && !(s.stallsOf str).any s.stallTrips)
  | none => false

/-- The finding of a stall with RESULT code `r` (04 R155). -/
def State.stallFinding (s : State) (i : Fin 32) (r : Nat) : Bool :=
  let units := unitsOf i
  if r = 2 then units.any (fun u => (places 16).any (fun c => decide (2 ≤ (s.uswp.at u).chkOut.at c)))
  else if r = 3 then
    !((s.stalls.at i).lstate == .running) || units.any (fun u => !((s.ulink.at u).outcome == 0 || (s.ulink.at u).outcome == 4))
  else if r = 4 then s.checkTrips i
  else units.any (fun u => (s.uswp.at u).chkUw)

/-- The first finding in the order of the table, and the lowest stall that shows it. -/
def State.checkFinding (s : State) : Option (Nat × Fin 32) :=
  [2, 3, 4, 5].findSome? (fun r => (s.checkStalls.find? (fun i => s.stallFinding i r)).map (fun i => (r, i)))

/-- CHECK_CYCLE_DECIDE (04 R155; 15 R420, R421). -/
def execCheckCycleDecide (s : State) : Host.Outcome State Fault Refusal :=
  answer s (match s.pwr.wake with
    | some k =>
      if !(k.check && k.step == 5) || !s.checkOver then s
      else
        let s := { s with sleep := { s.sleep with cnt := satAdd 0xFFFF s.sleep.cnt 1 } }
        match s.checkFinding with
        | some (r, i) =>
          let s := { s with sleep := { s.sleep with result := BitVec.ofNat 3 r, first := BitVec.ofNat 5 i.val } }
          let s := (s.onPwr (fun p => { p with hostWake := true })).studbook 0x20 i.val [BitVec.ofNat 8 r]
          s.checkToWake k.src
        | none =>
          let s := { s with sleep := { s.sleep with result := 1, first := 0 } }
          ((s.onPwr (fun p => { p with wake := none, target := p.st, latched := none })).beginPhase 5).endCheckIslands
    | none => s)

end Sys2Proof.Machine
end

