-- ==== Sys2Proof/Machine/Time.lean ====
section
/-! DEFINITION. The hours cell's period and the RTC (17 R445 to R450). -/

namespace Sys2Proof.Machine

/-- Bits of `TIME_EVT`: 0 ALARM, 1 CHK, 2 SETBACK. -/
def State.timeEvent (s : State) (n : Nat) : State := { s with evt := { s.evt with time := setBit s.evt.time n } }

/-- HOURS_CELL_WRITE (R445): while MEM runs. -/
def execHoursCellWrite (s : State) : Host.Outcome State Fault Refusal :=
  answer s (if s.hoursDue && s.isl.mem then s.writeHours else s)

/-- The armed alarm fires once the RTC has reached it, disarms, and is a wake source (R449). -/
def State.fireAlarm (s : State) : State :=
  if s.clk.alarm ≠ 0 ∧ s.clk.alarm ≤ s.rtcNow then
    (State.timeEvent { s with clk := { s.clk with alarm := 0 } } 0).wakeSource 1
  else s

/-- What RTC_SET does (R448). -/
def rtcSet (c : Cmd) (s : State) : State :=
  let v := opField c 4 4
  match opByte c 0 with
  | 0 =>
    let old := s.rtcNow
    let back := decide (v < old)
    let s := { s with clk := { s.clk with rtcBase := v, rtcFrom := s.clk.rtcTicks, rtcSet := true } }
    let s := if back then s.timeEvent 2 else s
    let s := s.studbook 0x03 0 (leBytes 4 old ++ leBytes 4 v ++ leBytes 1 (bit back))
    s.fireAlarm.ok c (dwords old (bit back) 0 0)
  | 1 =>
    if v ≠ 0 ∧ v ≤ s.rtcNow then s.badOperand c
    else State.ok { s with clk := { s.clk with alarm := v } } c (dwords v 0 0 0)
  | 2 =>
    if v ≠ 0 ∧ (v < 10 ∨ 86400 < v) then s.badOperand c
    else State.ok { s with clk := { s.clk with chkS := v, chkFrom := s.clk.rtcTicks } } c (dwords v 0 0 0)
  | _ => s.badOperand c

/-- RTC_SET (0x13; R448). -/
def execRtcSet (c : Cmd) (s : State) : Host.Outcome State Fault Refusal := answer s (s.run c false (rtcSet c))

/-- RTC_ALARM (R449). -/
def execRtcAlarm (s : State) : Host.Outcome State Fault Refusal := answer s s.fireAlarm

/-- PERIODIC_CHECK_ALARM (R450): the period has elapsed since the latest firing. -/
def execPeriodicCheckAlarm (s : State) : Host.Outcome State Fault Refusal :=
  answer s (
    let period := s.clk.chkS * rtcTicksPerS
    if s.clk.chkS ≠ 0 ∧ s.clk.chkFrom + period ≤ s.clk.rtcTicks then
      let from_ := s.clk.chkFrom + (s.clk.rtcTicks - s.clk.chkFrom) / period * period
      (State.timeEvent { s with clk := { s.clk with chkFrom := from_ } } 1).wakeSource 2
    else s)

end Sys2Proof.Machine
end

