-- ==== Sys2Proof/Machine/Configuration.lean ====
section
/-! DEFINITION. The configuration package (18 R460 to R462): the records of the configuration region as bytes, the checks of a package, what an accepted record does, and CONFIG_LOAD and CONFIG_READ. -/

namespace Sys2Proof.Machine

-- The kinds of records (R460).

/-- LENGTH of a record kind; 0 for a reserved kind. -/
def recordLength (kind : Nat) : Nat :=
  if kind = 1 then 64 else if kind = 2 then 8 else if kind = 3 then 128 else if kind = 4 then 16 else if kind = 5 then 832
  else if kind = 6 then 32 else if kind = 7 then 8 else if kind = 8 then 8 else if kind = 9 then 16 else 0

/-- How many indexes a record kind has. -/
def recordIndexes (kind : Nat) : Nat := if kind = 1 then 4 else if kind = 9 then 6 else 1

/-- A record kind that needs a signed package. -/
def recordSigned (kind : Nat) : Bool := kind == 3 || kind == 4 || kind == 5 || kind == 6 || kind == 8

/-- Every kind and index, in the order of CONFIG_READ. -/
def recordPlaces : List (Nat × Nat) :=
  [(1, 0), (1, 1), (1, 2), (1, 3), (2, 0), (3, 0), (4, 0), (5, 0), (6, 0), (7, 0), (8, 0), (9, 0), (9, 1), (9, 2), (9, 3), (9, 4), (9, 5)]

/-- A record of a package: its kind, index and body. -/
structure CfgEntry where
  kind  : Nat
  index : Nat
  body  : List Byte
deriving DecidableEq, Repr

-- String and publication records (07 R243).

/-- The bytes of a string record. -/
def StrRec.bytes (r : StrRec) : List Byte :=
  padTo 64 (bvBytes 4 r.stallMask ++ leBytes 2 r.breakA ++ leBytes 2 r.preTimeoutMs ++ leBytes 2 r.preTauMs ++ leBytes 1 r.pcDelayMs ++
    bvBytes 1 r.auxEn ++ leBytes 2 r.dischMs ++ leBytes 1 r.linkGroup ++ leBytes 1 r.svcCapPct ++ leBytes 2 r.isoVref ++
    leBytes 1 r.isoPersistS ++ sBytes 1 r.otB ++ leBytes 2 r.parDv ++ leBytes 2 r.svcMaxMin)

/-- The string record that a body holds. -/
def strRecOf (b : List Byte) : StrRec :=
  { stallMask := BitVec.ofNat 32 (field b 0 4), breakA := field b 4 2, preTimeoutMs := field b 6 2, preTauMs := field b 8 2
    pcDelayMs := field b 0xA 1, auxEn := BitVec.ofNat 3 (field b 0xB 1), dischMs := field b 0xC 2, linkGroup := field b 0xE 1
    svcCapPct := field b 0xF 1, isoVref := field b 0x10 2, isoPersistS := field b 0x12 1, otB := sfield b 0x13 1
    parDv := field b 0x14 2, svcMaxMin := field b 0x16 2 }

/-- A number lies in a range. -/
def within (lo hi v : Nat) : Bool := decide (lo ≤ v ∧ v ≤ hi)

/-- The fields of a string record lie in their ranges. -/
def strBodyOk (b : List Byte) : Bool :=
  let r := strRecOf b
  within 1 2000 r.breakA && within 50 10000 r.preTimeoutMs && within 10 3000 r.preTauMs && within 0 50 r.pcDelayMs &&
  decide (field b 0xB 1 < 8) && within 50 60000 r.dischMs && within 0 3 r.linkGroup && within 0 100 r.svcCapPct && within 1 1500 r.isoVref &&
  within 1 60 r.isoPersistS && decide (0 ≤ r.otB ∧ r.otB ≤ 100) && within 1 1000 r.parDv && within 1 240 r.svcMaxMin &&
  zeroBytes b 0x18 0x40 && decide (3 * r.preTauMs + r.pcDelayMs ≤ r.preTimeoutMs)

/-- No stall appears in two masks, and every used member of a link group with more than one used member watches CN and CP
(07 R214, R243). -/
def strRecsAgree (rs : List StrRec) : Bool :=
  let used := rs.filter (fun r => r.stallMask != 0)
  let others (r : StrRec) : Nat := (used.filter (fun q => q.linkGroup == r.linkGroup)).length
  (places 32).all (fun i => decide ((rs.filter (fun r => r.stallMask.getLsbD i.val)).length ≤ 1)) &&
  used.all (fun r => decide (others r ≤ 1) || (r.auxEn.getLsbD 0 && r.auxEn.getLsbD 1))

/-- The bytes of the publication record. -/
def PubRec.bytes (r : PubRec) : List Byte := padTo 8 (bvBytes 4 r.canId ++ bvBytes 1 r.pubEn)

/-- The publication record that a body holds. -/
def pubRecOf (b : List Byte) : PubRec := { canId := BitVec.ofNat 32 (field b 0 4), pubEn := BitVec.ofNat 2 (field b 4 1) }

/-- Bits 30 and 29 of a CAN identifier field are 0 (07 R243; 08 R277). -/
def canIdOk (v : Nat) : Bool := bitsOf v 29 2 == 0

/-- The publication record lies in its ranges. -/
def pubBodyOk (b : List Byte) : Bool := canIdOk (field b 0 4) && decide (field b 4 1 < 4) && zeroBytes b 5 8

-- The halter record (08 R277).

/-- The bytes of a safety input. -/
def SinRec.bytes (r : SinRec) : List Byte :=
  bvBytes 1 r.role ++ leBytes 1 (bit r.guard + 2 * bit r.tpEn + 4 * r.tpoA.toNat + 16 * r.tpoB.toNat) ++ bvBytes 1 r.strs ++
    leBytes 1 r.filt ++ leBytes 2 r.proofH ++ [0, 0]

/-- The safety input that 8 bytes hold. -/
def sinRecOf (b : List Byte) : SinRec :=
  let f := field b 1 1
  { role := BitVec.ofNat 2 (field b 0 1), guard := bitsOf f 0 1 == 1, tpEn := bitsOf f 1 1 == 1, tpoA := BitVec.ofNat 2 (bitsOf f 2 2)
    tpoB := BitVec.ofNat 2 (bitsOf f 4 2), strs := BitVec.ofNat 4 (field b 2 1), filt := field b 3 1, proofH := field b 4 2 }

/-- A safety input lies in its ranges. -/
def sinBodyOk (b : List Byte) : Bool :=
  let r := sinRecOf b
  decide (field b 0 1 ≤ 2) && decide (field b 1 1 < 64) && (!r.tpEn || r.tpoA != r.tpoB) && decide (field b 2 1 < 16) &&
  (r.role != 2 || r.strs != 0) && within 1 20 r.filt && within 0 720 r.proofH && zeroBytes b 6 8

/-- The bytes of the halter record. -/
def HaltRec.bytes (r : HaltRec) : List Byte :=
  padTo 0x40 (bvBytes 2 r.txTg ++ bvBytes 2 r.rxTg ++ leBytes 1 (bit r.netsel) ++ leBytes 1 (bit r.rxEn + 2 * bit r.rstHost) ++ [0, 0] ++
    bvBytes 4 r.txCan ++ bvBytes 4 r.rxCan ++ bvBytes 6 r.ethDst) ++ (places 8).flatMap (fun n => (r.sin.at n).bytes)

/-- The eight bytes of input `n` in a halter record. -/
def sinBody (b : List Byte) (n : Fin 8) : List Byte := (b.drop (0x40 + 8 * n.val)).take 8

/-- The halter record that a body holds. -/
def haltRecOf (b : List Byte) : HaltRec :=
  { txTg := BitVec.ofNat 16 (field b 0 2), rxTg := BitVec.ofNat 16 (field b 2 2), netsel := field b 4 1 == 1
    rxEn := bitsOf (field b 5 1) 0 1 == 1, rstHost := bitsOf (field b 5 1) 1 1 == 1
    txCan := BitVec.ofNat 32 (field b 8 4), rxCan := BitVec.ofNat 32 (field b 0xC 4), ethDst := BitVec.ofNat 48 (field b 0x10 6)
    sin := Vector.ofFn (fun n => sinRecOf (sinBody b n)) }

/-- The halter record lies in its ranges. -/
def haltBodyOk (b : List Byte) : Bool :=
  field b 0 2 != field b 2 2 && decide (field b 4 1 ≤ 1) && decide (field b 5 1 < 4) && zeroBytes b 6 8 && canIdOk (field b 8 4) &&
  canIdOk (field b 0xC 4) && field b 8 4 != field b 0xC 4 && zeroBytes b 0x16 0x40 && (places 8).all (fun n => sinBodyOk (sinBody b n))

-- The Weighbridge record (10 R317).

/-- I_RATED_A and DEAD_MA of the four strings that a body holds. -/
def wbRecOf (b : List Byte) : List (Nat × Nat) := (List.range 4).map (fun i => (field b (4 * i) 2, field b (4 * i + 2) 2))

/-- The Weighbridge record lies in its ranges. -/
def wbBodyOk (b : List Byte) : Bool := (wbRecOf b).all (fun r => within 1 2000 r.1 && within 0 5000 r.2)

/-- I_RATED_A and DEAD_MA as accepted: those that wait for their frame edge, or those in force. -/
def Wb.record (w : Wb) : List (Nat × Nat) := w.recPend.getD ((places 4).map (fun i => ((w.str.at i).iRated, (w.str.at i).deadMa)))

-- The studbook record (13 R377, R378).

/-- The bytes of a snapshot list. -/
def snapBytes (l : List SnapEntry) : List Byte := padTo 96 (l.flatMap (fun e => bvBytes 2 e.off ++ [e.sel, 0]))

/-- The entries of a snapshot list in 96 bytes, up to the first that is 0. -/
def snapOf (b : List Byte) : List SnapEntry :=
  ((List.range 24).map (fun k => (b.drop (4 * k)).take 4)).takeWhile (fun e => leNat e != 0)
    |>.map (fun e => { off := BitVec.ofNat 16 (field e 0 2), sel := e.getD 2 0 })

/-- An entry suits its register: SEL 0xFF for a global one, an instance or 0xFE for one that a selector serves. -/
def snapEntryOk (e : List Byte) : Bool :=
  let off := field e 0 2
  let sel := field e 2 1
  off % 4 == 0 && decide (off < 0x4800) && field e 3 1 == 0 &&
  (match selKindOf off with
  | none => sel == 0xFF
  | some _ => decide (sel ≤ 0x7F) || sel == 0xFE)

/-- A snapshot list is in range: its entries suit their registers, and the unused ones are 0. -/
def snapOk (b : List Byte) : Bool :=
  let n := (snapOf b).length
  (List.range n).all (fun k => snapEntryOk ((b.drop (4 * k)).take 4)) && zeroBytes b (4 * n) 96

/-- The bytes of the studbook record. -/
def StbRec.bytes (r : StbRec) : List Byte :=
  padTo 16 (bvBytes 8 r.enable ++ leBytes 1 (bit r.wallEn)) ++
  padTo 48 ((List.range 32).flatMap (fun k => leBytes 1 ((r.list.at (idx 64 (by decide) (2 * k))).val + 16 * (r.list.at (idx 64 (by decide) (2 * k + 1))).val))) ++
  (places 8).flatMap (fun l => snapBytes (r.lists.at l))

/-- LIST of a trigger in a studbook record. -/
def listNibble (b : List Byte) (t : Nat) : Nat := bitsOf (field b (0x10 + t / 2) 1) (4 * (t % 2)) 4

/-- List `l` of a studbook record. -/
def listBody (b : List Byte) (l : Nat) : List Byte := (b.drop (0x40 + 96 * l)).take 96

/-- The studbook record that a body holds; the triggers that are always enabled read 1. -/
def stbRecOf (b : List Byte) : StbRec :=
  { enable := BitVec.ofNat 64 (field b 0 8) ||| 0x80000000FFFFFFFF, wallEn := field b 8 1 == 1
    list := Vector.ofFn (fun t => idx 8 (by decide) (listNibble b t.val)), lists := Vector.ofFn (fun l => snapOf (listBody b l.val)) }

/-- The studbook record lies in its ranges. -/
def stbBodyOk (b : List Byte) : Bool :=
  decide (field b 8 1 ≤ 1) && zeroBytes b 9 16 && (List.range 64).all (fun t => decide (listNibble b t ≤ 7)) && zeroBytes b 0x30 0x40 &&
  (List.range 8).all (fun l => snapOk (listBody b l))

-- Pair, power and boot records (14 R399; 15 R425; 18 R460).

/-- The bytes of a pair's entry. -/
def PairRec.bytes (r : PairRec) : List Byte := leBytes 4 (r.escal.toNat + 4 * r.strs.toNat + 64 * bit r.stEn + 256 * r.intervalS)

/-- The entry that a word holds. -/
def pairRecOf (v : Nat) : PairRec :=
  { escal := BitVec.ofNat 2 v, strs := BitVec.ofNat 4 (bitsOf v 2 4), stEn := bitsOf v 6 1 == 1, intervalS := bitsOf v 8 16 }

/-- A pair's entry lies in its ranges. -/
def pairWordOk (v : Nat) : Bool := decide (bitsOf v 0 2 ≤ 2) && bitsOf v 7 1 == 0 && within 1 3600 (bitsOf v 8 16) && bitsOf v 24 8 == 0

/-- The bytes of the power record; WAKE_EN reads back with its two permanent bits. -/
def PwrRec.bytes (r : PwrRec) : List Byte :=
  bvBytes 1 r.pmbAddr ++ sBytes 1 r.voutExp ++ bvBytes 1 r.startLevel ++ bvBytes 1 r.wakeEn ++ leBytes 2 r.sinScanMs ++ [0, 0]

/-- The power record that a body holds. -/
def pwrRecOf (b : List Byte) : PwrRec :=
  { pmbAddr := BitVec.ofNat 7 (field b 0 1), voutExp := sfield b 1 1, startLevel := BitVec.ofNat 2 (field b 2 1)
    wakeEn := BitVec.ofNat 7 (field b 3 1) ||| 0x60, sinScanMs := field b 4 2 }

/-- The power record lies in its ranges. -/
def pwrBodyOk (b : List Byte) : Bool :=
  within 0x08 0x77 (field b 0 1) && decide (-16 ≤ sfield b 1 1 ∧ sfield b 1 1 ≤ -1) && decide (field b 2 1 ≤ 3) && decide (field b 3 1 < 128) &&
  within 50 5000 (field b 4 2) && zeroBytes b 6 8

/-- The bytes of the boot record. -/
def PairCtl.bootBytes (p : PairCtl) : List Byte := padTo 8 (leBytes 1 (bit p.bootSplit + 2 * bit p.bootTest))

-- Network records (R460).

/-- The bytes of a CAN controller's record. -/
def Can.bytes (c : Can) : List Byte := padTo 16 (leBytes 2 c.nomKbps ++ leBytes 2 c.dataKbps ++ leBytes 2 c.nomSp ++ leBytes 2 c.dataSp)

/-- The bytes of a MAC's record. -/
def Eth.bytes (e : Eth) (m : Fin 2) : List Byte := padTo 16 (bvBytes 6 (e.mac.getD (Config.macAddr m)) ++ bvBytes 1 e.cfgSpeed)

/-- A network record lies in its ranges. -/
def netBodyOk (index : Nat) (b : List Byte) : Bool :=
  if index < 4 then
    within 125 1000 (field b 0 2) && (field b 2 2 == 0 || within 1000 5000 (field b 2 2)) && within 600 900 (field b 4 2) &&
    within 600 900 (field b 6 2) && zeroBytes b 8 16
  else decide (field b 6 1 ≤ 2) && zeroBytes b 7 16

-- The configuration in force as bytes (R461, R462).

/-- The body of the record in force of a kind and index. -/
def State.recordBody (s : State) (kind index : Nat) : List Byte :=
  if kind = 1 then (s.strs.at (idx 4 (by decide) index)).cfg.bytes
  else if kind = 2 then s.pub.cfg.bytes
  else if kind = 3 then s.halter.cfg.bytes
  else if kind = 4 then s.wb.record.flatMap (fun r => leBytes 2 r.1 ++ leBytes 2 r.2)
  else if kind = 5 then s.stb.cfg.bytes
  else if kind = 6 then (places 8).flatMap (fun p => (s.pairs.at p).cfg.bytes)
  else if kind = 7 then s.pwr.cfg.bytes
  else if kind = 8 then s.pctl.bootBytes
  else if index < 4 then (s.net.can.at (idx 4 (by decide) index)).bytes
  else (s.net.eth.at (idx 2 (by decide) (index - 4))).bytes (idx 2 (by decide) (index - 4))

/-- A record with its header. -/
def recordBytesOf (e : CfgEntry) : List Byte := leBytes 1 e.kind ++ leBytes 1 e.index ++ [0, 0] ++ leBytes 4 e.body.length ++ e.body

/-- One record of every kind and index (R462). -/
def State.configRecords (s : State) : List Byte := recordPlaces.flatMap (fun p => recordBytesOf ⟨p.1, p.2, s.recordBody p.1 p.2⟩)

/-- What CONFIG_READ writes (R462). -/
def State.configBytes (s : State) : List Byte :=
  padTo 32 (leBytes 4 0x501 ++ bvBytes 4 s.sec.cfgSeq ++ devDigest ++ leBytes 2 recordPlaces.length) ++ s.configRecords

/-- The configuration digest (R462). -/
def State.configDigest (s : State) : List Byte := sha512 s.configRecords

/-- CONFIG_READ (0x06; R462). It runs in recovery mode as well. -/
def execConfigRead (c : Cmd) (s : State) : Host.Outcome State Fault Refusal :=
  answer s (s.run c true (fun s =>
    if aligned16 (opField c 8 8) then (s.toHost (opField c 8 8) s.configBytes).ok c (dwords 1552 0 0 0) else s.badOperand c))

-- Check 1 (R461).

/-- The fields of a record lie in their ranges. -/
def recordBodyOk (e : CfgEntry) : Bool :=
  if e.kind = 1 then strBodyOk e.body
  else if e.kind = 2 then pubBodyOk e.body
  else if e.kind = 3 then haltBodyOk e.body
  else if e.kind = 4 then wbBodyOk e.body
  else if e.kind = 5 then stbBodyOk e.body
  else if e.kind = 6 then (List.range 8).all (fun p => pairWordOk (field e.body (4 * p) 4))
  else if e.kind = 7 then pwrBodyOk e.body
  else if e.kind = 8 then decide (field e.body 0 1 < 4) && zeroBytes e.body 1 8
  else netBodyOk e.index e.body

/-- The records of a package, and what follows them; none where one does not fit its kind. -/
def parseRecords : Nat → List Byte → Option (List CfgEntry × List Byte)
  | 0, rest => some ([], rest)
  | n + 1, bs =>
    let kind := field bs 0 1
    let index := field bs 1 1
    let len := recordLength kind
    if bs.length < 8 ∨ len = 0 ∨ recordIndexes kind ≤ index ∨ field bs 2 2 ≠ 0 ∨ field bs 4 4 ≠ len ∨ bs.length < 8 + len then none
    else
      match parseRecords n (bs.drop (8 + len)) with
      | some (es, rest) => some (⟨kind, index, (bs.drop 8).take len⟩ :: es, rest)
      | none => none

/-- The records that apply: the last copy of each kind and index, in the order of the package. -/
def lastCopies : List CfgEntry → List CfgEntry
  | [] => []
  | e :: es => if es.any (fun x => x.kind == e.kind && x.index == e.index) then lastCopies es else e :: lastCopies es

/-- The string records once the package applies. -/
def State.strRecsAfter (s : State) (es : List CfgEntry) : List StrRec :=
  (places 4).map (fun i =>
    match es.find? (fun e => e.kind == 1 && e.index == i.val) with
    | some e => strRecOf e.body
    | none => (s.strs.at i).cfg)

/-- Checks 1 and 2 of R461: the records of a package that pass them, and whether it is signed. -/
def State.packageRecords (s : State) (len : Nat) (pkg : List Byte) : Option (List CfgEntry × Bool) :=
  let n := field pkg 0x10 2
  let signed := field pkg 0x12 2 == 1
  if 65536 < len ∨ pkg.length ≠ len ∨ packageHead 0x501 pkg = false ∨ n = 0 ∨ 64 < n ∨ 1 < field pkg 0x12 2 ∨ zeroBytes pkg 0x14 0x20 = false then none
  else
    match parseRecords n (pkg.drop 0x20) with
    | none => none
    | some (es, rest) =>
      let apply_ := lastCopies es
      if rest.length ≠ (if signed then 64 else 0) ∨ es.all recordBodyOk = false ∨
         (apply_.any (fun e => e.kind == 1) ∧ strRecsAgree (s.strRecsAfter apply_) = false) then none
      else some (apply_, signed)

-- Check 5 (R461).

/-- A network record's controller carries halter telegrams or limit messages (19 R472; 08 R257; 07 R240). -/
def netCarries (h : HaltRec) (p : PubRec) (index : Nat) : Bool :=
  index == 0 || (index == 1 && !h.netsel) || (index == 4 && h.netsel) || (index == 2 && p.pubEn.getLsbD 0) || (index == 3 && p.pubEn.getLsbD 1)

/-- The record equals the one in force. -/
def State.sameRecord (s : State) (e : CfgEntry) : Bool := e.body == s.recordBody e.kind e.index

/-- The refusal of a record that differs from the one in force, if its state condition does not hold. -/
def State.recordRefusal (s : State) (es : List CfgEntry) (e : CfgEntry) : Option Nat :=
  if s.sameRecord e then none
  else if e.kind = 1 then (if s.strHeld (idx 4 (by decide) e.index) then some 0x0709 else none)
  else if e.kind = 3 then (if s.allOpen then none else some 0x0806)
  else if e.kind = 4 then (if (places 4).any (fun i => (s.strSt i).on) then some 0x0A02 else none)
  else if e.kind = 6 then (if s.allOpen then none else some 0x0E07)
  else if e.kind = 9 then
    let h := ((es.find? (fun x => x.kind == 3)).map (fun x => haltRecOf x.body)).getD s.halter.cfg
    let p := ((es.find? (fun x => x.kind == 2)).map (fun x => pubRecOf x.body)).getD s.pub.cfg
    if !s.allOpen && (netCarries s.halter.cfg s.pub.cfg e.index || netCarries h p e.index) then some 0x0D03 else none
  else none

-- What an accepted record does.

/-- A stall leaves or changes its string: its physical layer is powered down, and nothing of its chain counts as reached
(01 R16; 03 R95). -/
def State.moveStall (s : State) (i : Fin 32) (dest : Option (Fin 4)) : State :=
  if (s.stalls.at i).str = dest then s
  else
    let s := (unitsOf i).foldl (fun s u => s.loseUnit u) s
    let s := s.onStall i (fun x =>
      let x := { x with
        str := dest, lstate := if x.oos then x.lstate else .off, breakPos := 4, enum := none, linkQ := [], rollCall := [], lost := false }
      match dest with
      | some t => x.chooseW (s.strs.at t).rate
      | none => x)
    s.enumDone i

/-- The stalls belong to the strings whose masks name them (07 R214). -/
def State.assignStalls (s : State) : State :=
  (places 32).foldl (fun s i => s.moveStall i ((places 4).find? (fun t => (s.strs.at t).cfg.stallMask.getLsbD i.val))) s

/-- A halter record applies (08 R278): proofs of changed inputs are lost, telegram supervision restarts, and the details go
whose gone condition the record makes true (R250). -/
def State.applyHaltRec (s : State) (r : HaltRec) : State :=
  let old := s.halter.cfg
  let changed (n : Fin 8) : Bool :=
    let a := old.sin.at n
    let b := r.sin.at n
    a.role != b.role || a.guard != b.guard || a.tpEn != b.tpEn
  let untested (n : Fin 8) : Bool := (r.sin.at n).role == 0 || !(r.sin.at n).tpEn
  let s := s.onHalter (fun h => { h with
    cfg := r
    sin := h.sin.each (fun n x =>
      let x := if changed n then { x with proven := false } else x
      if untested n then
        { x with a := { x.a with tpBad := false, passRun := 0, failRun := 0 }, b := { x.b with tpBad := false, passRun := 0, failRun := 0 } }
      else x)
    net := { h.net with
      started := false, run := false, wait := Bank.fill 2 none, strikeAt := [], okRun := 0, permitRef := none, permit := Bank.fill 4 none } })
  let s := if s.supervises then s else ((s.clearDetail .netDemand).clearDetail .netLoss).clearDetail .netStrikes
  let s := (places 8).foldl (fun s n =>
    let s := if (r.sin.at n).role = 0 then s.dropDetail .sinDisc n.val else s
    if untested n then s.dropDetail .sinTp n.val else s) s
  (places 8).foldl (fun s n => s.sinEval n) s

/-- A CAN controller is set up again with a record, and rejoins the bus (19 R472). -/
def Can.configured (c : Can) (b : List Byte) (joined : Bool) : Can :=
  { c with
    nomKbps := field b 0 2, dataKbps := field b 2 2, nomSp := field b 4 2, dataSp := field b 6 2
    st := if joined then 0 else c.st, tec := 0, rec_ := 0 }

/-- What an accepted record does, each as its chapter states (07 R243; 08 R278; 10 R317; 13 R378; 14 R399; 15 R425; 18 R460;
19 R472). String records move no stall here. -/
def State.applyRecord (s : State) (e : CfgEntry) : State :=
  if s.sameRecord e then s
  else if e.kind = 1 then s.onStr (idx 4 (by decide) e.index) (fun x => { x with cfg := strRecOf e.body })
  else if e.kind = 2 then { s with pub := { s.pub with cfg := pubRecOf e.body } }
  else if e.kind = 3 then s.applyHaltRec (haltRecOf e.body)
  else if e.kind = 4 then { s with wb := { s.wb with recPend := some (wbRecOf e.body) } }
  else if e.kind = 5 then { s with stb := { s.stb with cfg := stbRecOf e.body } }
  else if e.kind = 6 then { s with pairs := s.pairs.each (fun p x => { x with cfg := pairRecOf (field e.body (4 * p.val) 4) }) }
  else if e.kind = 7 then
    let r := pwrRecOf e.body
    s.onPwr (fun p => { p with cfg := r, wakeEn := r.wakeEn, wakeKeep := r.wakeEn })
  else if e.kind = 8 then
    { s with pctl := { s.pctl with bootSplit := bitsOf (field e.body 0 1) 0 1 == 1, bootTest := bitsOf (field e.body 0 1) 1 1 == 1 } }
  else if e.index < 4 then
    { s with net := { s.net with can := s.net.can.upd (idx 4 (by decide) e.index) (fun c => c.configured e.body s.sec.booted) } }
  else
    { s with net := { s.net with eth := s.net.eth.upd (idx 2 (by decide) (e.index - 4)) (fun x =>
        { x with mac := some (BitVec.ofNat 48 (field e.body 0 6)), cfgSpeed := BitVec.ofNat 8 (field e.body 6 1) }) } }

/-- Where the record of a kind and index lies in the configuration region: as in the output of CONFIG_READ, from the start of
the region (DESIGN CHOICE, log entry 40: the manual gives no layout). -/
def recordAt (kind index : Nat) : Nat :=
  0x600020 + ((recordPlaces.takeWhile (fun p => p != (kind, index))).map (fun p => 8 + recordLength p.1)).sum + 8

/-- What CONFIG_LOAD does (R461). -/
def configLoad (c : Cmd) (pkg : List Byte) (s : State) : State :=
  let seq := field pkg 4 4
  if aligned16 (opField c 0 8) = false then s.badOperand c
  else
    match s.packageRecords (opField c 8 4) pkg with
    | none => s.badOperand c
    | some (es, signed) =>
      if (es.any (fun e => recordSigned e.kind) ∧ signed = false) ∨ (signed ∧ packageSigned s.sec.owner pkg = false) then s.authFail c
      else if seq ≤ s.sec.cfgSeq.toNat then s.refuse c 0x0D04
      else
        match es.findSome? (fun e => s.recordRefusal es e) with
        | some code => s.refuse c code
        | none =>
          let s := es.foldl (fun s e => s.applyRecord e) s
          let s := if es.any (fun e => e.kind == 1) then s.assignStalls else s
          let s := { s with
            sec := { s.sec with cfgSeq := BitVec.ofNat 32 seq }, evt := { s.evt with sec := setBit s.evt.sec 0 } }
          let digest := s.configDigest
          let s := es.foldl (fun s e => s.mramStore (recordAt e.kind e.index) e.body) s
          let addrs := es.flatMap (fun e => codewordsOf (recordAt e.kind e.index) e.body.length)
          let s := es.foldl (fun s e =>
            s.studbook 0x04 e.kind (leBytes 4 seq ++ leBytes 1 e.index ++ leBytes 1 (bit signed) ++ [0, 0] ++ digest.take 8)) s
          { s with sec := { s.sec with waits := s.sec.waits ++
              [{ cmd := c, addrs := addrs, result := dwords (field pkg 0x10 2) (field digest 0 4) 0 0 }] } }

/-- CONFIG_LOAD (0x05; R460, R461). -/
def execConfigLoad (c : Cmd) (pkg : List Byte) (s : State) : Host.Outcome State Fault Refusal :=
  answer s (s.run c false (configLoad c pkg))

end Sys2Proof.Machine
end

