-- ==== Sys2Proof/Machine/Security.lean ====
section
/-! DEFINITION. Boot, images, attestation and the owner key (chapter 18; 14 R391, R392). -/

namespace Sys2Proof.Machine

/-- Bits of `SEC_EVT`: 0 CFG_LOADED, 1 KEY_CHG, 2 AUTH_FAIL, 3 FALLBACK. -/
def State.secEvent (s : State) (n : Nat) : State := { s with evt := { s.evt with sec := setBit s.evt.sec n } }

-- Images (R455, R456).

/-- Where image A (false) or B lies in MRAM (01 R27). -/
def codeBase (n : Bool) : Nat := if n then 0x800000 else 0

/-- The place of an image in `SEC_IMGn`. -/
def imgPlace (n : Bool) : Fin 2 := if n then 1 else 0

/-- The header of an image. -/
def State.imageHead (s : State) (n : Bool) : List Byte := s.mramRead (codeBase n) 256

/-- Check 1 of R456. -/
def imageHeadOk (h : List Byte) : Bool :=
  field h 0 4 == 0x4D58494D && field h 4 4 == 1 && decide (field h 8 1 ≤ 64) && field h 0xC 4 % 16 == 0 &&
  decide (field h 0xC 4 ≤ 0x600000 - 256) && decide (field h 0x14 4 ≤ 0x20000)

/-- The image digest (R455). -/
def State.imageDigest (s : State) (n : Bool) : List Byte :=
  let h := s.imageHead n
  sha512 (h.take 0xC0 ++ s.mramRead (codeBase n + 256) (field h 0xC 4))

/-- The reason code of a verification (R456): the first failure, `ue` being an uncorrectable error in the header or body. -/
def State.imageReason (s : State) (n ue : Bool) : Nat :=
  let h := s.imageHead n
  if !imageHeadOk h then 1
  else if sha512 (slice h 0x20 32) ≠ leBytes 64 Config.vendorRoot.toNat then 2
  else if field h 8 1 < s.sec.rbCount.toNat then 3
  else if !Ed.verify (slice h 0x20 32) (s.imageDigest n) (slice h 0xC0 64) then 4
  else if ue then 5
  else 0

/-- An image is verified (R456, R458, R465): `SEC_IMGn` and the digest take what was found. `ue` is the offset in the image of an
uncorrectable error that the verification meets. -/
def State.verifyImage (s : State) (n : Bool) (ue : Option (Fin 0x600000)) : State × Nat :=
  let h := s.imageHead n
  let len := if imageHeadOk h then 256 + field h 0xC 4 else 256
  let met : Option Nat := (ue.filter (fun o => decide (o.val < len))).map Fin.val
  let reason := s.imageReason n ((s.sec.img.at (imgPlace n)).ue || met.isSome)
  let (digest, s) := if imageHeadOk h then (s.imageDigest n, s) else s.drawBytes 64
  let img : Image :=
    { st := if reason = 0 then 1 else 2, reason := BitVec.ofNat 4 reason, rbLevel := BitVec.ofNat 7 (field h 8 1)
      version := BitVec.ofNat 32 (field h 0x18 4), digest := BitVec.ofNat 512 (leNat digest) }
  let s := { s with sec := { s.sec with img := s.sec.img.put (imgPlace n) img } }
  let s : State := match met with
    | some o => s.memoryError .bootRom (idx 32 (by decide) (24 + (codeBase n + o) / 0x400000)) ((codeBase n + o) % 0x400000)
    | none => s
  (s, reason)

-- Boot (R457, R458, R463).

/-- COPY_LEN bytes of an image into pair 0's TCM (01 R26): in lockstep the checker's holds the same. -/
def State.copyCode (s : State) (n : Bool) : State :=
  let bytes := s.mramRead (codeBase n + 256) (field (s.imageHead n) 0x14 4)
  let s := s.sramStore (tcmKey 0 0) bytes
  if s.pctl.split then s else s.sramStore (tcmKey 1 0) bytes

/-- The pairs follow the mode of the boot (14 R388, R392), and pair 0 is released. -/
def State.releasePair0 (s : State) : State :=
  let mode (st : PairState) : PairState :=
    if st = .run ∨ st = .split then (if s.pctl.split then .split else .run) else st
  let s := { s with pairs := s.pairs.each (fun _ x => { x with st := mode x.st, prev := mode x.prev }) }
  if (s.pairs.at 0).st = .off then s.onPair 0 (fun x => { x with st := if s.pctl.split then .split else .run, done := false }) else s

/-- The controllers join their buses (19 R472). -/
def State.joinNets (s : State) : State :=
  { s with net := { s.net with can := s.net.can.each (fun _ c => { c with st := 0, tec := 0, rec_ := 0 }) } }

/-- A BOOT record (R463). In recovery mode no image is booted, and the bytes that would name it are open. -/
def State.bootRecord (s : State) (result : Nat) (n : Bool) : State :=
  let img := s.sec.img.at (imgPlace n)
  let (free, s) := s.drawBytes 6
  let subject := if result = 2 then (free.getD 0 0).toNat else bit n
  let level := if result = 2 then [free.getD 1 0] else bvBytes 1 img.rbLevel
  let version := if result = 2 then free.drop 2 else bvBytes 4 img.version
  s.studbook 0x02 subject (leBytes 1 result ++ bvBytes 1 s.sec.rbCount ++ level ++ bvBytes 1 s.pctl.mode ++ version ++
    bvBytes 1 (s.sec.img.at 0).reason ++ bvBytes 1 (s.sec.img.at 1).reason)

/-- A boot ends: with `result` 0 PREFERRED or 1 FALLBACK image `n` runs, with 2 the boot ROM serves the rings (R457, R458). -/
def State.bootEnds (s : State) (result : Nat) (n : Bool) : State :=
  let mode : BitVec 2 := if result = 2 then 2 else if s.pctl.bootTest then 1 else 0
  let s := { s with
    pctl := { s.pctl with mode := mode }
    sec := { s.sec with
      result := BitVec.ofNat 2 result, running := if result = 2 then s.sec.running else n, recovery := result == 2, booted := true } }
  let s := if result = 2 then s else s.copyCode n
  let s := s.releasePair0.joinNets
  let s := if result = 1 then s.secEvent 3 else s
  let s := s.bootRecord result n
  if s.pwr.startDue then (s.onPwr (fun p => { p with startDue := false })).startLevel s.pwr.cfg.startLevel none else s

/-- The images are tried in the order of R457. -/
def State.bootImages (s : State) (ue0 ue1 : Option (Fin 0x600000)) : State :=
  let ue (n : Bool) := if n then ue1 else ue0
  let first := s.sec.bootSel
  let (s, r) := s.verifyImage first (ue first)
  if r = 0 then s.bootEnds 0 first
  else
    let (s, r) := s.verifyImage (!first) (ue (!first))
    if r = 0 then s.bootEnds 1 (!first) else s.bootEnds 2 first

/-- BOOT (R457; 14 R391): the boot ROM runs, once at each start-up that boots. -/
def execBoot (comparatorCode : BitVec 8) (ue0 ue1 : Option (Fin 0x600000)) (s : State) : Host.Outcome State Fault Refusal :=
  answer s (
    let code := comparatorCode.toNat
    if !(s.sec.bootDue && s.isl.coreA && s.isl.mem) || !(code == 0 || within 0x20 0x5F code) then s
    else
      let s := { s with sec := { s.sec with bootDue := false } }
      if code ≠ 0 then s.comparatorsFailed comparatorCode
      else
        State.bootImages { s with
          pctl := { s.pctl with bootCode := 0, split := s.pctl.bootSplit }, sec := { s.sec with test := s.pctl.bootTest } } ue0 ue1)

-- Image commands (R459).

/-- An image runs now. -/
def State.runs (s : State) (n : Bool) : Bool := s.sec.booted && !s.sec.recovery && s.sec.running == n

/-- What IMAGE_WRITE does (R459). -/
def imageWrite (c : Cmd) (data : List Byte) (s : State) : State :=
  let n := opByte c 0 == 1
  let off := opField c 4 4
  let len := opField c 0x10 4
  if 1 < opByte c 0 ∨ off % 16 ≠ 0 ∨ within 16 65536 len = false ∨ len % 16 ≠ 0 ∨ 0x600000 < off + len then s.badOperand c
  else if s.runs n then s.refuse c 0x0D01
  else
    let s := s.mramStore (codeBase n + off) (padTo len data)
    { s with sec := { s.sec with
        img := s.sec.img.upd (imgPlace n) (fun i => { i with st := 0, digest := 0 })
        waits := s.sec.waits ++ [{ cmd := c, addrs := codewordsOf (codeBase n + off) len, result := 0 }] } }

/-- IMAGE_WRITE (0x07; R459). It runs in recovery mode as well. -/
def execImageWrite (c : Cmd) (data : List Byte) (s : State) : Host.Outcome State Fault Refusal :=
  answer s (s.run c true (imageWrite c data))

/-- A SECURITY record of IMAGE_ACTIVATE (R463). -/
def State.activateRecord (s : State) (func : Nat) : State :=
  s.studbook 0x05 0x08 (leBytes 1 func ++ [0, 0, 0] ++ leBytes 4 s.sec.rbCount.toNat)

/-- The device restarts through the boot ROM (R459, R457). -/
def State.restart (s : State) : State :=
  let s := (s.rebooted true true).allIslands
  let s := { s with therm := { s.therm with level := 0 }, sec := { s.sec with bootDue := true } }
  s.halterStart s.halter.key.a s.halter.key.b

/-- What IMAGE_ACTIVATE does (R459). -/
def imageActivate (c : Cmd) (ue0 ue1 : Option (Fin 0x600000)) (s : State) : State :=
  let n := opByte c 0 == 1
  let ue (n : Bool) := if n then ue1 else ue0
  let func := opByte c 1
  if 3 < func ∨ (func ≠ 2 ∧ 1 < opByte c 0) then s.badOperand c
  else if func ≤ 1 then
    let (s, r) := s.verifyImage n (ue n)
    if r ≠ 0 then s.complete c stRefused (dwords 0x0D02 r 0 0)
    else if func = 0 then
      (State.activateRecord { s with sec := { s.sec with bootSel := n } } 0).ok c (dwords (bit n) 0 0 0)
    else s.ok c
  else if func = 2 then
    let level := (s.sec.img.at (imgPlace s.sec.running)).rbLevel
    if s.sec.recovery then s.refuse c 0x0D09
    else if level.toNat ≤ s.sec.rbCount.toNat then s.refuse c 0x0D08
    else
      let s := State.activateRecord { s with sec := { s.sec with rbCount := level } } 2
      let other := !s.sec.running
      let (s, r) := s.verifyImage other (ue other)
      s.ok c (dwords level.toNat (bit (r != 0)) 0 0)
  else if s.allOpen = false then s.refuse c 0x0D03
  else (s.activateRecord 3).restart

/-- IMAGE_ACTIVATE (0x08; R459). It runs in recovery mode as well. `ue0` and `ue1` say where a verification of an image meets an
uncorrectable error. -/
def execImageActivate (c : Cmd) (ue0 ue1 : Option (Fin 0x600000)) (s : State) : Host.Outcome State Fault Refusal :=
  answer s (s.run c true (imageActivate c ue0 ue1))

-- Attestation (R465).

/-- A key as 32 bytes, zeros for none. -/
def keyBytes (k : Option (BitVec 256)) : List Byte := leBytes 32 (k.getD 0).toNat

/-- MODE_FLAGS of a quote. -/
def State.modeFlags (s : State) : Nat :=
  bit s.pctl.split + 2 * bit s.sec.test + 4 * bit s.sec.recovery + 8 * bit (s.pctl.unlocked != 0) + 16 * bit s.halter.lockout +
  32 * bit ((places 32).any (fun i => (s.stalls.at i).oos)) + 64 * bit (s.bypassMask != 0) + 128 * bit s.cal.devChanged +
  256 * bit s.sec.owner.isSome + 512 * bit (!s.stb.faults.isEmpty)

/-- The quote without its signature. -/
def State.quoteBody (s : State) (nonce : Nat) : List Byte :=
  let i0 := s.sec.img.at 0
  let i1 := s.sec.img.at 1
  leBytes 4 0x901 ++ leBytes 4 464 ++ leBytes 6 s.oph ++ [0, 0] ++ leBytes 16 nonce ++ deviceKey ++ leBytes 4 s.clk.pcc ++
    leBytes 4 s.modeFlags ++ bvBytes 1 s.sec.rbCount ++ leBytes 1 (if s.sec.recovery then 0xFF else bit s.sec.running) ++
    bvBytes 1 i0.rbLevel ++ bvBytes 1 i1.rbLevel ++ bvBytes 1 i0.reason ++ bvBytes 1 i1.reason ++ [0, 0] ++ bvBytes 64 i0.digest ++
    bvBytes 64 i1.digest ++ s.configDigest ++ s.setDigest ++ keyBytes s.sec.owner ++ keyBytes s.sec.service

/-- ATTEST (0x09; R465). It runs in recovery mode as well. -/
def execAttest (c : Cmd) (s : State) : Host.Outcome State Fault Refusal :=
  answer s (s.run c true (fun s =>
    if aligned16 (opField c 0 8) then
      let body := s.quoteBody (opField c 0x10 16)
      (s.toHost (opField c 0 8) (body ++ deviceSign body)).ok c (dwords 464 0 0 0)
    else s.badOperand c))

-- The owner key (R464).

/-- The key against which an OWNER_KEY package of a kind is verified (R464). -/
def State.ownerVerifier (s : State) (kind : Nat) (new : BitVec 256) : Option (BitVec 256) :=
  if kind = 0xA01 then some new else if kind = 0xA03 then s.sec.service else s.sec.owner

/-- What OWNER_KEY does (R464). -/
def ownerKey (c : Cmd) (pkg : List Byte) (s : State) : State :=
  let kind := field pkg 0 4
  let seq := field pkg 4 4
  let new : BitVec 256 := BitVec.ofNat 256 (field pkg 0x10 32)
  if opField c 8 4 ≠ 112 ∨ pkg.length ≠ 112 ∨ aligned16 (opField c 0 8) = false ∨ within 0xA01 0xA04 kind = false ∨ packageHead kind pkg = false ∨
     (kind ≠ 0xA04 ∧ new = 0) then s.badOperand c
  else if kind = 0xA03 ∧ s.sec.service = none then s.refuse c 0x0D05
  else if packageSigned (s.ownerVerifier kind new) pkg = false then s.authFail c
  else if seq ≤ s.sec.ownerSeq.toNat then s.refuse c 0x0D04
  else if kind = 0xA01 ∧ s.sec.owner.isSome then s.refuse c 0x0D05
  else if kind = 0xA01 ∧ s.halter.key.press.isNone then s.refuse c 0x0D06
  else
    let service := if new = 0 then none else some new
    let s := { s with sec := if kind = 0xA04 then { s.sec with service := service, ownerSeq := BitVec.ofNat 32 seq }
      else { s.sec with owner := some new, ownerSeq := BitVec.ofNat 32 seq } }
    let print := if new = 0 then List.replicate 8 0 else (sha512 (leBytes 32 new.toNat)).take 8
    let s := (s.secEvent 1).studbook 0x05 0x0A (leBytes 1 (kind % 256) ++ [0, 0, 0] ++ leBytes 4 seq ++ print)
    s.ok c (dwords seq 0 0 0)

/-- OWNER_KEY (0x0A; R464). -/
def execOwnerKey (c : Cmd) (pkg : List Byte) (s : State) : Host.Outcome State Fault Refusal :=
  answer s (s.run c false (ownerKey c pkg))

end Sys2Proof.Machine
end

