-- ==== Sys2Proof/Machine/Arch.lean ====
section
/-! DEFINITION. The device as a whole (chapter 01; 20 R480): its supplies, the crossings, the checked clocks, the scrubber, and the faults of core accesses. -/

namespace Sys2Proof.Machine

-- The AON supply (20 R480; 13 R369, R376; 17 R446).

/-- The persistent state is loaded and the counters are restored before any logic island starts: the Weighbridge, the calibration,
the checkpoint, the studbook and the hours. -/
def State.loadPersistent (s : State) : State := s.loadWeighbridge.loadCalibration.loadCheckpoint.loadStudbook.restoreHours

/-- AON_POWER_ON: the AON supply appears, `SNS_SEL` is strapped, the contacts of the reset key read as given, and the regulator is
asked for P2. -/
def execAonPowerOn (snsExternal rstkA rstkB : Bool) (s : State) : Host.Outcome State Fault Refusal :=
  answer s (
    let s := s.powerOff
    let s := State.loadPersistent { s with isl := { s.isl with mem := true } }
    let s := { s with isl := { s.isl with mem := false }, swctl := { s.swctl with snsExt := snsExternal } }
    let s := s.onHalter (fun h => { h with key := { h.key with a := rstkA, b := rstkB } })
    (s.onPwr (fun p => { p with
      wake := some { step := 1, src := 9, check := false, boot := true, loud := false, since := s.clk.rtcTicks } })).ask .powerOn)

/-- AON_POWER_LOSS: what MRAM, OTP, the shielded store and SW-0 do not hold is lost. -/
def execAonPowerLoss (s : State) : Host.Outcome State Fault Refusal := answer s s.powerOff

-- Crossings (01 R19 to R22).

/-- A trip request or an insulation fault reaches the halter (08 R250). The detail goes at once where its condition has gone while
the entry waited. -/
def State.haltEntry (s : State) : XEntry → State
  | .trip k str =>
    let s := s.raiseDetail (tripDetail k) ⟨str.val, by omega⟩
    if (s.strs.at str).tripped.getLsbD (kindPlace k) then s else s.dropDetail (tripDetail k) str.val
  | .isoFault str =>
    let s := s.raiseDetail .isoFault ⟨str.val, by omega⟩
    if (s.strs.at str).iso.on ∧ s.strSt str ≠ .opened then s else s.dropDetail .isoFault str.val
  | .memFault => s.raiseDetail .protUe 0
  | .clockFault => s.raiseDetail .clock 0
  | _ => s

/-- A refresh entry reaches SW-1 (09 R283). -/
def State.takeEnables (s : State) (mask : BitVec 12) (cutoffClosed : Bool) : State :=
  ({ s with swctl := { s.swctl with enables := mask, cutoff := cutoffClosed, refreshAt := s.now } }).settleContactors

/-- CROSSING_DELIVER: the oldest entry of a crossing becomes visible to its reader, once the reader's island is ready (R20, R22). -/
def execCrossingDeliver (x : XChan) (s : State) : Host.Outcome State Fault Refusal :=
  answer s (match x with
    | .portToHalter p =>
      match s.cross.portToHalter.at p with
      | e :: rest =>
        if s.isl.halter then State.haltEntry { s with cross := { s.cross with portToHalter := s.cross.portToHalter.put p rest } } e else s
      | [] => s
    | .memToHalter =>
      match s.cross.memToHalter with
      | e :: rest => if s.isl.halter then State.haltEntry { s with cross := { s.cross with memToHalter := rest } } e else s
      | [] => s
    | .tbToHalter =>
      match s.cross.tbToHalter with
      | e :: rest => if s.isl.halter then State.haltEntry { s with cross := { s.cross with tbToHalter := rest } } e else s
      | [] => s
    | .halterToSw1 =>
      match s.cross.halterToSw1 with
      | .enables mask closed :: rest => State.takeEnables { s with cross := { s.cross with halterToSw1 := rest } } mask closed
      | _ :: rest => { s with cross := { s.cross with halterToSw1 := rest } }
      | [] => s
    | .toRecorder =>
      match s.cross.toRecorder with
      | .studbook t sub d time :: rest =>
        if s.isl.mem then
          State.recorderTakes { s with cross := { s.cross with toRecorder := rest } } { trigger := t, subject := sub, detail := d, time := time, occur := 1 }
        else s
      | _ :: rest => if s.isl.mem then { s with cross := { s.cross with toRecorder := rest } } else s
      | [] => s)

-- Clock checks (01 R23; 08 R250).

/-- The windows of a clock. -/
def Clocks.get (c : Clocks) : ClkId → ClockWin
  | .coreA => c.coreA
  | .tb => c.tb
  | .port p => c.port.at p
  | .halter => c.halter

/-- The windows with those of a clock replaced. -/
def Clocks.set (c : Clocks) (k : ClkId) (w : ClockWin) : Clocks :=
  match k with
  | .coreA => { c with coreA := w }
  | .tb => { c with tb := w }
  | .port p => { c with port := c.port.put p w }
  | .halter => { c with halter := w }

/-- A clock's windows after one more: two outside in a row make it faulty, two inside in a row make it good again. -/
def ClockWin.next (w : ClockWin) (inside : Bool) : ClockWin :=
  if inside then
    let good := min 2 (w.good + 1)
    { good := good, bad := if w.bad < 2 ∨ 2 ≤ good then 0 else 2 }
  else { good := 0, bad := min 2 (w.bad + 1) }

/-- A clock stands outside its window. -/
def Clocks.faulty (c : Clocks) : Bool :=
  c.coreA.bad == 2 || c.tb.bad == 2 || c.halter.bad == 2 || c.port.toList.any (fun w => w.bad == 2)

/-- A window of a clock is judged: its island and the one that checks it run, and no run-level change is in progress for the core
clock. -/
def State.judges (s : State) : ClkId → Bool
  | .coreA => s.isl.halter && s.isl.coreA && !s.pwr.levelBusy
  | .tb => s.isl.halter && s.isl.tb
  | .port p => s.isl.halter && s.isl.port.at p
  | .halter => s.isl.halter && s.isl.tb

/-- CLOCK_CHECK_WINDOW: a 1 ms window ends, the clock having run at so many thousandths of its nominal frequency. -/
def execClockCheckWindow (k : ClkId) (permille : Nat) (s : State) : Host.Outcome State Fault Refusal :=
  answer s (if s.judges k then
    let before := s.clocks.get k
    let after := before.next (within 750 1250 permille)
    let s := { s with clocks := s.clocks.set k after }
    if after.bad = 2 ∧ before.bad ≠ 2 then
      match k with
      | .halter => { s with cross := { s.cross with tbToHalter := s.cross.tbToHalter ++ [.clockFault] } }
      | _ => s.raiseDetail .clock 0
    else if after.good = 2 ∧ s.clocks.faulty = false then s.clearDetail .clock
    else s
  else s)

-- ECC and scrubbing (01 R30 to R35).

/-- The ECC bank of a byte of SRAM, and its offset within the bank. -/
def sramBank (key : Nat) : Fin 32 × Nat :=
  if key < 0x200000 then (idx 32 (by decide) (key / 0x20000), key % 0x20000)
  else (idx 32 (by decide) (16 + (key - 0x200000) / 0x80000), (key - 0x200000) % 0x80000)

/-- The ECC bank of a byte of MRAM, and its offset within the bank. -/
def mramBank (addr : Nat) : Fin 32 × Nat := (idx 32 (by decide) (24 + addr / 0x400000), addr % 0x400000)

/-- A cell is initialised anew because its data were lost (06 R181, R191). -/
def State.reinitCell (s : State) (cell : Nat) : State :=
  let u : Fin 128 := idx 128 (by decide) (cell / 16)
  let s := s.onEst u (fun x => { x with cells := x.cells.upd (idx 16 (by decide) cell) (fun c => { c with live := false }) })
  { s with
    est := { s.est with lastCell := BitVec.ofNat 11 cell, reinitCnt := satAdd 0xFFFF s.est.reinitCnt 1 }
    evt := { s.evt with est := setBit s.evt.est 3 } }

/-- An uncorrectable error that the scrubber finds, with the consequences that the owner of the region states (06 R181; 13 R379). -/
def State.scrubError (s : State) (bank : Fin 32) (off : Nat) : State :=
  let s := s.memoryError .scrubber bank off
  if 30 ≤ bank.val then s.recorderFault 2 (((bank.val - 30) * 0x400000 + off) / 256)
  else if bank.val = 22 ∨ bank.val = 23 then s.reinitCell (Config.workCell ((bank.val - 22) * 0x80000 + off) % 2048)
  else s

/-- SCRUB_READ: the next codeword of SRAM or MRAM is read, in Run and Idle. -/
def execScrubRead (inMram : Bool) (found : EccRead) (s : State) : Host.Outcome State Fault Refusal :=
  answer s (if s.isl.mem = true ∧ (s.pwr.st = .run ∨ s.pwr.st = .idle) then
    let (bank, off) := if inMram then mramBank (16 * s.mem.scrubMram) else sramBank (16 * s.mem.scrubSram)
    let s := { s with mem :=
      if inMram then { s.mem with scrubMram := (s.mem.scrubMram + 1) % 0x200000 } else { s.mem with scrubSram := (s.mem.scrubSram + 1) % 0x60000 } }
    match found with
    | .clean => s
    | .correctable => { s with mem := s.mem.countCorrected bank }
    | .uncorrectable => s.scrubError bank off
  else s)

/-- CLR of `ECC_CNT_n` (R35). -/
def State.clearEcc (s : State) (bank : Fin 32) : State := { s with mem := { s.mem with ecc := s.mem.ecc.put bank {} } }

/-- ECC_CNT_CLR (R35). -/
def execEccCntClr (bank : Fin 32) (s : State) : Host.Outcome State Fault Refusal := answer s (s.clearEcc bank)

-- Core accesses (01 R25, R28; 06 R181).

/-- An access raises an access fault in its core. -/
def State.faultCore (s : State) (core : Fin 16) : State := { s with misc := { s.misc with coreFault := s.misc.coreFault.put core true } }

/-- An address lies in a core's map (R25). -/
def inCoreMap (addr : Nat) : Bool :=
  decide (addr < 0x20000) || within 0x20000000 0x203FFFFF addr || within 0x40000000 0x41FFFFFF addr || within 0x60000000 0x6000FFFF addr

/-- A store by a core that is discarded with an access fault: into MRAM, whose regions name no core as their writer (R28), and into
the estimator's working store (06 R181). -/
def storeDenied (addr : Nat) : Bool := within 0x40000000 0x41FFFFFF addr || within 0x20300000 0x203FFFFF addr

/-- ACCESS_FAULT (R25, R28). -/
def execAccessFault (core : Fin 16) (addr : BitVec 32) (write : Bool) (s : State) : Host.Outcome State Fault Refusal :=
  answer s (if !inCoreMap addr.toNat || (write && storeDenied addr.toNat) then s.faultCore core else s)

/-- CORE_NARROW_ACCESS (00 R8). -/
def execCoreNarrowAccess (core : Fin 16) (_off : BitVec 16) (s : State) : Host.Outcome State Fault Refusal := answer s (s.faultCore core)

end Sys2Proof.Machine
end

