-- ==== Sys2Proof/Machine/Registers.lean ====
section
/-! DEFINITION. Accesses to the registers (00 R8 to R14; chapter 19): writes field by field, selectors, captures, what the host may not do, and the commands of chapter 19. Also what a debugger writes (14 R396, R397). -/

namespace Sys2Proof.Machine

-- Selectors and shadows of a view (00 R12, R13; 10 R323).

/-- The selectors of a view. -/
def State.selOf (s : State) : View → Sel
  | .host => s.misc.sel
  | .core c => s.misc.coreSel.at c

/-- The state with the selectors of a view replaced. -/
def State.putSel (s : State) (view : View) (x : Sel) : State :=
  match view with
  | .host => { s with misc := { s.misc with sel := x } }
  | .core c => { s with misc := { s.misc with coreSel := s.misc.coreSel.put c x } }

/-- The shadows of a view. -/
def State.shOf (s : State) : View → Shadows
  | .host => s.misc.sh
  | .core c => s.misc.coreSh.at c

/-- The state with the shadows of a view replaced. -/
def State.putSh (s : State) (view : View) (x : Shadows) : State :=
  match view with
  | .host => { s with misc := { s.misc with sh := x } }
  | .core c => { s with misc := { s.misc with coreSh := s.misc.coreSh.put c x } }

/-- The unit position that the selectors of a view name. -/
def Sel.pos (x : Sel) : Fin 128 := unitPos x.stall x.unit

/-- Selectors after a write to the selector at an offset: reserved bits are discarded, and a value outside the range is ignored
(R10, R12). -/
def Sel.write (x : Sel) (off : Nat) (v : Word) : Sel :=
  let put (n bits : Nat) (f : Fin n → Sel) : Sel :=
    let k := v.toNat % 2 ^ bits
    if h : k < n then f ⟨k, h⟩ else x
  match off with
  | 0x0800 => put 12 4 (fun k => { x with tsens := k })
  | 0x0C00 => put 16 4 (fun k => { x with ring := k })
  | 0x1000 => put 32 5 (fun k => { x with stall := k })
  | 0x1004 => put 4 2 (fun k => { x with unit := k })
  | 0x1C00 => put 4 2 (fun k => { x with str := k })
  | 0x2000 => put 24 5 (fun k => { x with swc := k })
  | 0x3400 => put 8 3 (fun k => { x with pair := k })
  | _ => x

/-- A selector write of a view. -/
def State.writeSel (s : State) (view : View) (off : Nat) (v : Word) : State := s.putSel view ((s.selOf view).write off v)

/-- SELECTOR_WRITE (R12, R13). -/
def execSelectorWrite (view : View) (off : BitVec 16) (v : Word) (s : State) : Host.Outcome State Fault Refusal :=
  answer s (s.writeSel view off.toNat v)

-- The registers that take a write (00 R9).

/-- The bits of an event register that a W1C write leaves. -/
def w1c {w : Nat} (x : BitVec w) (v : Word) : BitVec w := x &&& ~~~ v.setWidth w

/-- The event registers at an offset after a W1C write (R9). -/
def Evts.clear (e : Evts) (off : Nat) (v : Word) : Evts :=
  match off with
  | 0x0404 => { e with pwr := w1c e.pwr v }
  | 0x0808 => { e with th := w1c e.th v }
  | 0x1014 => { e with stall := w1c e.stall v }
  | 0x1018 => { e with integ := w1c e.integ v }
  | 0x1408 => { e with trip := w1c e.trip v }
  | 0x148C => { e with time := w1c e.time v }
  | 0x1804 => { e with est := w1c e.est v }
  | 0x1C08 => { e with str := w1c e.str v }
  | 0x200C => { e with swc := w1c e.swc v }
  | 0x2408 => { e with hlt := w1c e.hlt v }
  | 0x2804 => { e with stb := w1c e.stb v }
  | 0x2C04 => { e with wb := w1c e.wb v }
  | 0x3004 => { e with cal := w1c e.cal v }
  | 0x3408 => { e with pair := w1c e.pair v }
  | 0x3C04 => { e with sec := w1c e.sec v }
  | 0x4020 => { e with aged := w1c e.aged v }
  | 0x4470 => { e with memUe := e.memUe && !v.getLsbD 9 }
  | _ => e

/-- The offsets at which `Evts.clear` acts. -/
def evtOffsets : List Nat :=
  [0x0404, 0x0808, 0x1014, 0x1018, 0x1408, 0x148C, 0x1804, 0x1C08, 0x200C, 0x2408, 0x2804, 0x2C04, 0x3004, 0x3408, 0x3C04, 0x4020, 0x4470]

/-- The offsets of the selectors (00, Selectors). -/
def selOffsets : List Nat := [0x0800, 0x0C00, 0x1000, 0x1004, 0x1C00, 0x2000, 0x3400]

/-- A write to `EVT_EN`: the vector is sent when it enables a bit that already reads 1 (19 R473). -/
def State.writeEvtEn (s : State) (v : Word) : State :=
  let en : BitVec 20 := v.setWidth 20
  let newly := en &&& ~~~ s.evt.en &&& evtSum s.evt
  let s := { s with evt := { s.evt with en := en } }
  if newly = 0 then s else s.sendVector s.evtVector

/-- EVT_EN_WRITE (19 R473). -/
def execEvtEnWrite (v : Word) (s : State) : Host.Outcome State Fault Refusal := answer s (s.writeEvtEn v)

/-- A write to `HIF_CTRL` (02 R50, R57): polling that begins starts at the 2 µs gap. -/
def State.writeHifCtrl (s : State) (v : Word) : State :=
  let on := v.getLsbD 0
  let starts := on && !s.hif.pollEn
  let s := { s with hif := { s.hif with pollEn := on, evtVec := v.extractLsb' 8 5 } }
  if starts then s.pollAgain else s

/-- A write to `PAIR_CTRL` by a core (14 R388, R396): START, then STOP, then DONE. -/
def State.writePairCtrl (s : State) (core : Fin 16) (v : Word) : State :=
  let s := (places 8).foldl (fun s p => if v.getLsbD p.val then s.startPair core p else s) s
  let s := (places 8).foldl (fun s p => if v.getLsbD (8 + p.val) then s.stopPair core p else s) s
  if v.getLsbD 16 then s.pairDone core else s

/-- A write to the four yard weights (11 R327). -/
def Yard.writeWeight (y : Yard) (off : Nat) (v : Word) : Yard :=
  match off with
  | 0x4004 => { y with weight0 := v }
  | 0x4008 => { y with weight1 := v }
  | 0x400C => { y with weight2 := v }
  | 0x4010 => { y with weight3 := v.setWidth 4 }
  | _ => y

/-- A write to a word of the MSI-X table (02 R75, R76): address low and high, data, and the mask bit. -/
def State.writeMsix (s : State) (off : Nat) (v : Word) : State :=
  let k : Fin 32 := idx 32 (by decide) (off / 16)
  if off % 16 = 0 then { s with msix := s.msix.upd k (fun e => { e with addr := e.addr.extractLsb' 32 32 ++ v }) }
  else if off % 16 = 4 then { s with msix := s.msix.upd k (fun e => { e with addr := v ++ e.addr.extractLsb' 0 32 }) }
  else if off % 16 = 8 then { s with msix := s.msix.upd k (fun e => { e with data := v }) }
  else if v.getLsbD 0 then { s with msix := s.msix.upd k (fun e => { e with masked := true }) }
  else s.unmask k

/-- A write to a register that only a core can write (19, index): `PWR_REQ`, `HLT_HB`, `PAIR_CTRL` and `PAIR_ENTRY`. -/
def State.writeCoreReg (s : State) (core : Fin 16) (off : Nat) (v : Word) : State :=
  match off with
  | 0x0424 => s.writePwrReq core v
  | 0x2420 => s.writeHeartbeat (.core core) v
  | 0x3414 => s.writePairCtrl core v
  | 0x3430 => if core = 0 then s.onPair (s.misc.coreSel.at core).pair (fun x => { x with entry := v.extractLsb' 1 31 }) else s
  | _ => s

/-- The offsets of the registers that only a core can write. -/
def coreOffsets : List Nat := [0x0424, 0x2420, 0x3414, 0x3430]

/-- A write to the rings block, beyond its selector (02). -/
def State.writeRings (s : State) (view : View) (off : Nat) (v : Word) : State :=
  let r := (s.selOf view).ring
  match off with
  | 0x0C04 => s.writeDbBase view false v
  | 0x0C08 => s.writeDbBase view true v
  | 0x0C0C => s.writeHifCtrl v
  | 0x0C10 => if v.getLsbD 8 && s.evt.dbErr then s.clearDbErr else s
  | 0x0C20 => s.writeRingCfg view r v
  | 0x0C24 => s.writeRingBase view r true true off v
  | 0x0C28 => s.writeRingBase view r true false off v
  | 0x0C2C => s.writeRingBase view r false true off v
  | 0x0C30 => s.writeRingBase view r false false off v
  | 0x0C34 => s.onRing r (fun x => { x with coalCount := v.extractLsb' 0 8, coalTime := v.extractLsb' 16 10 })
  | 0x0C38 => { s with evt := { s.evt with ring := s.evt.ring.upd r (fun b => b &&& ~~~ v.extractLsb' 3 4) } }
  | _ => s.viewError view .notWritable off

/-- The offsets at which `State.writeRings` acts. -/
def ringOffsets : List Nat := [0x0C04, 0x0C08, 0x0C0C, 0x0C10, 0x0C20, 0x0C24, 0x0C28, 0x0C2C, 0x0C30, 0x0C34, 0x0C38]

/-- A write to a register with a WO or RW field outside the rings block, or with a W1C bit that is no event register; a register
that takes no write records the host's access (R9; 19 R474). -/
def State.writeOther (s : State) (view : View) (off : Nat) (v : Word) : State :=
  let x := s.selOf view
  match off with
  | 0x102C => if v.getLsbD 31 then s.clearStallErr x.stall else s
  | 0x1460 => if v.getLsbD 31 then s.clearAlign x.pos else s
  | 0x1488 => { s with clk := { s.clk with ytUnc := s.clk.ytUnc && !v.getLsbD 0 } }
  | 0x2424 => s.writeHostReq v
  | 0x4004 | 0x4008 | 0x400C | 0x4010 => { s with yard := s.yard.writeWeight off v }
  | 0x4014 => if v.getLsbD 31 then s.clearMaxwait else s
  | 0x4034 => if v.getLsbD 31 then s.clearMaxlat else s
  | 0x4404 => s.writeEvtEn v
  | 0x4408 =>
    if v.getLsbD 0 then
      { s with evt := { s.evt with acc := false }, misc := { s.misc with accErr := { s.misc.accErr with count := 0 } } }
    else s
  | _ =>
    if 0x4480 ≤ off ∧ off < 0x4500 then (if v.getLsbD 31 then s.clearEcc (idx 32 (by decide) ((off - 0x4480) / 4)) else s)
    else if 0x8000 ≤ off ∧ off < 0x8200 then s.writeMsix (off - 0x8000) v
    else s.viewError view .notWritable off

/-- An aligned 32-bit write of a view to a BAR0 offset (R9, R10; chapter 19). -/
def State.writeReg (s : State) (view : View) (off : Nat) (v : Word) : State :=
  if selOffsets.contains off then s.writeSel view off v
  else if evtOffsets.contains off then { s with evt := s.evt.clear off v }
  else if ringOffsets.contains off then s.writeRings view off v
  else if coreOffsets.contains off then
    match view with
    | .core c => s.writeCoreReg c off v
    | .host => if off = 0x2420 then s.writeHeartbeat .host v else s.accError .notWritable off
  else s.writeOther view off v

-- Accesses that are narrow or unaligned (00 R8).

/-- An access that is narrow or unaligned: recorded for the host, a fault in a core. -/
def State.narrow (s : State) (view : View) (bar : Bar) (off : Nat) : State :=
  match view with
  | .host => s.accError (if bar = .bar0 then .narrow0 else .narrow2) off
  | .core c => s.faultCore c

/-- HOST_NARROW_ACCESS (00 R8; 19 R474). -/
def execHostNarrowAccess (bar : Bar) (off : BitVec 16) (s : State) : Host.Outcome State Fault Refusal :=
  answer s (s.narrow .host bar off.toNat)

-- Writes and reads.

/-- A write to `POLL_NUDGE` (02 R58, R60): an early poll, or a wake from Rest. -/
def State.nudge (s : State) : State :=
  if s.pwr.st = .rest then s.wakeSource 7
  else if s.polling then { s with hif := { s.hif with nudge := true } }
  else s

/-- POLL_NUDGE (02 R58). -/
def execPollNudge (_v : Word) (s : State) : Host.Outcome State Fault Refusal := answer s s.nudge

/-- REGISTER_WRITE (00 R9; 02 R46): an aligned write of a view. BAR2 is the host's only. -/
def execRegisterWrite (view : View) (bar : Bar) (off : BitVec 16) (v : Word) (s : State) : Host.Outcome State Fault Refusal :=
  answer s (if off.toNat % 4 ≠ 0 then s.narrow view bar off.toNat
  else match bar, view with
    | .bar0, _ => s.writeReg view off.toNat v
    | .bar2, .host => if off = 0 then s.nudge else s.accError .bar2Write off.toNat
    | .bar2, .core _ => s)

/-- The BAR0 offset that a BAR2 offset mirrors (02 R46). -/
def mirrorOf (off : Nat) : Option Nat :=
  match off with
  | 0x004 => some 0x0000
  | 0x008 => some 0x0C10
  | 0x00C => some 0x0C18
  | 0x010 => some 0x1480
  | 0x014 => some 0x1484
  | _ => none

/-- SHADOW_CAPTURE_READ (10 R323; 02 R46; 19 R470): an aligned read of a view; that of a _LO register captures its partner. -/
def execShadowCaptureRead (view : View) (bar : Bar) (off : BitVec 16) (s : State) : Host.Outcome State Fault Refusal :=
  answer s (
    let target : Option Nat := match bar, view with
      | .bar0, _ => some off.toNat
      | .bar2, .host => mirrorOf off.toNat
      | .bar2, .core _ => none
    if off.toNat % 4 ≠ 0 then
      match view with
      | .host => (s.narrow view bar off.toNat).emit (.busRead 0)
      | .core _ => s.narrow view bar off.toNat
    else match target with
      | some o =>
        let sel := s.selOf view
        let sh := s.shOf view
        (s.putSh view (s.captured sel sh o)).emit (.busRead (s.readReg sel sh o))
      | none => s.emit (.busRead 0))

-- Chapter 19.

/-- IDENTIFY (0x01; R471). It runs in recovery mode as well. -/
def execIdentify (c : Cmd) (s : State) : Host.Outcome State Fault Refusal :=
  answer s (s.run c true (fun s =>
    if aligned16 (opField c 8 8) then
      let sh : Shadows := { serial := hi32 Config.serial.toNat }
      let regs := (List.range 8).flatMap (fun k => bvBytes 4 (regIdentity sh (4 * k)))
      (s.toHost (opField c 8 8) (regs ++ deviceKey)).ok c (dwords 64 0 0 0)
    else s.badOperand c))

/-- CAN_BUS_OFF_RECOVERY (R472): a controller in bus-off rejoins. -/
def execCanBusOffRecovery (ctl : Fin 4) (s : State) : Host.Outcome State Fault Refusal :=
  answer s (if (s.net.can.at ctl).st = 2 then
    { s with net := { s.net with can := s.net.can.upd ctl (fun c => { c with st := 0, tec := 0, rec_ := 0 }) } }
  else s)

/-- ETH_LINK_CHANGE (R472): the in-band status of an enabled MAC changes; SPEED 3 says that there is no link. -/
def execEthLinkChange (m : Fin 2) (link : Bool) (speed : BitVec 2) (s : State) : Host.Outcome State Fault Refusal :=
  answer s (if s.sec.booted && s.isl.net && (!link || speed != 3) then
    { s with net := { s.net with eth := s.net.eth.upd m (fun x => { x with link := link, speed := if link then speed else 3 }) } }
  else s)

-- What a debugger writes (14 R396, R397).

/-- A debugger's write to a register of the hart or to its TCM: to both cores in joint mode, to the main core and into the replay
buffer in inspect mode, to the named core in split mode. A write that would be the 4097th entry is not performed. -/
def State.debugLocal (s : State) (p : Fin 8) (second : Bool) (w : DbgWrite) : State :=
  let apply_ (s : State) (core : Nat) : State :=
    match w with
    | .tcm addr v => s.sramStore (tcmKey core addr) (bvBytes 4 v)
    | _ => s
  let main := 2 * p.val
  if s.pctl.split then apply_ s (if second then main + 1 else main)
  else if !s.inspect p then apply_ (apply_ s main) (main + 1)
  else if 4096 ≤ (s.pairs.at p).replay.length then (s.onPair p (fun x => { x with full := true })).pairEvent 25
  else (apply_ s main).onPair p (fun x => { x with replay := x.replay ++ [w] })

/-- A debugger's write outside the TCM: shared SRAM has one copy, the register window acts as the main core's view, and a store into
MRAM or into the estimator's working store is discarded. -/
def State.debugOther (s : State) (p : Fin 8) (addr : Nat) (v : Word) : State :=
  if addr % 4 ≠ 0 || storeDenied addr then s
  else if within 0x20000000 0x203FFFFF addr then s.sramStore (0x200000 + (addr - 0x20000000)) (bvBytes 4 v)
  else if within 0x60000000 0x6000FFFF addr then s.writeReg (.core ⟨2 * p.val, by omega⟩) (addr - 0x60000000) v
  else s

/-- DEBUG_WRITE (14 R396, R397): of a pair that an unlock in force covers; a register or the TCM only while it is halted. -/
def execDebugWrite (p : Fin 8) (second : Bool) (w : DbgWrite) (s : State) : Host.Outcome State Fault Refusal :=
  answer s (
    let st := (s.pairs.at p).st
    let halted := st == .dbgHalt || st == .fault || st == .failed
    if !s.debugs p then s
    else match w with
      | .other addr v => s.debugOther p addr.toNat v
      | w => if halted then s.debugLocal p second w else s)

end Sys2Proof.Machine
end

