-- ==== Sys2Proof/Machine/Thermal.lean ====
section
/-! DEFINITION. Thermal management (chapter 16): sensors and their substitutes, thresholds, the throttle level, shut-down and restart. Temperatures are in 0.25 °C. -/

namespace Sys2Proof.Machine

/-- The warning threshold and where it clears, the throttle threshold and where it clears, and the shut-down threshold (R431). -/
def warnAt : Int := 420
/-- 100 °C. -/
def warnClear : Int := 400
/-- 115 °C. -/
def throttleAt : Int := 460
/-- 107 °C. -/
def throttleClear : Int := 428
/-- 135 °C. -/
def shutAt : Int := 540

/-- The state with the thermal part changed. -/
def State.onTherm (s : State) (f : Therm → Therm) : State := { s with therm := f s.therm }
/-- The state with a sensor changed. -/
def State.onSensor (s : State) (n : Fin 12) (f : Sensor → Sensor) : State := s.onTherm (fun t => { t with sensor := t.sensor.upd n f })
/-- Bits of `TH_EVT`: 0 WARN_CHG, 1 THR_CHG, 2 SENSOR_FAIL, 3 DEGRADED, 4 RESTART. -/
def State.thEvent (s : State) (n : Nat) : State := { s with evt := { s.evt with th := setBit s.evt.th n } }

/-- A THERMAL record (R437): its cluster, KIND, the sensor concerned with its last raw reading, T_MAX and L. The reading of a
record that concerns no sensor is left open. -/
def State.thermalRecord (s : State) (cluster : Fin 4) (kind : Nat) (n : Option (Fin 12)) : State :=
  let (k, s) := s.draw
  let (who, raw) : List Byte × List Byte := match n with
    | some n => (leBytes 1 n.val, sBytes 2 (s.therm.sensor.at n).reading)
    | none => ([0xFF], leBytes 2 (Config.freeNat k))
  s.studbook 0x08 cluster.val (leBytes 1 kind ++ who ++ raw ++ sBytes 2 s.therm.tMax ++ leBytes 1 s.therm.level)

/-- The sensors run: in Run and Idle, and during a shut-down (R427). -/
def State.sensorsRun (s : State) : Bool := s.isl.halter && (s.pwr.st == .run || s.pwr.st == .idle)

-- Sensors (R427 to R430).

/-- The sensors of a cluster. -/
def sensorsOf (c : Fin 4) : List (Fin 12) := (places 12).filter (fun n => clusterOf n == c)
/-- The neighbours of a sensor, the lower-numbered one first. -/
def neighbours (n : Fin 12) : List (Fin 12) := (sensorsOf (clusterOf n)).filter (fun m => m != n)
/-- The healthy sensors of a cluster. -/
def Therm.healthy (t : Therm) (c : Fin 4) : List (Fin 12) := (sensorsOf c).filter (fun n => !(t.sensor.at n).failed)
/-- OFS(a, b). -/
def Therm.ofs (t : Therm) (a b : Fin 12) : Rat :=
  if (neighbours a).head? = some b then (t.sensor.at a).ofsLo else (t.sensor.at a).ofsHi

/-- The offset of a die sensor in the device section (12 R348), in 0.25 °C. -/
def CalDev.sensorOffset (d : CalDev) (n : Fin 12) : Rat :=
  match d.device with
  | some body => 4 * (f32Field body (0x120 + 4 * n.val - 0x10)).getD 0
  | none => 0

/-- The hotter of two sensors, the first where they are equal. -/
def Therm.hotter (t : Therm) (a b : Fin 12) : Fin 12 := if (t.sensor.at a).reading < (t.sensor.at b).reading then b else a

/-- The sensor that a failed sensor is replaced by (R429): the hotter of its healthy neighbours. -/
def Therm.substitute (t : Therm) (n : Fin 12) : Option (Fin 12) :=
  match (neighbours n).filter (fun m => !(t.sensor.at m).failed) with
  | [] => none
  | m :: rest => some (rest.foldl t.hotter m)

/-- The effective reading of a sensor, and its substitute's source (R428, R429). With no healthy neighbour it stays. -/
def Therm.effective (t : Therm) (n : Fin 12) : Sensor :=
  let x := t.sensor.at n
  if x.failed then
    match t.substitute n with
    | some b => { x with eff := roundFree (((t.sensor.at b).reading : Rat) + t.ofs n b), subst := BitVec.ofNat 4 b.val }
    | none => x
  else if x.disSince.isSome then { x with eff := x.held }
  else { x with eff := x.reading }

/-- The highest effective reading and its sensor, the lowest-numbered of equals. -/
def Therm.hottest (t : Therm) : Int × Fin 12 :=
  (places 12).foldl (fun m n => if m.1 < (t.sensor.at n).eff then ((t.sensor.at n).eff, n) else m) ((t.sensor.at 0).eff, 0)

/-- T_MAX (R430): the highest effective reading, at least 115 °C while a cluster is degraded, 135 °C with three failed. -/
def Therm.measure (t : Therm) : Therm :=
  let t := { t with sensor := Vector.ofFn t.effective }
  let (m, n) := t.hottest
  let floor_ : Int := if (places 4).any (fun c => 3 ≤ t.failedIn c) then max shutAt m
    else if (places 4).any (fun c => 2 ≤ t.failedIn c) then max throttleAt m else m
  { t with tMax := floor_, hot := BitVec.ofNat 4 n.val }

/-- The sensor that gives T_MAX. -/
def Therm.hotSensor (t : Therm) : Fin 12 := idx 12 (by decide) t.hot.toNat

/-- The comparison with the warning threshold (R431). -/
def State.judgeWarn (s : State) : State :=
  let t := s.therm
  let now := if t.warn then decide (warnClear ≤ t.tMax) else decide (warnAt ≤ t.tMax)
  if now = t.warn then s
  else
    let s := (s.onTherm (fun t => { t with warn := now })).thEvent 0
    s.thermalRecord (clusterOf t.hotSensor) (if now then 3 else 4) (some t.hotSensor)

/-- The comparison with the throttle threshold (R431, R432). -/
def State.judgeThrottle (s : State) : State :=
  let t := s.therm
  let now := if t.throttle then decide (throttleClear ≤ t.tMax) else decide (throttleAt ≤ t.tMax)
  if now = t.throttle then s
  else
    let s := (s.onTherm (fun t => { t with
      throttle := now, level := if now then max 1 t.level else t.level, thrCnt := if now then satAdd 0xFFFF t.thrCnt 1 else t.thrCnt })).thEvent 1
    s.thermalRecord (clusterOf t.hotSensor) (if now then 5 else 6) (some t.hotSensor)

/-- T_MAX anew, and what follows from it: the thresholds, and the dwell below 100 °C of a shut-down (R431, R435). -/
def State.judgeTemp (s : State) : State :=
  let s := (s.onTherm Therm.measure).judgeWarn.judgeThrottle
  s.onTherm (fun t => { t with coolSince := if t.shutDown && decide (t.tMax < warnClear) then some (t.coolSince.getD s.now) else none })

-- Shut-down (R434 to R436).

/-- The votes that a cluster's call for shut-down needs (R434). -/
def votesNeeded (failed : Nat) : Nat := if failed = 0 then 2 else if failed = 3 then 0 else 1

/-- A cluster calls for shut-down (R434): the votes of failed sensors are ignored. -/
def Therm.calls (t : Therm) (c : Fin 4) : Bool :=
  decide (votesNeeded (t.failedIn c) ≤ ((t.healthy c).filter (fun n => (t.sensor.at n).vote)).length)

/-- A shut-down (R435, R436): the islands lose power, an entry or a wake ends without a completion, and the halter takes the
call. `n` is the sensor that completed it. -/
def State.shutDown (s : State) (n : Fin 12) : State :=
  if s.therm.shutDown then s
  else
    let s := s.onTherm (fun t => { t with shutDown := true, shutBy := n, shutCnt := satAdd 0xFF t.shutCnt 1, coolSince := none })
    let s := s.onPwr (fun p => { p with
      phase := 0, target := .run, entry := none, joined := [], pend := none, wake := none, pmbus := none, latched := none, levelBusy := false
      levelCmd := none })
    let s := { s with
      isl := { ({} : Islands) with tb := s.isl.tb, halter := s.isl.halter, portAt := s.isl.portAt }
      est := { s.est with running := false }, mem := { s.mem with sram := [] } }
    if s.halter.has .thermal 0 then s else s.raiseDetail .thermal 0

/-- A cluster's call is looked at. -/
def State.judgeCall (s : State) (n : Fin 12) : State := if s.therm.calls (clusterOf n) then s.shutDown n else s

/-- A sensor is failed (R428, R430, R437): its substitute, the event and the records; a cluster with two failed sensors is
degraded. -/
def State.failSensor (s : State) (n : Fin 12) : State :=
  if (s.therm.sensor.at n).failed then s
  else
    let c := clusterOf n
    let s := s.onSensor n (fun x => { x with failed := true, disSince := none, vote := false })
    let s := (s.onTherm Therm.measure).thEvent 2
    let s := s.thermalRecord c 1 (some n)
    let s := if s.therm.failedIn c = 2 then (s.thEvent 3).thermalRecord c 2 (some n) else s
    s.judgeTemp.judgeCall n

/-- The disagreement of a sensor starts, goes on or ends (R428): `held` is the reading before it. -/
def Sensor.disagree (x : Sensor) (now : Nat) (before : Int) (on : Bool) : Sensor :=
  if on then (if x.disSince.isSome then x else { x with disSince := some now, held := before }) else { x with disSince := none }

/-- The sensors of a cluster whose reading disagrees (R428): with three healthy ones those far from the median, with two the
cooler of a pair far apart. -/
def Therm.disagreeing (t : Therm) (c : Fin 4) : List (Fin 12) :=
  let r (n : Fin 12) : Int := (t.sensor.at n).reading
  match t.healthy c with
  | [a, b, d] =>
    let med := max (min (r a) (r b)) (min (max (r a) (r b)) (r d))
    [a, b, d].filter (fun n => decide (48 < (r n - med).natAbs))
  | [a, b] => if 48 < (r a - r b).natAbs then [if r a < r b then a else b] else []
  | _ => []

/-- SENSOR_READING_CHECK (R427, R428, R431): the readings of a millisecond arrive, before the offset of the device section. -/
def execSensorReadingCheck (readings : Bank 12 Int) (s : State) : Host.Outcome State Fault Refusal :=
  answer s (if !s.sensorsRun then s
  else
    let before := s.therm.sensor
    let s := s.onTherm (fun t => { t with sensor := t.sensor.each (fun n x =>
      let r := roundFree ((readings.at n : Rat) + s.cal.sensorOffset n)
      { x with reading := r, vote := x.vote && decide (shutAt ≤ r) }) })
    let wrong := (places 12).filter (fun n => (s.therm.sensor.at n).reading < -220 ∨ 700 < (s.therm.sensor.at n).reading)
    let s := wrong.foldl (fun s n => s.failSensor n) s
    let s := s.onTherm (fun t => { t with sensor := t.sensor.each (fun n x =>
      x.disagree s.now (before.at n).reading (!x.failed && (t.disagreeing (clusterOf n)).contains n)) })
    s.judgeTemp)

/-- SENSOR_FAIL (R428): out of range, or a disagreement of 1 s. -/
def execSensorFail (n : Fin 12) (s : State) : Host.Outcome State Fault Refusal :=
  answer s (
    let x := s.therm.sensor.at n
    let late : Bool := match x.disSince with | some t => decide (t + ticksPerS ≤ s.now) | none => false
    if s.sensorsRun ∧ (late ∨ x.reading < -220 ∨ 700 < x.reading) then s.failSensor n else s)

/-- A learned offset moves towards the difference of two readings, within ±12 °C (R429). -/
def learn (ofs : Rat) (a b : Int) : Rat :=
  let v := ofs + (((a - b : Int) : Rat) - ofs) / 64
  if v < -48 then -48 else if 48 < v then 48 else v

/-- OFFSET_LEARNING (R429): every second, in clusters whose sensors are all healthy and agree. -/
def execOffsetLearning (s : State) : Host.Outcome State Fault Refusal :=
  answer s (if !s.sensorsRun then s
  else
    s.onTherm (fun t => { t with sensor := t.sensor.each (fun n x =>
      let c := clusterOf n
      if t.failedIn c = 0 ∧ (sensorsOf c).all (fun m => (t.sensor.at m).disSince.isNone) then
        match neighbours n with
        | [lo, hi] => { x with
            ofsLo := learn x.ofsLo x.reading (t.sensor.at lo).reading, ofsHi := learn x.ofsHi x.reading (t.sensor.at hi).reading }
        | _ => x
      else x) }))

/-- THROTTLE_LEVEL_UPDATE (R432): every 10 ms. -/
def execThrottleLevelUpdate (s : State) : Host.Outcome State Fault Refusal :=
  answer s (if !s.sensorsRun then s
  else
    s.onTherm (fun t =>
      let least := if (places 4).any (fun c => 2 ≤ t.failedIn c) then 1 else 0
      let level := if t.throttle then (if throttleAt ≤ t.tMax then min 11 (t.level + 1) else t.level) else t.level - 1
      { t with level := max least level }))

/-- THROTTLE_PAUSE_END (R433): the paused work continues. A pause holds work back and changes nothing else, so its end leaves
the state as it is. -/
def execThrottlePauseEnd (s : State) : Host.Outcome State Fault Refusal := answer s s

/-- COMPARATOR_VOTE (R434). -/
def execComparatorVote (n : Fin 12) (s : State) : Host.Outcome State Fault Refusal :=
  answer s (if !s.sensorsRun || (s.therm.sensor.at n).failed then s
  else (s.onSensor n (fun x => { x with vote := true })).judgeCall n)

/-- THERMAL_RESTART (R435): T_MAX has been below 100 °C for 1 s. The device starts through the boot ROM with wake source 10,
and the records of the shut-down and of the restart wait for the recorder. -/
def execThermalRestart (s : State) : Host.Outcome State Fault Refusal :=
  answer s (
    let cool : Bool := match s.therm.coolSince with | some t => decide (t + ticksPerS ≤ s.now) | none => false
    if s.therm.shutDown && cool then
      let n := s.therm.shutBy
      let s := s.rebooted true false
      let s := { s with isl := { s.isl with mem := false } }
      let s := (s.onTherm (fun t => { t with shutDown := false, coolSince := none, sensor := t.sensor.each (fun _ x => { x with vote := false }) })).thEvent 4
      let s := (s.clearDetail .thermal).thermalRecord (clusterOf n) 7 (some n)
      let s := s.thermalRecord (clusterOf n) 8 none
      (s.onPwr (fun p => { p with
        wake := some { step := 1, src := 10, check := false, boot := true, loud := true, since := s.clk.rtcTicks } })).ask .wake
    else s)

end Sys2Proof.Machine
end

