-- ==== Sys2Proof/Machine/Dispatch.lean ====
section
/-! DEFINITION. The dispatcher: one arm for each command, each one direct call of its meaning. -/

namespace Sys2Proof.Machine

def exec (i : Instr) (s : State) : Host.Outcome State Fault Refusal :=
  match i with
  | .aonPowerOn snsExternal rstkA rstkB => Sys2Proof.Machine.execAonPowerOn snsExternal rstkA rstkB s
  | .hostNarrowAccess bar off => Sys2Proof.Machine.execHostNarrowAccess bar off s
  | .coreNarrowAccess core off => Sys2Proof.Machine.execCoreNarrowAccess core off s
  | .accessFault core addr write => Sys2Proof.Machine.execAccessFault core addr write s
  | .selectorWrite view off v => Sys2Proof.Machine.execSelectorWrite view off v s
  | .registerWrite view bar off v => Sys2Proof.Machine.execRegisterWrite view bar off v s
  | .shadowCaptureRead view bar off => Sys2Proof.Machine.execShadowCaptureRead view bar off s
  | .crossingDeliver x => Sys2Proof.Machine.execCrossingDeliver x s
  | .clockCheckWindow k permille => Sys2Proof.Machine.execClockCheckWindow k permille s
  | .scrubRead inMram found => Sys2Proof.Machine.execScrubRead inMram found s
  | .eccCntClr bank => Sys2Proof.Machine.execEccCntClr bank s
  | .hostInterfaceReset kind => Sys2Proof.Machine.execHostInterfaceReset kind s
  | .busMasterEnableChange en => Sys2Proof.Machine.execBusMasterEnableChange en s
  | .pollNudge v => Sys2Proof.Machine.execPollNudge v s
  | .dbBaseWrite hi v => Sys2Proof.Machine.execDbBaseWrite hi v s
  | .dbErrClear => Sys2Proof.Machine.execDbErrClear s
  | .ringEnable r cfg => Sys2Proof.Machine.execRingEnable r cfg s
  | .ringDisable r cfg => Sys2Proof.Machine.execRingDisable r cfg s
  | .doorbellPoll => Sys2Proof.Machine.execDoorbellPoll s
  | .doorbellReadComplete read => Sys2Proof.Machine.execDoorbellReadComplete read s
  | .dmaErrorCompletion r kind => Sys2Proof.Machine.execDmaErrorCompletion r kind s
  | .submissionFetch => Sys2Proof.Machine.execSubmissionFetch s
  | .submissionArrival r entry => Sys2Proof.Machine.execSubmissionArrival r entry s
  | .commandDependencyResolved stamp => Sys2Proof.Machine.execCommandDependencyResolved stamp s
  | .completionToHost r => Sys2Proof.Machine.execCompletionToHost r s
  | .coalesceTimer r => Sys2Proof.Machine.execCoalesceTimer r s
  | .msixUnmask vec => Sys2Proof.Machine.execMsixUnmask vec s
  | .drainComplete r => Sys2Proof.Machine.execDrainComplete r s
  | .troughRecord src rec_ => Sys2Proof.Machine.execTroughRecord src rec_ s
  | .streamRecordTransfer src listEntry => Sys2Proof.Machine.execStreamRecordTransfer src listEntry s
  | .streamFlushTimer stamp => Sys2Proof.Machine.execStreamFlushTimer stamp s
  | .streamSamples c => Sys2Proof.Machine.execStreamSamples c s
  | .streamImpedance c => Sys2Proof.Machine.execStreamImpedance c s
  | .streamEstimates c => Sys2Proof.Machine.execStreamEstimates c s
  | .streamStop c => Sys2Proof.Machine.execStreamStop c s
  | .nopAdmin c => Sys2Proof.Machine.execNopAdmin c s
  | .nopControl c => Sys2Proof.Machine.execNopControl c s
  | .nopQuery c => Sys2Proof.Machine.execNopQuery c s
  | .nopStream c => Sys2Proof.Machine.execNopStream c s
  | .frameEdge senseMv => Sys2Proof.Machine.execFrameEdge senseMv s
  | .upstreamRecord stall rec_ => Sys2Proof.Machine.execUpstreamRecord stall rec_ s
  | .upstreamWindowEnd stall => Sys2Proof.Machine.execUpstreamWindowEnd stall s
  | .breakDeclared stall pos => Sys2Proof.Machine.execBreakDeclared stall pos s
  | .eightFrameBoundary => Sys2Proof.Machine.execEightFrameBoundary s
  | .enumReplyTimeout stall => Sys2Proof.Machine.execEnumReplyTimeout stall s
  | .loopbackTest stall readBack => Sys2Proof.Machine.execLoopbackTest stall readBack s
  | .phyFault stall => Sys2Proof.Machine.execPhyFault stall s
  | .phyFaultRecovery stall => Sys2Proof.Machine.execPhyFaultRecovery stall s
  | .balanceLeaseRefresh u => Sys2Proof.Machine.execBalanceLeaseRefresh u s
  | .balanceDurationExpiry u => Sys2Proof.Machine.execBalanceDurationExpiry u s
  | .rosterAdopt c pkg => Sys2Proof.Machine.execRosterAdopt c pkg s
  | .stallService c pkg => Sys2Proof.Machine.execStallService c pkg s
  | .enumerate c => Sys2Proof.Machine.execEnumerate c s
  | .balanceSet c => Sys2Proof.Machine.execBalanceSet c s
  | .rosterRead c => Sys2Proof.Machine.execRosterRead c s
  | .stallErrCntClr stall => Sys2Proof.Machine.execStallErrCntClr stall s
  | .rateChangeApply str => Sys2Proof.Machine.execRateChangeApply str s
  | .slotListApply u => Sys2Proof.Machine.execSlotListApply u s
  | .tripRequest str k => Sys2Proof.Machine.execTripRequest str k s
  | .tripKindClear str k => Sys2Proof.Machine.execTripKindClear str k s
  | .tripLimits c => Sys2Proof.Machine.execTripLimits c s
  | .sweepConfig c => Sys2Proof.Machine.execSweepConfig c s
  | .sampleRead c => Sys2Proof.Machine.execSampleRead c s
  | .alignCntClr u => Sys2Proof.Machine.execAlignCntClr u s
  | .checkCycleDecide => Sys2Proof.Machine.execCheckCycleDecide s
  | .plausibilityEvaluation u => Sys2Proof.Machine.execPlausibilityEvaluation u s
  | .plausibilitySet p => Sys2Proof.Machine.execPlausibilitySet p s
  | .plausibilityClear p => Sys2Proof.Machine.execPlausibilityClear p s
  | .openWireProbeStart => Sys2Proof.Machine.execOpenWireProbeStart s
  | .probePulseEnd u => Sys2Proof.Machine.execProbePulseEnd u s
  | .probeDecision u => Sys2Proof.Machine.execProbeDecision u s
  | .probeRetry u wire => Sys2Proof.Machine.execProbeRetry u wire s
  | .invalidAgeExpiry u cell => Sys2Proof.Machine.execInvalidAgeExpiry u cell s
  | .dataAgeDerate str dir => Sys2Proof.Machine.execDataAgeDerate str dir s
  | .dataAgeDisconnect str dir => Sys2Proof.Machine.execDataAgeDisconnect str dir s
  | .currentAgeDerate str dir => Sys2Proof.Machine.execCurrentAgeDerate str dir s
  | .currentAgeDisconnect str dir => Sys2Proof.Machine.execCurrentAgeDisconnect str dir s
  | .balTestSchedule => Sys2Proof.Machine.execBalTestSchedule s
  | .balTestPhaseEnd u vbr => Sys2Proof.Machine.execBalTestPhaseEnd u vbr s
  | .openWireProbe c => Sys2Proof.Machine.execOpenWireProbe c s
  | .balTest c => Sys2Proof.Machine.execBalTest c s
  | .estimatorStep => Sys2Proof.Machine.execEstimatorStep s
  | .limitStaleTimeout str => Sys2Proof.Machine.execLimitStaleTimeout str s
  | .estimatorCheckpoint ok => Sys2Proof.Machine.execEstimatorCheckpoint ok s
  | .lockinBlockEnd str bin => Sys2Proof.Machine.execLockinBlockEnd str bin s
  | .excitationStart str => Sys2Proof.Machine.execExcitationStart str s
  | .excitationToggle str => Sys2Proof.Machine.execExcitationToggle str s
  | .healthUpdate str => Sys2Proof.Machine.execHealthUpdate str s
  | .estimateStreamTick => Sys2Proof.Machine.execEstimateStreamTick s
  | .estConfig c pkg => Sys2Proof.Machine.execEstConfig c pkg s
  | .estQuery c => Sys2Proof.Machine.execEstQuery c s
  | .stringClose c => Sys2Proof.Machine.execStringClose c s
  | .stringOpen c => Sys2Proof.Machine.execStringOpen c s
  | .serviceMode c => Sys2Proof.Machine.execServiceMode c s
  | .limitsRead c => Sys2Proof.Machine.execLimitsRead c s
  | .preCnTimeout str => Sys2Proof.Machine.execPreCnTimeout str s
  | .prechargeCheckpoint str => Sys2Proof.Machine.execPrechargeCheckpoint str s
  | .prechargeTimeout str => Sys2Proof.Machine.execPrechargeTimeout str s
  | .overlapTimeout str => Sys2Proof.Machine.execOverlapTimeout str s
  | .openingRelease str => Sys2Proof.Machine.execOpeningRelease str s
  | .openingForcedRelease str => Sys2Proof.Machine.execOpeningForcedRelease str s
  | .openingCnOff str => Sys2Proof.Machine.execOpeningCnOff str s
  | .weldCheckTimeout str => Sys2Proof.Machine.execWeldCheckTimeout str s
  | .weldedRelease str => Sys2Proof.Machine.execWeldedRelease str s
  | .auxInputChange k closed => Sys2Proof.Machine.execAuxInputChange k closed s
  | .auxMismatch k => Sys2Proof.Machine.execAuxMismatch k s
  | .auxClosedWhileOpen k => Sys2Proof.Machine.execAuxClosedWhileOpen k s
  | .contactorDipTimeout => Sys2Proof.Machine.execContactorDipTimeout s
  | .prechargeCauseExpiry str => Sys2Proof.Machine.execPrechargeCauseExpiry str s
  | .isoPersistenceElapsed str cond => Sys2Proof.Machine.execIsoPersistenceElapsed str cond s
  | .isoClear str cond => Sys2Proof.Machine.execIsoClear str cond s
  | .overTempSet str => Sys2Proof.Machine.execOverTempSet str s
  | .overTempClear str => Sys2Proof.Machine.execOverTempClear str s
  | .serviceModeExpiry str => Sys2Proof.Machine.execServiceModeExpiry str s
  | .halterCauseEntry d w => Sys2Proof.Machine.execHalterCauseEntry d w s
  | .lockoutWordCopy => Sys2Proof.Machine.execLockoutWordCopy s
  | .safetyInputChange n chB closed => Sys2Proof.Machine.execSafetyInputChange n chB closed s
  | .sinTestPulse k => Sys2Proof.Machine.execSinTestPulse k s
  | .sinTestPulseJudge k read => Sys2Proof.Machine.execSinTestPulseJudge k read s
  | .sinDiscrepancy n => Sys2Proof.Machine.execSinDiscrepancy n s
  | .guardProofExpiry n => Sys2Proof.Machine.execGuardProofExpiry n s
  | .heartbeatWrite view v => Sys2Proof.Machine.execHeartbeatWrite view v s
  | .heartbeatLate => Sys2Proof.Machine.execHeartbeatLate s
  | .heartbeatLoss => Sys2Proof.Machine.execHeartbeatLoss s
  | .telegramReceived net bytes => Sys2Proof.Machine.execTelegramReceived net bytes s
  | .telegramPairTimeout net => Sys2Proof.Machine.execTelegramPairTimeout net s
  | .netLoss => Sys2Proof.Machine.execNetLoss s
  | .statusTelegram sent0 sent1 => Sys2Proof.Machine.execStatusTelegram sent0 sent1 s
  | .closePermitExpiry str => Sys2Proof.Machine.execClosePermitExpiry str s
  | .contactorTestPulse j => Sys2Proof.Machine.execContactorTestPulse j s
  | .contactorTestPulseEnd j echoFell outFell outRecovered => Sys2Proof.Machine.execContactorTestPulseEnd j echoFell outFell outRecovered s
  | .enableRefresh => Sys2Proof.Machine.execEnableRefresh s
  | .enableRefreshTimeout => Sys2Proof.Machine.execEnableRefreshTimeout s
  | .resetKeyPressStart => Sys2Proof.Machine.execResetKeyPressStart s
  | .resetKeyPressEnd otherWithin50ms => Sys2Proof.Machine.execResetKeyPressEnd otherWithin50ms s
  | .rstkHeld => Sys2Proof.Machine.execRstkHeld s
  | .rstkDisc => Sys2Proof.Machine.execRstkDisc s
  | .resetEnable => Sys2Proof.Machine.execResetEnable s
  | .halterResetReq c => Sys2Proof.Machine.execHalterResetReq c s
  | .hostSafeRequest v => Sys2Proof.Machine.execHostSafeRequest v s
  | .halterStartupTestsDone stageOk eccOk comparatorsOk => Sys2Proof.Machine.execHalterStartupTestsDone stageOk eccOk comparatorsOk s
  | .swcSet c => Sys2Proof.Machine.execSwcSet c s
  | .swcConfig c pkg => Sys2Proof.Machine.execSwcConfig c pkg s
  | .limitTimeout ch => Sys2Proof.Machine.execLimitTimeout ch s
  | .contactorOvercurrent j => Sys2Proof.Machine.execContactorOvercurrent j s
  | .thermalTrip ch => Sys2Proof.Machine.execThermalTrip ch s
  | .channelRestart ch => Sys2Proof.Machine.execChannelRestart ch s
  | .pullInEnd j dutyPermille iEndMa => Sys2Proof.Machine.execPullInEnd j dutyPermille iEndMa s
  | .economiserUpdate vbat10mV => Sys2Proof.Machine.execEconomiserUpdate vbat10mV s
  | .dutyCompensationUpdate vbat10mV => Sys2Proof.Machine.execDutyCompensationUpdate vbat10mV s
  | .generalTestPulse ch => Sys2Proof.Machine.execGeneralTestPulse ch s
  | .generalTestPulseEnd ch fell => Sys2Proof.Machine.execGeneralTestPulseEnd ch fell s
  | .supplyDip die vbat10mV => Sys2Proof.Machine.execSupplyDip die vbat10mV s
  | .supplyRestore die vbat10mV => Sys2Proof.Machine.execSupplyRestore die vbat10mV s
  | .supplyLoss die vbat10mV => Sys2Proof.Machine.execSupplyLoss die vbat10mV s
  | .senseGSample senseMv => Sys2Proof.Machine.execSenseGSample senseMv s
  | .snsSelRead pins => Sys2Proof.Machine.execSnsSelRead pins s
  | .tariffTag c => Sys2Proof.Machine.execTariffTag c s
  | .counterSlotWrite str => Sys2Proof.Machine.execCounterSlotWrite str s
  | .exposureTick str => Sys2Proof.Machine.execExposureTick str s
  | .exposureSlotWrite => Sys2Proof.Machine.execExposureSlotWrite s
  | .meterStatement c => Sys2Proof.Machine.execMeterStatement c s
  | .healthStatement c => Sys2Proof.Machine.execHealthStatement c s
  | .statementRelease => Sys2Proof.Machine.execStatementRelease s
  | .yardArbitrationRound target arriving => Sys2Proof.Machine.execYardArbitrationRound target arriving s
  | .halterMirrorRead => Sys2Proof.Machine.execHalterMirrorRead s
  | .mramWriteSlot verified => Sys2Proof.Machine.execMramWriteSlot verified s
  | .yardMaxwaitClr => Sys2Proof.Machine.execYardMaxwaitClr s
  | .mqMaxlatClr => Sys2Proof.Machine.execMqMaxlatClr s
  | .calRoutingRenew u => Sys2Proof.Machine.execCalRoutingRenew u s
  | .liveRunChannelDone u => Sys2Proof.Machine.execLiveRunChannelDone u s
  | .calGenerationSwitch u => Sys2Proof.Machine.execCalGenerationSwitch u s
  | .driftEvaluation u => Sys2Proof.Machine.execDriftEvaluation u s
  | .shuntAutoStart str => Sys2Proof.Machine.execShuntAutoStart str s
  | .shuntOffsetRunEnd str => Sys2Proof.Machine.execShuntOffsetRunEnd str s
  | .shuntGainRunEnd str => Sys2Proof.Machine.execShuntGainRunEnd str s
  | .calDeferredWrite u => Sys2Proof.Machine.execCalDeferredWrite u s
  | .calRun c => Sys2Proof.Machine.execCalRun c s
  | .calWrite c data => Sys2Proof.Machine.execCalWrite c data s
  | .calRead c => Sys2Proof.Machine.execCalRead c s
  | .studbookRequest trigger subject detail => Sys2Proof.Machine.execStudbookRequest trigger subject detail s
  | .recordCapture captureUs => Sys2Proof.Machine.execRecordCapture captureUs s
  | .recorderFault kind bank7 slot => Sys2Proof.Machine.execRecorderFault kind bank7 slot s
  | .refusedCountWrite => Sys2Proof.Machine.execRefusedCountWrite s
  | .studbookClear c pkg => Sys2Proof.Machine.execStudbookClear c pkg s
  | .studbookRead c badRecord => Sys2Proof.Machine.execStudbookRead c badRecord s
  | .lockstepMismatch p lane group pc => Sys2Proof.Machine.execLockstepMismatch p lane group pc s
  | .pairSelftestStart p => Sys2Proof.Machine.execPairSelftestStart p s
  | .pairSelftestEnd p result core => Sys2Proof.Machine.execPairSelftestEnd p result core s
  | .pairStart writer p => Sys2Proof.Machine.execPairStart writer p s
  | .pairStop writer p => Sys2Proof.Machine.execPairStop writer p s
  | .pairDone writer => Sys2Proof.Machine.execPairDone writer s
  | .debugHalt p => Sys2Proof.Machine.execDebugHalt p s
  | .debugResume p => Sys2Proof.Machine.execDebugResume p s
  | .debugWrite p second w => Sys2Proof.Machine.execDebugWrite p second w s
  | .jtagExtest => Sys2Proof.Machine.execJtagExtest s
  | .debugUnlock c pkg => Sys2Proof.Machine.execDebugUnlock c pkg s
  | .debugUnlockExpiry => Sys2Proof.Machine.execDebugUnlockExpiry s
  | .pairSelftest c => Sys2Proof.Machine.execPairSelftest c s
  | .setPowerState c => Sys2Proof.Machine.execSetPowerState c s
  | .setRunLevel c => Sys2Proof.Machine.execSetRunLevel c s
  | .setHostVeto c => Sys2Proof.Machine.execSetHostVeto c s
  | .powerAccount c => Sys2Proof.Machine.execPowerAccount c s
  | .pwrReqState core v => Sys2Proof.Machine.execPwrReqState core v s
  | .pwrReqLevel core v => Sys2Proof.Machine.execPwrReqLevel core v s
  | .pmbusAck statusWord => Sys2Proof.Machine.execPmbusAck statusWord s
  | .pmbusAttemptFail statusWord => Sys2Proof.Machine.execPmbusAttemptFail statusWord s
  | .pgoodLoss => Sys2Proof.Machine.execPgoodLoss s
  | .pgoodRecovery => Sys2Proof.Machine.execPgoodRecovery s
  | .entryPhaseComplete => Sys2Proof.Machine.execEntryPhaseComplete s
  | .wakeEvent src => Sys2Proof.Machine.execWakeEvent src s
  | .wakeStepReady imageOk comparatorCode => Sys2Proof.Machine.execWakeStepReady imageOk comparatorCode s
  | .sramBlockRestore block => Sys2Proof.Machine.execSramBlockRestore block s
  | .islandWakeOnAccess isl => Sys2Proof.Machine.execIslandWakeOnAccess isl s
  | .wakeRetry => Sys2Proof.Machine.execWakeRetry s
  | .retCreditTick => Sys2Proof.Machine.execRetCreditTick s
  | .stabledSinScan readings => Sys2Proof.Machine.execStabledSinScan readings s
  | .sensorReadingCheck readings => Sys2Proof.Machine.execSensorReadingCheck readings s
  | .sensorFail n => Sys2Proof.Machine.execSensorFail n s
  | .offsetLearning => Sys2Proof.Machine.execOffsetLearning s
  | .throttleLevelUpdate => Sys2Proof.Machine.execThrottleLevelUpdate s
  | .throttlePauseEnd => Sys2Proof.Machine.execThrottlePauseEnd s
  | .comparatorVote n => Sys2Proof.Machine.execComparatorVote n s
  | .thermalRestart => Sys2Proof.Machine.execThermalRestart s
  | .hoursCellWrite => Sys2Proof.Machine.execHoursCellWrite s
  | .rtcSet c => Sys2Proof.Machine.execRtcSet c s
  | .rtcAlarm => Sys2Proof.Machine.execRtcAlarm s
  | .periodicCheckAlarm => Sys2Proof.Machine.execPeriodicCheckAlarm s
  | .boot comparatorCode ue0 ue1 => Sys2Proof.Machine.execBoot comparatorCode ue0 ue1 s
  | .configLoad c pkg => Sys2Proof.Machine.execConfigLoad c pkg s
  | .configRead c => Sys2Proof.Machine.execConfigRead c s
  | .imageWrite c data => Sys2Proof.Machine.execImageWrite c data s
  | .imageActivate c ue0 ue1 => Sys2Proof.Machine.execImageActivate c ue0 ue1 s
  | .attest c => Sys2Proof.Machine.execAttest c s
  | .ownerKey c pkg => Sys2Proof.Machine.execOwnerKey c pkg s
  | .identify c => Sys2Proof.Machine.execIdentify c s
  | .evtEnWrite v => Sys2Proof.Machine.execEvtEnWrite v s
  | .canBusOffRecovery ctl => Sys2Proof.Machine.execCanBusOffRecovery ctl s
  | .aonPowerLoss => Sys2Proof.Machine.execAonPowerLoss s
  | .entryPhaseTimeout why => Sys2Proof.Machine.execEntryPhaseTimeout why s
  | .pairSelftestIdleTimeout => Sys2Proof.Machine.execPairSelftestIdleTimeout s
  | .driftRunDeferredStart u => Sys2Proof.Machine.execDriftRunDeferredStart u s
  | .currentLimitChange ch inLimit => Sys2Proof.Machine.execCurrentLimitChange ch inLimit s
  | .debuggerAttach on => Sys2Proof.Machine.execDebuggerAttach on s
  | .faultPinMismatch pinA => Sys2Proof.Machine.execFaultPinMismatch pinA s
  | .ethLinkChange m link speed => Sys2Proof.Machine.execEthLinkChange m link speed s
  | .commandDataDmaComplete stamp ok => Sys2Proof.Machine.execCommandDataDmaComplete stamp ok s

end Sys2Proof.Machine
end

