-- ==== Sys2Proof/Safety.lean ====
section
/-! DEFINITION. The terms in which claims about the block are stated: what a command answers, when a submitted command executes, and how it ends. -/

namespace Sys2Proof.Machine

/-- The command answers a next state, and that state meets `P`. -/
def Answers (c : Instr) (s : State) (P : State → Prop) : Prop := ∃ t, exec c s = .next t ∧ P t

/-- The submitted command `c` is in flight as `f` and executes: it does not wait on a dependency, its ring pair takes its
completion, its stamp is among those whose final status is kept, and the device is not in recovery mode (02 R53, R65, R67; 18 R458). -/
structure Executing (s : State) (c : Cmd) (f : Flight) : Prop where
  flight   : s.hif.flight c.stamp = some f
  same     : f.cmd = c
  going    : f.stage = .executing
  enabled  : (s.rings.at c.ring).st ≠ .disabled
  kept     : (s.rings.at c.ring).discard = false
  tracked  : s.hif.tracked c.stamp = true
  normal   : s.sec.recovery = false

/-- From `s` to `t` the command `c`, in flight as `f`, ended: its final completion is the newest in the completion trough of its
ring pair, it is no longer in flight, and its status is kept (02 R65, R68, R69). -/
def Completes (s t : State) (c : Cmd) (f : Flight) (status : BitVec 8) (result : BitVec 128) : Prop :=
  (t.rings.at c.ring).trough = (s.rings.at c.ring).trough ++
      [{ tag := c.tag, status := status, opcode := f.opcode, stamp := c.stamp, result := result,
         ctime := BitVec.ofNat 32 s.now, final := true, gap := false, noIrq := c.noIrq }] ∧
  t.hif.flight c.stamp = none ∧
  t.hif.finalOf c.stamp = some ⟨c.stamp, status, isStreamOp f.opcode⟩

/-- In `t` the command `c` has ended with this status: it is no longer in flight, and its final status is kept (02 R65). -/
def Ended (t : State) (c : Cmd) (status : BitVec 8) : Prop :=
  t.hif.flight c.stamp = none ∧ (t.hif.finalOf c.stamp).map Final.status = some status

end Sys2Proof.Machine
end

