-- ==== Sys2Proof/Certificates/Slice0/Obligations.lean ====
section
/-! DEFINITION. The statements for the provers, chapter by chapter, and those about the whole machine. -/

open Sys2Proof Sys2Proof.Machine

/-- The command at the front of the queue acts on the state with the queue's rest; an empty queue lets one tick of the running clock pass (the
model's choice, log entry 2). No command ends in a fault or a refusal: whatever the state and the operands, a next state is answered. -/
def Obligations.StepTakesFrontCommand : Prop :=
  (∀ (c : Instr) (rest : List Instr) (s : State), s.pending = c :: rest → step s = exec c { s with pending := rest }) ∧
  (∀ s : State, s.pending = [] → s.isl.tb = true → step s = .next { s with clk := s.clk.advance 1 }) ∧
  (∀ s : State, s.pending = [] → s.isl.tb = false → step s = .next { s with clk := s.clk.rtcTick }) ∧
  ∀ (c : Instr) (s : State), ∃ t, exec c s = .next t

/-- From R8, R474: an access that is narrow or not aligned completes without effect, reads 0 and is recorded for the host in `ACC_ERR`; in a
core it is a fault and never recorded; R25: an access outside the address map raises a fault in its core. -/
def Obligations.FaultyAccessesRecordedOrFaulting : Prop :=
  (∀ (bar : Bar) (off : BitVec 16) (s : State), Answers (.hostNarrowAccess bar off) s fun t =>
    t.misc = { s.misc with accErr :=
      { kind := if bar = .bar0 then 0 else 4, off := off
        count := if s.evt.acc then min 0xFFF (s.misc.accErr.count + 1) else 1 } } ∧
    t.evt = { s.evt with acc := true } ∧ t = { s with misc := t.misc, evt := t.evt, msix := t.msix, out := t.out }) ∧
  (∀ (bar : Bar) (off : BitVec 16) (v : Word) (s : State), off.toNat % 4 ≠ 0 →
    (Answers (.shadowCaptureRead .host bar off) s fun t => (s.out ++ [.busRead 0]) <+: t.out ∧
      t.misc.accErr.kind = (if bar = .bar0 then 0 else 4) ∧ t.misc.accErr.off = off ∧ t.evt = { s.evt with acc := true }) ∧
    Answers (.registerWrite .host bar off v) s fun t => t.misc.accErr.kind = (if bar = .bar0 then 0 else 4) ∧ t.misc.accErr.off = off ∧
      t.evt = { s.evt with acc := true } ∧ t = { s with misc := { s.misc with accErr := t.misc.accErr }, evt := t.evt, msix := t.msix, out := t.out }) ∧
  (∀ (core : Fin 16) (off : BitVec 16) (s : State), Answers (.coreNarrowAccess core off) s fun t =>
    t = { s with misc := { s.misc with coreFault := s.misc.coreFault.put core true } }) ∧
  (∀ (core : Fin 16) (addr : BitVec 32) (write : Bool) (s : State),
    0x20000 ≤ addr.toNat → ¬ (0x20000000 ≤ addr.toNat ∧ addr.toNat ≤ 0x203FFFFF) →
    ¬ (0x40000000 ≤ addr.toNat ∧ addr.toNat ≤ 0x41FFFFFF) → ¬ (0x60000000 ≤ addr.toNat ∧ addr.toNat ≤ 0x6000FFFF) →
    Answers (.accessFault core addr write) s fun t =>
      t = { s with misc := { s.misc with coreFault := s.misc.coreFault.put core true } }) ∧
  ∀ (core : Fin 16) (addr : BitVec 32) (s : State), 0x40000000 ≤ addr.toNat → addr.toNat ≤ 0x41FFFFFF →
    Answers (.accessFault core addr true) s fun t =>
      t = { s with misc := { s.misc with coreFault := s.misc.coreFault.put core true } }

/-- From R473: an enabled bit of `EVT_SUM` that rises sends EVT_VEC once, here for the access error; enabling a bit that already reads 1 sends
it, and enabling bits that all read 0 sends nothing. The vector leaves when it is not masked and the device may write. -/
def Obligations.EventVectorSentOnRiseAndOnEnable : Prop :=
  (∀ (bar : Bar) (off : BitVec 16) (s : State), s.evt.acc = false → s.evt.en.getLsbD 1 = true →
    (s.msix.at s.evtVector).masked = false → s.canDma = true →
    Answers (.hostNarrowAccess bar off) s fun t => t.msix = s.msix ∧
      t.out = s.out ++ [.msix s.evtVector (s.msix.at s.evtVector).addr (s.msix.at s.evtVector).data]) ∧
  (∀ (v : Word) (s : State), (v.setWidth 20 &&& ~~~ s.evt.en &&& evtSum s.evt) ≠ 0 →
    (s.msix.at s.evtVector).masked = false → s.canDma = true →
    Answers (.evtEnWrite v) s fun t => t.evt = { s.evt with en := v.setWidth 20 } ∧ t.msix = s.msix ∧
      t.out = s.out ++ [.msix s.evtVector (s.msix.at s.evtVector).addr (s.msix.at s.evtVector).data]) ∧
  ∀ (v : Word) (s : State), (v.setWidth 20 &&& ~~~ s.evt.en &&& evtSum s.evt) = 0 →
    Answers (.evtEnWrite v) s fun t => t = { s with evt := { s.evt with en := v.setWidth 20 } }

/-- From R12, R13: a selector takes a value inside its range and keeps its value otherwise, the other selectors of the view stay, and a view
never changes what another view selects. That bits above the field are discarded first is the model's reading (log entry 10). -/
def Obligations.SelectorWritesStayInTheirView : Prop :=
  (∀ (view : View) (v : Word) (s : State),
    Answers (.selectorWrite view 0x0C00 v) s fun t => t.selOf view = { s.selOf view with ring := ⟨v.toNat % 16, by omega⟩ }) ∧
  (∀ (view : View) (v : Word) (s : State),
    Answers (.selectorWrite view 0x1000 v) s fun t => t.selOf view = { s.selOf view with stall := ⟨v.toNat % 32, by omega⟩ }) ∧
  (∀ (view : View) (v : Word) (s : State),
    Answers (.selectorWrite view 0x1004 v) s fun t => t.selOf view = { s.selOf view with unit := ⟨v.toNat % 4, by omega⟩ }) ∧
  (∀ (view : View) (v : Word) (s : State),
    Answers (.selectorWrite view 0x1C00 v) s fun t => t.selOf view = { s.selOf view with str := ⟨v.toNat % 4, by omega⟩ }) ∧
  (∀ (view : View) (v : Word) (s : State),
    Answers (.selectorWrite view 0x3400 v) s fun t => t.selOf view = { s.selOf view with pair := ⟨v.toNat % 8, by omega⟩ }) ∧
  (∀ (view : View) (v : Word) (s : State) (h : v.toNat % 32 < 24),
    Answers (.selectorWrite view 0x2000 v) s fun t => t.selOf view = { s.selOf view with swc := ⟨v.toNat % 32, h⟩ }) ∧
  (∀ (view : View) (v : Word) (s : State), 24 ≤ v.toNat % 32 →
    Answers (.selectorWrite view 0x2000 v) s fun t => t.selOf view = s.selOf view) ∧
  (∀ (view : View) (v : Word) (s : State) (h : v.toNat % 16 < 12),
    Answers (.selectorWrite view 0x0800 v) s fun t => t.selOf view = { s.selOf view with tsens := ⟨v.toNat % 16, h⟩ }) ∧
  (∀ (view : View) (v : Word) (s : State), 12 ≤ v.toNat % 16 →
    Answers (.selectorWrite view 0x0800 v) s fun t => t.selOf view = s.selOf view) ∧
  (∀ (view : View) (s : State), let r := s.readReg (s.selOf view) (s.shOf view)
    r 0x0C00 = BitVec.ofNat 32 (s.selOf view).ring.val ∧ r 0x1000 = BitVec.ofNat 32 (s.selOf view).stall.val ∧
    r 0x1004 = BitVec.ofNat 32 (s.selOf view).unit.val ∧ r 0x1C00 = BitVec.ofNat 32 (s.selOf view).str.val ∧
    r 0x2000 = BitVec.ofNat 32 (s.selOf view).swc.val ∧ r 0x0800 = BitVec.ofNat 32 (s.selOf view).tsens.val ∧
    r 0x3400 = BitVec.ofNat 32 (s.selOf view).pair.val) ∧
  ∀ (view other : View) (off : BitVec 16) (v : Word) (s : State), other ≠ view →
    Answers (.selectorWrite view off v) s fun t => t.selOf other = s.selOf other ∧ t = { s with misc := t.misc }

/-- From R9, R10, R46, R474, R470, R46 and R323: a 1 clears a W1C bit and a 0 leaves it, an RW register takes the value, a write that the host
may not make is recorded with its KIND and changes nothing else, and a core's is not recorded. What a read returns and what it captures. The
identity registers and a _LO register of the host's view; the shadow belongs to the view that reads. -/
def Obligations.RegisterAccessesFollowTheirTypes : Prop :=
  (∀ (view : View) (v : Word) (s : State), Answers (.registerWrite view .bar0 0x1014 v) s fun t =>
    t = { s with evt := { s.evt with stall := s.evt.stall &&& ~~~ v } }) ∧
  (∀ (view : View) (v : Word) (s : State), Answers (.registerWrite view .bar0 0x2408 v) s fun t =>
    t = { s with evt := { s.evt with hlt := s.evt.hlt &&& ~~~ v.setWidth 8 } }) ∧
  (∀ (view : View) (v : Word) (s : State), Answers (.registerWrite view .bar0 0x4470 v) s fun t =>
    t = { s with evt := { s.evt with memUe := s.evt.memUe && !v.getLsbD 9 } }) ∧
  (∀ (view : View) (v : Word) (s : State), Answers (.registerWrite view .bar0 0x4004 v) s fun t =>
    t = { s with yard := { s.yard with weight0 := v } }) ∧
  (∀ (v : Word) (s : State), Answers (.registerWrite .host .bar0 0x0000 v) s fun t =>
    t.evt = { s.evt with acc := true } ∧ t.misc.accErr.kind = 3 ∧ t.misc.accErr.off = 0x0000 ∧
    t = { s with misc := { s.misc with accErr := t.misc.accErr }, evt := t.evt, msix := t.msix, out := t.out }) ∧
  (∀ (off : BitVec 16) (v : Word) (s : State), off.toNat % 4 = 0 → off ≠ 0 → Answers (.registerWrite .host .bar2 off v) s fun t =>
    t.evt = { s.evt with acc := true } ∧ t.misc.accErr.kind = 5 ∧ t.misc.accErr.off = off ∧
    t = { s with misc := { s.misc with accErr := t.misc.accErr }, evt := t.evt, msix := t.msix, out := t.out }) ∧
  (∀ (core : Fin 16) (v : Word) (s : State), Answers (.registerWrite (.core core) .bar0 0x0000 v) s fun t => t = s) ∧
  (∀ (view : View) (s : State), Answers (.shadowCaptureRead view .bar0 0x0000) s fun t =>
    t = { s with out := s.out ++ [.busRead 0x4D580009] }) ∧
  (∀ (view : View) (s : State), Answers (.shadowCaptureRead view .bar0 0x0008) s fun t =>
    t = { s with out := s.out ++ [.busRead 0x10188420] }) ∧
  (∀ s : State, Answers (.shadowCaptureRead .host .bar2 0x0004) s fun t => t = { s with out := s.out ++ [.busRead 0x4D580009] }) ∧
  (∀ (view : View) (s : State), Answers (.shadowCaptureRead view .bar0 0x1480) s fun t =>
    t.out = s.out ++ [.busRead (BitVec.ofNat 32 s.clk.ytime)] ∧
    t.shOf view = { s.shOf view with yt := BitVec.ofNat 32 (s.clk.ytime / 2 ^ 32) } ∧
    (∀ other, other ≠ view → t.shOf other = s.shOf other) ∧ t = { s with misc := t.misc, out := t.out }) ∧
  ∀ (view : View) (s : State), Answers (.shadowCaptureRead view .bar0 0x1484) s fun t =>
    t = { s with out := s.out ++ [.busRead (s.shOf view).yt] }

/-- From R20 and R22: a crossing delivers its oldest entry and keeps the others in order; while its reader's island is not ready, it holds every
entry. -/
def Obligations.CrossingsDeliverInOrder : Prop :=
  (∀ (p : Fin 4) (e : XEntry) (rest : List XEntry) (s : State), s.cross.portToHalter.at p = e :: rest → s.isl.halter = true →
    Answers (.crossingDeliver (.portToHalter p)) s fun t =>
      t.cross.portToHalter.at p = rest ∧ ∀ q, q ≠ p → t.cross.portToHalter.at q = s.cross.portToHalter.at q) ∧
  (∀ (rest : List XEntry) (mask : BitVec 12) (closed : Bool) (s : State), s.cross.halterToSw1 = .enables mask closed :: rest →
    Answers (.crossingDeliver .halterToSw1) s fun t =>
      t.cross.halterToSw1 = rest ∧ t.swctl.enables = mask ∧ t.swctl.cutoff = closed ∧ t.swctl.refreshAt = s.now) ∧
  (∀ s : State, s.isl.halter = false → ∀ p, Answers (.crossingDeliver (.portToHalter p)) s fun t => t = s) ∧
  (∀ s : State, s.isl.halter = false → Answers (.crossingDeliver .memToHalter) s fun t => t = s) ∧
  (∀ s : State, s.isl.halter = false → Answers (.crossingDeliver .tbToHalter) s fun t => t = s) ∧
  ∀ s : State, s.isl.mem = false → Answers (.crossingDeliver .toRecorder) s fun t => t = s

/-- From R23, R32, R33, R35: a clock outside ±25 % for two consecutive windows is a halter fault of category A; one window outside is none. For
the halter's own clock the fault goes through the crossing from TB. Counting the bounds as inside is the model's reading (log entry 11). It
advances by one codeword and wraps, counts a corrected error in the bank, records an uncorrectable one in `MEM_UE_STAT`, `MEM_UE_ADDR` and
`ECC_CNT_n`, tells the halter where it lies in protection data, and rests outside Run and Idle. CLR clears both counters of one bank. -/
def Obligations.ClocksWatchedAndMemoryScrubbed : Prop :=
  (∀ (p : Fin 4) (permille : Nat) (s : State), s.isl.halter = true → s.isl.port.at p = true →
    (permille < 750 ∨ 1250 < permille) → (s.clocks.port.at p).bad = 1 → Answers (.clockCheckWindow (.port p) permille) s fun t =>
      (t.clocks.port.at p).bad = 2 ∧ t.halter.lockout = true) ∧
  (∀ (p : Fin 4) (permille : Nat) (s : State), s.isl.halter = true → s.isl.port.at p = true →
    (permille < 750 ∨ 1250 < permille) → (s.clocks.port.at p).bad = 0 → Answers (.clockCheckWindow (.port p) permille) s fun t =>
      (t.clocks.port.at p).bad = 1 ∧ t.halter = s.halter ∧ t = { s with clocks := t.clocks }) ∧
  (∀ (permille : Nat) (s : State), s.isl.halter = true → s.isl.tb = true → (permille < 750 ∨ 1250 < permille) →
    s.clocks.halter.bad = 1 → Answers (.clockCheckWindow .halter permille) s fun t =>
      t.clocks.halter.bad = 2 ∧ t.cross.tbToHalter = s.cross.tbToHalter ++ [.clockFault] ∧
      t = { s with clocks := t.clocks, cross := t.cross }) ∧
  (∀ s : State, s.isl.mem = true → s.pwr.st = .run → s.mem.scrubSram < 0x60000 → Answers (.scrubRead false .clean) s fun t =>
    t = { s with mem := { s.mem with scrubSram := (s.mem.scrubSram + 1) % 0x60000 } }) ∧
  (∀ s : State, s.isl.mem = true → s.pwr.st = .run → s.mem.scrubMram < 0x200000 → Answers (.scrubRead true .correctable) s fun t =>
    t.mem = { s.mem with
      scrubMram := (s.mem.scrubMram + 1) % 0x200000
      ecc := s.mem.ecc.upd ⟨(24 + s.mem.scrubMram / 0x40000) % 32, by omega⟩ (fun c => { c with corr := satAdd 0xFFFF c.corr 1 }) } ∧
    t = { s with mem := t.mem }) ∧
  (∀ s : State, s.isl.mem = true → s.pwr.st = .run → s.mem.scrubSram < 0x2000 → Answers (.scrubRead false .uncorrectable) s fun t =>
    t.mem.ue.bank = 0 ∧ t.mem.ue.src = 5 ∧ t.mem.ue.prot = true ∧ t.mem.ue.off = BitVec.ofNat 22 (16 * s.mem.scrubSram) ∧
    t.mem.ue.count = satAdd 0xFFFF s.mem.ue.count 1 ∧ (t.mem.ecc.at 0).ue = satAdd 0xFF (s.mem.ecc.at 0).ue 1 ∧
    t.evt.memUe = true ∧ t.cross.memToHalter = s.cross.memToHalter ++ [.memFault]) ∧
  (∀ (m : Bool) (found : EccRead) (s : State), s.pwr.st = .rest → Answers (.scrubRead m found) s fun t => t = s) ∧
  ∀ (bank : Fin 32) (s : State), Answers (.eccCntClr bank) s fun t =>
    (t.mem.ecc.at bank).corr = 0 ∧ (t.mem.ecc.at bank).ue = 0 ∧ (∀ b, b ≠ bank → t.mem.ecc.at b = s.mem.ecc.at b) ∧
    t = { s with mem := { s.mem with ecc := t.mem.ecc } }

/-- From R11, R14, R446, R471, R472, R480: an AON power loss leaves MRAM and the tack store and takes the rest to reset; an AON power-on straps
the sense input, resumes the power-cycle count above every copy that is valid, and asks the regulator; IDENTIFY writes 64 bytes and
completes with their number, a misaligned address is a bad operand; a controller rejoins from bus-off; the in-band status of a MAC is shown. -/
def Obligations.SuppliesIdentifyAndNetworks : Prop :=
  (∀ s : State, Answers .aonPowerLoss s fun t =>
    t.mem.mram = s.mem.mram ∧ t.sec.owner = s.sec.owner ∧ t.sec.service = s.sec.service ∧ t.sec.rbCount = s.sec.rbCount ∧
    t.misc.sel = {} ∧ t.evt.en = 0 ∧ t.hif.flights = [] ∧ t.mem.sram = [] ∧ t.isl = {} ∧ t.pending = s.pending) ∧
  (∀ (ext a b : Bool) (s : State), Answers (.aonPowerOn ext a b) s fun t =>
    t.swctl.snsExt = ext ∧ t.misc.sel = {} ∧ t.misc.coreSel = Bank.fill 16 {} ∧ t.evt.en = 0 ∧
    t.sec.owner = s.sec.owner ∧ t.sec.rbCount = s.sec.rbCount ∧ t.isl.mem = false ∧ t.pwr.pmbus = some .powerOn ∧
    (∀ copy p, State.hoursCopy s.powerOff copy = some p → p.2 < t.clk.pcc ∧ p.1 < t.clk.ophMs)) ∧
  (∀ (c : Cmd) (f : Flight) (s : State), Executing s c f → opField c 8 8 % 16 = 0 → Answers (.identify c) s fun t =>
    Completes s t c f 0x00 64 ∧ ∃ bytes, bytes.length = 64 ∧ bytes.take 4 = [0x09, 0x00, 0x58, 0x4D] ∧
      bytes.drop 32 = deviceKey ∧ t.out = s.out ++ [.hostWrite (BitVec.ofNat 64 (opField c 8 8)) bytes]) ∧
  (∀ (c : Cmd) (f : Flight) (s : State), Executing s c f → opField c 8 8 % 16 ≠ 0 → Answers (.identify c) s fun t =>
    Completes s t c f 0x12 0 ∧ t.out = s.out) ∧
  (∀ (ctl : Fin 4) (s : State), (s.net.can.at ctl).st = 2 → Answers (.canBusOffRecovery ctl) s fun t =>
    t.net.can.at ctl = { s.net.can.at ctl with st := 0, tec := 0, rec_ := 0 } ∧
    (∀ k, k ≠ ctl → t.net.can.at k = s.net.can.at k) ∧ t = { s with net := { s.net with can := t.net.can } }) ∧
  (∀ (m : Fin 2) (speed : BitVec 2) (s : State), s.sec.booted = true → s.isl.net = true → speed ≠ 3 →
    Answers (.ethLinkChange m true speed) s fun t => (t.net.eth.at m).link = true ∧ (t.net.eth.at m).speed = speed) ∧
  ∀ (m : Fin 2) (speed : BitVec 2) (s : State), s.sec.booted = true → s.isl.net = true →
    Answers (.ethLinkChange m false speed) s fun t => (t.net.eth.at m).link = false ∧ (t.net.eth.at m).speed = 3

/-- From R45, R44, R50, R57, R58, R59: a host-interface reset puts the rings block and the MSI-X table at their reset values, ends every stream
and every command for the host, keeps the submission-stamp counter, and touches nothing that measures or protects; Bus Master Enable stops
and resumes the traffic at the 2 µs gap. That a reset clears Bus Master Enable is the model's (log entry 6). A poll that is due, or that a
nudge asks for, reads the 256-byte doorbell block; a nudge leaves the gap schedule; a poll that finds no change a millisecond after the last
activity doubles the gap up to code 9; a failed read changes no ring pair, and the third in a row sets DB_ERR, which stops polling until it
is cleared; the doorbell base is locked while polling. -/
def Obligations.HostInterfaceResetAndPolling : Prop :=
  (∀ (kind : HifReset) (s : State), Answers (.hostInterfaceReset kind) s fun t =>
    t.rings = Bank.fill 16 {} ∧ t.msix = Bank.fill 32 {} ∧ t.hif.flights = [] ∧ t.hif.streams = [] ∧
    t.hif.issued = s.hif.issued ∧ t.hif.pollEn = false ∧ t.hif.evtVec = 0 ∧ t.hif.dbBase = 0 ∧ t.misc.sel.ring = 0 ∧
    t.evt = { s.evt with dbErr := false, ring := Bank.fill 16 0 } ∧
    t = { s with hif := t.hif, rings := t.rings, msix := t.msix, misc := t.misc, evt := t.evt, troughs := t.troughs }) ∧
  (∀ s : State, Answers (.busMasterEnableChange false) s fun t => t = { s with hif := { s.hif with busMaster := false } }) ∧
  (∀ s : State, s.hif.busMaster = false → Answers (.busMasterEnableChange true) s fun t =>
    t.hif.busMaster = true ∧ t.hif.pollGap = 0 ∧ t.hif.dueAt = s.now + 128 ∧ t.rings = s.rings ∧
    t = { s with hif := t.hif, msix := t.msix, out := t.out }) ∧
  (∀ s : State, s.polling = true → s.evt.dbErr = false → s.hif.outstanding = false → s.hif.dueAt ≤ s.now ∨ s.hif.nudge = true →
    Answers .doorbellPoll s fun t => t.out = s.out ++ [.hostRead s.hif.dbBase 256] ∧ t.hif.outstanding = true ∧
      t.hif.nudge = false ∧ t.hif.pollGap = s.hif.pollGap ∧ t = { s with hif := t.hif, out := t.out }) ∧
  (∀ s : State, s.evt.dbErr = true → Answers .doorbellPoll s fun t => t = s) ∧
  (∀ (v : Word) (s : State), s.pwr.st = .run → s.polling = true → Answers (.pollNudge v) s fun t =>
    t = { s with hif := { s.hif with nudge := true } }) ∧
  (∀ s : State, s.hif.outstanding = true → Answers (.doorbellReadComplete none) s fun t =>
    t.hif.outstanding = false ∧ t.hif.dbFails = s.hif.dbFails + 1 ∧ t.rings = s.rings ∧
    t.evt.dbErr = (s.evt.dbErr || decide (3 ≤ s.hif.dbFails + 1))) ∧
  (∀ (slots : Bank 16 DbSlot) (s : State), s.hif.outstanding = true →
    (∀ r, (s.rings.at r).st = .disabled) → s.hif.early = false → s.hif.activeAt + 64000 ≤ s.now →
    Answers (.doorbellReadComplete (some slots)) s fun t =>
      t.hif.pollGap = min 9 (s.hif.pollGap + 1) ∧ t.hif.dueAt = s.hif.dueAt + gapTicks (min 9 (s.hif.pollGap + 1)) ∧
      t.hif.outstanding = false ∧ t.hif.dbFails = 0 ∧ t.evt = s.evt) ∧
  (∀ (slots : Bank 16 DbSlot) (r : Fin 16) (s : State), s.hif.outstanding = true → (s.rings.at r).st = .active →
    2 ^ (s.rings.at r).sqLog2.toNat ≤ (slots.at r).sqPi.toNat → Answers (.doorbellReadComplete (some slots)) s fun t =>
      (t.rings.at r).st = .error ∧ (t.evt.ring.at r).getLsbD 2 = true) ∧
  (∀ s : State, Answers .dbErrClear s fun t =>
    t = { s with evt := { s.evt with dbErr := false }, hif := { s.hif with dbFails := 0 } }) ∧
  (∀ (hi : Bool) (v : Word) (s : State), s.hif.pollEn = true → Answers (.dbBaseWrite hi v) s fun t =>
    t.hif = s.hif ∧ t.evt.acc = true ∧ t.misc.accErr.kind = 1 ∧ t.misc.accErr.off = if hi then 0x0C08 else 0x0C04) ∧
  ∀ (v : Word) (s : State), s.hif.pollEn = false → Answers (.dbBaseWrite true v) s fun t =>
    t = { s with hif := { s.hif with dbBase := v ++ s.hif.dbBase.extractLsb' 0 32 } }

/-- From R53: enabling a Disabled ring pair with valid sizes makes it Active at index 0 and phase 1, invalid sizes set CFG_ERR; disabling an
Active one drains it and stops its streams, disabling one in Error drains it and discards; an error completion puts it in Error; a drained
one is Disabled with QUIESCED. -/
def Obligations.RingPairStates : Prop :=
  (∀ (r : Fin 16) (v : Word) (s : State), (s.rings.at r).st = .disabled →
    4 ≤ (v.extractLsb' 4 4).toNat → (v.extractLsb' 4 4).toNat ≤ 12 → 4 ≤ (v.extractLsb' 8 4).toNat → (v.extractLsb' 8 4).toNat ≤ 12 →
    Answers (.ringEnable r v) s fun t =>
      (t.rings.at r).st = .active ∧ (t.rings.at r).enable = true ∧ (t.rings.at r).sqCi = 0 ∧ (t.rings.at r).cqPi = 0 ∧
      (t.rings.at r).cqPhase = true ∧ (t.rings.at r).cls = v.extractLsb' 1 2 ∧ (t.rings.at r).quantum = v.extractLsb' 24 8 ∧
      (∀ q, q ≠ r → t.rings.at q = { s.rings.at q with eligibleAt := (t.rings.at q).eligibleAt }) ∧ t = { s with rings := t.rings }) ∧
  (∀ (r : Fin 16) (v : Word) (s : State), (s.rings.at r).st = .disabled → (v.extractLsb' 4 4).toNat < 4 →
    Answers (.ringEnable r v) s fun t =>
      (t.rings.at r).st = .disabled ∧ (t.rings.at r).enable = false ∧ (t.evt.ring.at r).getLsbD 1 = true ∧
      (∀ q, q ≠ r → t.rings.at q = s.rings.at q) ∧ t = { s with rings := t.rings, evt := t.evt, msix := t.msix, out := t.out }) ∧
  (∀ (r : Fin 16) (v : Word) (s : State), (s.rings.at r).st = .active → Answers (.ringDisable r v) s fun t =>
    (t.rings.at r).st = .draining ∧ (t.rings.at r).enable = false ∧ (t.rings.at r).reading = 0 ∧
    ∀ x ∈ t.hif.streams, x.cmd.ring ≠ r) ∧
  (∀ (r : Fin 16) (v : Word) (s : State), (s.rings.at r).st = .error → Answers (.ringDisable r v) s fun t =>
    (t.rings.at r).st = .draining ∧ (t.rings.at r).discard = true) ∧
  (∀ (r : Fin 16) (kind : DmaKind) (s : State), (s.rings.at r).st = .active ∨ (s.rings.at r).st = .draining →
    Answers (.dmaErrorCompletion r kind) s fun t =>
      (t.rings.at r).st = .error ∧ (t.evt.ring.at r).getLsbD 3 = true ∧ (∀ q, q ≠ r → t.evt.ring.at q = s.evt.ring.at q) ∧
      (∀ q, q ≠ r → t.rings.at q = { s.rings.at q with eligibleAt := (t.rings.at q).eligibleAt })) ∧
  ∀ (r : Fin 16) (s : State), (s.rings.at r).st = .draining → s.hif.ringFlights r = 0 → (s.rings.at r).trough = [] →
    Answers (.drainComplete r) s fun t =>
      (t.rings.at r).st = .disabled ∧ (t.rings.at r).enable = false ∧ (t.evt.ring.at r).getLsbD 0 = true ∧
      (∀ q, q ≠ r → t.rings.at q = s.rings.at q) ∧ t = { s with rings := t.rings, evt := t.evt, msix := t.msix, out := t.out }

/-- From R63, R64, R67: an entry that arrives takes `STAMP_NEXT`, which rises by 1 whatever the checks find; an opcode that is not assigned, a
class that does not match and a dependency on itself end it with their statuses; an entry that passes without dependencies executes, and
ACK_FETCH posts FETCHED. R332, R333: a visit reads what credit and limits allow, in ring order. -/
def Obligations.FetchAndChecksAtFetch : Prop :=
  (∀ (r : Fin 16) (e : BitVec 512) (s : State), s.hif.fetchQ.head? = some r → (s.rings.at r).st = .active →
    (s.rings.at r).discard = false → s.hif.flight s.hif.stampNext = none → opcodeAssigned (e.extractLsb' 0 8) = false →
    Answers (.submissionArrival r e) s fun t => t.hif.issued = s.hif.issued + 1 ∧
      (t.rings.at r).sqCi = ((s.rings.at r).sqCi + 1) % 2 ^ (s.rings.at r).sqLog2.toNat ∧
      t.hif.finalOf s.hif.stampNext = some ⟨s.hif.stampNext, 0x10, isStreamOp (e.extractLsb' 0 8)⟩ ∧
      ∃ c, (t.rings.at r).trough = (s.rings.at r).trough ++ [c] ∧ c.status = 0x10 ∧ c.final = true ∧ c.tag = e.extractLsb' 16 16 ∧
        c.stamp = s.hif.stampNext ∧ c.result = 0) ∧
  (∀ (r : Fin 16) (e : BitVec 512) (s : State), s.hif.fetchQ.head? = some r → (s.rings.at r).st = .active →
    (s.rings.at r).discard = false → s.hif.flight s.hif.stampNext = none → opcodeAssigned (e.extractLsb' 0 8) = true →
    (e.extractLsb' 8 2 ≠ e.extractLsb' 6 2 ∨ e.extractLsb' 8 2 ≠ (s.rings.at r).cls) →
    Answers (.submissionArrival r e) s fun t => t.hif.issued = s.hif.issued + 1 ∧
      ∃ c, (t.rings.at r).trough = (s.rings.at r).trough ++ [c] ∧ c.status = 0x11 ∧ c.final = true) ∧
  (∀ (r : Fin 16) (e : BitVec 512) (s : State), s.hif.fetchQ.head? = some r → (s.rings.at r).st = .active →
    (s.rings.at r).discard = false → s.hif.flight s.hif.stampNext = none → opcodeAssigned (e.extractLsb' 0 8) = true →
    e.extractLsb' 8 2 = e.extractLsb' 6 2 → e.extractLsb' 8 2 = (s.rings.at r).cls → 1 ≤ (e.extractLsb' 10 2).toNat →
    e.extractLsb' 64 32 = s.hif.stampNext → e.extractLsb' 96 8 = 1 →
    Answers (.submissionArrival r e) s fun t =>
      ∃ c, (t.rings.at r).trough = (s.rings.at r).trough ++ [c] ∧ c.status = 0x20 ∧ c.final = true) ∧
  (∀ (r : Fin 16) (e : BitVec 512) (s : State), s.hif.fetchQ.head? = some r → (s.rings.at r).st = .active →
    (s.rings.at r).discard = false → s.hif.flight s.hif.stampNext = none → opcodeAssigned (e.extractLsb' 0 8) = true →
    e.extractLsb' 8 2 = e.extractLsb' 6 2 → e.extractLsb' 8 2 = (s.rings.at r).cls → e.extractLsb' 10 2 = 0 →
    isStreamOp (e.extractLsb' 0 8) = false →
    Answers (.submissionArrival r e) s fun t => t.hif.issued = s.hif.issued + 1 ∧
      t.hif.flight s.hif.stampNext = some
        { cmd := { ring := r, stamp := s.hif.stampNext, tag := e.extractLsb' 16 16, noIrq := e.getLsbD 13, ops := e.extractLsb' 256 256 }
          opcode := e.extractLsb' 0 8, deps := [], stage := .executing, dmaDone := 0 } ∧
      (e.getLsbD 12 = false → (t.rings.at r).trough = (s.rings.at r).trough) ∧
      (e.getLsbD 12 = true → ∃ c, (t.rings.at r).trough = (s.rings.at r).trough ++ [c] ∧ c.status = 0x01 ∧ c.final = false)) ∧
  ∀ (r : Fin 16) (s : State), s.canDma = true → s.agedRing = none → s.mayFetch r = true → (∀ q, q ≠ r → s.mayFetch q = false) →
    Answers .submissionFetch s fun t =>
      t.hif.fetchQ = s.hif.fetchQ ++
        List.replicate (min ((s.rings.at r).credit + max 1 (s.rings.at r).quantum.toNat) (s.fetchRoom r)) r ∧
      t.hif.flights = s.hif.flights ∧ (t.rings.at r).sqCi = (s.rings.at r).sqCi ∧ t.evt = s.evt

/-- From R65, R70 and R335: a dependency that needed SUCCESS and did not get it ends the command DEP_FAILED; one whose dependencies are all
satisfied executes; a data transfer that completes with an error ends its command DMA_ERROR. -/
def Obligations.DependenciesAndDataTransfers : Prop :=
  (∀ (c : Cmd) (f : Flight) (d : Dep) (st : BitVec 8) (s : State), s.hif.flight c.stamp = some f → f.cmd = c → f.stage = .waiting →
    d ∈ f.deps → d.success = true → d.ended = some st → st ≠ 0x00 →
    (s.rings.at c.ring).st ≠ .disabled → (s.rings.at c.ring).discard = false → s.hif.tracked c.stamp = true →
    Answers (.commandDependencyResolved c.stamp) s fun t => Completes s t c f 0x21 0) ∧
  (∀ (c : Cmd) (f : Flight) (s : State), s.hif.flight c.stamp = some f → f.cmd = c → f.stage = .waiting →
    (∀ d ∈ f.deps, d.ended = some 0x00) → Answers (.commandDependencyResolved c.stamp) s fun t =>
      t.hif.flight c.stamp = some { f with stage := .executing } ∧ t.rings = s.rings ∧ t = { s with hif := t.hif }) ∧
  (∀ (c : Cmd) (f : Flight) (s : State), s.hif.flight c.stamp = some f → f.cmd = c → f.stage = .waiting →
    (∃ d ∈ f.deps, d.ended = none) → (∀ d ∈ f.deps, d.ended = none ∨ d.ended = some 0x00) →
    Answers (.commandDependencyResolved c.stamp) s fun t => t = s) ∧
  (∀ (c : Cmd) (f : Flight) (s : State), s.hif.flight c.stamp = some f → f.cmd = c →
    (s.rings.at c.ring).st ≠ .disabled → (s.rings.at c.ring).discard = false → s.hif.tracked c.stamp = true →
    (∀ x ∈ s.hif.streams, x.cmd.stamp ≠ c.stamp) →
    Answers (.commandDataDmaComplete c.stamp false) s fun t => Completes s t c f 0x13 0) ∧
  ∀ (c : Cmd) (f : Flight) (s : State), s.hif.flight c.stamp = some f → f.cmd = c →
    Answers (.commandDataDmaComplete c.stamp true) s fun t =>
      t.hif.flight c.stamp = some { f with dmaDone := f.dmaDone + 1 } ∧ t = { s with hif := t.hif }

/-- From R71, R73, R74, R76, R85: the oldest completion of the trough goes to the host ring, then the mirror, then the interrupt if one is due;
CQ_PI and the phase advance; the coalescing timer and an unmask send the vector that waits. The four NOPs complete SUCCESS and do nothing
else. -/
def Obligations.CompletionsAndNops : Prop :=
  (∀ (r : Fin 16) (c : Completion) (rest : List Completion) (s : State), (s.rings.at r).st = .active ∨ (s.rings.at r).st = .draining →
    s.canDma = true → 0 < (s.rings.at r).hostFree → (s.rings.at r).trough = c :: rest → c.noIrq = true →
    Answers (.completionToHost r) s fun t =>
      (t.rings.at r).trough = rest ∧ (t.rings.at r).cqPi = ((s.rings.at r).cqPi + 1) % 2 ^ (s.rings.at r).cqLog2.toNat ∧
      (t.rings.at r).cqPhase = ((s.rings.at r).cqPhase != ((t.rings.at r).cqPi == 0)) ∧
      ∃ entry, entry.length = 32 ∧ t.out = s.out ++
        [.hostWrite ((s.rings.at r).cqBase + BitVec.ofNat 64 (32 * (s.rings.at r).cqPi)) entry,
         .hostWrite (s.hif.dbBase + BitVec.ofNat 64 (16 * r.val + 8))
           (leBytes 4 ((t.rings.at r).cqPi + 2 ^ 31 * bit (t.rings.at r).cqPhase))]) ∧
  (∀ (r : Fin 16) (s : State), (s.rings.at r).hostFree = 0 → Answers (.completionToHost r) s fun t => t = s) ∧
  (∀ (r : Fin 16) (s : State), (s.rings.at r).irqEn = true → 0 < (s.rings.at r).pendIrq → (s.rings.at r).useTime ≠ 0 →
    (s.rings.at r).oldestAt + 64 * (s.rings.at r).useTime.toNat ≤ s.now → s.canDma = true →
    (s.msix.at ⟨(s.rings.at r).vec.toNat, (s.rings.at r).vec.isLt⟩).masked = false →
    Answers (.coalesceTimer r) s fun t => (t.rings.at r).pendIrq = 0 ∧
      ∃ a d, t.out = s.out ++ [.msix ⟨(s.rings.at r).vec.toNat, (s.rings.at r).vec.isLt⟩ a d]) ∧
  (∀ (v : Fin 32) (s : State), (s.msix.at v).pending = true → s.canDma = true → Answers (.msixUnmask v) s fun t =>
    (t.msix.at v).masked = false ∧ (t.msix.at v).pending = false ∧
    t.out = s.out ++ [.msix v (s.msix.at v).addr (s.msix.at v).data] ∧ t = { s with msix := t.msix, out := t.out }) ∧
  (∀ (v : Fin 32) (s : State), (s.msix.at v).pending = false → Answers (.msixUnmask v) s fun t =>
    (t.msix.at v).masked = false ∧ t = { s with msix := t.msix }) ∧
  ∀ mk ∈ [Instr.nopAdmin, Instr.nopControl, Instr.nopQuery, Instr.nopStream], ∀ (c : Cmd) (f : Flight) (s : State),
    Executing s c f → Answers (mk c) s fun t => Completes s t c f 0x00 0 ∧ t = { s with rings := t.rings, hif := t.hif }

/-- From R81, R82, R84: a stream command whose operands are in range and whose sources are free becomes an active stream and completes nothing
yet; a list of no buffers is a bad operand, a source that feeds another stream is busy; STREAM_STOP ends the stream, whose CANCELLED
completion stands in the trough before its own. -/
def Obligations.StreamCommands : Prop :=
  (∀ p ∈ [(Instr.streamSamples, (0xC0 : BitVec 8)), (Instr.streamImpedance, 0xC1), (Instr.streamEstimates, 0xC2)],
    ∀ (c : Cmd) (f : Flight) (s : State), Executing s c f → opField c 0 8 % 16 = 0 → 1 ≤ opField c 8 4 → opField c 8 4 ≤ 65535 →
      opField c 16 2 ≤ 1000 → c.ops.extractLsb' 96 32 ≠ 0 →
      (∀ i : Fin 32, (c.ops.extractLsb' 96 32).getLsbD i.val = true → (s.stalls.at i).str ≠ none) →
      (∀ x ∈ s.hif.streams, x.opcode = p.2 → x.mask &&& c.ops.extractLsb' 96 32 = 0) →
      Answers (p.1 c) s fun t =>
        (∃ x, t.hif.streams = s.hif.streams ++ [x] ∧ x.cmd = c ∧ x.opcode = p.2 ∧ x.mask = c.ops.extractLsb' 96 32 ∧
          x.count = opField c 8 4 ∧ x.idx = 0 ∧ x.cur = none ∧ x.records = 0) ∧
        t.hif.flight c.stamp = some f ∧ t = { s with hif := t.hif }) ∧
  (∀ mk ∈ [Instr.streamSamples, Instr.streamImpedance, Instr.streamEstimates], ∀ (c : Cmd) (f : Flight) (s : State),
    Executing s c f → opField c 8 4 = 0 → Answers (mk c) s fun t => Completes s t c f 0x12 0 ∧ t.hif.streams = s.hif.streams) ∧
  (∀ (c : Cmd) (f : Flight) (x : StreamS) (s : State), Executing s c f →
    s.hif.streams.find? (fun y => y.cmd.stamp == c.ops.extractLsb' 0 32) = some x → x.cmd.stamp ≠ c.stamp →
    Answers (.streamStop c) s fun t =>
      (∀ y ∈ t.hif.streams, y.cmd.stamp ≠ x.cmd.stamp) ∧ t.hif.flight x.cmd.stamp = none ∧ t.hif.flight c.stamp = none ∧
      t.hif.finalOf c.stamp = some ⟨c.stamp, 0x00, isStreamOp f.opcode⟩ ∧
      (s.hif.tracked x.cmd.stamp = true → t.hif.finalOf x.cmd.stamp = some ⟨x.cmd.stamp, 0x15, true⟩)) ∧
  ∀ (c : Cmd) (f : Flight) (s : State), Executing s c f → (∀ x ∈ s.hif.streams, x.cmd.stamp ≠ c.ops.extractLsb' 0 32) →
    s.hif.flight (c.ops.extractLsb' 0 32) = none → s.hif.finalOf (c.ops.extractLsb' 0 32) = none →
    Answers (.streamStop c) s fun t => Completes s t c f 0x12 0

/-- From R78, R79, R80, R83: a record enters its trough when an active stream takes it, behind a gap marker when records were lost, and is
counted when the trough is full; with no stream it is not kept; a record goes whole into the current buffer, and a buffer that holds one
completes after FLUSH_MS. -/
def Obligations.TroughsAndBuffers : Prop :=
  (∀ (i : Fin 32) (words : List (BitVec 32)) (m : BitVec 32) (s : State), (words.headD 0).extractLsb' 0 8 = 0x01 →
    (∃ x ∈ s.hif.streams, x.opcode = 0xC0 ∧ (x.mask &&& BitVec.ofNat 32 (2 ^ i.val)) ≠ 0) → (s.troughs.stall.at i).lost = 0 →
    (s.troughs.stall.at i).used + 4 * words.length + 16 ≤ 16384 →
    Answers (.troughRecord (.stall i) ⟨words, m, none⟩) s fun t =>
      (∃ item, (t.troughs.stall.at i).items = (s.troughs.stall.at i).items ++ [item] ∧ item.words = words) ∧
      (∀ j, j ≠ i → t.troughs.stall.at j = s.troughs.stall.at j) ∧ t = { s with troughs := t.troughs }) ∧
  (∀ (i : Fin 32) (words : List (BitVec 32)) (m : BitVec 32) (s : State), (words.headD 0).extractLsb' 0 8 = 0x01 →
    (∃ x ∈ s.hif.streams, x.opcode = 0xC0 ∧ (x.mask &&& BitVec.ofNat 32 (2 ^ i.val)) ≠ 0) →
    16384 < (s.troughs.stall.at i).used + 4 * words.length + 16 →
    Answers (.troughRecord (.stall i) ⟨words, m, none⟩) s fun t =>
      (t.troughs.stall.at i).items = (s.troughs.stall.at i).items ∧
      (t.troughs.stall.at i).lost = satAdd 0xFFFFFFFF (s.troughs.stall.at i).lost 1) ∧
  (∀ (src : Source) (words : List (BitVec 32)) (m : BitVec 32) (s : State), s.hif.streams = [] →
    Answers (.troughRecord src ⟨words, m, none⟩) s fun t => t = s) ∧
  (∀ (i : Fin 32) (item : TroughItem) (rest : List TroughItem) (x : StreamS) (buf : BitVec 64) (e : BitVec 128) (len : Nat) (s : State),
    (s.troughs.stall.at i).items = item :: rest → s.takerOf item = some x → s.streaming = true → s.canDma = true →
    (s.rings.at x.cmd.ring).troughFull = false → (s.rings.at x.cmd.ring).st ≠ .error → x.cur = some (buf, len) →
    x.bytes + 4 * item.words.length ≤ len → Answers (.streamRecordTransfer (.stall i) e) s fun t =>
      (t.troughs.stall.at i).items = rest ∧
      t.out = s.out ++ [.hostWrite (buf + BitVec.ofNat 64 x.bytes) (item.words.flatMap (fun w => leBytes 4 w.toNat))] ∧
      t.rings = s.rings) ∧
  ∀ (x : StreamS) (since : Nat) (s : State), s.hif.streams.find? (fun y => y.cmd.stamp == x.cmd.stamp) = some x →
    x.since = some since → 0 < x.flushMs → 0 < x.records → since + 64000 * x.flushMs ≤ s.now →
    (s.rings.at x.cmd.ring).troughFull = false → x.idx + 1 < x.count → (s.rings.at x.cmd.ring).st ≠ .disabled →
    (s.rings.at x.cmd.ring).discard = false → Answers (.streamFlushTimer x.cmd.stamp) s fun t =>
      ∃ done, (t.rings.at x.cmd.ring).trough = (s.rings.at x.cmd.ring).trough ++ [done] ∧ done.status = 0x00 ∧ done.final = false ∧
        done.result = dwords x.idx x.bytes x.records 0 ∧ done.gap = x.gap ∧ done.tag = x.cmd.tag

/-- From R87, R88, R92, R104: FRAME_EDGE takes yard time to the next multiple of 8000 ticks and opens the window of every driven stall with that
time; a record with a bad CRC, of KIND 3 or outside its window counts in CRC_CNT and is not used; the end of a window counts what was
expected and has not come. That a frame edge is reached by one command is the model's choice (log entry 12). -/
def Obligations.FramesAndUpstreamRecords : Prop :=
  (∀ (sense : Bank 12 Nat) (s : State), s.isl.tb = true → Answers (.frameEdge sense) s fun t =>
    t.clk.ytime = 8000 * (s.clk.ytime / 8000 + 1) ∧
    ∀ i, s.driven i = true → (s.stalls.at i).lstate ≠ .phyFault →
      ∃ e, OutEvent.window i e (BitVec.ofNat 64 (8000 * (s.clk.ytime / 8000 + 1))) ∈ t.out) ∧
  (∀ (sense : Bank 12 Nat) (s : State), s.isl.tb = false → Answers (.frameEdge sense) s fun t => t = s) ∧
  (∀ (i : Fin 32) (r : UpRecord) (s : State), s.driven i = true → (s.stalls.at i).lstate ≠ .phyFault →
    (r.crcOk = false ∨ r.inWindow = false ∨ r.kind = 3) → Answers (.upstreamRecord i r) s fun t =>
      t = { s with stalls := s.stalls.upd i (fun x => { x with crcCnt := satAdd 0xFFFF x.crcCnt 1 }) }) ∧
  (∀ (i : Fin 32) (s : State), s.driven i = true → (s.stalls.at i).rollCall = [] →
    (∀ k, s.expectedSweep (unitPos i k) s.frame = none ∧ s.expectedPair (unitPos i k) s.frame = none) →
    Answers (.upstreamWindowEnd i) s fun t => ∀ k,
      (t.ulink.at (unitPos i k)).missRun = (s.ulink.at (unitPos i k)).missRun ∧
      (t.ulink.at (unitPos i k)).gotSweep = false ∧ (t.ulink.at (unitPos i k)).gotCurrent = false) ∧
  ∀ (i : Fin 32) (start : Nat) (s : State), s.driven i = true → (s.stalls.at i).rollCall = [] →
    s.expectedSweep (unitPos i 0) s.frame = some start → (s.ulink.at (unitPos i 0)).gotSweep = false →
    (∀ k, k ≠ 0 → (s.ulink.at (unitPos i k)).sweepFrom = none) →
    Answers (.upstreamWindowEnd i) s fun t =>
      (t.ulink.at (unitPos i 0)).missRun = (s.ulink.at (unitPos i 0)).missRun + 1 ∧
      (t.stalls.at i).missCnt = satAdd 0x7FFF (s.stalls.at i).missCnt 1

/-- From R106, R107, R108: a break at position k > 0 leaves the stall Degraded with the units below reached, a break at position 0 leaves it
Lost; the boundary starts a full enumeration of a Lost stall, and other frames start none. R110 and the register tables of chapter 03: a
loopback test that reads its pattern back passes, another value fails it; three failures in a row are a PHY fault, eight passes in a row
start a full enumeration; CLR clears the two error counters of one stall. -/
def Obligations.BreaksLoopbackAndPhyFaults : Prop :=
  (∀ (i : Fin 32) (k : Fin 4) (s : State), k ≠ 0 → s.driven i = true → (s.ulink.at (unitPos i k)).reached = true →
    3 ≤ (s.ulink.at (unitPos i k)).missRun → (s.ulink.at (unitPos i (k - 1))).missRun = 0 →
    Answers (.breakDeclared i k) s fun t =>
      (t.stalls.at i).lstate = .degraded ∧ (t.stalls.at i).breakPos = BitVec.ofNat 3 k.val ∧
      (t.stalls.at i).breakCnt = satAdd 0xFFFF (s.stalls.at i).breakCnt 1 ∧ t.evt.stall.getLsbD i.val = true ∧
      (∀ j, k.val ≤ j.val → (t.ulink.at (unitPos i j)).reached = false) ∧
      ∀ j, j.val < k.val → (t.ulink.at (unitPos i j)).reached = (s.ulink.at (unitPos i j)).reached) ∧
  (∀ (i : Fin 32) (s : State), s.driven i = true → (s.ulink.at (unitPos i 0)).reached = true →
    3 ≤ (s.ulink.at (unitPos i 0)).missRun → Answers (.breakDeclared i 0) s fun t =>
      (t.stalls.at i).lstate = .lost ∧ (t.stalls.at i).breakPos = 0 ∧ ∀ j, (t.ulink.at (unitPos i j)).reached = false) ∧
  (∀ (i : Fin 32) (k : Fin 4) (s : State), (s.ulink.at (unitPos i k)).missRun < 3 → Answers (.breakDeclared i k) s fun t => t = s) ∧
  (∀ (i : Fin 32) (s : State), s.frame % 8 = 0 → s.driven i = true → (s.stalls.at i).lstate = .lost → (s.stalls.at i).enum = none →
    Answers .eightFrameBoundary s fun t => (t.stalls.at i).lstate = .enumerating ∧ (t.stalls.at i).cause = 1 ∧
      (t.stalls.at i).enumCnt = (s.stalls.at i).enumCnt + 1) ∧
  (∀ s : State, s.frame % 8 ≠ 0 → Answers .eightFrameBoundary s fun t => t = s) ∧
  (∀ (i : Fin 32) (s : State), s.driven i = true → Answers (.loopbackTest i (s.stalls.at i).pattern) s fun t =>
    (t.stalls.at i).loopOk = true ∧ (t.stalls.at i).failRun = 0 ∧ (t.stalls.at i).passRun = (s.stalls.at i).passRun + 1 ∧
    (t.stalls.at i).loopAlt = !(s.stalls.at i).loopAlt ∧ (∀ j, j ≠ i → t.stalls.at j = s.stalls.at j) ∧ t = { s with stalls := t.stalls }) ∧
  (∀ (i : Fin 32) (v : Word) (s : State), s.driven i = true → v ≠ (s.stalls.at i).pattern → Answers (.loopbackTest i v) s fun t =>
    (t.stalls.at i).loopOk = false ∧ (t.stalls.at i).failRun = (s.stalls.at i).failRun + 1 ∧ (t.stalls.at i).passRun = 0 ∧
    (t.stalls.at i).loopFail = satAdd 0xFFFF (s.stalls.at i).loopFail 1 ∧ (t.stalls.at i).loopRun = 0 ∧ t = { s with stalls := t.stalls }) ∧
  (∀ (i : Fin 32) (s : State), s.driven i = true → 3 ≤ (s.stalls.at i).failRun → (s.stalls.at i).lstate ≠ .phyFault →
    Answers (.phyFault i) s fun t => (t.stalls.at i).lstate = .phyFault ∧
      (t.stalls.at i).breakCnt = satAdd 0xFFFF (s.stalls.at i).breakCnt 1 ∧ t.evt.stall.getLsbD i.val = true ∧
      ∀ k, (t.ulink.at (unitPos i k)).reached = false) ∧
  (∀ (i : Fin 32) (s : State), (s.stalls.at i).failRun < 3 → Answers (.phyFault i) s fun t => t = s) ∧
  (∀ (i : Fin 32) (s : State), s.driven i = true → (s.stalls.at i).lstate = .phyFault → 8 ≤ (s.stalls.at i).passRun →
    Answers (.phyFaultRecovery i) s fun t => (t.stalls.at i).lstate = .enumerating ∧ (t.stalls.at i).cause = 4 ∧
      (t.stalls.at i).enumCnt = (s.stalls.at i).enumCnt + 1) ∧
  ∀ (i : Fin 32) (s : State), Answers (.stallErrCntClr i) s fun t =>
    t = { s with stalls := s.stalls.upd i (fun x => { x with crcCnt := 0, missCnt := 0 }) }

/-- From R96, R103, R113: ENUMERATE starts a full enumeration of every named stall and waits, and is refused where a stall is out of service or
held; a first query that nobody answers within four frames ends with the stall Lost; ROSTER_READ writes 104 bytes. -/
def Obligations.EnumerationAndRosterRead : Prop :=
  (∀ (c : Cmd) (f : Flight) (s : State), Executing s c f → opField c 0 4 ≠ 0 →
    (∀ i : Fin 32, (opField c 0 4).testBit i.val = true → (s.stalls.at i).str ≠ none ∧ (s.stalls.at i).oos = false ∧
      s.stallHeld i = false ∧ (s.stalls.at i).enum = none) →
    Answers (.enumerate c) s fun t => ∀ i : Fin 32, (opField c 0 4).testBit i.val = true →
      (t.stalls.at i).lstate = .enumerating ∧ (t.stalls.at i).cause = 2 ∧ c ∈ (t.stalls.at i).enumCmds ∧
      (t.stalls.at i).enumCnt = (s.stalls.at i).enumCnt + 1) ∧
  (∀ (c : Cmd) (f : Flight) (i : Fin 32) (s : State), Executing s c f → (opField c 0 4).testBit i.val = true → (s.stalls.at i).oos = true →
    (∀ j : Fin 32, (opField c 0 4).testBit j.val = true → (s.stalls.at j).str ≠ none) →
    Answers (.enumerate c) s fun t => Completes s t c f 0x31 0x0302 ∧ t.stalls = s.stalls) ∧
  (∀ (c : Cmd) (f : Flight) (s : State), Executing s c f → opField c 0 4 = 0 → Answers (.enumerate c) s fun t =>
    Completes s t c f 0x12 0 ∧ t.stalls = s.stalls) ∧
  (∀ (i : Fin 32) (r : EnumRun) (s : State), (s.stalls.at i).enum = some r → r.phase = .query → r.pos = 0 → r.first = 0 → r.rejoin = false →
    r.a + 4 ≤ s.frame → (s.stalls.at i).lost = false → (∀ k, (s.ulink.at (unitPos i k)).foundType = 0) →
    Answers (.enumReplyTimeout i) s fun t => (t.stalls.at i).lstate = .lost ∧ (t.stalls.at i).enum = none ∧ (t.stalls.at i).found = 0 ∧
      t.evt.stall.getLsbD i.val = true) ∧
  ∀ (c : Cmd) (f : Flight) (s : State), Executing s c f → opByte c 0 < 32 → opField c 8 8 % 16 = 0 → Answers (.rosterRead c) s fun t =>
    Completes s t c f 0x00 104 ∧ ∃ bytes, bytes.length = 104 ∧
      t.out = s.out ++ [.hostWrite (BitVec.ofNat 64 (opField c 8 8)) bytes] ∧ t = { s with hif := t.hif, rings := t.rings, out := t.out }

/-- From R114, R115: BALANCE_SET replaces the host mask of an MC16 in service and returns it; a mask whose DURATION_S has run out becomes 0; the
lease is renewed with the mask in force. -/
def Obligations.BalancingMasks : Prop :=
  (∀ (c : Cmd) (f : Flight) (i : Fin 32) (k : Fin 4) (s : State), Executing s c f → opByte c 0 = i.val → opByte c 1 = k.val →
    s.isMc16 (unitPos i k) = true → (s.stalls.at i).oos = false → Answers (.balanceSet c) s fun t =>
      Completes s t c f 0x00 (BitVec.ofNat 128 (opField c 2 2)) ∧
      (t.ulink.at (unitPos i k)).hostMask = BitVec.ofNat 16 (opField c 2 2) ∧
      (t.ulink.at (unitPos i k)).hostDur = opField c 4 2 ∧
      (∀ u, u ≠ unitPos i k → t.ulink.at u = s.ulink.at u) ∧ t = { s with ulink := t.ulink, hif := t.hif, rings := t.rings }) ∧
  (∀ (c : Cmd) (f : Flight) (s : State), Executing s c f → 32 ≤ opByte c 0 ∨ 4 ≤ opByte c 1 → Answers (.balanceSet c) s fun t =>
    Completes s t c f 0x12 0 ∧ t.ulink = s.ulink) ∧
  (∀ (u : Fin 128) (since : Nat) (s : State), (s.ulink.at u).hostFrom = some since → 0 < (s.ulink.at u).hostDur →
    since + 64000000 * (s.ulink.at u).hostDur ≤ s.now → Answers (.balanceDurationExpiry u) s fun t =>
      (t.ulink.at u).hostMask = 0 ∧ (t.ulink.at u).hostDur = 0 ∧ t = { s with ulink := t.ulink }) ∧
  ∀ (u : Fin 128) (s : State), s.driven (stallOf u) = true → s.balanced u = true → (s.stalls.at (stallOf u)).enum = none →
    Answers (.balanceLeaseRefresh u) s fun t => (t.ulink.at u).leaseAt = s.frame ∧
      t.out = s.out ++ [.link (stallOf u) s.frame ⟨false, unitOf u, 0x07, (s.ulink.at u).testArg ++ (s.ulink.at u).applied⟩] ∧
      t = { s with ulink := t.ulink, out := t.out }

/-- From R101, R102, R111, R112: a signed package whose sequence rises, for stalls that are neither held nor enumerating, is taken whole: the
rosters of a ROSTER_ADOPT, the service of a STALL_SERVICE; the shared sequence is stored. A sequence that does not rise is refused with
0x0304, and a signature that does not verify ends AUTH_FAIL, with nothing changed. -/
def Obligations.StallPackages : Prop :=
  (∀ (c : Cmd) (f : Flight) (pkg : List Byte) (s : State), Executing s c f → s.rosterPackageOk (opField c 8 4) pkg = true →
    opField c 0 8 % 16 = 0 → packageSigned s.sec.owner pkg = true → s.misc.stallSeq.toNat < field pkg 4 4 →
    (∀ i ∈ stallsIn (field pkg 0x10 4), s.stallHeld i = false ∧ (s.stalls.at i).oos = false ∧ (s.stalls.at i).enumerating = false) →
    (∀ e ∈ rosterEntries pkg, (s.ulink.at e.1).foundType = e.2.1 ∧ (s.ulink.at e.1).foundId = e.2.2.2 ∧
      (e.2.1 ≠ 0 → (s.ulink.at e.1).reached = true)) →
    Answers (.rosterAdopt c pkg) s fun t => t.misc.stallSeq = BitVec.ofNat 32 (field pkg 4 4) ∧
      (∀ e ∈ rosterEntries pkg, (t.ulink.at e.1).rosterType = e.2.1 ∧ (t.ulink.at e.1).rosterId = e.2.2.2) ∧
      Ended t c 0x00) ∧
  (∀ (c : Cmd) (f : Flight) (pkg : List Byte) (s : State), Executing s c f → s.rosterPackageOk (opField c 8 4) pkg = true →
    opField c 0 8 % 16 = 0 → packageSigned s.sec.owner pkg = true → field pkg 4 4 ≤ s.misc.stallSeq.toNat →
    Answers (.rosterAdopt c pkg) s fun t => Completes s t c f 0x31 0x0304 ∧ t = { s with hif := t.hif, rings := t.rings }) ∧
  (∀ (c : Cmd) (f : Flight) (pkg : List Byte) (s : State), Executing s c f → s.rosterPackageOk (opField c 8 4) pkg = true →
    opField c 0 8 % 16 = 0 → s.sec.owner = none → Answers (.rosterAdopt c pkg) s fun t =>
      Completes s t c f 0x30 0 ∧ t.evt.sec.getLsbD 2 = true ∧ t.ulink = s.ulink ∧ t.misc = s.misc) ∧
  ∀ (c : Cmd) (f : Flight) (pkg : List Byte) (i : Fin 32) (s : State), Executing s c f → opField c 8 4 = 96 → pkg.length = 96 →
    packageHead 0x0D01 pkg = true → stallsIn (field pkg 0x10 4) = [i] → field pkg 0x14 1 = 0 → zeroBytes pkg 0x15 0x20 = true →
    (s.stalls.at i).str ≠ none → opField c 0 8 % 16 = 0 → packageSigned s.sec.owner pkg = true →
    s.misc.stallSeq.toNat < field pkg 4 4 → s.stallHeld i = false → (unitsOf i).any s.isMp4 = false → (s.stalls.at i).oos = false →
    Answers (.stallService c pkg) s fun t => (t.stalls.at i).oos = true ∧ (t.stalls.at i).lstate = .outOfService ∧
      (∀ k, (t.ulink.at (unitPos i k)).reached = false) ∧ t.misc.stallSeq = BitVec.ofNat 32 (field pkg 4 4) ∧
      Ended t c 0x00

/-- From R120, R125, R149: at its boundary an accepted change of RATE or slot list takes effect and its command completes with the frame number
of the boundary; before it nothing happens. A new list starts the slot history and the averaging window of its unit again. -/
def Obligations.RatesAndSlotListsTakeEffect : Prop :=
  (∀ (str : Fin 4) (rate : BitVec 2) (b : Nat) (c : Cmd) (f : Flight) (s : State), Executing s c f →
    (s.strs.at str).ratePend = [(rate, b, c)] → b ≤ s.frame → Answers (.rateChangeApply str) s fun t =>
      (t.strs.at str).rate = rate ∧ (t.strs.at str).ratePend = [] ∧ (∀ j, j ≠ str → t.strs.at j = s.strs.at j) ∧
      Ended t c 0x00 ∧ t.isl = s.isl ∧ t.clk = s.clk ∧ t.halter = s.halter) ∧
  (∀ (str : Fin 4) (s : State), (∀ p ∈ (s.strs.at str).ratePend, s.frame < p.2.1) → Answers (.rateChangeApply str) s fun t => t = s) ∧
  (∀ (u : Fin 128) (codes : List (BitVec 8)) (b : Nat) (c : Cmd) (f : Flight) (s : State), Executing s c f →
    (s.uswp.at u).staged = some ⟨codes, some b, [c]⟩ → b ≤ s.frame → Answers (.slotListApply u) s fun t =>
      (t.uswp.at u).codes = codes ∧ (t.uswp.at u).staged = none ∧
      ((s.uswp.at u).codes ≠ codes → (t.uswp.at u).era = (s.uswp.at u).era + 1 ∧ (t.uswp.at u).win = [] ∧ (t.uswp.at u).winStart = b) ∧
      (∀ v, v ≠ u → t.uswp.at v = s.uswp.at v) ∧ Ended t c 0x00 ∧ t.strs = s.strs ∧ t.clk = s.clk) ∧
  ∀ (u : Fin 128) (codes : List (BitVec 8)) (b : Nat) (cs : List Cmd) (s : State), (s.uswp.at u).staged = some ⟨codes, some b, cs⟩ →
    s.frame < b → Answers (.slotListApply u) s fun t => t = s

/-- From R144 to R147: a kind whose count has reached DEB and that is enabled becomes Tripped, its request enters one dedicated crossing and
TRIP_CNT counts it; a Tripped kind clears once it is released or disabled; no other kind changes; TRIP_LIMITS in range waits for the frame
edge, where it takes effect; a field out of range is BAD_OPERAND, and a relaxing change for a string in states 1 to 6 is REFUSED 0x0402,
both with no limit changed. -/
def Obligations.TripKindsAndLimits : Prop :=
  (∀ (str : Fin 4) (k : TripKind) (s : State), (s.trips.due.at str).getLsbD (kindPlace k) = true → (s.trips.lim.at str).on k = true →
    Answers (.tripRequest str k) s fun t =>
      (∀ n, (t.strs.at str).tripped.getLsbD n = (decide (n = kindPlace k) || (s.strs.at str).tripped.getLsbD n)) ∧
      (∀ j, j ≠ str → t.strs.at j = s.strs.at j) ∧ t.trips.cnt = satAdd 0xFFFF s.trips.cnt 1 ∧
      (∀ n, (t.trips.due.at str).getLsbD n = ((s.trips.due.at str).getLsbD n && decide (n ≠ kindPlace k))) ∧
      t.evt.trip.getLsbD (4 * str.val + kindPlace k) = true ∧
      (∃ p, t.cross = { s.cross with portToHalter := s.cross.portToHalter.upd p (fun q => q ++ [.trip k str]) }) ∧
      t.trips.lim = s.trips.lim ∧
      t = { s with strs := t.strs, trips := t.trips, evt := t.evt, cross := t.cross, msix := t.msix, out := t.out }) ∧
  (∀ (str : Fin 4) (k : TripKind) (s : State), ((s.trips.due.at str).getLsbD (kindPlace k) = false ∨ (s.trips.lim.at str).on k = false) →
    Answers (.tripRequest str k) s fun t => t = s) ∧
  (∀ (str : Fin 4) (k : TripKind) (s : State), (s.strs.at str).tripped.getLsbD (kindPlace k) = true →
    (s.released str k = true ∨ (s.trips.lim.at str).on k = false) → Answers (.tripKindClear str k) s fun t =>
      (∀ n, (t.strs.at str).tripped.getLsbD n = ((s.strs.at str).tripped.getLsbD n && decide (n ≠ kindPlace k))) ∧
      (∀ j, j ≠ str → t.strs.at j = s.strs.at j) ∧ t = { s with strs := t.strs, halter := t.halter }) ∧
  (∀ (str : Fin 4) (k : TripKind) (s : State), ((s.strs.at str).tripped.getLsbD (kindPlace k) = false ∨
    (s.released str k = false ∧ (s.trips.lim.at str).on k = true)) → Answers (.tripKindClear str k) s fun t => t = s) ∧
  (∀ (u : Fin 128) (s : State), Answers (.alignCntClr u) s fun t =>
    t = { s with uswp := s.uswp.upd u (fun w => { w with reduced := 0, sat := 0 }) }) ∧
  (∀ (c : Cmd) (f : Flight) (str : Fin 4) (s : State), Executing s c f → opByte c 0 = str.val → opByte c 1 ≤ 15 →
    (tripOperands c).inRange = true → s.strHeld str = false → Answers (.tripLimits c) s fun t =>
      t.trips.pend.at str = s.trips.pend.at str ++ [(tripOperands c, c)] ∧ (∀ j, j ≠ str → t.trips.pend.at j = s.trips.pend.at j) ∧
      t.trips.lim = s.trips.lim ∧ t.strs = s.strs ∧ t.rings = s.rings ∧ t.hif.flight c.stamp = some f ∧
      t = { s with trips := t.trips, hif := t.hif }) ∧
  (∀ (c : Cmd) (f : Flight) (str : Fin 4) (s : State), Executing s c f → opByte c 0 = str.val → opByte c 1 ≤ 15 →
    (tripOperands c).inRange = true → s.strHeld str = true → s.trips.pend.at str = [] →
    (s.trips.lim.at str).relaxes (tripOperands c) = true → Answers (.tripLimits c) s fun t =>
      Completes s t c f 0x31 0x0402 ∧ t = { s with hif := t.hif, rings := t.rings }) ∧
  (∀ (c : Cmd) (f : Flight) (s : State), Executing s c f → (3 < opByte c 0 ∨ 15 < opByte c 1 ∨ (tripOperands c).inRange = false) →
    Answers (.tripLimits c) s fun t => Completes s t c f 0x12 0 ∧ t = { s with hif := t.hif, rings := t.rings }) ∧
  ∀ (sense : Bank 12 Nat) (str : Fin 4) (new : TripLimits) (c : Cmd) (s : State), s.isl.tb = true → s.trips.pend.at str = [(new, c)] →
    Answers (.frameEdge sense) s fun t => t.trips.lim.at str = new ∧ t.trips.pend.at str = []

/-- From R148, R149, R150: SWEEP_CONFIG takes a rate, a slot list and averaging settings to wait for their boundary or sweep start, and sets the
sleep check at once; SAMPLE_READ writes one sample record of 128 bytes and returns its age in frames. -/
def Obligations.SweepConfigAndSampleRead : Prop :=
  (∀ (c : Cmd) (f : Flight) (str : Fin 4) (s : State), Executing s c f → opByte c 0 = 0 → opByte c 1 = str.val → opByte c 3 ≤ 3 →
    s.strHeld str = false → Answers (.sweepConfig c) s fun t =>
      (t.strs.at str).ratePend = (s.strs.at str).ratePend ++ [(BitVec.ofNat 2 (opByte c 3), (s.frame + 15) / 8 * 8, c)] ∧
      (t.strs.at str).rate = (s.strs.at str).rate ∧ (∀ j, j ≠ str → t.strs.at j = s.strs.at j) ∧
      t.hif.flight c.stamp = some f ∧ t = { s with strs := t.strs, hif := t.hif }) ∧
  (∀ (c : Cmd) (f : Flight) (str : Fin 4) (s : State), Executing s c f → opByte c 0 = 0 → opByte c 1 = str.val → opByte c 3 ≤ 3 →
    s.strHeld str = true → Answers (.sweepConfig c) s fun t => Completes s t c f 0x31 0x0401 ∧ t = { s with hif := t.hif, rings := t.rings }) ∧
  (∀ (c : Cmd) (f : Flight) (i : Fin 32) (k : Fin 4) (str : Fin 4) (s : State), Executing s c f → opByte c 0 = 1 → opByte c 1 = i.val →
    opByte c 2 = k.val → (s.stalls.at i).str = some str → s.isMc16 (unitPos i k) = true →
    slotListOk (opByte c 3) ((List.range 24).map (fun n => BitVec.ofNat 8 (opByte c (4 + n)))) = true → s.strHeld str = false →
    (s.stalls.at i).oos = false → Answers (.sweepConfig c) s fun t =>
      (t.uswp.at (unitPos i k)).cfgList = ((List.range 24).map (fun n => BitVec.ofNat 8 (opByte c (4 + n)))).take (opByte c 3) ∧
      (t.uswp.at (unitPos i k)).codes = (s.uswp.at (unitPos i k)).codes ∧ (∀ u, u ≠ unitPos i k → t.uswp.at u = s.uswp.at u) ∧
      t.hif.flight c.stamp = some f ∧ t = { s with uswp := t.uswp, stalls := t.stalls, hif := t.hif }) ∧
  (∀ (c : Cmd) (f : Flight) (i : Fin 32) (s : State), Executing s c f → opByte c 0 = 2 → opByte c 1 = i.val → (s.stalls.at i).str ≠ none →
    opByte c 3 = 0 → 1 ≤ opField c 4 2 → opField c 4 2 ≤ 1024 → opByte c 6 ≤ 1 → (s.stalls.at i).oos = false →
    Answers (.sweepConfig c) s fun t =>
      (t.stalls.at i).avgPend = (s.stalls.at i).avgPend ++ [⟨false, opField c 4 2, opByte c 6 == 1, BitVec.ofNat 32 (opField c 8 4), c⟩] ∧
      (∀ j, j ≠ i → t.stalls.at j = s.stalls.at j) ∧ t = { s with stalls := t.stalls, hif := t.hif }) ∧
  (∀ (c : Cmd) (f : Flight) (s : State), Executing s c f → opByte c 0 = 3 →
    (∀ i : Fin 32, (opField c 4 4).testBit i.val = true → (s.stalls.at i).str ≠ none) → opField c 8 2 ≤ 3600 → opField c 10 2 ≤ 1023 →
    opField c 12 2 < opField c 10 2 → 1 ≤ opByte c 14 → opByte c 14 ≤ 64 → Answers (.sweepConfig c) s fun t =>
      Completes s t c f 0x00 0 ∧ t.sleep = { s.sleep with
        mask := BitVec.ofNat 32 (opField c 4 4), interval := opField c 8 2, upper := opField c 10 2, lower := opField c 12 2
        sweeps := opByte c 14 } ∧
      t = { s with sleep := t.sleep, hif := t.hif, rings := t.rings }) ∧
  ∀ (c : Cmd) (f : Flight) (i : Fin 32) (k : Fin 4) (s : State), Executing s c f → opByte c 0 = i.val → opByte c 1 = k.val →
    opByte c 2 ≤ 1 → (s.stalls.at i).str ≠ none → (s.isMc16 (unitPos i k) = true ∨ s.isMp4 (unitPos i k) = true) →
    opField c 8 8 % 16 = 0 → Answers (.sampleRead c) s fun t =>
      let avg := opByte c 2 == 0
      let r := if avg then (s.uswp.at (unitPos i k)).averaged else (s.uswp.at (unitPos i k)).aligned
      Completes s t c f 0x00 (dwords 128 (s.frame - r.start) 0 0) ∧ (sampleBytes (unitPos i k) avg 0 r).length = 128 ∧
      t.out = s.out ++ [.hostWrite (BitVec.ofNat 64 (opField c 8 8)) (sampleBytes (unitPos i k) avg 0 r)] ∧
      t = { s with hif := t.hif, rings := t.rings, out := t.out }

/-- From R154, R155, R158, R159, R169: once its sweeps are over a check cycle counts, and with no finding it gives result 1 and goes back to
sleep by way of entry phase 5; with a finding it keeps the code and the lowest stall, asserts HOST_WAKE and becomes a full wake. A data age
or current age that crosses 500 ms turns its category C cause on or off, one that crosses 2 s its category B cause, each with a studbook
record of its direction; the 2 s crossing, and an invalid age of 60 s outside service mode, open a closed string. A crossing that has not
happened changes nothing. -/
def Obligations.CheckCyclesAndAges : Prop :=
  (∀ (k : Wake) (s : State), s.pwr.wake = some k → k.check = true → k.step = 5 → s.checkOver = true → s.checkFinding = none →
    Answers .checkCycleDecide s fun t => t.sleep = { s.sleep with cnt := satAdd 0xFFFF s.sleep.cnt 1, result := 1, first := 0 } ∧
      t.pwr.wake = none ∧ t.pwr.phase = 5 ∧ t.pwr.hostWake = s.pwr.hostWake ∧ ∀ p, t.isl.port.at p = false) ∧
  (∀ (k : Wake) (r : Nat) (i : Fin 32) (s : State), s.pwr.wake = some k → k.check = true → k.step = 5 → s.checkOver = true →
    s.checkFinding = some (r, i) → Answers .checkCycleDecide s fun t =>
      t.sleep = { s.sleep with cnt := satAdd 0xFFFF s.sleep.cnt 1, result := BitVec.ofNat 3 r, first := BitVec.ofNat 5 i.val } ∧
      2 ≤ r ∧ r ≤ 5 ∧ t.pwr.hostWake = true ∧ t.pwr.wake = some { k with check := false, step := 4 }) ∧
  (∀ s : State, (s.pwr.wake = none ∨ s.checkOver = false ∨ ∃ k, s.pwr.wake = some k ∧ (k.check = false ∨ k.step ≠ 5)) →
    Answers .checkCycleDecide s fun t => t = s) ∧
  (∀ (str : Fin 4) (dir : Crossing) (s : State), s.usedStr str = true → decide (500 * ticksPerMs ≤ s.dataAge str) = (dir == .up) →
    (s.strs.at str).ageC = !(dir == .up) → Answers (.dataAgeDerate str dir) s fun t =>
      (t.strs.at str) = { s.strs.at str with ageC := dir == .up } ∧ (∀ j, j ≠ str → t.strs.at j = s.strs.at j) ∧
      (s.isl.mem = false → t.cross.toRecorder = s.cross.toRecorder ++
        [.studbook 0x16 (BitVec.ofNat 8 str.val) (BitVec.ofNat 128 (65536 * bit (dir == .up))) s.now]) ∧
      t.swc = s.swc ∧ t.uint = s.uint ∧ t.isl = s.isl) ∧
  (∀ (str : Fin 4) (dir : Crossing) (s : State), s.usedStr str = true → decide (500 * ticksPerMs ≤ s.currentAge str) = (dir == .up) →
    (s.strs.at str).curC = !(dir == .up) → Answers (.currentAgeDerate str dir) s fun t =>
      (t.strs.at str) = { s.strs.at str with curC := dir == .up } ∧ (∀ j, j ≠ str → t.strs.at j = s.strs.at j) ∧
      t.swc = s.swc ∧ t.uint = s.uint) ∧
  (∀ (str : Fin 4) (s : State), s.usedStr str = true → 2000 * ticksPerMs ≤ s.dataAge str → (s.strs.at str).ageB = false →
    (s.strSt str = .closed ∨ s.strSt str = .overlap) → Answers (.dataAgeDisconnect str .up) s fun t =>
      (t.strs.at str).ageB = true ∧ t.strSt str = .opening ∧ (t.strs.at str).lastCause = 0x11 ∧ t.evt.str.getLsbD (4 + str.val) = true ∧
      (t.swc.at (pcOf str)).cmd = .off ∧ ∀ j, j ≠ str → t.strs.at j = s.strs.at j) ∧
  (∀ (str : Fin 4) (s : State), s.usedStr str = true → s.dataAge str < 2000 * ticksPerMs → (s.strs.at str).ageB = true →
    Answers (.dataAgeDisconnect str .down) s fun t => (t.strs.at str) = { s.strs.at str with ageB := false } ∧ t.swc = s.swc) ∧
  (∀ (str : Fin 4) (s : State), s.usedStr str = true → 2000 * ticksPerMs ≤ s.currentAge str → (s.strs.at str).curB = false →
    (s.strSt str = .closed ∨ s.strSt str = .overlap) → Answers (.currentAgeDisconnect str .up) s fun t =>
      (t.strs.at str).curB = true ∧ t.strSt str = .opening ∧ (t.strs.at str).lastCause = 0x12 ∧ t.evt.str.getLsbD (4 + str.val) = true) ∧
  (∀ (str : Fin 4) (dir : Crossing) (s : State), decide (500 * ticksPerMs ≤ s.dataAge str) ≠ (dir == .up) →
    Answers (.dataAgeDerate str dir) s fun t => t = s) ∧
  (∀ (u : Fin 128) (c : Fin 16) (str : Fin 4) (s : State), s.strOf u = some str → s.isMc16 u = true → s.outOfService u = false →
    s.cellInvalid u c.val = true → (s.strs.at str).service = false → 60 * ticksPerS ≤ s.invAge u c →
    (s.strSt str = .closed ∨ s.strSt str = .overlap) → Answers (.invalidAgeExpiry u c) s fun t =>
      t.strSt str = .opening ∧ (t.strs.at str).lastCause = 0x10 ∧ t.uint = s.uint) ∧
  ∀ (u : Fin 128) (c : Fin 16) (str : Fin 4) (s : State), s.strOf u = some str → (s.strs.at str).service = true →
    Answers (.invalidAgeExpiry u c) s fun t => t = s

/-- From R160: an evaluation keeps, starts or breaks the persistence and the clearing time of a unit's conditions; a condition that has held for
its persistence takes effect, STACK_FAIL on all 16 cells and CURRENT_PAIR on a closed string; one absent for 10 s clears. -/
def Obligations.PlausibilityConditions : Prop :=
  (∀ (u : Fin 128) (d : Nat) (s : State), s.outOfService u = false → s.isMc16 u = true → s.swept u = true → s.stackDiff u = some d →
    Answers (.plausibilityEvaluation u) s fun t =>
      (t.uint.at u).warn = (s.uint.at u).warn.evaluate s.now (some (decide (8000 < d))) ∧
      (t.uint.at u).fail = (s.uint.at u).fail.evaluate s.now (some (decide (1000 * s.integ.stackFail < d))) ∧
      (∀ v, v ≠ u → t.uint.at v = s.uint.at v) ∧ t.strs = s.strs) ∧
  (∀ (u : Fin 128) (s : State), s.outOfService u = false → s.isMc16 u = true → s.swept u = false →
    Answers (.plausibilityEvaluation u) s fun t =>
      (t.uint.at u) = { s.uint.at u with warn := { (s.uint.at u).warn with since := none, absent := none }
                                         fail := { (s.uint.at u).fail with since := none, absent := none } } ∧
      (∀ v, v ≠ u → t.uint.at v = s.uint.at v) ∧ t = { s with uint := t.uint }) ∧
  (∀ (u : Fin 128) (since : Nat) (s : State), (s.uint.at u).fail.since = some since → (s.uint.at u).fail.on = false →
    since + 1000 * ticksPerMs ≤ s.now → Answers (.plausibilitySet (.stackFail u)) s fun t =>
      (t.uint.at u).fail.on = true ∧ (t.uint.at u).invStack = 0xFFFF ∧ (∀ c : Fin 16, t.cellInvalid u c.val = true) ∧
      (∀ c : Fin 16, s.cellInvalid u c.val = false → s.unitService u = false →
        (t.uint.at u).invAcc.at c = 0 ∧ (t.uint.at u).invFrom.at c = some s.now) ∧
      t.evt.integ.getLsbD (stallOf u).val = true ∧ (∀ v, v ≠ u → t.uint.at v = s.uint.at v)) ∧
  (∀ (str : Fin 4) (since : Nat) (s : State), (s.strs.at str).pairCond.since = some since → (s.strs.at str).pairCond.on = false →
    since + 100 * ticksPerMs ≤ s.now → s.strSt str = .closed → Answers (.plausibilitySet (.currentPair str)) s fun t =>
      (t.strs.at str).pairCond.on = true ∧ t.strSt str = .opening ∧ (t.strs.at str).lastCause = 0x16) ∧
  (∀ (u : Fin 128) (gone : Nat) (s : State), (s.uint.at u).fail.absent = some gone → (s.uint.at u).fail.on = true →
    gone + 10 * ticksPerS ≤ s.now → Answers (.plausibilityClear (.stackFail u)) s fun t =>
      (t.uint.at u).fail.on = false ∧ (t.uint.at u).invStack = 0 ∧ (t.uint.at u).invWire = (s.uint.at u).invWire ∧
      (∀ c : Fin 16, t.cellInvalid u c.val = (s.uint.at u).invWire.getLsbD c.val) ∧ ∀ v, v ≠ u → t.uint.at v = s.uint.at v) ∧
  ∀ (p : PlausId) (s : State), (s.plausCond p).since = none → Answers (.plausibilitySet p) s fun t => t = s

/-- From R163, R164, R165, R167, R176: a probe goes out with its mask, its pulse ends 32 frames later, and its decision ends it; a CONFIRMED
wire leaves both cells of its pair Invalid and its bit in BROKEN_WIRE; an OPEN_WIRE_PROBE waits for its outcome and completes with it. -/
def Obligations.OpenWireProbes : Prop :=
  (∀ (q : ProbeReq) (s : State), s.integ.probeQ.find? s.probeFree = some q → Answers .openWireProbeStart s fun t =>
    (t.uint.at q.unit).probe = some { q.probe with p := some s.frame, ended := false } ∧
    (t.ulink.at q.unit).applied = q.probe.mask ∧ t.integ.probeQ = s.integ.probeQ.erase q ∧
    OutEvent.link (stallOf q.unit) s.frame ⟨false, unitOf q.unit, 0x07, (0 : BitVec 16) ++ q.probe.mask⟩ ∈ t.out ∧
    t = { s with integ := t.integ, uint := t.uint, ulink := t.ulink, out := t.out }) ∧
  (∀ (u : Fin 128) (q : Probe) (p : Nat) (s : State), (s.uint.at u).probe = some q → q.p = some p → q.ended = false → p + 32 ≤ s.frame →
    Answers (.probePulseEnd u) s fun t => (t.uint.at u).probe = some { q with ended := true } ∧ (t.ulink.at u).applied = 0 ∧
      t = { s with uint := t.uint, ulink := t.ulink, out := t.out }) ∧
  (∀ (u : Fin 128) (q : Probe) (p : Nat) (s : State), (s.uint.at u).probe = some q → q.p = some p → s.frame < p + 32 →
    Answers (.probePulseEnd u) s fun t => t = s) ∧
  (∀ (u : Fin 128) (w : Fin 16) (q : Probe) (p n m : Nat) (s : State), w ≠ 0 → (s.uint.at u).probe = some q → q.p = some p →
    q.why = .suspect → q.wires = [w] → q.ended = true → p + 31 < ((s.uswp.at u).alHist.headD (0, [])).1 + framesOf (s.rateNow u) →
    (s.uswp.at u).probeOutcome q.mask p w = (1, m) → n = w.val - 1 → Answers (.probeDecision u) s fun t =>
      (t.uint.at u).probe = none ∧ (t.uint.at u).broken.getLsbD n = true ∧ t.cellInvalid u n = true ∧ t.cellInvalid u w.val = true ∧
      t.evt.integ.getLsbD (stallOf u).val = true ∧ ∀ v, v ≠ u → t.uint.at v = s.uint.at v) ∧
  (∀ (u : Fin 128) (w : Fin 16) (t0 : Nat) (s : State), w ≠ 0 → ((s.uint.at u).wires.at w).retryAt = some t0 → t0 ≤ s.now →
    s.swept u = true → Answers (.probeRetry u w) s fun t => t.integ.probeQ = s.integ.probeQ ++ [⟨u, singleProbe .suspect w⟩] ∧
      ((t.uint.at u).wires.at w).retryAt = none ∧ t = { s with integ := t.integ, uint := t.uint }) ∧
  (∀ (c : Cmd) (f : Flight) (u : Fin 128) (w : Fin 16) (s : State), Executing s c f → s.namedMc16 (opByte c 0) (opByte c 1) = some u →
    opByte c 2 = 0 → opByte c 3 = w.val → w ≠ 0 → s.outOfService u = false → s.swept u = true → s.commandProbe u = false →
    Answers (.openWireProbe c) s fun t => t.integ.probeQ = s.integ.probeQ ++ [⟨u, singleProbe (.command 0 c) w⟩] ∧
      t.hif.flight c.stamp = some f ∧ t = { s with integ := t.integ, hif := t.hif }) ∧
  (∀ (c : Cmd) (f : Flight) (u : Fin 128) (w : Fin 16) (q : Probe) (p : Nat) (s : State), Executing s c f → w ≠ 0 →
    (s.uint.at u).probe = some q → q.p = some p → q.why = .command 0 c → q.wires = [w] → q.ended = true →
    p + 31 < ((s.uswp.at u).alHist.headD (0, [])).1 + framesOf (s.rateNow u) → Answers (.probeDecision u) s fun t =>
      (t.uint.at u).probe = none ∧ Completes s t c f 0x00 (dwords ((s.uswp.at u).probeOutcome q.mask p w).1
        ((s.uswp.at u).probeOutcome q.mask p w).2 0 0)) ∧
  ∀ (c : Cmd) (f : Flight) (u : Fin 128) (s : State), Executing s c f → s.namedMc16 (opByte c 0) (opByte c 1) = some u →
    opByte c 2 = 1 → s.outOfService u = false → s.swept u = false → Answers (.openWireProbe c) s fun t =>
      Completes s t c f 0x31 0x0502 ∧ t = { s with hif := t.hif, rings := t.rings }

/-- From R171 to R173, R177: each phase of a switch check lasts 2 ms and hands its mean on; the open phase decides the outcome, which the result
registers keep, and a stuck switch opens a closed string. BAL_TEST starts a test or sets the interval or the thresholds. -/
def Obligations.BalancingSwitchTests : Prop :=
  (∀ (u : Fin 128) (x : BalTest) (c : Fin 16) (l : List (Fin 16)) (v : Reading) (s : State), (s.uint.at u).test = some x →
    x.phase = .closed → x.todo = c :: l → x.since + 2 * ticksPerMs ≤ s.now → Answers (.balTestPhaseEnd u v) s fun t =>
      (t.uint.at u).test = some { x with since := s.now, vOn := v, phase := .opened } ∧ (t.ulink.at u).applied = 0 ∧
      t = { s with uint := t.uint, ulink := t.ulink, out := t.out }) ∧
  (∀ (u : Fin 128) (x : BalTest) (c : Fin 16) (l : List (Fin 16)) (v : Reading) (s : State), (s.uint.at u).test = some x →
    x.phase = .opened → x.todo = c :: l → x.since + 2 * ticksPerMs ≤ s.now → Answers (.balTestPhaseEnd u v) s fun t =>
      (t.uint.at u).bt.at c = switchOutcome (s.testCell u c.val) ((s.vExp u c.val).getD 0) x.vPre x.vOn v ∧
      (∀ d, d ≠ c → (t.uint.at u).bt.at d = (s.uint.at u).bt.at d) ∧ t.evt.integ.getLsbD (stallOf u).val = true ∧
      ((t.uint.at u).bt.at c = 2 → (t.uint.at u).stuck.getLsbD c.val = true) ∧
      ((t.uint.at u).bt.at c = 1 → (t.uint.at u).stuck.getLsbD c.val = false ∧ (t.uint.at u).btC.getLsbD c.val = false)) ∧
  (∀ (u : Fin 128) (x : BalTest) (v : Reading) (s : State), (s.uint.at u).test = some x → s.now < x.since + 2 * ticksPerMs →
    Answers (.balTestPhaseEnd u v) s fun t => t = s) ∧
  (∀ (u : Fin 128) (s : State), s.integ.btInterval ≠ 0 → (∀ v x, (s.uint.at v).test = some x → x.sched = false) →
    s.integ.schedAt + s.integ.btInterval * 60 * ticksPerS ≤ s.now → s.integ.schedNext = u.val → s.swept u = true → s.isMc16 u = true →
    (s.uint.at u).test = none → (s.ulink.at u).delivering = true → Answers .balTestSchedule s fun t =>
      (∃ x, (t.uint.at u).test = some x ∧ x.sched = true ∧ x.mask = 0xFFFF ∧ x.todo = places 16) ∧
      t.integ.schedNext = (u.val + 1) % 128 ∧ t.integ.schedAt = s.now ∧ ∀ v, v ≠ u → t.uint.at v = s.uint.at v) ∧
  (∀ s : State, s.integ.btInterval = 0 → Answers .balTestSchedule s fun t => t = s) ∧
  (∀ (c : Cmd) (f : Flight) (u : Fin 128) (s : State), Executing s c f → opByte c 4 = 0 → s.namedMc16 (opByte c 0) (opByte c 1) = some u →
    opField c 2 2 ≠ 0 → s.outOfService u = false → s.swept u = true → (s.uint.at u).invStack ≠ 0xFFFF → (s.uint.at u).test = none →
    Answers (.balTest c) s fun t => (∃ x, (t.uint.at u).test = some x ∧ x.sched = false ∧ x.cmd = some c ∧
        x.mask = BitVec.ofNat 16 (opField c 2 2)) ∧ (∀ v, v ≠ u → t.uint.at v = s.uint.at v) ∧ t.hif.flight c.stamp = some f ∧
      t = { s with uint := t.uint, ulink := t.ulink, out := t.out, hif := t.hif }) ∧
  (∀ (c : Cmd) (f : Flight) (s : State), Executing s c f → opByte c 4 = 1 → opField c 6 2 ≤ 1440 → Answers (.balTest c) s fun t =>
    Completes s t c f 0x00 0 ∧ t.integ = { s.integ with btInterval := opField c 6 2, schedAt := s.now } ∧
    t = { s with integ := t.integ, hif := t.hif, rings := t.rings }) ∧
  (∀ (c : Cmd) (f : Flight) (s : State), Executing s c f → opByte c 4 = 2 → 10 ≤ opField c 6 2 → opField c 6 2 ≤ 1000 →
    9 ≤ opField c 8 2 → opField c 8 2 ≤ 1000 → (∀ str, s.strHeld str = false) → Answers (.balTest c) s fun t =>
    Completes s t c f 0x00 0 ∧ t.integ = { s.integ with owThresh := opField c 6 2, stackFail := opField c 8 2 } ∧
    t = { s with integ := t.integ, hif := t.hif, rings := t.rings }) ∧
  ∀ (c : Cmd) (f : Flight) (s : State), Executing s c f → opByte c 4 = 2 → s.integ.owThresh < opField c 6 2 → 10 ≤ opField c 6 2 →
    opField c 6 2 ≤ 1000 → 9 ≤ opField c 8 2 → opField c 8 2 ≤ 1000 → (∃ str, s.strHeld str = true) → Answers (.balTest c) s fun t =>
    Completes s t c f 0x31 0x0504 ∧ t = { s with hif := t.hif, rings := t.rings }

/-- From R179, R192, R205, R208: the step of a millisecond runs once and applies the packages that wait; a checkpoint is due after 600 s of
running; limits that 50 ms saw no computation of read 0 and stale, until the next one. -/
def Obligations.EstimatorStepsCheckpointsAndLimits : Prop :=
  (∀ s : State, s.estReady = true → s.est.lastStep ≠ some s.nowMs → Answers .estimatorStep s fun t =>
    t.est.lastStep = some s.nowMs ∧ t.est.running = true ∧
    (∀ i, (t.estr.at i).qDisAt = (s.wb.str.at i).qDis ∧ (t.estr.at i).qChgAt = (s.wb.str.at i).qChg) ∧
    (∀ c ds, EstWork.config c ds ∉ t.est.work) ∧ t.strs = s.strs ∧ t.swc = s.swc ∧ t.halter = s.halter ∧ t.stalls = s.stalls) ∧
  (∀ s : State, (s.estReady = false ∨ s.est.lastStep = some s.nowMs) → Answers .estimatorStep s fun t => t = s) ∧
  (∀ (c : Cmd) (f : Flight) (x : Filter) (s : State), Executing s c f → s.estReady = true → s.est.lastStep ≠ some s.nowMs →
    s.est.work = [.config c [.filter x]] → Answers .estimatorStep s fun t =>
      t.est.filter = x ∧ t.est.work = [] ∧ Ended t c 0x00) ∧
  (∀ (str : Fin 4) (s : State), (s.estr.at str).limAt + 50 * ticksPerMs ≤ s.now → (s.estr.at str).stale = false →
    Answers (.limitStaleTimeout str) s fun t => (t.estr.at str).lim = {} ∧ (t.estr.at str).stale = true ∧
      (∀ j, j ≠ str → t.estr.at j = s.estr.at j) ∧ t = { s with estr := t.estr, mem := t.mem, ret := t.ret }) ∧
  (∀ (str : Fin 4) (s : State), s.now < (s.estr.at str).limAt + 50 * ticksPerMs → Answers (.limitStaleTimeout str) s fun t => t = s) ∧
  (∀ s : State, 600 * ticksPerS ≤ s.est.ranTicks → Answers (.estimatorCheckpoint true) s fun t =>
    t.est.ranTicks = s.est.ranTicks - 600 * ticksPerS ∧ t.est.ckptCnt = (s.est.ckptCnt + 1) % 65536 ∧
    t.est.ckptGen = (s.est.ckptGen + 1) % 2 ^ 32 ∧ t.est.ckptCopy = !s.est.ckptCopy ∧ t.est.ckptAt = some s.now ∧
    t = { s with est := t.est, mem := t.mem, uest := t.uest }) ∧
  (∀ s : State, 600 * ticksPerS ≤ s.est.ranTicks → Answers (.estimatorCheckpoint false) s fun t =>
    t.est = { s.est with ranTicks := s.est.ranTicks - 600 * ticksPerS } ∧ t.evt.est.getLsbD 2 = true ∧ t.mem = s.mem) ∧
  ∀ (ok : Bool) (s : State), s.est.ranTicks < 600 * ticksPerS → Answers (.estimatorCheckpoint ok) s fun t => t = s

/-- From R198, R200, R202: a lock-in block that is over makes room for the next at once; excitation starts after the rest of an open string and
switches every half-period; each second the rejections counted since the last go into the records. -/
def Obligations.LockInExcitationAndHealth : Prop :=
  (∀ (str : Fin 4) (bin : Fin 32) (b : Nat) (s : State), s.estReady = true → (s.estr.at str).excDone = [] →
    (s.estr.at str).blockFrom.at bin = some b →
    b + blockLen (s.est.lockin.at str).cycles (s.strFrames str) bin * s.strFrames str + 32 ≤ s.frame →
    Answers (.lockinBlockEnd str bin) s fun t =>
      (t.estr.at str).blockFrom.at bin = some (b + blockLen (s.est.lockin.at str).cycles (s.strFrames str) bin * s.strFrames str) ∧
      (∀ j, j ≠ bin → (t.estr.at str).blockFrom.at j = (s.estr.at str).blockFrom.at j) ∧
      (∀ j, j ≠ str → t.estr.at j = s.estr.at j) ∧ t.est = s.est ∧ t.strs = s.strs) ∧
  (∀ (str : Fin 4) (bin : Fin 32) (s : State), (s.estr.at str).excDone = [] → (s.estr.at str).blockFrom.at bin = none →
    Answers (.lockinBlockEnd str bin) s fun t => t = s) ∧
  (∀ (str : Fin 4) (b : Fin 32) (s : State), s.estReady = true → s.usedStr str = true → (s.estr.at str).excState ≠ .running →
    s.excDue str = true → s.strSt str = .opened → (s.estr.at str).openSince + (s.est.lockin.at str).restS * ticksPerS ≤ s.now →
    nextBin (s.est.lockin.at str).excMask 0 = some b → Answers (.excitationStart str) s fun t =>
      (t.estr.at str).excState = .running ∧ (t.estr.at str).excBin = BitVec.ofNat 5 b.val ∧ (t.estr.at str).excPhase = false ∧
      (t.estr.at str).excHigh = true ∧ (t.estr.at str).excFrom = s.frame ∧ (t.estr.at str).excToggle = s.frame ∧
      (∀ j, (t.estr.at str).blockFrom.at j = none) ∧ (∀ j, j ≠ str → t.estr.at j = s.estr.at j) ∧ t.strs = s.strs) ∧
  (∀ (str : Fin 4) (s : State), s.estReady = true → s.usedStr str = true → (s.estr.at str).excState = .idle → s.excDue str = true →
    s.strSt str ≠ .opened → Answers (.excitationStart str) s fun t =>
      t = { s with estr := s.estr.upd str (fun e => { e with excState := .waiting }) }) ∧
  (∀ (str : Fin 4) (s : State), s.estReady = true → (s.estr.at str).excState = .running →
    (s.estr.at str).excToggle + halfPeriod ⟨(s.estr.at str).excBin.toNat, (s.estr.at str).excBin.isLt⟩ ≤ s.frame →
    s.frame < (s.estr.at str).excFrom + 2 * halfPeriod ⟨(s.estr.at str).excBin.toNat, (s.estr.at str).excBin.isLt⟩ *
      ((s.est.lockin.at str).cycles + 1) → Answers (.excitationToggle str) s fun t =>
      (t.estr.at str).excHigh = !(s.estr.at str).excHigh ∧ (t.estr.at str).excState = .running ∧
      (t.estr.at str).excToggle = (s.estr.at str).excToggle + halfPeriod ⟨(s.estr.at str).excBin.toNat, (s.estr.at str).excBin.isLt⟩ ∧
      t.strs = s.strs) ∧
  (∀ (str : Fin 4) (s : State), (s.estr.at str).excState ≠ .running → Answers (.excitationToggle str) s fun t => t = s) ∧
  (∀ (str : Fin 4) (u : Fin 128) (c : Fin 16) (s : State), s.estReady = true → u ∈ s.mc16sOf str → Answers (.healthUpdate str) s fun t =>
    (((t.uest.at u).cells.at c).rejSec = ((s.uest.at u).cells.at c).rejAcc ∧ ((t.uest.at u).cells.at c).rejAcc = 0) ∧
    t.strs = s.strs ∧ t.est = s.est ∧ t.uint = s.uint) ∧
  ∀ (str : Fin 4) (s : State), s.estReady = true → s.limCells str = [] → Answers (.healthUpdate str) s fun t =>
    (t.estr.at str).sohCap = (s.estr.at str).sohCap ∧ (t.estr.at str).sohRes = (s.estr.at str).sohRes

/-- From R207, R208, R212, R213: a package in range waits for the next step, a relaxing one for a held string is REFUSED 0x0601; EST_QUERY
writes 544, 96, 72 or 288 bytes, and KIND 4 waits for the query slice; a tick of the estimate streams is taken once. -/
def Obligations.EstimatorCommands : Prop :=
  (∀ (c : Cmd) (f : Flight) (pkg : List Byte) (ds : List Descriptor) (s : State), Executing s c f → opField c 0 8 % 16 = 0 →
    16 ≤ opField c 8 4 → opField c 8 4 ≤ 65536 → parsePackage 4097 (padTo (opField c 8 4) pkg) = some ds →
    (∀ d ∈ ds, s.descriptorOk ds d = true ∧ s.descriptorRefused false d = false ∧ s.descriptorRefused true d = false) →
    Answers (.estConfig c pkg) s fun t => t.est = { s.est with work := s.est.work ++ [.config c ds] } ∧
      t.hif.flight c.stamp = some f ∧ t = { s with est := t.est, hif := t.hif }) ∧
  (∀ (c : Cmd) (f : Flight) (pkg : List Byte) (str : Fin 4) (l : LimitsDesc) (s : State), Executing s c f → opField c 0 8 % 16 = 0 →
    16 ≤ opField c 8 4 → opField c 8 4 ≤ 65536 → parsePackage 4097 (padTo (opField c 8 4) pkg) = some [.limits str l] →
    s.strHeld str = true → (s.est.limits.at str).relaxes l = true → Answers (.estConfig c pkg) s fun t =>
      Completes s t c f 0x31 0x0601 ∧ t = { s with hif := t.hif, rings := t.rings }) ∧
  (∀ (c : Cmd) (f : Flight) (pkg : List Byte) (s : State), Executing s c f → opField c 0 8 % 16 ≠ 0 → Answers (.estConfig c pkg) s fun t =>
    Completes s t c f 0x12 0 ∧ t = { s with hif := t.hif, rings := t.rings }) ∧
  (∀ (c : Cmd) (f : Flight) (n : Nat) (s : State), Executing s c f → opField c 8 8 % 16 = 0 →
    ((opByte c 0 = 0 ∧ opField c 2 2 < 128 ∧ n = 544) ∨ (opByte c 0 = 1 ∧ opField c 2 2 < 4 ∧ n = 96) ∨
      (opByte c 0 = 2 ∧ opField c 2 2 = 0 ∧ n = 72) ∨ (opByte c 0 = 3 ∧ opField c 2 2 < 2048 ∧ n = 288)) →
    Answers (.estQuery c) s fun t => Completes s t c f 0x00 (dwords n 0 0 0) ∧ ∃ bytes, bytes.length = n ∧
      t.out = s.out ++ [.hostWrite (BitVec.ofNat 64 (opField c 8 8)) bytes] ∧ t = { s with hif := t.hif, rings := t.rings, out := t.out }) ∧
  (∀ (c : Cmd) (f : Flight) (str : Fin 4) (p : Fin 128 × Fin 16) (s : State), Executing s c f → opField c 8 8 % 16 = 0 → opByte c 0 = 4 →
    opField c 2 2 = str.val → 100 ≤ opField c 0x14 4 → opField c 0x14 4 ≤ 60000 → p ∈ s.limCells str →
    s.cellValid p.1 p.2.val = true → s.queries.length < 10 → Answers (.estQuery c) s fun t =>
      t.est = { s.est with work := s.est.work ++ [.project c] } ∧ t.hif.flight c.stamp = some f ∧ t = { s with est := t.est, hif := t.hif }) ∧
  (∀ (c : Cmd) (f : Flight) (s : State), Executing s c f → (4 < opByte c 0 ∨ opField c 8 8 % 16 ≠ 0) → Answers (.estQuery c) s fun t =>
    Completes s t c f 0x12 0 ∧ t = { s with hif := t.hif, rings := t.rings }) ∧
  (∀ s : State, s.estReady = true → s.hif.streams = [] → (∀ u, s.isMc16 u = false) → Answers .estimateStreamTick s fun t =>
    t = { s with est := { s.est with estTick := s.nowMs / s.est.output.estMs } }) ∧
  ∀ s : State, s.estReady = false → Answers .estimateStreamTick s fun t => t = s

/-- From R220, R221, R223 to R226: a STRING_CLOSE that passes its checks turns CN on; 20 ms later, with no rise, PC; a checkpoint inside its
band is passed, one below it is a SLOW fault; the end of the overlap reaches CLOSED with PC off and completes the command. A check that
fails is REFUSED with its code. -/
def Obligations.StringsClose : Prop :=
  (∀ (c : Cmd) (f : Flight) (str : Fin 4) (s : State), Executing s c f → opByte c 0 = str.val → s.usedStr str = true →
    (s.strs.at str).seq.closeCmd = none → (s.strs.at str).seq.openCmds = [] →
    (∀ j, j ≠ str → (s.strs.at j).cfg.linkGroup = (s.strs.at str).cfg.linkGroup → s.strSt j ≠ .preCn ∧ s.strSt j ≠ .precharge) →
    s.strSt str = .opened → s.permissive str = true → s.rosterValid str = true → (s.mp4sOf str).length = 1 →
    (s.linkLive str = true ∨ s.linkLow str = some true) → s.fresh str = true → s.standing str = [] → (s.swctl.die.at 1).dip = false →
    Answers (.stringClose c) s fun t => t.strSt str = .preCn ∧ (t.strs.at str).seq.closeCmd = some c ∧ (t.strs.at str).seq.cnAt = s.now ∧
      (t.swc.at (cnOf str)).cmd ≠ .off ∧ t.evt.str.getLsbD str.val = true ∧ (∀ j, j ≠ str → t.strs.at j = s.strs.at j)) ∧
  (∀ (c : Cmd) (f : Flight) (str : Fin 4) (s : State), Executing s c f → opByte c 0 = str.val → s.usedStr str = true →
    (s.strs.at str).seq.closeCmd = none → (s.strs.at str).seq.openCmds = [] →
    (∀ j, j ≠ str → (s.strs.at j).cfg.linkGroup = (s.strs.at str).cfg.linkGroup → s.strSt j ≠ .preCn ∧ s.strSt j ≠ .precharge) →
    s.strSt str = .opened → s.permissive str = false → Answers (.stringClose c) s fun t =>
      Completes s t c f 0x31 0x0701 ∧ t.strs.at str = { s.strs.at str with lastRefuse := 0x0701 } ∧
      (∀ j, j ≠ str → t.strs.at j = s.strs.at j) ∧ t = { s with strs := t.strs, hif := t.hif, rings := t.rings }) ∧
  (∀ (c : Cmd) (f : Flight) (s : State), Executing s c f → 3 < opByte c 0 → Answers (.stringClose c) s fun t =>
    Completes s t c f 0x12 0 ∧ t = { s with hif := t.hif, rings := t.rings }) ∧
  (∀ (str : Fin 4) (s : State), s.strSt str = .preCn → (s.strs.at str).seq.cnAt + 20 * ticksPerMs ≤ s.now →
    (s.linkLive str = true ∨ s.cnRise str = some false) → Answers (.preCnTimeout str) s fun t =>
      t.strSt str = .precharge ∧ (t.strs.at str).seq.pcAt = s.now ∧ (t.strs.at str).seq.parallel = s.linkLive str ∧
      (t.swc.at (pcOf str)).cmd ≠ .off ∧ ∀ j, j ≠ str → t.strs.at j = s.strs.at j) ∧
  (∀ (str : Fin 4) (s : State), s.now < (s.strs.at str).seq.cnAt + 20 * ticksPerMs → Answers (.preCnTimeout str) s fun t => t = s) ∧
  (∀ (str : Fin 4) (l v : Rat) (v0 : Int) (s : State), s.strSt str = .precharge → (s.strs.at str).seq.parallel = false →
    (s.strs.at str).seq.passed < s.checkpointsDue str → s.vLink str = some l → s.vString str = some v → (s.strs.at str).seq.v0 = some v0 →
    8 / 10 * ((v - v0) * rcFactor (s.strs.at str).seq.passed) ≤ l - v0 → l - v0 ≤ 12 / 10 * ((v - v0) * rcFactor (s.strs.at str).seq.passed) →
    l < 95 / 100 * v → Answers (.prechargeCheckpoint str) s fun t =>
      (t.strs.at str).seq.passed = (s.strs.at str).seq.passed + 1 ∧ t.strSt str = .precharge ∧
      (∀ j, j ≠ str → t.strs.at j = s.strs.at j) ∧ t = { s with strs := t.strs }) ∧
  (∀ (str : Fin 4) (l v : Rat) (v0 : Int) (s : State), s.strSt str = .precharge → (s.strs.at str).seq.parallel = false →
    (s.strs.at str).seq.passed < s.checkpointsDue str → s.vLink str = some l → s.vString str = some v → (s.strs.at str).seq.v0 = some v0 →
    l - v0 < 8 / 10 * ((v - v0) * rcFactor (s.strs.at str).seq.passed) → Answers (.prechargeCheckpoint str) s fun t =>
      (t.strs.at str).preResult = 2 ∧ (t.strs.at str).lastCause = 0x14 ∧ (t.strs.at str).preUntil.isSome = true ∧
      (t.strSt str = .weldCheck ∨ t.strSt str = .opened) ∧ (t.swc.at (cnOf str)).cmd = .off ∧ (t.swc.at (pcOf str)).cmd = .off) ∧
  (∀ (str : Fin 4) (s : State), s.strSt str = .precharge →
    (s.strs.at str).seq.pcAt + (s.strs.at str).cfg.preTimeoutMs * ticksPerMs ≤ s.now → Answers (.prechargeTimeout str) s fun t =>
      (t.strs.at str).preResult = (if (s.strs.at str).seq.parallel then 5 else 4) ∧ (t.strs.at str).lastCause = 0x14 ∧
      (t.strSt str = .weldCheck ∨ t.strSt str = .opened) ∧ (t.swc.at (cnOf str)).cmd = .off ∧ (t.swc.at (pcOf str)).cmd = .off) ∧
  ∀ (str : Fin 4) (c : Cmd) (f : Flight) (s : State), Executing s c f → s.strSt str = .overlap → (s.strs.at str).seq.closeCmd = some c →
    (s.strs.at str).seq.cpAt + 50 * ticksPerMs ≤ s.now → Answers (.overlapTimeout str) s fun t =>
      Completes s t c f 0x00 (dwords 1 ((s.now - (s.strs.at str).seq.pcAt) / ticksPerMs) 0 0) ∧ t.strSt str = .closed ∧
      (t.swc.at (pcOf str)).cmd = .off ∧ (t.strs.at str).closeCnt = satAdd 0xFFFF (s.strs.at str).closeCnt 1 ∧
      (t.strs.at str).seq.closeCmd = none ∧ ∀ j, j ≠ str → t.strs.at j = s.strs.at j

/-- From R227, R229 to R231: STRING_OPEN starts a managed opening of a closed string and joins it, IMMEDIATE releases it at once; 8 frames at or
below BREAK_A, or 2 s, release it, which turns CP off; 20 ms later every channel is off and the weld check runs, which passes to OPEN or
fails to WELDED; WELDED ends after 1 s of its conditions. -/
def Obligations.StringsOpen : Prop :=
  (∀ (c : Cmd) (f : Flight) (str : Fin 4) (s : State), Executing s c f → opByte c 0 = str.val → s.strSt str = .closed →
    Answers (.stringOpen c) s fun t => t.strSt str = .opening ∧ (c, true) ∈ (t.strs.at str).seq.openCmds ∧ (t.strs.at str).lastCause = 0 ∧
      (t.strs.at str).seq.openingAt = s.now ∧ (t.swc.at (pcOf str)).cmd = .off ∧
      ((t.strs.at str).seq.releaseAt = if opByte c 1 % 2 = 1 then some s.now else none) ∧
      (opByte c 1 % 2 = 1 → (t.swc.at (cpOf str)).cmd = .off) ∧ ∀ j, j ≠ str → t.strs.at j = s.strs.at j) ∧
  (∀ (c : Cmd) (f : Flight) (str : Fin 4) (s : State), Executing s c f → opByte c 0 = str.val →
    (s.strSt str = .opened ∨ s.strSt str = .welded) → Answers (.stringOpen c) s fun t =>
      Completes s t c f 0x00 (if s.strSt str = .welded then 2 else 0) ∧ t = { s with hif := t.hif, rings := t.rings }) ∧
  (∀ (c : Cmd) (f : Flight) (s : State), Executing s c f → 3 < opByte c 0 → Answers (.stringOpen c) s fun t =>
    Completes s t c f 0x12 0 ∧ t = { s with hif := t.hif, rings := t.rings }) ∧
  (∀ (str : Fin 4) (s : State), s.strSt str = .opening → (s.strs.at str).seq.releaseAt = none → 8 ≤ (s.strs.at str).seq.lowRun →
    Answers (.openingRelease str) s fun t => (t.strs.at str).seq.releaseAt = some s.now ∧ t.strSt str = .opening ∧
      (t.swc.at (cpOf str)).cmd = .off ∧ ∀ j, j ≠ str → t.strs.at j = s.strs.at j) ∧
  (∀ (str : Fin 4) (s : State), (s.strs.at str).seq.lowRun < 8 → Answers (.openingRelease str) s fun t => t = s) ∧
  (∀ (str : Fin 4) (s : State), s.strSt str = .opening → (s.strs.at str).seq.releaseAt = none →
    (s.strs.at str).seq.openingAt + 2 * ticksPerS ≤ s.now → Answers (.openingForcedRelease str) s fun t =>
      (t.strs.at str).seq.releaseAt = some s.now ∧ t.strSt str = .opening ∧ (t.swc.at (cpOf str)).cmd = .off ∧
      (s.iAbs str = none → (t.strs.at str).overBreak = satAdd 0xFFFF (s.strs.at str).overBreak 1)) ∧
  (∀ (str : Fin 4) (t0 : Nat) (s : State), s.strSt str = .opening → (s.strs.at str).seq.releaseAt = some t0 →
    t0 + 20 * ticksPerMs ≤ s.now → Answers (.openingCnOff str) s fun t =>
      (t.strSt str = .weldCheck ∨ t.strSt str = .opened) ∧ (t.swc.at (cnOf str)).cmd = .off ∧ (t.swc.at (cpOf str)).cmd = .off ∧
      (t.swc.at (pcOf str)).cmd = .off) ∧
  (∀ (str : Fin 4) (s : State), s.strSt str = .weldCheck → (s.strs.at str).cfg.auxEn = 0 → s.linkLow str = some true →
    Answers (.weldCheckTimeout str) s fun t => t.strSt str = .opened ∧ (t.strs.at str).weld.result = 1 ∧
      (t.strs.at str).seq.openCmds = [] ∧ (t.estr.at str).openSince = s.now) ∧
  (∀ (str : Fin 4) (s : State), s.strSt str = .weldCheck → (s.strs.at str).cfg.auxEn = 0 → s.linkLow str = some false →
    (s.strs.at str).seq.dischOk = false → s.linkLive str = false →
    (s.strs.at str).seq.weldAt + (s.strs.at str).cfg.dischMs * ticksPerMs ≤ s.now → Answers (.weldCheckTimeout str) s fun t =>
      t.strSt str = .welded ∧ (t.strs.at str).weld.result = 2 ∧ (t.strs.at str).weld.linkHigh = true ∧
      t.evt.str.getLsbD (12 + str.val) = true ∧ (t.strs.at str).seq.openCmds = []) ∧
  ∀ (str : Fin 4) (t0 : Nat) (s : State), s.strSt str = .welded → s.weldClear str = true → (s.strs.at str).seq.relSince = some t0 →
    t0 + ticksPerS ≤ s.now → Answers (.weldedRelease str) s fun t => t.strSt str = .opened ∧ ∀ j, j ≠ str → t.strs.at j = s.strs.at j

/-- From R222, R226, R232, R236 to R239, R242: auxiliary inputs, a dip of more than 20 ms, insulation and temperature that persist act on their
string and clear again; SERVICE_MODE enters and leaves; LIMITS_READ writes 64 bytes. -/
def Obligations.StringConditionsAndService : Prop :=
  (∀ (k : Fin 12) (v : Bool) (s : State), (s.strs.at (auxOf k).1).aux.getLsbD (auxOf k).2.val ≠ v → Answers (.auxInputChange k v) s fun t =>
    (t.strs.at (auxOf k).1).aux.getLsbD (auxOf k).2.val = v ∧ (t.strs.at (auxOf k).1).auxAt.at (auxOf k).2 = s.now) ∧
  (∀ (k : Fin 12) (v : Bool) (s : State), (s.strs.at (auxOf k).1).aux.getLsbD (auxOf k).2.val = v →
    Answers (.auxInputChange k v) s fun t => t = s) ∧
  (∀ (k : Fin 12) (s : State), s.strSt (auxOf k).1 = .closed → (s.strs.at (auxOf k).1).cfg.auxEn.getLsbD (auxOf k).2.val = true →
    (s.strs.at (auxOf k).1).aux.getLsbD (auxOf k).2.val ≠ s.commanded (auxOf k).1 (auxOf k).2 →
    max ((s.strs.at (auxOf k).1).auxAt.at (auxOf k).2) ((s.strs.at (auxOf k).1).cmdAt.at (auxOf k).2 + 100 * ticksPerMs) +
      20 * ticksPerMs ≤ s.now → Answers (.auxMismatch k) s fun t =>
    t.strSt (auxOf k).1 = .opening ∧ (t.strs.at (auxOf k).1).auxCause = true ∧ (t.strs.at (auxOf k).1).lastCause = 0x17) ∧
  (∀ (k : Fin 12) (s : State), s.strSt (auxOf k).1 = .opened → (s.strs.at (auxOf k).1).cfg.auxEn.getLsbD (auxOf k).2.val = true →
    (s.strs.at (auxOf k).1).aux.getLsbD (auxOf k).2.val = true →
    max ((s.strs.at (auxOf k).1).auxAt.at (auxOf k).2) (s.strcal.at (auxOf k).1).openedAt + 20 * ticksPerMs ≤ s.now →
    Answers (.auxClosedWhileOpen k) s fun t => t.strSt (auxOf k).1 = .welded ∧
      (t.strs.at (auxOf k).1).weld.auxClosed.getLsbD (auxOf k).2.val = true) ∧
  (∀ (str : Fin 4) (s : State), (s.swctl.die.at 1).dip = true → (s.swctl.die.at 1).dipAt + 20 * ticksPerMs < s.now →
    s.strSt str = .closed → Answers .contactorDipTimeout s fun t => (t.strSt str = .weldCheck ∨ t.strSt str = .opened) ∧
      (t.strs.at str).lastCause = 0x19 ∧ t.evt.str.getLsbD (4 + str.val) = true ∧ (t.swc.at (cnOf str)).cmd = .off ∧
      (t.swc.at (cpOf str)).cmd = .off ∧ (t.swc.at (pcOf str)).cmd = .off) ∧
  (∀ (str : Fin 4) (u : Nat) (s : State), (s.strs.at str).preUntil = some u → u ≤ s.now → Answers (.prechargeCauseExpiry str) s fun t =>
    t = { s with strs := s.strs.upd str (fun x => { x with preUntil := none }) }) ∧
  (∀ (str : Fin 4) (u : Fin 128) (t0 : Nat) (s : State), s.mp4Of str = some u → (s.strSt str).on = true →
    (s.strs.at str).iso.since = some t0 → t0 + (s.strs.at str).cfg.isoPersistS * ticksPerS ≤ s.now → (s.strs.at str).iso.on = false →
    Answers (.isoPersistenceElapsed str .fault) s fun t => (t.strs.at str).iso.on = true ∧
      t.cross.portToHalter.at (portOf (stallOf u)) = s.cross.portToHalter.at (portOf (stallOf u)) ++ [.isoFault str] ∧
      t = { s with strs := t.strs, cross := t.cross }) ∧
  (∀ (str : Fin 4) (t0 : Nat) (s : State), (s.strs.at str).isoW.absent = some t0 → t0 + 10 * ticksPerS ≤ s.now →
    (s.strs.at str).isoW.on = true → Answers (.isoClear str .warn) s fun t =>
      t = { s with strs := s.strs.upd str (fun x => { x with isoW := { x.isoW with on := false } }) }) ∧
  (∀ (str : Fin 4) (t0 : Nat) (s : State), (s.strs.at str).overTemp.since = some t0 → (s.strs.at str).overTemp.on = false →
    t0 + 5 * ticksPerS ≤ s.now → s.strSt str = .closed → Answers (.overTempSet str) s fun t =>
      (t.strs.at str).overTemp.on = true ∧ t.strSt str = .opening ∧ (t.strs.at str).lastCause = 0x15) ∧
  (∀ (str : Fin 4) (t0 : Nat) (s : State), (s.strs.at str).overTemp.absent = some t0 → (s.strs.at str).overTemp.on = true →
    t0 + 10 * ticksPerS ≤ s.now → Answers (.overTempClear str) s fun t =>
      t = { s with strs := s.strs.upd str (fun x => { x with overTemp := { x.overTemp with on := false } }) }) ∧
  (∀ (c : Cmd) (f : Flight) (str : Fin 4) (s : State), Executing s c f → opByte c 0 = str.val → opByte c 1 = 1 → s.usedStr str = true →
    Answers (.serviceMode c) s fun t => Completes s t c f 0x00 (dwords (s.strs.at str).cfg.svcMaxMin 0 0 0) ∧
      t.strs.at str = { s.strs.at str with service := true, svcFrom := s.now } ∧ (∀ j, j ≠ str → t.strs.at j = s.strs.at j) ∧
      t = { s with strs := t.strs, uint := t.uint, hif := t.hif, rings := t.rings }) ∧
  (∀ (str : Fin 4) (s : State), (s.strs.at str).service = true →
    (s.strs.at str).svcFrom + (s.strs.at str).cfg.svcMaxMin * 60 * ticksPerS ≤ s.now → Answers (.serviceModeExpiry str) s fun t =>
      (t.strs.at str).service = false ∧ ∀ j, j ≠ str → (t.strs.at j).service = (s.strs.at j).service) ∧
  ∀ (c : Cmd) (f : Flight) (s : State), Executing s c f → opField c 8 8 % 16 = 0 → Answers (.limitsRead c) s fun t =>
    Completes s t c f 0x00 64 ∧ ∃ bytes, bytes.length = 64 ∧ bytes.take 32 = padTo 32 s.pub.last ∧
      t.out = s.out ++ [.hostWrite (BitVec.ofNat 64 (opField c 8 8)) bytes] ∧ t = { s with hif := t.hif, rings := t.rings, out := t.out }

/-- From R247 to R251, R264, R271, R273: a cause detail outside lock-out leaves the enables withdrawn, the cut-off open, both fault pins low and
every string out of states 1 to 5, with the lock-out word, the event and the counter; in lock-out it is a late detail and the cause stays.
The host's demand needs its key; start-up tests grant the enables or are a cause; the word is copied; the enables are refreshed, and
withdrawn at SW-1 after 500 µs without a refresh. -/
def Obligations.LockOutHoldsTheSafeState : Prop :=
  (∀ (d : Detail) (w : Fin 16) (s : State), s.halter.lockout = false → Answers (.halterCauseEntry d w) s fun t =>
    t.halter.lockout = true ∧ t.halter.enables = 0 ∧ t.halter.cutoff = false ∧ t.halter.faultA = true ∧ t.halter.faultB = true ∧
    t.halter.lockCause = BitVec.ofNat 8 (detailCode d) ∧ t.halter.lockWhere = BitVec.ofNat 4 (detailWhere d w).val ∧
    t.halter.aonWord = ⟨true, BitVec.ofNat 8 (detailCode d), BitVec.ofNat 4 (detailWhere d w).val, s.oph⟩ ∧ t.halter.copyDue = true ∧
    t.halter.lockCnt = satAdd 0xFFFF s.halter.lockCnt 1 ∧ t.evt.hlt.getLsbD 0 = true ∧
    XEntry.enables 0 false ∈ t.cross.halterToSw1 ∧ (∀ i, (t.strSt i).on = false) ∧
    (∀ i, (s.strSt i).on = true → (t.strs.at i).lastCause = BitVec.ofNat 8 (causeOfPlace (detailPlace d))) ∧
    (detailMomentary d = false → d ≠ .isoFault → t.halter.has d (detailWhere d w).val = true)) ∧
  (∀ (d : Detail) (w : Fin 16) (s : State), s.halter.lockout = true → s.halter.present.at (detailPlace d) = 0 → detailMomentary d = false →
    Answers (.halterCauseEntry d w) s fun t => t.halter.lockCause = s.halter.lockCause ∧ t.halter.lockCnt = s.halter.lockCnt ∧
      t.halter.lateCnt = satAdd 0xFF s.halter.lateCnt 1 ∧ t.halter.has d (detailWhere d w).val = true ∧ t.strs = s.strs ∧ t.swc = s.swc ∧
      t.evt.hlt = s.evt.hlt) ∧
  (∀ (v : Word) (s : State), v.getLsbD 0 = true → v.extractLsb' 24 8 = 0xA5 → s.halter.lockout = false →
    Answers (.hostSafeRequest v) s fun t => t.halter.lockout = true ∧ t.halter.lockCause = 0x08 ∧ t.halter.enables = 0 ∧
      t.halter.has .hostDemand 0 = false) ∧
  (∀ (v : Word) (s : State), (v.getLsbD 0 = false ∨ v.extractLsb' 24 8 ≠ 0xA5) → Answers (.hostSafeRequest v) s fun t =>
    t = { s with halter := { s.halter with badReq := satAdd 0xFF s.halter.badReq 1 } }) ∧
  (∀ s : State, s.halter.copyDue = true → Answers .lockoutWordCopy s fun t =>
    t = { s with halter := { s.halter with cfgWord := s.halter.aonWord, copyDue := false } }) ∧
  (∀ s : State, s.halter.testing = true → Answers (.halterStartupTestsDone true true true) s fun t =>
    t.halter.startupOk = true ∧ t.halter.testing = false ∧ t.halter.has .startup 0 = false ∧ t.halter.has .swcTp 0 = false ∧
    t.halter.enables = (if s.halter.lockout then 0 else 0xFFF) ∧ t.halter.cutoff = !s.halter.lockout ∧
    t.halter.lockout = s.halter.lockout ∧ t = { s with halter := t.halter, cross := t.cross }) ∧
  (∀ (a b : Bool) (s : State), s.halter.testing = true → s.halter.lockout = false → s.halter.has .startup 0 = false →
    Answers (.halterStartupTestsDone a b false) s fun t => t.halter.lockout = true ∧ t.halter.lockCause = 0x11 ∧
      t.halter.startupOk = s.halter.startupOk ∧ t.halter.has .startup 0 = true) ∧
  (∀ s : State, s.isl.halter = true → Answers .enableRefresh s fun t => t = { s with
    cross := { s.cross with halterToSw1 := s.cross.halterToSw1 ++ [.enables s.halter.enables s.halter.cutoff] } }) ∧
  (∀ s : State, s.swctl.refreshAt + 500 * ticksPerUs ≤ s.now → Answers .enableRefreshTimeout s fun t =>
    t.swctl.enables = 0 ∧ t.swctl.cutoff = false ∧ (∀ j, (t.swc.at (conCh j)).out = false) ∧
    t = { s with swctl := t.swctl, swc := t.swc, free := t.free }) ∧
  (∀ (a : Bool) (s : State), Answers (.faultPinMismatch a) s fun t => t.evt.hlt.getLsbD 7 = true ∧ t.halter = s.halter) ∧
  ∀ s : State, Answers .halterMirrorRead s fun t => (∀ i : Fin 4, t.halter.mirror6.getLsbD i.val = (s.strSt i == .closed)) ∧
    (∀ i : Fin 4, t.halter.mirror7.getLsbD i.val = (s.strs.at i).service) ∧
    t = { s with halter := { s.halter with mirror6 := t.halter.mirror6, mirror7 := t.halter.mirror7 } }

/-- From R252 to R256, R265: an EMERGENCY input that opens is a demand; disagreeing channels, and two failed pulses, make it not OK; a proof
expires; a heartbeat must be the last value plus 1, and its absence is late, then lost; a contactor channel's pulse takes its enable for its
length and its result is judged. -/
def Obligations.SafetyInputsHeartbeatAndPulses : Prop :=
  (∀ (n : Fin 8) (s : State), (s.halter.cfg.sin.at n).role = 1 → (s.halter.sin.at n).a.closed = true → (s.halter.sin.at n).demand = false →
    Answers (.safetyInputChange n false false) s fun t => (t.halter.sin.at n).a.closed = false ∧
      (t.halter.sin.at n).a.openedAt = s.now ∧ (t.halter.sin.at n).demand = true ∧ t.halter.has .sinDemand n.val = true ∧
      t.halter.lockout = true ∧ ∀ m, m ≠ n → t.halter.sin.at m = s.halter.sin.at m) ∧
  (∀ (n : Fin 8) (b : Bool) (s : State), Answers (.safetyInputChange n b (if b then (s.halter.sin.at n).b.closed else
    (s.halter.sin.at n).a.closed)) s fun t => t = s) ∧
  (∀ (k : Fin 4) (n : Fin 8) (s : State), (s.halter.cfg.sin.at n).role ≠ 0 → (s.halter.cfg.sin.at n).tpEn = true →
    (s.halter.cfg.sin.at n).tpoA.toNat = k.val → Answers (.sinTestPulse k) s fun t =>
      (t.halter.sin.at n).a = { (s.halter.sin.at n).a with wasClosed := (s.halter.sin.at n).a.closed } ∧
      t.out = s.out ++ [.tpo k] ∧ t = { s with halter := { s.halter with sin := t.halter.sin }, out := t.out }) ∧
  (∀ (k : Fin 4) (n : Fin 8) (read : Bank 16 PulseReading) (s : State), (∀ m, m ≠ n → (s.halter.cfg.sin.at m).pulsed = false) →
    (s.halter.cfg.sin.at n).pulsed = true → (s.halter.cfg.sin.at n).tpoA.toNat = k.val → (s.halter.sin.at n).a.wasClosed = true →
    read.at ⟨2 * n.val, by omega⟩ = ⟨true, true⟩ → Answers (.sinTestPulseJudge k read) s fun t =>
      (t.halter.sin.at n).a.failRun = 0 ∧ (t.halter.sin.at n).a.passRun = (s.halter.sin.at n).a.passRun + 1 ∧
      (t.halter.sin.at n).a.wasClosed = false ∧ ∀ m, m ≠ n → t.halter.sin.at m = s.halter.sin.at m) ∧
  (∀ (k : Fin 4) (n : Fin 8) (read : Bank 16 PulseReading) (s : State), (∀ m, m ≠ n → (s.halter.cfg.sin.at m).pulsed = false) →
    (s.halter.cfg.sin.at n).pulsed = true → (s.halter.cfg.sin.at n).tpoA.toNat = k.val → (s.halter.sin.at n).a.wasClosed = true →
    (s.halter.sin.at n).demand = false → (s.halter.sin.at n).a.failRun = 1 → read.at ⟨2 * n.val, by omega⟩ = ⟨false, true⟩ →
    Answers (.sinTestPulseJudge k read) s fun t => (t.halter.sin.at n).a.failRun = 2 ∧ t.halter.has .sinTp n.val = true ∧
      t.halter.sinOk n = false) ∧
  (∀ (n : Fin 8) (s : State), (s.halter.cfg.sin.at n).role ≠ 0 → (s.halter.sin.at n).a.closed ≠ (s.halter.sin.at n).b.closed →
    s.halter.has .sinDisc n.val = false →
    max (s.halter.sin.at n).a.changedAt (s.halter.sin.at n).b.changedAt + 50 * ticksPerMs < s.now → Answers (.sinDiscrepancy n) s fun t =>
      t.halter.has .sinDisc n.val = true ∧ t.halter.lockout = true ∧ t.halter.sinOk n = false) ∧
  (∀ (n : Fin 8) (s : State), (s.halter.sin.at n).proven = true → (s.halter.cfg.sin.at n).proofH ≠ 0 →
    (s.halter.sin.at n).provenAt + (s.halter.cfg.sin.at n).proofH * 3600000 ≤ s.oph → Answers (.guardProofExpiry n) s fun t =>
      (t.halter.sin.at n).proven = false ∧ t.evt.hlt.getLsbD 6 = true ∧ t.halter.lockout = s.halter.lockout ∧ t.strs = s.strs) ∧
  (∀ (v : Word) (s : State), v.setWidth 8 = s.halter.hb + 1 → Answers (.heartbeatWrite (.core 0) v) s fun t =>
    t.halter.hb = s.halter.hb + 1 ∧ t.halter.hbArmed = true ∧ t.halter.hbAt = s.now ∧ t.halter.hbLate = false ∧
    t.halter.badHb = s.halter.badHb ∧ t.halter.lockout = s.halter.lockout ∧ t = { s with halter := t.halter }) ∧
  (∀ (x : View) (v : Word) (s : State), (s.mayBeat x = false ∨ v.setWidth 8 ≠ s.halter.hb + 1) → Answers (.heartbeatWrite x v) s fun t =>
    t.halter = { s.halter with badHb := satAdd 0xFF s.halter.badHb 1 }) ∧
  (∀ s : State, s.halter.hbArmed = true → s.halter.hbAt + 10 * ticksPerMs < s.now → Answers .heartbeatLate s fun t =>
    t = { s with halter := { s.halter with hbLate := true } }) ∧
  (∀ s : State, s.halter.hbArmed = true → s.halter.hbAt + 60 * ticksPerMs < s.now → s.halter.has .hbLoss 0 = false →
    Answers .heartbeatLoss s fun t => t.halter.has .hbLoss 0 = true ∧ t.halter.hbLate = true ∧ t.halter.lockout = true) ∧
  (∀ (j : Fin 12) (s : State), s.halter.enables ≠ 0 → (s.halter.pulse.at j).busy = false →
    ((s.swc.at (conCh j)).cmd = .off ∨ (s.swc.at (conCh j)).onAt + 150 * ticksPerMs ≤ s.now) → Answers (.contactorTestPulse j) s fun t =>
      (t.halter.pulse.at j).busy = true ∧ (t.swc.at (conCh j)).pulse = true ∧ (t.swc.at (conCh j)).out = false ∧
      (t.swc.at (conCh j)).phase = (s.swc.at (conCh j)).phase ∧ (∀ c, c ≠ conCh j → t.swc.at c = s.swc.at c) ∧
      t = { s with halter := t.halter, swc := t.swc }) ∧
  (∀ (j : Fin 12) (a b : Bool) (s : State), (s.halter.pulse.at j).busy = true → (s.swc.at (conCh j)).cmd = .off →
    (s.swc.at (conCh j)).phase = .off → (s.swc.at (conCh j)).pulseDrop = false → s.halter.enables ≠ 0 →
    Answers (.contactorTestPulseEnd j true a b) s fun t => (t.halter.pulse.at j).busy = false ∧ (t.halter.pulse.at j).failed = false ∧
      (t.halter.pulse.at j).failRun = 0 ∧ (t.swc.at (conCh j)).pulse = false ∧ t = { s with halter := t.halter, swc := t.swc }) ∧
  ∀ (j : Fin 12) (a b : Bool) (s : State), (s.halter.pulse.at j).busy = true → (s.swc.at (conCh j)).cmd = .off →
    (s.swc.at (conCh j)).phase = .off → (s.swc.at (conCh j)).pulseDrop = false → s.halter.enables ≠ 0 → (s.halter.pulse.at j).failRun = 1 →
    Answers (.contactorTestPulseEnd j false a b) s fun t => (t.halter.pulse.at j).failed = true ∧
      t.halter.tpFailCnt = satAdd 0xFFFF s.halter.tpFailCnt 1 ∧ t.halter.has .swcTp (j.val / 3) = true

/-- From R257 to R262: a good copy waits for its partner, an equal one within 10 ms is an accepted pair, which starts supervision, and one with
RUN = 0 is a demand; a lone copy is a strike; 50 ms without a pair is NET_LOSS; the status telegram goes out on both networks with the next
SEQ; a close permit ends. -/
def Obligations.SafetyTelegrams : Prop :=
  (∀ (n : Fin 2) (b : BitVec 128) (s : State), s.supervises = true → s.tgGood b = true → (∀ m, s.halter.net.wait.at m = none) →
    Answers (.telegramReceived n b) s fun t => t.halter.net.wait.at n = some ⟨b, s.now⟩ ∧ t.halter.net.strikes = s.halter.net.strikes ∧
      t = { s with halter := { s.halter with net := { s.halter.net with wait := t.halter.net.wait } } }) ∧
  (∀ (n : Fin 2) (b : BitVec 128) (s : State), (s.supervises = false ∨ s.tgGood b = false) → Answers (.telegramReceived n b) s fun t => t = s) ∧
  (∀ (n m : Fin 2) (b : BitVec 128) (at_ : Nat) (s : State), m ≠ n → s.supervises = true → s.tgGood b = true →
    s.halter.net.wait.at m = some ⟨b, at_⟩ → s.now ≤ at_ + 10 * ticksPerMs → s.halter.net.started = false →
    (tgByte b 4).getLsbD 0 = true → Answers (.telegramReceived n b) s fun t =>
      t.halter.net.started = true ∧ t.halter.net.run = true ∧ t.halter.net.lastSeq = b.extractLsb' 16 16 ∧
      t.halter.net.acceptedAt = s.now ∧ t.halter.net.wait.at m = none ∧ t.halter.net.strikes = s.halter.net.strikes ∧
      t.halter.has .netDemand 0 = false ∧ t.halter.net.permitRef = some ((tgByte b 5).setWidth 4) ∧
      t.halter.lockout = s.halter.lockout ∧ t = { s with halter := t.halter }) ∧
  (∀ (n m : Fin 2) (b : BitVec 128) (at_ : Nat) (s : State), m ≠ n → s.supervises = true → s.tgGood b = true →
    s.halter.net.wait.at m = some ⟨b, at_⟩ → s.now ≤ at_ + 10 * ticksPerMs → s.halter.net.started = false →
    (tgByte b 4).getLsbD 0 = false → Answers (.telegramReceived n b) s fun t =>
      t.halter.net.run = false ∧ t.halter.has .netDemand 0 = true ∧ (s.halter.has .netDemand 0 = false → t.halter.lockout = true)) ∧
  (∀ (n : Fin 2) (w : TgCopy) (s : State), s.halter.net.wait.at n = some w → w.at_ + 10 * ticksPerMs < s.now →
    Answers (.telegramPairTimeout n) s fun t => t.halter.net.wait.at n = none ∧
      t.halter.net.strikes = satAdd 0xFFFF s.halter.net.strikes 1 ∧ t.evt.hlt.getLsbD 5 = true ∧
      (s.halter.net.started = false → t.halter.lockout = s.halter.lockout)) ∧
  (∀ (n : Fin 2) (s : State), s.halter.net.wait.at n = none → Answers (.telegramPairTimeout n) s fun t => t = s) ∧
  (∀ s : State, s.supervises = true → s.halter.net.started = true → s.halter.net.acceptedAt + 50 * ticksPerMs ≤ s.now →
    s.halter.has .netLoss 0 = false → Answers .netLoss s fun t => t.halter.has .netLoss 0 = true ∧ t.halter.lockout = true) ∧
  (∀ s : State, s.isl.halter = true → s.halter.quiet = false → Answers (.statusTelegram true true) s fun t =>
    t.halter.net.seq = s.halter.net.seq + 1 ∧ t.halter.net.txFail = satAdd 0xFF s.halter.net.txFail 0 ∧
    (∃ bytes, bytes = telegramBytes s.halter.cfg.txTg s.halter.net.seq s.statusPayload s.now ∧ bytes.length = 16 ∧
      t.out = s.out ++ [.telegram 0 bytes, .telegram 1 bytes]) ∧ t = { s with halter := t.halter, out := t.out }) ∧
  ∀ (str : Fin 4) (u : Nat) (s : State), s.halter.net.permit.at str = some u → u ≤ s.now → Answers (.closePermitExpiry str) s fun t =>
    t.halter.net.permit.at str = none ∧ (∀ j, j ≠ str → t.halter.net.permit.at j = s.halter.net.permit.at j) ∧
    t = { s with halter := { s.halter with net := { s.halter.net with permit := t.halter.net.permit } } }

/-- From R267 to R270: a press of 0.5 s to 5 s whose contacts agree leaves lock-out when no detail is or was present, resets are enabled and,
with RST_HOST, a HALTER_RESET_REQ joined it; any other press leaves lock-out as it is. -/
def Obligations.LockOutExit : Prop :=
  (∀ s : State, s.halter.key.press = none → s.halter.key.held = false → Answers .resetKeyPressStart s fun t =>
    t.halter.key.press = some s.now ∧ t.halter.key.seen = s.halter.presentWord ∧ t.halter.key.reqs = [] ∧
    t.halter.key.a = true ∧ t.halter.key.b = true ∧ t = { s with halter := { s.halter with key := t.halter.key } }) ∧
  (∀ (c : Cmd) (f : Flight) (t0 : Nat) (s : State), Executing s c f → s.halter.key.press = some t0 → t0 + 500 * ticksPerMs ≤ s.now →
    s.now < t0 + 5 * ticksPerS → s.halter.lockout = true → s.halter.key.disabled = false → s.halter.presentWord = 0 →
    s.halter.key.seen = 0 → s.halter.key.reqs = [c] → Answers (.resetKeyPressEnd true) s fun t =>
      t.halter.lockout = false ∧ t.halter.aonWord.lockout = false ∧ t.halter.copyDue = true ∧ t.evt.hlt.getLsbD 1 = true ∧
      t.halter.faultA = !s.halter.startupOk ∧ t.halter.enables = (if s.halter.startupOk then 0xFFF else 0) ∧
      t.halter.key.press = none ∧ Completes s t c f 0x00 1 ∧ t.strs = s.strs ∧ t.swc = s.swc) ∧
  (∀ (b : Bool) (t0 : Nat) (s : State), s.halter.key.press = some t0 →
    (s.now < t0 + 500 * ticksPerMs ∨ t0 + 5 * ticksPerS ≤ s.now ∨ b = false ∨ s.halter.key.disabled = true ∨ s.halter.presentWord ≠ 0 ∨
      s.halter.key.seen ≠ 0 ∨ (s.halter.cfg.rstHost = true ∧ s.halter.key.reqs = [])) → Answers (.resetKeyPressEnd b) s fun t =>
      t.halter.lockout = s.halter.lockout ∧ t.halter.enables = s.halter.enables ∧ t.halter.key.press = none ∧
      t.halter.key.a = false ∧ t.halter.key.b = false ∧ t.strs = s.strs) ∧
  (∀ (c : Cmd) (f : Flight) (t0 : Nat) (s : State), Executing s c f → s.halter.key.press = some t0 → s.now < t0 + 500 * ticksPerMs →
    s.halter.key.reqs = [c] → Answers (.resetKeyPressEnd true) s fun t =>
      t.halter.key.shortCnt = satAdd 0xFFFF s.halter.key.shortCnt 1 ∧ Completes s t c f 0x31 (dwords 0x0805 1 0 0)) ∧
  (∀ (t0 : Nat) (s : State), s.halter.key.press = some t0 → t0 + 5 * ticksPerS ≤ s.now → Answers .rstkHeld s fun t =>
    t.halter.key.press = none ∧ t.halter.key.held = true ∧ t.evt.hlt.getLsbD 2 = true ∧ t.halter.lockout = s.halter.lockout) ∧
  (∀ s : State, Answers .rstkDisc s fun t => t.halter.key.press = none ∧ t.halter.key.disc = true ∧ t.evt.hlt.getLsbD 3 = true ∧
    t.halter.lockout = s.halter.lockout ∧ t.halter.key.reqs = []) ∧
  (∀ (t0 : Nat) (s : State), s.halter.key.disabled = true → s.halter.key.press = none → s.halter.key.bothOpenAt = some t0 →
    t0 + ticksPerS ≤ s.now → Answers .resetEnable s fun t => t.halter.key.disabled = false ∧ t.halter.has .rstkStuck 0 = false ∧
      t.halter.lockout = s.halter.lockout ∧ t = { s with halter := t.halter }) ∧
  (∀ (c : Cmd) (f : Flight) (t0 : Nat) (s : State), Executing s c f → s.halter.lockout = true → s.halter.key.press = some t0 →
    s.halter.presentWord = 0 → s.halter.key.disabled = false → Answers (.halterResetReq c) s fun t =>
      t.halter.key.reqs = s.halter.key.reqs ++ [c] ∧ t.hif.flight c.stamp = some f ∧ t.halter.lockout = true ∧
      t = { s with halter := { s.halter with key := t.halter.key }, hif := t.hif }) ∧
  ∀ (c : Cmd) (f : Flight) (s : State), Executing s c f →
    (s.halter.lockout = false → Answers (.halterResetReq c) s fun t => Completes s t c f 0x31 0x0801 ∧ t = { s with hif := t.hif, rings := t.rings }) ∧
    (s.halter.lockout = true → s.halter.key.press = none → Answers (.halterResetReq c) s fun t =>
      Completes s t c f 0x31 0x0802 ∧ t = { s with hif := t.hif, rings := t.rings })

/-- From R295, R297, R298, R305, R306: SWC_SET replaces the mode of a general channel and clears its latch, refused while the junction is hot;
SWC_CONFIG stores its settings; a test pulse turns a channel off for its length, and two failures in a row set STUCK_ON and command it OFF. -/
def Obligations.SwitchCommandsAndTestPulses : Prop :=
  (∀ (c : Cmd) (f : Flight) (ch : Fin 12) (s : State), Executing s c f → opByte c 0 = ch.val → opByte c 1 ≤ 2 →
    (opByte c 1 = 2 → 1 ≤ opField c 2 2 ∧ opField c 2 2 ≤ 1000) → (opByte c 1 = 0 ∨ (s.swc.at (genCh ch)).tj < 150) →
    Answers (.swcSet c) s fun t => Completes s t c f 0x00 (dwords (t.swcStat (genCh ch)).toNat 0 0 0) ∧
      (t.swc.at (genCh ch)).cmd = (if opByte c 1 = 0 then .off else if opByte c 1 = 1 then .on else .constPower) ∧
      (t.swc.at (genCh ch)).latched = false ∧ (opByte c 1 = 0 → (t.swc.at (genCh ch)).out = false ∧ (t.swc.at (genCh ch)).wait = false) ∧
      (t.swc.at (genCh ch)).restarts = (if opByte c 1 = 0 then (s.swc.at (genCh ch)).restarts else []) ∧
      (t.swc.at (genCh ch)).stuckOn = (s.swc.at (genCh ch)).stuckOn ∧
      (∀ x, x ≠ genCh ch → t.swc.at x = s.swc.at x) ∧ t = { s with swc := t.swc, hif := t.hif, rings := t.rings }) ∧
  (∀ (c : Cmd) (f : Flight) (ch : Fin 12) (s : State), Executing s c f → opByte c 0 = ch.val → opByte c 1 = 1 →
    150 ≤ (s.swc.at (genCh ch)).tj → Answers (.swcSet c) s fun t =>
      Completes s t c f 0x31 0x0902 ∧ t = { s with hif := t.hif, rings := t.rings }) ∧
  (∀ (c : Cmd) (f : Flight) (s : State), Executing s c f → (12 ≤ opByte c 0 ∨ 2 < opByte c 1) → Answers (.swcSet c) s fun t =>
    Completes s t c f 0x12 0 ∧ t = { s with hif := t.hif, rings := t.rings }) ∧
  (∀ (c : Cmd) (f : Flight) (pkg : List Byte) (ch : Fin 12) (s : State), Executing s c f → opByte c 1 = 0 → opByte c 0 = ch.val →
    opByte c 2 ≤ 15 → 1 ≤ opByte c 3 → opByte c 3 ≤ 60 → 1 ≤ opByte c 4 → opByte c 4 ≤ 100 → opByte c 5 ≤ 3 → opByte c 6 ≤ 1 →
    10 ≤ opField c 8 2 → opField c 8 2 ≤ 1000 → opField c 8 2 % 10 = 0 → Answers (.swcConfig c pkg) s fun t =>
      Completes s t c f 0x00 0 ∧ (t.swc.at (genCh ch)).cfg = { (s.swc.at (genCh ch)).cfg with
        retryMax := opByte c 2, retryWinS := opByte c 3, limTmoMs := opByte c 4, pwmHz := BitVec.ofNat 2 (opByte c 5)
        law := opByte c 6 == 1, restartMs := opField c 8 2 } ∧
      (∀ x, x ≠ genCh ch → t.swc.at x = s.swc.at x) ∧ t = { s with swc := t.swc, hif := t.hif, rings := t.rings }) ∧
  (∀ (c : Cmd) (f : Flight) (pkg : List Byte) (j : Fin 12) (s : State), Executing s c f → opByte c 1 = 1 → opByte c 0 = 12 + j.val →
    opByte c 2 ≤ 1 → 500 ≤ opField c 4 2 → opField c 4 2 ≤ 4000 → 20 ≤ opField c 6 2 → opField c 6 2 ≤ 500 → 1000 ≤ opField c 8 2 →
    opField c 8 2 ≤ 20000 → Answers (.swcConfig c pkg) s fun t =>
      (s.strHeld (strOfCon j) = true → Completes s t c f 0x31 0x0901 ∧ t.swc = s.swc) ∧
      (s.strHeld (strOfCon j) = false → Completes s t c f 0x00 0 ∧ (t.swc.at (conCh j)).cfg = { (s.swc.at (conCh j)).cfg with
        econ := opByte c 2 == 1, pullMa := opField c 4 2, pullMs := opField c 6 2, holdMw := opField c 8 2 } ∧
        ∀ x, x ≠ conCh j → t.swc.at x = s.swc.at x)) ∧
  (∀ (c : Cmd) (f : Flight) (pkg : List Byte) (s : State), Executing s c f → opByte c 1 = 2 → opField c 0x10 4 = 96 → pkg.length = 96 →
    packageHead 0x4402 pkg = true → field pkg 0x10 2 ≠ 0 → field pkg 0x10 2 < 4096 → field pkg 0x12 1 ≤ 1 →
    zeroBytes pkg 0x13 0x20 = true → packageSigned s.sec.owner pkg = true → s.swctl.seq.toNat < field pkg 4 4 →
    Answers (.swcConfig c pkg) s fun t => Completes s t c f 0x00 (dwords t.bypassMask 0 0 0) ∧
      t.swctl.seq = BitVec.ofNat 32 (field pkg 4 4) ∧ ∀ ch : Fin 12, (t.swc.at (genCh ch)).cfg.bypass =
        if (field pkg 0x10 2).testBit ch.val then field pkg 0x12 1 == 0 else (s.swc.at (genCh ch)).cfg.bypass) ∧
  (∀ (ch : Fin 12) (s : State), s.pulseDue ch = true → Answers (.generalTestPulse ch) s fun t =>
    (t.swc.at (genCh ch)).pulse = true ∧ (t.swc.at (genCh ch)).out = false ∧ (∀ x, x ≠ genCh ch → t.swc.at x = s.swc.at x) ∧
    t = { s with swc := t.swc }) ∧
  (∀ (ch : Fin 12) (s : State), s.pulseDue ch = false → Answers (.generalTestPulse ch) s fun t => t = s) ∧
  (∀ (ch : Fin 12) (s : State), (s.swc.at (genCh ch)).pulse = true → (s.swc.at (genCh ch)).pulseDrop = false →
    s.mayConduct (genCh ch) = true → (s.swc.at (genCh ch)).cfg.bypass = false → Answers (.generalTestPulseEnd ch true) s fun t =>
      (t.swc.at (genCh ch)).pulse = false ∧ (t.swc.at (genCh ch)).out = true ∧ (t.swc.at (genCh ch)).failRun = 0 ∧
      t = { s with swc := t.swc }) ∧
  ∀ (ch : Fin 12) (s : State), (s.swc.at (genCh ch)).pulse = true → (s.swc.at (genCh ch)).pulseDrop = false →
    s.mayConduct (genCh ch) = true → (s.swc.at (genCh ch)).cfg.bypass = false → (s.swc.at (genCh ch)).failRun = 1 →
    Answers (.generalTestPulseEnd ch false) s fun t => (t.swc.at (genCh ch)).stuckOn = true ∧ (t.swc.at (genCh ch)).cmd = .off ∧
      (t.swc.at (genCh ch)).out = false ∧ t.evt.swc.getLsbD ch.val = true ∧ ∀ x, x ≠ genCh ch → t.swc.at x = s.swc.at x

/-- From R294 to R296: a limit timeout or a thermal trip turns its channel off; a general channel with restarts left waits and restarts, one
without and every contactor channel latches; no other channel changes. -/
def Obligations.TripsLatchesAndRestarts : Prop :=
  (∀ (ch : Fin 12) (s : State), (s.swc.at (genCh ch)).out = true → (s.swc.at (genCh ch)).limit = true →
    (s.swc.at (genCh ch)).limitAt + (s.swc.at (genCh ch)).cfg.limTmoMs * ticksPerMs ≤ s.now → Answers (.limitTimeout ch) s fun t =>
      (t.swc.at (genCh ch)).out = false ∧ (t.swc.at (genCh ch)).tripCnt = satAdd 0xFF (s.swc.at (genCh ch)).tripCnt 1 ∧
      t.evt.swc.getLsbD ch.val = true ∧ (∀ x, x ≠ genCh ch → t.swc.at x = s.swc.at x) ∧
      (((s.swc.at (genCh ch)).recent s.now).length < (s.swc.at (genCh ch)).cfg.retryMax →
        (t.swc.at (genCh ch)).wait = true ∧ (t.swc.at (genCh ch)).waitCause = .limTmo ∧ (t.swc.at (genCh ch)).tripAt = s.now ∧
        (t.swc.at (genCh ch)).cmd = (s.swc.at (genCh ch)).cmd) ∧
      ((s.swc.at (genCh ch)).cfg.retryMax ≤ ((s.swc.at (genCh ch)).recent s.now).length →
        (t.swc.at (genCh ch)).latched = true ∧ (t.swc.at (genCh ch)).cause = .limTmo ∧ (t.swc.at (genCh ch)).cmd = .off)) ∧
  (∀ (ch : Fin 12) (s : State), ((s.swc.at (genCh ch)).out = false ∨ (s.swc.at (genCh ch)).limit = false) →
    Answers (.limitTimeout ch) s fun t => t = s) ∧
  (∀ (j : Fin 12) (s : State), (s.swc.at (conCh j)).out = true → Answers (.contactorOvercurrent j) s fun t =>
    (t.swc.at (conCh j)).out = false ∧ (t.swc.at (conCh j)).latched = true ∧ (t.swc.at (conCh j)).cause = .overcurrent ∧
    (t.swc.at (conCh j)).cmd = (s.swc.at (conCh j)).cmd ∧ t.evt.swc.getLsbD (12 + j.val) = true ∧
    t.strs = s.strs ∧ ∀ x, x ≠ conCh j → t.swc.at x = s.swc.at x) ∧
  (∀ (j : Fin 12) (s : State), (s.swc.at (conCh j)).out = true → Answers (.thermalTrip (conCh j)) s fun t =>
    (t.swc.at (conCh j)).out = false ∧ (t.swc.at (conCh j)).latched = true ∧ (t.swc.at (conCh j)).cause = .thermal ∧
    ∀ x, x ≠ conCh j → t.swc.at x = s.swc.at x) ∧
  (∀ (ch : Fin 12) (s : State), (s.swc.at (genCh ch)).wait = true →
    ((s.swc.at (genCh ch)).waitCause ≠ .limTmo ∨ (s.swc.at (genCh ch)).tripAt + (s.swc.at (genCh ch)).cfg.restartMs * ticksPerMs ≤ s.now) →
    (s.swc.at (genCh ch)).cmd ≠ .off → (s.swc.at (genCh ch)).latched = false → s.dipHeld (genCh ch) = false →
    (s.swc.at (genCh ch)).out = false → (s.swc.at (genCh ch)).pulse = false → Answers (.channelRestart ch) s fun t =>
      (t.swc.at (genCh ch)).out = true ∧ (t.swc.at (genCh ch)).wait = false ∧ (t.swc.at (genCh ch)).tj < 150 ∧
      (t.swc.at (genCh ch)).restarts = s.now :: (s.swc.at (genCh ch)).recent s.now ∧
      (∀ x, x ≠ genCh ch → t.swc.at x = s.swc.at x) ∧ t = { s with swc := t.swc, free := t.free }) ∧
  (∀ (ch : Fin 12) (s : State), (s.swc.at (genCh ch)).wait = false → Answers (.channelRestart ch) s fun t => t = s) ∧
  (∀ (ch : Fin 12) (s : State), (s.swc.at (genCh ch)).out = true → (s.swc.at (genCh ch)).limit = false →
    Answers (.currentLimitChange ch true) s fun t => (t.swc.at (genCh ch)).limit = true ∧ (t.swc.at (genCh ch)).limitAt = s.now ∧
      (∀ x, x ≠ genCh ch → t.swc.at x = s.swc.at x) ∧ t = { s with swc := t.swc }) ∧
  ∀ (ch : Fin 12) (s : State), (s.swc.at (genCh ch)).out = true → Answers (.currentLimitChange ch false) s fun t =>
    (t.swc.at (genCh ch)).limit = false ∧ t = { s with swc := t.swc }

/-- From R285 to R290, R299, R300: the end of pull-in learns the coil and holds it; each measurement of the supply sets the duties anew; a dip
turns every output of its die off and keeps the commands, a restore turns on what is commanded and free to conduct, and a loss resets every
channel of the die; the sense sequencer samples its channel and goes on to the next. -/
def Obligations.SwitchSuppliesEconomiserAndSense : Prop :=
  (∀ (j : Fin 12) (duty ma : Nat) (s : State), (s.swc.at (conCh j)).phase = .pullIn →
    (s.swc.at (conCh j)).onAt + (s.swc.at (conCh j)).cfg.pullMs * ticksPerMs ≤ s.now → Answers (.pullInEnd j duty ma) s fun t =>
      (t.swc.at (conCh j)).phase = .hold ∧
      (t.swc.at (conCh j)).rCoil = (if ma < 100 then (s.swc.at (conCh j)).rCoil else learnedCoil duty (s.vbat (conCh j)) ma) ∧
      (t.swc.at (conCh j)).pullLow = (decide (1000 ≤ duty) && decide (ma < (s.swc.at (conCh j)).cfg.pullMa)) ∧
      (t.swc.at (conCh j)).duty = holdDuty (t.swc.at (conCh j)) (s.vbat (conCh j)) ∧
      (∀ x, x ≠ conCh j → t.swc.at x = s.swc.at x) ∧ t = { s with swc := t.swc }) ∧
  (∀ (j : Fin 12) (duty ma : Nat) (s : State), (s.swc.at (conCh j)).phase ≠ .pullIn → Answers (.pullInEnd j duty ma) s fun t => t = s) ∧
  (∀ (v : BitVec 12) (s : State), Answers (.economiserUpdate v) s fun t => (t.swctl.die.at 1).vbat = v ∧
    (∀ j, (s.swc.at (conCh j)).phase = .hold → (t.swc.at (conCh j)).duty = holdDuty (s.swc.at (conCh j)) v.toNat ∧
      (t.swc.at (conCh j)).holdLow = holdClamped (s.swc.at (conCh j)) v.toNat) ∧
    (∀ j, (s.swc.at (conCh j)).phase ≠ .hold → t.swc.at (conCh j) = s.swc.at (conCh j)) ∧
    (∀ ch, t.swc.at (genCh ch) = s.swc.at (genCh ch)) ∧ t = { s with swc := t.swc, swctl := t.swctl }) ∧
  (∀ (v : BitVec 12) (s : State), Answers (.dutyCompensationUpdate v) s fun t => (t.swctl.die.at 0).vbat = v ∧
    (∀ ch, (s.swc.at (genCh ch)).out = true → (s.swc.at (genCh ch)).cmd = .constPower → (t.swc.at (genCh ch)).duty =
      constDuty (s.swc.at (genCh ch)).cfg.law (s.swc.at (genCh ch)).dRef v.toNat) ∧
    (∀ j, t.swc.at (conCh j) = s.swc.at (conCh j)) ∧ t = { s with swc := t.swc, swctl := t.swctl }) ∧
  (∀ (die : Fin 2) (v : BitVec 12) (s : State), (s.swctl.die.at die).dip = false → Answers (.supplyDip die v) s fun t =>
    (t.swctl.die.at die).dip = true ∧ (t.swctl.die.at die).vbat = v ∧ (t.swctl.die.at die).dipAt = s.now ∧
    t.swctl.dipCnt = satAdd 0xFF s.swctl.dipCnt 1 ∧ t.evt.swc.getLsbD (24 + die.val) = true ∧
    (∀ ch, dieOf ch = die → (t.swc.at ch).out = false) ∧ (die = 0 → ∀ ch, (t.swc.at ch).cmd = (s.swc.at ch).cmd)) ∧
  (∀ (v : BitVec 12) (ch : Fin 12) (s : State), (s.swctl.die.at 0).dip = true → (s.swctl.die.at 0).inLimit.getLsbD ch.val = false →
    (s.swc.at (genCh ch)).cmd ≠ .off → (s.swc.at (genCh ch)).latched = false → (s.swc.at (genCh ch)).wait = false →
    (s.swc.at (genCh ch)).pulse = false → Answers (.supplyRestore 0 v) s fun t =>
      (t.swctl.die.at 0).dip = false ∧ (t.swctl.die.at 0).vbat = v ∧ (t.swc.at (genCh ch)).out = true ∧
      (t.swc.at (genCh ch)).cmd = (s.swc.at (genCh ch)).cmd ∧ ∀ j, t.swc.at (conCh j) = s.swc.at (conCh j)) ∧
  (∀ (v : BitVec 12) (ch : Fin 12) (s : State), (s.swctl.die.at 0).dip = true → (s.swctl.die.at 0).inLimit.getLsbD ch.val = true →
    (s.swc.at (genCh ch)).cmd ≠ .off → (s.swc.at (genCh ch)).latched = false → (s.swc.at (genCh ch)).wait = false →
    (s.swc.at (genCh ch)).cfg.retryMax ≤ ((s.swc.at (genCh ch)).recent s.now).length → Answers (.supplyRestore 0 v) s fun t =>
      (t.swc.at (genCh ch)).latched = true ∧ (t.swc.at (genCh ch)).cause = .dipRestore ∧ (t.swc.at (genCh ch)).cmd = .off) ∧
  (∀ (die : Fin 2) (v : BitVec 12) (s : State), Answers (.supplyLoss die v) s fun t => ∀ ch, dieOf ch = die →
    (t.swc.at ch).cmd = .off ∧ (t.swc.at ch).out = false ∧ (t.swc.at ch).latched = false ∧ (t.swc.at ch).restarts = [] ∧
    (t.swc.at ch).stuckOn = false) ∧
  (∀ (mv : Nat) (s : State), s.swctl.snsExt = false → Answers (.senseGSample mv) s fun t =>
    (t.swc.at (genCh s.swctl.intCh)).sampleAt = some s.now ∧ (t.swc.at (genCh s.swctl.intCh)).curSat = decide (3300 < mv) ∧
    t.swctl.intCh.val = (s.swctl.intCh.val + 1) % 12 ∧ (∀ x, x ≠ genCh s.swctl.intCh → t.swc.at x = s.swc.at x) ∧
    t = { s with swc := t.swc, swctl := t.swctl, mem := t.mem, ret := t.ret }) ∧
  (∀ (mv : Nat) (s : State), s.swctl.snsExt = true → (∀ p ∈ s.swctl.pins, p = s.swctl.pins.headD 0) → 12 ≤ (s.swctl.pins.headD 0).toNat →
    Answers (.senseGSample mv) s fun t =>
      t = { s with swctl := { s.swctl with snsPin := s.swctl.pins.headD 0, settling := false } }) ∧
  (∀ (p : BitVec 4) (s : State), s.swctl.snsExt = true → Answers (.snsSelRead p) s fun t =>
    t = { s with swctl := { s.swctl with pins := (p :: s.swctl.pins).take 5 } }) ∧
  ∀ (p : BitVec 4) (s : State), s.swctl.snsExt = false → Answers (.snsSelRead p) s fun t => t = s

/-- From R312, R314, R315, R318, R320: a tariff change waits for its frame edge, and one within 1 s of the last logged one is refused; the
counter slot of a string and the exposure slot are written whole at their next place; each second counts in its temperature band; a
statement waits its turn, and is signed and written once its flush is in MRAM. -/
def Obligations.WeighbridgeTariffsSlotsAndStatements : Prop :=
  (∀ (c : Cmd) (f : Flight) (bin : Fin 8) (s : State), Executing s c f → opByte c 0 = bin.val → 1 ≤ opByte c 1 → opByte c 1 ≤ 15 →
    (∀ i : Fin 4, (opByte c 1).testBit i.val = true → s.usedStr i = true) → s.wb.loggedAt = none → s.wb.tariff = [] →
    Answers (.tariffTag c) s fun t => t.wb = { s.wb with tariff := [⟨c, BitVec.ofNat 4 (opByte c 1), bin⟩] } ∧
      t.hif.flight c.stamp = some f ∧ t = { s with wb := t.wb, hif := t.hif }) ∧
  (∀ (c : Cmd) (f : Flight) (bin : Fin 8) (i : Fin 4) (last : Nat) (s : State), Executing s c f → opByte c 0 = bin.val → opByte c 1 ≤ 15 →
    (opByte c 1).testBit i.val = true → (∀ j : Fin 4, (opByte c 1).testBit j.val = true → s.usedStr j = true) →
    (s.wb.str.at i).bin ≠ bin → s.wb.loggedAt = some last → s.now < last + ticksPerS → Answers (.tariffTag c) s fun t =>
      Completes s t c f 0x31 0x0A01 ∧ t = { s with hif := t.hif, rings := t.rings }) ∧
  (∀ (c : Cmd) (f : Flight) (s : State), Executing s c f → (8 ≤ opByte c 0 ∨ opByte c 1 = 0 ∨ 16 ≤ opByte c 1) →
    Answers (.tariffTag c) s fun t => Completes s t c f 0x12 0 ∧ t = { s with hif := t.hif, rings := t.rings }) ∧
  (∀ (str : Fin 4) (s : State), s.isl.mem = true → Answers (.counterSlotWrite str) s fun t =>
    (t.wb.str.at str) = { s.wb.str.at str with slotSeq := (s.wb.str.at str).slotSeq + 1 } ∧
    (∀ j, j ≠ str → t.wb.str.at j = s.wb.str.at j) ∧
    t.mramRead (counterSlotAt str ((s.wb.str.at str).slotSeq + 1)) 192 = counterSlot str (t.wb.str.at str) s.oph ∧
    (∀ a, (a < counterSlotAt str ((s.wb.str.at str).slotSeq + 1) ∨ counterSlotAt str ((s.wb.str.at str).slotSeq + 1) + 192 ≤ a) →
      t.mem.mramByte a = s.mem.mramByte a) ∧ t = { s with wb := t.wb, mem := t.mem }) ∧
  (∀ (str : Fin 4) (s : State), s.isl.mem = false → Answers (.counterSlotWrite str) s fun t => t = s) ∧
  (∀ s : State, s.isl.mem = true → Answers .exposureSlotWrite s fun t => t.wb = { s.wb with expSeq := s.wb.expSeq + 1 } ∧
    t.mramRead (wbBase + 0xEC00 + 320 * ((s.wb.expSeq + 1) % 16)) 320 = exposureSlot t.wb (s.wb.expSeq + 1) ∧
    (∀ a, (a < wbBase + 0xEC00 + 320 * ((s.wb.expSeq + 1) % 16) ∨ wbBase + 0xEC00 + 320 * ((s.wb.expSeq + 1) % 16) + 320 ≤ a) →
      t.mem.mramByte a = s.mem.mramByte a) ∧ t = { s with wb := t.wb, mem := t.mem }) ∧
  (∀ (str : Fin 4) (x : Int) (s : State), s.pwr.st ≠ .stabled → s.hottest str = some x → Answers (.exposureTick str) s fun t =>
    (∀ band : Fin 16, (t.wb.str.at str).exposure.at band =
      if (x < -10000 ∧ band.val = 0) ∨ (60000 ≤ x ∧ band.val = 15) ∨
         (1 ≤ band.val ∧ band.val ≤ 14 ∧ -15000 + 5000 * (band.val : Int) ≤ x ∧ x < -10000 + 5000 * (band.val : Int))
      then ((s.wb.str.at str).exposure.at band + 1) % 2 ^ 32 else (s.wb.str.at str).exposure.at band) ∧
    (t.wb.str.at str).unmeas = (s.wb.str.at str).unmeas ∧ (∀ j, j ≠ str → t.wb.str.at j = s.wb.str.at j) ∧ t = { s with wb := t.wb }) ∧
  (∀ (str : Fin 4) (s : State), (s.pwr.st = .stabled ∨ s.hottest str = none) → Answers (.exposureTick str) s fun t =>
    t.wb.str.at str = { s.wb.str.at str with unmeas := ((s.wb.str.at str).unmeas + 1) % 2 ^ 32 } ∧
    (∀ j, j ≠ str → t.wb.str.at j = s.wb.str.at j) ∧ t = { s with wb := t.wb }) ∧
  (∀ (c : Cmd) (f : Flight) (s : State), Executing s c f → opField c 0 8 % 16 = 0 → 800 ≤ opField c 8 4 →
    Answers (.meterStatement c) s fun t => t.hif.flight c.stamp = some f ∧ t = { s with wb := t.wb, hif := t.hif } ∧
      t.wb = { s.wb with stmts := s.wb.stmts ++ [⟨c, false, .queued, 0, 0, 0, [], 0, [], []⟩] }) ∧
  (∀ (c : Cmd) (f : Flight) (s : State), Executing s c f → opField c 0 8 % 16 = 0 → opField c 8 4 < 800 →
    Answers (.meterStatement c) s fun t =>
      Completes s t c f 0x12 (dwords 0 800 0 0) ∧ t = { s with hif := t.hif, rings := t.rings }) ∧
  (∀ (c : Cmd) (f : Flight) (s : State), Executing s c f → opField c 0 8 % 16 = 0 →
    Answers (.healthStatement c) s fun t => t.hif.flight c.stamp = some f ∧ t = { s with wb := t.wb, hif := t.hif } ∧
      t.wb = { s.wb with stmts := s.wb.stmts ++ [⟨c, true, .queued, 0, 0, 0, [], 0, [], []⟩] }) ∧
  (∀ (c : Cmd) (f : Flight) (s : State), Executing s c f → opField c 0 8 % 16 ≠ 0 →
    (Answers (.meterStatement c) s fun t => Completes s t c f 0x12 0 ∧ t = { s with hif := t.hif, rings := t.rings }) ∧
    Answers (.healthStatement c) s fun t => Completes s t c f 0x12 0 ∧ t = { s with hif := t.hif, rings := t.rings }) ∧
  (∀ (x : Stmt) (f : Flight) (s : State), s.wb.stmts = [x] → x.stage = .flushing → Executing s x.cmd f →
    (∀ w ∈ s.mem.queue.all, w.addr ∉ x.addrs) → Answers .statementRelease s fun t =>
      Completes s t x.cmd f 0x00 (dwords (x.bytes ++ deviceSign x.bytes).length 0 0 0) ∧
      OutEvent.hostWrite (BitVec.ofNat 64 (opField x.cmd 0 8)) (x.bytes ++ deviceSign x.bytes) ∈ t.out ∧
      t.evt.wb.getLsbD 1 = true ∧ t.wb = { s.wb with stmts := [], releasedAt := some s.now, stmtRel := field x.bytes 8 8 } ∧
      t.mem = s.mem) ∧
  ∀ (x : Stmt) (w : Codeword) (s : State), s.wb.stmts = [x] → w ∈ s.mem.queue.all → w.addr ∈ x.addrs →
    Answers .statementRelease s fun t => t = s

/-- From R326 to R328, R340, R341: a reserved round grants protection only, in turn; another round grants the oldest aged request, else the
requester at the pointer that has credit, at the cost of 1; every other request waits one round more. A write slot writes the oldest
codeword of its owner's lane, and nothing else of MRAM. The CLR bits clear what they name. -/
def Obligations.YardGrantsAndWriteSlots : Prop :=
  (∀ (target : Fin 12) (arriving : BitVec 25) (s : State), (s.yard.arb.at target).round % 8 = 0 →
    Answers (.yardArbitrationRound target arriving) s fun t =>
      let a := (s.yard.arb.at target).arrive (fun i => arriving.getLsbD i.val && s.requester i)
      (t.yard.arb.at target).round = (s.yard.arb.at target).round + 1 ∧
      (t.yard.arb.at target).credit = (s.yard.arb.at target).credit ∧ (t.yard.arb.at target).ptr = (s.yard.arb.at target).ptr ∧
      (∀ r ∈ a.reqs, r.id ≠ 0 → r.id ≠ 24 → { r with wait := r.wait + 1 } ∈ (t.yard.arb.at target).reqs) ∧
      (a.waiting 0 = true → a.waiting 24 = false → (t.yard.arb.at target).waiting 0 = false) ∧
      (a.waiting 24 = true → a.waiting 0 = false → (t.yard.arb.at target).waiting 24 = false) ∧
      (a.waiting 0 = true → a.waiting 24 = true →
        (t.yard.arb.at target).waiting 0 = !a.lastProt ∧ (t.yard.arb.at target).waiting 24 = a.lastProt ∧
        (t.yard.arb.at target).lastProt = !a.lastProt) ∧
      (∀ x, x ≠ target → t.yard.arb.at x = s.yard.arb.at x) ∧ t = { s with yard := t.yard }) ∧
  (∀ (target : Fin 12) (arriving : BitVec 25) (i : Fin 25) (s : State), (s.yard.arb.at target).round % 8 ≠ 0 →
    ((s.yard.arb.at target).arrive (fun i => arriving.getLsbD i.val && s.requester i)).oldestAged s.ageLimit = [i] →
    Answers (.yardArbitrationRound target arriving) s fun t =>
      let a := (s.yard.arb.at target).arrive (fun i => arriving.getLsbD i.val && s.requester i)
      (t.yard.arb.at target).waiting i = false ∧ (t.yard.arb.at target).round = (s.yard.arb.at target).round + 1 ∧
      (∀ r ∈ a.reqs, r.id ≠ i → { r with wait := r.wait + 1 } ∈ (t.yard.arb.at target).reqs) ∧
      (t.yard.arb.at target).credit = (s.yard.arb.at target).credit ∧ (t.yard.arb.at target).ptr = (s.yard.arb.at target).ptr ∧
      t.yard.agedCnt = satAdd 0x7FFF s.yard.agedCnt 1 ∧
      (∀ x, x ≠ target → t.yard.arb.at x = s.yard.arb.at x) ∧ t = { s with yard := t.yard }) ∧
  (∀ (target : Fin 12) (arriving : BitVec 25) (s : State), (s.yard.arb.at target).round % 8 ≠ 0 →
    ((s.yard.arb.at target).arrive (fun i => arriving.getLsbD i.val && s.requester i)).oldestAged s.ageLimit = [] →
    ((s.yard.arb.at target).arrive (fun i => arriving.getLsbD i.val && s.requester i)).waiting (s.yard.arb.at target).ptr = true →
    1 ≤ (s.yard.arb.at target).credit.at (s.yard.arb.at target).ptr → Answers (.yardArbitrationRound target arriving) s fun t =>
      let a := (s.yard.arb.at target).arrive (fun i => arriving.getLsbD i.val && s.requester i)
      (t.yard.arb.at target).waiting (s.yard.arb.at target).ptr = false ∧ (t.yard.arb.at target).ptr = (s.yard.arb.at target).ptr ∧
      (∀ r ∈ a.reqs, r.id ≠ a.ptr → { r with wait := r.wait + 1 } ∈ (t.yard.arb.at target).reqs) ∧
      (∀ i, (t.yard.arb.at target).credit.at i = (s.yard.arb.at target).credit.at i - if i = a.ptr then 1 else 0) ∧
      (∀ x, x ≠ target → t.yard.arb.at x = s.yard.arb.at x) ∧ t = { s with yard := t.yard }) ∧
  (∀ s : State, Answers .yardMaxwaitClr s fun t =>
    t = { s with yard := { s.yard with maxRounds := 0, maxId := 0, maxTarget := 0, agedCnt := 0 } }) ∧
  (∀ s : State, Answers .mqMaxlatClr s fun t =>
    t = { s with mem := { s.mem with queue := { s.mem.queue with maxUs := 0, maxLane := 0 } } }) ∧
  (∀ (w : Codeword) (rest : List Codeword) (s : State), s.isl.mem = true →
    s.mem.queue.lane (wheelOwner s.mem.queue.slot) = w :: rest → Answers (.mramWriteSlot true) s fun t =>
      t.mem.mram = Memory.writeBytes s.mem.mram w.addr w.bytes ∧ t.mem.queue.slot.val = (s.mem.queue.slot.val + 1) % 10 ∧
      t.mem.queue.maxUs = max s.mem.queue.maxUs (min 0xFFFF ((s.now - w.at_) / ticksPerUs))) ∧
  (∀ (w : Codeword) (rest : List Codeword) (s : State), s.isl.mem = true → s.mem.queue.slot = 0 → s.mem.queue.wb = w :: rest →
    rest.length < 512 → Answers (.mramWriteSlot true) s fun t =>
      t.mem.queue.wb = rest ∧ t.mem.mram = Memory.writeBytes s.mem.mram w.addr w.bytes) ∧
  (∀ s : State, s.isl.mem = true → s.mem.queue.all = [] → ∀ ok : Bool, Answers (.mramWriteSlot ok) s fun t =>
    t.mem.mram = s.mem.mram ∧ t.mem.queue = { s.mem.queue with slot := idx 10 (by decide) (s.mem.queue.slot.val + 1) } ∧
    t = { s with mem := t.mem }) ∧
  ∀ (ok : Bool) (s : State), s.isl.mem = false → Answers (.mramWriteSlot ok) s fun t => t = s

/-- From R351, R353 to R357, R360: routing is renewed; each channel of a live run gives way to the next, and the last one's evaluation applies
the new values or changes nothing; a written entry takes force at a sweep start once it is in MRAM, and its command ends then; DRIFT is set
by the third evaluation above DRIFT_UV and cleared by the tenth within 0.75 of it. -/
def Obligations.LiveRunsGenerationsAndDrift : Prop :=
  (∀ (u : Fin 128) (r : LiveRun) (f : Nat) (s : State), (s.ucal.at u).run = some r → r.routeAt = some f → Answers (.calRoutingRenew u) s fun t =>
    t = { s with out := s.out ++ [.link (stallOf u) s.frame
      { bcast := false, addr := unitOf u, cmd := 8, arg := BitVec.ofNat 32 (1 + 16 * r.ch) }] }) ∧
  (∀ (u : Fin 128) (s : State), (s.ucal.at u).run = none → Answers (.calRoutingRenew u) s fun t => t = s) ∧
  (∀ (u : Fin 128) (r : LiveRun) (s : State), (s.ucal.at u).run = some r → r.skip = 0 → r.a.n + r.a.lost = r.len → r.ch ≠ 0x12 →
    Answers (.liveRunChannelDone u) s fun t =>
      t.ucal.at u = { s.ucal.at u with run := some { r with
        done := r.done ++ [(r.a, r.b)], ch := r.ch + 1, skip := 2, a := {}, b := {} } } ∧
      (∀ x, x ≠ u → t.ucal.at x = s.ucal.at x) ∧ t = { s with ucal := t.ucal, out := s.out ++ [.link (stallOf u) s.frame
        { bcast := false, addr := unitOf u, cmd := 8, arg := BitVec.ofNat 32 (1 + 16 * (r.ch + 1)) }] }) ∧
  (∀ (u : Fin 128) (r : LiveRun) (s : State), (s.ucal.at u).run = some r → (r.skip ≠ 0 ∨ r.a.n + r.a.lost ≠ r.len) →
    Answers (.liveRunChannelDone u) s fun t => t = s) ∧
  (∀ (u : Fin 128) (r : LiveRun) (e : List Byte) (s : State), (s.ucal.at u).run = some r → r.skip = 0 → r.a.n + r.a.lost = r.len →
    r.ch = 0x12 → (s.ucal.at u).newest = some e → s.recentUnit u = false →
    runOutcome r.len (r.done ++ [(r.a, r.b)]) ((r.done ++ [(r.a, r.b)]).zipIdx.map (fun p =>
      runChannel e p.2 p.1 ((r.tempSum : Rat) / ((r.tempN : Nat) : Rat)))) = 1 → Answers (.liveRunChannelDone u) s fun t =>
      (t.ucal.at u).run = none ∧ (t.ucal.at u).result = 1 ∧ (t.ucal.at u).appliedAt = some s.now ∧ (t.ucal.at u).writtenAt = some s.now ∧
      (t.ucal.at u).entry = (s.ucal.at u).entry ∧ t.evt.cal.getLsbD 0 = true ∧
      (∃ p seq, (t.ucal.at u).switchQ = (s.ucal.at u).switchQ ++ [p] ∧ p.cmds = r.cmds ∧
        p.entry = sealUnit (splice (runEntry e ((r.done ++ [(r.a, r.b)]).zipIdx.map (fun p =>
          runChannel e p.2 p.1 ((r.tempSum : Rat) / ((r.tempN : Nat) : Rat))))) 5 [2, (s.ucal.at u).nextGen]) seq)) ∧
  (∀ (u : Fin 128) (r : LiveRun) (e : List Byte) (c : Cmd) (f : Flight) (s : State), (s.ucal.at u).run = some r → r.skip = 0 →
    r.a.n + r.a.lost = r.len → r.ch = 0x12 → (s.ucal.at u).newest = some e → r.cmds = [c] → (s.ucal.at u).deferred = none →
    Executing s c f → runOutcome r.len (r.done ++ [(r.a, r.b)]) ((r.done ++ [(r.a, r.b)]).zipIdx.map (fun p =>
      runChannel e p.2 p.1 ((r.tempSum : Rat) / ((r.tempN : Nat) : Rat)))) ≠ 1 → Answers (.liveRunChannelDone u) s fun t =>
      (t.ucal.at u).run = none ∧ (t.ucal.at u).switchQ = (s.ucal.at u).switchQ ∧ (t.ucal.at u).entry = (s.ucal.at u).entry ∧
      (t.ucal.at u).result = runOutcome r.len (r.done ++ [(r.a, r.b)]) ((r.done ++ [(r.a, r.b)]).zipIdx.map (fun p =>
        runChannel e p.2 p.1 ((r.tempSum : Rat) / ((r.tempN : Nat) : Rat)))) ∧ Ended t c 0x31 ∧ t.evt.cal.getLsbD 0 = true) ∧
  (∀ (u : Fin 128) (p : PendEntry) (rest : List PendEntry) (c : Cmd) (f : Flight) (s : State), (s.ucal.at u).switchQ = p :: rest →
    (∀ w ∈ s.mem.queue.cal, w.addr < p.base ∨ p.base + 1024 ≤ w.addr) → (s.ucal.at u).entry.isSome = true → p.write = true → p.cmds = [c] →
    Executing s c f → Answers (.calGenerationSwitch u) s fun t =>
      (t.ucal.at u).entry = some p.entry ∧ (t.ucal.at u).gen = p.entry.getD 6 0 ∧ (t.ucal.at u).switchQ = rest ∧
      (t.ucal.at u).genFrom = (s.frame + framesOf (s.rateNow u) - 1) / framesOf (s.rateNow u) * framesOf (s.rateNow u) ∧
      (t.ucal.at u).olds = (⟨(s.ucal.at u).genFrom, (s.ucal.at u).gen, (s.ucal.at u).entry⟩ :: (s.ucal.at u).olds).take 5 ∧
      Completes s t c f 0x00 (dwords (p.entry.getD 6 0).toNat 0 0 0) ∧ t.evt.cal.getLsbD 3 = true ∧
      ∀ x, x ≠ u → t.ucal.at x = s.ucal.at x) ∧
  (∀ (u : Fin 128) (p : PendEntry) (rest : List PendEntry) (w : Codeword) (s : State), (s.ucal.at u).switchQ = p :: rest →
    w ∈ s.mem.queue.cal → p.base ≤ w.addr → w.addr < p.base + 1024 → Answers (.calGenerationSwitch u) s fun t => t = s) ∧
  (∀ (u : Fin 128) (e : List Byte) (tu ea eb : Rat) (s : State), (s.ucal.at u).entry = some e → s.swept u = true → s.isMc16 u = true →
    1 ≤ (s.ucal.at u).cntA → 1 ≤ (s.ucal.at u).cntB → (s.ucal.at u).cntAll ≤ 2 * (s.ucal.at u).cntA →
    (s.ucal.at u).cntAll ≤ 2 * (s.ucal.at u).cntB → tu = (s.tempOf u : Rat) →
    ea = ((s.ucal.at u).secA : Rat) / (((s.ucal.at u).cntA : Nat) : Rat) - vRef e 0x104 tu →
    eb = ((s.ucal.at u).secB : Rat) / (((s.ucal.at u).cntB : Nat) : Rat) - vRef e 0x108 tu →
    (((s.cal.driftUv : Rat) < ratAbs ea ∨ (s.cal.driftUv : Rat) < ratAbs eb) → (s.ucal.at u).driftRun = 2 → (s.ucal.at u).drift = false →
      s.cal.driftAuto = false → Answers (.driftEvaluation u) s fun t => (t.ucal.at u).drift = true ∧ t.evt.cal.getLsbD 1 = true ∧
        (t.ucal.at u).run = (s.ucal.at u).run ∧ (t.ucal.at u).cntAll = 0) ∧
    (((s.cal.driftUv : Rat) < ratAbs ea ∨ (s.cal.driftUv : Rat) < ratAbs eb) → (s.ucal.at u).driftRun < 2 → (s.ucal.at u).drift = false →
      Answers (.driftEvaluation u) s fun t => (t.ucal.at u).drift = false ∧ (t.ucal.at u).driftRun = (s.ucal.at u).driftRun + 1 ∧
        t.evt = s.evt) ∧
    (ratAbs ea ≤ 3 / 4 * (s.cal.driftUv : Rat) → ratAbs eb ≤ 3 / 4 * (s.cal.driftUv : Rat) → (s.ucal.at u).drift = true →
      Answers (.driftEvaluation u) s fun t => (t.ucal.at u).clearRun = (s.ucal.at u).clearRun + 1 ∧
        (t.ucal.at u).drift = decide ((s.ucal.at u).clearRun < 9) ∧ t.evt = s.evt)) ∧
  (∀ (u : Fin 128) (s : State), (2 * (s.ucal.at u).cntA < (s.ucal.at u).cntAll ∨ 2 * (s.ucal.at u).cntB < (s.ucal.at u).cntAll) →
    Answers (.driftEvaluation u) s fun t =>
      t.ucal.at u = { s.ucal.at u with secA := 0, secB := 0, cntA := 0, cntB := 0, cntAll := 0 } ∧ t = { s with ucal := t.ucal }) ∧
  (∀ (u : Fin 128) (s : State), (s.ucal.at u).runDue = true → s.runEarly u = false → s.runHolds u = false → s.swept u = true →
    (s.uint.at u).test = none → Answers (.driftRunDeferredStart u) s fun t =>
      (t.ucal.at u).run = some ⟨0, 2, s.cal.runSweeps, {}, {}, [], 0, 0, [], some s.frame⟩ ∧ (t.ucal.at u).runDue = false) ∧
  (∀ (u : Fin 128) (s : State), ((s.ucal.at u).runDue = false ∨ s.runEarly u = true) → Answers (.driftRunDeferredStart u) s fun t => t = s) ∧
  (∀ (u : Fin 128) (p : PendEntry) (s : State), (s.ucal.at u).deferred = some p → s.recentUnit u = false →
    Answers (.calDeferredWrite u) s fun t => (t.ucal.at u).deferred = none ∧ (t.ucal.at u).result = 1 ∧
      (t.ucal.at u).appliedAt = some s.now ∧ (t.ucal.at u).writtenAt = some s.now ∧ t.evt.cal.getLsbD 0 = true ∧
      ∃ q seq, (t.ucal.at u).switchQ = (s.ucal.at u).switchQ ++ [q] ∧ q.cmds = p.cmds ∧
        q.entry = sealUnit (splice p.entry 5 [2, (s.ucal.at u).nextGen]) seq) ∧
  ∀ (u : Fin 128) (s : State), s.recentUnit u = true → Answers (.calDeferredWrite u) s fun t => t = s

/-- From R355 to R360: a shunt run starts by itself on a used string that is OPEN while SHUNT_AUTO is set; an offset run and a gain run that end
write the entry, or end ABORTED or refused and complete their command. -/
def Obligations.ShuntRunsEnd : Prop :=
  (∀ (str : Fin 4) (u : Fin 128) (s : State), s.cal.shuntAuto = true → s.usedStr str = true → s.strSt str = .opened →
    (s.strcal.at str).run = none → (s.strcal.at str).deferred = none → s.mp4Of str = some u → (s.strcal.at str).autoAt = none →
    (s.strcal.at str).openedAt + 2 * ticksPerS ≤ s.now → Answers (.shuntAutoStart str) s fun t =>
      t.strcal.at str = { s.strcal.at str with
        autoAt := some s.now
        run := some ⟨false, s.frame, 8000, {}, {}, 0, none⟩ } ∧
      (∀ j, j ≠ str → t.strcal.at j = s.strcal.at j) ∧ t = { s with strcal := t.strcal }) ∧
  (∀ (str : Fin 4) (s : State), (s.cal.shuntAuto = false ∨ s.strSt str ≠ .opened) → Answers (.shuntAutoStart str) s fun t => t = s) ∧
  (∀ (str : Fin 4) (u : Fin 128) (r : ShuntRun) (e : List Byte) (s : State), (s.strcal.at str).run = some r → s.mp4Of str = some u →
    r.gain = false → r.since + r.len + (unitOf u).val + 1 ≤ s.frame → (s.ucal.at u).newest = some e → offsetOutcome e (s.tempOf u) r = 1 →
    s.recentUnit u = false → Answers (.shuntOffsetRunEnd str) s fun t =>
      (t.strcal.at str).run = none ∧ (t.strcal.at str).ofsResult = 1 ∧ (t.strcal.at str).ofsAt = some s.now ∧ t.evt.cal.getLsbD 2 = true ∧
      ∃ p seq, (t.ucal.at u).switchQ = (s.ucal.at u).switchQ ++ [p] ∧ p.cmds = r.cmd.toList ∧ p.entry = sealUnit (splice
        (splice (splice e 0x24 (f32Bytes r.main.mean)) 0x30 (f32Bytes r.check.mean)) 5 [4, (s.ucal.at u).nextGen]) seq) ∧
  (∀ (str : Fin 4) (u : Fin 128) (r : ShuntRun) (e : List Byte) (c : Cmd) (f : Flight) (s : State), (s.strcal.at str).run = some r →
    s.mp4Of str = some u → r.gain = false → r.since + r.len + (unitOf u).val + 1 ≤ s.frame → (s.ucal.at u).newest = some e →
    offsetOutcome e (s.tempOf u) r ≠ 1 → r.cmd = some c → Executing s c f → Answers (.shuntOffsetRunEnd str) s fun t =>
      (t.strcal.at str).run = none ∧ (t.strcal.at str).ofsResult = offsetOutcome e (s.tempOf u) r ∧ t.ucal = s.ucal ∧ t.mem = s.mem ∧
      Completes s t c f 0x31 (dwords 0x0C05 (offsetOutcome e (s.tempOf u) r).toNat 0 0)) ∧
  (∀ (str : Fin 4) (u : Fin 128) (r : ShuntRun) (e : List Byte) (a b : Rat) (s : State), (s.strcal.at str).run = some r →
    s.mp4Of str = some u → r.gain = true → r.since + r.len + (unitOf u).val + 1 ≤ s.frame → (s.ucal.at u).newest = some e →
    gainFactor e (s.tempOf u) 0 r.iRef r.main = some a → gainFactor e (s.tempOf u) 1 r.iRef r.check = some b → s.recentUnit u = false →
    Answers (.shuntGainRunEnd str) s fun t =>
      (t.strcal.at str).run = none ∧ (t.strcal.at str).gainResult = 1 ∧ (t.strcal.at str).ofsAt = (s.strcal.at str).ofsAt ∧
      t.evt.cal.getLsbD 2 = true ∧ ∃ p seq, (t.ucal.at u).switchQ = (s.ucal.at u).switchQ ++ [p] ∧ p.cmds = r.cmd.toList ∧
        p.entry = sealUnit (splice (splice (splice e 0x20 (f32Bytes ((calInput e 0).1 * a))) 0x2C (f32Bytes ((calInput e 1).1 * b)))
          5 [4, (s.ucal.at u).nextGen]) seq) ∧
  ∀ (str : Fin 4) (u : Fin 128) (r : ShuntRun) (e : List Byte) (c : Cmd) (f : Flight) (s : State), (s.strcal.at str).run = some r →
    s.mp4Of str = some u → r.gain = true → r.since + r.len + (unitOf u).val + 1 ≤ s.frame → (s.ucal.at u).newest = some e →
    (gainFactor e (s.tempOf u) 0 r.iRef r.main = none ∨ gainFactor e (s.tempOf u) 1 r.iRef r.check = none) → r.cmd = some c →
    Executing s c f → Answers (.shuntGainRunEnd str) s fun t =>
      (t.strcal.at str).run = none ∧ (t.strcal.at str).gainResult = 2 ∧ t.ucal = s.ucal ∧ Completes s t c f 0x31 (dwords 0x0C05 2 0 0)

/-- From R352, R355, R361 to R363: CAL_RUN starts a live run or a shunt run, or sets the drift parameters, and is refused or busy as the checks
say; CAL_WRITE changes a section or completes with the status of its failed check; CAL_READ writes the section to the host. -/
def Obligations.CalibrationCommands : Prop :=
  (∀ (c : Cmd) (f : Flight) (u : Fin 128) (s : State), Executing s c f → opByte c 0 = 0 → s.namedMc16 (opByte c 1) (opByte c 2) = some u →
    s.outOfService u = false → s.swept u = true → (s.ucal.at u).run = none → (s.ucal.at u).deferred = none → s.recentUnit u = false →
    (s.uint.at u).test = none → Answers (.calRun c) s fun t => t.hif.flight c.stamp = some f ∧
      (t.ucal.at u).run = some ⟨0, 2, s.cal.runSweeps, {}, {}, [], 0, 0, [c], some s.frame⟩ ∧ ∀ x, x ≠ u → t.ucal.at x = s.ucal.at x) ∧
  (∀ (c : Cmd) (f : Flight) (u : Fin 128) (r : LiveRun) (s : State), Executing s c f → opByte c 0 = 0 →
    s.namedMc16 (opByte c 1) (opByte c 2) = some u → s.outOfService u = false → s.swept u = true → (s.ucal.at u).run = some r →
    Answers (.calRun c) s fun t => t.hif.flight c.stamp = some f ∧ (t.ucal.at u).run = some { r with cmds := r.cmds ++ [c] }) ∧
  (∀ (c : Cmd) (f : Flight) (u : Fin 128) (s : State), Executing s c f → opByte c 0 = 0 → s.namedMc16 (opByte c 1) (opByte c 2) = some u →
    s.outOfService u = false → s.swept u = false → Answers (.calRun c) s fun t => Completes s t c f 0x31 0x0C04 ∧
      t = { s with hif := t.hif, rings := t.rings }) ∧
  (∀ (c : Cmd) (f : Flight) (str : Fin 4) (u : Fin 128) (s : State), Executing s c f → (opByte c 0 = 1 ∨ opByte c 0 = 2) →
    opByte c 1 = str.val → (opByte c 0 = 2 → 10000 ≤ (opSigned c 4 4).natAbs ∧ 1 ≤ opByte c 8 ∧ opByte c 8 ≤ 60) → s.usedStr str = true →
    s.mp4Of str = some u → s.outOfService u = false → (s.strcal.at str).run = none → (s.strcal.at str).deferred = none →
    (s.strSt str ≠ .opened → Answers (.calRun c) s fun t => Completes s t c f 0x31 0x0C02 ∧ t.strcal = s.strcal) ∧
    (s.strSt str = .opened → s.recentUnit u = false → Answers (.calRun c) s fun t => t.hif.flight c.stamp = some f ∧
      t.strcal.at str = { s.strcal.at str with
        run := some ⟨opByte c 0 == 2, s.frame, 8000 * (if opByte c 0 = 2 then opByte c 8 else 1), {}, {},
          if opByte c 0 = 2 then opSigned c 4 4 else 0, some c⟩ })) ∧
  (∀ (c : Cmd) (f : Flight) (s : State), Executing s c f → opByte c 0 = 3 → 200 ≤ opField c 4 2 → opField c 4 2 ≤ 5000 →
    16 ≤ opField c 6 2 → opField c 6 2 ≤ 1024 → Answers (.calRun c) s fun t => Completes s t c f 0x00 0 ∧
      t.cal = { s.cal with driftAuto := (opByte c 1).testBit 0, shuntAuto := (opByte c 1).testBit 1, driftUv := opField c 4 2
                           runSweeps := opField c 6 2 } ∧ t = { s with cal := t.cal, hif := t.hif, rings := t.rings }) ∧
  (∀ (c : Cmd) (f : Flight) (s : State), Executing s c f → 4 ≤ opByte c 0 → Answers (.calRun c) s fun t =>
    Completes s t c f 0x12 0 ∧ t = { s with hif := t.hif, rings := t.rings }) ∧
  (∀ (c : Cmd) (f : Flight) (data sect : List Byte) (s : State), Executing s c f → 4 ≤ opField c 0x10 4 → opField c 0x10 4 ≤ 4096 →
    opField c 0x10 4 % 4 = 0 → opByte c 0 = 0 → 0x10 ≤ opField c 4 4 → opField c 4 4 + opField c 0x10 4 ≤ 0x2000 → s.cal.devQ = none →
    sect = splice (List.replicate 16 0 ++ s.cal.body) (opField c 4 4) (padTo (opField c 0x10 4) data) →
    sectionWriteOk false false sect (opField c 4 4) (opField c 4 4 + opField c 0x10 4) = true →
    (s.allOpen = false → Answers (.calWrite c data) s fun t => Completes s t c f 0x31 0x0C01 ∧
      t = { s with hif := t.hif, rings := t.rings }) ∧
    (s.allOpen = true → s.recentDevice = true → Answers (.calWrite c data) s fun t => Completes s t c f 0x31 0x0C03 ∧
      t = { s with hif := t.hif, rings := t.rings }) ∧
    (s.allOpen = true → s.recentDevice = false → Answers (.calWrite c data) s fun t => t.hif.flight c.stamp = some f ∧
      t.cal.devAt = some s.now ∧ t.cal.device = s.cal.device ∧ (∃ p, t.cal.devQ = some p ∧ p.entry = sect.drop 16 ∧ p.cmds = [c]) ∧
      t = { s with cal := t.cal, mem := t.mem, hif := t.hif })) ∧
  (∀ (c : Cmd) (f : Flight) (data old : List Byte) (u : Fin 128) (str : Fin 4) (s : State), Executing s c f → 4 ≤ opField c 0x10 4 →
    opField c 0x10 4 ≤ 4096 → opField c 0x10 4 % 4 = 0 → opByte c 0 = 1 → opField c 2 2 = u.val → 0x20 ≤ opField c 4 4 →
    opField c 4 4 + opField c 0x10 4 ≤ 0x400 → (s.ucal.at u).newest = some old → (s.ucal.at u).entry.isSome = true →
    sectionWriteOk true (s.isMp4 u) (splice old (opField c 4 4) (padTo (opField c 0x10 4) data)) (opField c 4 4)
      (opField c 4 4 + opField c 0x10 4) = true → s.strOf u = some str → s.strHeld str = false →
    (s.strcal.at str).run = none → (s.strcal.at str).deferred = none → s.runHolds u = false → s.recentUnit u = false →
    Answers (.calWrite c data) s fun t => t.hif.flight c.stamp = some f ∧ (t.ucal.at u).entry = (s.ucal.at u).entry ∧
      (t.ucal.at u).writtenAt = some s.now ∧ (∃ p seq, (t.ucal.at u).switchQ = (s.ucal.at u).switchQ ++ [p] ∧ p.cmds = [c] ∧
        p.write = true ∧ p.entry = sealUnit (splice (splice old (opField c 4 4) (padTo (opField c 0x10 4) data)) 5
          [3, (s.ucal.at u).nextGen]) seq) ∧ ∀ x, x ≠ u → t.ucal.at x = s.ucal.at x) ∧
  (∀ (c : Cmd) (f : Flight) (data : List Byte) (s : State), Executing s c f →
    (opField c 0x10 4 < 4 ∨ 4096 < opField c 0x10 4 ∨ opField c 0x10 4 % 4 ≠ 0 ∨ 2 ≤ opByte c 0) → Answers (.calWrite c data) s fun t =>
      Completes s t c f 0x12 0 ∧ t = { s with hif := t.hif, rings := t.rings }) ∧
  (∀ (c : Cmd) (f : Flight) (u : Fin 128) (bytes : List Byte) (s : State), Executing s c f → opField c 2 2 = u.val →
    ((opByte c 0 = 0 ∧ s.cal.device.isSome = true ∧ bytes = sealDevice s.cal.body s.cal.devSeq) ∨
     (opByte c 0 = 1 ∧ bytes = ((s.ucal.at u).entry).getD (List.replicate 1024 0)) ∨
     (opByte c 0 = 2 ∧ bytes = leBytes 64 Config.factoryDigest.toNat ++ sha512 s.cal.body ++ s.setDigest)) →
    Answers (.calRead c) s fun t => OutEvent.hostWrite (BitVec.ofNat 64 (opField c 8 8)) bytes ∈ t.out ∧
      Completes s t c f 0x00 (dwords bytes.length 0 0 0) ∧ t = { s with hif := t.hif, rings := t.rings, out := t.out }) ∧
  ∀ (c : Cmd) (f : Flight) (s : State), Executing s c f → (128 ≤ opField c 2 2 ∨ 3 ≤ opByte c 0) → Answers (.calRead c) s fun t =>
    Completes s t c f 0x12 0 ∧ t = { s with hif := t.hif, rings := t.rings }

/-- From R367, R368, R371, R374, R375, R379, R382: a request enters the FIFO, merges into its like or is lost; the oldest request becomes the
next record, chained to the head, and a full log refuses it; damage stops the recorder with a fault word in every cell; a clear begins a new
log once record 0 is in MRAM; records and fault words are read without authority. -/
def Obligations.StudbookKeepsItsLog : Prop :=
  (∀ (trigger : BitVec 6) (subject : BitVec 8) (detail : BitVec 128) (s : State), trigger ≠ 0 → trigger.toNat < 0x26 →
    (trigger.toNat < 0x0D ∨ 0x0F < trigger.toNat) → (trigger.toNat < 0x1C ∨ 0x1F < trigger.toNat) → s.isl.mem = true →
    s.cross.toRecorder = [] → s.stb.cfg.enabled trigger = true → s.stb.stopped = false → s.stb.full = false →
    (s.stb.fifo.length < 256 → Answers (.studbookRequest trigger subject detail) s fun t =>
      t.stb = { s.stb with fifo := s.stb.fifo ++ [⟨trigger, subject, detail, s.now, 1⟩] } ∧ t = { s with stb := t.stb }) ∧
    (256 ≤ s.stb.fifo.length → (∃ e ∈ s.stb.fifo, e.trigger = trigger ∧ e.subject = subject) →
      Answers (.studbookRequest trigger subject detail) s fun t => t.stb.fifo.length = s.stb.fifo.length ∧
        t.stb.fifo.map StbReq.detail = s.stb.fifo.map StbReq.detail ∧ t.stb.merged = satAdd 0xFFFF s.stb.merged 1 ∧
        t.stb.lostReq = s.stb.lostReq ∧ t = { s with stb := t.stb }) ∧
    (256 ≤ s.stb.fifo.length → (∀ e ∈ s.stb.fifo, e.trigger ≠ trigger ∨ e.subject ≠ subject) →
      Answers (.studbookRequest trigger subject detail) s fun t => t.stb.fifo = s.stb.fifo ∧ t.evt.stb.getLsbD 4 = true ∧
        t.stb.lostReq = satAdd 0xFFFF s.stb.lostReq 1 ∧ t.stb.lostSince = satAdd 0xFFFF s.stb.lostSince 1 ∧ t.stb.head = s.stb.head)) ∧
  (∀ (trigger : BitVec 6) (subject : BitVec 8) (detail : BitVec 128) (s : State),
    (trigger = 0 ∨ 0x26 ≤ trigger.toNat ∨ (s.isl.mem = true ∧ s.cross.toRecorder = [] ∧ s.stb.cfg.enabled trigger = false)) →
    Answers (.studbookRequest trigger subject detail) s fun t => t = s) ∧
  (∀ (us : Nat) (q : StbReq) (rest : List StbReq) (s : State), s.recorderRuns = true → s.stb.clearing = none → s.stb.full = false →
    s.stb.made < 32767 → s.stb.fifo = q :: rest → s.stb.queue = [] → s.mem.queue.sb.length ≤ 496 → Answers (.recordCapture us) s fun t =>
      t.stb.fifo = rest ∧ t.stb.made = s.stb.made + 1 ∧ t.stb.records = s.stb.made + 1 ∧ t.stb.queue = [] ∧ t.stb.lostSince = 0 ∧
      t.stb.full = false ∧ ∃ r : RecordParts, r.trigger = q.trigger ∧ r.subject = q.subject ∧ r.time = q.time ∧ r.occur = q.occur ∧
        r.detail = bvBytes 16 q.detail ∧ r.prev = s.stb.head.take 16 ∧ r.lost = s.stb.lostSince ∧
        r.capUs = (s.now - q.time) / ticksPerUs + min 200 us ∧
        t.mramRead (slotAddr s.stb.made) 256 = s.recordBytes s.stb.made s.stb.logGen.toNat r ∧
        t.stb.head = sha512 (s.recordBytes s.stb.made s.stb.logGen.toNat r)) ∧
  (∀ (us : Nat) (q : StbReq) (rest : List StbReq) (s : State), s.recorderRuns = true → s.stb.clearing = none → s.stb.full = false →
    s.stb.made = 32767 → s.stb.fifo = q :: rest → s.stb.queue.length < 32 → Answers (.recordCapture us) s fun t =>
      t.stb.full = true ∧ t.stb.made = 32768 ∧ t.stb.refused = satAdd 0xFFFFFFFF s.stb.refused q.occur ∧ t.stb.fifo = rest ∧
      t.evt.stb.getLsbD 1 = true) ∧
  (∀ (us : Nat) (q : StbReq) (rest : List StbReq) (s : State), s.recorderRuns = true → s.stb.clearing = none → s.stb.full = true →
    s.stb.fifo = q :: rest → s.stb.queue.length < 32 → Answers (.recordCapture us) s fun t => t.stb =
      { s.stb with fifo := rest, refused := satAdd 0xFFFFFFFF s.stb.refused q.occur } ∧ t = { s with stb := t.stb }) ∧
  (∀ (us : Nat) (s : State), (s.recorderRuns = false ∨ 32 ≤ s.stb.queue.length) → Answers (.recordCapture us) s fun t => t = s) ∧
  (∀ (kind : BitVec 8) (slot : BitVec 15) (s : State), 1 ≤ kind.toNat → kind.toNat ≤ 4 → s.stb.faults.length < 16 → s.stb.clearing = none →
    Answers (.recorderFault kind (decide (16384 ≤ slot.toNat)) slot) s fun t =>
      t.stb.stopped = true ∧ t.stb.fifo = [] ∧ t.stb.queue = [] ∧ t.evt.stb.getLsbD 2 = true ∧ t.stb.logGen = s.stb.logGen ∧
      t.stb.made = s.stb.made ∧ t.stb.head = s.stb.head ∧ ∃ w : FaultWord, w.kind = kind ∧ w.slot = slot.toNat ∧
        w.bank = (if slot.toNat < 16384 then 6 else 7) ∧ w.gen = s.stb.logGen.toNat ∧ w.oph = s.oph ∧ t.stb.faults = s.stb.faults ++ [w] ∧
        ∀ n, t.mramRead (faultCell n + 32 * s.stb.faults.length) 32 = w.bytes) ∧
  (∀ (trigger : BitVec 6) (subject : BitVec 8) (detail : BitVec 128) (s : State), trigger ≠ 0 → trigger.toNat < 0x0D → s.isl.mem = true →
    s.cross.toRecorder = [] → (s.stb.stopped = true ∨ s.stb.full = true) → Answers (.studbookRequest trigger subject detail) s fun t =>
      t = { s with stb := { s.stb with refused := satAdd 0xFFFFFFFF s.stb.refused 1 } }) ∧
  (∀ s : State, s.stb.refused ≠ s.stb.refWritten → (∀ at_, s.stb.refAt = some at_ → at_ + 60 * ticksPerS ≤ s.now) → s.isl.mem = true →
    Answers .refusedCountWrite s fun t => t.stb = { s.stb with refWritten := s.stb.refused, refAt := some s.now } ∧
      (∀ n, t.mramRead (faultCell n + 0x800) 16 = refusedBlock s.stb.logGen.toNat s.stb.refused) ∧ t = { s with stb := t.stb, mem := t.mem }) ∧
  (∀ s : State, s.stb.refused = s.stb.refWritten → Answers .refusedCountWrite s fun t => t = s) ∧
  (∀ (c : Cmd) (f : Flight) (pkg : List Byte) (s : State), Executing s c f → opField c 8 4 = 96 → pkg.length = 96 →
    packageHead 0x1101 pkg = true → packageSigned s.sec.owner pkg = true →
    (field pkg 4 4 ≤ s.stb.clearSeq.toNat → Answers (.studbookClear c pkg) s fun t => Completes s t c f 0x31 0x0B01 ∧ t.stb = s.stb) ∧
    (s.stb.clearSeq.toNat < field pkg 4 4 → s.stb.clearedAt = none → (pkg.drop 0x10).take 16 = List.replicate 16 0 →
      (16 ≤ s.stb.faults.length → Answers (.studbookClear c pkg) s fun t => Completes s t c f 0x31 0x0B04 ∧ t.stb = s.stb) ∧
      (s.stb.faults.length < 16 → s.stb.clearing = none → s.stb.fifo ≠ [] → Answers (.studbookClear c pkg) s fun t =>
        t.hif.flight c.stamp = some f ∧ t.stb = { s.stb with
          clearing := some { cmd := c, seq := BitVec.ofNat 32 (field pkg 4 4), left := s.stb.fifo.length } } ∧
        t = { s with stb := t.stb, hif := t.hif }))) ∧
  (∀ (c : Cmd) (f : Flight) (pkg : List Byte) (s : State), Executing s c f → opField c 8 4 ≠ 96 → Answers (.studbookClear c pkg) s fun t =>
    Completes s t c f 0x12 0 ∧ t = { s with hif := t.hif, rings := t.rings }) ∧
  (∀ (x : Clearing) (f : Flight) (bytes : List Byte) (w : Codeword) (s : State), s.isl.mem = true → s.stb.clearing = some x →
    x.first = some bytes → s.stb.queue = [] → Executing s x.cmd f → s.mem.queue.slot = 1 → s.mem.queue.sb = [w] → w.addr = slotAddr 0 + 240 →
    Answers (.mramWriteSlot true) s fun t => t.stb.logGen = s.stb.logGen + 1 ∧ t.stb.clearSeq = x.seq ∧ t.stb.made = 1 ∧
      t.stb.head = sha512 bytes ∧ t.stb.refused = 0 ∧ t.stb.full = false ∧ t.stb.stopped = false ∧ t.stb.clearing = none ∧
      t.stb.faults = s.stb.faults ∧ t.evt.stb.getLsbD 3 = true ∧ Ended t x.cmd 0x00) ∧
  (∀ (c : Cmd) (f : Flight) (s : State), Executing s c f → opField c 8 8 % 16 = 0 → opByte c 0x10 = 1 → Answers (.studbookRead c none) s fun t =>
    OutEvent.hostWrite (BitVec.ofNat 64 (opField c 8 8)) ((List.range 16).flatMap (fun k => padTo 32 ((s.faultAt k).getD []))) ∈ t.out ∧
    Completes s t c f 0x00 (dwords 0 s.recordsInMram 0 0) ∧ t = { s with hif := t.hif, rings := t.rings, out := t.out }) ∧
  (∀ (c : Cmd) (f : Flight) (n : Nat) (s : State), Executing s c f → opField c 8 8 % 16 = 0 → opByte c 0x10 = 0 →
    opField c 0 4 < s.recordsInMram → 1 ≤ opField c 4 4 → opField c 4 4 ≤ 4096 → n = min (opField c 4 4) (s.recordsInMram - opField c 0 4) →
    Answers (.studbookRead c none) s fun t =>
      OutEvent.hostWrite (BitVec.ofNat 64 (opField c 8 8)) (s.mramRead (slotAddr (opField c 0 4)) (256 * n)) ∈ t.out ∧
      Completes s t c f 0x00 (dwords n s.recordsInMram 0 0) ∧ t = { s with hif := t.hif, rings := t.rings, out := t.out }) ∧
  (∀ (c : Cmd) (f : Flight) (s : State), Executing s c f → (opField c 8 8 % 16 ≠ 0 ∨ 2 ≤ opByte c 0x10 ∨ (opByte c 0x10 = 0 ∧
    (s.recordsInMram < opField c 0 4 ∨ opField c 4 4 = 0 ∨ 4096 < opField c 4 4))) → Answers (.studbookRead c none) s fun t =>
      Completes s t c f 0x12 0 ∧ t = { s with hif := t.hif, rings := t.rings }) ∧
  ∀ (c : Cmd) (f : Flight) (bad : Nat) (s : State), Executing s c f → opField c 8 8 % 16 = 0 → opByte c 0x10 = 0 → opField c 0 4 ≤ bad →
    bad < opField c 0 4 + opField c 4 4 → bad < s.recordsInMram → opField c 4 4 ≤ 4096 → s.stb.clearing = none →
    Answers (.studbookRead c (some bad)) s fun t => Ended t c 0x14 ∧ t.stb.stopped = true ∧ t.evt.stb.getLsbD 2 = true ∧
      (opField c 0 4 < bad → OutEvent.hostWrite (BitVec.ofNat 64 (opField c 8 8))
        (s.mramRead (slotAddr (opField c 0 4)) (256 * (bad - opField c 0 4))) ∈ t.out)

/-- From R382 to R390: a lane that differs puts its pair in FAULT unless the pair does not compare; self-tests start one at a time, and their
result says where the pair goes; PAIR_SELFTEST waits for its pair and refuses what the rules name. -/
def Obligations.PairsCompareAndTest : Prop :=
  (∀ (p : Fin 8) (lane : BitVec 2) (group : BitVec 4) (pc : BitVec 32) (s : State), s.pctl.split = false → (s.pairs.at p).st = .run →
    group.toNat < (if lane = 0 then 5 else if lane = 2 then 10 else 6) → Answers (.lockstepMismatch p lane group pc) s fun t =>
      t.pairs.at p = { s.pairs.at p with
        st := .fault
        mmLane := lane
        mmGroup := group
        mmValid := true
        mmPc := pc.extractLsb' 2 24
        mmCnt := satAdd 0xFF (s.pairs.at p).mmCnt 1
        cause := true } ∧ t.evt.pair.getLsbD p.val = true ∧ (∀ q, q ≠ p → t.pairs.at q = s.pairs.at q) ∧
      (p = 0 → t.halter.lockout = true) ∧
      (p ≠ 0 → (s.pairs.at p).cfg.escal ≠ 2 → t.halter = s.halter ∧ t.strs = s.strs ∧ t.swc = s.swc)) ∧
  (∀ (p : Fin 8) (lane : BitVec 2) (group : BitVec 4) (pc : BitVec 32) (s : State), (s.pctl.split = true ∨ (s.pairs.at p).st = .off) →
    Answers (.lockstepMismatch p lane group pc) s fun t => t = s) ∧
  (∀ (p : Fin 8) (s : State), s.pctl.split = false → p ≠ 0 → (s.pairs.at p).st = .run → (∀ q, (s.pairs.at q).st ≠ .selftest) →
    s.pctl.waits = [] → (s.pairs.at p).cfg.stEn = true → (s.pairs.at p).testedAt + (s.pairs.at p).cfg.intervalS * ticksPerS ≤ s.now →
    Answers (.pairSelftestStart p) s fun t => t.pairs.at p = { s.pairs.at p with prev := .run, st := .selftest } ∧
      (∀ q, q ≠ p → t.pairs.at q = s.pairs.at q) ∧ t = { s with pairs := t.pairs, pctl := t.pctl } ∧ t.pctl = s.pctl) ∧
  (∀ (p q : Fin 8) (s : State), (s.pairs.at q).st = .selftest → Answers (.pairSelftestStart p) s fun t => t = s) ∧
  (∀ (p : Fin 8) (core : Bool) (c : Cmd) (f : Flight) (since : Nat) (s : State), (s.pairs.at p).st = .selftest →
    (s.pairs.at p).stopPend = false → s.pctl.waits = [⟨c, p, false, since, true⟩] → Executing s c f →
    Answers (.pairSelftestEnd p 1 core) s fun t => t.pairs.at p = { s.pairs.at p with
        st := (s.pairs.at p).prev
        lastSt := 1
        passCnt := satAdd 0xFFFF (s.pairs.at p).passCnt 1
        testedAt := s.now } ∧ (∀ q, q ≠ p → t.pairs.at q = s.pairs.at q) ∧ t.pctl.waits = [] ∧ t.evt.pair.getLsbD (16 + p.val) = true ∧
      Completes s t c f 0x00 (dwords 1 0 0 0)) ∧
  (∀ (p : Fin 8) (r : BitVec 4) (core : Bool) (c : Cmd) (f : Flight) (since : Nat) (s : State), (s.pairs.at p).st = .selftest →
    s.pctl.split = false → 2 ≤ r.toNat → r.toNat ≤ 5 → s.pctl.waits = [⟨c, p, false, since, true⟩] → Executing s c f → p ≠ 0 →
    Answers (.pairSelftestEnd p r core) s fun t => (t.pairs.at p).st = .failed ∧ (t.pairs.at p).lastSt = r ∧ (t.pairs.at p).cause = true ∧
      (t.pairs.at p).failCnt = satAdd 0xFFFF (s.pairs.at p).failCnt 1 ∧ t.evt.pair.getLsbD (8 + p.val) = true ∧ Ended t c 0x31) ∧
  (∀ (p : Fin 8) (core : Bool) (c : Cmd) (f : Flight) (since : Nat) (s : State), ((s.pairs.at p).st = .fault ∨ (s.pairs.at p).st = .failed) →
    p ≠ 0 → s.pctl.waits = [⟨c, p, true, since, true⟩] → Executing s c f → Answers (.pairSelftestEnd p 1 core) s fun t =>
      (t.pairs.at p).st = .off ∧ (t.pairs.at p).cause = false ∧ (t.pairs.at p).lastSt = 1 ∧
      (∀ a, Memory.read t.mem.sram a = if a / 0x40000 = p.val then 0 else Memory.read s.mem.sram a) ∧
      (∀ q, q ≠ p → t.pairs.at q = s.pairs.at q) ∧ Completes s t c f 0x00 (dwords 1 0 0 0)) ∧
  (∀ (p : Fin 8) (r : BitVec 4) (core : Bool) (c : Cmd) (f : Flight) (since : Nat) (s : State), (s.pairs.at p).st = .fault →
    s.pctl.split = false → 2 ≤ r.toNat → r.toNat ≤ 5 → s.pctl.waits = [⟨c, p, true, since, true⟩] → Executing s c f →
    Answers (.pairSelftestEnd p r core) s fun t => (t.pairs.at p).st = .failed ∧ (t.pairs.at p).cause = (s.pairs.at p).cause ∧
      t.mem = s.mem ∧ Completes s t c f 0x31 (dwords 0x0E05 r.toNat 0 0)) ∧
  (∀ (c : Cmd) (f : Flight) (p : Fin 8) (s : State), Executing s c f → opByte c 0 = p.val → opByte c 1 ≤ 1 →
    (∀ q, (s.pairs.at q).st ≠ .selftest) → s.pctl.waits = [] →
    (opByte c 1 = 0 → p = 0 → s.pctl.split = false → Answers (.pairSelftest c) s fun t => Completes s t c f 0x31 0x0E01 ∧ t.pctl = s.pctl) ∧
    (opByte c 1 = 0 → p ≠ 0 → (s.pairs.at p).st ≠ .run → (s.pairs.at p).st ≠ .split → Answers (.pairSelftest c) s fun t =>
      Completes s t c f 0x31 0x0E02 ∧ t.pctl = s.pctl) ∧
    (opByte c 1 = 0 → p ≠ 0 → (s.pairs.at p).st = .run → Answers (.pairSelftest c) s fun t => t.hif.flight c.stamp = some f ∧
      t.pctl.waits = [⟨c, p, false, s.now, false⟩] ∧ t = { s with pctl := t.pctl, hif := t.hif }) ∧
    (opByte c 1 = 1 → (s.pairs.at p).st = .fault → (s.pairs.at p).mmCnt < 3 → Answers (.pairSelftest c) s fun t =>
      t.hif.flight c.stamp = some f ∧ t.pctl.waits = [⟨c, p, true, s.now, true⟩] ∧ t = { s with pctl := t.pctl, hif := t.hif }) ∧
    (opByte c 1 = 1 → (s.pairs.at p).st = .fault → 3 ≤ (s.pairs.at p).mmCnt → Answers (.pairSelftest c) s fun t =>
      Completes s t c f 0x31 0x0E04 ∧ t.pctl = s.pctl)) ∧
  (∀ (c : Cmd) (f : Flight) (q : Fin 8) (s : State), Executing s c f → opByte c 0 ≤ 7 → opByte c 1 ≤ 1 → (s.pairs.at q).st = .selftest →
    Answers (.pairSelftest c) s fun t => Completes s t c f 0x16 0 ∧ t = { s with hif := t.hif, rings := t.rings }) ∧
  (∀ (c : Cmd) (f : Flight) (p : Fin 8) (since : Nat) (s : State), s.pctl.waits = [⟨c, p, false, since, false⟩] → since + ticksPerS ≤ s.now →
    Executing s c f → Answers .pairSelftestIdleTimeout s fun t => t.pctl = { s.pctl with waits := [] } ∧
      Completes s t c f 0x31 (dwords 0x0E03 0 0 0) ∧ t.pairs = s.pairs) ∧
  ∀ s : State, (∀ w ∈ s.pctl.waits, w.began = true ∨ s.now < w.since + ticksPerS) → Answers .pairSelftestIdleTimeout s fun t => t = s

/-- From R386, R389, R393 to R398: START, STOP and DONE act from where they may and do nothing elsewhere; the debugger halts, resumes and writes
only what its unlock covers; an unlock lasts until its hours run out; EXTEST needs every string OPEN. -/
def Obligations.PairsStartStopAndDebug : Prop :=
  (∀ (p : Fin 8) (s : State), p ≠ 0 → (s.pairs.at p).st = .off → Answers (.pairStart 0 p) s fun t =>
    t.pairs.at p = { s.pairs.at p with st := if s.pctl.split then .split else .run, done := false } ∧
    (∀ q, q ≠ p → t.pairs.at q = s.pairs.at q) ∧ t = { s with pairs := t.pairs }) ∧
  (∀ (p : Fin 8) (s : State), p ≠ 0 → ((s.pairs.at p).st = .run ∨ (s.pairs.at p).st = .split ∨ (s.pairs.at p).st = .dbgHalt) →
    Answers (.pairStop 0 p) s fun t => t.pairs.at p = { s.pairs.at p with st := .off } ∧ (∀ q, q ≠ p → t.pairs.at q = s.pairs.at q) ∧
      t = { s with pairs := t.pairs }) ∧
  (∀ (w : Fin 16) (p : Fin 8) (s : State), (w ≠ 0 ∨ p = 0 ∨ (s.pairs.at p).st = .fault ∨ (s.pairs.at p).st = .failed) →
    (Answers (.pairStart w p) s fun t => t = s) ∧ Answers (.pairStop w p) s fun t => t = s) ∧
  (∀ (w : Fin 16) (s : State), (s.pairs.at (pairOf w)).st = .run → Answers (.pairDone w) s fun t =>
    t.pairs.at (pairOf w) = { s.pairs.at (pairOf w) with done := true } ∧ (∀ q, q ≠ pairOf w → t.pairs.at q = s.pairs.at q) ∧
    t = { s with pairs := t.pairs }) ∧
  (∀ (p : Fin 8) (s : State), s.pctl.attached = true → s.pctl.unlocked.getLsbD p.val = true →
    ((s.pairs.at p).st = .run ∨ (s.pairs.at p).st = .split) → Answers (.debugHalt p) s fun t =>
      t.pairs.at p = { s.pairs.at p with prev := (s.pairs.at p).st, st := .dbgHalt } ∧ (∀ q, q ≠ p → t.pairs.at q = s.pairs.at q) ∧
      t = { s with pairs := t.pairs }) ∧
  (∀ (p : Fin 8) (s : State), s.pctl.attached = true → s.pctl.unlocked.getLsbD p.val = true → (s.pairs.at p).st = .dbgHalt →
    (s.pairs.at p).replay = [] → Answers (.debugResume p) s fun t =>
      t.pairs.at p = { s.pairs.at p with st := (s.pairs.at p).prev, full := false } ∧ (∀ q, q ≠ p → t.pairs.at q = s.pairs.at q) ∧
      t = { s with pairs := t.pairs }) ∧
  (∀ (p : Fin 8) (addr : BitVec 17) (v : BitVec 32) (s : State), s.pctl.attached = true → s.pctl.unlocked.getLsbD p.val = true →
    (s.pairs.at p).st = .dbgHalt → s.pctl.split = false → s.pctl.mode = 0 → (s.pairs.at p).done = false → s.ret.pending = false →
    ((s.pairs.at p).replay.length < 4096 → Answers (.debugWrite p false (.tcm addr v)) s fun t =>
      (t.pairs.at p).replay = (s.pairs.at p).replay ++ [.tcm addr v] ∧
      t.mem.sram = Memory.writeBytes s.mem.sram (0x40000 * p.val + addr.toNat) (bvBytes 4 v)) ∧
    (4096 ≤ (s.pairs.at p).replay.length → Answers (.debugWrite p false (.tcm addr v)) s fun t =>
      t.pairs.at p = { s.pairs.at p with full := true } ∧ t.evt.pair.getLsbD 25 = true ∧ t.mem = s.mem)) ∧
  (∀ (p : Fin 8) (second : Bool) (w : DbgWrite) (s : State), (s.pctl.attached = false ∨ s.pctl.unlocked.getLsbD p.val = false) →
    (Answers (.debugWrite p second w) s fun t => t = s) ∧ (Answers (.debugHalt p) s fun t => t = s) ∧
    Answers (.debugResume p) s fun t => t = s) ∧
  (∀ (on : Bool) (s : State), Answers (.debuggerAttach on) s fun t =>
    t = { s with pctl := { s.pctl with attached := on && s.pctl.unlocked != 0 } }) ∧
  (∀ s : State, Answers .jtagExtest s fun t =>
    t = { s with pctl := { s.pctl with extest := decide (∀ i, (s.strs.at i).st = .opened) } }) ∧
  (∀ (c : Cmd) (f : Flight) (pkg : List Byte) (s : State), Executing s c f → opField c 8 4 = 96 → pkg.length = 96 →
    packageHead 0x0B01 pkg = true → zeroBytes pkg 0x11 0x12 = true → 1 ≤ field pkg 0x12 2 → field pkg 0x12 2 ≤ 720 →
    zeroBytes pkg 0x14 0x20 = true → packageSigned s.sec.owner pkg = true →
    (s.pctl.dbgSeq.toNat < field pkg 4 4 → Answers (.debugUnlock c pkg) s fun t => t.pctl = { s.pctl with
        unlocked := pkg.getD 0x10 0
        expires := s.oph + field pkg 0x12 2 * 3600000
        attached := s.pctl.attached && pkg.getD 0x10 0 != 0
        dbgSeq := BitVec.ofNat 32 (field pkg 4 4) } ∧ Completes s t c f 0x00 (dwords (pkg.getD 0x10 0).toNat 0 0 0)) ∧
    (field pkg 4 4 ≤ s.pctl.dbgSeq.toNat → Answers (.debugUnlock c pkg) s fun t => Completes s t c f 0x31 0x0E06 ∧ t.pctl = s.pctl)) ∧
  (∀ s : State, s.pctl.unlocked ≠ 0 → s.pctl.expires ≤ s.oph → Answers .debugUnlockExpiry s fun t =>
    t.pctl.unlocked = 0 ∧ t.pctl.attached = false ∧ t.evt.pair.getLsbD 24 = true ∧ t.pairs = s.pairs) ∧
  ∀ s : State, (s.pctl.unlocked = 0 ∨ s.oph < s.pctl.expires) → Answers .debugUnlockExpiry s fun t => t = s

/-- From R401 to R404, R406, R423: requests for Run and Idle apply at once; a change to a higher level asks for the voltage first and one to a
lower level switches the clock first; three failed attempts are a power fault; the host veto; requests of the cores; the loss and recovery
of PGOOD. -/
def Obligations.PowerRequestsAndRunLevels : Prop :=
  (∀ (c : Cmd) (f : Flight) (s : State), Executing s c f → opByte c 0 ≤ 1 → s.pwr.phase = 0 → s.pwr.levelBusy = false → s.pwr.wake = none →
    (s.pwr.st = .run ∨ s.pwr.st = .idle) → Answers (.setPowerState c) s fun t => Completes s t c f 0x00 0 ∧
      t.pwr = { s.pwr with
        st := if opByte c 0 = 0 then .run else .idle
        wakeEn := if opByte c 4 % 128 = 0 then s.pwr.wakeEn else BitVec.ofNat 7 (opByte c 4) ||| 0x60 } ∧
      t = { s with pwr := t.pwr, hif := t.hif, rings := t.rings }) ∧
  (∀ (c : Cmd) (f : Flight) (s : State), Executing s c f → 4 ≤ opByte c 0 →
    (Answers (.setPowerState c) s fun t => Completes s t c f 0x12 0 ∧ t = { s with hif := t.hif, rings := t.rings }) ∧
    Answers (.setRunLevel c) s fun t => Completes s t c f 0x12 0 ∧ t = { s with hif := t.hif, rings := t.rings }) ∧
  (∀ (c : Cmd) (f : Flight) (s : State), Executing s c f → opByte c 0 ≤ 3 → s.pwr.phase = 0 → s.pwr.levelBusy = false → s.pwr.wake = none →
    (s.pwr.st = .run ∨ s.pwr.st = .idle) →
    (opByte c 0 = s.pwr.level.toNat → Answers (.setRunLevel c) s fun t => Completes s t c f 0x00 (dwords (opByte c 0) 0 0 0) ∧
      t = { s with hif := t.hif, rings := t.rings }) ∧
    (opByte c 0 < s.pwr.level.toNat → Answers (.setRunLevel c) s fun t => t.hif.flight c.stamp = some f ∧
      t.pwr = { s.pwr with
        levelBusy := true
        levelCmd := some c
        retries := 0
        pmbus := some (.levelUp (BitVec.ofNat 2 (opByte c 0))) } ∧
      t.out = s.out ++ [.pmbus s.pwr.cfg.pmbAddr 0x21 (voutCommand (opByte c 0) s.pwr.cfg.voutExp)] ∧
      t = { s with pwr := t.pwr, out := t.out, hif := t.hif }) ∧
    (s.pwr.level.toNat < opByte c 0 → Answers (.setRunLevel c) s fun t => t.hif.flight c.stamp = some f ∧
      t.pwr = { s.pwr with
        levelBusy := true
        levelCmd := some c
        clkLevel := BitVec.ofNat 2 (opByte c 0)
        retries := 0
        pmbus := some (.levelDown (BitVec.ofNat 2 (opByte c 0))) } ∧
      t.out = s.out ++ [.pmbus s.pwr.cfg.pmbAddr 0x21 (voutCommand (opByte c 0) s.pwr.cfg.voutExp)])) ∧
  (∀ (c : Cmd) (f : Flight) (l : BitVec 2) (w : BitVec 16) (s : State), s.pwr.pmbus = some (.levelUp l) → w &&& 0xE87E = 0 →
    s.pwr.levelCmd = some c → s.pwr.pend = none → Executing s c f → Answers (.pmbusAck w) s fun t =>
      t.pwr.level = l ∧ t.pwr.clkLevel = l ∧ t.pwr.levelBusy = false ∧ t.pwr.lastStatus = w ∧ t.pwr.pgood = true ∧ t.pwr.pmbus = none ∧
      t.evt.pwr.getLsbD 4 = true ∧ t.est.rateHalf = (s.est.rateHalf && l == 3) ∧ Completes s t c f 0x00 (dwords l.toNat 0 0 0)) ∧
  (∀ (w : BitVec 16) (s : State), (s.pwr.pmbus = none ∨ w &&& 0xE87E ≠ 0) → Answers (.pmbusAck w) s fun t => t = s) ∧
  (∀ (l : BitVec 2) (w : BitVec 16) (s : State), s.pwr.pmbus = some (.levelUp l) → s.pwr.retries < 2 → Answers (.pmbusAttemptFail (some w)) s fun t =>
    t.pwr = { s.pwr with
      lastStatus := w
      retries := s.pwr.retries + 1 } ∧
    t.out = s.out ++ [.pmbus s.pwr.cfg.pmbAddr 0x03 0, .pmbus s.pwr.cfg.pmbAddr 0x21 (voutCommand l.toNat s.pwr.cfg.voutExp)] ∧
    t = { s with pwr := t.pwr, out := t.out }) ∧
  (∀ (c : Cmd) (f : Flight) (l : BitVec 2) (w : BitVec 16) (s : State), s.pwr.pmbus = some (.levelUp l) → s.pwr.retries = 2 →
    s.pwr.levelCmd = some c → Executing s c f → Answers (.pmbusAttemptFail (some w)) s fun t =>
      t.pwr.level = s.pwr.level ∧ t.pwr.clkLevel = s.pwr.clkLevel ∧ t.pwr.faultCnt = satAdd 15 s.pwr.faultCnt 1 ∧
      t.evt.pwr.getLsbD 3 = true ∧ t.pwr.pmbus = some .revert ∧ Completes s t c f 0x31 (dwords 0x0F08 0 0 0)) ∧
  (∀ (c : Cmd) (f : Flight) (s : State), Executing s c f → opByte c 0 ≤ 1 → Answers (.setHostVeto c) s fun t =>
    Completes s t c f 0x00 (dwords (bit s.pwr.veto) 0 0 0) ∧ t.pwr = { s.pwr with veto := opByte c 0 == 1 } ∧
    t = { s with pwr := t.pwr, hif := t.hif, rings := t.rings }) ∧
  (∀ (v : Word) (s : State), v.extractLsb' 24 8 = 0x5A → s.pwr.phase = 0 → s.pwr.levelBusy = false → s.pwr.wake = none → s.pwr.st = .run →
    (v.getLsbD 8 = false → v.extractLsb' 0 2 = 1 → Answers (.pwrReqState 0 v) s fun t => t = { s with pwr := { s.pwr with st := .idle } }) ∧
    (v.getLsbD 8 = true → v.extractLsb' 4 2 < s.pwr.level → Answers (.pwrReqLevel 0 v) s fun t =>
      t.pwr.levelBusy = true ∧ t.pwr.pmbus = some (.levelUp (v.extractLsb' 4 2)) ∧ t.pwr.level = s.pwr.level ∧
      t = { s with pwr := t.pwr, out := t.out })) ∧
  (∀ (core : Fin 16) (v : Word) (s : State), (v.extractLsb' 24 8 ≠ 0x5A ∨ 2 ≤ core.val) →
    (Answers (.pwrReqState core v) s fun t => t = s) ∧ Answers (.pwrReqLevel core v) s fun t => t = s) ∧
  (∀ s : State, (s.pwr.st = .run ∨ s.pwr.st = .idle) → s.pwr.wake = none → s.pwr.held = false → s.isl.coreA = true → Answers .pgoodLoss s fun t =>
    t.isl = { s.isl with coreA := false, coreB := false, est := false } ∧ t.pwr.pgood = false ∧ t.pwr.held = true ∧
    t.pwr.faultCnt = satAdd 15 s.pwr.faultCnt 1 ∧ t.evt.pwr.getLsbD 3 = true ∧ t.swc = s.swc ∧ t.halter = s.halter) ∧
  (∀ s : State, s.pwr.held = true → Answers .pgoodRecovery s fun t => t.isl = { s.isl with coreA := true, coreB := true, est := true } ∧
    t.pwr = { s.pwr with pgood := true, held := false } ∧ t.sec.bootDue = true) ∧
  ∀ s : State, (s.pwr.held = true ∨ s.pwr.st = .stabled) → Answers .pgoodLoss s fun t => t = s

/-- From R407 to R410, R413, R415, R422: an entry is accepted or refused by the first refuser in order, goes from phase to phase, ends at an
abort point with a wake event, is refused when its phase takes too long, and passing A4 costs a credit and marks the image valid; the
account is written to the host, and credits come back. -/
def Obligations.EntriesRefusersAndAccounting : Prop :=
  (∀ (c : Cmd) (f : Flight) (s : State), Executing s c f → opByte c 0 = 2 → s.pwr.phase = 0 → s.pwr.levelBusy = false → s.pwr.wake = none →
    (s.pwr.st = .run ∨ s.pwr.st = .idle) →
    (s.refuser false 0 = none → Answers (.setPowerState c) s fun t => t.hif.flight c.stamp = some f ∧ t.pwr.target = .rest ∧
      t.pwr.phase = 1 ∧ t.pwr.phaseAt = s.now ∧ t.pwr.st = s.pwr.st ∧ t.evt.pwr.getLsbD 5 = true ∧ t.pwr.refuseCnt = s.pwr.refuseCnt ∧
      t.pwr.entry.map PwrReq.cmd = some (some c) ∧ t.rings = s.rings ∧ t.mem = s.mem ∧ t.isl = s.isl) ∧
    (∀ n, s.refuser false 0 = some n → Answers (.setPowerState c) s fun t => Completes s t c f 0x31 (dwords (0x0F00 + n) 0 0 0) ∧
      t.pwr = { s.pwr with
        refuseCnt := satAdd 0xFFFF s.pwr.refuseCnt 1
        log := (⟨BitVec.ofNat 4 n, s.oph, 2⟩ :: s.pwr.log).take 16 } ∧ t.evt.pwr.getLsbD 0 = true)) ∧
  (∀ s : State, ((∃ i, (s.strs.at i).st ≠ .opened ∧ (s.strs.at i).st ≠ .welded) → ∀ b n, s.refuser b n = some 1) ∧
    ((∀ i, (s.strs.at i).st = .opened ∨ (s.strs.at i).st = .welded) → s.unfetched = false →
      (s.pctl.attached = true → ∀ b n, s.refuser b n = some 4) ∧
      (s.pctl.attached = false → (s.therm.warn = true ∨ 420 ≤ s.therm.tMax) → ∀ b n, s.refuser b n = some 5) ∧
      (s.pctl.attached = false → s.therm.warn = false → s.therm.tMax < 420 → s.pwr.veto = true → ∀ b n, s.refuser b n = some 6) ∧
      (s.pctl.attached = false → s.therm.warn = false → s.therm.tMax < 420 → s.pwr.veto = false →
        ∀ b n, s.refuser b n = if b ∧ s.ret.credit = 0 then some 7 else none))) ∧
  (∀ s : State, s.pwr.phase = 1 → s.stillExecuting = false → s.pwr.latched = none → s.pwr.pend = none →
    s.refuser (s.pwr.target == .stabled) 1 = none → Answers .entryPhaseComplete s fun t =>
      t = { s with pwr := { s.pwr with phase := 2, phaseAt := s.now } }) ∧
  (∀ (c : Cmd) (f : Flight) (q : PwrReq) (src : BitVec 4) (s : State), s.pwr.phase = 1 → s.stillExecuting = false → s.pwr.latched = some src →
    s.pwr.entry = some q → q.cmd = some c → s.pwr.joined = [] → s.pwr.pend = none → Executing s c f → Answers .entryPhaseComplete s fun t =>
      Completes s t c f 0x00 (dwords 2 (1 + 256 * src.toNat) 0 0) ∧ t.pwr.phase = 0 ∧ t.pwr.st = s.pwr.st ∧ t.pwr.entry = none ∧
      t.pwr.abortCnt = satAdd 0xFFFF s.pwr.abortCnt 1 ∧ t.pwr.log = (⟨9, s.oph, q.val⟩ :: s.pwr.log).take 16 ∧ t.evt.pwr.getLsbD 1 = true) ∧
  (∀ s : State, s.pwr.phase = 1 → s.stillExecuting = true → Answers .entryPhaseComplete s fun t => t = s) ∧
  (∀ s : State, s.pwr.phase = 4 → s.pwr.target = .stabled → s.pwr.latched = none → s.pwr.pend = none → s.refuser true 4 = none →
    Answers .entryPhaseComplete s fun t => t.pwr.phase = 5 ∧ t.ret.credit = s.ret.credit - 1 ∧ t.ret.entries = (s.ret.entries + 1) % 2 ^ 32 ∧
      t.ret.imgValid = true ∧ (∀ a, a < imageSize → Memory.read t.mem.mram (imageBase + a) = Memory.read s.mem.sram a) ∧
      (∀ a, (a < imageBase ∨ imageBase + imageSize ≤ a) → Memory.read t.mem.mram a = Memory.read s.mem.mram a) ∧
      (s.isl.halter = true → t.halter.quiet = true)) ∧
  (∀ (c : Cmd) (f : Flight) (q : PwrReq) (s : State), s.pwr.phase = 1 → s.stillExecuting = true → s.pwr.phaseAt + 50 * ticksPerMs ≤ s.now →
    s.pwr.entry = some q → q.cmd = some c → s.pwr.joined = [] → s.pwr.pend = none → Executing s c f →
    Answers (.entryPhaseTimeout .command) s fun t => Completes s t c f 0x31 (dwords 0x0F02 0 0 0) ∧ t.pwr.phase = 0 ∧
      t.pwr.refuseCnt = satAdd 0xFFFF s.pwr.refuseCnt 1 ∧ t.evt.pwr.getLsbD 0 = true) ∧
  (∀ (why : EntryTimeout) (s : State), s.pwr.phase = 0 → Answers (.entryPhaseTimeout why) s fun t => t = s) ∧
  (∀ (c : Cmd) (f : Flight) (s : State), Executing s c f → opField c 8 8 % 16 = 0 → Answers (.powerAccount c) s fun t =>
    OutEvent.hostWrite (BitVec.ofNat 64 (opField c 8 8)) s.accountBytes ∈ t.out ∧ Completes s t c f 0x00 (dwords 160 0 0 0) ∧
    t = { s with hif := t.hif, rings := t.rings, out := t.out }) ∧
  (∀ s : State, s.ret.creditAt + 8000 ≤ s.oph → Answers .retCreditTick s fun t =>
    t.ret = { s.ret with
      credit := satAdd 65535 s.ret.credit 1
      creditAt := s.ret.creditAt + 8000 } ∧ t = { s with ret := t.ret }) ∧
  ∀ s : State, s.oph < s.ret.creditAt + 8000 → Answers .retCreditTick s fun t => t = s

/-- From R391, R416 to R420: an enabled source wakes the device from Rest or Stabled and is latched during an entry; the steps of a wake follow
one another, an image that cannot be used turns it into a boot, and step 4 resumes the cores and ends the request; a failed comparator test
resumes nothing; a failed step 1 is tried again; SRAM returns block by block; an island that is down wakes at an access. -/
def Obligations.WakesAndRestoration : Prop :=
  (∀ s : State, s.therm.shutDown = false → s.pwr.wake = none → s.pwr.phase = 0 → s.pwr.st = .rest → Answers (.wakeEvent .pcie) s fun t =>
    t.pwr.wake = some ⟨1, 7, false, false, true, s.clk.rtcTicks⟩ ∧ t.pwr.pmbus = some .wake ∧ t.pwr.st = .rest ∧ t.isl = s.isl ∧
    t = { s with pwr := t.pwr, out := t.out }) ∧
  (∀ (src : WakeSrc) (s : State), s.therm.shutDown = false → s.pwr.wake = none → s.pwr.phase = 0 → s.pwr.st = .stabled →
    s.pwr.wakeEn = 0x7F → src ≠ .pcie → src ≠ .safetyInput → Answers (.wakeEvent src) s fun t =>
      t.pwr.wake.map Wake.step = some 1 ∧ t.pwr.wake.map Wake.check = some (src == .rtcCheck || src == .wake1) ∧
      t.pwr.wake.map Wake.src = some (match src with | .rtcAlarm => 1 | .rtcCheck => 2 | .wake0 => 3 | .wake1 => 4 | .canWake => 5 | _ => 0) ∧
      t = { s with pwr := t.pwr, out := t.out }) ∧
  (∀ (n : Fin 8) (s : State), s.therm.shutDown = false → s.pwr.wake = none → s.pwr.phase = 2 → s.pwr.latched = none →
    (s.halter.cfg.sin.at n).role ≠ 0 → Answers (.wakeEvent .safetyInput) s fun t =>
      t = { s with pwr := { s.pwr with latched := some 6 } }) ∧
  (∀ (src : WakeSrc) (s : State), s.pwr.wake = none → s.pwr.phase = 0 → (s.pwr.st = .run ∨ s.pwr.st = .idle) →
    Answers (.wakeEvent src) s fun t => t = s) ∧
  (∀ s : State, s.pwr.wakeEn.getLsbD 2 = false → Answers (.wakeEvent .wake0) s fun t => t = s) ∧
  (∀ (k : Wake) (ok : Bool) (code : BitVec 8) (s : State), s.pwr.wake = some k → k.step = 2 → Answers (.wakeStepReady ok code) s fun t =>
    t = { s with pwr := { s.pwr with wake := some { k with step := 3 } } }) ∧
  (∀ (k : Wake) (code : BitVec 8) (s : State), s.pwr.wake = some k → k.step = 3 → k.boot = false → k.check = false → s.pwr.st = .stabled →
    s.ret.imgValid = true → Answers (.wakeStepReady true code) s fun t => t.pwr.wake = some { k with step := 4 } ∧ t.isl.mem = true ∧
      t.ret = { s.ret with imgValid := false, imgUe := false } ∧ t = { s with pwr := t.pwr, isl := t.isl, ret := t.ret }) ∧
  (∀ (k : Wake) (ok : Bool) (code : BitVec 8) (s : State), s.pwr.wake = some k → k.step = 3 → k.boot = false → s.pwr.st = .stabled →
    (ok = false ∨ s.ret.imgValid = false) → Answers (.wakeStepReady ok code) s fun t =>
      t.pwr.wake = some { k with step := 4, check := false, boot := true } ∧ t.ret.imgUe = true ∧ t.ret.imgValid = false ∧
      t.clk.pcc = s.clk.pcc ∧ t.isl.mem = true ∧ t.mem.sram = []) ∧
  (∀ (k : Wake) (c : Cmd) (f : Flight) (q : PwrReq) (s : State), s.pwr.wake = some k → k.step = 4 → k.boot = false → s.pwr.st = .rest →
    s.pwr.entry = some q → q.cmd = some c → s.pwr.joined = [] → s.pwr.pend = none → Executing s c f → Answers (.wakeStepReady true 0) s fun t =>
      t.pwr.st = .run ∧ t.pwr.wake = none ∧ t.pwr.lastSrc = k.src ∧ t.pwr.wakeCnt = satAdd 0xFFFF s.pwr.wakeCnt 1 ∧
      t.pwr.level = s.pwr.level ∧ t.isl.coreA = true ∧ t.isl.coreB = true ∧ t.evt.pwr.getLsbD 2 = true ∧ t.mem = s.mem ∧
      Completes s t c f 0x00 (dwords 1 k.src.toNat ((s.clk.rtcTicks - s.pwr.enteredRtc) / 32768) 0)) ∧
  (∀ (k : Wake) (code : BitVec 8) (s : State), s.pwr.wake = some k → k.step = 4 → k.boot = false → s.pwr.st = .stabled →
    s.pwr.pend = none → Answers (.wakeStepReady true code) s fun t =>
      t.ret.pending = true ∧ t.ret.imgValid = false ∧ t.isl.halter = true ∧ t.isl.tb = true ∧ t.evt.pwr.getLsbD 2 = true ∧
      t.halter.startupOk = false ∧ t.halter.hbArmed = false ∧ t.pwr.hostWake = (s.pwr.hostWake || k.loud) ∧ t.pctl.bootCode = code ∧
      (code = 0 → t.isl.coreA = true ∧ t.isl.coreB = true ∧ t.pwr.wake = none) ∧
      (code ≠ 0 → t.isl.coreA = s.isl.coreA ∧ t.halter.has .startup 0 = true ∧ t.pctl.stopCnt = satAdd 0xFF s.pctl.stopCnt 1)) ∧
  (∀ (k : Wake) (s : State), s.pwr.wake = some k → k.step = 0 → k.src ≠ 9 → k.check = false → s.pwr.wakeFails = 1 →
    s.pwr.failAt + 32768 ≤ s.clk.rtcTicks → Answers .wakeRetry s fun t =>
      t.pwr = { s.pwr with
        wake := some { k with step := 1 }
        pmbus := some .wake
        retries := 0 } ∧
      t.out = s.out ++ [.pmbus s.pwr.cfg.pmbAddr 0x21 (voutCommand s.pwr.level.toNat s.pwr.cfg.voutExp), .pmbus s.pwr.cfg.pmbAddr 0x01 0x80] ∧
      t = { s with pwr := t.pwr, out := t.out }) ∧
  (∀ s : State, s.pwr.wake = none → Answers .wakeRetry s fun t => t = s) ∧
  (∀ (b : Fin 1536) (s : State), s.isl.mem = true → s.pwr.st = .run → s.ret.pending = true → b.val ∉ s.ret.restored →
    Answers (.sramBlockRestore b) s fun t =>
      t.mem = { s.mem with sram := Memory.writeBytes s.mem.sram (4096 * b.val) (Memory.readBytes s.mem.mram (imageBase + 4096 * b.val) 4096) } ∧
      (s.ret.restored.length < 1535 → t.ret = { s.ret with restored := b.val :: s.ret.restored }) ∧
      (s.ret.restored.length = 1535 → t.ret = { s.ret with pending := false, restored := [] }) ∧ t = { s with mem := t.mem, ret := t.ret }) ∧
  (∀ (b : Fin 1536) (s : State), (s.ret.pending = false ∨ b.val ∈ s.ret.restored) → Answers (.sramBlockRestore b) s fun t => t = s) ∧
  (∀ s : State, (s.pwr.st = .run ∨ s.pwr.st = .idle) → s.isl.mem = true → s.therm.shutDown = false → s.pwr.held = false →
    (Answers (.islandWakeOnAccess .net) s fun t => t = { s with isl := { s.isl with net := true } }) ∧
    (Answers (.islandWakeOnAccess .est) s fun t => t = { s with isl := { s.isl with est := true } }) ∧
    (Answers (.islandWakeOnAccess .host) s fun t => t.isl = { s.isl with host := true } ∧ t.rings = s.rings) ∧
    (∀ p, s.isl.port.at p = false → Answers (.islandWakeOnAccess (.port p)) s fun t => t.isl.port.at p = true) ∧
    (∀ p, s.isl.port.at p = true → Answers (.islandWakeOnAccess (.port p)) s fun t => t = s)) ∧
  (∀ (i : Island) (s : State), (s.pwr.st = .rest ∨ s.pwr.st = .stabled ∨ s.pwr.held = true) → Answers (.islandWakeOnAccess i) s fun t => t = s) ∧
  (∀ (n : Fin 8) (r : BitVec 16) (s : State), s.pwr.st = .stabled → s.therm.shutDown = false → s.pwr.wake = none → s.pwr.phase = 0 →
    (s.halter.cfg.sin.at n).role ≠ 0 → r.getLsbD (2 * n.val) ≠ s.pwr.sinAt5.getLsbD (2 * n.val) → Answers (.stabledSinScan r) s fun t =>
      t.pwr.wake = some ⟨1, 6, false, false, true, s.clk.rtcTicks⟩ ∧ (∀ k : Fin 4, OutEvent.tpo k ∈ t.out) ∧ t = { s with pwr := t.pwr, out := t.out }) ∧
  ∀ s : State, s.pwr.st = .stabled → Answers (.stabledSinScan s.pwr.sinAt5) s fun t =>
    t = { s with out := s.out ++ [.tpo 0, .tpo 1, .tpo 2, .tpo 3] }

/-- From R428 to R435: readings give T_MAX, which sets and clears the thresholds; a disagreement of a second fails a sensor; offsets are
learned; the throttle level moves by one; two votes of a cluster shut the device down, and it restarts with wake source 10. -/
def Obligations.SensorsThrottleAndShutDown : Prop :=
  (∀ (x : Int) (s : State), s.sensorsRun = true → s.cal.device = none → -220 ≤ x → x ≤ 700 → (∀ n, (s.therm.sensor.at n).failed = false) →
    Answers (.sensorReadingCheck (Bank.fill 12 x)) s fun t =>
      (∀ n, (t.therm.sensor.at n).reading = x ∧ (t.therm.sensor.at n).eff = x ∧ (t.therm.sensor.at n).failed = false ∧
        (t.therm.sensor.at n).disSince = none) ∧
      t.therm.tMax = x ∧ t.therm.shutCnt = s.therm.shutCnt ∧ t.isl = s.isl ∧ t.clk = s.clk ∧
      (s.therm.warn = false → (x < 420 → t.therm.warn = false) ∧ (420 ≤ x → t.therm.warn = true ∧ t.evt.th.getLsbD 0 = true)) ∧
      (s.therm.warn = true → (x < 400 → t.therm.warn = false ∧ t.evt.th.getLsbD 0 = true) ∧ (400 ≤ x → t.therm.warn = true)) ∧
      (s.therm.throttle = false → (x < 460 → t.therm.throttle = false ∧ t.therm.level = s.therm.level) ∧
        (460 ≤ x → t.therm.throttle = true ∧ t.therm.level = max 1 s.therm.level ∧ t.evt.th.getLsbD 1 = true)) ∧
      (s.therm.throttle = true → t.therm.level = s.therm.level ∧ (x < 428 → t.therm.throttle = false ∧ t.evt.th.getLsbD 1 = true) ∧
        (428 ≤ x → t.therm.throttle = true))) ∧
  (∀ (n : Fin 12) (t0 : Nat) (s : State), s.sensorsRun = true → (s.therm.sensor.at n).failed = false →
    (s.therm.sensor.at n).disSince = some t0 → t0 + 64000000 ≤ s.now → Answers (.sensorFail n) s fun t =>
      (t.therm.sensor.at n).failed = true ∧ t.evt.th.getLsbD 2 = true ∧
      ∀ m, m ≠ n → (t.therm.sensor.at m).failed = (s.therm.sensor.at m).failed ∧ (t.therm.sensor.at m).reading = (s.therm.sensor.at m).reading) ∧
  (∀ (n : Fin 12) (s : State), (s.therm.sensor.at n).disSince = none → -220 ≤ (s.therm.sensor.at n).reading →
    (s.therm.sensor.at n).reading ≤ 700 → Answers (.sensorFail n) s fun t => t = s) ∧
  (∀ (n lo hi : Fin 12) (s : State), s.sensorsRun = true → lo < hi → lo ≠ n → hi ≠ n → clusterOf lo = clusterOf n → clusterOf hi = clusterOf n →
    (∀ m, clusterOf m = clusterOf n → (s.therm.sensor.at m).failed = false ∧ (s.therm.sensor.at m).disSince = none) →
    Answers .offsetLearning s fun t =>
      (t.therm.sensor.at n).ofsLo = max (-48) (min 48 ((s.therm.sensor.at n).ofsLo +
        ((((s.therm.sensor.at n).reading - (s.therm.sensor.at lo).reading : Int) : Rat) - (s.therm.sensor.at n).ofsLo) / 64)) ∧
      (t.therm.sensor.at n).ofsHi = max (-48) (min 48 ((s.therm.sensor.at n).ofsHi +
        ((((s.therm.sensor.at n).reading - (s.therm.sensor.at hi).reading : Int) : Rat) - (s.therm.sensor.at n).ofsHi) / 64)) ∧
      (t.therm.sensor.at n).reading = (s.therm.sensor.at n).reading ∧ t.therm.tMax = s.therm.tMax ∧ t = { s with therm := t.therm }) ∧
  (∀ (n m : Fin 12) (s : State), clusterOf m = clusterOf n → (s.therm.sensor.at m).failed = true → Answers .offsetLearning s fun t =>
    t.therm.sensor.at n = s.therm.sensor.at n) ∧
  (∀ s : State, s.sensorsRun = true → (∀ c, s.therm.failedIn c ≤ 1) → Answers .throttleLevelUpdate s fun t =>
    t = { s with therm := { s.therm with level := if s.therm.throttle then (if 460 ≤ s.therm.tMax then min 11 (s.therm.level + 1) else s.therm.level)
            else s.therm.level - 1 } }) ∧
  (∀ (c : Fin 4) (s : State), s.sensorsRun = true → 2 ≤ s.therm.failedIn c → Answers .throttleLevelUpdate s fun t => 1 ≤ t.therm.level) ∧
  (∀ s : State, Answers .throttlePauseEnd s fun t => t = s) ∧
  (∀ (n : Fin 12) (s : State), s.sensorsRun = true → s.therm.failedIn (clusterOf n) = 0 →
    ((∀ m, m ≠ n → clusterOf m = clusterOf n → (s.therm.sensor.at m).vote = false) → Answers (.comparatorVote n) s fun t =>
      t = { s with therm := { s.therm with sensor := s.therm.sensor.upd n (fun x => { x with vote := true }) } }) ∧
    (∀ m, m ≠ n → clusterOf m = clusterOf n → (s.therm.sensor.at m).vote = true → s.therm.shutDown = false → Answers (.comparatorVote n) s fun t =>
      t.therm.shutDown = true ∧ t.therm.shutBy = n ∧ t.therm.shutCnt = satAdd 0xFF s.therm.shutCnt 1 ∧ t.isl.coreA = false ∧ t.isl.coreB = false ∧
      t.isl.est = false ∧ t.isl.net = false ∧ t.isl.host = false ∧ t.isl.mem = false ∧ (∀ p, t.isl.port.at p = false) ∧ t.isl.tb = s.isl.tb ∧
      t.isl.halter = s.isl.halter ∧ t.mem.sram = [] ∧ t.halter.has .thermal 0 = true ∧ t.pwr.phase = 0 ∧ t.pwr.wake = none ∧ t.pwr.pend = none)) ∧
  (∀ (n : Fin 12) (s : State), (s.therm.sensor.at n).failed = true → Answers (.comparatorVote n) s fun t => t = s) ∧
  ∀ (t0 : Nat) (s : State), s.therm.shutDown = true → s.therm.coolSince = some t0 →
    (s.now < t0 + 64000000 → Answers .thermalRestart s fun t => t = s) ∧
    (t0 + 64000000 ≤ s.now → Answers .thermalRestart s fun t =>
      t.pwr.wake = some ⟨1, 10, false, true, true, s.clk.rtcTicks⟩ ∧ t.therm.shutDown = false ∧ t.evt.th.getLsbD 4 = true ∧ t.clk = s.clk ∧
      t.halter.has .thermal 0 = false ∧ t.halter.lockout = s.halter.lockout ∧ t.mem.sram = [] ∧ t.hif.flights = [] ∧
      ∀ n, (t.therm.sensor.at n).failed = (s.therm.sensor.at n).failed ∧ (t.therm.sensor.at n).ofsLo = (s.therm.sensor.at n).ofsLo ∧
        (t.therm.sensor.at n).ofsHi = (s.therm.sensor.at n).ofsHi)

/-- From R445, R448 to R450: the hours cell is written every 60 s of operating hours; RTC_SET moves nothing but the RTC; the alarm fires once
and disarms, at an RTC_SET that reaches it as well; the periodic check fires at every period; both wake the device under their bits. -/
def Obligations.RtcAlarmsAndHoursCell : Prop :=
  (∀ s : State, s.isl.mem = true → s.clk.hoursAt + 60000 ≤ s.oph → Answers .hoursCellWrite s fun t =>
    t.mramRead (if s.olderHours then 0x6DF010 else 0x6DF000) 16 = hoursBytes s.oph s.clk.pcc ∧ t.clk = { s.clk with hoursAt := s.oph } ∧
    t = { s with mem := t.mem, clk := t.clk }) ∧
  (∀ s : State, s.oph < s.clk.hoursAt + 60000 → Answers .hoursCellWrite s fun t => t = s) ∧
  (∀ (c : Cmd) (f : Flight) (s : State), Executing s c f → s.pwr.wake = none → opByte c 0 = 0 → Answers (.rtcSet c) s fun t =>
    t.rtcNow = opField c 4 4 ∧ t.clk.rtcSet = true ∧ t.clk.ytime = s.clk.ytime ∧ t.clk.ophMs = s.clk.ophMs ∧ t.clk.pcc = s.clk.pcc ∧ t.clk.chkS = s.clk.chkS ∧ t.clk.chkFrom = s.clk.chkFrom ∧
    (opField c 4 4 < s.rtcNow → t.evt.time.getLsbD 2 = true) ∧
    ((s.clk.alarm = 0 ∨ opField c 4 4 < s.clk.alarm) → t.clk.alarm = s.clk.alarm) ∧
    (s.clk.alarm ≠ 0 → s.clk.alarm ≤ opField c 4 4 → t.clk.alarm = 0 ∧ t.evt.time.getLsbD 0 = true) ∧
    Completes s t c f 0x00 (dwords s.rtcNow (if opField c 4 4 < s.rtcNow then 1 else 0) 0 0)) ∧
  (∀ (c : Cmd) (f : Flight) (s : State), Executing s c f → opByte c 0 = 1 →
    ((opField c 4 4 = 0 ∨ s.rtcNow < opField c 4 4) → Answers (.rtcSet c) s fun t => Completes s t c f 0x00 (dwords (opField c 4 4) 0 0 0) ∧
      t = { s with clk := { s.clk with alarm := opField c 4 4 }, hif := t.hif, rings := t.rings }) ∧
    (opField c 4 4 ≠ 0 → opField c 4 4 ≤ s.rtcNow → Answers (.rtcSet c) s fun t => Completes s t c f 0x12 0 ∧
      t = { s with hif := t.hif, rings := t.rings })) ∧
  (∀ (c : Cmd) (f : Flight) (s : State), Executing s c f → opByte c 0 = 2 →
    ((opField c 4 4 = 0 ∨ (10 ≤ opField c 4 4 ∧ opField c 4 4 ≤ 86400)) → Answers (.rtcSet c) s fun t =>
      Completes s t c f 0x00 (dwords (opField c 4 4) 0 0 0) ∧ t.clk.chkS = opField c 4 4 ∧ t.clk.chkFrom = s.clk.rtcTicks ∧
      t = { s with clk := t.clk, hif := t.hif, rings := t.rings }) ∧
    (((1 ≤ opField c 4 4 ∧ opField c 4 4 ≤ 9) ∨ 86400 < opField c 4 4) → Answers (.rtcSet c) s fun t => Completes s t c f 0x12 0 ∧
      t = { s with hif := t.hif, rings := t.rings })) ∧
  (∀ (c : Cmd) (f : Flight) (s : State), Executing s c f → 3 ≤ opByte c 0 → Answers (.rtcSet c) s fun t => Completes s t c f 0x12 0 ∧
    t = { s with hif := t.hif, rings := t.rings }) ∧
  (∀ s : State, s.clk.alarm ≠ 0 → s.clk.alarm ≤ s.rtcNow →
    (Answers .rtcAlarm s fun t => t.clk = { s.clk with alarm := 0 } ∧ t.evt.time.getLsbD 0 = true) ∧
    ((s.pwr.st = .run ∨ s.pwr.st = .idle ∨ s.pwr.wakeEn.getLsbD 0 = false) → s.pwr.wake = none → s.pwr.phase = 0 → Answers .rtcAlarm s fun t =>
      t = { s with clk := t.clk, evt := t.evt, msix := t.msix, out := t.out }) ∧
    ((s.pwr.st = .rest ∨ s.pwr.st = .stabled) → s.therm.shutDown = false → s.pwr.wakeEn.getLsbD 0 = true → s.pwr.wake = none → s.pwr.phase = 0 →
      Answers .rtcAlarm s fun t => t.pwr.wake = some ⟨1, 1, false, false, true, s.clk.rtcTicks⟩)) ∧
  (∀ s : State, (s.clk.alarm = 0 ∨ s.rtcNow < s.clk.alarm) → Answers .rtcAlarm s fun t => t = s) ∧
  (∀ s : State, s.clk.chkS ≠ 0 → s.clk.chkFrom + s.clk.chkS * 32768 ≤ s.clk.rtcTicks →
    (Answers .periodicCheckAlarm s fun t => t.evt.time.getLsbD 1 = true ∧ t.clk = { s.clk with
      chkFrom := s.clk.chkFrom + (s.clk.rtcTicks - s.clk.chkFrom) / (s.clk.chkS * 32768) * (s.clk.chkS * 32768) }) ∧
    ((s.pwr.st = .run ∨ s.pwr.st = .idle) → s.pwr.wake = none → s.pwr.phase = 0 → Answers .periodicCheckAlarm s fun t =>
      t = { s with clk := t.clk, evt := t.evt, msix := t.msix, out := t.out }) ∧
    ((s.pwr.st = .rest ∨ s.pwr.st = .stabled) → s.therm.shutDown = false → s.pwr.wakeEn.getLsbD 1 = true → s.pwr.wake = none → s.pwr.phase = 0 →
      Answers .periodicCheckAlarm s fun t => t.pwr.wake = some ⟨1, 2, true, false, true, s.clk.rtcTicks⟩)) ∧
  (∀ s : State, (s.clk.chkS = 0 ∨ s.clk.rtcTicks < s.clk.chkFrom + s.clk.chkS * 32768) → Answers .periodicCheckAlarm s fun t => t = s) ∧
  ∀ (a b d : Bool) (s : State), Answers (.aonPowerOn a b d) s fun t => t.clk.alarm = 0 ∧ t.clk.chkS = s.clk.chkS ∧ t.clk.chkFrom = t.clk.rtcTicks

/-- From R453, R461, R462, R464, R465: what a configuration package must hold and what it changes; the configuration as it is read; the quote;
the owner key is registered, rotated and refused in the order of its checks. -/
def Obligations.ConfigurationQuoteAndOwnerKey : Prop :=
  (∀ (c : Cmd) (f : Flight) (s : State), Executing s c f → opField c 8 8 % 16 = 0 → Answers (.configRead c) s fun t =>
    t.out = s.out ++ [.hostWrite (BitVec.ofNat 64 (opField c 8 8)) s.configBytes] ∧ (s.wb.recPend = none → s.configBytes.length = 1552) ∧
    Completes s t c f 0x00 (dwords 1552 0 0 0) ∧ t = { s with hif := t.hif, rings := t.rings, out := t.out }) ∧
  (∀ (c : Cmd) (f : Flight) (pkg body : List Byte) (seq kind : Nat) (s : State), Executing s c f → opField c 0 8 % 16 = 0 → opField c 8 4 = 48 →
    seq < 2 ^ 32 → body.length = 8 →
    pkg = leBytes 4 0x501 ++ leBytes 4 seq ++ devDigest ++ leBytes 2 1 ++ leBytes 14 0 ++ leBytes 1 kind ++ leBytes 3 0 ++ leBytes 4 8 ++ body →
    (kind = 7 → pwrBodyOk body = true → s.sec.cfgSeq.toNat < seq → Answers (.configLoad c pkg) s fun t =>
      t.sec.cfgSeq = BitVec.ofNat 32 seq ∧ t.evt.sec.getLsbD 0 = true ∧ t.hif.flight c.stamp = some f ∧ t.rings = s.rings ∧
      t.sec.waits.map MramWait.cmd = s.sec.waits.map MramWait.cmd ++ [c] ∧ t.mramRead (recordAt 7 0) 8 = body ∧ t.strs = s.strs ∧
      t.halter = s.halter ∧
      (body ≠ s.pwr.cfg.bytes → t.pwr.cfg = pwrRecOf body ∧ t.pwr.wakeEn = (pwrRecOf body).wakeEn) ∧
      (body = s.pwr.cfg.bytes → t.pwr = s.pwr)) ∧
    (kind = 7 → pwrBodyOk body = true → seq ≤ s.sec.cfgSeq.toNat → Answers (.configLoad c pkg) s fun t =>
      Completes s t c f 0x31 (dwords 0x0D04 0 0 0) ∧ t = { s with hif := t.hif, rings := t.rings }) ∧
    (kind = 7 → pwrBodyOk body = false → Answers (.configLoad c pkg) s fun t =>
      Completes s t c f 0x12 0 ∧ t = { s with hif := t.hif, rings := t.rings }) ∧
    (kind = 0 ∨ (10 ≤ kind ∧ kind < 256) → Answers (.configLoad c pkg) s fun t =>
      Completes s t c f 0x12 0 ∧ t = { s with hif := t.hif, rings := t.rings }) ∧
    (kind = 8 → body = leBytes 8 1 → Answers (.configLoad c pkg) s fun t =>
      Completes s t c f 0x30 0 ∧ t.evt.sec.getLsbD 2 = true ∧ t.pctl = s.pctl ∧ t.sec = s.sec)) ∧
  (∀ (c : Cmd) (f : Flight) (s : State), Executing s c f → opField c 0 8 % 16 = 0 → Answers (.attest c) s fun t =>
    t.out = s.out ++ [.hostWrite (BitVec.ofNat 64 (opField c 0 8)) (s.quoteBody (opField c 0x10 16) ++ deviceSign (s.quoteBody (opField c 0x10 16)))] ∧
    Completes s t c f 0x00 (dwords 464 0 0 0) ∧ t = { s with hif := t.hif, rings := t.rings, out := t.out }) ∧
  ∀ (c : Cmd) (f : Flight) (pkg sig : List Byte) (kind seq : Nat) (key : BitVec 256) (s : State), Executing s c f → opField c 0 8 % 16 = 0 →
    opField c 8 4 = 112 → seq < 2 ^ 32 → sig.length = 64 →
    pkg = leBytes 4 kind ++ leBytes 4 seq ++ devDigest ++ leBytes 32 key.toNat ++ sig →
    (kind = 0xA01 → key ≠ 0 → packageSigned (some key) pkg = true → s.sec.ownerSeq.toNat < seq →
      (s.sec.owner = none → s.halter.key.press.isSome = true → Answers (.ownerKey c pkg) s fun t =>
        t.sec = { s.sec with owner := some key, ownerSeq := BitVec.ofNat 32 seq } ∧ t.evt.sec.getLsbD 1 = true ∧
        Completes s t c f 0x00 (dwords seq 0 0 0)) ∧
      (s.sec.owner = none → s.halter.key.press = none → Answers (.ownerKey c pkg) s fun t =>
        Completes s t c f 0x31 (dwords 0x0D06 0 0 0) ∧ t = { s with hif := t.hif, rings := t.rings }) ∧
      (s.sec.owner.isSome = true → Answers (.ownerKey c pkg) s fun t =>
        Completes s t c f 0x31 (dwords 0x0D05 0 0 0) ∧ t = { s with hif := t.hif, rings := t.rings })) ∧
    (kind = 0xA02 → key ≠ 0 → packageSigned s.sec.owner pkg = true → s.sec.ownerSeq.toNat < seq → Answers (.ownerKey c pkg) s fun t =>
      t.sec = { s.sec with owner := some key, ownerSeq := BitVec.ofNat 32 seq } ∧ t.evt.sec.getLsbD 1 = true ∧
      Completes s t c f 0x00 (dwords seq 0 0 0)) ∧
    (kind = 0xA02 → key ≠ 0 → packageSigned s.sec.owner pkg = false → Answers (.ownerKey c pkg) s fun t =>
      t.sec = s.sec ∧ t.evt.sec.getLsbD 2 = true ∧ Completes s t c f 0x30 0) ∧
    (kind = 0xA03 → key ≠ 0 → s.sec.service = none → Answers (.ownerKey c pkg) s fun t =>
      Completes s t c f 0x31 (dwords 0x0D05 0 0 0) ∧ t = { s with hif := t.hif, rings := t.rings }) ∧
    (kind ≠ 0xA04 → kind < 2 ^ 32 → key = 0 → Answers (.ownerKey c pkg) s fun t =>
      Completes s t c f 0x12 0 ∧ t = { s with hif := t.hif, rings := t.rings })

/-- From R391, R456 to R459: images are written unless they run, and fail verification on a bad header; the rollback counter is raised; a
restart needs every string OPEN; the boot ROM stops on a failed comparator, or serves the rings in recovery mode when no image verifies,
where it refuses what it does not serve. -/
def Obligations.ImagesAndBoot : Prop :=
  (∀ (c : Cmd) (f : Flight) (data : List Byte) (n : Bool) (s : State), Executing s c f → opByte c 0 = (if n then 1 else 0) →
    opField c 4 4 % 16 = 0 → 16 ≤ opField c 0x10 4 → opField c 0x10 4 ≤ 65536 → opField c 0x10 4 % 16 = 0 →
    opField c 4 4 + opField c 0x10 4 ≤ 0x600000 → data.length = opField c 0x10 4 →
    ((s.sec.booted = true ∧ s.sec.running = n) → Answers (.imageWrite c data) s fun t =>
      Completes s t c f 0x31 (dwords 0x0D01 0 0 0) ∧ t = { s with hif := t.hif, rings := t.rings }) ∧
    ((s.sec.booted = false ∨ s.sec.running ≠ n) → Answers (.imageWrite c data) s fun t =>
      t.mramRead ((if n then 0x800000 else 0) + opField c 4 4) (opField c 0x10 4) = data ∧
      t.sec.img = s.sec.img.upd (if n then 1 else 0) (fun i => { i with st := 0, digest := 0 }) ∧
      t.sec.waits.map MramWait.cmd = s.sec.waits.map MramWait.cmd ++ [c] ∧ t.hif.flight c.stamp = some f ∧
      t.mem.mram = s.mem.mram ∧ t.mem.sram = s.mem.sram ∧ t.rings = s.rings)) ∧
  (∀ (c : Cmd) (f : Flight) (data : List Byte) (s : State), Executing s c f → (2 ≤ opByte c 0 ∨ opField c 4 4 % 16 ≠ 0 ∨ 65536 < opField c 0x10 4) →
    Answers (.imageWrite c data) s fun t => Completes s t c f 0x12 0 ∧ t = { s with hif := t.hif, rings := t.rings }) ∧
  (∀ (c : Cmd) (f : Flight) (n : Bool) (s : State), Executing s c f → opByte c 0 = (if n then 1 else 0) → opByte c 1 ≤ 1 →
    field (s.imageHead n) 0 4 ≠ 0x4D58494D → Answers (.imageActivate c none none) s fun t => Completes s t c f 0x31 (dwords 0x0D02 1 0 0) ∧
      t.sec.bootSel = s.sec.bootSel ∧ (t.sec.img.at (if n then 1 else 0)).st = 2 ∧ (t.sec.img.at (if n then 1 else 0)).reason = 1 ∧
      t.mem = s.mem) ∧
  (∀ (c : Cmd) (f : Flight) (u v : Option (Fin 0x600000)) (s : State), Executing s c f → 4 ≤ opByte c 1 → Answers (.imageActivate c u v) s fun t =>
    Completes s t c f 0x12 0 ∧ t = { s with hif := t.hif, rings := t.rings }) ∧
  (∀ (c : Cmd) (f : Flight) (n : Bool) (s : State), Executing s c f → opByte c 1 = 2 → s.sec.running = n →
    (s.sec.rbCount < (s.sec.img.at (if n then 1 else 0)).rbLevel → field (s.imageHead (!n)) 0 4 ≠ 0x4D58494D → Answers (.imageActivate c none none) s fun t =>
      t.sec.rbCount = (s.sec.img.at (if n then 1 else 0)).rbLevel ∧ t.sec.bootSel = s.sec.bootSel ∧
      Completes s t c f 0x00 (dwords (s.sec.img.at (if n then 1 else 0)).rbLevel.toNat 1 0 0)) ∧
    ((s.sec.img.at (if n then 1 else 0)).rbLevel ≤ s.sec.rbCount → Answers (.imageActivate c none none) s fun t =>
      Completes s t c f 0x31 (dwords 0x0D08 0 0 0) ∧ t = { s with hif := t.hif, rings := t.rings })) ∧
  (∀ (c : Cmd) (f : Flight) (s : State), Executing s c f → opByte c 1 = 3 → opByte c 0 ≤ 1 →
    ((∃ i, (s.strs.at i).st ≠ .opened) → Answers (.imageActivate c none none) s fun t =>
      Completes s t c f 0x31 (dwords 0x0D03 0 0 0) ∧ t = { s with hif := t.hif, rings := t.rings }) ∧
    ((∀ i, (s.strs.at i).st = .opened) → Answers (.imageActivate c none none) s fun t =>
      t.sec.bootDue = true ∧ t.sec.recovery = false ∧ t.sec.bootSel = s.sec.bootSel ∧ t.sec.rbCount = s.sec.rbCount ∧ t.mem.sram = [] ∧
      t.hif.flights = [] ∧ t.clk.pcc = s.clk.pcc ∧ t.isl.coreA = true ∧ t.isl.mem = true)) ∧
  (∀ (code : BitVec 8) (u v : Option (Fin 0x600000)) (s : State), s.sec.bootDue = true → s.isl.coreA = true → s.isl.mem = true →
    0x20 ≤ code.toNat → code.toNat ≤ 0x5F → Answers (.boot code u v) s fun t =>
      t.halter.has .startup 0 = true ∧ t.pctl.bootCode = code ∧ t.pctl.stopCnt = satAdd 0xFF s.pctl.stopCnt 1 ∧
      t.sec = { s.sec with bootDue := false } ∧ t.pairs = s.pairs) ∧
  (∀ s : State, s.sec.bootDue = true → s.isl.coreA = true → s.isl.mem = true → (∀ n, field (s.imageHead n) 0 4 ≠ 0x4D58494D) →
    Answers (.boot 0 none none) s fun t => t.sec.recovery = true ∧ t.sec.booted = true ∧ t.sec.result = 2 ∧ t.sec.bootSel = s.sec.bootSel ∧
      t.sec.bootDue = false ∧ t.pctl.mode = 2 ∧ t.pctl.bootCode = 0 ∧ t.pctl.split = s.pctl.bootSplit ∧
      (∀ n, (t.sec.img.at n).st = 2 ∧ (t.sec.img.at n).reason = 1) ∧ t.mem.sram = s.mem.sram) ∧
  (∀ (code : BitVec 8) (u v : Option (Fin 0x600000)) (s : State), s.sec.bootDue = false → Answers (.boot code u v) s fun t => t = s) ∧
  ∀ (c : Cmd) (f : Flight) (u v : Option (Fin 0x600000)) (s : State), Executing { s with sec := { s.sec with recovery := false } } c f →
    s.sec.recovery = true →
    (opByte c 1 = 2 → Answers (.imageActivate c u v) s fun t => Completes s t c f 0x31 (dwords 0x0D09 0 0 0) ∧
      t = { s with hif := t.hif, rings := t.rings }) ∧
    (Answers (.rtcSet c) s fun t => Completes s t c f 0x31 (dwords 0x0D07 0 0 0) ∧ t = { s with hif := t.hif, rings := t.rings }) ∧
    Answers (.setHostVeto c) s fun t => Completes s t c f 0x31 (dwords 0x0D07 0 0 0) ∧ t = { s with hif := t.hif, rings := t.rings }

/-- Both memories keep the one form of their lists, whatever command acts: addresses rise strictly, and no listed byte is the blank one; the
codewords that wait for MRAM stay aligned and 16 bytes long. The form of the lists is the model's (log entry 3). -/
def Obligations.EveryStepKeepsMemoryForm : Prop :=
  ∀ s t : State, step s = .next t → Memory.wf s.mem.sram = true → Memory.wf s.mem.mram = true →
    (∀ w ∈ s.mem.queue.all, w.addr % 16 = 0 ∧ w.bytes.length = 16) →
    Memory.wf t.mem.sram = true ∧ Memory.wf t.mem.mram = true ∧ ∀ w ∈ t.mem.queue.all, w.addr % 16 = 0 ∧ w.bytes.length = 16

/-- From R452: the rollback counter only rises, a registered owner key never becomes empty, and the keys with their sequence change only by
OWNER_KEY, the counter and the boot selection only by IMAGE_ACTIVATE. -/
def Obligations.TackStoreChangesOnlyAsStated : Prop :=
  ∀ s t : State, step s = .next t →
    s.sec.rbCount ≤ t.sec.rbCount ∧ (s.sec.owner.isSome = true → t.sec.owner.isSome = true) ∧
    ((t.sec.owner ≠ s.sec.owner ∨ t.sec.service ≠ s.sec.service ∨ t.sec.ownerSeq ≠ s.sec.ownerSeq) →
      ∃ c pkg rest, s.pending = .ownerKey c pkg :: rest) ∧
    ((t.sec.rbCount ≠ s.sec.rbCount ∨ t.sec.bootSel ≠ s.sec.bootSel) → ∃ c u v rest, s.pending = .imageActivate c u v :: rest)

/-- From R444: no command but the appearance and the loss of the AON supply changes the power-cycle count, an empty queue does not either, and a
power-on leaves it above every valid copy of the hours cell. -/
def Obligations.PowerCycleCountChangesOnlyAtPowerOn : Prop :=
  (∀ (c : Instr) (rest : List Instr) (s t : State), s.pending = c :: rest → (∀ a b d, c ≠ .aonPowerOn a b d) → c ≠ .aonPowerLoss →
    step s = .next t → t.clk.pcc = s.clk.pcc) ∧
  (∀ s t : State, s.pending = [] → step s = .next t → t.clk.pcc = s.clk.pcc) ∧
  ∀ (a b d copy : Bool) (o p : Nat) (s : State), s.powerOff.hoursCopy copy = some (o, p) → Answers (.aonPowerOn a b d) s fun t => p < t.clk.pcc

/-- From R470: the identity block reads as listed in every state and through every view, and a read of `DEV_SERIAL_LO` captures `DEV_SERIAL_HI`. -/
def Obligations.IdentityBlockReads : Prop :=
  (∀ (s : State) (view : View), s.readReg (s.selOf view) (s.shOf view) 0x00 = 0x4D580009 ∧
    (s.readReg (s.selOf view) (s.shOf view) 0x04).extractLsb' 8 8 = 1 ∧ (s.readReg (s.selOf view) (s.shOf view) 0x04).extractLsb' 24 8 = 0 ∧
    s.readReg (s.selOf view) (s.shOf view) 0x08 = 0x10188420 ∧ s.readReg (s.selOf view) (s.shOf view) 0x0C = 0x80001800 ∧
    s.readReg (s.selOf view) (s.shOf view) 0x10 = 0x003CC824 ∧ s.readReg (s.selOf view) (s.shOf view) 0x14 = 0 ∧
    s.readReg (s.selOf view) (s.shOf view) 0x1C = (s.shOf view).serial) ∧
  (∀ (s t : State) (view : View) (off : Nat), off < 0x1C → s.readReg (s.selOf view) (s.shOf view) off = t.readReg (t.selOf view) (t.shOf view) off) ∧
  (∀ (view : View) (s : State), Answers (.shadowCaptureRead view .bar0 0x18) s fun t =>
    (t.shOf view).serial = BitVec.ofNat 32 (Config.serial.toNat / 2 ^ 32) ∧
    t.out = s.out ++ [.busRead (BitVec.ofNat 32 Config.serial.toNat)] ∧ t = { s with misc := t.misc, out := t.out }) ∧
  ∀ (view : View) (s : State), Answers (.shadowCaptureRead view .bar0 0x1C) s fun t => t = { s with out := s.out ++ [.busRead (s.shOf view).serial] }

/-- What the register tables give for reset (the values whose tables give a fixed one that is not 0, and the event registers, which read 0), no
command waits or is in flight, nothing has left the device, and SRAM lists nothing; MRAM holds the factory record of the log (13 R374). -/
def Obligations.ResetLeavesTheTablesValues : Prop :=
  (∀ p ∈ [(0x0400, 0x2000), (0x0408, 0x6F09), (0x0418, 0x20), (0x041C, 0xFFFF), (0x0C20, 0x01000440), (0x0C3C, 0x80000000), (0x101C, 0xA032),
      (0x1020, 0x7), (0x1024, 0x100), (0x1028, 0x92400), (0x1040, 0x40000), (0x1420, 0x70007), (0x1820, 0x27102710), (0x1C28, 0x6400),
      (0x1C34, 0xFFFF), (0x2028, 0xFFF00000), (0x2400, 0x81), (0x2410, 0xFFFF0000), (0x2800, 0x4), (0x3020, 0xFFFF0000), (0x3040, 0xFFFF0000),
      (0x3800, 0x3), (0x380C, 0x3), (0x3810, 0x6), (0x3814, 0x6), (0x4000, 0x2C), (0x4004, 0x22222222), (0x4008, 0x22222222),
      (0x400C, 0x12422224), (0x4010, 0x1)],
    State.reset.readReg (State.reset.selOf .host) (State.reset.shOf .host) p.1 = BitVec.ofNat 32 p.2) ∧
  (∀ off ∈ [0x0404, 0x0808, 0x0C10, 0x1014, 0x1018, 0x1408, 0x148C, 0x1804, 0x1C08, 0x200C, 0x2408, 0x2804, 0x2C04, 0x3004, 0x3408, 0x3C04, 0x4020,
      0x4400, 0x4404, 0x4408, 0x4470], State.reset.readReg (State.reset.selOf .host) (State.reset.shOf .host) off = 0) ∧
  State.reset.pending = [] ∧ State.reset.hif.flights = [] ∧ State.reset.out = [] ∧ State.reset.mem.sram = [] ∧
  Memory.wf State.reset.mem.sram = true ∧ Memory.wf State.reset.mem.mram = true ∧ State.reset.mem.queue.all = [] ∧
  (∀ r, (State.reset.rings.at r).st = .disabled) ∧ (∀ v, (State.reset.msix.at v).masked = true) ∧ ∀ i, (State.reset.strs.at i).st = .opened
end

