-- ==== Sys2Proof/Laws/State.lean ====
section
/-! SUPPORT. What each shared operation leaves as it was: one conjunction for each operation, which `simp` uses conjunct by conjunct. -/

namespace Sys2Proof.Machine

-- Banks.

@[simp] theorem Bank.at_put_self {α : Type} {n : Nat} (b : Bank n α) (i : Fin n) (a : α) : (b.put i a).at i = a := by
  simp [Bank.put, Bank.at]

@[simp] theorem Bank.at_upd_self {α : Type} {n : Nat} (b : Bank n α) (i : Fin n) (f : α → α) :
    (b.upd i f).at i = f (b.at i) := by simp [Bank.upd]

theorem Bank.at_put_of_ne {α : Type} {n : Nat} (b : Bank n α) {i j : Fin n} (a : α) (h : i ≠ j) :
    (b.put i a).at j = b.at j := by
  simpa [Bank.put, Bank.at] using Vector.getElem_set_ne (xs := b) i.isLt j.isLt (fun e => h (Fin.ext e))

theorem Bank.at_upd_of_ne {α : Type} {n : Nat} (b : Bank n α) {i j : Fin n} (f : α → α) (h : i ≠ j) :
    (b.upd i f).at j = b.at j := Bank.at_put_of_ne b _ h

theorem Bank.at_put {α : Type} {n : Nat} (b : Bank n α) (i j : Fin n) (a : α) :
    (b.put i a).at j = if i = j then a else b.at j := by
  split
  · next h => subst h; simp
  · next h => exact Bank.at_put_of_ne b a h

theorem Bank.at_upd {α : Type} {n : Nat} (b : Bank n α) (i j : Fin n) (f : α → α) :
    (b.upd i f).at j = if i = j then f (b.at i) else b.at j := Bank.at_put b i j _

@[simp] theorem Bank.at_each {α : Type} {n : Nat} (b : Bank n α) (f : Fin n → α → α) (i : Fin n) :
    (b.each f).at i = f i (b.at i) := by
  simp [Bank.each, Bank.at]

@[simp] theorem Bank.at_fill {α : Type} {n : Nat} (a : α) (i : Fin n) : (Bank.fill n a).at i = a := by
  simp [Bank.fill, Bank.at]

-- Two states with the same fields are the same.

theorem State.ext_fields {a b : State} 
    (h0 : a.pending = b.pending) (h1 : a.misc = b.misc) (h2 : a.evt = b.evt) (h3 : a.mem = b.mem)
    (h4 : a.cross = b.cross) (h5 : a.yard = b.yard) (h6 : a.hif = b.hif) (h7 : a.rings = b.rings)
    (h8 : a.msix = b.msix) (h9 : a.troughs = b.troughs) (h10 : a.stalls = b.stalls) (h11 : a.ulink = b.ulink)
    (h12 : a.uswp = b.uswp) (h13 : a.uint = b.uint) (h14 : a.ucal = b.ucal) (h15 : a.uest = b.uest)
    (h16 : a.integ = b.integ) (h17 : a.sleep = b.sleep) (h18 : a.est = b.est) (h19 : a.estr = b.estr)
    (h20 : a.strs = b.strs) (h21 : a.trips = b.trips) (h22 : a.pub = b.pub) (h23 : a.halter = b.halter)
    (h24 : a.clocks = b.clocks) (h25 : a.swc = b.swc) (h26 : a.swctl = b.swctl) (h27 : a.wb = b.wb)
    (h28 : a.cal = b.cal) (h29 : a.strcal = b.strcal) (h30 : a.stb = b.stb) (h31 : a.pairs = b.pairs)
    (h32 : a.pctl = b.pctl) (h33 : a.pwr = b.pwr) (h34 : a.isl = b.isl) (h35 : a.ret = b.ret)
    (h36 : a.therm = b.therm) (h37 : a.clk = b.clk) (h38 : a.sec = b.sec) (h39 : a.net = b.net)
    (h40 : a.out = b.out) (h41 : a.free = b.free) : a = b := by
  cases a; cases b; simp_all

-- Members of the banks.


@[simp] theorem State.onRing_rings (s : State) (r : Fin 16) (f : Ring → Ring) : (s.onRing r f).rings = s.rings.upd r f := rfl

/-- `onRing` changes one member of `rings`. -/
@[simp] theorem State.onRing_frame (s : State) (r : Fin 16) (f : Ring → Ring) :
    (s.onRing r f).pending = s.pending ∧ (s.onRing r f).misc = s.misc ∧ (s.onRing r f).evt = s.evt ∧
    (s.onRing r f).mem = s.mem ∧ (s.onRing r f).cross = s.cross ∧ (s.onRing r f).yard = s.yard ∧
    (s.onRing r f).hif = s.hif ∧ (s.onRing r f).msix = s.msix ∧ (s.onRing r f).troughs = s.troughs ∧
    (s.onRing r f).stalls = s.stalls ∧ (s.onRing r f).ulink = s.ulink ∧ (s.onRing r f).uswp = s.uswp ∧
    (s.onRing r f).uint = s.uint ∧ (s.onRing r f).ucal = s.ucal ∧ (s.onRing r f).uest = s.uest ∧
    (s.onRing r f).integ = s.integ ∧ (s.onRing r f).sleep = s.sleep ∧ (s.onRing r f).est = s.est ∧
    (s.onRing r f).estr = s.estr ∧ (s.onRing r f).strs = s.strs ∧ (s.onRing r f).trips = s.trips ∧
    (s.onRing r f).pub = s.pub ∧ (s.onRing r f).halter = s.halter ∧ (s.onRing r f).clocks = s.clocks ∧
    (s.onRing r f).swc = s.swc ∧ (s.onRing r f).swctl = s.swctl ∧ (s.onRing r f).wb = s.wb ∧ (s.onRing r f).cal = s.cal ∧
    (s.onRing r f).strcal = s.strcal ∧ (s.onRing r f).stb = s.stb ∧ (s.onRing r f).pairs = s.pairs ∧
    (s.onRing r f).pctl = s.pctl ∧ (s.onRing r f).pwr = s.pwr ∧ (s.onRing r f).isl = s.isl ∧ (s.onRing r f).ret = s.ret ∧
    (s.onRing r f).therm = s.therm ∧ (s.onRing r f).clk = s.clk ∧ (s.onRing r f).sec = s.sec ∧
    (s.onRing r f).net = s.net ∧ (s.onRing r f).out = s.out ∧ (s.onRing r f).free = s.free := by and_intros <;> rfl

@[simp] theorem State.onStall_stalls (s : State) (r : Fin 32) (f : Stall → Stall) : (s.onStall r f).stalls = s.stalls.upd r f := rfl

/-- `onStall` changes one member of `stalls`. -/
@[simp] theorem State.onStall_frame (s : State) (r : Fin 32) (f : Stall → Stall) :
    (s.onStall r f).pending = s.pending ∧ (s.onStall r f).misc = s.misc ∧ (s.onStall r f).evt = s.evt ∧
    (s.onStall r f).mem = s.mem ∧ (s.onStall r f).cross = s.cross ∧ (s.onStall r f).yard = s.yard ∧
    (s.onStall r f).hif = s.hif ∧ (s.onStall r f).rings = s.rings ∧ (s.onStall r f).msix = s.msix ∧
    (s.onStall r f).troughs = s.troughs ∧ (s.onStall r f).ulink = s.ulink ∧ (s.onStall r f).uswp = s.uswp ∧
    (s.onStall r f).uint = s.uint ∧ (s.onStall r f).ucal = s.ucal ∧ (s.onStall r f).uest = s.uest ∧
    (s.onStall r f).integ = s.integ ∧ (s.onStall r f).sleep = s.sleep ∧ (s.onStall r f).est = s.est ∧
    (s.onStall r f).estr = s.estr ∧ (s.onStall r f).strs = s.strs ∧ (s.onStall r f).trips = s.trips ∧
    (s.onStall r f).pub = s.pub ∧ (s.onStall r f).halter = s.halter ∧ (s.onStall r f).clocks = s.clocks ∧
    (s.onStall r f).swc = s.swc ∧ (s.onStall r f).swctl = s.swctl ∧ (s.onStall r f).wb = s.wb ∧
    (s.onStall r f).cal = s.cal ∧ (s.onStall r f).strcal = s.strcal ∧ (s.onStall r f).stb = s.stb ∧
    (s.onStall r f).pairs = s.pairs ∧ (s.onStall r f).pctl = s.pctl ∧ (s.onStall r f).pwr = s.pwr ∧
    (s.onStall r f).isl = s.isl ∧ (s.onStall r f).ret = s.ret ∧ (s.onStall r f).therm = s.therm ∧
    (s.onStall r f).clk = s.clk ∧ (s.onStall r f).sec = s.sec ∧ (s.onStall r f).net = s.net ∧
    (s.onStall r f).out = s.out ∧ (s.onStall r f).free = s.free := by and_intros <;> rfl

@[simp] theorem State.onLink_ulink (s : State) (r : Fin 128) (f : UnitLink → UnitLink) : (s.onLink r f).ulink = s.ulink.upd r f := rfl

/-- `onLink` changes one member of `ulink`. -/
@[simp] theorem State.onLink_frame (s : State) (r : Fin 128) (f : UnitLink → UnitLink) :
    (s.onLink r f).pending = s.pending ∧ (s.onLink r f).misc = s.misc ∧ (s.onLink r f).evt = s.evt ∧
    (s.onLink r f).mem = s.mem ∧ (s.onLink r f).cross = s.cross ∧ (s.onLink r f).yard = s.yard ∧
    (s.onLink r f).hif = s.hif ∧ (s.onLink r f).rings = s.rings ∧ (s.onLink r f).msix = s.msix ∧
    (s.onLink r f).troughs = s.troughs ∧ (s.onLink r f).stalls = s.stalls ∧ (s.onLink r f).uswp = s.uswp ∧
    (s.onLink r f).uint = s.uint ∧ (s.onLink r f).ucal = s.ucal ∧ (s.onLink r f).uest = s.uest ∧
    (s.onLink r f).integ = s.integ ∧ (s.onLink r f).sleep = s.sleep ∧ (s.onLink r f).est = s.est ∧
    (s.onLink r f).estr = s.estr ∧ (s.onLink r f).strs = s.strs ∧ (s.onLink r f).trips = s.trips ∧
    (s.onLink r f).pub = s.pub ∧ (s.onLink r f).halter = s.halter ∧ (s.onLink r f).clocks = s.clocks ∧
    (s.onLink r f).swc = s.swc ∧ (s.onLink r f).swctl = s.swctl ∧ (s.onLink r f).wb = s.wb ∧ (s.onLink r f).cal = s.cal ∧
    (s.onLink r f).strcal = s.strcal ∧ (s.onLink r f).stb = s.stb ∧ (s.onLink r f).pairs = s.pairs ∧
    (s.onLink r f).pctl = s.pctl ∧ (s.onLink r f).pwr = s.pwr ∧ (s.onLink r f).isl = s.isl ∧ (s.onLink r f).ret = s.ret ∧
    (s.onLink r f).therm = s.therm ∧ (s.onLink r f).clk = s.clk ∧ (s.onLink r f).sec = s.sec ∧
    (s.onLink r f).net = s.net ∧ (s.onLink r f).out = s.out ∧ (s.onLink r f).free = s.free := by and_intros <;> rfl

@[simp] theorem State.onSweep_uswp (s : State) (r : Fin 128) (f : UnitSweep → UnitSweep) : (s.onSweep r f).uswp = s.uswp.upd r f := rfl

/-- `onSweep` changes one member of `uswp`. -/
@[simp] theorem State.onSweep_frame (s : State) (r : Fin 128) (f : UnitSweep → UnitSweep) :
    (s.onSweep r f).pending = s.pending ∧ (s.onSweep r f).misc = s.misc ∧ (s.onSweep r f).evt = s.evt ∧
    (s.onSweep r f).mem = s.mem ∧ (s.onSweep r f).cross = s.cross ∧ (s.onSweep r f).yard = s.yard ∧
    (s.onSweep r f).hif = s.hif ∧ (s.onSweep r f).rings = s.rings ∧ (s.onSweep r f).msix = s.msix ∧
    (s.onSweep r f).troughs = s.troughs ∧ (s.onSweep r f).stalls = s.stalls ∧ (s.onSweep r f).ulink = s.ulink ∧
    (s.onSweep r f).uint = s.uint ∧ (s.onSweep r f).ucal = s.ucal ∧ (s.onSweep r f).uest = s.uest ∧
    (s.onSweep r f).integ = s.integ ∧ (s.onSweep r f).sleep = s.sleep ∧ (s.onSweep r f).est = s.est ∧
    (s.onSweep r f).estr = s.estr ∧ (s.onSweep r f).strs = s.strs ∧ (s.onSweep r f).trips = s.trips ∧
    (s.onSweep r f).pub = s.pub ∧ (s.onSweep r f).halter = s.halter ∧ (s.onSweep r f).clocks = s.clocks ∧
    (s.onSweep r f).swc = s.swc ∧ (s.onSweep r f).swctl = s.swctl ∧ (s.onSweep r f).wb = s.wb ∧
    (s.onSweep r f).cal = s.cal ∧ (s.onSweep r f).strcal = s.strcal ∧ (s.onSweep r f).stb = s.stb ∧
    (s.onSweep r f).pairs = s.pairs ∧ (s.onSweep r f).pctl = s.pctl ∧ (s.onSweep r f).pwr = s.pwr ∧
    (s.onSweep r f).isl = s.isl ∧ (s.onSweep r f).ret = s.ret ∧ (s.onSweep r f).therm = s.therm ∧
    (s.onSweep r f).clk = s.clk ∧ (s.onSweep r f).sec = s.sec ∧ (s.onSweep r f).net = s.net ∧
    (s.onSweep r f).out = s.out ∧ (s.onSweep r f).free = s.free := by and_intros <;> rfl

@[simp] theorem State.onInteg_uint (s : State) (r : Fin 128) (f : UnitInteg → UnitInteg) : (s.onInteg r f).uint = s.uint.upd r f := rfl

/-- `onInteg` changes one member of `uint`. -/
@[simp] theorem State.onInteg_frame (s : State) (r : Fin 128) (f : UnitInteg → UnitInteg) :
    (s.onInteg r f).pending = s.pending ∧ (s.onInteg r f).misc = s.misc ∧ (s.onInteg r f).evt = s.evt ∧
    (s.onInteg r f).mem = s.mem ∧ (s.onInteg r f).cross = s.cross ∧ (s.onInteg r f).yard = s.yard ∧
    (s.onInteg r f).hif = s.hif ∧ (s.onInteg r f).rings = s.rings ∧ (s.onInteg r f).msix = s.msix ∧
    (s.onInteg r f).troughs = s.troughs ∧ (s.onInteg r f).stalls = s.stalls ∧ (s.onInteg r f).ulink = s.ulink ∧
    (s.onInteg r f).uswp = s.uswp ∧ (s.onInteg r f).ucal = s.ucal ∧ (s.onInteg r f).uest = s.uest ∧
    (s.onInteg r f).integ = s.integ ∧ (s.onInteg r f).sleep = s.sleep ∧ (s.onInteg r f).est = s.est ∧
    (s.onInteg r f).estr = s.estr ∧ (s.onInteg r f).strs = s.strs ∧ (s.onInteg r f).trips = s.trips ∧
    (s.onInteg r f).pub = s.pub ∧ (s.onInteg r f).halter = s.halter ∧ (s.onInteg r f).clocks = s.clocks ∧
    (s.onInteg r f).swc = s.swc ∧ (s.onInteg r f).swctl = s.swctl ∧ (s.onInteg r f).wb = s.wb ∧
    (s.onInteg r f).cal = s.cal ∧ (s.onInteg r f).strcal = s.strcal ∧ (s.onInteg r f).stb = s.stb ∧
    (s.onInteg r f).pairs = s.pairs ∧ (s.onInteg r f).pctl = s.pctl ∧ (s.onInteg r f).pwr = s.pwr ∧
    (s.onInteg r f).isl = s.isl ∧ (s.onInteg r f).ret = s.ret ∧ (s.onInteg r f).therm = s.therm ∧
    (s.onInteg r f).clk = s.clk ∧ (s.onInteg r f).sec = s.sec ∧ (s.onInteg r f).net = s.net ∧
    (s.onInteg r f).out = s.out ∧ (s.onInteg r f).free = s.free := by and_intros <;> rfl

@[simp] theorem State.onCal_ucal (s : State) (r : Fin 128) (f : UnitCal → UnitCal) : (s.onCal r f).ucal = s.ucal.upd r f := rfl

/-- `onCal` changes one member of `ucal`. -/
@[simp] theorem State.onCal_frame (s : State) (r : Fin 128) (f : UnitCal → UnitCal) :
    (s.onCal r f).pending = s.pending ∧ (s.onCal r f).misc = s.misc ∧ (s.onCal r f).evt = s.evt ∧
    (s.onCal r f).mem = s.mem ∧ (s.onCal r f).cross = s.cross ∧ (s.onCal r f).yard = s.yard ∧ (s.onCal r f).hif = s.hif ∧
    (s.onCal r f).rings = s.rings ∧ (s.onCal r f).msix = s.msix ∧ (s.onCal r f).troughs = s.troughs ∧
    (s.onCal r f).stalls = s.stalls ∧ (s.onCal r f).ulink = s.ulink ∧ (s.onCal r f).uswp = s.uswp ∧
    (s.onCal r f).uint = s.uint ∧ (s.onCal r f).uest = s.uest ∧ (s.onCal r f).integ = s.integ ∧
    (s.onCal r f).sleep = s.sleep ∧ (s.onCal r f).est = s.est ∧ (s.onCal r f).estr = s.estr ∧
    (s.onCal r f).strs = s.strs ∧ (s.onCal r f).trips = s.trips ∧ (s.onCal r f).pub = s.pub ∧
    (s.onCal r f).halter = s.halter ∧ (s.onCal r f).clocks = s.clocks ∧ (s.onCal r f).swc = s.swc ∧
    (s.onCal r f).swctl = s.swctl ∧ (s.onCal r f).wb = s.wb ∧ (s.onCal r f).cal = s.cal ∧
    (s.onCal r f).strcal = s.strcal ∧ (s.onCal r f).stb = s.stb ∧ (s.onCal r f).pairs = s.pairs ∧
    (s.onCal r f).pctl = s.pctl ∧ (s.onCal r f).pwr = s.pwr ∧ (s.onCal r f).isl = s.isl ∧ (s.onCal r f).ret = s.ret ∧
    (s.onCal r f).therm = s.therm ∧ (s.onCal r f).clk = s.clk ∧ (s.onCal r f).sec = s.sec ∧ (s.onCal r f).net = s.net ∧
    (s.onCal r f).out = s.out ∧ (s.onCal r f).free = s.free := by and_intros <;> rfl

@[simp] theorem State.onEst_uest (s : State) (r : Fin 128) (f : EstUnit → EstUnit) : (s.onEst r f).uest = s.uest.upd r f := rfl

/-- `onEst` changes one member of `uest`. -/
@[simp] theorem State.onEst_frame (s : State) (r : Fin 128) (f : EstUnit → EstUnit) :
    (s.onEst r f).pending = s.pending ∧ (s.onEst r f).misc = s.misc ∧ (s.onEst r f).evt = s.evt ∧
    (s.onEst r f).mem = s.mem ∧ (s.onEst r f).cross = s.cross ∧ (s.onEst r f).yard = s.yard ∧ (s.onEst r f).hif = s.hif ∧
    (s.onEst r f).rings = s.rings ∧ (s.onEst r f).msix = s.msix ∧ (s.onEst r f).troughs = s.troughs ∧
    (s.onEst r f).stalls = s.stalls ∧ (s.onEst r f).ulink = s.ulink ∧ (s.onEst r f).uswp = s.uswp ∧
    (s.onEst r f).uint = s.uint ∧ (s.onEst r f).ucal = s.ucal ∧ (s.onEst r f).integ = s.integ ∧
    (s.onEst r f).sleep = s.sleep ∧ (s.onEst r f).est = s.est ∧ (s.onEst r f).estr = s.estr ∧
    (s.onEst r f).strs = s.strs ∧ (s.onEst r f).trips = s.trips ∧ (s.onEst r f).pub = s.pub ∧
    (s.onEst r f).halter = s.halter ∧ (s.onEst r f).clocks = s.clocks ∧ (s.onEst r f).swc = s.swc ∧
    (s.onEst r f).swctl = s.swctl ∧ (s.onEst r f).wb = s.wb ∧ (s.onEst r f).cal = s.cal ∧
    (s.onEst r f).strcal = s.strcal ∧ (s.onEst r f).stb = s.stb ∧ (s.onEst r f).pairs = s.pairs ∧
    (s.onEst r f).pctl = s.pctl ∧ (s.onEst r f).pwr = s.pwr ∧ (s.onEst r f).isl = s.isl ∧ (s.onEst r f).ret = s.ret ∧
    (s.onEst r f).therm = s.therm ∧ (s.onEst r f).clk = s.clk ∧ (s.onEst r f).sec = s.sec ∧ (s.onEst r f).net = s.net ∧
    (s.onEst r f).out = s.out ∧ (s.onEst r f).free = s.free := by and_intros <;> rfl

@[simp] theorem State.onEstr_estr (s : State) (r : Fin 4) (f : EstString → EstString) : (s.onEstr r f).estr = s.estr.upd r f := rfl

/-- `onEstr` changes one member of `estr`. -/
@[simp] theorem State.onEstr_frame (s : State) (r : Fin 4) (f : EstString → EstString) :
    (s.onEstr r f).pending = s.pending ∧ (s.onEstr r f).misc = s.misc ∧ (s.onEstr r f).evt = s.evt ∧
    (s.onEstr r f).mem = s.mem ∧ (s.onEstr r f).cross = s.cross ∧ (s.onEstr r f).yard = s.yard ∧
    (s.onEstr r f).hif = s.hif ∧ (s.onEstr r f).rings = s.rings ∧ (s.onEstr r f).msix = s.msix ∧
    (s.onEstr r f).troughs = s.troughs ∧ (s.onEstr r f).stalls = s.stalls ∧ (s.onEstr r f).ulink = s.ulink ∧
    (s.onEstr r f).uswp = s.uswp ∧ (s.onEstr r f).uint = s.uint ∧ (s.onEstr r f).ucal = s.ucal ∧
    (s.onEstr r f).uest = s.uest ∧ (s.onEstr r f).integ = s.integ ∧ (s.onEstr r f).sleep = s.sleep ∧
    (s.onEstr r f).est = s.est ∧ (s.onEstr r f).strs = s.strs ∧ (s.onEstr r f).trips = s.trips ∧
    (s.onEstr r f).pub = s.pub ∧ (s.onEstr r f).halter = s.halter ∧ (s.onEstr r f).clocks = s.clocks ∧
    (s.onEstr r f).swc = s.swc ∧ (s.onEstr r f).swctl = s.swctl ∧ (s.onEstr r f).wb = s.wb ∧ (s.onEstr r f).cal = s.cal ∧
    (s.onEstr r f).strcal = s.strcal ∧ (s.onEstr r f).stb = s.stb ∧ (s.onEstr r f).pairs = s.pairs ∧
    (s.onEstr r f).pctl = s.pctl ∧ (s.onEstr r f).pwr = s.pwr ∧ (s.onEstr r f).isl = s.isl ∧ (s.onEstr r f).ret = s.ret ∧
    (s.onEstr r f).therm = s.therm ∧ (s.onEstr r f).clk = s.clk ∧ (s.onEstr r f).sec = s.sec ∧
    (s.onEstr r f).net = s.net ∧ (s.onEstr r f).out = s.out ∧ (s.onEstr r f).free = s.free := by and_intros <;> rfl

@[simp] theorem State.onStr_strs (s : State) (r : Fin 4) (f : Str → Str) : (s.onStr r f).strs = s.strs.upd r f := rfl

/-- `onStr` changes one member of `strs`. -/
@[simp] theorem State.onStr_frame (s : State) (r : Fin 4) (f : Str → Str) :
    (s.onStr r f).pending = s.pending ∧ (s.onStr r f).misc = s.misc ∧ (s.onStr r f).evt = s.evt ∧
    (s.onStr r f).mem = s.mem ∧ (s.onStr r f).cross = s.cross ∧ (s.onStr r f).yard = s.yard ∧ (s.onStr r f).hif = s.hif ∧
    (s.onStr r f).rings = s.rings ∧ (s.onStr r f).msix = s.msix ∧ (s.onStr r f).troughs = s.troughs ∧
    (s.onStr r f).stalls = s.stalls ∧ (s.onStr r f).ulink = s.ulink ∧ (s.onStr r f).uswp = s.uswp ∧
    (s.onStr r f).uint = s.uint ∧ (s.onStr r f).ucal = s.ucal ∧ (s.onStr r f).uest = s.uest ∧
    (s.onStr r f).integ = s.integ ∧ (s.onStr r f).sleep = s.sleep ∧ (s.onStr r f).est = s.est ∧
    (s.onStr r f).estr = s.estr ∧ (s.onStr r f).trips = s.trips ∧ (s.onStr r f).pub = s.pub ∧
    (s.onStr r f).halter = s.halter ∧ (s.onStr r f).clocks = s.clocks ∧ (s.onStr r f).swc = s.swc ∧
    (s.onStr r f).swctl = s.swctl ∧ (s.onStr r f).wb = s.wb ∧ (s.onStr r f).cal = s.cal ∧
    (s.onStr r f).strcal = s.strcal ∧ (s.onStr r f).stb = s.stb ∧ (s.onStr r f).pairs = s.pairs ∧
    (s.onStr r f).pctl = s.pctl ∧ (s.onStr r f).pwr = s.pwr ∧ (s.onStr r f).isl = s.isl ∧ (s.onStr r f).ret = s.ret ∧
    (s.onStr r f).therm = s.therm ∧ (s.onStr r f).clk = s.clk ∧ (s.onStr r f).sec = s.sec ∧ (s.onStr r f).net = s.net ∧
    (s.onStr r f).out = s.out ∧ (s.onStr r f).free = s.free := by and_intros <;> rfl

@[simp] theorem State.onSwc_swc (s : State) (r : Fin 24) (f : Swc → Swc) : (s.onSwc r f).swc = s.swc.upd r f := rfl

/-- `onSwc` changes one member of `swc`. -/
@[simp] theorem State.onSwc_frame (s : State) (r : Fin 24) (f : Swc → Swc) :
    (s.onSwc r f).pending = s.pending ∧ (s.onSwc r f).misc = s.misc ∧ (s.onSwc r f).evt = s.evt ∧
    (s.onSwc r f).mem = s.mem ∧ (s.onSwc r f).cross = s.cross ∧ (s.onSwc r f).yard = s.yard ∧ (s.onSwc r f).hif = s.hif ∧
    (s.onSwc r f).rings = s.rings ∧ (s.onSwc r f).msix = s.msix ∧ (s.onSwc r f).troughs = s.troughs ∧
    (s.onSwc r f).stalls = s.stalls ∧ (s.onSwc r f).ulink = s.ulink ∧ (s.onSwc r f).uswp = s.uswp ∧
    (s.onSwc r f).uint = s.uint ∧ (s.onSwc r f).ucal = s.ucal ∧ (s.onSwc r f).uest = s.uest ∧
    (s.onSwc r f).integ = s.integ ∧ (s.onSwc r f).sleep = s.sleep ∧ (s.onSwc r f).est = s.est ∧
    (s.onSwc r f).estr = s.estr ∧ (s.onSwc r f).strs = s.strs ∧ (s.onSwc r f).trips = s.trips ∧
    (s.onSwc r f).pub = s.pub ∧ (s.onSwc r f).halter = s.halter ∧ (s.onSwc r f).clocks = s.clocks ∧
    (s.onSwc r f).swctl = s.swctl ∧ (s.onSwc r f).wb = s.wb ∧ (s.onSwc r f).cal = s.cal ∧
    (s.onSwc r f).strcal = s.strcal ∧ (s.onSwc r f).stb = s.stb ∧ (s.onSwc r f).pairs = s.pairs ∧
    (s.onSwc r f).pctl = s.pctl ∧ (s.onSwc r f).pwr = s.pwr ∧ (s.onSwc r f).isl = s.isl ∧ (s.onSwc r f).ret = s.ret ∧
    (s.onSwc r f).therm = s.therm ∧ (s.onSwc r f).clk = s.clk ∧ (s.onSwc r f).sec = s.sec ∧ (s.onSwc r f).net = s.net ∧
    (s.onSwc r f).out = s.out ∧ (s.onSwc r f).free = s.free := by and_intros <;> rfl

@[simp] theorem State.onPair_pairs (s : State) (r : Fin 8) (f : Pair → Pair) : (s.onPair r f).pairs = s.pairs.upd r f := rfl

/-- `onPair` changes one member of `pairs`. -/
@[simp] theorem State.onPair_frame (s : State) (r : Fin 8) (f : Pair → Pair) :
    (s.onPair r f).pending = s.pending ∧ (s.onPair r f).misc = s.misc ∧ (s.onPair r f).evt = s.evt ∧
    (s.onPair r f).mem = s.mem ∧ (s.onPair r f).cross = s.cross ∧ (s.onPair r f).yard = s.yard ∧
    (s.onPair r f).hif = s.hif ∧ (s.onPair r f).rings = s.rings ∧ (s.onPair r f).msix = s.msix ∧
    (s.onPair r f).troughs = s.troughs ∧ (s.onPair r f).stalls = s.stalls ∧ (s.onPair r f).ulink = s.ulink ∧
    (s.onPair r f).uswp = s.uswp ∧ (s.onPair r f).uint = s.uint ∧ (s.onPair r f).ucal = s.ucal ∧
    (s.onPair r f).uest = s.uest ∧ (s.onPair r f).integ = s.integ ∧ (s.onPair r f).sleep = s.sleep ∧
    (s.onPair r f).est = s.est ∧ (s.onPair r f).estr = s.estr ∧ (s.onPair r f).strs = s.strs ∧
    (s.onPair r f).trips = s.trips ∧ (s.onPair r f).pub = s.pub ∧ (s.onPair r f).halter = s.halter ∧
    (s.onPair r f).clocks = s.clocks ∧ (s.onPair r f).swc = s.swc ∧ (s.onPair r f).swctl = s.swctl ∧
    (s.onPair r f).wb = s.wb ∧ (s.onPair r f).cal = s.cal ∧ (s.onPair r f).strcal = s.strcal ∧
    (s.onPair r f).stb = s.stb ∧ (s.onPair r f).pctl = s.pctl ∧ (s.onPair r f).pwr = s.pwr ∧ (s.onPair r f).isl = s.isl ∧
    (s.onPair r f).ret = s.ret ∧ (s.onPair r f).therm = s.therm ∧ (s.onPair r f).clk = s.clk ∧
    (s.onPair r f).sec = s.sec ∧ (s.onPair r f).net = s.net ∧ (s.onPair r f).out = s.out ∧
    (s.onPair r f).free = s.free := by and_intros <;> rfl

@[simp] theorem State.onEvt_evt (s : State) (f : Evts → Evts) : (s.onEvt f).evt = f s.evt := rfl

/-- `onEvt` changes the event registers. -/
@[simp] theorem State.onEvt_frame (s : State) (f : Evts → Evts) :
    (s.onEvt f).pending = s.pending ∧ (s.onEvt f).misc = s.misc ∧ (s.onEvt f).mem = s.mem ∧ (s.onEvt f).cross = s.cross ∧
    (s.onEvt f).yard = s.yard ∧ (s.onEvt f).hif = s.hif ∧ (s.onEvt f).rings = s.rings ∧ (s.onEvt f).msix = s.msix ∧
    (s.onEvt f).troughs = s.troughs ∧ (s.onEvt f).stalls = s.stalls ∧ (s.onEvt f).ulink = s.ulink ∧
    (s.onEvt f).uswp = s.uswp ∧ (s.onEvt f).uint = s.uint ∧ (s.onEvt f).ucal = s.ucal ∧ (s.onEvt f).uest = s.uest ∧
    (s.onEvt f).integ = s.integ ∧ (s.onEvt f).sleep = s.sleep ∧ (s.onEvt f).est = s.est ∧ (s.onEvt f).estr = s.estr ∧
    (s.onEvt f).strs = s.strs ∧ (s.onEvt f).trips = s.trips ∧ (s.onEvt f).pub = s.pub ∧ (s.onEvt f).halter = s.halter ∧
    (s.onEvt f).clocks = s.clocks ∧ (s.onEvt f).swc = s.swc ∧ (s.onEvt f).swctl = s.swctl ∧ (s.onEvt f).wb = s.wb ∧
    (s.onEvt f).cal = s.cal ∧ (s.onEvt f).strcal = s.strcal ∧ (s.onEvt f).stb = s.stb ∧ (s.onEvt f).pairs = s.pairs ∧
    (s.onEvt f).pctl = s.pctl ∧ (s.onEvt f).pwr = s.pwr ∧ (s.onEvt f).isl = s.isl ∧ (s.onEvt f).ret = s.ret ∧
    (s.onEvt f).therm = s.therm ∧ (s.onEvt f).clk = s.clk ∧ (s.onEvt f).sec = s.sec ∧ (s.onEvt f).net = s.net ∧
    (s.onEvt f).out = s.out ∧ (s.onEvt f).free = s.free := by and_intros <;> rfl

@[simp] theorem State.onHalter_halter (s : State) (f : Halter → Halter) : (s.onHalter f).halter = f s.halter := rfl

/-- `onHalter` changes the halter. -/
@[simp] theorem State.onHalter_frame (s : State) (f : Halter → Halter) :
    (s.onHalter f).pending = s.pending ∧ (s.onHalter f).misc = s.misc ∧ (s.onHalter f).evt = s.evt ∧
    (s.onHalter f).mem = s.mem ∧ (s.onHalter f).cross = s.cross ∧ (s.onHalter f).yard = s.yard ∧
    (s.onHalter f).hif = s.hif ∧ (s.onHalter f).rings = s.rings ∧ (s.onHalter f).msix = s.msix ∧
    (s.onHalter f).troughs = s.troughs ∧ (s.onHalter f).stalls = s.stalls ∧ (s.onHalter f).ulink = s.ulink ∧
    (s.onHalter f).uswp = s.uswp ∧ (s.onHalter f).uint = s.uint ∧ (s.onHalter f).ucal = s.ucal ∧
    (s.onHalter f).uest = s.uest ∧ (s.onHalter f).integ = s.integ ∧ (s.onHalter f).sleep = s.sleep ∧
    (s.onHalter f).est = s.est ∧ (s.onHalter f).estr = s.estr ∧ (s.onHalter f).strs = s.strs ∧
    (s.onHalter f).trips = s.trips ∧ (s.onHalter f).pub = s.pub ∧ (s.onHalter f).clocks = s.clocks ∧
    (s.onHalter f).swc = s.swc ∧ (s.onHalter f).swctl = s.swctl ∧ (s.onHalter f).wb = s.wb ∧ (s.onHalter f).cal = s.cal ∧
    (s.onHalter f).strcal = s.strcal ∧ (s.onHalter f).stb = s.stb ∧ (s.onHalter f).pairs = s.pairs ∧
    (s.onHalter f).pctl = s.pctl ∧ (s.onHalter f).pwr = s.pwr ∧ (s.onHalter f).isl = s.isl ∧ (s.onHalter f).ret = s.ret ∧
    (s.onHalter f).therm = s.therm ∧ (s.onHalter f).clk = s.clk ∧ (s.onHalter f).sec = s.sec ∧
    (s.onHalter f).net = s.net ∧ (s.onHalter f).out = s.out ∧ (s.onHalter f).free = s.free := by and_intros <;> rfl

@[simp] theorem State.emit_out (s : State) (e : OutEvent) : (s.emit e).out = s.out ++ [e] := rfl

/-- `emit` changes what has left the device. -/
@[simp] theorem State.emit_frame (s : State) (e : OutEvent) :
    (s.emit e).pending = s.pending ∧ (s.emit e).misc = s.misc ∧ (s.emit e).evt = s.evt ∧ (s.emit e).mem = s.mem ∧
    (s.emit e).cross = s.cross ∧ (s.emit e).yard = s.yard ∧ (s.emit e).hif = s.hif ∧ (s.emit e).rings = s.rings ∧
    (s.emit e).msix = s.msix ∧ (s.emit e).troughs = s.troughs ∧ (s.emit e).stalls = s.stalls ∧
    (s.emit e).ulink = s.ulink ∧ (s.emit e).uswp = s.uswp ∧ (s.emit e).uint = s.uint ∧ (s.emit e).ucal = s.ucal ∧
    (s.emit e).uest = s.uest ∧ (s.emit e).integ = s.integ ∧ (s.emit e).sleep = s.sleep ∧ (s.emit e).est = s.est ∧
    (s.emit e).estr = s.estr ∧ (s.emit e).strs = s.strs ∧ (s.emit e).trips = s.trips ∧ (s.emit e).pub = s.pub ∧
    (s.emit e).halter = s.halter ∧ (s.emit e).clocks = s.clocks ∧ (s.emit e).swc = s.swc ∧ (s.emit e).swctl = s.swctl ∧
    (s.emit e).wb = s.wb ∧ (s.emit e).cal = s.cal ∧ (s.emit e).strcal = s.strcal ∧ (s.emit e).stb = s.stb ∧
    (s.emit e).pairs = s.pairs ∧ (s.emit e).pctl = s.pctl ∧ (s.emit e).pwr = s.pwr ∧ (s.emit e).isl = s.isl ∧
    (s.emit e).ret = s.ret ∧ (s.emit e).therm = s.therm ∧ (s.emit e).clk = s.clk ∧ (s.emit e).sec = s.sec ∧
    (s.emit e).net = s.net ∧ (s.emit e).free = s.free := by and_intros <;> rfl

/-- `toHost` changes what has left the device. -/
@[simp] theorem State.toHost_frame (s : State) (a : Nat) (b : List Byte) :
    (s.toHost a b).pending = s.pending ∧ (s.toHost a b).misc = s.misc ∧ (s.toHost a b).evt = s.evt ∧
    (s.toHost a b).mem = s.mem ∧ (s.toHost a b).cross = s.cross ∧ (s.toHost a b).yard = s.yard ∧
    (s.toHost a b).hif = s.hif ∧ (s.toHost a b).rings = s.rings ∧ (s.toHost a b).msix = s.msix ∧
    (s.toHost a b).troughs = s.troughs ∧ (s.toHost a b).stalls = s.stalls ∧ (s.toHost a b).ulink = s.ulink ∧
    (s.toHost a b).uswp = s.uswp ∧ (s.toHost a b).uint = s.uint ∧ (s.toHost a b).ucal = s.ucal ∧
    (s.toHost a b).uest = s.uest ∧ (s.toHost a b).integ = s.integ ∧ (s.toHost a b).sleep = s.sleep ∧
    (s.toHost a b).est = s.est ∧ (s.toHost a b).estr = s.estr ∧ (s.toHost a b).strs = s.strs ∧
    (s.toHost a b).trips = s.trips ∧ (s.toHost a b).pub = s.pub ∧ (s.toHost a b).halter = s.halter ∧
    (s.toHost a b).clocks = s.clocks ∧ (s.toHost a b).swc = s.swc ∧ (s.toHost a b).swctl = s.swctl ∧
    (s.toHost a b).wb = s.wb ∧ (s.toHost a b).cal = s.cal ∧ (s.toHost a b).strcal = s.strcal ∧
    (s.toHost a b).stb = s.stb ∧ (s.toHost a b).pairs = s.pairs ∧ (s.toHost a b).pctl = s.pctl ∧
    (s.toHost a b).pwr = s.pwr ∧ (s.toHost a b).isl = s.isl ∧ (s.toHost a b).ret = s.ret ∧
    (s.toHost a b).therm = s.therm ∧ (s.toHost a b).clk = s.clk ∧ (s.toHost a b).sec = s.sec ∧
    (s.toHost a b).net = s.net ∧ (s.toHost a b).free = s.free := by and_intros <;> rfl

@[simp] theorem State.advance_clk (s : State) (n : Nat) : (s.advance n).clk = s.clk.advance n := rfl

/-- `advance` changes the clocks. -/
@[simp] theorem State.advance_frame (s : State) (n : Nat) :
    (s.advance n).pending = s.pending ∧ (s.advance n).misc = s.misc ∧ (s.advance n).evt = s.evt ∧
    (s.advance n).mem = s.mem ∧ (s.advance n).cross = s.cross ∧ (s.advance n).yard = s.yard ∧ (s.advance n).hif = s.hif ∧
    (s.advance n).rings = s.rings ∧ (s.advance n).msix = s.msix ∧ (s.advance n).troughs = s.troughs ∧
    (s.advance n).stalls = s.stalls ∧ (s.advance n).ulink = s.ulink ∧ (s.advance n).uswp = s.uswp ∧
    (s.advance n).uint = s.uint ∧ (s.advance n).ucal = s.ucal ∧ (s.advance n).uest = s.uest ∧
    (s.advance n).integ = s.integ ∧ (s.advance n).sleep = s.sleep ∧ (s.advance n).est = s.est ∧
    (s.advance n).estr = s.estr ∧ (s.advance n).strs = s.strs ∧ (s.advance n).trips = s.trips ∧
    (s.advance n).pub = s.pub ∧ (s.advance n).halter = s.halter ∧ (s.advance n).clocks = s.clocks ∧
    (s.advance n).swc = s.swc ∧ (s.advance n).swctl = s.swctl ∧ (s.advance n).wb = s.wb ∧ (s.advance n).cal = s.cal ∧
    (s.advance n).strcal = s.strcal ∧ (s.advance n).stb = s.stb ∧ (s.advance n).pairs = s.pairs ∧
    (s.advance n).pctl = s.pctl ∧ (s.advance n).pwr = s.pwr ∧ (s.advance n).isl = s.isl ∧ (s.advance n).ret = s.ret ∧
    (s.advance n).therm = s.therm ∧ (s.advance n).sec = s.sec ∧ (s.advance n).net = s.net ∧ (s.advance n).out = s.out ∧
    (s.advance n).free = s.free := by and_intros <;> rfl

/-- Drawing a free value advances its counter. -/
@[simp] theorem State.draw_frame (s : State) :
    (s.draw.2).pending = s.pending ∧ (s.draw.2).misc = s.misc ∧ (s.draw.2).evt = s.evt ∧ (s.draw.2).mem = s.mem ∧
    (s.draw.2).cross = s.cross ∧ (s.draw.2).yard = s.yard ∧ (s.draw.2).hif = s.hif ∧ (s.draw.2).rings = s.rings ∧
    (s.draw.2).msix = s.msix ∧ (s.draw.2).troughs = s.troughs ∧ (s.draw.2).stalls = s.stalls ∧
    (s.draw.2).ulink = s.ulink ∧ (s.draw.2).uswp = s.uswp ∧ (s.draw.2).uint = s.uint ∧ (s.draw.2).ucal = s.ucal ∧
    (s.draw.2).uest = s.uest ∧ (s.draw.2).integ = s.integ ∧ (s.draw.2).sleep = s.sleep ∧ (s.draw.2).est = s.est ∧
    (s.draw.2).estr = s.estr ∧ (s.draw.2).strs = s.strs ∧ (s.draw.2).trips = s.trips ∧ (s.draw.2).pub = s.pub ∧
    (s.draw.2).halter = s.halter ∧ (s.draw.2).clocks = s.clocks ∧ (s.draw.2).swc = s.swc ∧ (s.draw.2).swctl = s.swctl ∧
    (s.draw.2).wb = s.wb ∧ (s.draw.2).cal = s.cal ∧ (s.draw.2).strcal = s.strcal ∧ (s.draw.2).stb = s.stb ∧
    (s.draw.2).pairs = s.pairs ∧ (s.draw.2).pctl = s.pctl ∧ (s.draw.2).pwr = s.pwr ∧ (s.draw.2).isl = s.isl ∧
    (s.draw.2).ret = s.ret ∧ (s.draw.2).therm = s.therm ∧ (s.draw.2).clk = s.clk ∧ (s.draw.2).sec = s.sec ∧
    (s.draw.2).net = s.net ∧ (s.draw.2).out = s.out := by and_intros <;> rfl

/-- A store to MRAM changes the memories. -/
@[simp] theorem State.mramStore_frame (s : State) (a : Nat) (b : List Byte) :
    (s.mramStore a b).pending = s.pending ∧ (s.mramStore a b).misc = s.misc ∧ (s.mramStore a b).evt = s.evt ∧
    (s.mramStore a b).cross = s.cross ∧ (s.mramStore a b).yard = s.yard ∧ (s.mramStore a b).hif = s.hif ∧
    (s.mramStore a b).rings = s.rings ∧ (s.mramStore a b).msix = s.msix ∧ (s.mramStore a b).troughs = s.troughs ∧
    (s.mramStore a b).stalls = s.stalls ∧ (s.mramStore a b).ulink = s.ulink ∧ (s.mramStore a b).uswp = s.uswp ∧
    (s.mramStore a b).uint = s.uint ∧ (s.mramStore a b).ucal = s.ucal ∧ (s.mramStore a b).uest = s.uest ∧
    (s.mramStore a b).integ = s.integ ∧ (s.mramStore a b).sleep = s.sleep ∧ (s.mramStore a b).est = s.est ∧
    (s.mramStore a b).estr = s.estr ∧ (s.mramStore a b).strs = s.strs ∧ (s.mramStore a b).trips = s.trips ∧
    (s.mramStore a b).pub = s.pub ∧ (s.mramStore a b).halter = s.halter ∧ (s.mramStore a b).clocks = s.clocks ∧
    (s.mramStore a b).swc = s.swc ∧ (s.mramStore a b).swctl = s.swctl ∧ (s.mramStore a b).wb = s.wb ∧
    (s.mramStore a b).cal = s.cal ∧ (s.mramStore a b).strcal = s.strcal ∧ (s.mramStore a b).stb = s.stb ∧
    (s.mramStore a b).pairs = s.pairs ∧ (s.mramStore a b).pctl = s.pctl ∧ (s.mramStore a b).pwr = s.pwr ∧
    (s.mramStore a b).isl = s.isl ∧ (s.mramStore a b).ret = s.ret ∧ (s.mramStore a b).therm = s.therm ∧
    (s.mramStore a b).clk = s.clk ∧ (s.mramStore a b).sec = s.sec ∧ (s.mramStore a b).net = s.net ∧
    (s.mramStore a b).out = s.out ∧ (s.mramStore a b).free = s.free := by and_intros <;> rfl

/-- A restored block changes SRAM and what remains to be restored. -/
@[simp] theorem State.restoreBlock_frame (s : State) (b : Nat) :
    (s.restoreBlock b).pending = s.pending ∧ (s.restoreBlock b).misc = s.misc ∧ (s.restoreBlock b).evt = s.evt ∧
    (s.restoreBlock b).cross = s.cross ∧ (s.restoreBlock b).yard = s.yard ∧ (s.restoreBlock b).hif = s.hif ∧
    (s.restoreBlock b).rings = s.rings ∧ (s.restoreBlock b).msix = s.msix ∧ (s.restoreBlock b).troughs = s.troughs ∧
    (s.restoreBlock b).stalls = s.stalls ∧ (s.restoreBlock b).ulink = s.ulink ∧ (s.restoreBlock b).uswp = s.uswp ∧
    (s.restoreBlock b).uint = s.uint ∧ (s.restoreBlock b).ucal = s.ucal ∧ (s.restoreBlock b).uest = s.uest ∧
    (s.restoreBlock b).integ = s.integ ∧ (s.restoreBlock b).sleep = s.sleep ∧ (s.restoreBlock b).est = s.est ∧
    (s.restoreBlock b).estr = s.estr ∧ (s.restoreBlock b).strs = s.strs ∧ (s.restoreBlock b).trips = s.trips ∧
    (s.restoreBlock b).pub = s.pub ∧ (s.restoreBlock b).halter = s.halter ∧ (s.restoreBlock b).clocks = s.clocks ∧
    (s.restoreBlock b).swc = s.swc ∧ (s.restoreBlock b).swctl = s.swctl ∧ (s.restoreBlock b).wb = s.wb ∧
    (s.restoreBlock b).cal = s.cal ∧ (s.restoreBlock b).strcal = s.strcal ∧ (s.restoreBlock b).stb = s.stb ∧
    (s.restoreBlock b).pairs = s.pairs ∧ (s.restoreBlock b).pctl = s.pctl ∧ (s.restoreBlock b).pwr = s.pwr ∧
    (s.restoreBlock b).isl = s.isl ∧ (s.restoreBlock b).therm = s.therm ∧ (s.restoreBlock b).clk = s.clk ∧
    (s.restoreBlock b).sec = s.sec ∧ (s.restoreBlock b).net = s.net ∧ (s.restoreBlock b).out = s.out ∧
    (s.restoreBlock b).free = s.free := by
  unfold State.restoreBlock; split <;> simp

/-- A store to SRAM changes SRAM and what remains to be restored. -/
@[simp] theorem State.sramStore_frame (s : State) (k : Nat) (b : List Byte) :
    (s.sramStore k b).pending = s.pending ∧ (s.sramStore k b).misc = s.misc ∧ (s.sramStore k b).evt = s.evt ∧
    (s.sramStore k b).cross = s.cross ∧ (s.sramStore k b).yard = s.yard ∧ (s.sramStore k b).hif = s.hif ∧
    (s.sramStore k b).rings = s.rings ∧ (s.sramStore k b).msix = s.msix ∧ (s.sramStore k b).troughs = s.troughs ∧
    (s.sramStore k b).stalls = s.stalls ∧ (s.sramStore k b).ulink = s.ulink ∧ (s.sramStore k b).uswp = s.uswp ∧
    (s.sramStore k b).uint = s.uint ∧ (s.sramStore k b).ucal = s.ucal ∧ (s.sramStore k b).uest = s.uest ∧
    (s.sramStore k b).integ = s.integ ∧ (s.sramStore k b).sleep = s.sleep ∧ (s.sramStore k b).est = s.est ∧
    (s.sramStore k b).estr = s.estr ∧ (s.sramStore k b).strs = s.strs ∧ (s.sramStore k b).trips = s.trips ∧
    (s.sramStore k b).pub = s.pub ∧ (s.sramStore k b).halter = s.halter ∧ (s.sramStore k b).clocks = s.clocks ∧
    (s.sramStore k b).swc = s.swc ∧ (s.sramStore k b).swctl = s.swctl ∧ (s.sramStore k b).wb = s.wb ∧
    (s.sramStore k b).cal = s.cal ∧ (s.sramStore k b).strcal = s.strcal ∧ (s.sramStore k b).stb = s.stb ∧
    (s.sramStore k b).pairs = s.pairs ∧ (s.sramStore k b).pctl = s.pctl ∧ (s.sramStore k b).pwr = s.pwr ∧
    (s.sramStore k b).isl = s.isl ∧ (s.sramStore k b).therm = s.therm ∧ (s.sramStore k b).clk = s.clk ∧
    (s.sramStore k b).sec = s.sec ∧ (s.sramStore k b).net = s.net ∧ (s.sramStore k b).out = s.out ∧
    (s.sramStore k b).free = s.free := by
  simp [State.sramStore]

/-- A request at the recorder changes the studbook and its events. -/
@[simp] theorem State.recorderTakes_frame (s : State) (q : StbReq) :
    (s.recorderTakes q).pending = s.pending ∧ (s.recorderTakes q).misc = s.misc ∧ (s.recorderTakes q).mem = s.mem ∧
    (s.recorderTakes q).cross = s.cross ∧ (s.recorderTakes q).yard = s.yard ∧ (s.recorderTakes q).hif = s.hif ∧
    (s.recorderTakes q).rings = s.rings ∧ (s.recorderTakes q).msix = s.msix ∧ (s.recorderTakes q).troughs = s.troughs ∧
    (s.recorderTakes q).stalls = s.stalls ∧ (s.recorderTakes q).ulink = s.ulink ∧ (s.recorderTakes q).uswp = s.uswp ∧
    (s.recorderTakes q).uint = s.uint ∧ (s.recorderTakes q).ucal = s.ucal ∧ (s.recorderTakes q).uest = s.uest ∧
    (s.recorderTakes q).integ = s.integ ∧ (s.recorderTakes q).sleep = s.sleep ∧ (s.recorderTakes q).est = s.est ∧
    (s.recorderTakes q).estr = s.estr ∧ (s.recorderTakes q).strs = s.strs ∧ (s.recorderTakes q).trips = s.trips ∧
    (s.recorderTakes q).pub = s.pub ∧ (s.recorderTakes q).halter = s.halter ∧ (s.recorderTakes q).clocks = s.clocks ∧
    (s.recorderTakes q).swc = s.swc ∧ (s.recorderTakes q).swctl = s.swctl ∧ (s.recorderTakes q).wb = s.wb ∧
    (s.recorderTakes q).cal = s.cal ∧ (s.recorderTakes q).strcal = s.strcal ∧ (s.recorderTakes q).pairs = s.pairs ∧
    (s.recorderTakes q).pctl = s.pctl ∧ (s.recorderTakes q).pwr = s.pwr ∧ (s.recorderTakes q).isl = s.isl ∧
    (s.recorderTakes q).ret = s.ret ∧ (s.recorderTakes q).therm = s.therm ∧ (s.recorderTakes q).clk = s.clk ∧
    (s.recorderTakes q).sec = s.sec ∧ (s.recorderTakes q).net = s.net ∧ (s.recorderTakes q).out = s.out ∧
    (s.recorderTakes q).free = s.free := by
  unfold State.recorderTakes; repeat' split
  all_goals simp

/-- A studbook request changes the studbook, its events and its crossing. -/
@[simp] theorem State.studbook_frame (s : State) (t : BitVec 6) (n : Nat) (d : List Byte) :
    (s.studbook t n d).pending = s.pending ∧ (s.studbook t n d).misc = s.misc ∧ (s.studbook t n d).mem = s.mem ∧
    (s.studbook t n d).yard = s.yard ∧ (s.studbook t n d).hif = s.hif ∧ (s.studbook t n d).rings = s.rings ∧
    (s.studbook t n d).msix = s.msix ∧ (s.studbook t n d).troughs = s.troughs ∧ (s.studbook t n d).stalls = s.stalls ∧
    (s.studbook t n d).ulink = s.ulink ∧ (s.studbook t n d).uswp = s.uswp ∧ (s.studbook t n d).uint = s.uint ∧
    (s.studbook t n d).ucal = s.ucal ∧ (s.studbook t n d).uest = s.uest ∧ (s.studbook t n d).integ = s.integ ∧
    (s.studbook t n d).sleep = s.sleep ∧ (s.studbook t n d).est = s.est ∧ (s.studbook t n d).estr = s.estr ∧
    (s.studbook t n d).strs = s.strs ∧ (s.studbook t n d).trips = s.trips ∧ (s.studbook t n d).pub = s.pub ∧
    (s.studbook t n d).halter = s.halter ∧ (s.studbook t n d).clocks = s.clocks ∧ (s.studbook t n d).swc = s.swc ∧
    (s.studbook t n d).swctl = s.swctl ∧ (s.studbook t n d).wb = s.wb ∧ (s.studbook t n d).cal = s.cal ∧
    (s.studbook t n d).strcal = s.strcal ∧ (s.studbook t n d).pairs = s.pairs ∧ (s.studbook t n d).pctl = s.pctl ∧
    (s.studbook t n d).pwr = s.pwr ∧ (s.studbook t n d).isl = s.isl ∧ (s.studbook t n d).ret = s.ret ∧
    (s.studbook t n d).therm = s.therm ∧ (s.studbook t n d).clk = s.clk ∧ (s.studbook t n d).sec = s.sec ∧
    (s.studbook t n d).net = s.net ∧ (s.studbook t n d).out = s.out ∧ (s.studbook t n d).free = s.free := by
  unfold State.studbook; split <;> simp

/-- An uncorrectable error changes its registers, the events, the studbook, the crossings, and the mark of the running image. -/
@[simp] theorem State.memoryError_frame (s : State) (src : UeSrc) (bank : Fin 32) (off : Nat) :
    (s.memoryError src bank off).pending = s.pending ∧ (s.memoryError src bank off).misc = s.misc ∧
    (s.memoryError src bank off).yard = s.yard ∧ (s.memoryError src bank off).hif = s.hif ∧
    (s.memoryError src bank off).rings = s.rings ∧ (s.memoryError src bank off).msix = s.msix ∧
    (s.memoryError src bank off).troughs = s.troughs ∧ (s.memoryError src bank off).stalls = s.stalls ∧
    (s.memoryError src bank off).ulink = s.ulink ∧ (s.memoryError src bank off).uswp = s.uswp ∧
    (s.memoryError src bank off).uint = s.uint ∧ (s.memoryError src bank off).ucal = s.ucal ∧
    (s.memoryError src bank off).uest = s.uest ∧ (s.memoryError src bank off).integ = s.integ ∧
    (s.memoryError src bank off).sleep = s.sleep ∧ (s.memoryError src bank off).est = s.est ∧
    (s.memoryError src bank off).estr = s.estr ∧ (s.memoryError src bank off).strs = s.strs ∧
    (s.memoryError src bank off).trips = s.trips ∧ (s.memoryError src bank off).pub = s.pub ∧
    (s.memoryError src bank off).halter = s.halter ∧ (s.memoryError src bank off).clocks = s.clocks ∧
    (s.memoryError src bank off).swc = s.swc ∧ (s.memoryError src bank off).swctl = s.swctl ∧
    (s.memoryError src bank off).wb = s.wb ∧ (s.memoryError src bank off).cal = s.cal ∧
    (s.memoryError src bank off).strcal = s.strcal ∧ (s.memoryError src bank off).pairs = s.pairs ∧
    (s.memoryError src bank off).pctl = s.pctl ∧ (s.memoryError src bank off).pwr = s.pwr ∧
    (s.memoryError src bank off).isl = s.isl ∧ (s.memoryError src bank off).ret = s.ret ∧
    (s.memoryError src bank off).therm = s.therm ∧ (s.memoryError src bank off).clk = s.clk ∧
    (s.memoryError src bank off).net = s.net ∧ (s.memoryError src bank off).out = s.out ∧
    (s.memoryError src bank off).free = s.free := by
  unfold State.memoryError
  cases s.runningImageAt bank.val off <;> by_cases h1 : 30 ≤ bank.val <;>
    by_cases h2 : protectionData s.pctl.split bank.val off = true <;> simp [h1, h2]

/-- `refreshEligible` changes the ring pairs. -/
@[simp] theorem State.refreshEligible_frame (s : State) :
    (s.refreshEligible).pending = s.pending ∧ (s.refreshEligible).misc = s.misc ∧ (s.refreshEligible).evt = s.evt ∧
    (s.refreshEligible).mem = s.mem ∧ (s.refreshEligible).cross = s.cross ∧ (s.refreshEligible).yard = s.yard ∧
    (s.refreshEligible).hif = s.hif ∧ (s.refreshEligible).msix = s.msix ∧ (s.refreshEligible).troughs = s.troughs ∧
    (s.refreshEligible).stalls = s.stalls ∧ (s.refreshEligible).ulink = s.ulink ∧ (s.refreshEligible).uswp = s.uswp ∧
    (s.refreshEligible).uint = s.uint ∧ (s.refreshEligible).ucal = s.ucal ∧ (s.refreshEligible).uest = s.uest ∧
    (s.refreshEligible).integ = s.integ ∧ (s.refreshEligible).sleep = s.sleep ∧ (s.refreshEligible).est = s.est ∧
    (s.refreshEligible).estr = s.estr ∧ (s.refreshEligible).strs = s.strs ∧ (s.refreshEligible).trips = s.trips ∧
    (s.refreshEligible).pub = s.pub ∧ (s.refreshEligible).halter = s.halter ∧ (s.refreshEligible).clocks = s.clocks ∧
    (s.refreshEligible).swc = s.swc ∧ (s.refreshEligible).swctl = s.swctl ∧ (s.refreshEligible).wb = s.wb ∧
    (s.refreshEligible).cal = s.cal ∧ (s.refreshEligible).strcal = s.strcal ∧ (s.refreshEligible).stb = s.stb ∧
    (s.refreshEligible).pairs = s.pairs ∧ (s.refreshEligible).pctl = s.pctl ∧ (s.refreshEligible).pwr = s.pwr ∧
    (s.refreshEligible).isl = s.isl ∧ (s.refreshEligible).ret = s.ret ∧ (s.refreshEligible).therm = s.therm ∧
    (s.refreshEligible).clk = s.clk ∧ (s.refreshEligible).sec = s.sec ∧ (s.refreshEligible).net = s.net ∧
    (s.refreshEligible).out = s.out ∧ (s.refreshEligible).free = s.free := by
  unfold State.refreshEligible; and_intros <;> rfl

/-- A completion changes the ring pairs and the host interface. -/
@[simp] theorem State.post_frame (s : State) (c : Cmd) (o x : BitVec 8) (r : BitVec 128) (f g : Bool) :
    (s.post c o x r f g).pending = s.pending ∧ (s.post c o x r f g).misc = s.misc ∧ (s.post c o x r f g).evt = s.evt ∧
    (s.post c o x r f g).mem = s.mem ∧ (s.post c o x r f g).cross = s.cross ∧ (s.post c o x r f g).yard = s.yard ∧
    (s.post c o x r f g).msix = s.msix ∧ (s.post c o x r f g).troughs = s.troughs ∧
    (s.post c o x r f g).stalls = s.stalls ∧ (s.post c o x r f g).ulink = s.ulink ∧ (s.post c o x r f g).uswp = s.uswp ∧
    (s.post c o x r f g).uint = s.uint ∧ (s.post c o x r f g).ucal = s.ucal ∧ (s.post c o x r f g).uest = s.uest ∧
    (s.post c o x r f g).integ = s.integ ∧ (s.post c o x r f g).sleep = s.sleep ∧ (s.post c o x r f g).est = s.est ∧
    (s.post c o x r f g).estr = s.estr ∧ (s.post c o x r f g).strs = s.strs ∧ (s.post c o x r f g).trips = s.trips ∧
    (s.post c o x r f g).pub = s.pub ∧ (s.post c o x r f g).halter = s.halter ∧ (s.post c o x r f g).clocks = s.clocks ∧
    (s.post c o x r f g).swc = s.swc ∧ (s.post c o x r f g).swctl = s.swctl ∧ (s.post c o x r f g).wb = s.wb ∧
    (s.post c o x r f g).cal = s.cal ∧ (s.post c o x r f g).strcal = s.strcal ∧ (s.post c o x r f g).stb = s.stb ∧
    (s.post c o x r f g).pairs = s.pairs ∧ (s.post c o x r f g).pctl = s.pctl ∧ (s.post c o x r f g).pwr = s.pwr ∧
    (s.post c o x r f g).isl = s.isl ∧ (s.post c o x r f g).ret = s.ret ∧ (s.post c o x r f g).therm = s.therm ∧
    (s.post c o x r f g).clk = s.clk ∧ (s.post c o x r f g).sec = s.sec ∧ (s.post c o x r f g).net = s.net ∧
    (s.post c o x r f g).out = s.out ∧ (s.post c o x r f g).free = s.free := by
  unfold State.post; dsimp only; split <;> simp

/-- A final completion changes the ring pairs and the host interface. -/
@[simp] theorem State.complete_frame (s : State) (c : Cmd) (x : BitVec 8) (r : BitVec 128) :
    (s.complete c x r).pending = s.pending ∧ (s.complete c x r).misc = s.misc ∧ (s.complete c x r).evt = s.evt ∧
    (s.complete c x r).mem = s.mem ∧ (s.complete c x r).cross = s.cross ∧ (s.complete c x r).yard = s.yard ∧
    (s.complete c x r).msix = s.msix ∧ (s.complete c x r).troughs = s.troughs ∧ (s.complete c x r).stalls = s.stalls ∧
    (s.complete c x r).ulink = s.ulink ∧ (s.complete c x r).uswp = s.uswp ∧ (s.complete c x r).uint = s.uint ∧
    (s.complete c x r).ucal = s.ucal ∧ (s.complete c x r).uest = s.uest ∧ (s.complete c x r).integ = s.integ ∧
    (s.complete c x r).sleep = s.sleep ∧ (s.complete c x r).est = s.est ∧ (s.complete c x r).estr = s.estr ∧
    (s.complete c x r).strs = s.strs ∧ (s.complete c x r).trips = s.trips ∧ (s.complete c x r).pub = s.pub ∧
    (s.complete c x r).halter = s.halter ∧ (s.complete c x r).clocks = s.clocks ∧ (s.complete c x r).swc = s.swc ∧
    (s.complete c x r).swctl = s.swctl ∧ (s.complete c x r).wb = s.wb ∧ (s.complete c x r).cal = s.cal ∧
    (s.complete c x r).strcal = s.strcal ∧ (s.complete c x r).stb = s.stb ∧ (s.complete c x r).pairs = s.pairs ∧
    (s.complete c x r).pctl = s.pctl ∧ (s.complete c x r).pwr = s.pwr ∧ (s.complete c x r).isl = s.isl ∧
    (s.complete c x r).ret = s.ret ∧ (s.complete c x r).therm = s.therm ∧ (s.complete c x r).clk = s.clk ∧
    (s.complete c x r).sec = s.sec ∧ (s.complete c x r).net = s.net ∧ (s.complete c x r).out = s.out ∧
    (s.complete c x r).free = s.free := by
  unfold State.complete; split <;> simp

/-- `ok` completes a command. -/
@[simp] theorem State.ok_frame (s : State) (c : Cmd) (r : BitVec 128) :
    (s.ok c r).pending = s.pending ∧ (s.ok c r).misc = s.misc ∧ (s.ok c r).evt = s.evt ∧ (s.ok c r).mem = s.mem ∧
    (s.ok c r).cross = s.cross ∧ (s.ok c r).yard = s.yard ∧ (s.ok c r).msix = s.msix ∧ (s.ok c r).troughs = s.troughs ∧
    (s.ok c r).stalls = s.stalls ∧ (s.ok c r).ulink = s.ulink ∧ (s.ok c r).uswp = s.uswp ∧ (s.ok c r).uint = s.uint ∧
    (s.ok c r).ucal = s.ucal ∧ (s.ok c r).uest = s.uest ∧ (s.ok c r).integ = s.integ ∧ (s.ok c r).sleep = s.sleep ∧
    (s.ok c r).est = s.est ∧ (s.ok c r).estr = s.estr ∧ (s.ok c r).strs = s.strs ∧ (s.ok c r).trips = s.trips ∧
    (s.ok c r).pub = s.pub ∧ (s.ok c r).halter = s.halter ∧ (s.ok c r).clocks = s.clocks ∧ (s.ok c r).swc = s.swc ∧
    (s.ok c r).swctl = s.swctl ∧ (s.ok c r).wb = s.wb ∧ (s.ok c r).cal = s.cal ∧ (s.ok c r).strcal = s.strcal ∧
    (s.ok c r).stb = s.stb ∧ (s.ok c r).pairs = s.pairs ∧ (s.ok c r).pctl = s.pctl ∧ (s.ok c r).pwr = s.pwr ∧
    (s.ok c r).isl = s.isl ∧ (s.ok c r).ret = s.ret ∧ (s.ok c r).therm = s.therm ∧ (s.ok c r).clk = s.clk ∧
    (s.ok c r).sec = s.sec ∧ (s.ok c r).net = s.net ∧ (s.ok c r).out = s.out ∧ (s.ok c r).free = s.free := by
  simp [State.ok]

/-- `badOperand` completes a command. -/
@[simp] theorem State.badOperand_frame (s : State) (c : Cmd) :
    (s.badOperand c).pending = s.pending ∧ (s.badOperand c).misc = s.misc ∧ (s.badOperand c).evt = s.evt ∧
    (s.badOperand c).mem = s.mem ∧ (s.badOperand c).cross = s.cross ∧ (s.badOperand c).yard = s.yard ∧
    (s.badOperand c).msix = s.msix ∧ (s.badOperand c).troughs = s.troughs ∧ (s.badOperand c).stalls = s.stalls ∧
    (s.badOperand c).ulink = s.ulink ∧ (s.badOperand c).uswp = s.uswp ∧ (s.badOperand c).uint = s.uint ∧
    (s.badOperand c).ucal = s.ucal ∧ (s.badOperand c).uest = s.uest ∧ (s.badOperand c).integ = s.integ ∧
    (s.badOperand c).sleep = s.sleep ∧ (s.badOperand c).est = s.est ∧ (s.badOperand c).estr = s.estr ∧
    (s.badOperand c).strs = s.strs ∧ (s.badOperand c).trips = s.trips ∧ (s.badOperand c).pub = s.pub ∧
    (s.badOperand c).halter = s.halter ∧ (s.badOperand c).clocks = s.clocks ∧ (s.badOperand c).swc = s.swc ∧
    (s.badOperand c).swctl = s.swctl ∧ (s.badOperand c).wb = s.wb ∧ (s.badOperand c).cal = s.cal ∧
    (s.badOperand c).strcal = s.strcal ∧ (s.badOperand c).stb = s.stb ∧ (s.badOperand c).pairs = s.pairs ∧
    (s.badOperand c).pctl = s.pctl ∧ (s.badOperand c).pwr = s.pwr ∧ (s.badOperand c).isl = s.isl ∧
    (s.badOperand c).ret = s.ret ∧ (s.badOperand c).therm = s.therm ∧ (s.badOperand c).clk = s.clk ∧
    (s.badOperand c).sec = s.sec ∧ (s.badOperand c).net = s.net ∧ (s.badOperand c).out = s.out ∧
    (s.badOperand c).free = s.free := by
  simp [State.badOperand]

/-- `refuse` completes a command. -/
@[simp] theorem State.refuse_frame (s : State) (c : Cmd) (n : Nat) :
    (s.refuse c n).pending = s.pending ∧ (s.refuse c n).misc = s.misc ∧ (s.refuse c n).evt = s.evt ∧
    (s.refuse c n).mem = s.mem ∧ (s.refuse c n).cross = s.cross ∧ (s.refuse c n).yard = s.yard ∧
    (s.refuse c n).msix = s.msix ∧ (s.refuse c n).troughs = s.troughs ∧ (s.refuse c n).stalls = s.stalls ∧
    (s.refuse c n).ulink = s.ulink ∧ (s.refuse c n).uswp = s.uswp ∧ (s.refuse c n).uint = s.uint ∧
    (s.refuse c n).ucal = s.ucal ∧ (s.refuse c n).uest = s.uest ∧ (s.refuse c n).integ = s.integ ∧
    (s.refuse c n).sleep = s.sleep ∧ (s.refuse c n).est = s.est ∧ (s.refuse c n).estr = s.estr ∧
    (s.refuse c n).strs = s.strs ∧ (s.refuse c n).trips = s.trips ∧ (s.refuse c n).pub = s.pub ∧
    (s.refuse c n).halter = s.halter ∧ (s.refuse c n).clocks = s.clocks ∧ (s.refuse c n).swc = s.swc ∧
    (s.refuse c n).swctl = s.swctl ∧ (s.refuse c n).wb = s.wb ∧ (s.refuse c n).cal = s.cal ∧
    (s.refuse c n).strcal = s.strcal ∧ (s.refuse c n).stb = s.stb ∧ (s.refuse c n).pairs = s.pairs ∧
    (s.refuse c n).pctl = s.pctl ∧ (s.refuse c n).pwr = s.pwr ∧ (s.refuse c n).isl = s.isl ∧ (s.refuse c n).ret = s.ret ∧
    (s.refuse c n).therm = s.therm ∧ (s.refuse c n).clk = s.clk ∧ (s.refuse c n).sec = s.sec ∧
    (s.refuse c n).net = s.net ∧ (s.refuse c n).out = s.out ∧ (s.refuse c n).free = s.free := by
  simp [State.refuse]

/-- `busy` completes a command. -/
@[simp] theorem State.busy_frame (s : State) (c : Cmd) :
    (s.busy c).pending = s.pending ∧ (s.busy c).misc = s.misc ∧ (s.busy c).evt = s.evt ∧ (s.busy c).mem = s.mem ∧
    (s.busy c).cross = s.cross ∧ (s.busy c).yard = s.yard ∧ (s.busy c).msix = s.msix ∧ (s.busy c).troughs = s.troughs ∧
    (s.busy c).stalls = s.stalls ∧ (s.busy c).ulink = s.ulink ∧ (s.busy c).uswp = s.uswp ∧ (s.busy c).uint = s.uint ∧
    (s.busy c).ucal = s.ucal ∧ (s.busy c).uest = s.uest ∧ (s.busy c).integ = s.integ ∧ (s.busy c).sleep = s.sleep ∧
    (s.busy c).est = s.est ∧ (s.busy c).estr = s.estr ∧ (s.busy c).strs = s.strs ∧ (s.busy c).trips = s.trips ∧
    (s.busy c).pub = s.pub ∧ (s.busy c).halter = s.halter ∧ (s.busy c).clocks = s.clocks ∧ (s.busy c).swc = s.swc ∧
    (s.busy c).swctl = s.swctl ∧ (s.busy c).wb = s.wb ∧ (s.busy c).cal = s.cal ∧ (s.busy c).strcal = s.strcal ∧
    (s.busy c).stb = s.stb ∧ (s.busy c).pairs = s.pairs ∧ (s.busy c).pctl = s.pctl ∧ (s.busy c).pwr = s.pwr ∧
    (s.busy c).isl = s.isl ∧ (s.busy c).ret = s.ret ∧ (s.busy c).therm = s.therm ∧ (s.busy c).clk = s.clk ∧
    (s.busy c).sec = s.sec ∧ (s.busy c).net = s.net ∧ (s.busy c).out = s.out ∧ (s.busy c).free = s.free := by
  simp [State.busy]

/-- `authFail` completes a command and sets its event. -/
@[simp] theorem State.authFail_frame (s : State) (c : Cmd) :
    (s.authFail c).pending = s.pending ∧ (s.authFail c).misc = s.misc ∧ (s.authFail c).mem = s.mem ∧
    (s.authFail c).cross = s.cross ∧ (s.authFail c).yard = s.yard ∧ (s.authFail c).msix = s.msix ∧
    (s.authFail c).troughs = s.troughs ∧ (s.authFail c).stalls = s.stalls ∧ (s.authFail c).ulink = s.ulink ∧
    (s.authFail c).uswp = s.uswp ∧ (s.authFail c).uint = s.uint ∧ (s.authFail c).ucal = s.ucal ∧
    (s.authFail c).uest = s.uest ∧ (s.authFail c).integ = s.integ ∧ (s.authFail c).sleep = s.sleep ∧
    (s.authFail c).est = s.est ∧ (s.authFail c).estr = s.estr ∧ (s.authFail c).strs = s.strs ∧
    (s.authFail c).trips = s.trips ∧ (s.authFail c).pub = s.pub ∧ (s.authFail c).halter = s.halter ∧
    (s.authFail c).clocks = s.clocks ∧ (s.authFail c).swc = s.swc ∧ (s.authFail c).swctl = s.swctl ∧
    (s.authFail c).wb = s.wb ∧ (s.authFail c).cal = s.cal ∧ (s.authFail c).strcal = s.strcal ∧
    (s.authFail c).stb = s.stb ∧ (s.authFail c).pairs = s.pairs ∧ (s.authFail c).pctl = s.pctl ∧
    (s.authFail c).pwr = s.pwr ∧ (s.authFail c).isl = s.isl ∧ (s.authFail c).ret = s.ret ∧
    (s.authFail c).therm = s.therm ∧ (s.authFail c).clk = s.clk ∧ (s.authFail c).sec = s.sec ∧
    (s.authFail c).net = s.net ∧ (s.authFail c).out = s.out ∧ (s.authFail c).free = s.free := by
  simp [State.authFail]

/-- Completing several commands changes the ring pairs and the host interface. -/
@[simp] theorem State.completeAll_frame (s : State) (cs : List Cmd) (x : BitVec 8) (r : BitVec 128) :
    (s.completeAll cs x r).pending = s.pending ∧ (s.completeAll cs x r).misc = s.misc ∧
    (s.completeAll cs x r).evt = s.evt ∧ (s.completeAll cs x r).mem = s.mem ∧ (s.completeAll cs x r).cross = s.cross ∧
    (s.completeAll cs x r).yard = s.yard ∧ (s.completeAll cs x r).msix = s.msix ∧
    (s.completeAll cs x r).troughs = s.troughs ∧ (s.completeAll cs x r).stalls = s.stalls ∧
    (s.completeAll cs x r).ulink = s.ulink ∧ (s.completeAll cs x r).uswp = s.uswp ∧
    (s.completeAll cs x r).uint = s.uint ∧ (s.completeAll cs x r).ucal = s.ucal ∧ (s.completeAll cs x r).uest = s.uest ∧
    (s.completeAll cs x r).integ = s.integ ∧ (s.completeAll cs x r).sleep = s.sleep ∧
    (s.completeAll cs x r).est = s.est ∧ (s.completeAll cs x r).estr = s.estr ∧ (s.completeAll cs x r).strs = s.strs ∧
    (s.completeAll cs x r).trips = s.trips ∧ (s.completeAll cs x r).pub = s.pub ∧
    (s.completeAll cs x r).halter = s.halter ∧ (s.completeAll cs x r).clocks = s.clocks ∧
    (s.completeAll cs x r).swc = s.swc ∧ (s.completeAll cs x r).swctl = s.swctl ∧ (s.completeAll cs x r).wb = s.wb ∧
    (s.completeAll cs x r).cal = s.cal ∧ (s.completeAll cs x r).strcal = s.strcal ∧ (s.completeAll cs x r).stb = s.stb ∧
    (s.completeAll cs x r).pairs = s.pairs ∧ (s.completeAll cs x r).pctl = s.pctl ∧ (s.completeAll cs x r).pwr = s.pwr ∧
    (s.completeAll cs x r).isl = s.isl ∧ (s.completeAll cs x r).ret = s.ret ∧ (s.completeAll cs x r).therm = s.therm ∧
    (s.completeAll cs x r).clk = s.clk ∧ (s.completeAll cs x r).sec = s.sec ∧ (s.completeAll cs x r).net = s.net ∧
    (s.completeAll cs x r).out = s.out ∧ (s.completeAll cs x r).free = s.free := by
  unfold State.completeAll
  induction cs generalizing s with
  | nil => simp
  | cons c cs ih => have h := ih (s.complete c x r); simpa using h

/-- A command that begins to execute changes the host interface. -/
@[simp] theorem State.executing_frame (s : State) (c : Cmd) :
    (s.executing c).pending = s.pending ∧ (s.executing c).misc = s.misc ∧ (s.executing c).evt = s.evt ∧
    (s.executing c).mem = s.mem ∧ (s.executing c).cross = s.cross ∧ (s.executing c).yard = s.yard ∧
    (s.executing c).rings = s.rings ∧ (s.executing c).msix = s.msix ∧ (s.executing c).troughs = s.troughs ∧
    (s.executing c).stalls = s.stalls ∧ (s.executing c).ulink = s.ulink ∧ (s.executing c).uswp = s.uswp ∧
    (s.executing c).uint = s.uint ∧ (s.executing c).ucal = s.ucal ∧ (s.executing c).uest = s.uest ∧
    (s.executing c).integ = s.integ ∧ (s.executing c).sleep = s.sleep ∧ (s.executing c).est = s.est ∧
    (s.executing c).estr = s.estr ∧ (s.executing c).strs = s.strs ∧ (s.executing c).trips = s.trips ∧
    (s.executing c).pub = s.pub ∧ (s.executing c).halter = s.halter ∧ (s.executing c).clocks = s.clocks ∧
    (s.executing c).swc = s.swc ∧ (s.executing c).swctl = s.swctl ∧ (s.executing c).wb = s.wb ∧
    (s.executing c).cal = s.cal ∧ (s.executing c).strcal = s.strcal ∧ (s.executing c).stb = s.stb ∧
    (s.executing c).pairs = s.pairs ∧ (s.executing c).pctl = s.pctl ∧ (s.executing c).pwr = s.pwr ∧
    (s.executing c).isl = s.isl ∧ (s.executing c).ret = s.ret ∧ (s.executing c).therm = s.therm ∧
    (s.executing c).clk = s.clk ∧ (s.executing c).sec = s.sec ∧ (s.executing c).net = s.net ∧
    (s.executing c).out = s.out ∧ (s.executing c).free = s.free := by and_intros <;> rfl

/-- A vector changes its pending bit, or what has left the device. -/
@[simp] theorem State.sendVector_frame (s : State) (v : Fin 32) :
    (s.sendVector v).pending = s.pending ∧ (s.sendVector v).misc = s.misc ∧ (s.sendVector v).evt = s.evt ∧
    (s.sendVector v).mem = s.mem ∧ (s.sendVector v).cross = s.cross ∧ (s.sendVector v).yard = s.yard ∧
    (s.sendVector v).hif = s.hif ∧ (s.sendVector v).rings = s.rings ∧ (s.sendVector v).troughs = s.troughs ∧
    (s.sendVector v).stalls = s.stalls ∧ (s.sendVector v).ulink = s.ulink ∧ (s.sendVector v).uswp = s.uswp ∧
    (s.sendVector v).uint = s.uint ∧ (s.sendVector v).ucal = s.ucal ∧ (s.sendVector v).uest = s.uest ∧
    (s.sendVector v).integ = s.integ ∧ (s.sendVector v).sleep = s.sleep ∧ (s.sendVector v).est = s.est ∧
    (s.sendVector v).estr = s.estr ∧ (s.sendVector v).strs = s.strs ∧ (s.sendVector v).trips = s.trips ∧
    (s.sendVector v).pub = s.pub ∧ (s.sendVector v).halter = s.halter ∧ (s.sendVector v).clocks = s.clocks ∧
    (s.sendVector v).swc = s.swc ∧ (s.sendVector v).swctl = s.swctl ∧ (s.sendVector v).wb = s.wb ∧
    (s.sendVector v).cal = s.cal ∧ (s.sendVector v).strcal = s.strcal ∧ (s.sendVector v).stb = s.stb ∧
    (s.sendVector v).pairs = s.pairs ∧ (s.sendVector v).pctl = s.pctl ∧ (s.sendVector v).pwr = s.pwr ∧
    (s.sendVector v).isl = s.isl ∧ (s.sendVector v).ret = s.ret ∧ (s.sendVector v).therm = s.therm ∧
    (s.sendVector v).clk = s.clk ∧ (s.sendVector v).sec = s.sec ∧ (s.sendVector v).net = s.net ∧
    (s.sendVector v).free = s.free := by
  unfold State.sendVector; dsimp only; split <;> simp

/-- The event interrupt changes a pending bit, or what has left the device. -/
@[simp] theorem eventInterrupt_frame (b s : State) :
    (eventInterrupt b s).pending = s.pending ∧ (eventInterrupt b s).misc = s.misc ∧ (eventInterrupt b s).evt = s.evt ∧
    (eventInterrupt b s).mem = s.mem ∧ (eventInterrupt b s).cross = s.cross ∧ (eventInterrupt b s).yard = s.yard ∧
    (eventInterrupt b s).hif = s.hif ∧ (eventInterrupt b s).rings = s.rings ∧ (eventInterrupt b s).troughs = s.troughs ∧
    (eventInterrupt b s).stalls = s.stalls ∧ (eventInterrupt b s).ulink = s.ulink ∧ (eventInterrupt b s).uswp = s.uswp ∧
    (eventInterrupt b s).uint = s.uint ∧ (eventInterrupt b s).ucal = s.ucal ∧ (eventInterrupt b s).uest = s.uest ∧
    (eventInterrupt b s).integ = s.integ ∧ (eventInterrupt b s).sleep = s.sleep ∧ (eventInterrupt b s).est = s.est ∧
    (eventInterrupt b s).estr = s.estr ∧ (eventInterrupt b s).strs = s.strs ∧ (eventInterrupt b s).trips = s.trips ∧
    (eventInterrupt b s).pub = s.pub ∧ (eventInterrupt b s).halter = s.halter ∧ (eventInterrupt b s).clocks = s.clocks ∧
    (eventInterrupt b s).swc = s.swc ∧ (eventInterrupt b s).swctl = s.swctl ∧ (eventInterrupt b s).wb = s.wb ∧
    (eventInterrupt b s).cal = s.cal ∧ (eventInterrupt b s).strcal = s.strcal ∧ (eventInterrupt b s).stb = s.stb ∧
    (eventInterrupt b s).pairs = s.pairs ∧ (eventInterrupt b s).pctl = s.pctl ∧ (eventInterrupt b s).pwr = s.pwr ∧
    (eventInterrupt b s).isl = s.isl ∧ (eventInterrupt b s).ret = s.ret ∧ (eventInterrupt b s).therm = s.therm ∧
    (eventInterrupt b s).clk = s.clk ∧ (eventInterrupt b s).sec = s.sec ∧ (eventInterrupt b s).net = s.net ∧
    (eventInterrupt b s).free = s.free := by
  unfold eventInterrupt; dsimp only; split <;> simp

/-- What a meaning answers is a next state. -/
theorem answer_next (b s : State) : answer b s = .next (eventInterrupt b s) := rfl

end Sys2Proof.Machine
end

