-- ==== Sys2Proof/Laws/Command.lean ====
section
/-! SUPPORT. What the execution and the completion of a submitted command do, said once. -/

namespace Sys2Proof.Machine

/-- A change that leaves what `EVT_SUM` sums sends nothing. -/
theorem eventInterrupt_same {b s : State} (h : evtSum s.evt = evtSum b.evt) : eventInterrupt b s = s := by
  simp [eventInterrupt, h]

theorem executing_flight (s : State) (c : Cmd) :
    (s.executing c).hif.flight c.stamp = (s.hif.flight c.stamp).map (fun f => { f with stage := .executing }) := by
  unfold State.executing Hif.flight
  simp only [List.find?_map]
  have h : ((fun f : Flight => f.cmd.stamp == c.stamp) ∘
      fun f => if f.cmd.stamp == c.stamp then { f with stage := .executing } else f) =
      fun f : Flight => f.cmd.stamp == c.stamp := by
    funext f
    simp only [Function.comp_apply]
    split <;> rfl
  rw [h]
  cases hf : s.hif.flights.find? (fun f => f.cmd.stamp == c.stamp) with
  | none => simp
  | some f =>
    have hs : f.cmd.stamp = c.stamp := by simpa using List.find?_some (p := fun f : Flight => f.cmd.stamp == c.stamp) hf
    simp [hs]

/-- A flight that executes already stays as it is. -/
theorem executing_flight_same {s : State} {c : Cmd} {f : Flight} (h : Executing s c f) :
    (s.executing c).hif.flight c.stamp = some f := by
  rw [executing_flight, h.flight]
  cases f with
  | mk cmd op deps stage done =>
    have hg := h.going
    simp_all

/-- A command in flight that executes does what its meaning says. -/
theorem run_executing {s : State} {c : Cmd} {f : Flight} (h : Executing s c f) (r : Bool) (body : State → State) :
    s.run c r body = body (s.executing c) := by
  have hw : s.waits c = false := by simp [State.waits, h.flight, h.going]
  simp [State.run, hw, h.normal]

theorem find_filter_ne {fs : List Flight} {x : BitVec 32} :
    (fs.filter (fun g => g.cmd.stamp != x)).find? (fun f => f.cmd.stamp == x) = none := by
  simp [List.find?_eq_none]

@[simp] theorem executing_tracked (s : State) (c : Cmd) (x : BitVec 32) :
    (s.executing c).hif.tracked x = s.hif.tracked x := rfl

/-- The final completion of a command in flight, whatever else its meaning changed before. -/
theorem complete_completes {b s s' : State} {c : Cmd} {f : Flight} (h : Executing s c f)
    (hr : s'.rings = s.rings) (hh : s'.hif = (s.executing c).hif) (hn : s'.clk.ytime = s.clk.ytime)
    (x : BitVec 8) (r : BitVec 128) : Completes s (eventInterrupt b (s'.complete c x r)) c f x r := by
  have hfl : s'.hif.flight c.stamp = some f := by rw [hh]; exact executing_flight_same h
  have hring : f.cmd.ring = c.ring := by rw [h.same]
  have hd : (s'.rings.at c.ring).discard = false := by rw [hr]; exact h.kept
  have hst : (s'.rings.at c.ring).st ≠ .disabled := by rw [hr]; exact h.enabled
  have ht : s'.hif.tracked c.stamp = true := by rw [hh]; exact h.tracked
  have hsame := h.same
  subst hsame
  have hpost : s'.post f.cmd f.opcode x r true false =
      { s'.onRing f.cmd.ring (fun r' => { r' with trough := r'.trough ++
          [{ tag := f.cmd.tag, status := x, opcode := f.opcode, stamp := f.cmd.stamp, result := r,
             ctime := BitVec.ofNat 32 s'.now, final := true, gap := false, noIrq := f.cmd.noIrq }] }) with
        hif := { s'.hif with activeAt := s'.now, pollGap := 0, dueAt := min s'.hif.dueAt (s'.now + 128) } } := by
    unfold State.post; simp [hd, hst]
  have htr : ∀ h' : Hif, h'.issued = s'.hif.issued → h'.tracked f.cmd.stamp = true := by
    intro h' e; simpa [Hif.tracked, Hif.age, Hif.stampNext, e] using ht
  refine ⟨?_, ?_, ?_⟩
  · simp only [eventInterrupt_frame, State.complete, hfl, hpost]
    unfold State.refreshEligible
    simp only [Bank.at_each]
    split <;> simp [hr, State.now, hn]
  · simp only [eventInterrupt_frame, State.complete, hfl, hpost, State.refreshEligible_frame]
    unfold Hif.recordFinal Hif.flight
    simp
  · simp only [eventInterrupt_frame, State.complete, hfl, hpost, State.refreshEligible_frame]
    unfold Hif.recordFinal Hif.finalOf
    simp [htr]

end Sys2Proof.Machine
end

