-- ==== Sys2Proof/Laws/Memory.lean ====
section
/-! SUPPORT. The memory operations keep the one form of a memory, a read after a write gives the byte written, and every other address reads as before. -/

namespace Sys2Proof.Machine

/-- A lower bound may sink. -/
theorem Memory.sortedFrom_weaken {m : List Host.Cell} {lo k : Nat} (h : lo ≤ k) (hm : Memory.sortedFrom (some k) m = true) :
    Memory.sortedFrom (some lo) m = true := by
  cases m with
  | nil => rfl
  | cons p m =>
    obtain ⟨a, b⟩ := p
    simp only [Memory.sortedFrom, Bool.and_eq_true, decide_eq_true_eq] at hm ⊢
    exact ⟨⟨by omega, hm.1.2⟩, hm.2⟩

/-- A memory in its form lists nothing at or below its bound. -/
theorem Memory.read_below {m : List Host.Cell} {lo a : Nat} (hm : Memory.sortedFrom (some lo) m = true) (h : a ≤ lo) :
    Memory.read m a = Memory.blank := by
  induction m generalizing lo with
  | nil => rfl
  | cons p m ih =>
    obtain ⟨k, b⟩ := p
    simp only [Memory.sortedFrom, Bool.and_eq_true, decide_eq_true_eq] at hm
    rw [Memory.read, if_neg (by omega)]
    exact ih hm.2 (by omega)

/-- A byte that is not blank may stand first, above the bound and below the rest. -/
theorem Memory.above {lo : Option Nat} {a : Nat} {b : Byte} {m : List Host.Cell} (h : ∀ l, lo = some l → l < a) (hb : b ≠ Memory.blank)
    (hm : Memory.sortedFrom (some a) m = true) : Memory.sortedFrom lo ((a, b) :: m) = true := by
  cases lo with
  | none => simp [Memory.sortedFrom, hb, hm]
  | some l => simp [Memory.sortedFrom, hb, hm, h l rfl]

/-- A form above a bound is a form. -/
theorem Memory.wf_of_sortedFrom {m : List Host.Cell} {lo : Option Nat} (h : Memory.sortedFrom lo m = true) : Memory.wf m = true := by
  cases m with
  | nil => rfl
  | cons p m =>
    obtain ⟨k, c⟩ := p
    simp only [Memory.wf, Memory.sortedFrom, Bool.and_eq_true, decide_eq_true_eq] at h ⊢
    exact ⟨⟨trivial, h.1.2⟩, h.2⟩

/-- A write above a lower bound keeps the form above that bound. -/
theorem Memory.sortedFrom_write {m : List Host.Cell} {lo : Option Nat} {a : Nat} {b : Byte}
    (hm : Memory.sortedFrom lo m = true) (ha : ∀ l, lo = some l → l < a) : Memory.sortedFrom lo (Memory.write m a b) = true := by
  induction m generalizing lo with
  | nil =>
    simp only [Memory.write]
    split
    · rfl
    · next hb => exact Memory.above ha hb rfl
  | cons p m ih =>
    obtain ⟨k, c⟩ := p
    simp only [Memory.sortedFrom, Bool.and_eq_true, decide_eq_true_eq] at hm
    simp only [Memory.write]
    split
    · next hk =>
      split
      · simp only [Memory.sortedFrom, Bool.and_eq_true, decide_eq_true_eq]; exact hm
      · next hb =>
        refine Memory.above ha hb ?_
        simp only [Memory.sortedFrom, Bool.and_eq_true, decide_eq_true_eq]
        exact ⟨⟨hk, hm.1.2⟩, hm.2⟩
    · next hk =>
      split
      · next he =>
        subst he
        split
        · cases lo with
          | none => exact Memory.wf_of_sortedFrom hm.2
          | some l => exact Memory.sortedFrom_weaken (Nat.le_of_lt (ha l rfl)) hm.2
        · next hb =>
          exact Memory.above ha hb hm.2
      · next he =>
        have h' : k < a := by omega
        simp only [Memory.sortedFrom, Bool.and_eq_true, decide_eq_true_eq]
        exact ⟨hm.1, ih hm.2 (fun l hl => by cases hl; exact h')⟩

/-- A write keeps the one form. -/
theorem Memory.wf_write {m : List Host.Cell} (a : Nat) (b : Byte) (h : Memory.wf m = true) : Memory.wf (Memory.write m a b) = true :=
  Memory.sortedFrom_write h (fun l hl => by cases hl)

/-- So does a write of several bytes. -/
theorem Memory.wf_writeBytes (bs : List Byte) : ∀ (m : List Host.Cell) (a : Nat), Memory.wf m = true →
    Memory.wf (Memory.writeBytes m a bs) = true := by
  induction bs with
  | nil => intro m a h; exact h
  | cons b bs ih => intro m a h; exact ih _ _ (Memory.wf_write a b h)

/-- Reset memory has the form. -/
theorem reset_memory_wf : Memory.wf State.reset.mem.sram = true ∧ Memory.wf State.reset.mem.mram = true := by decide

/-- A write leaves every other address alone. -/
theorem Memory.read_write_ne (m : List Host.Cell) {a c : Nat} (b : Byte) (h : c ≠ a) : Memory.read (Memory.write m a b) c = Memory.read m c := by
  induction m with
  | nil => simp only [Memory.write]; split <;> simp [Memory.read, Ne.symm h]
  | cons p m ih =>
    obtain ⟨k, d⟩ := p
    simp only [Memory.write]
    split
    · split
      · rfl
      · rw [Memory.read, if_neg (Ne.symm h)]
    · split
      · next he =>
        subst he
        split <;> simp [Memory.read, Ne.symm h]
      · simp only [Memory.read, ih]

/-- A read after a write to the same address gives the byte written. -/
theorem Memory.read_write_self {m : List Host.Cell} (a : Nat) (b : Byte) {lo : Option Nat} (hm : Memory.sortedFrom lo m = true) :
    Memory.read (Memory.write m a b) a = b := by
  induction m generalizing lo with
  | nil =>
    simp only [Memory.write]
    split
    · next hb => rw [hb]; rfl
    · simp [Memory.read]
  | cons p m ih =>
    obtain ⟨k, c⟩ := p
    simp only [Memory.sortedFrom, Bool.and_eq_true, decide_eq_true_eq] at hm
    simp only [Memory.write]
    split
    · next hk =>
      split
      · next hb => rw [Memory.read, if_neg (by omega), hb]; exact Memory.read_below hm.2 (by omega)
      · simp [Memory.read]
    · split
      · next he =>
        split
        · next hb => rw [hb]; exact Memory.read_below hm.2 (by omega)
        · simp [Memory.read]
      · next he => rw [Memory.read, if_neg (by omega)]; exact ih hm.2

/-- Several bytes written leave every address outside them alone. -/
theorem Memory.read_writeBytes_outside (bs : List Byte) : ∀ (m : List Host.Cell) (a c : Nat), (c < a ∨ a + bs.length ≤ c) →
    Memory.read (Memory.writeBytes m a bs) c = Memory.read m c := by
  induction bs with
  | nil => intro m a c _; rfl
  | cons b bs ih =>
    intro m a c h
    simp only [List.length_cons] at h
    rw [Memory.writeBytes, ih _ _ _ (by omega), Memory.read_write_ne _ _ (by omega)]

/-- Several bytes read after they were written. -/
theorem Memory.read_writeBytes_inside (bs : List Byte) : ∀ (m : List Host.Cell) (a i : Nat), Memory.wf m = true → i < bs.length →
    Memory.read (Memory.writeBytes m a bs) (a + i) = bs.getD i 0 := by
  induction bs with
  | nil => intro m a i _ h; simp at h
  | cons b bs ih =>
    intro m a i hm h
    rw [Memory.writeBytes]
    cases i with
    | zero =>
      rw [Memory.read_writeBytes_outside _ _ _ _ (by omega)]
      exact Memory.read_write_self a b hm
    | succ i =>
      rw [show a + (i + 1) = a + 1 + i by omega, ih _ _ _ (Memory.wf_write a b hm) (by simpa using h)]
      simp

end Sys2Proof.Machine
end

