-- ==== Sys2Proof/Laws/Packages.lean ====
section
/-! SUPPORT. Lengths of digests, and packages whose signature verifies: the witnesses of the tests use them. The key is the encoding of the neutral point, for which one signature fits every message. -/

namespace Sys2Proof.Laws

open Sys2Proof.Machine

/-- A point of the shape of the neutral point. -/
def Neutral (q : Ed.Point) : Prop := q.x = 0 ∧ q.t = 0 ∧ q.y = q.z

theorem neutral_add {a b : Ed.Point} (ha : Neutral a) (hb : Neutral b) : Neutral (Ed.add a b) := by
  obtain ⟨a1, a2, a3⟩ := ha
  obtain ⟨b1, b2, b3⟩ := hb
  have e : (a.y + Ed.p) * (b.y + Ed.p) % Ed.p = a.y * b.y % Ed.p := by
    rw [Nat.mul_mod, Nat.add_mod_right, Nat.add_mod_right, ← Nat.mul_mod]
  have d : a.z * 2 * b.z % Ed.p = (a.y * b.y % Ed.p + a.y * b.y % Ed.p) % Ed.p := by
    rw [← Nat.add_mod, ← a3, ← b3, Nat.mul_right_comm, Nat.mul_two]
  simp only [Neutral, Ed.add, a1, a2, b1, Nat.sub_zero, Nat.add_zero, Nat.zero_mul, Nat.zero_mod]
  rw [e, show a.y * b.y % Ed.p + Ed.p - a.y * b.y % Ed.p = Ed.p by omega, d]
  generalize a.y * b.y % Ed.p + a.y * b.y % Ed.p = h
  refine ⟨Nat.mul_mod_right _ _, Nat.mul_mod_right _ _, ?_⟩
  rw [Nat.mul_comm (h % Ed.p + Ed.p), Nat.mul_mod, Nat.mul_mod (h % Ed.p) (h % Ed.p + Ed.p), Nat.add_mod_right, Nat.mod_mod]

theorem neutral_mul (n : Nat) : ∀ (k : Nat) (q : Ed.Point), Neutral q → Neutral (Ed.mul n k q) := by
  induction n with
  | zero => intro k q _; exact ⟨rfl, rfl, rfl⟩
  | succ n ih =>
    intro k q h
    simp only [Ed.mul]
    split
    · exact neutral_add h (ih _ _ (neutral_add h h))
    · exact ih _ _ (neutral_add h h)

theorem mul_zero (n : Nat) : ∀ q : Ed.Point, Ed.mul n 0 q = Ed.zero := by
  induction n with
  | zero => intro q; rfl
  | succ n ih => intro q; simpa [Ed.mul] using ih _

theorem neutral_same {a b : Ed.Point} (ha : Neutral a) (hb : Neutral b) : Ed.same a b = true := by
  obtain ⟨a1, _, a3⟩ := ha
  obtain ⟨b1, _, b3⟩ := hb
  simp [Ed.same, a1, b1, a3, b3, Nat.mul_comm]

/-- The encoding of the neutral point, as a key. -/
def key : BitVec 256 := 1

/-- The signature that fits every message under that key. -/
def sig : List Byte := leBytes 32 1 ++ leBytes 32 0

theorem signed (msg : List Byte) : signedBy (some key) msg sig = true := by
  have h1 : Ed.decode (leBytes 32 key.toNat) = some Ed.zero := by decide +kernel
  have h2 : Ed.decode (sig.take 32) = some Ed.zero := by decide +kernel
  have h3 : leNat (slice sig 32 32) = 0 := by decide +kernel
  have h4 : (0 : Nat) < Ed.order := by decide +kernel
  simp only [signedBy, Ed.verify, h1, h2, h3, h4, decide_true, Bool.true_and, Nat.mul_zero, mul_zero]
  exact neutral_same ⟨rfl, rfl, rfl⟩
    (neutral_add (neutral_mul _ _ _ ⟨rfl, rfl, rfl⟩) (neutral_mul _ _ _ ⟨rfl, rfl, rfl⟩))

theorem leBytes_length (n : Nat) : ∀ v, (leBytes n v).length = n := by
  induction n with
  | zero => intro v; rfl
  | succ n ih => intro v; simp [leBytes, ih]

theorem round_length {v : List (BitVec 64)} (w k : BitVec 64) (h : v.length = 8) : (sha512Round v w k).length = 8 := by
  unfold sha512Round
  split
  · rfl
  · simpa using h

theorem rounds_length (ks : List (BitVec 64)) : ∀ (ws last v : List (BitVec 64)), v.length = 8 →
    (sha512Rounds ks ws last v).length = 8 := by
  induction ks with
  | nil => intro ws last v h; simpa [sha512Rounds] using h
  | cons k ks ih =>
    intro ws last v h
    cases ws with
    | nil => simp only [sha512Rounds]; exact ih _ _ _ (round_length _ _ h)
    | cons w ws => simp only [sha512Rounds]; exact ih _ _ _ (round_length _ _ h)

theorem block_length {h : List (BitVec 64)} (b : List Byte) (e : h.length = 8) : (sha512Block h b).length = 8 := by
  simp [sha512Block, e, rounds_length _ _ _ _ e]

theorem blocks_length (f : Nat → List Byte) (l : List Nat) : ∀ h : List (BitVec 64), h.length = 8 →
    (l.foldl (fun h i => sha512Block h (f i)) h).length = 8 := by
  induction l with
  | nil => intro h e; simpa using e
  | cons i l ih => intro h e; exact ih _ (block_length _ e)

theorem digest_length (m : List Byte) : (sha512 m).length = 64 := by
  have h := blocks_length (fun i => slice (sha512Pad m) (128 * i) 128) (List.range ((sha512Pad m).length / 128)) sha512H0 rfl
  have g (w : BitVec 64) : (beBytes 8 w.toNat).length = 8 := by rw [beBytes, List.length_reverse, leBytes_length]
  unfold sha512
  rw [List.length_flatMap]
  rw [show (fun a : BitVec 64 => (beBytes 8 a.toNat).length) = fun _ => 8 from funext g, List.map_const', List.sum_replicate_nat, h]

theorem devDigest_length : devDigest.length = 8 := by simp [devDigest, digest_length]

/-- A package with that signature. -/
def pkg (kind seq : Nat) (body : List Byte) : List Byte :=
  (leBytes 4 kind ++ leBytes 4 seq ++ devDigest ++ body) ++ sig

theorem sig_length : sig.length = 64 := by decide +kernel

theorem pkg_length (kind seq : Nat) (body : List Byte) : (pkg kind seq body).length = 80 + body.length := by
  simp [pkg, leBytes_length, devDigest_length, sig_length]; omega

theorem pkg_signed (kind seq : Nat) (body : List Byte) : packageSigned (some key) (pkg kind seq body) = true := by
  have h : (pkg kind seq body).length - 64 = (leBytes 4 kind ++ leBytes 4 seq ++ devDigest ++ body).length := by
    rw [pkg, List.length_append, sig_length]; omega
  rw [packageSigned, h]
  unfold pkg
  rw [List.take_left, List.drop_left]
  exact signed _

theorem pkg_drop (kind seq : Nat) (body : List Byte) : (pkg kind seq body).drop 16 = body ++ sig := by
  have : (leBytes 4 kind ++ leBytes 4 seq ++ devDigest).length = 16 := by simp [leBytes_length, devDigest_length]
  rw [← this]; unfold pkg; rw [List.append_assoc _ body]; exact List.drop_left

theorem pkg_drop_from (kind seq : Nat) (body : List Byte) (off : Nat) (h : 16 ≤ off) :
    (pkg kind seq body).drop off = (body ++ sig).drop (off - 16) := by
  rw [← pkg_drop kind seq body, List.drop_drop, Nat.add_sub_cancel' h]

theorem field_from (kind seq : Nat) (body : List Byte) (off n : Nat) (h : 16 ≤ off) :
    field (pkg kind seq body) off n = field (body ++ sig) (off - 16) n := by
  rw [field, pkg_drop_from _ _ _ _ h, field]

theorem zero_from (kind seq : Nat) (body : List Byte) (lo hi : Nat) (h : 16 ≤ lo) (h' : lo ≤ hi) :
    zeroBytes (pkg kind seq body) lo hi = zeroBytes (body ++ sig) (lo - 16) (hi - 16) := by
  rw [zeroBytes, zeroBytes, pkg_drop_from _ _ _ _ h, show hi - lo = hi - 16 - (lo - 16) by omega]

theorem pkg_kind (kind seq : Nat) (body : List Byte) : field (pkg kind seq body) 0 4 = leNat (leBytes 4 kind) := by
  have h : (leBytes 4 kind).length = 4 := leBytes_length _ _
  rw [field, List.drop_zero]
  unfold pkg
  rw [List.append_assoc, List.append_assoc, List.append_assoc, List.take_left' h]

theorem pkg_seq (kind seq : Nat) (body : List Byte) : field (pkg kind seq body) 4 4 = leNat (leBytes 4 seq) := by
  have h : (leBytes 4 kind).length = 4 := leBytes_length _ _
  have h' : (leBytes 4 seq).length = 4 := leBytes_length _ _
  rw [field]
  unfold pkg
  rw [List.append_assoc, List.append_assoc, List.append_assoc]
  rw [List.drop_left' h, List.take_left' h']

theorem pkg_head (kind seq : Nat) (body : List Byte) (h : leNat (leBytes 4 kind) = kind) :
    packageHead kind (pkg kind seq body) = true := by
  have e : (leBytes 4 kind ++ leBytes 4 seq).length = 8 := by simp [leBytes_length]
  rw [packageHead, pkg_kind, h]
  unfold pkg
  rw [List.append_assoc, List.append_assoc]
  rw [List.drop_left' e, List.take_left' devDigest_length]
  simp

theorem getD_from (p q : List Byte) (h : p.drop 16 = q.drop 16) (off : Nat) (e : 16 ≤ off) : p.getD off 0 = q.getD off 0 := by
  have g (l : List Byte) : l.getD off 0 = (l.drop 16).getD (off - 16) 0 := by
    rw [List.getD_eq_getElem?_getD, List.getD_eq_getElem?_getD, List.getElem?_drop, Nat.add_sub_cancel' e]
  rw [g p, g q, h]

theorem field_eq_from (p q : List Byte) (h : p.drop 16 = q.drop 16) (off n : Nat) (e : 16 ≤ off) : field p off n = field q off n := by
  have g (l : List Byte) : l.drop off = (l.drop 16).drop (off - 16) := by rw [List.drop_drop, Nat.add_sub_cancel' e]
  rw [field, field, g p, g q, h]

/-- The roster entries of a package depend only on what follows its head. -/
theorem roster_pkg (kind seq : Nat) (body : List Byte) :
    rosterEntries (pkg kind seq body) = rosterEntries (List.replicate 16 0 ++ (body ++ sig)) := by
  have h : (pkg kind seq body).drop 16 = (List.replicate 16 (0 : Byte) ++ (body ++ sig)).drop 16 := by
    rw [pkg_drop, List.drop_left' (by simp)]
  unfold rosterEntries
  rw [field_eq_from _ _ h 0x10 4 (by decide)]
  refine congrArg (fun f => List.flatMap f _) (funext fun p => congrArg (fun f => List.map f (places 4)) (funext fun k => ?_))
  unfold rosterEntry
  simp only []
  rw [getD_from _ _ h _ (by omega), getD_from _ _ h _ (by omega), field_eq_from _ _ h _ _ (by omega)]

end Sys2Proof.Laws
end

