-- ==== Sys2Proof/WellFormed.lean ====
section
/-! DEFINITION. Which commands are well formed: the operands whose Lean type is wider than what the manual lets the command carry. A meaning does not rely on it. -/

namespace Sys2Proof

/-- The offsets of the seven selectors (19, index). -/
def selectorOffset (off : BitVec 16) : Bool := [0x0800, 0x0C00, 0x1000, 0x1004, 0x1C00, 0x2000, 0x3400].contains off.toNat

/-- BAR2 belongs to the host (02 R43, R46). -/
def barOf (view : View) (bar : Bar) : Bool := view == .host || bar == .bar0

/-- A stream record names its length in words, and its type is one that the troughs carry (02 R77). -/
def TroughRec.wf (r : TroughRec) : Bool :=
  match r.words with
  | [] => false
  | w :: _ => (w.extractLsb' 16 8).toNat == r.words.length && decide (1 ≤ (w.extractLsb' 0 8).toNat ∧ (w.extractLsb' 0 8).toNat ≤ 3)

/-- A package or the data of IMAGE_WRITE (18 R459, R460). -/
def packageFits (bytes : List Byte) : Bool := decide (bytes.length ≤ 65536)

/-- The string or input, or 0, that a cause detail stands on (08 R250). -/
def Detail.place (d : Detail) (w : Fin 16) : Bool :=
  match d with
  | .tripOv | .tripUv | .tripOt | .tripOc | .isoFault | .swcTp => decide (w.val < 4)
  | .sinDemand | .sinDisc | .sinTp => decide (w.val < 8)
  | .netDemand | .hostDemand | .netLoss | .netStrikes | .hbLoss | .clock | .rstkStuck | .startup | .pair0Mismatch | .protUe | .thermal => w == 0

/-- The groups of a comparator lane (14 R385). -/
def laneGroups (lane : BitVec 2) : Nat := if lane = 0 then 5 else if lane = 2 then 10 else 6

/-- 0, or a code of the comparator test (14 R391). -/
def comparatorCodeOk (code : BitVec 8) : Bool := code == 0 || decide (0x20 ≤ code.toNat ∧ code.toNat ≤ 0x5F)

/-- A command is well formed. -/
def Instr.wf : Instr → Bool
  | .aonPowerOn _ _ _ | .hostNarrowAccess _ _ | .coreNarrowAccess _ _ | .accessFault _ _ _ => true
  | .selectorWrite _ off _ => selectorOffset off
  | .registerWrite view bar _ _ => barOf view bar
  | .shadowCaptureRead view bar _ => barOf view bar
  | .crossingDeliver _ | .clockCheckWindow _ _ | .scrubRead _ _ | .eccCntClr _ | .hostInterfaceReset _ | .busMasterEnableChange _ | .pollNudge _
  | .dbBaseWrite _ _ | .dbErrClear | .ringEnable _ _ | .ringDisable _ _ | .doorbellPoll | .doorbellReadComplete _ | .dmaErrorCompletion _ _
  | .submissionFetch | .submissionArrival _ _ | .commandDependencyResolved _ | .completionToHost _ | .coalesceTimer _ | .msixUnmask _
  | .drainComplete _ => true
  | .troughRecord _ rec => rec.wf
  | .streamRecordTransfer _ _ | .streamFlushTimer _ | .streamSamples _ | .streamImpedance _ | .streamEstimates _ | .streamStop _ | .nopAdmin _
  | .nopControl _ | .nopQuery _ | .nopStream _ | .frameEdge _ => true
  | .upstreamRecord _ rec => decide (rec.codes.length ≤ 24)
  | .upstreamWindowEnd _ | .breakDeclared _ _ | .eightFrameBoundary | .enumReplyTimeout _ | .loopbackTest _ _ | .phyFault _ | .phyFaultRecovery _
  | .balanceLeaseRefresh _ | .balanceDurationExpiry _ => true
  | .rosterAdopt _ pkg => packageFits pkg
  | .stallService _ pkg => packageFits pkg
  | .enumerate _ | .balanceSet _ | .rosterRead _ | .stallErrCntClr _ | .rateChangeApply _ | .slotListApply _ | .tripRequest _ _ | .tripKindClear _ _
  | .tripLimits _ | .sweepConfig _ | .sampleRead _ | .alignCntClr _ | .checkCycleDecide | .plausibilityEvaluation _ | .plausibilitySet _
  | .plausibilityClear _ | .openWireProbeStart | .probePulseEnd _ | .probeDecision _ | .probeRetry _ _ | .invalidAgeExpiry _ _ | .dataAgeDerate _ _
  | .dataAgeDisconnect _ _ | .currentAgeDerate _ _ | .currentAgeDisconnect _ _ | .balTestSchedule | .balTestPhaseEnd _ _ | .openWireProbe _
  | .balTest _ | .estimatorStep | .limitStaleTimeout _ | .estimatorCheckpoint _ | .lockinBlockEnd _ _ | .excitationStart _ | .excitationToggle _
  | .healthUpdate _ | .estimateStreamTick => true
  | .estConfig _ pkg => packageFits pkg
  | .estQuery _ | .stringClose _ | .stringOpen _ | .serviceMode _ | .limitsRead _ | .preCnTimeout _ | .prechargeCheckpoint _ | .prechargeTimeout _
  | .overlapTimeout _ | .openingRelease _ | .openingForcedRelease _ | .openingCnOff _ | .weldCheckTimeout _ | .weldedRelease _ | .auxInputChange _ _
  | .auxMismatch _ | .auxClosedWhileOpen _ | .contactorDipTimeout | .prechargeCauseExpiry _ | .isoPersistenceElapsed _ _ | .isoClear _ _
  | .overTempSet _ | .overTempClear _ | .serviceModeExpiry _ => true
  | .halterCauseEntry d w => d.place w
  | .lockoutWordCopy | .safetyInputChange _ _ _ | .sinTestPulse _ | .sinTestPulseJudge _ _ | .sinDiscrepancy _ | .guardProofExpiry _
  | .heartbeatWrite _ _ | .heartbeatLate | .heartbeatLoss | .telegramReceived _ _ | .telegramPairTimeout _ | .netLoss | .statusTelegram _ _
  | .closePermitExpiry _ | .contactorTestPulse _ | .contactorTestPulseEnd _ _ _ _ | .enableRefresh | .enableRefreshTimeout | .resetKeyPressStart
  | .resetKeyPressEnd _ | .rstkHeld | .rstkDisc | .resetEnable | .halterResetReq _ | .hostSafeRequest _ | .halterStartupTestsDone _ _ _ | .swcSet _ => true
  | .swcConfig _ pkg => packageFits pkg
  | .limitTimeout _ | .contactorOvercurrent _ | .thermalTrip _ | .channelRestart _ => true
  | .pullInEnd _ duty _ => decide (duty ≤ 1000)
  | .economiserUpdate _ | .dutyCompensationUpdate _ | .generalTestPulse _ | .generalTestPulseEnd _ _ | .supplyDip _ _ | .supplyRestore _ _
  | .supplyLoss _ _ | .senseGSample _ | .snsSelRead _ | .tariffTag _ | .counterSlotWrite _ | .exposureTick _ | .exposureSlotWrite | .meterStatement _
  | .healthStatement _ | .statementRelease | .yardArbitrationRound _ _ | .halterMirrorRead | .mramWriteSlot _ | .yardMaxwaitClr | .mqMaxlatClr
  | .calRoutingRenew _ | .liveRunChannelDone _ | .calGenerationSwitch _ | .driftEvaluation _ | .shuntAutoStart _ | .shuntOffsetRunEnd _
  | .shuntGainRunEnd _ | .calDeferredWrite _ | .calRun _ => true
  | .calWrite _ data => decide (data.length ≤ 4096)
  | .calRead _ | .studbookRequest _ _ _ => true
  | .recordCapture us => decide (us ≤ 200)
  | .recorderFault kind bank7 slot => decide (1 ≤ kind.toNat ∧ kind.toNat ≤ 4) && bank7 == slot.getLsbD 14
  | .refusedCountWrite => true
  | .studbookClear _ pkg => packageFits pkg
  | .studbookRead _ bad => bad.all (fun n => decide (n < 32768))
  | .lockstepMismatch _ lane group _ => decide (group.toNat < laneGroups lane)
  | .pairSelftestStart _ => true
  | .pairSelftestEnd _ result _ => decide (1 ≤ result.toNat ∧ result.toNat ≤ 5)
  | .pairStart _ _ | .pairStop _ _ | .pairDone _ | .debugHalt _ | .debugResume _ | .debugWrite _ _ _ | .jtagExtest => true
  | .debugUnlock _ pkg => packageFits pkg
  | .debugUnlockExpiry | .pairSelftest _ | .setPowerState _ | .setRunLevel _ | .setHostVeto _ | .powerAccount _ => true
  | .pwrReqState _ v => !v.getLsbD 8
  | .pwrReqLevel _ v => v.getLsbD 8
  | .pmbusAck _ | .pmbusAttemptFail _ | .pgoodLoss | .pgoodRecovery | .entryPhaseComplete | .wakeEvent _ => true
  | .wakeStepReady _ code => comparatorCodeOk code
  | .sramBlockRestore _ | .islandWakeOnAccess _ | .wakeRetry | .retCreditTick | .stabledSinScan _ | .sensorReadingCheck _ | .sensorFail _
  | .offsetLearning | .throttleLevelUpdate | .throttlePauseEnd | .comparatorVote _ | .thermalRestart | .hoursCellWrite | .rtcSet _ | .rtcAlarm
  | .periodicCheckAlarm => true
  | .boot code _ _ => comparatorCodeOk code
  | .configLoad _ pkg => packageFits pkg
  | .configRead _ => true
  | .imageWrite _ data => packageFits data
  | .imageActivate _ _ _ | .attest _ => true
  | .ownerKey _ pkg => packageFits pkg
  | .identify _ | .evtEnWrite _ | .canBusOffRecovery _ | .aonPowerLoss | .entryPhaseTimeout _ | .pairSelftestIdleTimeout | .driftRunDeferredStart _
  | .currentLimitChange _ _ | .debuggerAttach _ | .faultPinMismatch _ => true
  | .ethLinkChange _ link speed => !link || speed != 3
  | .commandDataDmaComplete _ _ => true

end Sys2Proof
end

