-- ==== Sys2Proof/Tests/Slice0.lean ====
section
/-! SUPPORT. Tests: an ill-formed command for each check of WellFormed, values of the manual, and for each statement states and operands that meet the hypotheses of each of its clauses together. -/

namespace Sys2Proof

open Sys2Proof.Machine

set_option linter.unusedVariables false
set_option Elab.async false

theorem Tests.all_of_decide {α : Type} {P : α → Prop} [DecidablePred P] {l : List α}
    (h : l.all (fun x => decide (P x)) = true) : ∀ x ∈ l, P x :=
  fun x hx => of_decide_eq_true (List.all_eq_true.mp h x hx)

/-- The running device of the tests: every island ready, an hour of yard time and of operating hours past. -/
def Tests.up : State :=
  { State.reset with
    isl := { coreA := true, coreB := true, est := true, port := Bank.fill 4 true, net := true, host := true, mem := true, tb := true, halter := true }
    clk := { State.reset.clk with ytime := 64000000 * 36000, ophMs := 4000000000, rtcTicks := 32768 * 360000 }
    hif := { State.reset.hif with busMaster := true }
    msix := Bank.fill 32 { State.reset.msix.at 0 with masked := false }
    sec := { State.reset.sec with booted := true, bootDue := false } }

/-- A submitted command with the given operand bytes. -/
def Tests.cmd (ops : Nat) : Cmd := { ring := 0, stamp := 0, tag := 7, noIrq := false, ops := BitVec.ofNat 256 ops }

/-- The command in flight. -/
def Tests.flight (ops : Nat) : Flight := { cmd := Tests.cmd ops, opcode := 0x05, deps := [], stage := .executing, dmaDone := 0 }

/-- The running device with one command in flight on ring pair 0. -/
def Tests.live (ops : Nat) : State :=
  { Tests.up with
    rings := Tests.up.rings.upd 0 (fun r => { r with st := .active })
    hif := { Tests.up.hif with issued := 1, flights := [Tests.flight ops] } }

/-- A stall at work on string 1. -/
def Tests.stall : Stall := { str := some 1, lstate := .running, known := true, found := 4, loopOk := true }

/-- An adopted unit of a type that is reached and swept. -/
def Tests.unit (type : BitVec 8) : UnitLink :=
  { foundType := type, foundId := 0x123, rosterType := type, rosterId := 0x123, outcome := 0, reached := true, sweepFrom := some 0 }

/-- A device at work: stalls 0 and 1 make up string 1, each with MC16s at positions 0 to 2 and an MP4 at position 3. -/
def Tests.withYard (s : State) : State :=
  { s with
    stalls := (s.stalls.put 0 Tests.stall).put 1 Tests.stall
    strs := s.strs.upd 1 (fun x => { x with cfg := { x.cfg with stallMask := 3 } })
    ulink := Vector.ofFn (fun u : Fin 128 => if u.val < 8 then Tests.unit (if u.val % 4 = 3 then 2 else 1) else {})
    ucal := Vector.ofFn (fun u : Fin 128 => if u.val < 8 then { entry := some [] } else {}) }

/-- The same with one command in flight. -/
def Tests.work (ops : Nat) : State := Tests.withYard (Tests.live ops)

/-- A unit entry: gain 1 and offset 0 of the first two inputs, references of 1 µV and 2 µV, no temperature coefficients. -/
def Tests.entry : List Byte :=
  splice (splice (splice (splice (List.replicate 1024 0) 0x20 [0, 0, 0x80, 0x3F]) 0x2C [0, 0, 0x80, 0x3F]) 0x104 [0, 0, 0x80, 0x3F]) 0x108 [0, 0, 0, 0x40]

/-- A command executes where the device says so. -/
theorem Tests.executing {s : State} {c : Cmd} {f : Flight}
    (h : (decide (s.hif.flight c.stamp = some f) && decide (f.cmd = c) && decide (f.stage = .executing) &&
      decide ((s.rings.at c.ring).st ≠ .disabled) && !(s.rings.at c.ring).discard && s.hif.tracked c.stamp && !s.sec.recovery) = true) :
    Executing s c f := by
  simp only [Bool.and_eq_true, decide_eq_true_eq, Bool.not_eq_true'] at h
  exact ⟨h.1.1.1.1.1.1, h.1.1.1.1.1.2, h.1.1.1.1.2, h.1.1.1.2, h.1.1.2, h.1.2, h.2⟩


/-- One ill-formed command for each check of WellFormed. -/
theorem test_wf_refuses_ill_formed :
    ([.selectorWrite .host 0x0804 0, .registerWrite (.core 0) .bar2 0 0, .shadowCaptureRead (.core 3) .bar2 0x18,
      .troughRecord (.stall 0) ⟨[], 0, none⟩, .troughRecord (.stall 0) ⟨[0x00020001], 0, none⟩, .troughRecord (.stall 0) ⟨[0x00010004], 0, none⟩,
      .upstreamRecord 0 { unit := 0, kind := 0, tag := 0, flags := 0, codes := List.replicate 25 0, reply := 0, crcOk := true, inWindow := true },
      .halterCauseEntry .tripOv 4, .halterCauseEntry .sinDemand 8, .halterCauseEntry .clock 1, .pullInEnd 0 1001 0, .recordCapture 201,
      .recorderFault 5 false 0, .recorderFault 0 false 0, .recorderFault 1 true 0, .lockstepMismatch 0 0 5 0, .pairSelftestEnd 0 0 false,
      .pairSelftestEnd 0 6 false, .pwrReqState 0 0x100, .pwrReqLevel 0 0, .wakeStepReady true 0x1F, .boot 0x60 none none, .ethLinkChange 0 true 3]
      : List Instr).all (fun c => !c.wf) = true := by decide +kernel

/-- Packages, images and records that are too long are ill-formed. -/
theorem test_wf_refuses_long_operands (c : Cmd) (bytes : List Byte) (h : 65536 < bytes.length) :
    Instr.wf (.rosterAdopt c bytes) = false ∧ Instr.wf (.stallService c bytes) = false ∧ Instr.wf (.estConfig c bytes) = false ∧
    Instr.wf (.swcConfig c bytes) = false ∧ Instr.wf (.calWrite c bytes) = false ∧ Instr.wf (.studbookClear c bytes) = false ∧
    Instr.wf (.debugUnlock c bytes) = false ∧ Instr.wf (.configLoad c bytes) = false ∧ Instr.wf (.imageWrite c bytes) = false ∧
    Instr.wf (.ownerKey c bytes) = false ∧ Instr.wf (.studbookRead c (some bytes.length)) = false := by
  simp [Instr.wf, packageFits]; omega

/-- Well-formed commands beside the ill-formed ones. -/
theorem test_wf_accepts_well_formed :
    ([.selectorWrite .host 0x0800 0, .registerWrite .host .bar2 0 0, .registerWrite (.core 0) .bar0 0 0, .troughRecord (.stall 0) ⟨[0x00010001], 0, none⟩,
      .halterCauseEntry .tripOv 3, .halterCauseEntry .sinDemand 7, .halterCauseEntry .clock 0, .pullInEnd 0 1000 0, .recordCapture 200,
      .recorderFault 4 true 0x4000, .lockstepMismatch 0 2 9 0, .pairSelftestEnd 0 5 false, .pwrReqState 0 0x5A000001, .pwrReqLevel 0 0x5A000100,
      .wakeStepReady true 0, .boot 0x20 none none, .ethLinkChange 0 false 3, .ethLinkChange 0 true 2] : List Instr).all Instr.wf = true := by
  decide +kernel

/-- 00: cell 17.2.09 belongs to unit position 4 × 17 + 2, and its global index is 1129. -/
theorem test_global_cell_index : (unitPos 17 2).val = 70 ∧ 16 * (unitPos 17 2).val + 9 = 1129 := by decide

/-- 04, worked example: δ₃ = 0.344 at 8 kS/s. -/
theorem test_slot_delta : slotDelta 1 3 = 344 / 1000 := by decide +kernel

/-- 04, worked example: a period of 6667 ticks under W_MAX = 1024 gives a window of 165 sweeps. -/
theorem test_lock_window : lockW 1024 1 6667 = some 165 := by decide +kernel

/-- 17, worked example: 2,949,120,123 RTC ticks of Stabled from y₀ = 0x0E4E_1C00_0000. -/
theorem test_restart_time : (Clk.restart { y0 := 0x0E4E1C000000, c0 := 5, rtcTicks := 2949120128 }).ytime = 0x138B36C4AA6A := by decide +kernel

/-- The check value of CRC-32C. -/
theorem test_crc32c : crc32c [0x31, 0x32, 0x33, 0x34, 0x35, 0x36, 0x37, 0x38, 0x39] = 0xE3069283 := by decide +kernel

/-- FIPS 180-4: SHA-512 of "abc" begins ddaf35a1. -/
theorem test_sha512_abc : (sha512 [0x61, 0x62, 0x63]).take 8 = [0xdd, 0xaf, 0x35, 0xa1, 0x93, 0x61, 0x7a, 0xba] := by decide +kernel

/-- The key pair of RFC 8032, 7.1, test 1. -/
def Tests.rfcSeed : List Byte :=
  beBytes 32 0x9d61b19deffd5a60ba844af492ec2cc44449c5697b326919703bac031cae7f60

theorem test_ed25519_public : Ed.publicKey Tests.rfcSeed = beBytes 32 0xd75a980182b10ab7d54bfed3c964073a0ee172f3daa62325af021a68f707511a := by
  decide +kernel

theorem test_ed25519_verify :
    Ed.verify (beBytes 32 0xd75a980182b10ab7d54bfed3c964073a0ee172f3daa62325af021a68f707511a) []
      (beBytes 64 0xe5564300c360ac729086e2cc806e828a84877f1eb8e5d974d873e065224901555fb8821590a33bacc61e39701cf9b46bd25bf5f0595bbe24655141438e7a100b) = true := by
  decide +kernel

/-- The state after a command that answers a next state. -/
def Tests.after (c : Instr) (s : State) : State := match exec c s with | .next t => t | _ => s

/-- 00, worked example: the host selects channel 13 and the selector reads back. -/
theorem test_selector : (Tests.after (.selectorWrite .host 0x2000 13) State.reset).readReg ((Tests.after (.selectorWrite .host 0x2000 13) State.reset).selOf .host)
    {} 0x2000 = 13 := by decide +kernel

/-- 00 R9: a 1 written to an event bit clears it. -/
theorem test_w1c : (Tests.after (.registerWrite .host .bar0 0x0404 1) { State.reset with evt := { State.reset.evt with pwr := 3 } }).evt.pwr = 2 := by
  decide +kernel

/-- 17 R447: RTC_SET sets the RTC. -/
theorem test_rtc_set : (Tests.after (.rtcSet (Tests.cmd (1000 * 2 ^ 32))) (Tests.live (1000 * 2 ^ 32))).rtcNow = 1000 := by decide +kernel

/-- 15 R408: SET_HOST_VETO 1. -/
theorem test_veto : (Tests.after (.setHostVeto (Tests.cmd 1)) (Tests.live 1)).pwr.veto = true := by decide +kernel

/-- Witnesses of the hypotheses of `StepTakesFrontCommand`. -/
theorem witness_StepTakesFrontCommand :
    (∃ (c : Instr) (rest : List Instr) (s : State), (s.pending = c :: rest)) ∧
    (∃ (s : State), (s.pending = []) ∧ (s.isl.tb = true)) ∧
    (∃ (s : State), (s.pending = []) ∧ (s.isl.tb = false)) :=
  ⟨⟨(.pgoodLoss : Instr), ([] : List Instr), (let s : State := Tests.up; let s : State := { s with pending := ((.pgoodLoss : Instr)) :: (([] : List Instr)) }; s), 
    by decide +kernel⟩,
   ⟨(let s : State := Tests.up; let s : State := { s with pending := [] }; let s : State := { s with isl.tb := true }; s), 
    by decide +kernel,
    by decide +kernel⟩,
   ⟨(let s : State := Tests.up; let s : State := { s with pending := [] }; let s : State := { s with isl.tb := false }; s), 
    by decide +kernel,
    by decide +kernel⟩⟩

/-- Witnesses of the hypotheses of `FaultyAccessesRecordedOrFaulting`. -/
theorem witness_FaultyAccessesRecordedOrFaulting :
    (∃ (bar : Bar) (off : BitVec 16) (v : Word) (s : State), (off.toNat % 4 ≠ 0)) ∧
    (∃ (core : Fin 16) (addr : BitVec 32) (write : Bool) (s : State), (0x20000 ≤ addr.toNat) ∧ (¬ (0x20000000 ≤ addr.toNat ∧ addr.toNat ≤ 0x203FFFFF)) ∧ (¬ (0x40000000 ≤ addr.toNat ∧ addr.toNat ≤ 0x41FFFFFF)) ∧ (¬ (0x60000000 ≤ addr.toNat ∧ addr.toNat ≤ 0x6000FFFF))) ∧
    (∃ (core : Fin 16) (addr : BitVec 32) (s : State), (0x40000000 ≤ addr.toNat) ∧ (addr.toNat ≤ 0x41FFFFFF)) :=
  ⟨⟨(.bar0 : Bar), (0x402 : BitVec 16), (0 : Word), (Tests.up), 
    by decide +kernel⟩,
   ⟨(1 : Fin 16), (0x20000 : BitVec 32), (true : Bool), (Tests.up), 
    by decide +kernel,
    by decide +kernel,
    by decide +kernel,
    by decide +kernel⟩,
   ⟨(1 : Fin 16), (0x41FFFFFF : BitVec 32), (Tests.up), 
    by decide +kernel,
    by decide +kernel⟩⟩

/-- Witnesses of the hypotheses of `EventVectorSentOnRiseAndOnEnable`. -/
theorem witness_EventVectorSentOnRiseAndOnEnable :
    (∃ (bar : Bar) (off : BitVec 16) (s : State), (s.evt.acc = false) ∧ (s.evt.en.getLsbD 1 = true) ∧ ((s.msix.at s.evtVector).masked = false) ∧ (s.canDma = true)) ∧
    (∃ (v : Word) (s : State), ((v.setWidth 20 &&& ~~~ s.evt.en &&& evtSum s.evt) ≠ 0) ∧ ((s.msix.at s.evtVector).masked = false) ∧ (s.canDma = true)) ∧
    (∃ (v : Word) (s : State), ((v.setWidth 20 &&& ~~~ s.evt.en &&& evtSum s.evt) = 0)) :=
  ⟨⟨(.bar0 : Bar), (0 : BitVec 16), (let s : State := Tests.up; let s : State := { s with evt.acc := false }; let s : State := { s with evt.en := BitVec.allOnes _ }; s), 
    by decide +kernel,
    by decide +kernel,
    by decide +kernel,
    by decide +kernel⟩,
   ⟨(2 : Word), (let s : State := Tests.up; let s : State := { s with msix := s.msix.upd (s.evtVector) (fun x => { x with masked := false }) }; let s : State := { s with evt := { s.evt with acc := true } }; s), 
    by decide +kernel,
    by decide +kernel,
    by decide +kernel⟩,
   ⟨(0 : Word), (Tests.up), 
    by decide +kernel⟩⟩

/-- Witnesses of the hypotheses of `SelectorWritesStayInTheirView`. -/
theorem witness_SelectorWritesStayInTheirView :
    (∃ (view : View) (v : Word) (s : State), (24 ≤ v.toNat % 32)) ∧
    (∃ (view : View) (v : Word) (s : State), (12 ≤ v.toNat % 16)) ∧
    (∃ (view : View) (other : View) (off : BitVec 16) (v : Word) (s : State), (other ≠ view)) :=
  ⟨⟨(.host : View), (24 : Word), (Tests.up), 
    by decide +kernel⟩,
   ⟨(.host : View), (12 : Word), (Tests.up), 
    by decide +kernel⟩,
   ⟨(.host : View), (.core 0 : View), (0 : BitVec 16), (0 : Word), (Tests.up), 
    by decide +kernel⟩⟩

/-- Witnesses of the hypotheses of `RegisterAccessesFollowTheirTypes`. -/
theorem witness_RegisterAccessesFollowTheirTypes : ∃ (off : BitVec 16) (v : Word) (s : State), (off.toNat % 4 = 0) ∧ (off ≠ 0) :=
  ⟨(4 : BitVec 16), (0 : Word), (Tests.up), 
    by decide +kernel,
    by decide +kernel⟩

/-- Witnesses of the hypotheses of `CrossingsDeliverInOrder`. -/
theorem witness_CrossingsDeliverInOrder :
    (∃ (p : Fin 4) (e : XEntry) (rest : List XEntry) (s : State), (s.cross.portToHalter.at p = e :: rest) ∧ (s.isl.halter = true)) ∧
    (∃ (rest : List XEntry) (mask : BitVec 12) (closed : Bool) (s : State), (s.cross.halterToSw1 = .enables mask closed :: rest)) ∧
    (∃ (s : State) (p : Fin 4), (s.isl.halter = false)) ∧
    (∃ (s : State), (s.isl.halter = false)) ∧
    (∃ (s : State), (s.isl.mem = false)) :=
  ⟨⟨(1 : Fin 4), (.memFault : XEntry), ([] : List XEntry), (let s : State := Tests.up; let s : State := { s with cross.portToHalter := s.cross.portToHalter.put (((1 : Fin 4))) (((.memFault : XEntry)) :: (([] : List XEntry))) }; let s : State := { s with isl.halter := true }; s), 
    by decide +kernel,
    by decide +kernel⟩,
   ⟨([] : List XEntry), (0 : BitVec 12), (true : Bool), (let s : State := Tests.up; let s : State := { s with cross.halterToSw1 := .enables ((0 : BitVec 12)) ((true : Bool)) :: (([] : List XEntry)) }; s), 
    by decide +kernel⟩,
   ⟨(let s : State := Tests.up; let s : State := { s with isl.halter := false }; s), (1 : Fin 4), 
    by decide +kernel⟩,
   ⟨(let s : State := Tests.up; let s : State := { s with isl.halter := false }; s), 
    by decide +kernel⟩,
   ⟨(let s : State := Tests.up; let s : State := { s with isl.mem := false }; s), 
    by decide +kernel⟩⟩

/-- Witnesses of the hypotheses of `ClocksWatchedAndMemoryScrubbed`. -/
theorem witness_ClocksWatchedAndMemoryScrubbed :
    (∃ (p : Fin 4) (permille : Nat) (s : State), (s.isl.halter = true) ∧ (s.isl.port.at p = true) ∧ (permille < 750 ∨ 1250 < permille) ∧ ((s.clocks.port.at p).bad = 1)) ∧
    (∃ (p : Fin 4) (permille : Nat) (s : State), (s.isl.halter = true) ∧ (s.isl.port.at p = true) ∧ (permille < 750 ∨ 1250 < permille) ∧ ((s.clocks.port.at p).bad = 0)) ∧
    (∃ (permille : Nat) (s : State), (s.isl.halter = true) ∧ (s.isl.tb = true) ∧ (permille < 750 ∨ 1250 < permille) ∧ (s.clocks.halter.bad = 1)) ∧
    (∃ (s : State), (s.isl.mem = true) ∧ (s.pwr.st = .run) ∧ (s.mem.scrubSram < 0x60000)) ∧
    (∃ (s : State), (s.isl.mem = true) ∧ (s.pwr.st = .run) ∧ (s.mem.scrubMram < 0x200000)) ∧
    (∃ (s : State), (s.isl.mem = true) ∧ (s.pwr.st = .run) ∧ (s.mem.scrubSram < 0x2000)) ∧
    (∃ (m : Bool) (found : EccRead) (s : State), (s.pwr.st = .rest)) :=
  ⟨⟨(1 : Fin 4), (0 : Nat), (let s : State := Tests.up; let s : State := { s with isl.halter := true }; let s : State := { s with isl.port := s.isl.port.put (((1 : Fin 4))) (true) }; let s : State := { s with clocks.port := s.clocks.port.upd (((1 : Fin 4))) (fun x => { x with bad := 1 }) }; s), 
    by decide +kernel,
    by decide +kernel,
    by decide +kernel,
    by decide +kernel⟩,
   ⟨(1 : Fin 4), (0 : Nat), (let s : State := Tests.up; let s : State := { s with isl.halter := true }; let s : State := { s with isl.port := s.isl.port.put (((1 : Fin 4))) (true) }; let s : State := { s with clocks.port := s.clocks.port.upd (((1 : Fin 4))) (fun x => { x with bad := 0 }) }; s), 
    by decide +kernel,
    by decide +kernel,
    by decide +kernel,
    by decide +kernel⟩,
   ⟨(0 : Nat), (let s : State := Tests.up; let s : State := { s with isl.halter := true }; let s : State := { s with isl.tb := true }; let s : State := { s with clocks.halter.bad := 1 }; s), 
    by decide +kernel,
    by decide +kernel,
    by decide +kernel,
    by decide +kernel⟩,
   ⟨(let s : State := Tests.up; let s : State := { s with isl.mem := true }; let s : State := { s with pwr.st := .run }; s), 
    by decide +kernel,
    by decide +kernel,
    by decide +kernel⟩,
   ⟨(let s : State := Tests.up; let s : State := { s with isl.mem := true }; let s : State := { s with pwr.st := .run }; s), 
    by decide +kernel,
    by decide +kernel,
    by decide +kernel⟩,
   ⟨(let s : State := Tests.up; let s : State := { s with isl.mem := true }; let s : State := { s with pwr.st := .run }; s), 
    by decide +kernel,
    by decide +kernel,
    by decide +kernel⟩,
   ⟨(true : Bool), (.clean : EccRead), (let s : State := Tests.up; let s : State := { s with pwr.st := .rest }; s), 
    by decide +kernel⟩⟩

/-- Witnesses of the hypotheses of `SuppliesIdentifyAndNetworks`. -/
theorem witness_SuppliesIdentifyAndNetworks :
    (∃ (c : Cmd) (f : Flight) (s : State), (Executing s c f) ∧ (opField c 8 8 % 16 = 0)) ∧
    (∃ (c : Cmd) (f : Flight) (s : State), (Executing s c f) ∧ (opField c 8 8 % 16 ≠ 0)) ∧
    (∃ (ctl : Fin 4) (s : State), ((s.net.can.at ctl).st = 2)) ∧
    (∃ (m : Fin 2) (speed : BitVec 2) (s : State), (s.sec.booted = true) ∧ (s.isl.net = true) ∧ (speed ≠ 3)) :=
  ⟨⟨Tests.cmd ((0) * 2 ^ 64), Tests.flight ((0) * 2 ^ 64), (Tests.live ((0) * 2 ^ 64)), 
    Tests.executing (by decide +kernel),
    by decide +kernel⟩,
   ⟨Tests.cmd ((1) * 2 ^ 64), Tests.flight ((1) * 2 ^ 64), (Tests.live ((1) * 2 ^ 64)), 
    Tests.executing (by decide +kernel),
    by decide +kernel⟩,
   ⟨(1 : Fin 4), (let s : State := Tests.up; let s : State := { s with net.can := s.net.can.upd (((1 : Fin 4))) (fun x => { x with st := 2 }) }; s), 
    by decide +kernel⟩,
   ⟨(1 : Fin 2), (0 : BitVec 2), (let s : State := Tests.up; let s : State := { s with sec.booted := true }; let s : State := { s with isl.net := true }; s), 
    by decide +kernel,
    by decide +kernel,
    by decide +kernel⟩⟩

/-- Witnesses of the hypotheses of `HostInterfaceResetAndPolling`. -/
theorem witness_HostInterfaceResetAndPolling :
    (∃ (s : State), (s.hif.busMaster = false)) ∧
    (∃ (s : State), (s.polling = true) ∧ (s.evt.dbErr = false) ∧ (s.hif.outstanding = false) ∧ (s.hif.dueAt ≤ s.now ∨ s.hif.nudge = true)) ∧
    (∃ (s : State), (s.evt.dbErr = true)) ∧
    (∃ (v : Word) (s : State), (s.pwr.st = .run) ∧ (s.polling = true)) ∧
    (∃ (s : State), (s.hif.outstanding = true)) ∧
    (∃ (slots : Bank 16 DbSlot) (s : State), (s.hif.outstanding = true) ∧ (∀ r, (s.rings.at r).st = .disabled) ∧ (s.hif.early = false) ∧ (s.hif.activeAt + 64000 ≤ s.now)) ∧
    (∃ (slots : Bank 16 DbSlot) (r : Fin 16) (s : State), (s.hif.outstanding = true) ∧ ((s.rings.at r).st = .active) ∧ (2 ^ (s.rings.at r).sqLog2.toNat ≤ (slots.at r).sqPi.toNat)) ∧
    (∃ (hi : Bool) (v : Word) (s : State), (s.hif.pollEn = true)) ∧
    (∃ (v : Word) (s : State), (s.hif.pollEn = false)) :=
  ⟨⟨(let s : State := Tests.up; let s : State := { s with hif.busMaster := false }; s), 
    by decide +kernel⟩,
   ⟨(let s : State := Tests.up; let s : State := { s with evt.dbErr := false }; let s : State := { s with hif.outstanding := false }; let s : State := { s with hif := { s.hif with pollEn := true } }; s), 
    by decide +kernel,
    by decide +kernel,
    by decide +kernel,
    by decide +kernel⟩,
   ⟨(let s : State := Tests.up; let s : State := { s with evt.dbErr := true }; s), 
    by decide +kernel⟩,
   ⟨(0 : Word), (let s : State := Tests.up; let s : State := { s with pwr.st := .run }; let s : State := { s with hif := { s.hif with pollEn := true } }; s), 
    by decide +kernel,
    by decide +kernel⟩,
   ⟨(let s : State := Tests.up; let s : State := { s with hif.outstanding := true }; s), 
    by decide +kernel⟩,
   ⟨(Bank.fill 16 ⟨0, 0⟩ : Bank 16 DbSlot), (let s : State := Tests.up; let s : State := { s with hif.outstanding := true }; let s : State := { s with hif.early := false }; s), 
    by decide +kernel,
    by decide +kernel,
    by decide +kernel,
    by decide +kernel⟩,
   ⟨(Bank.fill 16 ⟨16, 0⟩ : Bank 16 DbSlot), (1 : Fin 16), (let s : State := Tests.up; let s : State := { s with hif.outstanding := true }; let s : State := { s with rings := s.rings.upd (((1 : Fin 16))) (fun x => { x with st := .active }) }; s), 
    by decide +kernel,
    by decide +kernel,
    by decide +kernel⟩,
   ⟨(true : Bool), (0 : Word), (let s : State := Tests.up; let s : State := { s with hif.pollEn := true }; s), 
    by decide +kernel⟩,
   ⟨(0 : Word), (let s : State := Tests.up; let s : State := { s with hif.pollEn := false }; s), 
    by decide +kernel⟩⟩

/-- Witnesses of the hypotheses of `RingPairStates`. -/
theorem witness_RingPairStates :
    (∃ (r : Fin 16) (v : Word) (s : State), ((s.rings.at r).st = .disabled) ∧ (4 ≤ (v.extractLsb' 4 4).toNat) ∧ ((v.extractLsb' 4 4).toNat ≤ 12) ∧ (4 ≤ (v.extractLsb' 8 4).toNat) ∧ ((v.extractLsb' 8 4).toNat ≤ 12)) ∧
    (∃ (r : Fin 16) (v : Word) (s : State), ((s.rings.at r).st = .disabled) ∧ ((v.extractLsb' 4 4).toNat < 4)) ∧
    (∃ (r : Fin 16) (v : Word) (s : State), ((s.rings.at r).st = .active)) ∧
    (∃ (r : Fin 16) (v : Word) (s : State), ((s.rings.at r).st = .error)) ∧
    (∃ (r : Fin 16) (kind : DmaKind) (s : State), ((s.rings.at r).st = .active ∨ (s.rings.at r).st = .draining)) ∧
    (∃ (r : Fin 16) (s : State), ((s.rings.at r).st = .draining) ∧ (s.hif.ringFlights r = 0) ∧ ((s.rings.at r).trough = [])) :=
  ⟨⟨(1 : Fin 16), (0xC4C1 : Word), (let s : State := Tests.up; let s : State := { s with rings := s.rings.upd (((1 : Fin 16))) (fun x => { x with st := .disabled }) }; s), 
    by decide +kernel,
    by decide +kernel,
    by decide +kernel,
    by decide +kernel,
    by decide +kernel⟩,
   ⟨(1 : Fin 16), (0 : Word), (let s : State := Tests.up; let s : State := { s with rings := s.rings.upd (((1 : Fin 16))) (fun x => { x with st := .disabled }) }; s), 
    by decide +kernel,
    by decide +kernel⟩,
   ⟨(1 : Fin 16), (0 : Word), (let s : State := Tests.up; let s : State := { s with rings := s.rings.upd (((1 : Fin 16))) (fun x => { x with st := .active }) }; s), 
    by decide +kernel⟩,
   ⟨(1 : Fin 16), (0 : Word), (let s : State := Tests.up; let s : State := { s with rings := s.rings.upd (((1 : Fin 16))) (fun x => { x with st := .error }) }; s), 
    by decide +kernel⟩,
   ⟨(1 : Fin 16), (.submissionRead : DmaKind), (let s : State := Tests.up; let s : State := { s with rings := s.rings.upd (((1 : Fin 16))) (fun x => { x with st := .active }) }; s), 
    by decide +kernel⟩,
   ⟨(1 : Fin 16), (let s : State := Tests.up; let s : State := { s with rings := s.rings.upd (((1 : Fin 16))) (fun x => { x with st := .draining }) }; let s : State := { s with rings := s.rings.upd (((1 : Fin 16))) (fun x => { x with trough := [] }) }; s), 
    by decide +kernel,
    by decide +kernel,
    by decide +kernel⟩⟩

/-- Witnesses of the hypotheses of `FetchAndChecksAtFetch`. -/
theorem witness_FetchAndChecksAtFetch :
    (∃ (r : Fin 16) (e : BitVec 512) (s : State), (s.hif.fetchQ.head? = some r) ∧ ((s.rings.at r).st = .active) ∧ ((s.rings.at r).discard = false) ∧ (s.hif.flight s.hif.stampNext = none) ∧ (opcodeAssigned (e.extractLsb' 0 8) = false)) ∧
    (∃ (r : Fin 16) (e : BitVec 512) (s : State), (s.hif.fetchQ.head? = some r) ∧ ((s.rings.at r).st = .active) ∧ ((s.rings.at r).discard = false) ∧ (s.hif.flight s.hif.stampNext = none) ∧ (opcodeAssigned (e.extractLsb' 0 8) = true) ∧ (e.extractLsb' 8 2 ≠ e.extractLsb' 6 2 ∨ e.extractLsb' 8 2 ≠ (s.rings.at r).cls)) ∧
    (∃ (r : Fin 16) (e : BitVec 512) (s : State), (s.hif.fetchQ.head? = some r) ∧ ((s.rings.at r).st = .active) ∧ ((s.rings.at r).discard = false) ∧ (s.hif.flight s.hif.stampNext = none) ∧ (opcodeAssigned (e.extractLsb' 0 8) = true) ∧ (e.extractLsb' 8 2 = e.extractLsb' 6 2) ∧ (e.extractLsb' 8 2 = (s.rings.at r).cls) ∧ (1 ≤ (e.extractLsb' 10 2).toNat) ∧ (e.extractLsb' 64 32 = s.hif.stampNext) ∧ (e.extractLsb' 96 8 = 1)) ∧
    (∃ (r : Fin 16) (e : BitVec 512) (s : State), (s.hif.fetchQ.head? = some r) ∧ ((s.rings.at r).st = .active) ∧ ((s.rings.at r).discard = false) ∧ (s.hif.flight s.hif.stampNext = none) ∧ (opcodeAssigned (e.extractLsb' 0 8) = true) ∧ (e.extractLsb' 8 2 = e.extractLsb' 6 2) ∧ (e.extractLsb' 8 2 = (s.rings.at r).cls) ∧ (e.extractLsb' 10 2 = 0) ∧ (isStreamOp (e.extractLsb' 0 8) = false)) ∧
    (∃ (r : Fin 16) (s : State), (s.canDma = true) ∧ (s.agedRing = none) ∧ (s.mayFetch r = true) ∧ (∀ q, q ≠ r → s.mayFetch q = false)) :=
  ⟨⟨(1 : Fin 16), (0x20 : BitVec 512), (let s : State := Tests.up; let s : State := { s with rings := s.rings.upd (((1 : Fin 16))) (fun x => { x with st := .active }) }; let s : State := { s with rings := s.rings.upd (((1 : Fin 16))) (fun x => { x with discard := false }) }; let s : State := { s with hif := { s.hif with fetchQ := [1] } }; s), 
    by decide +kernel,
    by decide +kernel,
    by decide +kernel,
    by decide +kernel,
    by decide +kernel⟩,
   ⟨(1 : Fin 16), (0x40 : BitVec 512), (let s : State := Tests.up; let s : State := { s with rings := s.rings.upd (((1 : Fin 16))) (fun x => { x with st := .active }) }; let s : State := { s with rings := s.rings.upd (((1 : Fin 16))) (fun x => { x with discard := false }) }; let s : State := { s with hif := { s.hif with fetchQ := [1] } }; s), 
    by decide +kernel,
    by decide +kernel,
    by decide +kernel,
    by decide +kernel,
    by decide +kernel,
    by decide +kernel⟩,
   ⟨(1 : Fin 16), (1 * 2^96 + 5 * 2 ^ 64 + 0x401 : BitVec 512), (let s : State := Tests.up; let s : State := { s with rings := s.rings.upd (((1 : Fin 16))) (fun x => { x with st := .active }) }; let s : State := { s with rings := s.rings.upd (((1 : Fin 16))) (fun x => { x with discard := false }) }; let s : State := { s with hif := { s.hif with fetchQ := [1], issued := 5 } }; s), 
    by decide +kernel,
    by decide +kernel,
    by decide +kernel,
    by decide +kernel,
    by decide +kernel,
    by decide +kernel,
    by decide +kernel,
    by decide +kernel,
    by decide +kernel,
    by decide +kernel⟩,
   ⟨(1 : Fin 16), (0x1 : BitVec 512), (let s : State := Tests.up; let s : State := { s with rings := s.rings.upd (((1 : Fin 16))) (fun x => { x with st := .active }) }; let s : State := { s with rings := s.rings.upd (((1 : Fin 16))) (fun x => { x with discard := false }) }; let s : State := { s with hif := { s.hif with fetchQ := [1], issued := 5 } }; s), 
    by decide +kernel,
    by decide +kernel,
    by decide +kernel,
    by decide +kernel,
    by decide +kernel,
    by decide +kernel,
    by decide +kernel,
    by decide +kernel,
    by decide +kernel⟩,
   ⟨(1 : Fin 16), (let s : State := Tests.up; let s : State := { s with rings := s.rings.upd 1 (fun x => { x with st := .active, sqPi := 3 }) }; s), 
    by decide +kernel,
    by decide +kernel,
    by decide +kernel,
    by decide +kernel⟩⟩

/-- Witnesses of the hypotheses of `DependenciesAndDataTransfers`. -/
theorem witness_DependenciesAndDataTransfers :
    (∃ (c : Cmd) (f : Flight) (d : Dep) (st : BitVec 8) (s : State), (s.hif.flight c.stamp = some f) ∧ (f.cmd = c) ∧ (f.stage = .waiting) ∧ (d ∈ f.deps) ∧ (d.success = true) ∧ (d.ended = some st) ∧ (st ≠ 0x00) ∧ ((s.rings.at c.ring).st ≠ .disabled) ∧ ((s.rings.at c.ring).discard = false) ∧ (s.hif.tracked c.stamp = true)) ∧
    (∃ (c : Cmd) (f : Flight) (s : State), (s.hif.flight c.stamp = some f) ∧ (f.cmd = c) ∧ (f.stage = .waiting) ∧ (∀ d ∈ f.deps, d.ended = some 0x00)) ∧
    (∃ (c : Cmd) (f : Flight) (s : State), (s.hif.flight c.stamp = some f) ∧ (f.cmd = c) ∧ (f.stage = .waiting) ∧ (∃ d ∈ f.deps, d.ended = none) ∧ (∀ d ∈ f.deps, d.ended = none ∨ d.ended = some 0x00)) ∧
    (∃ (c : Cmd) (f : Flight) (s : State), (s.hif.flight c.stamp = some f) ∧ (f.cmd = c) ∧ ((s.rings.at c.ring).st ≠ .disabled) ∧ ((s.rings.at c.ring).discard = false) ∧ (s.hif.tracked c.stamp = true) ∧ (∀ x ∈ s.hif.streams, x.cmd.stamp ≠ c.stamp)) :=
  ⟨⟨Tests.cmd (0), { cmd := Tests.cmd (0), opcode := 0x05, deps := [{ stamp := 9, success := true, ended := some 0x12 }], stage := .waiting, dmaDone := 0 }, ({ stamp := 9, success := true, ended := some 0x12 } : Dep), (0x12 : BitVec 8), (let s : State := Tests.up; let s : State := { s with rings := s.rings.upd 0 (fun x => { x with st := .active }) }; let s : State := { s with hif := { s.hif with issued := 1, flights := [({ cmd := Tests.cmd (0), opcode := 0x05, deps := [{ stamp := 9, success := true, ended := some 0x12 }], stage := .waiting, dmaDone := 0 })] } }; s), 
    by decide +kernel,
    by decide +kernel,
    by decide +kernel,
    by decide +kernel,
    by decide +kernel,
    by decide +kernel,
    by decide +kernel,
    by decide +kernel,
    by decide +kernel,
    by decide +kernel⟩,
   ⟨Tests.cmd (0), { cmd := Tests.cmd (0), opcode := 0x05, deps := [{ stamp := 9, success := true, ended := some 0 }], stage := .waiting, dmaDone := 0 }, (let s : State := Tests.up; let s : State := { s with rings := s.rings.upd 0 (fun x => { x with st := .active }) }; let s : State := { s with hif := { s.hif with issued := 1, flights := [({ cmd := Tests.cmd (0), opcode := 0x05, deps := [{ stamp := 9, success := true, ended := some 0 }], stage := .waiting, dmaDone := 0 })] } }; s), 
    by decide +kernel,
    by decide +kernel,
    by decide +kernel,
    by decide +kernel⟩,
   ⟨Tests.cmd (0), { cmd := Tests.cmd (0), opcode := 0x05, deps := [{ stamp := 9, success := true, ended := none }], stage := .waiting, dmaDone := 0 }, (let s : State := Tests.up; let s : State := { s with rings := s.rings.upd 0 (fun x => { x with st := .active }) }; let s : State := { s with hif := { s.hif with issued := 1, flights := [({ cmd := Tests.cmd (0), opcode := 0x05, deps := [{ stamp := 9, success := true, ended := none }], stage := .waiting, dmaDone := 0 })] } }; s), 
    by decide +kernel,
    by decide +kernel,
    by decide +kernel,
    by decide +kernel,
    by decide +kernel⟩,
   ⟨Tests.cmd (0), Tests.flight (0), (let s : State := Tests.up; let s : State := { s with rings := s.rings.upd 0 (fun x => { x with st := .active }) }; let s : State := { s with hif := { s.hif with issued := 1, flights := [(Tests.flight (0))] } }; s), 
    by decide +kernel,
    by decide +kernel,
    by decide +kernel,
    by decide +kernel,
    by decide +kernel,
    by decide +kernel⟩⟩

/-- Witnesses of the hypotheses of `CompletionsAndNops`. -/
theorem witness_CompletionsAndNops :
    (∃ (r : Fin 16) (c : Completion) (rest : List Completion) (s : State), ((s.rings.at r).st = .active ∨ (s.rings.at r).st = .draining) ∧ (s.canDma = true) ∧ (0 < (s.rings.at r).hostFree) ∧ ((s.rings.at r).trough = c :: rest) ∧ (c.noIrq = true)) ∧
    (∃ (r : Fin 16) (s : State), ((s.rings.at r).hostFree = 0)) ∧
    (∃ (r : Fin 16) (s : State), ((s.rings.at r).irqEn = true) ∧ (0 < (s.rings.at r).pendIrq) ∧ ((s.rings.at r).useTime ≠ 0) ∧ ((s.rings.at r).oldestAt + 64 * (s.rings.at r).useTime.toNat ≤ s.now) ∧ (s.canDma = true) ∧ ((s.msix.at ⟨(s.rings.at r).vec.toNat, (s.rings.at r).vec.isLt⟩).masked = false)) ∧
    (∃ (v : Fin 32) (s : State), ((s.msix.at v).pending = true) ∧ (s.canDma = true)) ∧
    (∃ (v : Fin 32) (s : State), ((s.msix.at v).pending = false)) ∧
    (∃ (mk : Cmd → Instr) (c : Cmd) (f : Flight) (s : State), (mk ∈ [Instr.nopAdmin, Instr.nopControl, Instr.nopQuery, Instr.nopStream]) ∧ (Executing s c f)) :=
  ⟨⟨(1 : Fin 16), ({ tag := 0, status := 0, opcode := 0, stamp := 0, result := 0, ctime := 0, final := true, gap := false, noIrq := true } : Completion), ([] : List Completion), (let s : State := Tests.up; let s : State := { s with rings := s.rings.upd (((1 : Fin 16))) (fun x => { x with st := .active }) }; let s : State := { s with rings := s.rings.upd (((1 : Fin 16))) (fun x => { x with trough := (({ tag := 0, status := 0, opcode := 0, stamp := 0, result := 0, ctime := 0, final := true, gap := false, noIrq := true } : Completion)) :: (([] : List Completion)) }) }; let s : State := { s with rings := s.rings.upd 1 (fun x => { x with st := .active }) }; s), 
    by decide +kernel,
    by decide +kernel,
    by decide +kernel,
    by decide +kernel,
    by decide +kernel⟩,
   ⟨(1 : Fin 16), (let s : State := Tests.up; let s : State := { s with rings := s.rings.upd 1 (fun x => { x with st := .active, cqLog2 := 4, cqCi := 1, cqPi := 0 }) }; s), 
    by decide +kernel⟩,
   ⟨(1 : Fin 16), (let s : State := Tests.up; let s : State := { s with rings := s.rings.upd (((1 : Fin 16))) (fun x => { x with irqEn := true }) }; let s : State := { s with rings := s.rings.upd (((1 : Fin 16))) (fun x => { x with pendIrq := 0 + 1 }) }; let s : State := { s with rings := s.rings.upd 1 (fun x => { x with st := .active, pendIrq := 1, useTime := 1023 }) }; s), 
    by decide +kernel,
    by decide +kernel,
    by decide +kernel,
    by decide +kernel,
    by decide +kernel,
    by decide +kernel⟩,
   ⟨(1 : Fin 32), (let s : State := Tests.up; let s : State := { s with msix := s.msix.upd (((1 : Fin 32))) (fun x => { x with pending := true }) }; s), 
    by decide +kernel,
    by decide +kernel⟩,
   ⟨(1 : Fin 32), (let s : State := Tests.up; let s : State := { s with msix := s.msix.upd (((1 : Fin 32))) (fun x => { x with pending := false }) }; s), 
    by decide +kernel⟩,
   ⟨(Instr.nopQuery : Cmd → Instr), Tests.cmd (0), Tests.flight (0), (Tests.live (0)), 
    by simp,
    Tests.executing (by decide +kernel)⟩⟩

/-- Witnesses of the hypotheses of `StreamCommands`. -/
theorem witness_StreamCommands :
    (∃ (p : (Cmd → Instr) × BitVec 8) (c : Cmd) (f : Flight) (s : State), (p ∈ [(Instr.streamSamples, (0xC0 : BitVec 8)), (Instr.streamImpedance, 0xC1), (Instr.streamEstimates, 0xC2)]) ∧ (Executing s c f) ∧ (opField c 0 8 % 16 = 0) ∧ (1 ≤ opField c 8 4) ∧ (opField c 8 4 ≤ 65535) ∧ (opField c 16 2 ≤ 1000) ∧ (c.ops.extractLsb' 96 32 ≠ 0) ∧ (∀ i : Fin 32, (c.ops.extractLsb' 96 32).getLsbD i.val = true → (s.stalls.at i).str ≠ none) ∧ (∀ x ∈ s.hif.streams, x.opcode = p.2 → x.mask &&& c.ops.extractLsb' 96 32 = 0)) ∧
    (∃ (mk : Cmd → Instr) (c : Cmd) (f : Flight) (s : State), (mk ∈ [Instr.streamSamples, Instr.streamImpedance, Instr.streamEstimates]) ∧ (Executing s c f) ∧ (opField c 8 4 = 0)) ∧
    (∃ (c : Cmd) (f : Flight) (x : StreamS) (s : State), (Executing s c f) ∧ (s.hif.streams.find? (fun y => y.cmd.stamp == c.ops.extractLsb' 0 32) = some x) ∧ (x.cmd.stamp ≠ c.stamp)) ∧
    (∃ (c : Cmd) (f : Flight) (s : State), (Executing s c f) ∧ (∀ x ∈ s.hif.streams, x.cmd.stamp ≠ c.ops.extractLsb' 0 32) ∧ (s.hif.flight (c.ops.extractLsb' 0 32) = none) ∧ (s.hif.finalOf (c.ops.extractLsb' 0 32) = none)) :=
  ⟨⟨((Instr.streamSamples, 0xC0) : (Cmd → Instr) × BitVec 8), Tests.cmd (1 * 2 ^ 64 + 1 * 2 ^ 96), Tests.flight (1 * 2 ^ 64 + 1 * 2 ^ 96), (Tests.work (1 * 2 ^ 64 + 1 * 2 ^ 96)), 
    by simp,
    Tests.executing (by decide +kernel),
    by decide +kernel,
    by decide +kernel,
    by decide +kernel,
    by decide +kernel,
    by decide +kernel,
    by decide +kernel,
    by decide +kernel⟩,
   ⟨(Instr.streamSamples : Cmd → Instr), Tests.cmd ((0) * 2 ^ 64), Tests.flight ((0) * 2 ^ 64), (Tests.work ((0) * 2 ^ 64)), 
    by simp,
    Tests.executing (by decide +kernel),
    by decide +kernel⟩,
   ⟨Tests.cmd (9), Tests.flight (9), (({ cmd := { Tests.cmd 0 with stamp := 9 }, opcode := 0xC0, mask := 1, list := 0, count := 1, flushMs := 1, idx := 0, cur := none, bytes := 0, records := 0, gap := false, since := none } : StreamS) : StreamS), (let s : State := Tests.work (9); let s : State := { s with hif := { s.hif with streams := [({ cmd := { Tests.cmd 0 with stamp := 9 }, opcode := 0xC0, mask := 1, list := 0, count := 1, flushMs := 1, idx := 0, cur := none, bytes := 0, records := 0, gap := false, since := none } : StreamS)] } }; s), 
    Tests.executing (by decide +kernel),
    by decide +kernel,
    by decide +kernel⟩,
   ⟨Tests.cmd (9), Tests.flight (9), (Tests.work (9)), 
    Tests.executing (by decide +kernel),
    by decide +kernel,
    by decide +kernel,
    by decide +kernel⟩⟩

/-- Witnesses of the hypotheses of `TroughsAndBuffers`. -/
theorem witness_TroughsAndBuffers :
    (∃ (i : Fin 32) (words : List (BitVec 32)) (m : BitVec 32) (s : State), ((words.headD 0).extractLsb' 0 8 = 0x01) ∧ (∃ x ∈ s.hif.streams, x.opcode = 0xC0 ∧ (x.mask &&& BitVec.ofNat 32 (2 ^ i.val)) ≠ 0) ∧ ((s.troughs.stall.at i).lost = 0) ∧ ((s.troughs.stall.at i).used + 4 * words.length + 16 ≤ 16384)) ∧
    (∃ (i : Fin 32) (words : List (BitVec 32)) (m : BitVec 32) (s : State), ((words.headD 0).extractLsb' 0 8 = 0x01) ∧ (∃ x ∈ s.hif.streams, x.opcode = 0xC0 ∧ (x.mask &&& BitVec.ofNat 32 (2 ^ i.val)) ≠ 0) ∧ (16384 < (s.troughs.stall.at i).used + 4 * words.length + 16)) ∧
    (∃ (src : Source) (words : List (BitVec 32)) (m : BitVec 32) (s : State), (s.hif.streams = [])) ∧
    (∃ (i : Fin 32) (item : TroughItem) (rest : List TroughItem) (x : StreamS) (buf : BitVec 64) (e : BitVec 128) (len : Nat) (s : State), ((s.troughs.stall.at i).items = item :: rest) ∧ (s.takerOf item = some x) ∧ (s.streaming = true) ∧ (s.canDma = true) ∧ ((s.rings.at x.cmd.ring).troughFull = false) ∧ ((s.rings.at x.cmd.ring).st ≠ .error) ∧ (x.cur = some (buf, len)) ∧ (x.bytes + 4 * item.words.length ≤ len)) ∧
    (∃ (x : StreamS) (since : Nat) (s : State), (s.hif.streams.find? (fun y => y.cmd.stamp == x.cmd.stamp) = some x) ∧ (x.since = some since) ∧ (0 < x.flushMs) ∧ (0 < x.records) ∧ (since + 64000 * x.flushMs ≤ s.now) ∧ ((s.rings.at x.cmd.ring).troughFull = false) ∧ (x.idx + 1 < x.count) ∧ ((s.rings.at x.cmd.ring).st ≠ .disabled) ∧ ((s.rings.at x.cmd.ring).discard = false)) :=
  ⟨⟨(1 : Fin 32), ([1] : List (BitVec 32)), (0 : BitVec 32), (let s : State := Tests.withYard Tests.up; let s : State := { s with troughs.stall := s.troughs.stall.upd (((1 : Fin 32))) (fun x => { x with lost := 0 }) }; let s : State := { s with hif := { s.hif with streams := [({ cmd := { Tests.cmd 0 with stamp := 9 }, opcode := 0xC0, mask := 2, list := 0, count := 1, flushMs := 1, idx := 0, cur := none, bytes := 0, records := 0, gap := false, since := none } : StreamS)] } }; s), 
    by decide +kernel,
    by decide +kernel,
    by decide +kernel,
    by decide +kernel⟩,
   ⟨(1 : Fin 32), (List.replicate 4096 1 : List (BitVec 32)), (0 : BitVec 32), (let s : State := Tests.withYard Tests.up; let s : State := { s with hif := { s.hif with streams := [({ cmd := { Tests.cmd 0 with stamp := 9 }, opcode := 0xC0, mask := 2, list := 0, count := 1, flushMs := 1, idx := 0, cur := none, bytes := 0, records := 0, gap := false, since := none } : StreamS)] } }; s), 
    by decide +kernel,
    by decide +kernel,
    by decide +kernel⟩,
   ⟨(.estimator : Source), ([] : List (BitVec 32)), (0 : BitVec 32), (let s : State := Tests.up; let s : State := { s with hif.streams := [] }; s), 
    by decide +kernel⟩,
   ⟨(1 : Fin 32), (({ words := [1], mask := 2, op := 0xC0 } : TroughItem) : TroughItem), ([] : List TroughItem), (({ cmd := { Tests.cmd 0 with stamp := 9 }, opcode := 0xC0, mask := 2, list := 0, count := 1, flushMs := 1, idx := 0, cur := some (0x1000, 64), bytes := 0, records := 0, gap := false, since := none } : StreamS) : StreamS), (0x1000 : BitVec 64), (0 : BitVec 128), (64 : Nat), (let s : State := Tests.withYard Tests.up; let s : State := { s with troughs.stall := s.troughs.stall.upd (((1 : Fin 32))) (fun x => { x with items := ((({ words := [1], mask := 2, op := 0xC0 } : TroughItem) : TroughItem)) :: (([] : List TroughItem)) }) }; let s : State := { s with hif := { s.hif with streams := [({ cmd := { Tests.cmd 0 with stamp := 9 }, opcode := 0xC0, mask := 2, list := 0, count := 1, flushMs := 1, idx := 0, cur := some (0x1000, 64), bytes := 0, records := 0, gap := false, since := none } : StreamS)] } }; s), 
    by decide +kernel,
    by decide +kernel,
    by decide +kernel,
    by decide +kernel,
    by decide +kernel,
    by decide +kernel,
    by decide +kernel,
    by decide +kernel⟩,
   ⟨(({ cmd := { Tests.cmd 0 with stamp := 9 }, opcode := 0xC0, mask := 2, list := 0, count := 2, flushMs := 1, idx := 0, cur := some (0x1000, 64), bytes := 0, records := 1, gap := false, since := some 0 } : StreamS) : StreamS), (0 : Nat), (let s : State := Tests.withYard Tests.up; let s : State := { s with rings := s.rings.upd (((({ cmd := { Tests.cmd 0 with stamp := 9 }, opcode := 0xC0, mask := 2, list := 0, count := 2, flushMs := 1, idx := 0, cur := some (0x1000, 64), bytes := 0, records := 1, gap := false, since := some 0 } : StreamS) : StreamS)).cmd.ring) (fun x => { x with discard := false }) }; let s : State := { s with hif := { s.hif with streams := [({ cmd := { Tests.cmd 0 with stamp := 9 }, opcode := 0xC0, mask := 2, list := 0, count := 2, flushMs := 1, idx := 0, cur := some (0x1000, 64), bytes := 0, records := 1, gap := false, since := some 0 } : StreamS)] } }; let s : State := { s with rings := s.rings.upd 0 (fun zz => { zz with st := .active }) }; s), 
    by decide +kernel,
    by decide +kernel,
    by decide +kernel,
    by decide +kernel,
    by decide +kernel,
    by decide +kernel,
    by decide +kernel,
    by decide +kernel,
    by decide +kernel⟩⟩

/-- Witnesses of the hypotheses of `FramesAndUpstreamRecords`. -/
theorem witness_FramesAndUpstreamRecords :
    (∃ (sense : Bank 12 Nat) (s : State), (s.isl.tb = true)) ∧
    (∃ (sense : Bank 12 Nat) (s : State), (s.isl.tb = false)) ∧
    (∃ (i : Fin 32) (r : UpRecord) (s : State), (s.driven i = true) ∧ ((s.stalls.at i).lstate ≠ .phyFault) ∧ (r.crcOk = false ∨ r.inWindow = false ∨ r.kind = 3)) ∧
    (∃ (i : Fin 32) (s : State), (s.driven i = true) ∧ ((s.stalls.at i).rollCall = []) ∧ (∀ k, s.expectedSweep (unitPos i k) s.frame = none ∧ s.expectedPair (unitPos i k) s.frame = none)) ∧
    (∃ (i : Fin 32) (start : Nat) (s : State), (s.driven i = true) ∧ ((s.stalls.at i).rollCall = []) ∧ (s.expectedSweep (unitPos i 0) s.frame = some start) ∧ ((s.ulink.at (unitPos i 0)).gotSweep = false) ∧ (∀ k, k ≠ 0 → (s.ulink.at (unitPos i k)).sweepFrom = none)) :=
  ⟨⟨(Bank.fill 12 0 : Bank 12 Nat), (let s : State := Tests.up; let s : State := { s with isl.tb := true }; s), 
    by decide +kernel⟩,
   ⟨(Bank.fill 12 0 : Bank 12 Nat), (let s : State := Tests.up; let s : State := { s with isl.tb := false }; s), 
    by decide +kernel⟩,
   ⟨(1 : Fin 32), ({ unit := 0, kind := 3, tag := 0, flags := 0, codes := [], reply := 0, crcOk := true, inWindow := true } : UpRecord), (Tests.withYard Tests.up), 
    by decide +kernel,
    by decide +kernel,
    by decide +kernel⟩,
   ⟨(1 : Fin 32), (let s : State := Tests.withYard Tests.up; let s : State := { s with stalls := s.stalls.upd (((1 : Fin 32))) (fun x => { x with rollCall := [] }) }; let s : State := { s with ulink := Bank.fill 128 {} }; s), 
    by decide +kernel,
    by decide +kernel,
    by decide +kernel⟩,
   ⟨(1 : Fin 32), (288000000 - framesOf 0 : Nat), (let s : State := Tests.withYard Tests.up; let s : State := { s with stalls := s.stalls.upd (((1 : Fin 32))) (fun x => { x with rollCall := [] }) }; let s : State := { s with ulink := s.ulink.upd ((unitPos ((1 : Fin 32)) 0)) (fun x => { x with gotSweep := false }) }; let s : State := { s with ulink := (Bank.fill 128 {}).put 4 (Tests.unit 1) }; s), 
    by decide +kernel,
    by decide +kernel,
    by decide +kernel,
    by decide +kernel,
    by decide +kernel⟩⟩

/-- Witnesses of the hypotheses of `BreaksLoopbackAndPhyFaults`. -/
theorem witness_BreaksLoopbackAndPhyFaults :
    (∃ (i : Fin 32) (k : Fin 4) (s : State), (k ≠ 0) ∧ (s.driven i = true) ∧ ((s.ulink.at (unitPos i k)).reached = true) ∧ (3 ≤ (s.ulink.at (unitPos i k)).missRun) ∧ ((s.ulink.at (unitPos i (k - 1))).missRun = 0)) ∧
    (∃ (i : Fin 32) (s : State), (s.driven i = true) ∧ ((s.ulink.at (unitPos i 0)).reached = true) ∧ (3 ≤ (s.ulink.at (unitPos i 0)).missRun)) ∧
    (∃ (i : Fin 32) (k : Fin 4) (s : State), ((s.ulink.at (unitPos i k)).missRun < 3)) ∧
    (∃ (i : Fin 32) (s : State), (s.frame % 8 = 0) ∧ (s.driven i = true) ∧ ((s.stalls.at i).lstate = .lost) ∧ ((s.stalls.at i).enum = none)) ∧
    (∃ (s : State), (s.frame % 8 ≠ 0)) ∧
    (∃ (i : Fin 32) (v : Word) (s : State), (s.driven i = true) ∧ (v ≠ (s.stalls.at i).pattern)) ∧
    (∃ (i : Fin 32) (s : State), (s.driven i = true) ∧ (3 ≤ (s.stalls.at i).failRun) ∧ ((s.stalls.at i).lstate ≠ .phyFault)) ∧
    (∃ (i : Fin 32) (s : State), ((s.stalls.at i).failRun < 3)) ∧
    (∃ (i : Fin 32) (s : State), (s.driven i = true) ∧ ((s.stalls.at i).lstate = .phyFault) ∧ (8 ≤ (s.stalls.at i).passRun)) :=
  ⟨⟨(1 : Fin 32), (1 : Fin 4), (let s : State := Tests.withYard Tests.up; let s : State := { s with ulink := s.ulink.upd ((unitPos ((1 : Fin 32)) ((1 : Fin 4)))) (fun x => { x with reached := true }) }; let s : State := { s with ulink := s.ulink.upd ((unitPos ((1 : Fin 32)) ((1 : Fin 4)))) (fun x => { x with missRun := 3 }) }; let s : State := { s with ulink := s.ulink.upd ((unitPos ((1 : Fin 32)) (((1 : Fin 4)) - 1))) (fun x => { x with missRun := 0 }) }; s), 
    by decide +kernel,
    by decide +kernel,
    by decide +kernel,
    by decide +kernel,
    by decide +kernel⟩,
   ⟨(1 : Fin 32), (let s : State := Tests.withYard Tests.up; let s : State := { s with ulink := s.ulink.upd ((unitPos ((1 : Fin 32)) 0)) (fun x => { x with reached := true }) }; let s : State := { s with ulink := s.ulink.upd ((unitPos ((1 : Fin 32)) 0)) (fun x => { x with missRun := 3 }) }; s), 
    by decide +kernel,
    by decide +kernel,
    by decide +kernel⟩,
   ⟨(1 : Fin 32), (1 : Fin 4), (Tests.up), 
    by decide +kernel⟩,
   ⟨(1 : Fin 32), (let s : State := Tests.withYard Tests.up; let s : State := { s with stalls := s.stalls.upd (((1 : Fin 32))) (fun x => { x with lstate := .lost }) }; let s : State := { s with stalls := s.stalls.upd (((1 : Fin 32))) (fun x => { x with enum := none }) }; s), 
    by decide +kernel,
    by decide +kernel,
    by decide +kernel,
    by decide +kernel⟩,
   ⟨(let s : State := Tests.withYard Tests.up; let s : State := { s with clk := { s.clk with ytime := 8000 } }; s), 
    by decide +kernel⟩,
   ⟨(1 : Fin 32), (0 : Word), (Tests.withYard Tests.up), 
    by decide +kernel,
    by decide +kernel⟩,
   ⟨(1 : Fin 32), (let s : State := Tests.withYard Tests.up; let s : State := { s with stalls := s.stalls.upd (((1 : Fin 32))) (fun x => { x with failRun := 3 }) }; s), 
    by decide +kernel,
    by decide +kernel,
    by decide +kernel⟩,
   ⟨(1 : Fin 32), (Tests.up), 
    by decide +kernel⟩,
   ⟨(1 : Fin 32), (let s : State := Tests.withYard Tests.up; let s : State := { s with stalls := s.stalls.upd (((1 : Fin 32))) (fun x => { x with lstate := .phyFault }) }; let s : State := { s with stalls := s.stalls.upd (((1 : Fin 32))) (fun x => { x with passRun := 8 }) }; s), 
    by decide +kernel,
    by decide +kernel,
    by decide +kernel⟩⟩

/-- Witnesses of the hypotheses of `EnumerationAndRosterRead`. -/
theorem witness_EnumerationAndRosterRead :
    (∃ (c : Cmd) (f : Flight) (s : State), (Executing s c f) ∧ (opField c 0 4 ≠ 0) ∧ (∀ i : Fin 32, (opField c 0 4).testBit i.val = true → (s.stalls.at i).str ≠ none ∧ (s.stalls.at i).oos = false ∧ s.stallHeld i = false ∧ (s.stalls.at i).enum = none)) ∧
    (∃ (c : Cmd) (f : Flight) (i : Fin 32) (s : State), (Executing s c f) ∧ ((opField c 0 4).testBit i.val = true) ∧ ((s.stalls.at i).oos = true) ∧ (∀ j : Fin 32, (opField c 0 4).testBit j.val = true → (s.stalls.at j).str ≠ none)) ∧
    (∃ (c : Cmd) (f : Flight) (s : State), (Executing s c f) ∧ (opField c 0 4 = 0)) ∧
    (∃ (i : Fin 32) (r : EnumRun) (s : State), ((s.stalls.at i).enum = some r) ∧ (r.phase = .query) ∧ (r.pos = 0) ∧ (r.first = 0) ∧ (r.rejoin = false) ∧ (r.a + 4 ≤ s.frame) ∧ ((s.stalls.at i).lost = false) ∧ (∀ k, (s.ulink.at (unitPos i k)).foundType = 0)) ∧
    (∃ (c : Cmd) (f : Flight) (s : State), (Executing s c f) ∧ (opByte c 0 < 32) ∧ (opField c 8 8 % 16 = 0)) :=
  ⟨⟨Tests.cmd ((1)), Tests.flight ((1)), (Tests.work ((1))), 
    Tests.executing (by decide +kernel),
    by decide +kernel,
    by decide +kernel⟩,
   ⟨Tests.cmd ((2 ^ ((1 : Fin 32)).val)), Tests.flight ((2 ^ ((1 : Fin 32)).val)), (1 : Fin 32), (let s : State := Tests.work ((2 ^ ((1 : Fin 32)).val)); let s : State := { s with stalls := s.stalls.upd (((1 : Fin 32))) (fun x => { x with oos := true }) }; s), 
    Tests.executing (by decide +kernel),
    by decide +kernel,
    by decide +kernel,
    by decide +kernel⟩,
   ⟨Tests.cmd ((0)), Tests.flight ((0)), (Tests.live ((0))), 
    Tests.executing (by decide +kernel),
    by decide +kernel⟩,
   ⟨(1 : Fin 32), ({ ({ phase := .query, pos := 0, a := 0, rejoin := false, first := 0 } : EnumRun) with phase := .query, pos := 0, first := 0, rejoin := false } : EnumRun), (let s : State := Tests.up; let s : State := { s with stalls := s.stalls.upd (((1 : Fin 32))) (fun x => { x with enum := some (({ ({ phase := .query, pos := 0, a := 0, rejoin := false, first := 0 } : EnumRun) with phase := .query, pos := 0, first := 0, rejoin := false } : EnumRun)) }) }; let s : State := { s with stalls := s.stalls.upd (((1 : Fin 32))) (fun x => { x with lost := false }) }; s), 
    by decide +kernel,
    by decide +kernel,
    by decide +kernel,
    by decide +kernel,
    by decide +kernel,
    by decide +kernel,
    by decide +kernel,
    by decide +kernel⟩,
   ⟨Tests.cmd (((32 - 1)) + (0) * 2 ^ 64), Tests.flight (((32 - 1)) + (0) * 2 ^ 64), (Tests.live (((32 - 1)) + (0) * 2 ^ 64)), 
    Tests.executing (by decide +kernel),
    by decide +kernel,
    by decide +kernel⟩⟩

/-- Witnesses of the hypotheses of `BalancingMasks`. -/
theorem witness_BalancingMasks :
    (∃ (c : Cmd) (f : Flight) (i : Fin 32) (k : Fin 4) (s : State), (Executing s c f) ∧ (opByte c 0 = i.val) ∧ (opByte c 1 = k.val) ∧ (s.isMc16 (unitPos i k) = true) ∧ ((s.stalls.at i).oos = false)) ∧
    (∃ (c : Cmd) (f : Flight) (s : State), (Executing s c f) ∧ (32 ≤ opByte c 0 ∨ 4 ≤ opByte c 1)) ∧
    (∃ (u : Fin 128) (since : Nat) (s : State), ((s.ulink.at u).hostFrom = some since) ∧ (0 < (s.ulink.at u).hostDur) ∧ (since + 64000000 * (s.ulink.at u).hostDur ≤ s.now)) ∧
    (∃ (u : Fin 128) (s : State), (s.driven (stallOf u) = true) ∧ (s.balanced u = true) ∧ ((s.stalls.at (stallOf u)).enum = none)) :=
  ⟨⟨Tests.cmd ((((1 : Fin 32)).val) + (((1 : Fin 4)).val) * 2 ^ 8), Tests.flight ((((1 : Fin 32)).val) + (((1 : Fin 4)).val) * 2 ^ 8), (1 : Fin 32), (1 : Fin 4), (let s : State := Tests.work ((((1 : Fin 32)).val) + (((1 : Fin 4)).val) * 2 ^ 8); let s : State := { s with stalls := s.stalls.upd (((1 : Fin 32))) (fun x => { x with oos := false }) }; s), 
    Tests.executing (by decide +kernel),
    by decide +kernel,
    by decide +kernel,
    by decide +kernel,
    by decide +kernel⟩,
   ⟨Tests.cmd ((32)), Tests.flight ((32)), (Tests.live ((32))), 
    Tests.executing (by decide +kernel),
    by decide +kernel⟩,
   ⟨(1 : Fin 128), (0 : Nat), (let s : State := Tests.up; let s : State := { s with ulink := s.ulink.upd (((1 : Fin 128))) (fun x => { x with hostFrom := some ((0 : Nat)) }) }; let s : State := { s with ulink := s.ulink.upd (((1 : Fin 128))) (fun x => { x with hostDur := 0 + 1 }) }; s), 
    by decide +kernel,
    by decide +kernel,
    by decide +kernel⟩,
   ⟨(1 : Fin 128), (let s : State := Tests.withYard Tests.up; let s : State := { s with stalls := s.stalls.upd ((stallOf ((1 : Fin 128)))) (fun x => { x with enum := none }) }; s), 
    by decide +kernel,
    by decide +kernel,
    by decide +kernel⟩⟩

/-- Witnesses of the hypotheses of `StallPackages`. -/
theorem witness_StallPackages :
    (∃ (c : Cmd) (f : Flight) (pkg : List Byte) (s : State), (Executing s c f) ∧ (s.rosterPackageOk (opField c 8 4) pkg = true) ∧ (opField c 0 8 % 16 = 0) ∧ (packageSigned s.sec.owner pkg = true) ∧ (s.misc.stallSeq.toNat < field pkg 4 4) ∧ (∀ i ∈ stallsIn (field pkg 0x10 4), s.stallHeld i = false ∧ (s.stalls.at i).oos = false ∧ (s.stalls.at i).enumerating = false) ∧ (∀ e ∈ rosterEntries pkg, (s.ulink.at e.1).foundType = e.2.1 ∧ (s.ulink.at e.1).foundId = e.2.2.2 ∧ (e.2.1 ≠ 0 → (s.ulink.at e.1).reached = true))) ∧
    (∃ (c : Cmd) (f : Flight) (pkg : List Byte) (s : State), (Executing s c f) ∧ (s.rosterPackageOk (opField c 8 4) pkg = true) ∧ (opField c 0 8 % 16 = 0) ∧ (packageSigned s.sec.owner pkg = true) ∧ (field pkg 4 4 ≤ s.misc.stallSeq.toNat)) ∧
    (∃ (c : Cmd) (f : Flight) (pkg : List Byte) (s : State), (Executing s c f) ∧ (s.rosterPackageOk (opField c 8 4) pkg = true) ∧ (opField c 0 8 % 16 = 0) ∧ (s.sec.owner = none)) ∧
    (∃ (c : Cmd) (f : Flight) (pkg : List Byte) (i : Fin 32) (s : State), (Executing s c f) ∧ (opField c 8 4 = 96) ∧ (pkg.length = 96) ∧ (packageHead 0x0D01 pkg = true) ∧ (stallsIn (field pkg 0x10 4) = [i]) ∧ (field pkg 0x14 1 = 0) ∧ (zeroBytes pkg 0x15 0x20 = true) ∧ ((s.stalls.at i).str ≠ none) ∧ (opField c 0 8 % 16 = 0) ∧ (packageSigned s.sec.owner pkg = true) ∧ (s.misc.stallSeq.toNat < field pkg 4 4) ∧ (s.stallHeld i = false) ∧ ((unitsOf i).any s.isMp4 = false) ∧ ((s.stalls.at i).oos = false)) :=
  ⟨⟨Tests.cmd (136 * 2 ^ 64), Tests.flight (136 * 2 ^ 64), (Laws.pkg 0x0C01 5 ([1] ++ List.replicate 15 0 ++ List.replicate 40 0) : List Byte), (let s : State := Tests.work (136 * 2 ^ 64); let s : State := { s with sec := { s.sec with owner := some Laws.key } }; let s : State := { s with ulink := Bank.fill 128 {} }; s), 
    Tests.executing (by decide +kernel),
    by simp only [State.rosterPackageOk, Laws.roster_pkg, Laws.pkg_length, Laws.pkg_head _ _ _ (show leNat (leBytes 4 0x0C01) = 0x0C01 by decide +kernel), Laws.field_from _ _ _ 0x10 4 (by decide), Laws.zero_from _ _ _ 0x14 0x20 (by decide) (by decide)]; decide +kernel,
    by decide +kernel,
    Laws.pkg_signed _ _ _,
    by rw [Laws.pkg_seq]; decide +kernel,
    by rw [Laws.field_from _ _ _ _ _ (by decide)]; decide +kernel,
    by rw [Laws.roster_pkg]; exact Tests.all_of_decide (by decide +kernel)⟩,
   ⟨Tests.cmd (136 * 2 ^ 64), Tests.flight (136 * 2 ^ 64), (Laws.pkg 0x0C01 5 ([1] ++ List.replicate 15 0 ++ List.replicate 40 0) : List Byte), (let s : State := Tests.work (136 * 2 ^ 64); let s : State := { s with sec := { s.sec with owner := some Laws.key } }; let s : State := { s with misc := { s.misc with stallSeq := 5 } }; s), 
    Tests.executing (by decide +kernel),
    by simp only [State.rosterPackageOk, Laws.roster_pkg, Laws.pkg_length, Laws.pkg_head _ _ _ (show leNat (leBytes 4 0x0C01) = 0x0C01 by decide +kernel), Laws.field_from _ _ _ 0x10 4 (by decide), Laws.zero_from _ _ _ 0x14 0x20 (by decide) (by decide)]; decide +kernel,
    by decide +kernel,
    Laws.pkg_signed _ _ _,
    by rw [Laws.pkg_seq]; decide +kernel⟩,
   ⟨Tests.cmd (136 * 2 ^ 64), Tests.flight (136 * 2 ^ 64), (Laws.pkg 0x0C01 5 ([1] ++ List.replicate 15 0 ++ List.replicate 40 0) : List Byte), (let s : State := Tests.work (136 * 2 ^ 64); let s : State := { s with sec.owner := none }; s), 
    Tests.executing (by decide +kernel),
    by simp only [State.rosterPackageOk, Laws.roster_pkg, Laws.pkg_length, Laws.pkg_head _ _ _ (show leNat (leBytes 4 0x0C01) = 0x0C01 by decide +kernel), Laws.field_from _ _ _ 0x10 4 (by decide), Laws.zero_from _ _ _ 0x14 0x20 (by decide) (by decide)]; decide +kernel,
    by decide +kernel,
    by decide +kernel⟩,
   ⟨Tests.cmd (96 * 2 ^ 64), Tests.flight (96 * 2 ^ 64), (Laws.pkg 0x0D01 5 ([1] ++ List.replicate 15 0) : List Byte), (0 : Fin 32), (let s : State := Tests.work (96 * 2 ^ 64); let s : State := { s with sec := { s.sec with owner := some Laws.key } }; let s : State := { s with ulink := s.ulink.put 3 {} }; s), 
    Tests.executing (by decide +kernel),
    by decide +kernel,
    by rw [Laws.pkg_length]; rfl,
    Laws.pkg_head _ _ _ (by decide +kernel),
    by rw [Laws.field_from _ _ _ _ _ (by decide)]; decide +kernel,
    by rw [Laws.field_from _ _ _ _ _ (by decide)]; decide +kernel,
    by rw [Laws.zero_from _ _ _ _ _ (by decide) (by decide)]; decide +kernel,
    by decide +kernel,
    by decide +kernel,
    Laws.pkg_signed _ _ _,
    by rw [Laws.pkg_seq]; decide +kernel,
    by decide +kernel,
    by decide +kernel,
    by decide +kernel⟩⟩

/-- Witnesses of the hypotheses of `RatesAndSlotListsTakeEffect`. -/
theorem witness_RatesAndSlotListsTakeEffect :
    (∃ (str : Fin 4) (rate : BitVec 2) (b : Nat) (c : Cmd) (f : Flight) (s : State), (Executing s c f) ∧ ((s.strs.at str).ratePend = [(rate, b, c)]) ∧ (b ≤ s.frame)) ∧
    (∃ (str : Fin 4) (s : State), (∀ p ∈ (s.strs.at str).ratePend, s.frame < p.2.1)) ∧
    (∃ (u : Fin 128) (codes : List (BitVec 8)) (b : Nat) (c : Cmd) (f : Flight) (s : State), (Executing s c f) ∧ ((s.uswp.at u).staged = some ⟨codes, some b, [c]⟩) ∧ (b ≤ s.frame)) ∧
    (∃ (u : Fin 128) (codes : List (BitVec 8)) (b : Nat) (cs : List Cmd) (s : State), ((s.uswp.at u).staged = some ⟨codes, some b, cs⟩) ∧ (s.frame < b)) :=
  ⟨⟨(1 : Fin 4), (0 : BitVec 2), (0 : Nat), Tests.cmd (0), Tests.flight (0), (let s : State := Tests.live (0); let s : State := { s with strs := s.strs.upd (((1 : Fin 4))) (fun x => { x with ratePend := [(((0 : BitVec 2)), ((0 : Nat)), (Tests.cmd (0)))] }) }; s), 
    Tests.executing (by decide +kernel),
    by decide +kernel,
    by decide +kernel⟩,
   ⟨(1 : Fin 4), (Tests.up), 
    by decide +kernel⟩,
   ⟨(1 : Fin 128), ([] : List (BitVec 8)), (0 : Nat), Tests.cmd (0), Tests.flight (0), (let s : State := Tests.live (0); let s : State := { s with uswp := s.uswp.upd (((1 : Fin 128))) (fun x => { x with staged := some ⟨(([] : List (BitVec 8))), some ((0 : Nat)), [(Tests.cmd (0))]⟩ }) }; s), 
    Tests.executing (by decide +kernel),
    by decide +kernel,
    by decide +kernel⟩,
   ⟨(1 : Fin 128), ([] : List (BitVec 8)), (288000001 : Nat), ([] : List Cmd), (let s : State := Tests.withYard Tests.up; let s : State := { s with uswp := s.uswp.upd (((1 : Fin 128))) (fun x => { x with staged := some ⟨(([] : List (BitVec 8))), some ((288000001 : Nat)), (([] : List Cmd))⟩ }) }; s), 
    by decide +kernel,
    by decide +kernel⟩⟩

/-- Witnesses of the hypotheses of `TripKindsAndLimits`. -/
theorem witness_TripKindsAndLimits :
    (∃ (str : Fin 4) (k : TripKind) (s : State), ((s.trips.due.at str).getLsbD (kindPlace k) = true) ∧ ((s.trips.lim.at str).on k = true)) ∧
    (∃ (str : Fin 4) (k : TripKind) (s : State), ((s.trips.due.at str).getLsbD (kindPlace k) = false ∨ (s.trips.lim.at str).on k = false)) ∧
    (∃ (str : Fin 4) (k : TripKind) (s : State), ((s.strs.at str).tripped.getLsbD (kindPlace k) = true) ∧ (s.released str k = true ∨ (s.trips.lim.at str).on k = false)) ∧
    (∃ (str : Fin 4) (k : TripKind) (s : State), ((s.strs.at str).tripped.getLsbD (kindPlace k) = false ∨ (s.released str k = false ∧ (s.trips.lim.at str).on k = true))) ∧
    (∃ (c : Cmd) (f : Flight) (str : Fin 4) (s : State), (Executing s c f) ∧ (opByte c 0 = str.val) ∧ (opByte c 1 ≤ 15) ∧ ((tripOperands c).inRange = true) ∧ (s.strHeld str = false)) ∧
    (∃ (c : Cmd) (f : Flight) (str : Fin 4) (s : State), (Executing s c f) ∧ (opByte c 0 = str.val) ∧ (opByte c 1 ≤ 15) ∧ ((tripOperands c).inRange = true) ∧ (s.strHeld str = true) ∧ (s.trips.pend.at str = []) ∧ ((s.trips.lim.at str).relaxes (tripOperands c) = true)) ∧
    (∃ (c : Cmd) (f : Flight) (s : State), (Executing s c f) ∧ (3 < opByte c 0 ∨ 15 < opByte c 1 ∨ (tripOperands c).inRange = false)) ∧
    (∃ (sense : Bank 12 Nat) (str : Fin 4) (new : TripLimits) (c : Cmd) (s : State), (s.isl.tb = true) ∧ (s.trips.pend.at str = [(new, c)])) :=
  ⟨⟨(1 : Fin 4), (.ov : TripKind), (let s : State := Tests.withYard Tests.up; let s : State := { s with trips := { s.trips with due := Bank.fill 4 15 } }; s), 
    by decide +kernel,
    by decide +kernel⟩,
   ⟨(1 : Fin 4), (.ov : TripKind), (Tests.up), 
    by decide +kernel⟩,
   ⟨(1 : Fin 4), (.ov : TripKind), (let s : State := Tests.up; let s : State := { s with strs := s.strs.upd (((1 : Fin 4))) (fun x => { x with tripped := BitVec.allOnes _ }) }; s), 
    by decide +kernel,
    by decide +kernel⟩,
   ⟨(1 : Fin 4), (.ov : TripKind), (Tests.up), 
    by decide +kernel⟩,
   ⟨Tests.cmd (1 + 0xF * 2 ^ 8 + 4250000 * 2 ^ 32 + 2000000 * 2 ^ 64 + 65000 * 2 ^ 96 + 500000 * 2 ^ 128 + 20000 * 2 ^ 160 + 20000 * 2 ^ 176 + 5000 * 2 ^ 192 + 1000 * 2 ^ 208 + 2 * 2 ^ 224 + 2 * 2 ^ 232 + 2 * 2 ^ 240 + 2 * 2 ^ 248), Tests.flight (1 + 0xF * 2 ^ 8 + 4250000 * 2 ^ 32 + 2000000 * 2 ^ 64 + 65000 * 2 ^ 96 + 500000 * 2 ^ 128 + 20000 * 2 ^ 160 + 20000 * 2 ^ 176 + 5000 * 2 ^ 192 + 1000 * 2 ^ 208 + 2 * 2 ^ 224 + 2 * 2 ^ 232 + 2 * 2 ^ 240 + 2 * 2 ^ 248), (1 : Fin 4), (Tests.work (1 + 0xF * 2 ^ 8 + 4250000 * 2 ^ 32 + 2000000 * 2 ^ 64 + 65000 * 2 ^ 96 + 500000 * 2 ^ 128 + 20000 * 2 ^ 160 + 20000 * 2 ^ 176 + 5000 * 2 ^ 192 + 1000 * 2 ^ 208 + 2 * 2 ^ 224 + 2 * 2 ^ 232 + 2 * 2 ^ 240 + 2 * 2 ^ 248)), 
    Tests.executing (by decide +kernel),
    by decide +kernel,
    by decide +kernel,
    by decide +kernel,
    by decide +kernel⟩,
   ⟨Tests.cmd (1 + 0xF * 2 ^ 8 + 4260000 * 2 ^ 32 + 2000000 * 2 ^ 64 + 65000 * 2 ^ 96 + 500000 * 2 ^ 128 + 20000 * 2 ^ 160 + 20000 * 2 ^ 176 + 5000 * 2 ^ 192 + 1000 * 2 ^ 208 + 2 * 2 ^ 224 + 2 * 2 ^ 232 + 2 * 2 ^ 240 + 2 * 2 ^ 248), Tests.flight (1 + 0xF * 2 ^ 8 + 4260000 * 2 ^ 32 + 2000000 * 2 ^ 64 + 65000 * 2 ^ 96 + 500000 * 2 ^ 128 + 20000 * 2 ^ 160 + 20000 * 2 ^ 176 + 5000 * 2 ^ 192 + 1000 * 2 ^ 208 + 2 * 2 ^ 224 + 2 * 2 ^ 232 + 2 * 2 ^ 240 + 2 * 2 ^ 248), (1 : Fin 4), (let s : State := Tests.work (1 + 0xF * 2 ^ 8 + 4260000 * 2 ^ 32 + 2000000 * 2 ^ 64 + 65000 * 2 ^ 96 + 500000 * 2 ^ 128 + 20000 * 2 ^ 160 + 20000 * 2 ^ 176 + 5000 * 2 ^ 192 + 1000 * 2 ^ 208 + 2 * 2 ^ 224 + 2 * 2 ^ 232 + 2 * 2 ^ 240 + 2 * 2 ^ 248); let s : State := { s with trips.pend := s.trips.pend.put (((1 : Fin 4))) ([]) }; let s : State := { s with strs := s.strs.upd 1 (fun zz => { zz with st := .closed }) }; s), 
    Tests.executing (by decide +kernel),
    by decide +kernel,
    by decide +kernel,
    by decide +kernel,
    by decide +kernel,
    by decide +kernel,
    by decide +kernel⟩,
   ⟨Tests.cmd (((3 + 1))), Tests.flight (((3 + 1))), (Tests.live (((3 + 1)))), 
    Tests.executing (by decide +kernel),
    by decide +kernel⟩,
   ⟨(Bank.fill 12 0 : Bank 12 Nat), (1 : Fin 4), ({} : TripLimits), Tests.cmd (0), (let s : State := Tests.up; let s : State := { s with isl.tb := true }; let s : State := { s with trips.pend := s.trips.pend.put (((1 : Fin 4))) ([((({} : TripLimits)), (Tests.cmd (0)))]) }; s), 
    by decide +kernel,
    by decide +kernel⟩⟩

/-- Witnesses of the hypotheses of `SweepConfigAndSampleRead`. -/
theorem witness_SweepConfigAndSampleRead :
    (∃ (c : Cmd) (f : Flight) (str : Fin 4) (s : State), (Executing s c f) ∧ (opByte c 0 = 0) ∧ (opByte c 1 = str.val) ∧ (opByte c 3 ≤ 3) ∧ (s.strHeld str = false)) ∧
    (∃ (c : Cmd) (f : Flight) (str : Fin 4) (s : State), (Executing s c f) ∧ (opByte c 0 = 0) ∧ (opByte c 1 = str.val) ∧ (opByte c 3 ≤ 3) ∧ (s.strHeld str = true)) ∧
    (∃ (c : Cmd) (f : Flight) (i : Fin 32) (k : Fin 4) (str : Fin 4) (s : State), (Executing s c f) ∧ (opByte c 0 = 1) ∧ (opByte c 1 = i.val) ∧ (opByte c 2 = k.val) ∧ ((s.stalls.at i).str = some str) ∧ (s.isMc16 (unitPos i k) = true) ∧ (slotListOk (opByte c 3) ((List.range 24).map (fun n => BitVec.ofNat 8 (opByte c (4 + n)))) = true) ∧ (s.strHeld str = false) ∧ ((s.stalls.at i).oos = false)) ∧
    (∃ (c : Cmd) (f : Flight) (i : Fin 32) (s : State), (Executing s c f) ∧ (opByte c 0 = 2) ∧ (opByte c 1 = i.val) ∧ ((s.stalls.at i).str ≠ none) ∧ (opByte c 3 = 0) ∧ (1 ≤ opField c 4 2) ∧ (opField c 4 2 ≤ 1024) ∧ (opByte c 6 ≤ 1) ∧ ((s.stalls.at i).oos = false)) ∧
    (∃ (c : Cmd) (f : Flight) (s : State), (Executing s c f) ∧ (opByte c 0 = 3) ∧ (∀ i : Fin 32, (opField c 4 4).testBit i.val = true → (s.stalls.at i).str ≠ none) ∧ (opField c 8 2 ≤ 3600) ∧ (opField c 10 2 ≤ 1023) ∧ (opField c 12 2 < opField c 10 2) ∧ (1 ≤ opByte c 14) ∧ (opByte c 14 ≤ 64)) ∧
    (∃ (c : Cmd) (f : Flight) (i : Fin 32) (k : Fin 4) (s : State), (Executing s c f) ∧ (opByte c 0 = i.val) ∧ (opByte c 1 = k.val) ∧ (opByte c 2 ≤ 1) ∧ ((s.stalls.at i).str ≠ none) ∧ (s.isMc16 (unitPos i k) = true ∨ s.isMp4 (unitPos i k) = true) ∧ (opField c 8 8 % 16 = 0)) :=
  ⟨⟨Tests.cmd ((0) + (((1 : Fin 4)).val) * 2 ^ 8 + (3) * 2 ^ 24), Tests.flight ((0) + (((1 : Fin 4)).val) * 2 ^ 8 + (3) * 2 ^ 24), (1 : Fin 4), (Tests.live ((0) + (((1 : Fin 4)).val) * 2 ^ 8 + (3) * 2 ^ 24)), 
    Tests.executing (by decide +kernel),
    by decide +kernel,
    by decide +kernel,
    by decide +kernel,
    by decide +kernel⟩,
   ⟨Tests.cmd ((0) + (((1 : Fin 4)).val) * 2 ^ 8 + (3) * 2 ^ 24), Tests.flight ((0) + (((1 : Fin 4)).val) * 2 ^ 8 + (3) * 2 ^ 24), (1 : Fin 4), (let s : State := Tests.work ((0) + (((1 : Fin 4)).val) * 2 ^ 8 + (3) * 2 ^ 24); let s : State := { s with strs := s.strs.upd 1 (fun zz => { zz with st := .closed }) }; s), 
    Tests.executing (by decide +kernel),
    by decide +kernel,
    by decide +kernel,
    by decide +kernel,
    by decide +kernel⟩,
   ⟨Tests.cmd (1 + 1 * 2 ^ 8 + 1 * 2 ^ 16 + 19 * 2 ^ 24 + 0 * 2 ^ 32 + 1 * 2 ^ 40 + 2 * 2 ^ 48 + 3 * 2 ^ 56 + 4 * 2 ^ 64 + 5 * 2 ^ 72 + 6 * 2 ^ 80 + 7 * 2 ^ 88 + 8 * 2 ^ 96 + 9 * 2 ^ 104 + 10 * 2 ^ 112 + 11 * 2 ^ 120 + 12 * 2 ^ 128 + 13 * 2 ^ 136 + 14 * 2 ^ 144 + 15 * 2 ^ 152 + 16 * 2 ^ 160 + 17 * 2 ^ 168 + 18 * 2 ^ 176 + 255 * 2 ^ 184 + 255 * 2 ^ 192 + 255 * 2 ^ 200 + 255 * 2 ^ 208 + 255 * 2 ^ 216), Tests.flight (1 + 1 * 2 ^ 8 + 1 * 2 ^ 16 + 19 * 2 ^ 24 + 0 * 2 ^ 32 + 1 * 2 ^ 40 + 2 * 2 ^ 48 + 3 * 2 ^ 56 + 4 * 2 ^ 64 + 5 * 2 ^ 72 + 6 * 2 ^ 80 + 7 * 2 ^ 88 + 8 * 2 ^ 96 + 9 * 2 ^ 104 + 10 * 2 ^ 112 + 11 * 2 ^ 120 + 12 * 2 ^ 128 + 13 * 2 ^ 136 + 14 * 2 ^ 144 + 15 * 2 ^ 152 + 16 * 2 ^ 160 + 17 * 2 ^ 168 + 18 * 2 ^ 176 + 255 * 2 ^ 184 + 255 * 2 ^ 192 + 255 * 2 ^ 200 + 255 * 2 ^ 208 + 255 * 2 ^ 216), (1 : Fin 32), (1 : Fin 4), (1 : Fin 4), (let s : State := Tests.work (1 + 1 * 2 ^ 8 + 1 * 2 ^ 16 + 19 * 2 ^ 24 + 0 * 2 ^ 32 + 1 * 2 ^ 40 + 2 * 2 ^ 48 + 3 * 2 ^ 56 + 4 * 2 ^ 64 + 5 * 2 ^ 72 + 6 * 2 ^ 80 + 7 * 2 ^ 88 + 8 * 2 ^ 96 + 9 * 2 ^ 104 + 10 * 2 ^ 112 + 11 * 2 ^ 120 + 12 * 2 ^ 128 + 13 * 2 ^ 136 + 14 * 2 ^ 144 + 15 * 2 ^ 152 + 16 * 2 ^ 160 + 17 * 2 ^ 168 + 18 * 2 ^ 176 + 255 * 2 ^ 184 + 255 * 2 ^ 192 + 255 * 2 ^ 200 + 255 * 2 ^ 208 + 255 * 2 ^ 216); let s : State := { s with stalls := s.stalls.upd (((1 : Fin 32))) (fun x => { x with str := some ((1 : Fin 4)) }) }; let s : State := { s with stalls := s.stalls.upd (((1 : Fin 32))) (fun x => { x with oos := false }) }; s), 
    Tests.executing (by decide +kernel),
    by decide +kernel,
    by decide +kernel,
    by decide +kernel,
    by decide +kernel,
    by decide +kernel,
    by decide +kernel,
    by decide +kernel,
    by decide +kernel⟩,
   ⟨Tests.cmd ((2) + (((1 : Fin 32)).val) * 2 ^ 8 + (0) * 2 ^ 24 + (1) * 2 ^ 32 + (1) * 2 ^ 48), Tests.flight ((2) + (((1 : Fin 32)).val) * 2 ^ 8 + (0) * 2 ^ 24 + (1) * 2 ^ 32 + (1) * 2 ^ 48), (1 : Fin 32), (let s : State := Tests.work ((2) + (((1 : Fin 32)).val) * 2 ^ 8 + (0) * 2 ^ 24 + (1) * 2 ^ 32 + (1) * 2 ^ 48); let s : State := { s with stalls := s.stalls.upd (((1 : Fin 32))) (fun x => { x with oos := false }) }; s), 
    Tests.executing (by decide +kernel),
    by decide +kernel,
    by decide +kernel,
    by decide +kernel,
    by decide +kernel,
    by decide +kernel,
    by decide +kernel,
    by decide +kernel,
    by decide +kernel⟩,
   ⟨Tests.cmd (3 + 1 * 2 ^ 32 + 1 * 2 ^ 64 + 10 * 2 ^ 80 + 5 * 2 ^ 96 + 1 * 2 ^ 112), Tests.flight (3 + 1 * 2 ^ 32 + 1 * 2 ^ 64 + 10 * 2 ^ 80 + 5 * 2 ^ 96 + 1 * 2 ^ 112), (Tests.work (3 + 1 * 2 ^ 32 + 1 * 2 ^ 64 + 10 * 2 ^ 80 + 5 * 2 ^ 96 + 1 * 2 ^ 112)), 
    Tests.executing (by decide +kernel),
    by decide +kernel,
    by decide +kernel,
    by decide +kernel,
    by decide +kernel,
    by decide +kernel,
    by decide +kernel,
    by decide +kernel⟩,
   ⟨Tests.cmd ((((1 : Fin 32)).val) + (((1 : Fin 4)).val) * 2 ^ 8 + (1) * 2 ^ 16 + (0) * 2 ^ 64), Tests.flight ((((1 : Fin 32)).val) + (((1 : Fin 4)).val) * 2 ^ 8 + (1) * 2 ^ 16 + (0) * 2 ^ 64), (1 : Fin 32), (1 : Fin 4), (Tests.work ((((1 : Fin 32)).val) + (((1 : Fin 4)).val) * 2 ^ 8 + (1) * 2 ^ 16 + (0) * 2 ^ 64)), 
    Tests.executing (by decide +kernel),
    by decide +kernel,
    by decide +kernel,
    by decide +kernel,
    by decide +kernel,
    by decide +kernel,
    by decide +kernel⟩⟩

/-- Witnesses of the hypotheses of `CheckCyclesAndAges`. -/
theorem witness_CheckCyclesAndAges :
    (∃ (k : Wake) (s : State), (s.pwr.wake = some k) ∧ (k.check = true) ∧ (k.step = 5) ∧ (s.checkOver = true) ∧ (s.checkFinding = none)) ∧
    (∃ (k : Wake) (r : Nat) (i : Fin 32) (s : State), (s.pwr.wake = some k) ∧ (k.check = true) ∧ (k.step = 5) ∧ (s.checkOver = true) ∧ (s.checkFinding = some (r, i))) ∧
    (∃ (s : State), (s.pwr.wake = none ∨ s.checkOver = false ∨ ∃ k, s.pwr.wake = some k ∧ (k.check = false ∨ k.step ≠ 5))) ∧
    (∃ (str : Fin 4) (dir : Crossing) (s : State), (s.usedStr str = true) ∧ (decide (500 * ticksPerMs ≤ s.dataAge str) = (dir == .up)) ∧ ((s.strs.at str).ageC = !(dir == .up))) ∧
    (∃ (str : Fin 4) (dir : Crossing) (s : State), (s.usedStr str = true) ∧ (decide (500 * ticksPerMs ≤ s.currentAge str) = (dir == .up)) ∧ ((s.strs.at str).curC = !(dir == .up))) ∧
    (∃ (str : Fin 4) (s : State), (s.usedStr str = true) ∧ (2000 * ticksPerMs ≤ s.dataAge str) ∧ ((s.strs.at str).ageB = false) ∧ (s.strSt str = .closed ∨ s.strSt str = .overlap)) ∧
    (∃ (str : Fin 4) (s : State), (s.usedStr str = true) ∧ (s.dataAge str < 2000 * ticksPerMs) ∧ ((s.strs.at str).ageB = true)) ∧
    (∃ (str : Fin 4) (s : State), (s.usedStr str = true) ∧ (2000 * ticksPerMs ≤ s.currentAge str) ∧ ((s.strs.at str).curB = false) ∧ (s.strSt str = .closed ∨ s.strSt str = .overlap)) ∧
    (∃ (str : Fin 4) (dir : Crossing) (s : State), (decide (500 * ticksPerMs ≤ s.dataAge str) ≠ (dir == .up))) ∧
    (∃ (u : Fin 128) (c : Fin 16) (str : Fin 4) (s : State), (s.strOf u = some str) ∧ (s.isMc16 u = true) ∧ (s.outOfService u = false) ∧ (s.cellInvalid u c.val = true) ∧ ((s.strs.at str).service = false) ∧ (60 * ticksPerS ≤ s.invAge u c) ∧ (s.strSt str = .closed ∨ s.strSt str = .overlap)) ∧
    (∃ (u : Fin 128) (c : Fin 16) (str : Fin 4) (s : State), (s.strOf u = some str) ∧ ((s.strs.at str).service = true)) :=
  ⟨⟨({ ({ step := 1, src := 3, check := false, boot := false, loud := true, since := 0 } : Wake) with check := true, step := 5 } : Wake), (let s : State := Tests.up; let s : State := { s with pwr.wake := some (({ ({ step := 1, src := 3, check := false, boot := false, loud := true, since := 0 } : Wake) with check := true, step := 5 } : Wake)) }; s), 
    by decide +kernel,
    by decide +kernel,
    by decide +kernel,
    by decide +kernel,
    by decide +kernel⟩,
   ⟨({ ({ step := 1, src := 3, check := false, boot := false, loud := true, since := 0 } : Wake) with check := true, step := 5 } : Wake), (3 : Nat), (1 : Fin 32), (let s : State := Tests.withYard Tests.up; let s : State := { s with pwr.wake := some (({ ({ step := 1, src := 3, check := false, boot := false, loud := true, since := 0 } : Wake) with check := true, step := 5 } : Wake)) }; let s : State := { s with stalls := s.stalls.upd 1 (fun zz => { zz with lstate := .lost }) }; let s : State := { s with sleep := { s.sleep with mask := 2, sweeps := 0 } }; s), 
    by decide +kernel,
    by decide +kernel,
    by decide +kernel,
    by decide +kernel,
    by decide +kernel⟩,
   ⟨(let s : State := Tests.up; let s : State := { s with pwr.wake := none }; s), 
    by decide +kernel⟩,
   ⟨(1 : Fin 4), (.up : Crossing), (let s : State := Tests.withYard Tests.up; let s : State := { s with strs := s.strs.upd (((1 : Fin 4))) (fun x => { x with ageC := !(((.up : Crossing)) == .up) }) }; s), 
    by decide +kernel,
    by decide +kernel,
    by decide +kernel⟩,
   ⟨(1 : Fin 4), (.up : Crossing), (let s : State := Tests.withYard Tests.up; let s : State := { s with strs := s.strs.upd (((1 : Fin 4))) (fun x => { x with curC := !(((.up : Crossing)) == .up) }) }; s), 
    by decide +kernel,
    by decide +kernel,
    by decide +kernel⟩,
   ⟨(1 : Fin 4), (let s : State := Tests.withYard Tests.up; let s : State := { s with strs := s.strs.upd (((1 : Fin 4))) (fun x => { x with ageB := false }) }; let s : State := { s with strs := s.strs.upd (((1 : Fin 4))) (fun x => { x with st := .closed }) }; s), 
    by decide +kernel,
    by decide +kernel,
    by decide +kernel,
    by decide +kernel⟩,
   ⟨(1 : Fin 4), (let s : State := Tests.withYard Tests.up; let s : State := { s with strs := s.strs.upd (((1 : Fin 4))) (fun x => { x with ageB := true }) }; let s : State := { s with uint := Bank.fill 128 { cellGood := Bank.fill 16 2304000000000 } }; s), 
    by decide +kernel,
    by decide +kernel,
    by decide +kernel⟩,
   ⟨(1 : Fin 4), (let s : State := Tests.withYard Tests.up; let s : State := { s with strs := s.strs.upd (((1 : Fin 4))) (fun x => { x with curB := false }) }; let s : State := { s with strs := s.strs.upd (((1 : Fin 4))) (fun x => { x with st := .closed }) }; s), 
    by decide +kernel,
    by decide +kernel,
    by decide +kernel,
    by decide +kernel⟩,
   ⟨(1 : Fin 4), (.up : Crossing), (Tests.up), 
    by decide +kernel⟩,
   ⟨(1 : Fin 128), (1 : Fin 16), (1 : Fin 4), (let s : State := Tests.withYard Tests.up; let s : State := { s with strs := s.strs.upd (((1 : Fin 4))) (fun x => { x with service := false }) }; let s : State := { s with strs := s.strs.upd (((1 : Fin 4))) (fun x => { x with st := .closed }) }; let s : State := { s with uint := s.uint.upd 1 (fun zz => { zz with invWire := 0xFFFF, invFrom := Bank.fill 16 (some 0) }) }; s), 
    by decide +kernel,
    by decide +kernel,
    by decide +kernel,
    by decide +kernel,
    by decide +kernel,
    by decide +kernel,
    by decide +kernel⟩,
   ⟨(1 : Fin 128), (1 : Fin 16), (1 : Fin 4), (let s : State := Tests.withYard Tests.up; let s : State := { s with strs := s.strs.upd (((1 : Fin 4))) (fun x => { x with service := true }) }; s), 
    by decide +kernel,
    by decide +kernel⟩⟩

/-- Witnesses of the hypotheses of `PlausibilityConditions`. -/
theorem witness_PlausibilityConditions :
    (∃ (u : Fin 128) (d : Nat) (s : State), (s.outOfService u = false) ∧ (s.isMc16 u = true) ∧ (s.swept u = true) ∧ (s.stackDiff u = some d)) ∧
    (∃ (u : Fin 128) (s : State), (s.outOfService u = false) ∧ (s.isMc16 u = true) ∧ (s.swept u = false)) ∧
    (∃ (u : Fin 128) (since : Nat) (s : State), ((s.uint.at u).fail.since = some since) ∧ ((s.uint.at u).fail.on = false) ∧ (since + 1000 * ticksPerMs ≤ s.now)) ∧
    (∃ (str : Fin 4) (since : Nat) (s : State), ((s.strs.at str).pairCond.since = some since) ∧ ((s.strs.at str).pairCond.on = false) ∧ (since + 100 * ticksPerMs ≤ s.now) ∧ (s.strSt str = .closed)) ∧
    (∃ (u : Fin 128) (gone : Nat) (s : State), ((s.uint.at u).fail.absent = some gone) ∧ ((s.uint.at u).fail.on = true) ∧ (gone + 10 * ticksPerS ≤ s.now)) ∧
    (∃ (p : PlausId) (s : State), ((s.plausCond p).since = none)) :=
  ⟨⟨(1 : Fin 128), (18000000 : Nat), (let s : State := Tests.withYard Tests.up; let s : State := { s with uswp := s.uswp.upd 1 (fun zz => { zz with alHist := [(0, (List.range 24).map (fun qq => (BitVec.ofNat 8 qq, { val := 3000000, st := .valid })))], averaged := { missing := false, nslot := 24, slots := List.replicate 24 { val := 3000000, st := .valid } }, codes := (List.range 24).map (BitVec.ofNat 8), cfgList := (List.range 24).map (BitVec.ofNat 8) }) }; s), 
    by decide +kernel,
    by decide +kernel,
    by decide +kernel,
    by decide +kernel⟩,
   ⟨(1 : Fin 128), (let s : State := Tests.withYard Tests.up; let s : State := { s with ulink := s.ulink.upd 1 (fun zz => { zz with sweepFrom := none }) }; s), 
    by decide +kernel,
    by decide +kernel,
    by decide +kernel⟩,
   ⟨(1 : Fin 128), (0 : Nat), (let s : State := Tests.up; let s : State := { s with uint := s.uint.upd (((1 : Fin 128))) (fun x => { x with fail.since := some ((0 : Nat)) }) }; let s : State := { s with uint := s.uint.upd (((1 : Fin 128))) (fun x => { x with fail.on := false }) }; s), 
    by decide +kernel,
    by decide +kernel,
    by decide +kernel⟩,
   ⟨(1 : Fin 4), (0 : Nat), (let s : State := Tests.up; let s : State := { s with strs := s.strs.upd (((1 : Fin 4))) (fun x => { x with pairCond.since := some ((0 : Nat)) }) }; let s : State := { s with strs := s.strs.upd (((1 : Fin 4))) (fun x => { x with pairCond.on := false }) }; let s : State := { s with strs := s.strs.upd (((1 : Fin 4))) (fun x => { x with st := .closed }) }; s), 
    by decide +kernel,
    by decide +kernel,
    by decide +kernel,
    by decide +kernel⟩,
   ⟨(1 : Fin 128), (0 : Nat), (let s : State := Tests.up; let s : State := { s with uint := s.uint.upd (((1 : Fin 128))) (fun x => { x with fail.absent := some ((0 : Nat)) }) }; let s : State := { s with uint := s.uint.upd (((1 : Fin 128))) (fun x => { x with fail.on := true }) }; s), 
    by decide +kernel,
    by decide +kernel,
    by decide +kernel⟩,
   ⟨(.stackWarn 0 : PlausId), (Tests.up), 
    by decide +kernel⟩⟩

/-- Witnesses of the hypotheses of `OpenWireProbes`. -/
theorem witness_OpenWireProbes :
    (∃ (q : ProbeReq) (s : State), (s.integ.probeQ.find? s.probeFree = some q)) ∧
    (∃ (u : Fin 128) (q : Probe) (p : Nat) (s : State), ((s.uint.at u).probe = some q) ∧ (q.p = some p) ∧ (q.ended = false) ∧ (p + 32 ≤ s.frame)) ∧
    (∃ (u : Fin 128) (q : Probe) (p : Nat) (s : State), ((s.uint.at u).probe = some q) ∧ (q.p = some p) ∧ (s.frame < p + 32)) ∧
    (∃ (u : Fin 128) (w : Fin 16) (q : Probe) (p : Nat) (n : Nat) (m : Nat) (s : State), (w ≠ 0) ∧ ((s.uint.at u).probe = some q) ∧ (q.p = some p) ∧ (q.why = .suspect) ∧ (q.wires = [w]) ∧ (q.ended = true) ∧ (p + 31 < ((s.uswp.at u).alHist.headD (0, [])).1 + framesOf (s.rateNow u)) ∧ ((s.uswp.at u).probeOutcome q.mask p w = (1, m)) ∧ (n = w.val - 1)) ∧
    (∃ (u : Fin 128) (w : Fin 16) (t0 : Nat) (s : State), (w ≠ 0) ∧ (((s.uint.at u).wires.at w).retryAt = some t0) ∧ (t0 ≤ s.now) ∧ (s.swept u = true)) ∧
    (∃ (c : Cmd) (f : Flight) (u : Fin 128) (w : Fin 16) (s : State), (Executing s c f) ∧ (s.namedMc16 (opByte c 0) (opByte c 1) = some u) ∧ (opByte c 2 = 0) ∧ (opByte c 3 = w.val) ∧ (w ≠ 0) ∧ (s.outOfService u = false) ∧ (s.swept u = true) ∧ (s.commandProbe u = false)) ∧
    (∃ (c : Cmd) (f : Flight) (u : Fin 128) (w : Fin 16) (q : Probe) (p : Nat) (s : State), (Executing s c f) ∧ (w ≠ 0) ∧ ((s.uint.at u).probe = some q) ∧ (q.p = some p) ∧ (q.why = .command 0 c) ∧ (q.wires = [w]) ∧ (q.ended = true) ∧ (p + 31 < ((s.uswp.at u).alHist.headD (0, [])).1 + framesOf (s.rateNow u))) ∧
    (∃ (c : Cmd) (f : Flight) (u : Fin 128) (s : State), (Executing s c f) ∧ (s.namedMc16 (opByte c 0) (opByte c 1) = some u) ∧ (opByte c 2 = 1) ∧ (s.outOfService u = false) ∧ (s.swept u = false)) :=
  ⟨⟨(({ unit := 1, probe := ({ why := .suspect, wires := [1], mask := 0x0001, p := none, ended := false } : Probe) } : ProbeReq) : ProbeReq), (let s : State := Tests.withYard Tests.up; let s : State := { s with integ := { s.integ with probeQ := [({ unit := 1, probe := ({ why := .suspect, wires := [1], mask := 0x0001, p := none, ended := false } : Probe) } : ProbeReq)] } }; s), 
    by decide +kernel⟩,
   ⟨(1 : Fin 128), ({ ({ why := .suspect, wires := [1], mask := 0, p := none, ended := false } : Probe) with p := some ((0 : Nat)), ended := false } : Probe), (0 : Nat), (let s : State := Tests.up; let s : State := { s with uint := s.uint.upd (((1 : Fin 128))) (fun x => { x with probe := some (({ ({ why := .suspect, wires := [1], mask := 0, p := none, ended := false } : Probe) with p := some ((0 : Nat)), ended := false } : Probe)) }) }; s), 
    by decide +kernel,
    by decide +kernel,
    by decide +kernel,
    by decide +kernel⟩,
   ⟨(1 : Fin 128), (({ why := .suspect, wires := [1], mask := 0x0001, p := some 288000000, ended := false } : Probe) : Probe), (288000000 : Nat), (let s : State := Tests.withYard Tests.up; let s : State := { s with uint := s.uint.upd (((1 : Fin 128))) (fun x => { x with probe := some ((({ why := .suspect, wires := [1], mask := 0x0001, p := some 288000000, ended := false } : Probe) : Probe)) }) }; s), 
    by decide +kernel,
    by decide +kernel,
    by decide +kernel⟩,
   ⟨(1 : Fin 128), (1 : Fin 16), (({ why := .suspect, wires := [1], mask := 0x0001, p := some 20, ended := true } : Probe) : Probe), (20 : Nat), (0 : Nat), (600 : Nat), (let s : State := Tests.withYard Tests.up; let s : State := { s with uint := s.uint.upd (((1 : Fin 128))) (fun x => { x with probe := some ((({ why := .suspect, wires := [1], mask := 0x0001, p := some 20, ended := true } : Probe) : Probe)) }) }; let s : State := { s with uswp := s.uswp.upd 1 (fun zz => { zz with alHist := ((List.range 80).map (fun qq => (qq, [((0 : BitVec 8), ({ val := if qq < 20 then 3300000 else 2700000, st := .valid } : Sample)), (1, { val := if qq < 20 then 3300000 else 3900000, st := .valid })]))).reverse }) }; s), 
    by decide +kernel,
    by decide +kernel,
    by decide +kernel,
    by decide +kernel,
    by decide +kernel,
    by decide +kernel,
    by decide +kernel,
    by decide +kernel,
    by decide +kernel⟩,
   ⟨(1 : Fin 128), (1 : Fin 16), (0 : Nat), (let s : State := Tests.withYard Tests.up; let s : State := { s with uint := s.uint.upd 1 (fun zz => { zz with wires := Bank.fill 16 { retryAt := some 0 } }) }; s), 
    by decide +kernel,
    by decide +kernel,
    by decide +kernel,
    by decide +kernel⟩,
   ⟨Tests.cmd (1 * 2 ^ 8 + 1 * 2 ^ 24), Tests.flight (1 * 2 ^ 8 + 1 * 2 ^ 24), (1 : Fin 128), (1 : Fin 16), (Tests.work (1 * 2 ^ 8 + 1 * 2 ^ 24)), 
    Tests.executing (by decide +kernel),
    by decide +kernel,
    by decide +kernel,
    by decide +kernel,
    by decide +kernel,
    by decide +kernel,
    by decide +kernel,
    by decide +kernel⟩,
   ⟨Tests.cmd (1 * 2 ^ 8 + 1 * 2 ^ 24), Tests.flight (1 * 2 ^ 8 + 1 * 2 ^ 24), (1 : Fin 128), (1 : Fin 16), (({ why := .command 0 (Tests.cmd (1 * 2 ^ 8 + 1 * 2 ^ 24)), wires := [1], mask := 0x0001, p := some 20, ended := true } : Probe) : Probe), (20 : Nat), (let s : State := Tests.work (1 * 2 ^ 8 + 1 * 2 ^ 24); let s : State := { s with uint := s.uint.upd (((1 : Fin 128))) (fun x => { x with probe := some ((({ why := .command 0 (Tests.cmd (1 * 2 ^ 8 + 1 * 2 ^ 24)), wires := [1], mask := 0x0001, p := some 20, ended := true } : Probe) : Probe)) }) }; let s : State := { s with uswp := s.uswp.upd 1 (fun zz => { zz with alHist := ((List.range 80).map (fun qq => (qq, [((0 : BitVec 8), ({ val := if qq < 20 then 3300000 else 2700000, st := .valid } : Sample)), (1, { val := if qq < 20 then 3300000 else 3900000, st := .valid })]))).reverse }) }; s), 
    Tests.executing (by decide +kernel),
    by decide +kernel,
    by decide +kernel,
    by decide +kernel,
    by decide +kernel,
    by decide +kernel,
    by decide +kernel,
    by decide +kernel⟩,
   ⟨Tests.cmd (1 * 2 ^ 8 + 1 * 2 ^ 16), Tests.flight (1 * 2 ^ 8 + 1 * 2 ^ 16), (1 : Fin 128), (let s : State := Tests.work (1 * 2 ^ 8 + 1 * 2 ^ 16); let s : State := { s with ulink := s.ulink.upd 1 (fun zz => { zz with sweepFrom := none }) }; s), 
    Tests.executing (by decide +kernel),
    by decide +kernel,
    by decide +kernel,
    by decide +kernel,
    by decide +kernel⟩⟩

/-- Witnesses of the hypotheses of `BalancingSwitchTests`. -/
theorem witness_BalancingSwitchTests :
    (∃ (u : Fin 128) (x : BalTest) (c : Fin 16) (l : List (Fin 16)) (v : Reading) (s : State), ((s.uint.at u).test = some x) ∧ (x.phase = .closed) ∧ (x.todo = c :: l) ∧ (x.since + 2 * ticksPerMs ≤ s.now)) ∧
    (∃ (u : Fin 128) (x : BalTest) (c : Fin 16) (l : List (Fin 16)) (v : Reading) (s : State), ((s.uint.at u).test = some x) ∧ (x.phase = .opened) ∧ (x.todo = c :: l) ∧ (x.since + 2 * ticksPerMs ≤ s.now)) ∧
    (∃ (u : Fin 128) (x : BalTest) (v : Reading) (s : State), ((s.uint.at u).test = some x) ∧ (s.now < x.since + 2 * ticksPerMs)) ∧
    (∃ (u : Fin 128) (s : State), (s.integ.btInterval ≠ 0) ∧ (∀ v x, (s.uint.at v).test = some x → x.sched = false) ∧ (s.integ.schedAt + s.integ.btInterval * 60 * ticksPerS ≤ s.now) ∧ (s.integ.schedNext = u.val) ∧ (s.swept u = true) ∧ (s.isMc16 u = true) ∧ ((s.uint.at u).test = none) ∧ ((s.ulink.at u).delivering = true)) ∧
    (∃ (s : State), (s.integ.btInterval = 0)) ∧
    (∃ (c : Cmd) (f : Flight) (u : Fin 128) (s : State), (Executing s c f) ∧ (opByte c 4 = 0) ∧ (s.namedMc16 (opByte c 0) (opByte c 1) = some u) ∧ (opField c 2 2 ≠ 0) ∧ (s.outOfService u = false) ∧ (s.swept u = true) ∧ ((s.uint.at u).invStack ≠ 0xFFFF) ∧ ((s.uint.at u).test = none)) ∧
    (∃ (c : Cmd) (f : Flight) (s : State), (Executing s c f) ∧ (opByte c 4 = 1) ∧ (opField c 6 2 ≤ 1440)) ∧
    (∃ (c : Cmd) (f : Flight) (s : State), (Executing s c f) ∧ (opByte c 4 = 2) ∧ (10 ≤ opField c 6 2) ∧ (opField c 6 2 ≤ 1000) ∧ (9 ≤ opField c 8 2) ∧ (opField c 8 2 ≤ 1000) ∧ (∀ str, s.strHeld str = false)) ∧
    (∃ (c : Cmd) (f : Flight) (s : State), (Executing s c f) ∧ (opByte c 4 = 2) ∧ (s.integ.owThresh < opField c 6 2) ∧ (10 ≤ opField c 6 2) ∧ (opField c 6 2 ≤ 1000) ∧ (9 ≤ opField c 8 2) ∧ (opField c 8 2 ≤ 1000) ∧ (∃ str, s.strHeld str = true)) :=
  ⟨⟨(1 : Fin 128), ({ ({ todo := [], slot := 0, from_ := 0, phase := .closed, since := 0, vPre := none, vOn := none, sched := false, cmd := none, mask := 0 } : BalTest) with phase := .closed, todo := ((1 : Fin 16)) :: (([] : List (Fin 16))) } : BalTest), (1 : Fin 16), ([] : List (Fin 16)), (none : Reading), (let s : State := Tests.up; let s : State := { s with uint := s.uint.upd (((1 : Fin 128))) (fun x => { x with test := some (({ ({ todo := [], slot := 0, from_ := 0, phase := .closed, since := 0, vPre := none, vOn := none, sched := false, cmd := none, mask := 0 } : BalTest) with phase := .closed, todo := ((1 : Fin 16)) :: (([] : List (Fin 16))) } : BalTest)) }) }; s), 
    by decide +kernel,
    by decide +kernel,
    by decide +kernel,
    by decide +kernel⟩,
   ⟨(1 : Fin 128), ({ ({ todo := [], slot := 0, from_ := 0, phase := .closed, since := 0, vPre := none, vOn := none, sched := false, cmd := none, mask := 0 } : BalTest) with phase := .opened, todo := ((1 : Fin 16)) :: (([] : List (Fin 16))) } : BalTest), (1 : Fin 16), ([] : List (Fin 16)), (none : Reading), (let s : State := Tests.up; let s : State := { s with uint := s.uint.upd (((1 : Fin 128))) (fun x => { x with test := some (({ ({ todo := [], slot := 0, from_ := 0, phase := .closed, since := 0, vPre := none, vOn := none, sched := false, cmd := none, mask := 0 } : BalTest) with phase := .opened, todo := ((1 : Fin 16)) :: (([] : List (Fin 16))) } : BalTest)) }) }; s), 
    by decide +kernel,
    by decide +kernel,
    by decide +kernel,
    by decide +kernel⟩,
   ⟨(1 : Fin 128), ({ todo := [], slot := 0, from_ := 0, phase := .closed, since := 2304000000000, vPre := none, vOn := none, sched := false, cmd := none, mask := 0 } : BalTest), (none : Reading), (let s : State := Tests.withYard Tests.up; let s : State := { s with uint := s.uint.upd (((1 : Fin 128))) (fun x => { x with test := some (({ todo := [], slot := 0, from_ := 0, phase := .closed, since := 2304000000000, vPre := none, vOn := none, sched := false, cmd := none, mask := 0 } : BalTest)) }) }; s), 
    by decide +kernel,
    by decide +kernel⟩,
   ⟨(1 : Fin 128), (let s : State := Tests.withYard Tests.up; let s : State := { s with integ.schedNext := ((1 : Fin 128)).val }; let s : State := { s with uint := s.uint.upd (((1 : Fin 128))) (fun x => { x with test := none }) }; let s : State := { s with ulink := s.ulink.upd (((1 : Fin 128))) (fun x => { x with delivering := true }) }; let s : State := { s with integ := { s.integ with btInterval := 1 } }; s), 
    by decide +kernel,
    by decide +kernel,
    by decide +kernel,
    by decide +kernel,
    by decide +kernel,
    by decide +kernel,
    by decide +kernel,
    by decide +kernel⟩,
   ⟨(let s : State := Tests.up; let s : State := { s with integ.btInterval := 0 }; s), 
    by decide +kernel⟩,
   ⟨Tests.cmd (1 * 2 ^ 8 + 1 * 2 ^ 16), Tests.flight (1 * 2 ^ 8 + 1 * 2 ^ 16), (1 : Fin 128), (let s : State := Tests.work (1 * 2 ^ 8 + 1 * 2 ^ 16); let s : State := { s with uint := s.uint.upd (((1 : Fin 128))) (fun x => { x with test := none }) }; s), 
    Tests.executing (by decide +kernel),
    by decide +kernel,
    by decide +kernel,
    by decide +kernel,
    by decide +kernel,
    by decide +kernel,
    by decide +kernel,
    by decide +kernel⟩,
   ⟨Tests.cmd ((1) * 2 ^ 32 + (1440) * 2 ^ 48), Tests.flight ((1) * 2 ^ 32 + (1440) * 2 ^ 48), (Tests.live ((1) * 2 ^ 32 + (1440) * 2 ^ 48)), 
    Tests.executing (by decide +kernel),
    by decide +kernel,
    by decide +kernel⟩,
   ⟨Tests.cmd ((2) * 2 ^ 32 + (10) * 2 ^ 48 + (9) * 2 ^ 64), Tests.flight ((2) * 2 ^ 32 + (10) * 2 ^ 48 + (9) * 2 ^ 64), (Tests.live ((2) * 2 ^ 32 + (10) * 2 ^ 48 + (9) * 2 ^ 64)), 
    Tests.executing (by decide +kernel),
    by decide +kernel,
    by decide +kernel,
    by decide +kernel,
    by decide +kernel,
    by decide +kernel,
    by decide +kernel⟩,
   ⟨Tests.cmd (2 * 2 ^ 32 + 100 * 2 ^ 48 + 40 * 2 ^ 64), Tests.flight (2 * 2 ^ 32 + 100 * 2 ^ 48 + 40 * 2 ^ 64), (let s : State := Tests.work (2 * 2 ^ 32 + 100 * 2 ^ 48 + 40 * 2 ^ 64); let s : State := { s with strs := s.strs.upd 1 (fun zz => { zz with st := .closed }) }; s), 
    Tests.executing (by decide +kernel),
    by decide +kernel,
    by decide +kernel,
    by decide +kernel,
    by decide +kernel,
    by decide +kernel,
    by decide +kernel,
    by decide +kernel⟩⟩

/-- Witnesses of the hypotheses of `EstimatorStepsCheckpointsAndLimits`. -/
theorem witness_EstimatorStepsCheckpointsAndLimits :
    (∃ (s : State), (s.estReady = true) ∧ (s.est.lastStep ≠ some s.nowMs)) ∧
    (∃ (s : State), (s.estReady = false ∨ s.est.lastStep = some s.nowMs)) ∧
    (∃ (c : Cmd) (f : Flight) (x : Filter) (s : State), (Executing s c f) ∧ (s.estReady = true) ∧ (s.est.lastStep ≠ some s.nowMs) ∧ (s.est.work = [.config c [.filter x]])) ∧
    (∃ (str : Fin 4) (s : State), ((s.estr.at str).limAt + 50 * ticksPerMs ≤ s.now) ∧ ((s.estr.at str).stale = false)) ∧
    (∃ (str : Fin 4) (s : State), (s.now < (s.estr.at str).limAt + 50 * ticksPerMs)) ∧
    (∃ (s : State), (600 * ticksPerS ≤ s.est.ranTicks)) ∧
    (∃ (ok : Bool) (s : State), (s.est.ranTicks < 600 * ticksPerS)) :=
  ⟨⟨(Tests.up), 
    by decide +kernel,
    by decide +kernel⟩,
   ⟨(let s : State := Tests.withYard Tests.up; let s : State := { s with isl := { s.isl with est := false } }; s), 
    by decide +kernel⟩,
   ⟨Tests.cmd (0), Tests.flight (0), ({} : Filter), (let s : State := Tests.live (0); let s : State := { s with est.work := [.config (Tests.cmd (0)) [.filter (({} : Filter))]] }; s), 
    Tests.executing (by decide +kernel),
    by decide +kernel,
    by decide +kernel,
    by decide +kernel⟩,
   ⟨(1 : Fin 4), (let s : State := Tests.up; let s : State := { s with estr := s.estr.upd (((1 : Fin 4))) (fun x => { x with stale := false }) }; s), 
    by decide +kernel,
    by decide +kernel⟩,
   ⟨(1 : Fin 4), (let s : State := Tests.withYard Tests.up; let s : State := { s with estr := s.estr.upd 1 (fun zz => { zz with limAt := 2304000000000 }) }; s), 
    by decide +kernel⟩,
   ⟨(let s : State := Tests.withYard Tests.up; let s : State := { s with est := { s.est with ranTicks := 38400000000 } }; s), 
    by decide +kernel⟩,
   ⟨(true : Bool), (Tests.up), 
    by decide +kernel⟩⟩

/-- Witnesses of the hypotheses of `LockInExcitationAndHealth`. -/
theorem witness_LockInExcitationAndHealth :
    (∃ (str : Fin 4) (bin : Fin 32) (b : Nat) (s : State), (s.estReady = true) ∧ ((s.estr.at str).excDone = []) ∧ ((s.estr.at str).blockFrom.at bin = some b) ∧ (b + blockLen (s.est.lockin.at str).cycles (s.strFrames str) bin * s.strFrames str + 32 ≤ s.frame)) ∧
    (∃ (str : Fin 4) (bin : Fin 32) (s : State), ((s.estr.at str).excDone = []) ∧ ((s.estr.at str).blockFrom.at bin = none)) ∧
    (∃ (str : Fin 4) (b : Fin 32) (s : State), (s.estReady = true) ∧ (s.usedStr str = true) ∧ ((s.estr.at str).excState ≠ .running) ∧ (s.excDue str = true) ∧ (s.strSt str = .opened) ∧ ((s.estr.at str).openSince + (s.est.lockin.at str).restS * ticksPerS ≤ s.now) ∧ (nextBin (s.est.lockin.at str).excMask 0 = some b)) ∧
    (∃ (str : Fin 4) (s : State), (s.estReady = true) ∧ (s.usedStr str = true) ∧ ((s.estr.at str).excState = .idle) ∧ (s.excDue str = true) ∧ (s.strSt str ≠ .opened)) ∧
    (∃ (str : Fin 4) (s : State), (s.estReady = true) ∧ ((s.estr.at str).excState = .running) ∧ ((s.estr.at str).excToggle + halfPeriod ⟨(s.estr.at str).excBin.toNat, (s.estr.at str).excBin.isLt⟩ ≤ s.frame) ∧ (s.frame < (s.estr.at str).excFrom + 2 * halfPeriod ⟨(s.estr.at str).excBin.toNat, (s.estr.at str).excBin.isLt⟩ * ((s.est.lockin.at str).cycles + 1))) ∧
    (∃ (str : Fin 4) (s : State), ((s.estr.at str).excState ≠ .running)) ∧
    (∃ (str : Fin 4) (u : Fin 128) (c : Fin 16) (s : State), (s.estReady = true) ∧ (u ∈ s.mc16sOf str)) ∧
    (∃ (str : Fin 4) (s : State), (s.estReady = true) ∧ (s.limCells str = [])) :=
  ⟨⟨(1 : Fin 4), (1 : Fin 32), (0 : Nat), (let s : State := Tests.withYard Tests.up; let s : State := { s with estr := s.estr.upd (((1 : Fin 4))) (fun x => { x with excDone := [] }) }; let s : State := { s with estr := s.estr.upd 1 (fun zz => { zz with blockFrom := Bank.fill 32 (some 0) }) }; s), 
    by decide +kernel,
    by decide +kernel,
    by decide +kernel,
    by decide +kernel⟩,
   ⟨(1 : Fin 4), (1 : Fin 32), (let s : State := Tests.up; let s : State := { s with estr := s.estr.upd (((1 : Fin 4))) (fun x => { x with excDone := [] }) }; s), 
    by decide +kernel,
    by decide +kernel⟩,
   ⟨(1 : Fin 4), (8 : Fin 32), (let s : State := Tests.withYard Tests.up; let s : State := { s with strs := s.strs.upd (((1 : Fin 4))) (fun x => { x with st := .opened }) }; let s : State := { s with est := { s.est with lockin := s.est.lockin.upd 1 (fun x => { x with intervalH := 1 }) } }; s), 
    by decide +kernel,
    by decide +kernel,
    by decide +kernel,
    by decide +kernel,
    by decide +kernel,
    by decide +kernel,
    by decide +kernel⟩,
   ⟨(1 : Fin 4), (let s : State := Tests.withYard Tests.up; let s : State := { s with estr := s.estr.upd (((1 : Fin 4))) (fun x => { x with excState := .idle }) }; let s : State := { s with est := { s.est with lockin := s.est.lockin.upd 1 (fun x => { x with intervalH := 1 }) } }; let s : State := { s with strs := s.strs.upd 1 (fun zz => { zz with st := .closed }) }; s), 
    by decide +kernel,
    by decide +kernel,
    by decide +kernel,
    by decide +kernel,
    by decide +kernel⟩,
   ⟨(1 : Fin 4), (let s : State := Tests.withYard Tests.up; let s : State := { s with estr := s.estr.upd (((1 : Fin 4))) (fun x => { x with excState := .running }) }; let s : State := { s with estr := s.estr.upd 1 (fun zz => { zz with excState := .running, excBin := 8, excFrom := 288000000 - halfPeriod 8, excToggle := 288000000 - halfPeriod 8 }) }; s), 
    by decide +kernel,
    by decide +kernel,
    by decide +kernel,
    by decide +kernel⟩,
   ⟨(1 : Fin 4), (Tests.up), 
    by decide +kernel⟩,
   ⟨(1 : Fin 4), (1 : Fin 128), (1 : Fin 16), (Tests.withYard Tests.up), 
    by decide +kernel,
    by decide +kernel⟩,
   ⟨(1 : Fin 4), (Tests.up), 
    by decide +kernel,
    by decide +kernel⟩⟩

/-- Witnesses of the hypotheses of `EstimatorCommands`. -/
theorem witness_EstimatorCommands :
    (∃ (c : Cmd) (f : Flight) (pkg : List Byte) (ds : List Descriptor) (s : State), (Executing s c f) ∧ (opField c 0 8 % 16 = 0) ∧ (16 ≤ opField c 8 4) ∧ (opField c 8 4 ≤ 65536) ∧ (parsePackage 4097 (padTo (opField c 8 4) pkg) = some ds) ∧ (∀ d ∈ ds, s.descriptorOk ds d = true ∧ s.descriptorRefused false d = false ∧ s.descriptorRefused true d = false)) ∧
    (∃ (c : Cmd) (f : Flight) (pkg : List Byte) (str : Fin 4) (l : LimitsDesc) (s : State), (Executing s c f) ∧ (opField c 0 8 % 16 = 0) ∧ (16 ≤ opField c 8 4) ∧ (opField c 8 4 ≤ 65536) ∧ (parsePackage 4097 (padTo (opField c 8 4) pkg) = some [.limits str l]) ∧ (s.strHeld str = true) ∧ ((s.est.limits.at str).relaxes l = true)) ∧
    (∃ (c : Cmd) (f : Flight) (pkg : List Byte) (s : State), (Executing s c f) ∧ (opField c 0 8 % 16 ≠ 0)) ∧
    (∃ (c : Cmd) (f : Flight) (n : Nat) (s : State), (Executing s c f) ∧ (opField c 8 8 % 16 = 0) ∧ ((opByte c 0 = 0 ∧ opField c 2 2 < 128 ∧ n = 544) ∨ (opByte c 0 = 1 ∧ opField c 2 2 < 4 ∧ n = 96) ∨ (opByte c 0 = 2 ∧ opField c 2 2 = 0 ∧ n = 72) ∨ (opByte c 0 = 3 ∧ opField c 2 2 < 2048 ∧ n = 288))) ∧
    (∃ (c : Cmd) (f : Flight) (str : Fin 4) (p : Fin 128 × Fin 16) (s : State), (Executing s c f) ∧ (opField c 8 8 % 16 = 0) ∧ (opByte c 0 = 4) ∧ (opField c 2 2 = str.val) ∧ (100 ≤ opField c 0x14 4) ∧ (opField c 0x14 4 ≤ 60000) ∧ (p ∈ s.limCells str) ∧ (s.cellValid p.1 p.2.val = true) ∧ (s.queries.length < 10)) ∧
    (∃ (c : Cmd) (f : Flight) (s : State), (Executing s c f) ∧ (4 < opByte c 0 ∨ opField c 8 8 % 16 ≠ 0)) ∧
    (∃ (s : State), (s.estReady = true) ∧ (s.hif.streams = []) ∧ (∀ u, s.isMc16 u = false)) ∧
    (∃ (s : State), (s.estReady = false)) :=
  ⟨⟨Tests.cmd (16 * 2 ^ 64), Tests.flight (16 * 2 ^ 64), ([6, 0, 16, 0, 0, 0, 0, 0] ++ leBytes 2 200 ++ leBytes 2 1000 ++ [56, 20, 0, 0] : List Byte), ([.output { estMs := 200, impMs := 1000, outlier := 56, refBin := 20 }] : List Descriptor), (Tests.work (16 * 2 ^ 64)), 
    Tests.executing (by decide +kernel),
    by decide +kernel,
    by decide +kernel,
    by decide +kernel,
    by decide +kernel,
    by decide +kernel⟩,
   ⟨Tests.cmd (112 * 2 ^ 64), Tests.flight (112 * 2 ^ 64), ([4, 1, 112, 0, 0, 0, 0, 0] ++ leBytes 4 2500000 ++ leBytes 4 4300000 ++ leBytes 2 0 ++ leBytes 2 10000 ++ leBytes 2 500 ++ leBytes 2 500 ++ leBytes 2 500 ++ leBytes 2 500 ++ List.replicate 84 0 : List Byte), (1 : Fin 4), ({ vMax := 4300000, ftD := Bank.fill 16 0, ftC := Bank.fill 16 0, fzD := Bank.fill 16 0, fzC := Bank.fill 16 0 } : LimitsDesc), (let s : State := Tests.work (112 * 2 ^ 64); let s : State := { s with strs := s.strs.upd 1 (fun zz => { zz with st := .closed }) }; s), 
    Tests.executing (by decide +kernel),
    by decide +kernel,
    by decide +kernel,
    by decide +kernel,
    by decide +kernel,
    by decide +kernel,
    by decide +kernel⟩,
   ⟨Tests.cmd ((1)), Tests.flight ((1)), ([] : List Byte), (Tests.live ((1))), 
    Tests.executing (by decide +kernel),
    by decide +kernel⟩,
   ⟨Tests.cmd (0), Tests.flight (0), (544 : Nat), (Tests.work (0)), 
    Tests.executing (by decide +kernel),
    by decide +kernel,
    by decide +kernel⟩,
   ⟨Tests.cmd (4 + 1 * 2 ^ 16 + 100 * 2 ^ 160), Tests.flight (4 + 1 * 2 ^ 16 + 100 * 2 ^ 160), (1 : Fin 4), ((1, 0) : Fin 128 × Fin 16), (let s : State := Tests.work (4 + 1 * 2 ^ 16 + 100 * 2 ^ 160); let s : State := { s with uest := s.uest.upd 1 (fun zz => { zz with cells := zz.cells.upd 0 (fun yy => { yy with live := true }) }) }; s), 
    Tests.executing (by decide +kernel),
    by decide +kernel,
    by decide +kernel,
    by decide +kernel,
    by decide +kernel,
    by decide +kernel,
    by decide +kernel,
    by decide +kernel,
    by decide +kernel⟩,
   ⟨Tests.cmd (((4 + 1))), Tests.flight (((4 + 1))), (Tests.live (((4 + 1)))), 
    Tests.executing (by decide +kernel),
    by decide +kernel⟩,
   ⟨(let s : State := Tests.up; let s : State := { s with hif.streams := [] }; s), 
    by decide +kernel,
    by decide +kernel,
    by decide +kernel⟩,
   ⟨(let s : State := Tests.withYard Tests.up; let s : State := { s with isl := { s.isl with est := false } }; s), 
    by decide +kernel⟩⟩

/-- Witnesses of the hypotheses of `StringsClose`. -/
theorem witness_StringsClose :
    (∃ (c : Cmd) (f : Flight) (str : Fin 4) (s : State), (Executing s c f) ∧ (opByte c 0 = str.val) ∧ (s.usedStr str = true) ∧ ((s.strs.at str).seq.closeCmd = none) ∧ ((s.strs.at str).seq.openCmds = []) ∧ (∀ j, j ≠ str → (s.strs.at j).cfg.linkGroup = (s.strs.at str).cfg.linkGroup → s.strSt j ≠ .preCn ∧ s.strSt j ≠ .precharge) ∧ (s.strSt str = .opened) ∧ (s.permissive str = true) ∧ (s.rosterValid str = true) ∧ ((s.mp4sOf str).length = 1) ∧ (s.linkLive str = true ∨ s.linkLow str = some true) ∧ (s.fresh str = true) ∧ (s.standing str = []) ∧ ((s.swctl.die.at 1).dip = false)) ∧
    (∃ (c : Cmd) (f : Flight) (str : Fin 4) (s : State), (Executing s c f) ∧ (opByte c 0 = str.val) ∧ (s.usedStr str = true) ∧ ((s.strs.at str).seq.closeCmd = none) ∧ ((s.strs.at str).seq.openCmds = []) ∧ (∀ j, j ≠ str → (s.strs.at j).cfg.linkGroup = (s.strs.at str).cfg.linkGroup → s.strSt j ≠ .preCn ∧ s.strSt j ≠ .precharge) ∧ (s.strSt str = .opened) ∧ (s.permissive str = false)) ∧
    (∃ (c : Cmd) (f : Flight) (s : State), (Executing s c f) ∧ (3 < opByte c 0)) ∧
    (∃ (str : Fin 4) (s : State), (s.strSt str = .preCn) ∧ ((s.strs.at str).seq.cnAt + 20 * ticksPerMs ≤ s.now) ∧ (s.linkLive str = true ∨ s.cnRise str = some false)) ∧
    (∃ (str : Fin 4) (s : State), (s.now < (s.strs.at str).seq.cnAt + 20 * ticksPerMs)) ∧
    (∃ (str : Fin 4) (l : Rat) (v : Rat) (v0 : Int) (s : State), (s.strSt str = .precharge) ∧ ((s.strs.at str).seq.parallel = false) ∧ ((s.strs.at str).seq.passed < s.checkpointsDue str) ∧ (s.vLink str = some l) ∧ (s.vString str = some v) ∧ ((s.strs.at str).seq.v0 = some v0) ∧ (8 / 10 * ((v - v0) * rcFactor (s.strs.at str).seq.passed) ≤ l - v0) ∧ (l - v0 ≤ 12 / 10 * ((v - v0) * rcFactor (s.strs.at str).seq.passed)) ∧ (l < 95 / 100 * v)) ∧
    (∃ (str : Fin 4) (l : Rat) (v : Rat) (v0 : Int) (s : State), (s.strSt str = .precharge) ∧ ((s.strs.at str).seq.parallel = false) ∧ ((s.strs.at str).seq.passed < s.checkpointsDue str) ∧ (s.vLink str = some l) ∧ (s.vString str = some v) ∧ ((s.strs.at str).seq.v0 = some v0) ∧ (l - v0 < 8 / 10 * ((v - v0) * rcFactor (s.strs.at str).seq.passed))) ∧
    (∃ (str : Fin 4) (s : State), (s.strSt str = .precharge) ∧ ((s.strs.at str).seq.pcAt + (s.strs.at str).cfg.preTimeoutMs * ticksPerMs ≤ s.now)) ∧
    (∃ (str : Fin 4) (c : Cmd) (f : Flight) (s : State), (Executing s c f) ∧ (s.strSt str = .overlap) ∧ ((s.strs.at str).seq.closeCmd = some c) ∧ ((s.strs.at str).seq.cpAt + 50 * ticksPerMs ≤ s.now)) :=
  ⟨⟨Tests.cmd ((((1 : Fin 4)).val)), Tests.flight ((((1 : Fin 4)).val)), (1 : Fin 4), (let s : State := Tests.work ((((1 : Fin 4)).val)); let s : State := { s with strs := s.strs.upd (((1 : Fin 4))) (fun x => { x with seq.closeCmd := none }) }; let s : State := { s with strs := s.strs.upd (((1 : Fin 4))) (fun x => { x with seq.openCmds := [] }) }; let s : State := { s with strs := s.strs.upd (((1 : Fin 4))) (fun x => { x with st := .opened }) }; let s : State := { s with swctl.die := s.swctl.die.upd (1) (fun x => { x with dip := false }) }; let s : State := { s with halter := { s.halter with startupOk := true, hbArmed := true, testing := false, hbAt := 2304000000000 } }; let s : State := { s with ulink := s.ulink.put 3 {} }; let s : State := { s with uint := Bank.fill 128 { cellGood := Bank.fill 16 2304000000000, wireChk := 2 } }; let s : State := { s with strs := s.strs.upd 1 (fun zz => { zz with now := { iMain := some 0, iCheck := some 0, vString := some 300000, vLink := some 0 }, curGood := 2304000000000 }) }; s), 
    Tests.executing (by decide +kernel),
    by decide +kernel,
    by decide +kernel,
    by decide +kernel,
    by decide +kernel,
    by decide +kernel,
    by decide +kernel,
    by decide +kernel,
    by decide +kernel,
    by decide +kernel,
    by decide +kernel,
    by decide +kernel,
    by decide +kernel,
    by decide +kernel⟩,
   ⟨Tests.cmd ((((1 : Fin 4)).val)), Tests.flight ((((1 : Fin 4)).val)), (1 : Fin 4), (let s : State := Tests.work ((((1 : Fin 4)).val)); let s : State := { s with strs := s.strs.upd (((1 : Fin 4))) (fun x => { x with seq.closeCmd := none }) }; let s : State := { s with strs := s.strs.upd (((1 : Fin 4))) (fun x => { x with seq.openCmds := [] }) }; let s : State := { s with strs := s.strs.upd (((1 : Fin 4))) (fun x => { x with st := .opened }) }; s), 
    Tests.executing (by decide +kernel),
    by decide +kernel,
    by decide +kernel,
    by decide +kernel,
    by decide +kernel,
    by decide +kernel,
    by decide +kernel,
    by decide +kernel⟩,
   ⟨Tests.cmd (((3 + 1))), Tests.flight (((3 + 1))), (Tests.live (((3 + 1)))), 
    Tests.executing (by decide +kernel),
    by decide +kernel⟩,
   ⟨(1 : Fin 4), (let s : State := Tests.withYard Tests.up; let s : State := { s with strs := s.strs.upd (((1 : Fin 4))) (fun x => { x with st := .preCn }) }; let s : State := { s with strs := s.strs.upd 1 (fun zz => { zz with now := { iMain := some 0, iCheck := some 0, vString := some 300000, vLink := some 0 }, curGood := 2304000000000 }) }; let s : State := { s with strs := s.strs.upd 1 (fun zz => { zz with st := .preCn }) }; let s : State := { s with strs := s.strs.upd 1 (fun zz => { zz with seq := { zz.seq with vLinkCn := some 0 } }) }; s), 
    by decide +kernel,
    by decide +kernel,
    by decide +kernel⟩,
   ⟨(1 : Fin 4), (let s : State := Tests.withYard Tests.up; let s : State := { s with strs := s.strs.upd 1 (fun zz => { zz with seq := { zz.seq with cnAt := 2304000000000 } }) }; s), 
    by decide +kernel⟩,
   ⟨(1 : Fin 4), (118040 : Rat), (300000 : Rat), (0 : Int), (let s : State := Tests.withYard Tests.up; let s : State := { s with strs := s.strs.upd (((1 : Fin 4))) (fun x => { x with st := .precharge }) }; let s : State := { s with strs := s.strs.upd (((1 : Fin 4))) (fun x => { x with seq.parallel := false }) }; let s : State := { s with strs := s.strs.upd (((1 : Fin 4))) (fun x => { x with seq.v0 := some ((0 : Int)) }) }; let s : State := { s with strs := s.strs.upd 1 (fun zz => { zz with now := { iMain := some 0, iCheck := some 0, vString := some 300000, vLink := some 118040 }, curGood := 2304000000000 }) }; let s : State := { s with strs := s.strs.upd 1 (fun zz => { zz with st := .precharge }) }; let s : State := { s with strs := s.strs.upd 1 (fun zz => { zz with seq := { zz.seq with v0 := some 0 } }) }; s), 
    by decide +kernel,
    by decide +kernel,
    by decide +kernel,
    by decide +kernel,
    by decide +kernel,
    by decide +kernel,
    by decide +kernel,
    by decide +kernel,
    by decide +kernel⟩,
   ⟨(1 : Fin 4), (1000 : Rat), (300000 : Rat), (0 : Int), (let s : State := Tests.withYard Tests.up; let s : State := { s with strs := s.strs.upd (((1 : Fin 4))) (fun x => { x with st := .precharge }) }; let s : State := { s with strs := s.strs.upd (((1 : Fin 4))) (fun x => { x with seq.parallel := false }) }; let s : State := { s with strs := s.strs.upd (((1 : Fin 4))) (fun x => { x with seq.v0 := some ((0 : Int)) }) }; let s : State := { s with strs := s.strs.upd 1 (fun zz => { zz with now := { iMain := some 0, iCheck := some 0, vString := some 300000, vLink := some 1000 }, curGood := 2304000000000 }) }; let s : State := { s with strs := s.strs.upd 1 (fun zz => { zz with st := .precharge }) }; let s : State := { s with strs := s.strs.upd 1 (fun zz => { zz with seq := { zz.seq with v0 := some 0 } }) }; s), 
    by decide +kernel,
    by decide +kernel,
    by decide +kernel,
    by decide +kernel,
    by decide +kernel,
    by decide +kernel,
    by decide +kernel⟩,
   ⟨(1 : Fin 4), (let s : State := Tests.up; let s : State := { s with strs := s.strs.upd (((1 : Fin 4))) (fun x => { x with st := .precharge }) }; s), 
    by decide +kernel,
    by decide +kernel⟩,
   ⟨(1 : Fin 4), Tests.cmd (0), Tests.flight (0), (let s : State := Tests.live (0); let s : State := { s with strs := s.strs.upd (((1 : Fin 4))) (fun x => { x with st := .overlap }) }; let s : State := { s with strs := s.strs.upd (((1 : Fin 4))) (fun x => { x with seq.closeCmd := some (Tests.cmd (0)) }) }; s), 
    Tests.executing (by decide +kernel),
    by decide +kernel,
    by decide +kernel,
    by decide +kernel⟩⟩

/-- Witnesses of the hypotheses of `StringsOpen`. -/
theorem witness_StringsOpen :
    (∃ (c : Cmd) (f : Flight) (str : Fin 4) (s : State), (Executing s c f) ∧ (opByte c 0 = str.val) ∧ (s.strSt str = .closed)) ∧
    (∃ (c : Cmd) (f : Flight) (str : Fin 4) (s : State), (Executing s c f) ∧ (opByte c 0 = str.val) ∧ (s.strSt str = .opened ∨ s.strSt str = .welded)) ∧
    (∃ (c : Cmd) (f : Flight) (s : State), (Executing s c f) ∧ (3 < opByte c 0)) ∧
    (∃ (str : Fin 4) (s : State), (s.strSt str = .opening) ∧ ((s.strs.at str).seq.releaseAt = none) ∧ (8 ≤ (s.strs.at str).seq.lowRun)) ∧
    (∃ (str : Fin 4) (s : State), ((s.strs.at str).seq.lowRun < 8)) ∧
    (∃ (str : Fin 4) (s : State), (s.strSt str = .opening) ∧ ((s.strs.at str).seq.releaseAt = none) ∧ ((s.strs.at str).seq.openingAt + 2 * ticksPerS ≤ s.now)) ∧
    (∃ (str : Fin 4) (t0 : Nat) (s : State), (s.strSt str = .opening) ∧ ((s.strs.at str).seq.releaseAt = some t0) ∧ (t0 + 20 * ticksPerMs ≤ s.now)) ∧
    (∃ (str : Fin 4) (s : State), (s.strSt str = .weldCheck) ∧ ((s.strs.at str).cfg.auxEn = 0) ∧ (s.linkLow str = some true)) ∧
    (∃ (str : Fin 4) (s : State), (s.strSt str = .weldCheck) ∧ ((s.strs.at str).cfg.auxEn = 0) ∧ (s.linkLow str = some false) ∧ ((s.strs.at str).seq.dischOk = false) ∧ (s.linkLive str = false) ∧ ((s.strs.at str).seq.weldAt + (s.strs.at str).cfg.dischMs * ticksPerMs ≤ s.now)) ∧
    (∃ (str : Fin 4) (t0 : Nat) (s : State), (s.strSt str = .welded) ∧ (s.weldClear str = true) ∧ ((s.strs.at str).seq.relSince = some t0) ∧ (t0 + ticksPerS ≤ s.now)) :=
  ⟨⟨Tests.cmd ((((1 : Fin 4)).val)), Tests.flight ((((1 : Fin 4)).val)), (1 : Fin 4), (let s : State := Tests.live ((((1 : Fin 4)).val)); let s : State := { s with strs := s.strs.upd (((1 : Fin 4))) (fun x => { x with st := .closed }) }; s), 
    Tests.executing (by decide +kernel),
    by decide +kernel,
    by decide +kernel⟩,
   ⟨Tests.cmd ((((1 : Fin 4)).val)), Tests.flight ((((1 : Fin 4)).val)), (1 : Fin 4), (let s : State := Tests.live ((((1 : Fin 4)).val)); let s : State := { s with strs := s.strs.upd (((1 : Fin 4))) (fun x => { x with st := .opened }) }; s), 
    Tests.executing (by decide +kernel),
    by decide +kernel,
    by decide +kernel⟩,
   ⟨Tests.cmd (((3 + 1))), Tests.flight (((3 + 1))), (Tests.live (((3 + 1)))), 
    Tests.executing (by decide +kernel),
    by decide +kernel⟩,
   ⟨(1 : Fin 4), (let s : State := Tests.up; let s : State := { s with strs := s.strs.upd (((1 : Fin 4))) (fun x => { x with st := .opening }) }; let s : State := { s with strs := s.strs.upd (((1 : Fin 4))) (fun x => { x with seq.releaseAt := none }) }; let s : State := { s with strs := s.strs.upd (((1 : Fin 4))) (fun x => { x with seq.lowRun := 8 }) }; s), 
    by decide +kernel,
    by decide +kernel,
    by decide +kernel⟩,
   ⟨(1 : Fin 4), (Tests.up), 
    by decide +kernel⟩,
   ⟨(1 : Fin 4), (let s : State := Tests.up; let s : State := { s with strs := s.strs.upd (((1 : Fin 4))) (fun x => { x with st := .opening }) }; let s : State := { s with strs := s.strs.upd (((1 : Fin 4))) (fun x => { x with seq.releaseAt := none }) }; s), 
    by decide +kernel,
    by decide +kernel,
    by decide +kernel⟩,
   ⟨(1 : Fin 4), (0 : Nat), (let s : State := Tests.up; let s : State := { s with strs := s.strs.upd (((1 : Fin 4))) (fun x => { x with st := .opening }) }; let s : State := { s with strs := s.strs.upd (((1 : Fin 4))) (fun x => { x with seq.releaseAt := some ((0 : Nat)) }) }; s), 
    by decide +kernel,
    by decide +kernel,
    by decide +kernel⟩,
   ⟨(1 : Fin 4), (let s : State := Tests.withYard Tests.up; let s : State := { s with strs := s.strs.upd (((1 : Fin 4))) (fun x => { x with st := .weldCheck }) }; let s : State := { s with strs := s.strs.upd (((1 : Fin 4))) (fun x => { x with cfg.auxEn := 0 }) }; let s : State := { s with strs := s.strs.upd 1 (fun zz => { zz with now := { iMain := some 0, iCheck := some 0, vString := some 300000, vLink := some 0 }, curGood := 2304000000000 }) }; s), 
    by decide +kernel,
    by decide +kernel,
    by decide +kernel⟩,
   ⟨(1 : Fin 4), (let s : State := Tests.withYard Tests.up; let s : State := { s with strs := s.strs.upd (((1 : Fin 4))) (fun x => { x with st := .weldCheck }) }; let s : State := { s with strs := s.strs.upd (((1 : Fin 4))) (fun x => { x with cfg.auxEn := 0 }) }; let s : State := { s with strs := s.strs.upd (((1 : Fin 4))) (fun x => { x with seq.dischOk := false }) }; let s : State := { s with strs := s.strs.upd 1 (fun zz => { zz with now := { iMain := some 0, iCheck := some 0, vString := some 300000, vLink := some 200000 }, curGood := 2304000000000 }) }; s), 
    by decide +kernel,
    by decide +kernel,
    by decide +kernel,
    by decide +kernel,
    by decide +kernel,
    by decide +kernel⟩,
   ⟨(1 : Fin 4), (0 : Nat), (let s : State := Tests.withYard Tests.up; let s : State := { s with strs := s.strs.upd (((1 : Fin 4))) (fun x => { x with st := .welded }) }; let s : State := { s with strs := s.strs.upd (((1 : Fin 4))) (fun x => { x with seq.relSince := some ((0 : Nat)) }) }; let s : State := { s with strs := s.strs.upd 1 (fun zz => { zz with now := { iMain := some 0, iCheck := some 0, vString := some 300000, vLink := some 0 }, curGood := 2304000000000 }) }; let s : State := { s with strs := s.strs.upd 1 (fun zz => { zz with st := .welded }) }; let s : State := { s with strs := s.strs.upd 1 (fun zz => { zz with seq := { zz.seq with relSince := some 0 } }) }; s), 
    by decide +kernel,
    by decide +kernel,
    by decide +kernel,
    by decide +kernel⟩⟩

/-- Witnesses of the hypotheses of `StringConditionsAndService`. -/
theorem witness_StringConditionsAndService :
    (∃ (k : Fin 12) (v : Bool) (s : State), ((s.strs.at (auxOf k).1).aux.getLsbD (auxOf k).2.val ≠ v)) ∧
    (∃ (k : Fin 12) (v : Bool) (s : State), ((s.strs.at (auxOf k).1).aux.getLsbD (auxOf k).2.val = v)) ∧
    (∃ (k : Fin 12) (s : State), (s.strSt (auxOf k).1 = .closed) ∧ ((s.strs.at (auxOf k).1).cfg.auxEn.getLsbD (auxOf k).2.val = true) ∧ ((s.strs.at (auxOf k).1).aux.getLsbD (auxOf k).2.val ≠ s.commanded (auxOf k).1 (auxOf k).2) ∧ (max ((s.strs.at (auxOf k).1).auxAt.at (auxOf k).2) ((s.strs.at (auxOf k).1).cmdAt.at (auxOf k).2 + 100 * ticksPerMs) + 20 * ticksPerMs ≤ s.now)) ∧
    (∃ (k : Fin 12) (s : State), (s.strSt (auxOf k).1 = .opened) ∧ ((s.strs.at (auxOf k).1).cfg.auxEn.getLsbD (auxOf k).2.val = true) ∧ ((s.strs.at (auxOf k).1).aux.getLsbD (auxOf k).2.val = true) ∧ (max ((s.strs.at (auxOf k).1).auxAt.at (auxOf k).2) (s.strcal.at (auxOf k).1).openedAt + 20 * ticksPerMs ≤ s.now)) ∧
    (∃ (str : Fin 4) (s : State), ((s.swctl.die.at 1).dip = true) ∧ ((s.swctl.die.at 1).dipAt + 20 * ticksPerMs < s.now) ∧ (s.strSt str = .closed)) ∧
    (∃ (str : Fin 4) (u : Nat) (s : State), ((s.strs.at str).preUntil = some u) ∧ (u ≤ s.now)) ∧
    (∃ (str : Fin 4) (u : Fin 128) (t0 : Nat) (s : State), (s.mp4Of str = some u) ∧ ((s.strSt str).on = true) ∧ ((s.strs.at str).iso.since = some t0) ∧ (t0 + (s.strs.at str).cfg.isoPersistS * ticksPerS ≤ s.now) ∧ ((s.strs.at str).iso.on = false)) ∧
    (∃ (str : Fin 4) (t0 : Nat) (s : State), ((s.strs.at str).isoW.absent = some t0) ∧ (t0 + 10 * ticksPerS ≤ s.now) ∧ ((s.strs.at str).isoW.on = true)) ∧
    (∃ (str : Fin 4) (t0 : Nat) (s : State), ((s.strs.at str).overTemp.since = some t0) ∧ ((s.strs.at str).overTemp.on = false) ∧ (t0 + 5 * ticksPerS ≤ s.now) ∧ (s.strSt str = .closed)) ∧
    (∃ (str : Fin 4) (t0 : Nat) (s : State), ((s.strs.at str).overTemp.absent = some t0) ∧ ((s.strs.at str).overTemp.on = true) ∧ (t0 + 10 * ticksPerS ≤ s.now)) ∧
    (∃ (c : Cmd) (f : Flight) (str : Fin 4) (s : State), (Executing s c f) ∧ (opByte c 0 = str.val) ∧ (opByte c 1 = 1) ∧ (s.usedStr str = true)) ∧
    (∃ (str : Fin 4) (s : State), ((s.strs.at str).service = true) ∧ ((s.strs.at str).svcFrom + (s.strs.at str).cfg.svcMaxMin * 60 * ticksPerS ≤ s.now)) ∧
    (∃ (c : Cmd) (f : Flight) (s : State), (Executing s c f) ∧ (opField c 8 8 % 16 = 0)) :=
  ⟨⟨(1 : Fin 12), (true : Bool), (Tests.up), 
    by decide +kernel⟩,
   ⟨(1 : Fin 12), (false : Bool), (Tests.withYard Tests.up), 
    by decide +kernel⟩,
   ⟨(1 : Fin 12), (let s : State := Tests.withYard Tests.up; let s : State := { s with strs := s.strs.upd (auxOf ((1 : Fin 12))).1 (fun zz => { zz with st := .closed, aux := 7, cfg := { zz.cfg with auxEn := 7 } }) }; s), 
    by decide +kernel,
    by decide +kernel,
    by decide +kernel,
    by decide +kernel⟩,
   ⟨(1 : Fin 12), (let s : State := Tests.withYard Tests.up; let s : State := { s with strs := s.strs.upd (auxOf ((1 : Fin 12))).1 (fun zz => { zz with aux := 7, cfg := { zz.cfg with auxEn := 7 } }) }; s), 
    by decide +kernel,
    by decide +kernel,
    by decide +kernel,
    by decide +kernel⟩,
   ⟨(1 : Fin 4), (let s : State := Tests.up; let s : State := { s with swctl.die := s.swctl.die.upd (1) (fun x => { x with dip := true }) }; let s : State := { s with strs := s.strs.upd (((1 : Fin 4))) (fun x => { x with st := .closed }) }; s), 
    by decide +kernel,
    by decide +kernel,
    by decide +kernel⟩,
   ⟨(1 : Fin 4), (0 : Nat), (let s : State := Tests.up; let s : State := { s with strs := s.strs.upd (((1 : Fin 4))) (fun x => { x with preUntil := some ((0 : Nat)) }) }; s), 
    by decide +kernel,
    by decide +kernel⟩,
   ⟨(1 : Fin 4), (3 : Fin 128), (0 : Nat), (let s : State := Tests.withYard Tests.up; let s : State := { s with strs := s.strs.upd (((1 : Fin 4))) (fun x => { x with iso.since := some ((0 : Nat)) }) }; let s : State := { s with strs := s.strs.upd (((1 : Fin 4))) (fun x => { x with iso.on := false }) }; let s : State := { s with strs := s.strs.upd 1 (fun zz => { zz with st := .closed }) }; s), 
    by decide +kernel,
    by decide +kernel,
    by decide +kernel,
    by decide +kernel,
    by decide +kernel⟩,
   ⟨(1 : Fin 4), (0 : Nat), (let s : State := Tests.up; let s : State := { s with strs := s.strs.upd (((1 : Fin 4))) (fun x => { x with isoW.absent := some ((0 : Nat)) }) }; let s : State := { s with strs := s.strs.upd (((1 : Fin 4))) (fun x => { x with isoW.on := true }) }; s), 
    by decide +kernel,
    by decide +kernel,
    by decide +kernel⟩,
   ⟨(1 : Fin 4), (0 : Nat), (let s : State := Tests.up; let s : State := { s with strs := s.strs.upd (((1 : Fin 4))) (fun x => { x with overTemp.since := some ((0 : Nat)) }) }; let s : State := { s with strs := s.strs.upd (((1 : Fin 4))) (fun x => { x with overTemp.on := false }) }; let s : State := { s with strs := s.strs.upd (((1 : Fin 4))) (fun x => { x with st := .closed }) }; s), 
    by decide +kernel,
    by decide +kernel,
    by decide +kernel,
    by decide +kernel⟩,
   ⟨(1 : Fin 4), (0 : Nat), (let s : State := Tests.up; let s : State := { s with strs := s.strs.upd (((1 : Fin 4))) (fun x => { x with overTemp.absent := some ((0 : Nat)) }) }; let s : State := { s with strs := s.strs.upd (((1 : Fin 4))) (fun x => { x with overTemp.on := true }) }; s), 
    by decide +kernel,
    by decide +kernel,
    by decide +kernel⟩,
   ⟨Tests.cmd ((((1 : Fin 4)).val) + (1) * 2 ^ 8), Tests.flight ((((1 : Fin 4)).val) + (1) * 2 ^ 8), (1 : Fin 4), (Tests.work ((((1 : Fin 4)).val) + (1) * 2 ^ 8)), 
    Tests.executing (by decide +kernel),
    by decide +kernel,
    by decide +kernel,
    by decide +kernel⟩,
   ⟨(1 : Fin 4), (let s : State := Tests.up; let s : State := { s with strs := s.strs.upd (((1 : Fin 4))) (fun x => { x with service := true }) }; s), 
    by decide +kernel,
    by decide +kernel⟩,
   ⟨Tests.cmd ((0) * 2 ^ 64), Tests.flight ((0) * 2 ^ 64), (Tests.live ((0) * 2 ^ 64)), 
    Tests.executing (by decide +kernel),
    by decide +kernel⟩⟩

/-- Witnesses of the hypotheses of `LockOutHoldsTheSafeState`. -/
theorem witness_LockOutHoldsTheSafeState :
    (∃ (d : Detail) (w : Fin 16) (s : State), (s.halter.lockout = false)) ∧
    (∃ (d : Detail) (w : Fin 16) (s : State), (s.halter.lockout = true) ∧ (s.halter.present.at (detailPlace d) = 0) ∧ (detailMomentary d = false)) ∧
    (∃ (v : Word) (s : State), (v.getLsbD 0 = true) ∧ (v.extractLsb' 24 8 = 0xA5) ∧ (s.halter.lockout = false)) ∧
    (∃ (v : Word) (s : State), (v.getLsbD 0 = false ∨ v.extractLsb' 24 8 ≠ 0xA5)) ∧
    (∃ (s : State), (s.halter.copyDue = true)) ∧
    (∃ (s : State), (s.halter.testing = true)) ∧
    (∃ (a : Bool) (b : Bool) (s : State), (s.halter.testing = true) ∧ (s.halter.lockout = false) ∧ (s.halter.has .startup 0 = false)) ∧
    (∃ (s : State), (s.isl.halter = true)) ∧
    (∃ (s : State), (s.swctl.refreshAt + 500 * ticksPerUs ≤ s.now)) :=
  ⟨⟨(.tripOv : Detail), (1 : Fin 16), (let s : State := Tests.up; let s : State := { s with halter.lockout := false }; s), 
    by decide +kernel⟩,
   ⟨(.tripOv : Detail), (1 : Fin 16), (let s : State := Tests.up; let s : State := { s with halter.lockout := true }; let s : State := { s with halter.present := s.halter.present.put ((detailPlace ((.tripOv : Detail)))) (0) }; s), 
    by decide +kernel,
    by decide +kernel,
    by decide +kernel⟩,
   ⟨(0xA5000001 : Word), (let s : State := Tests.withYard Tests.up; let s : State := { s with halter.lockout := false }; s), 
    by decide +kernel,
    by decide +kernel,
    by decide +kernel⟩,
   ⟨(0 : Word), (Tests.up), 
    by decide +kernel⟩,
   ⟨(let s : State := Tests.up; let s : State := { s with halter.copyDue := true }; s), 
    by decide +kernel⟩,
   ⟨(let s : State := Tests.up; let s : State := { s with halter.testing := true }; s), 
    by decide +kernel⟩,
   ⟨(true : Bool), (true : Bool), (let s : State := Tests.up; let s : State := { s with halter.testing := true }; let s : State := { s with halter.lockout := false }; s), 
    by decide +kernel,
    by decide +kernel,
    by decide +kernel⟩,
   ⟨(let s : State := Tests.up; let s : State := { s with isl.halter := true }; s), 
    by decide +kernel⟩,
   ⟨(Tests.up), 
    by decide +kernel⟩⟩

/-- Witnesses of the hypotheses of `SafetyInputsHeartbeatAndPulses`. -/
theorem witness_SafetyInputsHeartbeatAndPulses :
    (∃ (n : Fin 8) (s : State), ((s.halter.cfg.sin.at n).role = 1) ∧ ((s.halter.sin.at n).a.closed = true) ∧ ((s.halter.sin.at n).demand = false)) ∧
    (∃ (k : Fin 4) (n : Fin 8) (s : State), ((s.halter.cfg.sin.at n).role ≠ 0) ∧ ((s.halter.cfg.sin.at n).tpEn = true) ∧ ((s.halter.cfg.sin.at n).tpoA.toNat = k.val)) ∧
    (∃ (k : Fin 4) (n : Fin 8) (read : Bank 16 PulseReading) (s : State), (∀ m, m ≠ n → (s.halter.cfg.sin.at m).pulsed = false) ∧ ((s.halter.cfg.sin.at n).pulsed = true) ∧ ((s.halter.cfg.sin.at n).tpoA.toNat = k.val) ∧ ((s.halter.sin.at n).a.wasClosed = true) ∧ (read.at ⟨2 * n.val, by omega⟩ = ⟨true, true⟩)) ∧
    (∃ (k : Fin 4) (n : Fin 8) (read : Bank 16 PulseReading) (s : State), (∀ m, m ≠ n → (s.halter.cfg.sin.at m).pulsed = false) ∧ ((s.halter.cfg.sin.at n).pulsed = true) ∧ ((s.halter.cfg.sin.at n).tpoA.toNat = k.val) ∧ ((s.halter.sin.at n).a.wasClosed = true) ∧ ((s.halter.sin.at n).demand = false) ∧ ((s.halter.sin.at n).a.failRun = 1) ∧ (read.at ⟨2 * n.val, by omega⟩ = ⟨false, true⟩)) ∧
    (∃ (n : Fin 8) (s : State), ((s.halter.cfg.sin.at n).role ≠ 0) ∧ ((s.halter.sin.at n).a.closed ≠ (s.halter.sin.at n).b.closed) ∧ (s.halter.has .sinDisc n.val = false) ∧ (max (s.halter.sin.at n).a.changedAt (s.halter.sin.at n).b.changedAt + 50 * ticksPerMs < s.now)) ∧
    (∃ (n : Fin 8) (s : State), ((s.halter.sin.at n).proven = true) ∧ ((s.halter.cfg.sin.at n).proofH ≠ 0) ∧ ((s.halter.sin.at n).provenAt + (s.halter.cfg.sin.at n).proofH * 3600000 ≤ s.oph)) ∧
    (∃ (v : Word) (s : State), (v.setWidth 8 = s.halter.hb + 1)) ∧
    (∃ (x : View) (v : Word) (s : State), (s.mayBeat x = false ∨ v.setWidth 8 ≠ s.halter.hb + 1)) ∧
    (∃ (s : State), (s.halter.hbArmed = true) ∧ (s.halter.hbAt + 10 * ticksPerMs < s.now)) ∧
    (∃ (s : State), (s.halter.hbArmed = true) ∧ (s.halter.hbAt + 60 * ticksPerMs < s.now) ∧ (s.halter.has .hbLoss 0 = false)) ∧
    (∃ (j : Fin 12) (s : State), (s.halter.enables ≠ 0) ∧ ((s.halter.pulse.at j).busy = false) ∧ ((s.swc.at (conCh j)).cmd = .off ∨ (s.swc.at (conCh j)).onAt + 150 * ticksPerMs ≤ s.now)) ∧
    (∃ (j : Fin 12) (a : Bool) (b : Bool) (s : State), ((s.halter.pulse.at j).busy = true) ∧ ((s.swc.at (conCh j)).cmd = .off) ∧ ((s.swc.at (conCh j)).phase = .off) ∧ ((s.swc.at (conCh j)).pulseDrop = false) ∧ (s.halter.enables ≠ 0) ∧ ((s.halter.pulse.at j).failRun = 1)) :=
  ⟨⟨(1 : Fin 8), (let s : State := Tests.up; let s : State := { s with halter.cfg.sin := s.halter.cfg.sin.upd (((1 : Fin 8))) (fun x => { x with role := 1 }) }; let s : State := { s with halter.sin := s.halter.sin.upd (((1 : Fin 8))) (fun x => { x with a.closed := true }) }; let s : State := { s with halter.sin := s.halter.sin.upd (((1 : Fin 8))) (fun x => { x with demand := false }) }; s), 
    by decide +kernel,
    by decide +kernel,
    by decide +kernel⟩,
   ⟨(1 : Fin 4), (1 : Fin 8), (let s : State := Tests.withYard Tests.up; let s : State := { s with halter := { s.halter with cfg := { s.halter.cfg with sin := s.halter.cfg.sin.upd ((1 : Fin 8)) (fun x => { x with role := 1, tpEn := true, tpoA := 1, tpoB := 2 }) } } }; s), 
    by decide +kernel,
    by decide +kernel,
    by decide +kernel⟩,
   ⟨(1 : Fin 4), (1 : Fin 8), (Bank.fill 16 ⟨true, true⟩ : Bank 16 PulseReading), (let s : State := Tests.withYard Tests.up; let s : State := { s with halter := { s.halter with cfg := { s.halter.cfg with sin := s.halter.cfg.sin.upd ((1 : Fin 8)) (fun x => { x with role := 1, tpEn := true, tpoA := 1, tpoB := 2 }) } } }; let s : State := { s with halter := { s.halter with sin := s.halter.sin.upd ((1 : Fin 8)) (fun x => { x with a := { x.a with wasClosed := true, failRun := 1 } }) } }; s), 
    by decide +kernel,
    by decide +kernel,
    by decide +kernel,
    by decide +kernel,
    by decide +kernel⟩,
   ⟨(1 : Fin 4), (1 : Fin 8), ((Bank.fill 16 ⟨false, true⟩) : Bank 16 PulseReading), (let s : State := Tests.withYard Tests.up; let s : State := { s with halter := { s.halter with cfg := { s.halter.cfg with sin := s.halter.cfg.sin.upd ((1 : Fin 8)) (fun x => { x with role := 1, tpEn := true, tpoA := 1, tpoB := 2 }) } } }; let s : State := { s with halter := { s.halter with sin := s.halter.sin.upd ((1 : Fin 8)) (fun x => { x with a := { x.a with wasClosed := true, failRun := 1 } }) } }; s), 
    by decide +kernel,
    by decide +kernel,
    by decide +kernel,
    by decide +kernel,
    by decide +kernel,
    by decide +kernel,
    by decide +kernel⟩,
   ⟨(1 : Fin 8), (let s : State := Tests.withYard Tests.up; let s : State := { s with halter := { s.halter with cfg := { s.halter.cfg with sin := s.halter.cfg.sin.upd ((1 : Fin 8)) (fun x => { x with role := 1 }) } } }; let s : State := { s with halter := { s.halter with sin := s.halter.sin.upd ((1 : Fin 8)) (fun x => { x with a := { x.a with closed := true } }) } }; s), 
    by decide +kernel,
    by decide +kernel,
    by decide +kernel,
    by decide +kernel⟩,
   ⟨(1 : Fin 8), (let s : State := Tests.withYard Tests.up; let s : State := { s with halter := { s.halter with cfg := { s.halter.cfg with sin := s.halter.cfg.sin.upd ((1 : Fin 8)) (fun x => { x with role := 1, proofH := 1 }) } } }; let s : State := { s with halter := { s.halter with sin := s.halter.sin.upd ((1 : Fin 8)) (fun x => { x with proven := true }) } }; s), 
    by decide +kernel,
    by decide +kernel,
    by decide +kernel⟩,
   ⟨(1 : Word), (Tests.withYard Tests.up), 
    by decide +kernel⟩,
   ⟨(.host : View), (0 : Word), (Tests.up), 
    by decide +kernel⟩,
   ⟨(let s : State := Tests.up; let s : State := { s with halter.hbArmed := true }; s), 
    by decide +kernel,
    by decide +kernel⟩,
   ⟨(let s : State := Tests.up; let s : State := { s with halter.hbArmed := true }; s), 
    by decide +kernel,
    by decide +kernel,
    by decide +kernel⟩,
   ⟨(1 : Fin 12), (let s : State := Tests.withYard Tests.up; let s : State := { s with halter.pulse := s.halter.pulse.upd (((1 : Fin 12))) (fun x => { x with busy := false }) }; let s : State := { s with swc := s.swc.upd ((conCh ((1 : Fin 12)))) (fun x => { x with cmd := .off }) }; let s : State := { s with halter := { s.halter with enables := 0xFFF } }; s), 
    by decide +kernel,
    by decide +kernel,
    by decide +kernel⟩,
   ⟨(1 : Fin 12), (true : Bool), (true : Bool), (let s : State := Tests.withYard Tests.up; let s : State := { s with halter.pulse := s.halter.pulse.upd (((1 : Fin 12))) (fun x => { x with busy := true }) }; let s : State := { s with swc := s.swc.upd ((conCh ((1 : Fin 12)))) (fun x => { x with cmd := .off }) }; let s : State := { s with swc := s.swc.upd ((conCh ((1 : Fin 12)))) (fun x => { x with phase := .off }) }; let s : State := { s with swc := s.swc.upd ((conCh ((1 : Fin 12)))) (fun x => { x with pulseDrop := false }) }; let s : State := { s with halter.pulse := s.halter.pulse.upd (((1 : Fin 12))) (fun x => { x with failRun := 1 }) }; let s : State := { s with halter := { s.halter with enables := 0xFFF } }; s), 
    by decide +kernel,
    by decide +kernel,
    by decide +kernel,
    by decide +kernel,
    by decide +kernel,
    by decide +kernel⟩⟩

/-- Witnesses of the hypotheses of `SafetyTelegrams`. -/
theorem witness_SafetyTelegrams :
    (∃ (n : Fin 2) (b : BitVec 128) (s : State), (s.supervises = true) ∧ (s.tgGood b = true) ∧ (∀ m, s.halter.net.wait.at m = none)) ∧
    (∃ (n : Fin 2) (b : BitVec 128) (s : State), (s.supervises = false ∨ s.tgGood b = false)) ∧
    (∃ (n : Fin 2) (m : Fin 2) (b : BitVec 128) (at_ : Nat) (s : State), (m ≠ n) ∧ (s.supervises = true) ∧ (s.tgGood b = true) ∧ (s.halter.net.wait.at m = some ⟨b, at_⟩) ∧ (s.now ≤ at_ + 10 * ticksPerMs) ∧ (s.halter.net.started = false) ∧ ((tgByte b 4).getLsbD 0 = true)) ∧
    (∃ (n : Fin 2) (m : Fin 2) (b : BitVec 128) (at_ : Nat) (s : State), (m ≠ n) ∧ (s.supervises = true) ∧ (s.tgGood b = true) ∧ (s.halter.net.wait.at m = some ⟨b, at_⟩) ∧ (s.now ≤ at_ + 10 * ticksPerMs) ∧ (s.halter.net.started = false) ∧ ((tgByte b 4).getLsbD 0 = false)) ∧
    (∃ (n : Fin 2) (w : TgCopy) (s : State), (s.halter.net.wait.at n = some w) ∧ (w.at_ + 10 * ticksPerMs < s.now)) ∧
    (∃ (n : Fin 2) (s : State), (s.halter.net.wait.at n = none)) ∧
    (∃ (s : State), (s.supervises = true) ∧ (s.halter.net.started = true) ∧ (s.halter.net.acceptedAt + 50 * ticksPerMs ≤ s.now) ∧ (s.halter.has .netLoss 0 = false)) ∧
    (∃ (s : State), (s.isl.halter = true) ∧ (s.halter.quiet = false)) ∧
    (∃ (str : Fin 4) (u : Nat) (s : State), (s.halter.net.permit.at str = some u) ∧ (u ≤ s.now)) :=
  ⟨⟨(1 : Fin 2), (BitVec.ofNat 128 (((0x180 : Nat) + 0 * 2 ^ 32 + (leNat (bvBytes 4 (crc32c (bvBytes 12 (BitVec.ofNat 96 (0x180 + 0 * 2 ^ 32)))))) * 2 ^ 96 : Nat)) : BitVec 128), (let s : State := Tests.withYard Tests.up; let s : State := { s with halter := { s.halter with cfg := { s.halter.cfg with rxEn := true } } }; s), 
    by decide +kernel,
    by decide +kernel,
    by decide +kernel⟩,
   ⟨(1 : Fin 2), (0 : BitVec 128), (Tests.up), 
    by decide +kernel⟩,
   ⟨(0 : Fin 2), (1 : Fin 2), (BitVec.ofNat 128 (((0x180 : Nat) + 1 * 2 ^ 32 + (leNat (bvBytes 4 (crc32c (bvBytes 12 (BitVec.ofNat 96 (0x180 + 1 * 2 ^ 32)))))) * 2 ^ 96 : Nat)) : BitVec 128), (2304000000000 : Nat), (let s : State := Tests.withYard Tests.up; let s : State := { s with halter.net.wait := s.halter.net.wait.put (((1 : Fin 2))) (some ⟨((BitVec.ofNat 128 (((0x180 : Nat) + 1 * 2 ^ 32 + (leNat (bvBytes 4 (crc32c (bvBytes 12 (BitVec.ofNat 96 (0x180 + 1 * 2 ^ 32)))))) * 2 ^ 96 : Nat)) : BitVec 128)), ((2304000000000 : Nat))⟩) }; let s : State := { s with halter.net.started := false }; let s : State := { s with halter := { s.halter with cfg := { s.halter.cfg with rxEn := true } } }; s), 
    by decide +kernel,
    by decide +kernel,
    by decide +kernel,
    by decide +kernel,
    by decide +kernel,
    by decide +kernel,
    by decide +kernel⟩,
   ⟨(0 : Fin 2), (1 : Fin 2), (BitVec.ofNat 128 (((0x180 : Nat) + 0 * 2 ^ 32 + (leNat (bvBytes 4 (crc32c (bvBytes 12 (BitVec.ofNat 96 (0x180 + 0 * 2 ^ 32)))))) * 2 ^ 96 : Nat)) : BitVec 128), (2304000000000 : Nat), (let s : State := Tests.withYard Tests.up; let s : State := { s with halter.net.wait := s.halter.net.wait.put (((1 : Fin 2))) (some ⟨((BitVec.ofNat 128 (((0x180 : Nat) + 0 * 2 ^ 32 + (leNat (bvBytes 4 (crc32c (bvBytes 12 (BitVec.ofNat 96 (0x180 + 0 * 2 ^ 32)))))) * 2 ^ 96 : Nat)) : BitVec 128)), ((2304000000000 : Nat))⟩) }; let s : State := { s with halter.net.started := false }; let s : State := { s with halter := { s.halter with cfg := { s.halter.cfg with rxEn := true } } }; s), 
    by decide +kernel,
    by decide +kernel,
    by decide +kernel,
    by decide +kernel,
    by decide +kernel,
    by decide +kernel,
    by decide +kernel⟩,
   ⟨(1 : Fin 2), ({ bytes := 0, at_ := 0 } : TgCopy), (let s : State := Tests.up; let s : State := { s with halter.net.wait := s.halter.net.wait.put (((1 : Fin 2))) (some (({ bytes := 0, at_ := 0 } : TgCopy))) }; s), 
    by decide +kernel,
    by decide +kernel⟩,
   ⟨(1 : Fin 2), (let s : State := Tests.up; let s : State := { s with halter.net.wait := s.halter.net.wait.put (((1 : Fin 2))) (none) }; s), 
    by decide +kernel⟩,
   ⟨(let s : State := Tests.withYard Tests.up; let s : State := { s with halter.net.started := true }; let s : State := { s with halter := { s.halter with cfg := { s.halter.cfg with rxEn := true } } }; s), 
    by decide +kernel,
    by decide +kernel,
    by decide +kernel,
    by decide +kernel⟩,
   ⟨(let s : State := Tests.up; let s : State := { s with isl.halter := true }; let s : State := { s with halter.quiet := false }; s), 
    by decide +kernel,
    by decide +kernel⟩,
   ⟨(1 : Fin 4), (0 : Nat), (let s : State := Tests.up; let s : State := { s with halter.net.permit := s.halter.net.permit.put (((1 : Fin 4))) (some ((0 : Nat))) }; s), 
    by decide +kernel,
    by decide +kernel⟩⟩

/-- Witnesses of the hypotheses of `LockOutExit`. -/
theorem witness_LockOutExit :
    (∃ (s : State), (s.halter.key.press = none) ∧ (s.halter.key.held = false)) ∧
    (∃ (c : Cmd) (f : Flight) (t0 : Nat) (s : State), (Executing s c f) ∧ (s.halter.key.press = some t0) ∧ (t0 + 500 * ticksPerMs ≤ s.now) ∧ (s.now < t0 + 5 * ticksPerS) ∧ (s.halter.lockout = true) ∧ (s.halter.key.disabled = false) ∧ (s.halter.presentWord = 0) ∧ (s.halter.key.seen = 0) ∧ (s.halter.key.reqs = [c])) ∧
    (∃ (b : Bool) (t0 : Nat) (s : State), (s.halter.key.press = some t0) ∧ (s.now < t0 + 500 * ticksPerMs ∨ t0 + 5 * ticksPerS ≤ s.now ∨ b = false ∨ s.halter.key.disabled = true ∨ s.halter.presentWord ≠ 0 ∨ s.halter.key.seen ≠ 0 ∨ (s.halter.cfg.rstHost = true ∧ s.halter.key.reqs = []))) ∧
    (∃ (c : Cmd) (f : Flight) (t0 : Nat) (s : State), (Executing s c f) ∧ (s.halter.key.press = some t0) ∧ (s.now < t0 + 500 * ticksPerMs) ∧ (s.halter.key.reqs = [c])) ∧
    (∃ (t0 : Nat) (s : State), (s.halter.key.press = some t0) ∧ (t0 + 5 * ticksPerS ≤ s.now)) ∧
    (∃ (t0 : Nat) (s : State), (s.halter.key.disabled = true) ∧ (s.halter.key.press = none) ∧ (s.halter.key.bothOpenAt = some t0) ∧ (t0 + ticksPerS ≤ s.now)) ∧
    (∃ (c : Cmd) (f : Flight) (s : State), (Executing s c f) ∧ (s.halter.lockout = false)) ∧
    (∃ (c : Cmd) (f : Flight) (s : State), (Executing s c f) ∧ (s.halter.lockout = true) ∧ (s.halter.key.press = none)) :=
  ⟨⟨(let s : State := Tests.up; let s : State := { s with halter.key.press := none }; let s : State := { s with halter.key.held := false }; s), 
    by decide +kernel,
    by decide +kernel⟩,
   ⟨Tests.cmd (0), Tests.flight (0), (2303961600000 : Nat), (let s : State := Tests.work (0); let s : State := { s with halter.key.press := some ((2303961600000 : Nat)) }; let s : State := { s with halter.lockout := true }; let s : State := { s with halter.key.disabled := false }; let s : State := { s with halter.key.seen := 0 }; let s : State := { s with halter.key.reqs := [(Tests.cmd (0))] }; s), 
    Tests.executing (by decide +kernel),
    by decide +kernel,
    by decide +kernel,
    by decide +kernel,
    by decide +kernel,
    by decide +kernel,
    by decide +kernel,
    by decide +kernel,
    by decide +kernel⟩,
   ⟨(true : Bool), (0 : Nat), (let s : State := Tests.up; let s : State := { s with halter.key.press := some ((0 : Nat)) }; s), 
    by decide +kernel,
    by decide +kernel⟩,
   ⟨Tests.cmd (0), Tests.flight (0), (2304000000000 : Nat), (let s : State := Tests.work (0); let s : State := { s with halter.key.press := some ((2304000000000 : Nat)) }; let s : State := { s with halter.key.reqs := [(Tests.cmd (0))] }; s), 
    Tests.executing (by decide +kernel),
    by decide +kernel,
    by decide +kernel,
    by decide +kernel⟩,
   ⟨(0 : Nat), (let s : State := Tests.up; let s : State := { s with halter.key.press := some ((0 : Nat)) }; s), 
    by decide +kernel,
    by decide +kernel⟩,
   ⟨(0 : Nat), (let s : State := Tests.up; let s : State := { s with halter.key.disabled := true }; let s : State := { s with halter.key.press := none }; let s : State := { s with halter.key.bothOpenAt := some ((0 : Nat)) }; s), 
    by decide +kernel,
    by decide +kernel,
    by decide +kernel,
    by decide +kernel⟩,
   ⟨Tests.cmd (0), Tests.flight (0), (let s : State := Tests.live (0); let s : State := { s with halter.lockout := false }; s), 
    Tests.executing (by decide +kernel),
    by decide +kernel⟩,
   ⟨Tests.cmd (0), Tests.flight (0), (let s : State := Tests.live (0); let s : State := { s with halter.lockout := true }; let s : State := { s with halter.key.press := none }; s), 
    Tests.executing (by decide +kernel),
    by decide +kernel,
    by decide +kernel⟩⟩

/-- Witnesses of the hypotheses of `SwitchCommandsAndTestPulses`. -/
theorem witness_SwitchCommandsAndTestPulses :
    (∃ (c : Cmd) (f : Flight) (ch : Fin 12) (s : State), (Executing s c f) ∧ (opByte c 0 = ch.val) ∧ (opByte c 1 ≤ 2) ∧ (opByte c 1 = 2 → 1 ≤ opField c 2 2 ∧ opField c 2 2 ≤ 1000) ∧ (opByte c 1 = 0 ∨ (s.swc.at (genCh ch)).tj < 150)) ∧
    (∃ (c : Cmd) (f : Flight) (ch : Fin 12) (s : State), (Executing s c f) ∧ (opByte c 0 = ch.val) ∧ (opByte c 1 = 1) ∧ (150 ≤ (s.swc.at (genCh ch)).tj)) ∧
    (∃ (c : Cmd) (f : Flight) (s : State), (Executing s c f) ∧ (12 ≤ opByte c 0 ∨ 2 < opByte c 1)) ∧
    (∃ (c : Cmd) (f : Flight) (pkg : List Byte) (ch : Fin 12) (s : State), (Executing s c f) ∧ (opByte c 1 = 0) ∧ (opByte c 0 = ch.val) ∧ (opByte c 2 ≤ 15) ∧ (1 ≤ opByte c 3) ∧ (opByte c 3 ≤ 60) ∧ (1 ≤ opByte c 4) ∧ (opByte c 4 ≤ 100) ∧ (opByte c 5 ≤ 3) ∧ (opByte c 6 ≤ 1) ∧ (10 ≤ opField c 8 2) ∧ (opField c 8 2 ≤ 1000) ∧ (opField c 8 2 % 10 = 0)) ∧
    (∃ (c : Cmd) (f : Flight) (pkg : List Byte) (j : Fin 12) (s : State), (Executing s c f) ∧ (opByte c 1 = 1) ∧ (opByte c 0 = 12 + j.val) ∧ (opByte c 2 ≤ 1) ∧ (500 ≤ opField c 4 2) ∧ (opField c 4 2 ≤ 4000) ∧ (20 ≤ opField c 6 2) ∧ (opField c 6 2 ≤ 500) ∧ (1000 ≤ opField c 8 2) ∧ (opField c 8 2 ≤ 20000)) ∧
    (∃ (c : Cmd) (f : Flight) (pkg : List Byte) (s : State), (Executing s c f) ∧ (opByte c 1 = 2) ∧ (opField c 0x10 4 = 96) ∧ (pkg.length = 96) ∧ (packageHead 0x4402 pkg = true) ∧ (field pkg 0x10 2 ≠ 0) ∧ (field pkg 0x10 2 < 4096) ∧ (field pkg 0x12 1 ≤ 1) ∧ (zeroBytes pkg 0x13 0x20 = true) ∧ (packageSigned s.sec.owner pkg = true) ∧ (s.swctl.seq.toNat < field pkg 4 4)) ∧
    (∃ (ch : Fin 12) (s : State), (s.pulseDue ch = true)) ∧
    (∃ (ch : Fin 12) (s : State), (s.pulseDue ch = false)) ∧
    (∃ (ch : Fin 12) (s : State), ((s.swc.at (genCh ch)).pulse = true) ∧ ((s.swc.at (genCh ch)).pulseDrop = false) ∧ (s.mayConduct (genCh ch) = true) ∧ ((s.swc.at (genCh ch)).cfg.bypass = false) ∧ ((s.swc.at (genCh ch)).failRun = 1)) :=
  ⟨⟨Tests.cmd ((((1 : Fin 12)).val) + (0) * 2 ^ 8 + (1000) * 2 ^ 16), Tests.flight ((((1 : Fin 12)).val) + (0) * 2 ^ 8 + (1000) * 2 ^ 16), (1 : Fin 12), (Tests.live ((((1 : Fin 12)).val) + (0) * 2 ^ 8 + (1000) * 2 ^ 16)), 
    Tests.executing (by decide +kernel),
    by decide +kernel,
    by decide +kernel,
    by decide +kernel,
    by decide +kernel⟩,
   ⟨Tests.cmd ((((1 : Fin 12)).val) + (1) * 2 ^ 8), Tests.flight ((((1 : Fin 12)).val) + (1) * 2 ^ 8), (1 : Fin 12), (let s : State := Tests.live ((((1 : Fin 12)).val) + (1) * 2 ^ 8); let s : State := { s with swc := s.swc.upd ((genCh ((1 : Fin 12)))) (fun x => { x with tj := 150 }) }; s), 
    Tests.executing (by decide +kernel),
    by decide +kernel,
    by decide +kernel,
    by decide +kernel⟩,
   ⟨Tests.cmd ((12)), Tests.flight ((12)), (Tests.live ((12))), 
    Tests.executing (by decide +kernel),
    by decide +kernel⟩,
   ⟨Tests.cmd ((((1 : Fin 12)).val) + (0) * 2 ^ 8 + (15) * 2 ^ 16 + (1) * 2 ^ 24 + (1) * 2 ^ 32 + (3) * 2 ^ 40 + (1) * 2 ^ 48 + (10) * 2 ^ 64), Tests.flight ((((1 : Fin 12)).val) + (0) * 2 ^ 8 + (15) * 2 ^ 16 + (1) * 2 ^ 24 + (1) * 2 ^ 32 + (3) * 2 ^ 40 + (1) * 2 ^ 48 + (10) * 2 ^ 64), ([] : List Byte), (1 : Fin 12), (Tests.live ((((1 : Fin 12)).val) + (0) * 2 ^ 8 + (15) * 2 ^ 16 + (1) * 2 ^ 24 + (1) * 2 ^ 32 + (3) * 2 ^ 40 + (1) * 2 ^ 48 + (10) * 2 ^ 64)), 
    Tests.executing (by decide +kernel),
    by decide +kernel,
    by decide +kernel,
    by decide +kernel,
    by decide +kernel,
    by decide +kernel,
    by decide +kernel,
    by decide +kernel,
    by decide +kernel,
    by decide +kernel,
    by decide +kernel,
    by decide +kernel,
    by decide +kernel⟩,
   ⟨Tests.cmd ((12 + ((1 : Fin 12)).val) + (1) * 2 ^ 8 + (1) * 2 ^ 16 + (500) * 2 ^ 32 + (20) * 2 ^ 48 + (1000) * 2 ^ 64), Tests.flight ((12 + ((1 : Fin 12)).val) + (1) * 2 ^ 8 + (1) * 2 ^ 16 + (500) * 2 ^ 32 + (20) * 2 ^ 48 + (1000) * 2 ^ 64), ([] : List Byte), (1 : Fin 12), (Tests.live ((12 + ((1 : Fin 12)).val) + (1) * 2 ^ 8 + (1) * 2 ^ 16 + (500) * 2 ^ 32 + (20) * 2 ^ 48 + (1000) * 2 ^ 64)), 
    Tests.executing (by decide +kernel),
    by decide +kernel,
    by decide +kernel,
    by decide +kernel,
    by decide +kernel,
    by decide +kernel,
    by decide +kernel,
    by decide +kernel,
    by decide +kernel,
    by decide +kernel⟩,
   ⟨Tests.cmd (2 * 2 ^ 8 + 96 * 2 ^ 128), Tests.flight (2 * 2 ^ 8 + 96 * 2 ^ 128), (Laws.pkg 0x4402 5 ([1] ++ List.replicate 15 0) : List Byte), (let s : State := Tests.work (2 * 2 ^ 8 + 96 * 2 ^ 128); let s : State := { s with sec := { s.sec with owner := some Laws.key } }; s), 
    Tests.executing (by decide +kernel),
    by decide +kernel,
    by decide +kernel,
    by rw [Laws.pkg_length]; rfl,
    Laws.pkg_head _ _ _ (by decide +kernel),
    by rw [Laws.field_from _ _ _ _ _ (by decide)]; decide +kernel,
    by rw [Laws.field_from _ _ _ _ _ (by decide)]; decide +kernel,
    by rw [Laws.field_from _ _ _ _ _ (by decide)]; decide +kernel,
    by rw [Laws.zero_from _ _ _ _ _ (by decide) (by decide)]; decide +kernel,
    Laws.pkg_signed _ _ _,
    by rw [Laws.pkg_seq]; decide +kernel⟩,
   ⟨(1 : Fin 12), (let s : State := Tests.withYard Tests.up; let s : State := { s with swc := s.swc.upd 1 (fun zz => { zz with cmd := .on, out := true, onAt := 0 }) }; s), 
    by decide +kernel⟩,
   ⟨(1 : Fin 12), (Tests.up), 
    by decide +kernel⟩,
   ⟨(1 : Fin 12), (let s : State := Tests.withYard Tests.up; let s : State := { s with swc := s.swc.upd ((genCh ((1 : Fin 12)))) (fun x => { x with pulse := true }) }; let s : State := { s with swc := s.swc.upd ((genCh ((1 : Fin 12)))) (fun x => { x with pulseDrop := false }) }; let s : State := { s with swc := s.swc.upd ((genCh ((1 : Fin 12)))) (fun x => { x with cfg.bypass := false }) }; let s : State := { s with swc := s.swc.upd ((genCh ((1 : Fin 12)))) (fun x => { x with failRun := 1 }) }; let s : State := { s with swc := s.swc.upd 1 (fun zz => { zz with cmd := .on }) }; s), 
    by decide +kernel,
    by decide +kernel,
    by decide +kernel,
    by decide +kernel,
    by decide +kernel⟩⟩

/-- Witnesses of the hypotheses of `TripsLatchesAndRestarts`. -/
theorem witness_TripsLatchesAndRestarts :
    (∃ (ch : Fin 12) (s : State), ((s.swc.at (genCh ch)).out = true) ∧ ((s.swc.at (genCh ch)).limit = true) ∧ ((s.swc.at (genCh ch)).limitAt + (s.swc.at (genCh ch)).cfg.limTmoMs * ticksPerMs ≤ s.now)) ∧
    (∃ (ch : Fin 12) (s : State), ((s.swc.at (genCh ch)).out = false ∨ (s.swc.at (genCh ch)).limit = false)) ∧
    (∃ (j : Fin 12) (s : State), ((s.swc.at (conCh j)).out = true)) ∧
    (∃ (ch : Fin 12) (s : State), ((s.swc.at (genCh ch)).wait = true) ∧ ((s.swc.at (genCh ch)).waitCause ≠ .limTmo ∨ (s.swc.at (genCh ch)).tripAt + (s.swc.at (genCh ch)).cfg.restartMs * ticksPerMs ≤ s.now) ∧ ((s.swc.at (genCh ch)).cmd ≠ .off) ∧ ((s.swc.at (genCh ch)).latched = false) ∧ (s.dipHeld (genCh ch) = false) ∧ ((s.swc.at (genCh ch)).out = false) ∧ ((s.swc.at (genCh ch)).pulse = false)) ∧
    (∃ (ch : Fin 12) (s : State), ((s.swc.at (genCh ch)).wait = false)) ∧
    (∃ (ch : Fin 12) (s : State), ((s.swc.at (genCh ch)).out = true) ∧ ((s.swc.at (genCh ch)).limit = false)) :=
  ⟨⟨(1 : Fin 12), (let s : State := Tests.up; let s : State := { s with swc := s.swc.upd ((genCh ((1 : Fin 12)))) (fun x => { x with out := true }) }; let s : State := { s with swc := s.swc.upd ((genCh ((1 : Fin 12)))) (fun x => { x with limit := true }) }; s), 
    by decide +kernel,
    by decide +kernel,
    by decide +kernel⟩,
   ⟨(1 : Fin 12), (let s : State := Tests.up; let s : State := { s with swc := s.swc.upd ((genCh ((1 : Fin 12)))) (fun x => { x with out := false }) }; s), 
    by decide +kernel⟩,
   ⟨(1 : Fin 12), (let s : State := Tests.up; let s : State := { s with swc := s.swc.upd ((conCh ((1 : Fin 12)))) (fun x => { x with out := true }) }; s), 
    by decide +kernel⟩,
   ⟨(1 : Fin 12), (let s : State := Tests.withYard Tests.up; let s : State := { s with swc := s.swc.upd ((genCh ((1 : Fin 12)))) (fun x => { x with wait := true }) }; let s : State := { s with swc := s.swc.upd ((genCh ((1 : Fin 12)))) (fun x => { x with latched := false }) }; let s : State := { s with swc := s.swc.upd ((genCh ((1 : Fin 12)))) (fun x => { x with out := false }) }; let s : State := { s with swc := s.swc.upd ((genCh ((1 : Fin 12)))) (fun x => { x with pulse := false }) }; let s : State := { s with swc := s.swc.upd 1 (fun zz => { zz with cmd := .on }) }; s), 
    by decide +kernel,
    by decide +kernel,
    by decide +kernel,
    by decide +kernel,
    by decide +kernel,
    by decide +kernel,
    by decide +kernel⟩,
   ⟨(1 : Fin 12), (let s : State := Tests.up; let s : State := { s with swc := s.swc.upd ((genCh ((1 : Fin 12)))) (fun x => { x with wait := false }) }; s), 
    by decide +kernel⟩,
   ⟨(1 : Fin 12), (let s : State := Tests.up; let s : State := { s with swc := s.swc.upd ((genCh ((1 : Fin 12)))) (fun x => { x with out := true }) }; let s : State := { s with swc := s.swc.upd ((genCh ((1 : Fin 12)))) (fun x => { x with limit := false }) }; s), 
    by decide +kernel,
    by decide +kernel⟩⟩

/-- Witnesses of the hypotheses of `SwitchSuppliesEconomiserAndSense`. -/
theorem witness_SwitchSuppliesEconomiserAndSense :
    (∃ (j : Fin 12) (duty : Nat) (ma : Nat) (s : State), ((s.swc.at (conCh j)).phase = .pullIn) ∧ ((s.swc.at (conCh j)).onAt + (s.swc.at (conCh j)).cfg.pullMs * ticksPerMs ≤ s.now)) ∧
    (∃ (j : Fin 12) (duty : Nat) (ma : Nat) (s : State), ((s.swc.at (conCh j)).phase ≠ .pullIn)) ∧
    (∃ (die : Fin 2) (v : BitVec 12) (s : State), ((s.swctl.die.at die).dip = false)) ∧
    (∃ (v : BitVec 12) (ch : Fin 12) (s : State), ((s.swctl.die.at 0).dip = true) ∧ ((s.swctl.die.at 0).inLimit.getLsbD ch.val = false) ∧ ((s.swc.at (genCh ch)).cmd ≠ .off) ∧ ((s.swc.at (genCh ch)).latched = false) ∧ ((s.swc.at (genCh ch)).wait = false) ∧ ((s.swc.at (genCh ch)).pulse = false)) ∧
    (∃ (v : BitVec 12) (ch : Fin 12) (s : State), ((s.swctl.die.at 0).dip = true) ∧ ((s.swctl.die.at 0).inLimit.getLsbD ch.val = true) ∧ ((s.swc.at (genCh ch)).cmd ≠ .off) ∧ ((s.swc.at (genCh ch)).latched = false) ∧ ((s.swc.at (genCh ch)).wait = false) ∧ ((s.swc.at (genCh ch)).cfg.retryMax ≤ ((s.swc.at (genCh ch)).recent s.now).length)) ∧
    (∃ (mv : Nat) (s : State), (s.swctl.snsExt = false)) ∧
    (∃ (mv : Nat) (s : State), (s.swctl.snsExt = true) ∧ (∀ p ∈ s.swctl.pins, p = s.swctl.pins.headD 0) ∧ (12 ≤ (s.swctl.pins.headD 0).toNat)) ∧
    (∃ (p : BitVec 4) (s : State), (s.swctl.snsExt = true)) ∧
    (∃ (p : BitVec 4) (s : State), (s.swctl.snsExt = false)) :=
  ⟨⟨(1 : Fin 12), (0 : Nat), (0 : Nat), (let s : State := Tests.up; let s : State := { s with swc := s.swc.upd ((conCh ((1 : Fin 12)))) (fun x => { x with phase := .pullIn }) }; s), 
    by decide +kernel,
    by decide +kernel⟩,
   ⟨(1 : Fin 12), (0 : Nat), (0 : Nat), (Tests.up), 
    by decide +kernel⟩,
   ⟨(1 : Fin 2), (0 : BitVec 12), (let s : State := Tests.up; let s : State := { s with swctl.die := s.swctl.die.upd (((1 : Fin 2))) (fun x => { x with dip := false }) }; s), 
    by decide +kernel⟩,
   ⟨(0 : BitVec 12), (1 : Fin 12), (let s : State := Tests.withYard Tests.up; let s : State := { s with swctl.die := s.swctl.die.upd (0) (fun x => { x with dip := true }) }; let s : State := { s with swc := s.swc.upd ((genCh ((1 : Fin 12)))) (fun x => { x with latched := false }) }; let s : State := { s with swc := s.swc.upd ((genCh ((1 : Fin 12)))) (fun x => { x with wait := false }) }; let s : State := { s with swc := s.swc.upd ((genCh ((1 : Fin 12)))) (fun x => { x with pulse := false }) }; let s : State := { s with swc := s.swc.upd 1 (fun zz => { zz with cmd := .on }) }; s), 
    by decide +kernel,
    by decide +kernel,
    by decide +kernel,
    by decide +kernel,
    by decide +kernel,
    by decide +kernel⟩,
   ⟨(0 : BitVec 12), (1 : Fin 12), (let s : State := Tests.withYard Tests.up; let s : State := { s with swctl.die := s.swctl.die.upd (0) (fun x => { x with dip := true }) }; let s : State := { s with swctl.die := s.swctl.die.upd (0) (fun x => { x with inLimit := BitVec.allOnes _ }) }; let s : State := { s with swc := s.swc.upd ((genCh ((1 : Fin 12)))) (fun x => { x with latched := false }) }; let s : State := { s with swc := s.swc.upd ((genCh ((1 : Fin 12)))) (fun x => { x with wait := false }) }; let s : State := { s with swc := s.swc.upd 1 (fun zz => { zz with cmd := .on, cfg := { zz.cfg with retryMax := 0 } }) }; s), 
    by decide +kernel,
    by decide +kernel,
    by decide +kernel,
    by decide +kernel,
    by decide +kernel,
    by decide +kernel⟩,
   ⟨(0 : Nat), (let s : State := Tests.up; let s : State := { s with swctl.snsExt := false }; s), 
    by decide +kernel⟩,
   ⟨(0 : Nat), (let s : State := Tests.withYard Tests.up; let s : State := { s with swctl.snsExt := true }; let s : State := { s with swctl := { s.swctl with pins := [13, 13] } }; s), 
    by decide +kernel,
    by decide +kernel,
    by decide +kernel⟩,
   ⟨(0 : BitVec 4), (let s : State := Tests.up; let s : State := { s with swctl.snsExt := true }; s), 
    by decide +kernel⟩,
   ⟨(0 : BitVec 4), (let s : State := Tests.up; let s : State := { s with swctl.snsExt := false }; s), 
    by decide +kernel⟩⟩

/-- Witnesses of the hypotheses of `WeighbridgeTariffsSlotsAndStatements`. -/
theorem witness_WeighbridgeTariffsSlotsAndStatements :
    (∃ (c : Cmd) (f : Flight) (bin : Fin 8) (s : State), (Executing s c f) ∧ (opByte c 0 = bin.val) ∧ (1 ≤ opByte c 1) ∧ (opByte c 1 ≤ 15) ∧ (∀ i : Fin 4, (opByte c 1).testBit i.val = true → s.usedStr i = true) ∧ (s.wb.loggedAt = none) ∧ (s.wb.tariff = [])) ∧
    (∃ (c : Cmd) (f : Flight) (bin : Fin 8) (i : Fin 4) (last : Nat) (s : State), (Executing s c f) ∧ (opByte c 0 = bin.val) ∧ (opByte c 1 ≤ 15) ∧ ((opByte c 1).testBit i.val = true) ∧ (∀ j : Fin 4, (opByte c 1).testBit j.val = true → s.usedStr j = true) ∧ ((s.wb.str.at i).bin ≠ bin) ∧ (s.wb.loggedAt = some last) ∧ (s.now < last + ticksPerS)) ∧
    (∃ (c : Cmd) (f : Flight) (s : State), (Executing s c f) ∧ (8 ≤ opByte c 0 ∨ opByte c 1 = 0 ∨ 16 ≤ opByte c 1)) ∧
    (∃ (str : Fin 4) (s : State), (s.isl.mem = true)) ∧
    (∃ (str : Fin 4) (s : State), (s.isl.mem = false)) ∧
    (∃ (s : State), (s.isl.mem = true)) ∧
    (∃ (str : Fin 4) (x : Int) (s : State), (s.pwr.st ≠ .stabled) ∧ (s.hottest str = some x)) ∧
    (∃ (str : Fin 4) (s : State), (s.pwr.st = .stabled ∨ s.hottest str = none)) ∧
    (∃ (c : Cmd) (f : Flight) (s : State), (Executing s c f) ∧ (opField c 0 8 % 16 = 0) ∧ (800 ≤ opField c 8 4)) ∧
    (∃ (c : Cmd) (f : Flight) (s : State), (Executing s c f) ∧ (opField c 0 8 % 16 = 0) ∧ (opField c 8 4 < 800)) ∧
    (∃ (c : Cmd) (f : Flight) (s : State), (Executing s c f) ∧ (opField c 0 8 % 16 ≠ 0)) ∧
    (∃ (x : Stmt) (f : Flight) (s : State), (s.wb.stmts = [x]) ∧ (x.stage = .flushing) ∧ (Executing s x.cmd f) ∧ (∀ w ∈ s.mem.queue.all, w.addr ∉ x.addrs)) ∧
    (∃ (x : Stmt) (w : Codeword) (s : State), (s.wb.stmts = [x]) ∧ (w ∈ s.mem.queue.all) ∧ (w.addr ∈ x.addrs)) :=
  ⟨⟨Tests.cmd (3 + 2 * 2 ^ 8), Tests.flight (3 + 2 * 2 ^ 8), (3 : Fin 8), (let s : State := Tests.work (3 + 2 * 2 ^ 8); let s : State := { s with wb.loggedAt := none }; let s : State := { s with wb.tariff := [] }; s), 
    Tests.executing (by decide +kernel),
    by decide +kernel,
    by decide +kernel,
    by decide +kernel,
    by decide +kernel,
    by decide +kernel,
    by decide +kernel⟩,
   ⟨Tests.cmd (3 + 2 * 2 ^ 8), Tests.flight (3 + 2 * 2 ^ 8), (3 : Fin 8), (1 : Fin 4), (2304000000000 : Nat), (let s : State := Tests.work (3 + 2 * 2 ^ 8); let s : State := { s with wb.loggedAt := some ((2304000000000 : Nat)) }; s), 
    Tests.executing (by decide +kernel),
    by decide +kernel,
    by decide +kernel,
    by decide +kernel,
    by decide +kernel,
    by decide +kernel,
    by decide +kernel,
    by decide +kernel⟩,
   ⟨Tests.cmd ((8)), Tests.flight ((8)), (Tests.live ((8))), 
    Tests.executing (by decide +kernel),
    by decide +kernel⟩,
   ⟨(1 : Fin 4), (let s : State := Tests.up; let s : State := { s with isl.mem := true }; s), 
    by decide +kernel⟩,
   ⟨(1 : Fin 4), (let s : State := Tests.up; let s : State := { s with isl.mem := false }; s), 
    by decide +kernel⟩,
   ⟨(let s : State := Tests.up; let s : State := { s with isl.mem := true }; s), 
    by decide +kernel⟩,
   ⟨(1 : Fin 4), (3000000 : Int), (let s : State := Tests.withYard Tests.up; let s : State := { s with uswp := s.uswp.upd 1 (fun zz => { zz with alHist := [(0, (List.range 24).map (fun qq => (BitVec.ofNat 8 qq, { val := 3000000, st := .valid })))], averaged := { missing := false, nslot := 24, slots := List.replicate 24 { val := 3000000, st := .valid } }, codes := (List.range 24).map (BitVec.ofNat 8), cfgList := (List.range 24).map (BitVec.ofNat 8) }) }; s), 
    by decide +kernel,
    by decide +kernel⟩,
   ⟨(1 : Fin 4), (let s : State := Tests.up; let s : State := { s with pwr.st := .stabled }; s), 
    by decide +kernel⟩,
   ⟨Tests.cmd ((0) + (800) * 2 ^ 64), Tests.flight ((0) + (800) * 2 ^ 64), (Tests.live ((0) + (800) * 2 ^ 64)), 
    Tests.executing (by decide +kernel),
    by decide +kernel,
    by decide +kernel⟩,
   ⟨Tests.cmd ((0) + ((800 - 1)) * 2 ^ 64), Tests.flight ((0) + ((800 - 1)) * 2 ^ 64), (Tests.live ((0) + ((800 - 1)) * 2 ^ 64)), 
    Tests.executing (by decide +kernel),
    by decide +kernel,
    by decide +kernel⟩,
   ⟨Tests.cmd ((1)), Tests.flight ((1)), (Tests.live ((1))), 
    Tests.executing (by decide +kernel),
    by decide +kernel⟩,
   ⟨({ ({ cmd := Tests.cmd 0, health := false, stage := .flushing, edge := 0, oph := 0, ytime := 0, bins := [], flags := 0, bytes := [], addrs := [] } : Stmt) with stage := .flushing } : Stmt), Tests.flight (0), (let s : State := Tests.live (0); let s : State := { s with wb.stmts := [(({ ({ cmd := Tests.cmd 0, health := false, stage := .flushing, edge := 0, oph := 0, ytime := 0, bins := [], flags := 0, bytes := [], addrs := [] } : Stmt) with stage := .flushing } : Stmt))] }; s), 
    by decide +kernel,
    by decide +kernel,
    Tests.executing (by decide +kernel),
    by decide +kernel⟩,
   ⟨(({ cmd := Tests.cmd 0, health := false, stage := .flushing, edge := 0, oph := 0, ytime := 0, bins := [], flags := 0, bytes := [], addrs := [0x600000] } : Stmt) : Stmt), (({ addr := 0x600000, bytes := List.replicate 16 0, at_ := 0 } : Codeword) : Codeword), (let s : State := Tests.withYard Tests.up; let s : State := { s with wb.stmts := [((({ cmd := Tests.cmd 0, health := false, stage := .flushing, edge := 0, oph := 0, ytime := 0, bins := [], flags := 0, bytes := [], addrs := [0x600000] } : Stmt) : Stmt))] }; let s : State := { s with mem := { s.mem with queue := { s.mem.queue with cal := [({ addr := 0x600000, bytes := List.replicate 16 0, at_ := 0 } : Codeword)] } } }; s), 
    by decide +kernel,
    by decide +kernel,
    by decide +kernel⟩⟩

/-- Witnesses of the hypotheses of `YardGrantsAndWriteSlots`. -/
theorem witness_YardGrantsAndWriteSlots :
    (∃ (target : Fin 12) (arriving : BitVec 25) (s : State), ((s.yard.arb.at target).round % 8 = 0)) ∧
    (∃ (target : Fin 12) (arriving : BitVec 25) (i : Fin 25) (s : State), ((s.yard.arb.at target).round % 8 ≠ 0) ∧ (((s.yard.arb.at target).arrive (fun i => arriving.getLsbD i.val && s.requester i)).oldestAged s.ageLimit = [i])) ∧
    (∃ (target : Fin 12) (arriving : BitVec 25) (s : State), ((s.yard.arb.at target).round % 8 ≠ 0) ∧ (((s.yard.arb.at target).arrive (fun i => arriving.getLsbD i.val && s.requester i)).oldestAged s.ageLimit = []) ∧ (((s.yard.arb.at target).arrive (fun i => arriving.getLsbD i.val && s.requester i)).waiting (s.yard.arb.at target).ptr = true) ∧ (1 ≤ (s.yard.arb.at target).credit.at (s.yard.arb.at target).ptr)) ∧
    (∃ (w : Codeword) (rest : List Codeword) (s : State), (s.isl.mem = true) ∧ (s.mem.queue.lane (wheelOwner s.mem.queue.slot) = w :: rest)) ∧
    (∃ (w : Codeword) (rest : List Codeword) (s : State), (s.isl.mem = true) ∧ (s.mem.queue.slot = 0) ∧ (s.mem.queue.wb = w :: rest) ∧ (rest.length < 512)) ∧
    (∃ (s : State) (ok : Bool), (s.isl.mem = true) ∧ (s.mem.queue.all = [])) ∧
    (∃ (ok : Bool) (s : State), (s.isl.mem = false)) :=
  ⟨⟨(1 : Fin 12), (0 : BitVec 25), (Tests.up), 
    by decide +kernel⟩,
   ⟨(1 : Fin 12), (0 : BitVec 25), (3 : Fin 25), (let s : State := Tests.withYard Tests.up; let s : State := { s with yard := { s.yard with arb := Bank.fill 12 { round := 1, reqs := [⟨3, 50⟩] } } }; s), 
    by decide +kernel,
    by decide +kernel⟩,
   ⟨(1 : Fin 12), (0 : BitVec 25), (let s : State := Tests.withYard Tests.up; let s : State := { s with yard := { s.yard with arb := Bank.fill 12 { round := 1, reqs := [⟨3, 0⟩], ptr := 3, credit := Bank.fill 25 1 } } }; s), 
    by decide +kernel,
    by decide +kernel,
    by decide +kernel,
    by decide +kernel⟩,
   ⟨(({ addr := 0x600000, bytes := List.replicate 16 0, at_ := 0 } : Codeword) : Codeword), ([] : List Codeword), (let s : State := Tests.withYard Tests.up; let s : State := { s with mem := { s.mem with queue := { s.mem.queue with cal := [({ addr := 0x600000, bytes := List.replicate 16 0, at_ := 0 } : Codeword)], sb := [({ addr := 0x600000, bytes := List.replicate 16 0, at_ := 0 } : Codeword)], wb := [({ addr := 0x600000, bytes := List.replicate 16 0, at_ := 0 } : Codeword)], cr := [({ addr := 0x600000, bytes := List.replicate 16 0, at_ := 0 } : Codeword)] } } }; s), 
    by decide +kernel,
    by decide +kernel⟩,
   ⟨({ addr := 0x600000, bytes := List.replicate 16 0, at_ := 0 } : Codeword), ([] : List Codeword), (let s : State := Tests.up; let s : State := { s with isl.mem := true }; let s : State := { s with mem.queue.slot := 0 }; let s : State := { s with mem.queue.wb := (({ addr := 0x600000, bytes := List.replicate 16 0, at_ := 0 } : Codeword)) :: (([] : List Codeword)) }; s), 
    by decide +kernel,
    by decide +kernel,
    by decide +kernel,
    by decide +kernel⟩,
   ⟨(let s : State := Tests.withYard Tests.up; let s : State := { s with isl.mem := true }; s), (true : Bool), 
    by decide +kernel,
    by decide +kernel⟩,
   ⟨(true : Bool), (let s : State := Tests.up; let s : State := { s with isl.mem := false }; s), 
    by decide +kernel⟩⟩

/-- Witnesses of the hypotheses of `LiveRunsGenerationsAndDrift`. -/
theorem witness_LiveRunsGenerationsAndDrift :
    (∃ (u : Fin 128) (r : LiveRun) (f : Nat) (s : State), ((s.ucal.at u).run = some r) ∧ (r.routeAt = some f)) ∧
    (∃ (u : Fin 128) (s : State), ((s.ucal.at u).run = none)) ∧
    (∃ (u : Fin 128) (r : LiveRun) (s : State), ((s.ucal.at u).run = some r) ∧ (r.skip = 0) ∧ (r.a.n + r.a.lost = r.len) ∧ (r.ch ≠ 0x12)) ∧
    (∃ (u : Fin 128) (r : LiveRun) (s : State), ((s.ucal.at u).run = some r) ∧ (r.skip ≠ 0 ∨ r.a.n + r.a.lost ≠ r.len)) ∧
    (∃ (u : Fin 128) (r : LiveRun) (e : List Byte) (s : State), ((s.ucal.at u).run = some r) ∧ (r.skip = 0) ∧ (r.a.n + r.a.lost = r.len) ∧ (r.ch = 0x12) ∧ ((s.ucal.at u).newest = some e) ∧ (s.recentUnit u = false) ∧ (runOutcome r.len (r.done ++ [(r.a, r.b)]) ((r.done ++ [(r.a, r.b)]).zipIdx.map (fun p => runChannel e p.2 p.1 ((r.tempSum : Rat) / ((r.tempN : Nat) : Rat)))) = 1)) ∧
    (∃ (u : Fin 128) (r : LiveRun) (e : List Byte) (c : Cmd) (f : Flight) (s : State), ((s.ucal.at u).run = some r) ∧ (r.skip = 0) ∧ (r.a.n + r.a.lost = r.len) ∧ (r.ch = 0x12) ∧ ((s.ucal.at u).newest = some e) ∧ (r.cmds = [c]) ∧ ((s.ucal.at u).deferred = none) ∧ (Executing s c f) ∧ (runOutcome r.len (r.done ++ [(r.a, r.b)]) ((r.done ++ [(r.a, r.b)]).zipIdx.map (fun p => runChannel e p.2 p.1 ((r.tempSum : Rat) / ((r.tempN : Nat) : Rat)))) ≠ 1)) ∧
    (∃ (u : Fin 128) (p : PendEntry) (rest : List PendEntry) (c : Cmd) (f : Flight) (s : State), ((s.ucal.at u).switchQ = p :: rest) ∧ (∀ w ∈ s.mem.queue.cal, w.addr < p.base ∨ p.base + 1024 ≤ w.addr) ∧ ((s.ucal.at u).entry.isSome = true) ∧ (p.write = true) ∧ (p.cmds = [c]) ∧ (Executing s c f)) ∧
    (∃ (u : Fin 128) (p : PendEntry) (rest : List PendEntry) (w : Codeword) (s : State), ((s.ucal.at u).switchQ = p :: rest) ∧ (w ∈ s.mem.queue.cal) ∧ (p.base ≤ w.addr) ∧ (w.addr < p.base + 1024)) ∧
    (∃ (u : Fin 128) (e : List Byte) (tu : Rat) (ea : Rat) (eb : Rat) (s : State), ((s.ucal.at u).entry = some e) ∧ (s.swept u = true) ∧ (s.isMc16 u = true) ∧ (1 ≤ (s.ucal.at u).cntA) ∧ (1 ≤ (s.ucal.at u).cntB) ∧ ((s.ucal.at u).cntAll ≤ 2 * (s.ucal.at u).cntA) ∧ ((s.ucal.at u).cntAll ≤ 2 * (s.ucal.at u).cntB) ∧ (tu = (s.tempOf u : Rat)) ∧ (ea = ((s.ucal.at u).secA : Rat) / (((s.ucal.at u).cntA : Nat) : Rat) - vRef e 0x104 tu) ∧ (eb = ((s.ucal.at u).secB : Rat) / (((s.ucal.at u).cntB : Nat) : Rat) - vRef e 0x108 tu) ∧ ((s.cal.driftUv : Rat) < ratAbs ea ∨ (s.cal.driftUv : Rat) < ratAbs eb) ∧ ((s.ucal.at u).driftRun = 2) ∧ ((s.ucal.at u).drift = false) ∧ (s.cal.driftAuto = false)) ∧
    (∃ (u : Fin 128) (e : List Byte) (tu : Rat) (ea : Rat) (eb : Rat) (s : State), ((s.ucal.at u).entry = some e) ∧ (s.swept u = true) ∧ (s.isMc16 u = true) ∧ (1 ≤ (s.ucal.at u).cntA) ∧ (1 ≤ (s.ucal.at u).cntB) ∧ ((s.ucal.at u).cntAll ≤ 2 * (s.ucal.at u).cntA) ∧ ((s.ucal.at u).cntAll ≤ 2 * (s.ucal.at u).cntB) ∧ (tu = (s.tempOf u : Rat)) ∧ (ea = ((s.ucal.at u).secA : Rat) / (((s.ucal.at u).cntA : Nat) : Rat) - vRef e 0x104 tu) ∧ (eb = ((s.ucal.at u).secB : Rat) / (((s.ucal.at u).cntB : Nat) : Rat) - vRef e 0x108 tu) ∧ ((s.cal.driftUv : Rat) < ratAbs ea ∨ (s.cal.driftUv : Rat) < ratAbs eb) ∧ ((s.ucal.at u).driftRun < 2) ∧ ((s.ucal.at u).drift = false)) ∧
    (∃ (u : Fin 128) (e : List Byte) (tu : Rat) (ea : Rat) (eb : Rat) (s : State), ((s.ucal.at u).entry = some e) ∧ (s.swept u = true) ∧ (s.isMc16 u = true) ∧ (1 ≤ (s.ucal.at u).cntA) ∧ (1 ≤ (s.ucal.at u).cntB) ∧ ((s.ucal.at u).cntAll ≤ 2 * (s.ucal.at u).cntA) ∧ ((s.ucal.at u).cntAll ≤ 2 * (s.ucal.at u).cntB) ∧ (tu = (s.tempOf u : Rat)) ∧ (ea = ((s.ucal.at u).secA : Rat) / (((s.ucal.at u).cntA : Nat) : Rat) - vRef e 0x104 tu) ∧ (eb = ((s.ucal.at u).secB : Rat) / (((s.ucal.at u).cntB : Nat) : Rat) - vRef e 0x108 tu) ∧ (ratAbs ea ≤ 3 / 4 * (s.cal.driftUv : Rat)) ∧ (ratAbs eb ≤ 3 / 4 * (s.cal.driftUv : Rat)) ∧ ((s.ucal.at u).drift = true)) ∧
    (∃ (u : Fin 128) (s : State), (2 * (s.ucal.at u).cntA < (s.ucal.at u).cntAll ∨ 2 * (s.ucal.at u).cntB < (s.ucal.at u).cntAll)) ∧
    (∃ (u : Fin 128) (s : State), ((s.ucal.at u).runDue = true) ∧ (s.runEarly u = false) ∧ (s.runHolds u = false) ∧ (s.swept u = true) ∧ ((s.uint.at u).test = none)) ∧
    (∃ (u : Fin 128) (s : State), ((s.ucal.at u).runDue = false ∨ s.runEarly u = true)) ∧
    (∃ (u : Fin 128) (p : PendEntry) (s : State), ((s.ucal.at u).deferred = some p) ∧ (s.recentUnit u = false)) ∧
    (∃ (u : Fin 128) (s : State), (s.recentUnit u = true)) :=
  ⟨⟨(1 : Fin 128), ({ ({ ch := 0, skip := 0, len := 0, a := {}, b := {}, done := [], tempSum := 0, tempN := 0, cmds := [], routeAt := none } : LiveRun) with routeAt := some ((0 : Nat)) } : LiveRun), (0 : Nat), (let s : State := Tests.up; let s : State := { s with ucal := s.ucal.upd (((1 : Fin 128))) (fun x => { x with run := some (({ ({ ch := 0, skip := 0, len := 0, a := {}, b := {}, done := [], tempSum := 0, tempN := 0, cmds := [], routeAt := none } : LiveRun) with routeAt := some ((0 : Nat)) } : LiveRun)) }) }; s), 
    by decide +kernel,
    by decide +kernel⟩,
   ⟨(1 : Fin 128), (let s : State := Tests.up; let s : State := { s with ucal := s.ucal.upd (((1 : Fin 128))) (fun x => { x with run := none }) }; s), 
    by decide +kernel⟩,
   ⟨(1 : Fin 128), ({ ({ ch := 0, skip := 0, len := 0, a := {}, b := {}, done := [], tempSum := 0, tempN := 0, cmds := [], routeAt := none } : LiveRun) with skip := 0 } : LiveRun), (let s : State := Tests.up; let s : State := { s with ucal := s.ucal.upd (((1 : Fin 128))) (fun x => { x with run := some (({ ({ ch := 0, skip := 0, len := 0, a := {}, b := {}, done := [], tempSum := 0, tempN := 0, cmds := [], routeAt := none } : LiveRun) with skip := 0 } : LiveRun)) }) }; s), 
    by decide +kernel,
    by decide +kernel,
    by decide +kernel,
    by decide +kernel⟩,
   ⟨(1 : Fin 128), (({ ch := 0x12, skip := 0, len := 65, a := { n := 64, sum := 64, sq := 64 }, b := { n := 64, sum := 128, sq := 256 }, done := [], tempSum := 25000, tempN := 1, cmds := [], routeAt := none } : LiveRun) : LiveRun), (let s : State := Tests.withYard Tests.up; let s : State := { s with ucal := s.ucal.upd (((1 : Fin 128))) (fun x => { x with run := some ((({ ch := 0x12, skip := 0, len := 65, a := { n := 64, sum := 64, sq := 64 }, b := { n := 64, sum := 128, sq := 256 }, done := [], tempSum := 25000, tempN := 1, cmds := [], routeAt := none } : LiveRun) : LiveRun)) }) }; s), 
    by decide +kernel,
    by decide +kernel⟩,
   ⟨(1 : Fin 128), (({ ch := 0x12, skip := 0, len := 64, a := { n := 64, sum := 64, sq := 64 }, b := { n := 64, sum := 128, sq := 256 }, done := [], tempSum := 25000, tempN := 1, cmds := [], routeAt := none } : LiveRun) : LiveRun), (Tests.entry : List Byte), (let s : State := Tests.withYard Tests.up; let s : State := { s with ucal := s.ucal.upd (((1 : Fin 128))) (fun x => { x with run := some ((({ ch := 0x12, skip := 0, len := 64, a := { n := 64, sum := 64, sq := 64 }, b := { n := 64, sum := 128, sq := 256 }, done := [], tempSum := 25000, tempN := 1, cmds := [], routeAt := none } : LiveRun) : LiveRun)) }) }; let s : State := { s with ucal := s.ucal.upd 1 (fun zz => { zz with entry := some Tests.entry }) }; let s : State := { s with ucal := s.ucal.upd 1 (fun zz => { zz with writtenAt := none }) }; s), 
    by decide +kernel,
    by decide +kernel,
    by decide +kernel,
    by decide +kernel,
    by decide +kernel,
    by decide +kernel,
    by decide +kernel⟩,
   ⟨(1 : Fin 128), (({ ch := 0x12, skip := 0, len := 64, a := { n := 64, sum := 64, sq := 64 }, b := { n := 64, sum := 128, sq := 256 }, done := [], tempSum := 25000, tempN := 1, cmds := [Tests.cmd 0], routeAt := none } : LiveRun) : LiveRun), ([] : List Byte), Tests.cmd (0), Tests.flight (0), (let s : State := Tests.work 0; let s : State := { s with ucal := s.ucal.upd (((1 : Fin 128))) (fun x => { x with run := some ((({ ch := 0x12, skip := 0, len := 64, a := { n := 64, sum := 64, sq := 64 }, b := { n := 64, sum := 128, sq := 256 }, done := [], tempSum := 25000, tempN := 1, cmds := [Tests.cmd 0], routeAt := none } : LiveRun) : LiveRun)) }) }; let s : State := { s with ucal := s.ucal.upd (((1 : Fin 128))) (fun x => { x with deferred := none }) }; let s : State := { s with ucal := s.ucal.upd 1 (fun zz => { zz with entry := some [] }) }; s), 
    by decide +kernel,
    by decide +kernel,
    by decide +kernel,
    by decide +kernel,
    by decide +kernel,
    by decide +kernel,
    by decide +kernel,
    Tests.executing (by decide +kernel),
    by decide +kernel⟩,
   ⟨(1 : Fin 128), (({ entry := [], base := 0x600000, cmds := [Tests.cmd 0], result := 1, write := true } : PendEntry) : PendEntry), ([] : List PendEntry), Tests.cmd (0), Tests.flight (0), (let s : State := Tests.work (0); let s : State := { s with ucal := s.ucal.upd (((1 : Fin 128))) (fun x => { x with switchQ := ((({ entry := [], base := 0x600000, cmds := [Tests.cmd 0], result := 1, write := true } : PendEntry) : PendEntry)) :: (([] : List PendEntry)) }) }; let s : State := { s with ucal := s.ucal.upd 1 (fun zz => { zz with entry := some [] }) }; s), 
    by decide +kernel,
    by decide +kernel,
    by decide +kernel,
    by decide +kernel,
    by decide +kernel,
    Tests.executing (by decide +kernel)⟩,
   ⟨(1 : Fin 128), (({ entry := [], base := 0x600000, cmds := [], result := 1, write := true } : PendEntry) : PendEntry), ([] : List PendEntry), (({ addr := 0x600000, bytes := List.replicate 16 0, at_ := 0 } : Codeword) : Codeword), (let s : State := Tests.withYard Tests.up; let s : State := { s with ucal := s.ucal.upd (((1 : Fin 128))) (fun x => { x with switchQ := ((({ entry := [], base := 0x600000, cmds := [], result := 1, write := true } : PendEntry) : PendEntry)) :: (([] : List PendEntry)) }) }; let s : State := { s with mem := { s.mem with queue := { s.mem.queue with cal := [({ addr := 0x600000, bytes := List.replicate 16 0, at_ := 0 } : Codeword)] } } }; s), 
    by decide +kernel,
    by decide +kernel,
    by decide +kernel,
    by decide +kernel⟩,
   ⟨(1 : Fin 128), ([] : List Byte), (25000 : Rat), (1000000 : Rat), (1000000 : Rat), (let s : State := Tests.withYard Tests.up; let s : State := { s with ucal := s.ucal.upd (((1 : Fin 128))) (fun x => { x with entry := some (([] : List Byte)) }) }; let s : State := { s with ucal := s.ucal.upd (((1 : Fin 128))) (fun x => { x with cntA := 1 }) }; let s : State := { s with ucal := s.ucal.upd (((1 : Fin 128))) (fun x => { x with cntB := 1 }) }; let s : State := { s with ucal := s.ucal.upd (((1 : Fin 128))) (fun x => { x with driftRun := 2 }) }; let s : State := { s with ucal := s.ucal.upd (((1 : Fin 128))) (fun x => { x with drift := false }) }; let s : State := { s with cal.driftAuto := false }; let s : State := { s with ucal := s.ucal.upd 1 (fun zz => { zz with entry := some [], cntA := 1, cntB := 1, cntAll := 2, secA := 1000000, secB := 1000000 }) }; s), 
    by decide +kernel,
    by decide +kernel,
    by decide +kernel,
    by decide +kernel,
    by decide +kernel,
    by decide +kernel,
    by decide +kernel,
    by decide +kernel,
    by decide +kernel,
    by decide +kernel,
    by decide +kernel,
    by decide +kernel,
    by decide +kernel,
    by decide +kernel⟩,
   ⟨(1 : Fin 128), ([] : List Byte), (25000 : Rat), (1000000 : Rat), (1000000 : Rat), (let s : State := Tests.withYard Tests.up; let s : State := { s with ucal := s.ucal.upd (((1 : Fin 128))) (fun x => { x with entry := some (([] : List Byte)) }) }; let s : State := { s with ucal := s.ucal.upd (((1 : Fin 128))) (fun x => { x with cntA := 1 }) }; let s : State := { s with ucal := s.ucal.upd (((1 : Fin 128))) (fun x => { x with cntB := 1 }) }; let s : State := { s with ucal := s.ucal.upd (((1 : Fin 128))) (fun x => { x with drift := false }) }; let s : State := { s with ucal := s.ucal.upd 1 (fun zz => { zz with entry := some [], cntA := 1, cntB := 1, cntAll := 2, secA := 1000000, secB := 1000000 }) }; s), 
    by decide +kernel,
    by decide +kernel,
    by decide +kernel,
    by decide +kernel,
    by decide +kernel,
    by decide +kernel,
    by decide +kernel,
    by decide +kernel,
    by decide +kernel,
    by decide +kernel,
    by decide +kernel,
    by decide +kernel,
    by decide +kernel⟩,
   ⟨(1 : Fin 128), ([] : List Byte), (25000 : Rat), (0 : Rat), (0 : Rat), (let s : State := Tests.withYard Tests.up; let s : State := { s with ucal := s.ucal.upd (((1 : Fin 128))) (fun x => { x with entry := some (([] : List Byte)) }) }; let s : State := { s with ucal := s.ucal.upd (((1 : Fin 128))) (fun x => { x with cntA := 1 }) }; let s : State := { s with ucal := s.ucal.upd (((1 : Fin 128))) (fun x => { x with cntB := 1 }) }; let s : State := { s with ucal := s.ucal.upd (((1 : Fin 128))) (fun x => { x with drift := true }) }; let s : State := { s with ucal := s.ucal.upd 1 (fun zz => { zz with entry := some [], cntA := 1, cntB := 1, cntAll := 2, secA := 0, secB := 0 }) }; s), 
    by decide +kernel,
    by decide +kernel,
    by decide +kernel,
    by decide +kernel,
    by decide +kernel,
    by decide +kernel,
    by decide +kernel,
    by decide +kernel,
    by decide +kernel,
    by decide +kernel,
    by decide +kernel,
    by decide +kernel,
    by decide +kernel⟩,
   ⟨(1 : Fin 128), (let s : State := Tests.withYard Tests.up; let s : State := { s with ucal := s.ucal.upd 1 (fun zz => { zz with cntA := 1, cntB := 1, cntAll := 3 }) }; s), 
    by decide +kernel⟩,
   ⟨(1 : Fin 128), (let s : State := Tests.withYard Tests.up; let s : State := { s with ucal := s.ucal.upd (((1 : Fin 128))) (fun x => { x with runDue := true }) }; let s : State := { s with uint := s.uint.upd (((1 : Fin 128))) (fun x => { x with test := none }) }; s), 
    by decide +kernel,
    by decide +kernel,
    by decide +kernel,
    by decide +kernel,
    by decide +kernel⟩,
   ⟨(1 : Fin 128), (let s : State := Tests.up; let s : State := { s with ucal := s.ucal.upd (((1 : Fin 128))) (fun x => { x with runDue := false }) }; s), 
    by decide +kernel⟩,
   ⟨(1 : Fin 128), ({ entry := [], base := 0, cmds := [], result := 0, write := false } : PendEntry), (let s : State := Tests.up; let s : State := { s with ucal := s.ucal.upd (((1 : Fin 128))) (fun x => { x with deferred := some (({ entry := [], base := 0, cmds := [], result := 0, write := false } : PendEntry)) }) }; s), 
    by decide +kernel,
    by decide +kernel⟩,
   ⟨(1 : Fin 128), (let s : State := Tests.withYard Tests.up; let s : State := { s with ucal := s.ucal.upd 1 (fun zz => { zz with writtenAt := some 2304000000000 }) }; s), 
    by decide +kernel⟩⟩

/-- Witnesses of the hypotheses of `ShuntRunsEnd`. -/
theorem witness_ShuntRunsEnd :
    (∃ (str : Fin 4) (u : Fin 128) (s : State), (s.cal.shuntAuto = true) ∧ (s.usedStr str = true) ∧ (s.strSt str = .opened) ∧ ((s.strcal.at str).run = none) ∧ ((s.strcal.at str).deferred = none) ∧ (s.mp4Of str = some u) ∧ ((s.strcal.at str).autoAt = none) ∧ ((s.strcal.at str).openedAt + 2 * ticksPerS ≤ s.now)) ∧
    (∃ (str : Fin 4) (s : State), (s.cal.shuntAuto = false ∨ s.strSt str ≠ .opened)) ∧
    (∃ (str : Fin 4) (u : Fin 128) (r : ShuntRun) (e : List Byte) (s : State), ((s.strcal.at str).run = some r) ∧ (s.mp4Of str = some u) ∧ (r.gain = false) ∧ (r.since + r.len + (unitOf u).val + 1 ≤ s.frame) ∧ ((s.ucal.at u).newest = some e) ∧ (offsetOutcome e (s.tempOf u) r = 1) ∧ (s.recentUnit u = false)) ∧
    (∃ (str : Fin 4) (u : Fin 128) (r : ShuntRun) (e : List Byte) (c : Cmd) (f : Flight) (s : State), ((s.strcal.at str).run = some r) ∧ (s.mp4Of str = some u) ∧ (r.gain = false) ∧ (r.since + r.len + (unitOf u).val + 1 ≤ s.frame) ∧ ((s.ucal.at u).newest = some e) ∧ (offsetOutcome e (s.tempOf u) r ≠ 1) ∧ (r.cmd = some c) ∧ (Executing s c f)) ∧
    (∃ (str : Fin 4) (u : Fin 128) (r : ShuntRun) (e : List Byte) (a : Rat) (b : Rat) (s : State), ((s.strcal.at str).run = some r) ∧ (s.mp4Of str = some u) ∧ (r.gain = true) ∧ (r.since + r.len + (unitOf u).val + 1 ≤ s.frame) ∧ ((s.ucal.at u).newest = some e) ∧ (gainFactor e (s.tempOf u) 0 r.iRef r.main = some a) ∧ (gainFactor e (s.tempOf u) 1 r.iRef r.check = some b) ∧ (s.recentUnit u = false)) ∧
    (∃ (str : Fin 4) (u : Fin 128) (r : ShuntRun) (e : List Byte) (c : Cmd) (f : Flight) (s : State), ((s.strcal.at str).run = some r) ∧ (s.mp4Of str = some u) ∧ (r.gain = true) ∧ (r.since + r.len + (unitOf u).val + 1 ≤ s.frame) ∧ ((s.ucal.at u).newest = some e) ∧ (gainFactor e (s.tempOf u) 0 r.iRef r.main = none ∨ gainFactor e (s.tempOf u) 1 r.iRef r.check = none) ∧ (r.cmd = some c) ∧ (Executing s c f)) :=
  ⟨⟨(1 : Fin 4), (3 : Fin 128), (let s : State := Tests.withYard Tests.up; let s : State := { s with cal.shuntAuto := true }; let s : State := { s with strs := s.strs.upd (((1 : Fin 4))) (fun x => { x with st := .opened }) }; let s : State := { s with strcal := s.strcal.upd (((1 : Fin 4))) (fun x => { x with run := none }) }; let s : State := { s with strcal := s.strcal.upd (((1 : Fin 4))) (fun x => { x with deferred := none }) }; let s : State := { s with strcal := s.strcal.upd (((1 : Fin 4))) (fun x => { x with autoAt := none }) }; s), 
    by decide +kernel,
    by decide +kernel,
    by decide +kernel,
    by decide +kernel,
    by decide +kernel,
    by decide +kernel,
    by decide +kernel,
    by decide +kernel⟩,
   ⟨(1 : Fin 4), (let s : State := Tests.up; let s : State := { s with cal.shuntAuto := false }; s), 
    by decide +kernel⟩,
   ⟨(1 : Fin 4), (3 : Fin 128), (({ gain := false, since := 0, len := 1024, main := { n := 1024, sum := 0, sq := 0 }, check := { n := 1024, sum := 0, sq := 0 }, iRef := 100000, cmd := none } : ShuntRun) : ShuntRun), (Tests.entry : List Byte), (let s : State := Tests.withYard Tests.up; let s : State := { s with strcal := s.strcal.upd (((1 : Fin 4))) (fun x => { x with run := some ((({ gain := false, since := 0, len := 1024, main := { n := 1024, sum := 0, sq := 0 }, check := { n := 1024, sum := 0, sq := 0 }, iRef := 100000, cmd := none } : ShuntRun) : ShuntRun)) }) }; let s : State := { s with ucal := s.ucal.upd 3 (fun zz => { zz with entry := some Tests.entry }) }; s), 
    by decide +kernel,
    by decide +kernel,
    by decide +kernel,
    by decide +kernel,
    by decide +kernel,
    by decide +kernel,
    by decide +kernel⟩,
   ⟨(1 : Fin 4), (3 : Fin 128), (({ gain := false, since := 0, len := 1024, main := { n := 1024, sum := 0, sq := 1000000000 }, check := { n := 1024, sum := 0, sq := 0 }, iRef := 0, cmd := some (Tests.cmd 0) } : ShuntRun) : ShuntRun), (Tests.entry : List Byte), Tests.cmd (0), Tests.flight (0), (let s : State := Tests.work (0); let s : State := { s with strcal := s.strcal.upd (((1 : Fin 4))) (fun x => { x with run := some ((({ gain := false, since := 0, len := 1024, main := { n := 1024, sum := 0, sq := 1000000000 }, check := { n := 1024, sum := 0, sq := 0 }, iRef := 0, cmd := some (Tests.cmd 0) } : ShuntRun) : ShuntRun)) }) }; let s : State := { s with ucal := s.ucal.upd 3 (fun zz => { zz with entry := some Tests.entry }) }; s), 
    by decide +kernel,
    by decide +kernel,
    by decide +kernel,
    by decide +kernel,
    by decide +kernel,
    by decide +kernel,
    by decide +kernel,
    Tests.executing (by decide +kernel)⟩,
   ⟨(1 : Fin 4), (3 : Fin 128), (({ gain := true, since := 0, len := 1024, main := { n := 1024, sum := 1024, sq := 1024 }, check := { n := 1024, sum := 1024, sq := 1024 }, iRef := 1, cmd := none } : ShuntRun) : ShuntRun), (Tests.entry : List Byte), (1 : Rat), (1 : Rat), (let s : State := Tests.withYard Tests.up; let s : State := { s with strcal := s.strcal.upd (((1 : Fin 4))) (fun x => { x with run := some ((({ gain := true, since := 0, len := 1024, main := { n := 1024, sum := 1024, sq := 1024 }, check := { n := 1024, sum := 1024, sq := 1024 }, iRef := 1, cmd := none } : ShuntRun) : ShuntRun)) }) }; let s : State := { s with ucal := s.ucal.upd 3 (fun zz => { zz with entry := some Tests.entry }) }; s), 
    by decide +kernel,
    by decide +kernel,
    by decide +kernel,
    by decide +kernel,
    by decide +kernel,
    by decide +kernel,
    by decide +kernel,
    by decide +kernel⟩,
   ⟨(1 : Fin 4), (3 : Fin 128), (({ gain := true, since := 0, len := 1024, main := { n := 1024, sum := 0, sq := 1000000000 }, check := { n := 1024, sum := 0, sq := 0 }, iRef := 0, cmd := some (Tests.cmd 0) } : ShuntRun) : ShuntRun), (Tests.entry : List Byte), Tests.cmd (0), Tests.flight (0), (let s : State := Tests.work (0); let s : State := { s with strcal := s.strcal.upd (((1 : Fin 4))) (fun x => { x with run := some ((({ gain := true, since := 0, len := 1024, main := { n := 1024, sum := 0, sq := 1000000000 }, check := { n := 1024, sum := 0, sq := 0 }, iRef := 0, cmd := some (Tests.cmd 0) } : ShuntRun) : ShuntRun)) }) }; let s : State := { s with ucal := s.ucal.upd 3 (fun zz => { zz with entry := some Tests.entry }) }; s), 
    by decide +kernel,
    by decide +kernel,
    by decide +kernel,
    by decide +kernel,
    by decide +kernel,
    by decide +kernel,
    by decide +kernel,
    Tests.executing (by decide +kernel)⟩⟩

/-- Witnesses of the hypotheses of `CalibrationCommands`. -/
theorem witness_CalibrationCommands :
    (∃ (c : Cmd) (f : Flight) (u : Fin 128) (s : State), (Executing s c f) ∧ (opByte c 0 = 0) ∧ (s.namedMc16 (opByte c 1) (opByte c 2) = some u) ∧ (s.outOfService u = false) ∧ (s.swept u = true) ∧ ((s.ucal.at u).run = none) ∧ ((s.ucal.at u).deferred = none) ∧ (s.recentUnit u = false) ∧ ((s.uint.at u).test = none)) ∧
    (∃ (c : Cmd) (f : Flight) (u : Fin 128) (r : LiveRun) (s : State), (Executing s c f) ∧ (opByte c 0 = 0) ∧ (s.namedMc16 (opByte c 1) (opByte c 2) = some u) ∧ (s.outOfService u = false) ∧ (s.swept u = true) ∧ ((s.ucal.at u).run = some r)) ∧
    (∃ (c : Cmd) (f : Flight) (u : Fin 128) (s : State), (Executing s c f) ∧ (opByte c 0 = 0) ∧ (s.namedMc16 (opByte c 1) (opByte c 2) = some u) ∧ (s.outOfService u = false) ∧ (s.swept u = false)) ∧
    (∃ (c : Cmd) (f : Flight) (str : Fin 4) (u : Fin 128) (s : State), (Executing s c f) ∧ (opByte c 0 = 1 ∨ opByte c 0 = 2) ∧ (opByte c 1 = str.val) ∧ (opByte c 0 = 2 → 10000 ≤ (opSigned c 4 4).natAbs ∧ 1 ≤ opByte c 8 ∧ opByte c 8 ≤ 60) ∧ (s.usedStr str = true) ∧ (s.mp4Of str = some u) ∧ (s.outOfService u = false) ∧ ((s.strcal.at str).run = none) ∧ ((s.strcal.at str).deferred = none) ∧ (s.strSt str ≠ .opened)) ∧
    (∃ (c : Cmd) (f : Flight) (str : Fin 4) (u : Fin 128) (s : State), (Executing s c f) ∧ (opByte c 0 = 1 ∨ opByte c 0 = 2) ∧ (opByte c 1 = str.val) ∧ (opByte c 0 = 2 → 10000 ≤ (opSigned c 4 4).natAbs ∧ 1 ≤ opByte c 8 ∧ opByte c 8 ≤ 60) ∧ (s.usedStr str = true) ∧ (s.mp4Of str = some u) ∧ (s.outOfService u = false) ∧ ((s.strcal.at str).run = none) ∧ ((s.strcal.at str).deferred = none) ∧ (s.strSt str = .opened) ∧ (s.recentUnit u = false)) ∧
    (∃ (c : Cmd) (f : Flight) (s : State), (Executing s c f) ∧ (opByte c 0 = 3) ∧ (200 ≤ opField c 4 2) ∧ (opField c 4 2 ≤ 5000) ∧ (16 ≤ opField c 6 2) ∧ (opField c 6 2 ≤ 1024)) ∧
    (∃ (c : Cmd) (f : Flight) (s : State), (Executing s c f) ∧ (4 ≤ opByte c 0)) ∧
    (∃ (c : Cmd) (f : Flight) (data : List Byte) (sect : List Byte) (s : State), (Executing s c f) ∧ (4 ≤ opField c 0x10 4) ∧ (opField c 0x10 4 ≤ 4096) ∧ (opField c 0x10 4 % 4 = 0) ∧ (opByte c 0 = 0) ∧ (0x10 ≤ opField c 4 4) ∧ (opField c 4 4 + opField c 0x10 4 ≤ 0x2000) ∧ (s.cal.devQ = none) ∧ (sect = splice (List.replicate 16 0 ++ s.cal.body) (opField c 4 4) (padTo (opField c 0x10 4) data)) ∧ (sectionWriteOk false false sect (opField c 4 4) (opField c 4 4 + opField c 0x10 4) = true) ∧ (s.allOpen = false)) ∧
    (∃ (c : Cmd) (f : Flight) (data : List Byte) (sect : List Byte) (s : State), (Executing s c f) ∧ (4 ≤ opField c 0x10 4) ∧ (opField c 0x10 4 ≤ 4096) ∧ (opField c 0x10 4 % 4 = 0) ∧ (opByte c 0 = 0) ∧ (0x10 ≤ opField c 4 4) ∧ (opField c 4 4 + opField c 0x10 4 ≤ 0x2000) ∧ (s.cal.devQ = none) ∧ (sect = splice (List.replicate 16 0 ++ s.cal.body) (opField c 4 4) (padTo (opField c 0x10 4) data)) ∧ (sectionWriteOk false false sect (opField c 4 4) (opField c 4 4 + opField c 0x10 4) = true) ∧ (s.allOpen = true) ∧ (s.recentDevice = true)) ∧
    (∃ (c : Cmd) (f : Flight) (data : List Byte) (sect : List Byte) (s : State), (Executing s c f) ∧ (4 ≤ opField c 0x10 4) ∧ (opField c 0x10 4 ≤ 4096) ∧ (opField c 0x10 4 % 4 = 0) ∧ (opByte c 0 = 0) ∧ (0x10 ≤ opField c 4 4) ∧ (opField c 4 4 + opField c 0x10 4 ≤ 0x2000) ∧ (s.cal.devQ = none) ∧ (sect = splice (List.replicate 16 0 ++ s.cal.body) (opField c 4 4) (padTo (opField c 0x10 4) data)) ∧ (sectionWriteOk false false sect (opField c 4 4) (opField c 4 4 + opField c 0x10 4) = true) ∧ (s.allOpen = true) ∧ (s.recentDevice = false)) ∧
    (∃ (c : Cmd) (f : Flight) (data : List Byte) (old : List Byte) (u : Fin 128) (str : Fin 4) (s : State), (Executing s c f) ∧ (4 ≤ opField c 0x10 4) ∧ (opField c 0x10 4 ≤ 4096) ∧ (opField c 0x10 4 % 4 = 0) ∧ (opByte c 0 = 1) ∧ (opField c 2 2 = u.val) ∧ (0x20 ≤ opField c 4 4) ∧ (opField c 4 4 + opField c 0x10 4 ≤ 0x400) ∧ ((s.ucal.at u).newest = some old) ∧ ((s.ucal.at u).entry.isSome = true) ∧ (sectionWriteOk true (s.isMp4 u) (splice old (opField c 4 4) (padTo (opField c 0x10 4) data)) (opField c 4 4) (opField c 4 4 + opField c 0x10 4) = true) ∧ (s.strOf u = some str) ∧ (s.strHeld str = false) ∧ ((s.strcal.at str).run = none) ∧ ((s.strcal.at str).deferred = none) ∧ (s.runHolds u = false) ∧ (s.recentUnit u = false)) ∧
    (∃ (c : Cmd) (f : Flight) (data : List Byte) (s : State), (Executing s c f) ∧ (opField c 0x10 4 < 4 ∨ 4096 < opField c 0x10 4 ∨ opField c 0x10 4 % 4 ≠ 0 ∨ 2 ≤ opByte c 0)) ∧
    (∃ (c : Cmd) (f : Flight) (u : Fin 128) (bytes : List Byte) (s : State), (Executing s c f) ∧ (opField c 2 2 = u.val) ∧ ((opByte c 0 = 0 ∧ s.cal.device.isSome = true ∧ bytes = sealDevice s.cal.body s.cal.devSeq) ∨ (opByte c 0 = 1 ∧ bytes = ((s.ucal.at u).entry).getD (List.replicate 1024 0)) ∨ (opByte c 0 = 2 ∧ bytes = leBytes 64 Config.factoryDigest.toNat ++ sha512 s.cal.body ++ s.setDigest))) ∧
    (∃ (c : Cmd) (f : Flight) (s : State), (Executing s c f) ∧ (128 ≤ opField c 2 2 ∨ 3 ≤ opByte c 0)) :=
  ⟨⟨Tests.cmd (1 * 2 ^ 16), Tests.flight (1 * 2 ^ 16), (1 : Fin 128), (let s : State := Tests.work (1 * 2 ^ 16); let s : State := { s with ucal := s.ucal.upd (((1 : Fin 128))) (fun x => { x with run := none }) }; let s : State := { s with ucal := s.ucal.upd (((1 : Fin 128))) (fun x => { x with deferred := none }) }; let s : State := { s with uint := s.uint.upd (((1 : Fin 128))) (fun x => { x with test := none }) }; s), 
    Tests.executing (by decide +kernel),
    by decide +kernel,
    by decide +kernel,
    by decide +kernel,
    by decide +kernel,
    by decide +kernel,
    by decide +kernel,
    by decide +kernel,
    by decide +kernel⟩,
   ⟨Tests.cmd (1 * 2 ^ 16), Tests.flight (1 * 2 ^ 16), (1 : Fin 128), ({ ch := 0, skip := 0, len := 0, a := {}, b := {}, done := [], tempSum := 0, tempN := 0, cmds := [], routeAt := none } : LiveRun), (let s : State := Tests.work (1 * 2 ^ 16); let s : State := { s with ucal := s.ucal.upd (((1 : Fin 128))) (fun x => { x with run := some (({ ch := 0, skip := 0, len := 0, a := {}, b := {}, done := [], tempSum := 0, tempN := 0, cmds := [], routeAt := none } : LiveRun)) }) }; s), 
    Tests.executing (by decide +kernel),
    by decide +kernel,
    by decide +kernel,
    by decide +kernel,
    by decide +kernel,
    by decide +kernel⟩,
   ⟨Tests.cmd (1 * 2 ^ 16), Tests.flight (1 * 2 ^ 16), (1 : Fin 128), (let s : State := Tests.work (1 * 2 ^ 16); let s : State := { s with ulink := s.ulink.upd 1 (fun zz => { zz with sweepFrom := none }) }; s), 
    Tests.executing (by decide +kernel),
    by decide +kernel,
    by decide +kernel,
    by decide +kernel,
    by decide +kernel⟩,
   ⟨Tests.cmd (1 + 1 * 2 ^ 8), Tests.flight (1 + 1 * 2 ^ 8), (1 : Fin 4), (3 : Fin 128), (let s : State := Tests.work (1 + 1 * 2 ^ 8); let s : State := { s with strcal := s.strcal.upd (((1 : Fin 4))) (fun x => { x with run := none }) }; let s : State := { s with strcal := s.strcal.upd (((1 : Fin 4))) (fun x => { x with deferred := none }) }; let s : State := { s with strs := s.strs.upd 1 (fun zz => { zz with st := .closed }) }; s), 
    Tests.executing (by decide +kernel),
    by decide +kernel,
    by decide +kernel,
    by decide +kernel,
    by decide +kernel,
    by decide +kernel,
    by decide +kernel,
    by decide +kernel,
    by decide +kernel,
    by decide +kernel⟩,
   ⟨Tests.cmd (1 + 1 * 2 ^ 8), Tests.flight (1 + 1 * 2 ^ 8), (1 : Fin 4), (3 : Fin 128), (let s : State := Tests.work (1 + 1 * 2 ^ 8); let s : State := { s with strcal := s.strcal.upd (((1 : Fin 4))) (fun x => { x with run := none }) }; let s : State := { s with strcal := s.strcal.upd (((1 : Fin 4))) (fun x => { x with deferred := none }) }; let s : State := { s with strs := s.strs.upd (((1 : Fin 4))) (fun x => { x with st := .opened }) }; s), 
    Tests.executing (by decide +kernel),
    by decide +kernel,
    by decide +kernel,
    by decide +kernel,
    by decide +kernel,
    by decide +kernel,
    by decide +kernel,
    by decide +kernel,
    by decide +kernel,
    by decide +kernel,
    by decide +kernel⟩,
   ⟨Tests.cmd ((3) + (200) * 2 ^ 32 + (16) * 2 ^ 48), Tests.flight ((3) + (200) * 2 ^ 32 + (16) * 2 ^ 48), (Tests.live ((3) + (200) * 2 ^ 32 + (16) * 2 ^ 48)), 
    Tests.executing (by decide +kernel),
    by decide +kernel,
    by decide +kernel,
    by decide +kernel,
    by decide +kernel,
    by decide +kernel⟩,
   ⟨Tests.cmd ((4)), Tests.flight ((4)), (Tests.live ((4))), 
    Tests.executing (by decide +kernel),
    by decide +kernel⟩,
   ⟨Tests.cmd (0x400 * 2 ^ 32 + 4 * 2 ^ 128), Tests.flight (0x400 * 2 ^ 32 + 4 * 2 ^ 128), (List.replicate 4 0 : List Byte), (splice (List.replicate 16 0 ++ List.replicate 0x1FF0 0) (opField (Tests.cmd (0x400 * 2 ^ 32 + 4 * 2 ^ 128)) 4 4) (padTo (opField (Tests.cmd (0x400 * 2 ^ 32 + 4 * 2 ^ 128)) 0x10 4) (List.replicate 4 0)) : List Byte), (let s : State := Tests.work (0x400 * 2 ^ 32 + 4 * 2 ^ 128); let s : State := { s with cal.devQ := none }; let s : State := { s with cal := { s.cal with device := some (List.replicate 0x1FF0 0) } }; let s : State := { s with strs := s.strs.upd 1 (fun zz => { zz with st := .closed }) }; s), 
    Tests.executing (by decide +kernel),
    by decide +kernel,
    by decide +kernel,
    by decide +kernel,
    by decide +kernel,
    by decide +kernel,
    by decide +kernel,
    by decide +kernel,
    rfl,
    by decide +kernel,
    by decide +kernel⟩,
   ⟨Tests.cmd (0x400 * 2 ^ 32 + 4 * 2 ^ 128), Tests.flight (0x400 * 2 ^ 32 + 4 * 2 ^ 128), (List.replicate 4 0 : List Byte), (splice (List.replicate 16 0 ++ List.replicate 0x1FF0 0) (opField (Tests.cmd (0x400 * 2 ^ 32 + 4 * 2 ^ 128)) 4 4) (padTo (opField (Tests.cmd (0x400 * 2 ^ 32 + 4 * 2 ^ 128)) 0x10 4) (List.replicate 4 0)) : List Byte), (let s : State := Tests.work (0x400 * 2 ^ 32 + 4 * 2 ^ 128); let s : State := { s with cal.devQ := none }; let s : State := { s with cal := { s.cal with device := some (List.replicate 0x1FF0 0) } }; let s : State := { s with cal := { s.cal with devAt := some 2304000000000 } }; s), 
    Tests.executing (by decide +kernel),
    by decide +kernel,
    by decide +kernel,
    by decide +kernel,
    by decide +kernel,
    by decide +kernel,
    by decide +kernel,
    by decide +kernel,
    rfl,
    by decide +kernel,
    by decide +kernel,
    by decide +kernel⟩,
   ⟨Tests.cmd (0x400 * 2 ^ 32 + 4 * 2 ^ 128), Tests.flight (0x400 * 2 ^ 32 + 4 * 2 ^ 128), (List.replicate 4 0 : List Byte), (splice (List.replicate 16 0 ++ List.replicate 0x1FF0 0) (opField (Tests.cmd (0x400 * 2 ^ 32 + 4 * 2 ^ 128)) 4 4) (padTo (opField (Tests.cmd (0x400 * 2 ^ 32 + 4 * 2 ^ 128)) 0x10 4) (List.replicate 4 0)) : List Byte), (let s : State := Tests.work (0x400 * 2 ^ 32 + 4 * 2 ^ 128); let s : State := { s with cal.devQ := none }; let s : State := { s with cal := { s.cal with device := some (List.replicate 0x1FF0 0) } }; s), 
    Tests.executing (by decide +kernel),
    by decide +kernel,
    by decide +kernel,
    by decide +kernel,
    by decide +kernel,
    by decide +kernel,
    by decide +kernel,
    by decide +kernel,
    rfl,
    by decide +kernel,
    by decide +kernel,
    by decide +kernel⟩,
   ⟨Tests.cmd (1 + 1 * 2 ^ 16 + 0x20 * 2 ^ 32 + 4 * 2 ^ 128), Tests.flight (1 + 1 * 2 ^ 16 + 0x20 * 2 ^ 32 + 4 * 2 ^ 128), ([0, 0, 0x80, 0x3F] : List Byte), (Tests.entry : List Byte), (1 : Fin 128), (1 : Fin 4), (let s : State := Tests.work (1 + 1 * 2 ^ 16 + 0x20 * 2 ^ 32 + 4 * 2 ^ 128); let s : State := { s with strcal := s.strcal.upd (((1 : Fin 4))) (fun x => { x with run := none }) }; let s : State := { s with strcal := s.strcal.upd (((1 : Fin 4))) (fun x => { x with deferred := none }) }; let s : State := { s with ucal := s.ucal.upd 1 (fun zz => { zz with entry := some Tests.entry }) }; s), 
    Tests.executing (by decide +kernel),
    by decide +kernel,
    by decide +kernel,
    by decide +kernel,
    by decide +kernel,
    by decide +kernel,
    by decide +kernel,
    by decide +kernel,
    by decide +kernel,
    by decide +kernel,
    by decide +kernel,
    by decide +kernel,
    by decide +kernel,
    by decide +kernel,
    by decide +kernel,
    by decide +kernel,
    by decide +kernel⟩,
   ⟨Tests.cmd (((4 - 1)) * 2 ^ 128), Tests.flight (((4 - 1)) * 2 ^ 128), ([] : List Byte), (Tests.live (((4 - 1)) * 2 ^ 128)), 
    Tests.executing (by decide +kernel),
    by decide +kernel⟩,
   ⟨Tests.cmd (1 + 1 * 2 ^ 16), Tests.flight (1 + 1 * 2 ^ 16), (1 : Fin 128), ([] : List Byte), (Tests.work (1 + 1 * 2 ^ 16)), 
    Tests.executing (by decide +kernel),
    by decide +kernel,
    Or.inr (Or.inl (by decide +kernel))⟩,
   ⟨Tests.cmd ((128) * 2 ^ 16), Tests.flight ((128) * 2 ^ 16), (Tests.live ((128) * 2 ^ 16)), 
    Tests.executing (by decide +kernel),
    by decide +kernel⟩⟩

/-- Witnesses of the hypotheses of `StudbookKeepsItsLog`. -/
theorem witness_StudbookKeepsItsLog :
    (∃ (trigger : BitVec 6) (subject : BitVec 8) (detail : BitVec 128) (s : State), (trigger ≠ 0) ∧ (trigger.toNat < 0x26) ∧ (trigger.toNat < 0x0D ∨ 0x0F < trigger.toNat) ∧ (trigger.toNat < 0x1C ∨ 0x1F < trigger.toNat) ∧ (s.isl.mem = true) ∧ (s.cross.toRecorder = []) ∧ (s.stb.cfg.enabled trigger = true) ∧ (s.stb.stopped = false) ∧ (s.stb.full = false) ∧ (s.stb.fifo.length < 256)) ∧
    (∃ (trigger : BitVec 6) (subject : BitVec 8) (detail : BitVec 128) (s : State), (trigger ≠ 0) ∧ (trigger.toNat < 0x26) ∧ (trigger.toNat < 0x0D ∨ 0x0F < trigger.toNat) ∧ (trigger.toNat < 0x1C ∨ 0x1F < trigger.toNat) ∧ (s.isl.mem = true) ∧ (s.cross.toRecorder = []) ∧ (s.stb.cfg.enabled trigger = true) ∧ (s.stb.stopped = false) ∧ (s.stb.full = false) ∧ (256 ≤ s.stb.fifo.length) ∧ (∃ e ∈ s.stb.fifo, e.trigger = trigger ∧ e.subject = subject)) ∧
    (∃ (trigger : BitVec 6) (subject : BitVec 8) (detail : BitVec 128) (s : State), (trigger ≠ 0) ∧ (trigger.toNat < 0x26) ∧ (trigger.toNat < 0x0D ∨ 0x0F < trigger.toNat) ∧ (trigger.toNat < 0x1C ∨ 0x1F < trigger.toNat) ∧ (s.isl.mem = true) ∧ (s.cross.toRecorder = []) ∧ (s.stb.cfg.enabled trigger = true) ∧ (s.stb.stopped = false) ∧ (s.stb.full = false) ∧ (256 ≤ s.stb.fifo.length) ∧ (∀ e ∈ s.stb.fifo, e.trigger ≠ trigger ∨ e.subject ≠ subject)) ∧
    (∃ (trigger : BitVec 6) (subject : BitVec 8) (detail : BitVec 128) (s : State), (trigger = 0 ∨ 0x26 ≤ trigger.toNat ∨ (s.isl.mem = true ∧ s.cross.toRecorder = [] ∧ s.stb.cfg.enabled trigger = false))) ∧
    (∃ (us : Nat) (q : StbReq) (rest : List StbReq) (s : State), (s.recorderRuns = true) ∧ (s.stb.clearing = none) ∧ (s.stb.full = false) ∧ (s.stb.made < 32767) ∧ (s.stb.fifo = q :: rest) ∧ (s.stb.queue = []) ∧ (s.mem.queue.sb.length ≤ 496)) ∧
    (∃ (us : Nat) (q : StbReq) (rest : List StbReq) (s : State), (s.recorderRuns = true) ∧ (s.stb.clearing = none) ∧ (s.stb.full = false) ∧ (s.stb.made = 32767) ∧ (s.stb.fifo = q :: rest) ∧ (s.stb.queue.length < 32)) ∧
    (∃ (us : Nat) (q : StbReq) (rest : List StbReq) (s : State), (s.recorderRuns = true) ∧ (s.stb.clearing = none) ∧ (s.stb.full = true) ∧ (s.stb.fifo = q :: rest) ∧ (s.stb.queue.length < 32)) ∧
    (∃ (us : Nat) (s : State), (s.recorderRuns = false ∨ 32 ≤ s.stb.queue.length)) ∧
    (∃ (kind : BitVec 8) (slot : BitVec 15) (s : State), (1 ≤ kind.toNat) ∧ (kind.toNat ≤ 4) ∧ (s.stb.faults.length < 16) ∧ (s.stb.clearing = none)) ∧
    (∃ (trigger : BitVec 6) (subject : BitVec 8) (detail : BitVec 128) (s : State), (trigger ≠ 0) ∧ (trigger.toNat < 0x0D) ∧ (s.isl.mem = true) ∧ (s.cross.toRecorder = []) ∧ (s.stb.stopped = true ∨ s.stb.full = true)) ∧
    (∃ (s : State), (s.stb.refused ≠ s.stb.refWritten) ∧ (∀ at_, s.stb.refAt = some at_ → at_ + 60 * ticksPerS ≤ s.now) ∧ (s.isl.mem = true)) ∧
    (∃ (s : State), (s.stb.refused = s.stb.refWritten)) ∧
    (∃ (c : Cmd) (f : Flight) (pkg : List Byte) (s : State), (Executing s c f) ∧ (opField c 8 4 = 96) ∧ (pkg.length = 96) ∧ (packageHead 0x1101 pkg = true) ∧ (packageSigned s.sec.owner pkg = true) ∧ (field pkg 4 4 ≤ s.stb.clearSeq.toNat)) ∧
    (∃ (c : Cmd) (f : Flight) (pkg : List Byte) (s : State), (Executing s c f) ∧ (opField c 8 4 = 96) ∧ (pkg.length = 96) ∧ (packageHead 0x1101 pkg = true) ∧ (packageSigned s.sec.owner pkg = true) ∧ (s.stb.clearSeq.toNat < field pkg 4 4) ∧ (s.stb.clearedAt = none) ∧ ((pkg.drop 0x10).take 16 = List.replicate 16 0) ∧ (16 ≤ s.stb.faults.length)) ∧
    (∃ (c : Cmd) (f : Flight) (pkg : List Byte) (s : State), (Executing s c f) ∧ (opField c 8 4 = 96) ∧ (pkg.length = 96) ∧ (packageHead 0x1101 pkg = true) ∧ (packageSigned s.sec.owner pkg = true) ∧ (s.stb.clearSeq.toNat < field pkg 4 4) ∧ (s.stb.clearedAt = none) ∧ ((pkg.drop 0x10).take 16 = List.replicate 16 0) ∧ (s.stb.faults.length < 16) ∧ (s.stb.clearing = none) ∧ (s.stb.fifo ≠ [])) ∧
    (∃ (c : Cmd) (f : Flight) (pkg : List Byte) (s : State), (Executing s c f) ∧ (opField c 8 4 ≠ 96)) ∧
    (∃ (x : Clearing) (f : Flight) (bytes : List Byte) (w : Codeword) (s : State), (s.isl.mem = true) ∧ (s.stb.clearing = some x) ∧ (x.first = some bytes) ∧ (s.stb.queue = []) ∧ (Executing s x.cmd f) ∧ (s.mem.queue.slot = 1) ∧ (s.mem.queue.sb = [w]) ∧ (w.addr = slotAddr 0 + 240)) ∧
    (∃ (c : Cmd) (f : Flight) (s : State), (Executing s c f) ∧ (opField c 8 8 % 16 = 0) ∧ (opByte c 0x10 = 1)) ∧
    (∃ (c : Cmd) (f : Flight) (n : Nat) (s : State), (Executing s c f) ∧ (opField c 8 8 % 16 = 0) ∧ (opByte c 0x10 = 0) ∧ (opField c 0 4 < s.recordsInMram) ∧ (1 ≤ opField c 4 4) ∧ (opField c 4 4 ≤ 4096) ∧ (n = min (opField c 4 4) (s.recordsInMram - opField c 0 4))) ∧
    (∃ (c : Cmd) (f : Flight) (s : State), (Executing s c f) ∧ (opField c 8 8 % 16 ≠ 0 ∨ 2 ≤ opByte c 0x10 ∨ (opByte c 0x10 = 0 ∧ (s.recordsInMram < opField c 0 4 ∨ opField c 4 4 = 0 ∨ 4096 < opField c 4 4)))) ∧
    (∃ (c : Cmd) (f : Flight) (bad : Nat) (s : State), (Executing s c f) ∧ (opField c 8 8 % 16 = 0) ∧ (opByte c 0x10 = 0) ∧ (opField c 0 4 ≤ bad) ∧ (bad < opField c 0 4 + opField c 4 4) ∧ (bad < s.recordsInMram) ∧ (opField c 4 4 ≤ 4096) ∧ (s.stb.clearing = none)) :=
  ⟨⟨(1 : BitVec 6), (0 : BitVec 8), (0 : BitVec 128), (let s : State := Tests.withYard Tests.up; let s : State := { s with isl.mem := true }; let s : State := { s with cross.toRecorder := [] }; let s : State := { s with stb.stopped := false }; let s : State := { s with stb.full := false }; s), 
    by decide +kernel,
    by decide +kernel,
    by decide +kernel,
    by decide +kernel,
    by decide +kernel,
    by decide +kernel,
    by decide +kernel,
    by decide +kernel,
    by decide +kernel,
    by decide +kernel⟩,
   ⟨(1 : BitVec 6), (0 : BitVec 8), (0 : BitVec 128), (let s : State := Tests.withYard Tests.up; let s : State := { s with isl.mem := true }; let s : State := { s with cross.toRecorder := [] }; let s : State := { s with stb.stopped := false }; let s : State := { s with stb.full := false }; let s : State := { s with stb := { s.stb with fifo := List.replicate 256 ({ trigger := 1, subject := 0, detail := 0, time := 0, occur := 1 } : StbReq) } }; s), 
    by decide +kernel,
    by decide +kernel,
    by decide +kernel,
    by decide +kernel,
    by decide +kernel,
    by decide +kernel,
    by decide +kernel,
    by decide +kernel,
    by decide +kernel,
    by decide +kernel,
    by decide +kernel⟩,
   ⟨(2 : BitVec 6), (0 : BitVec 8), (0 : BitVec 128), (let s : State := Tests.withYard Tests.up; let s : State := { s with isl.mem := true }; let s : State := { s with cross.toRecorder := [] }; let s : State := { s with stb.stopped := false }; let s : State := { s with stb.full := false }; let s : State := { s with stb := { s.stb with fifo := List.replicate 256 ({ trigger := 1, subject := 0, detail := 0, time := 0, occur := 1 } : StbReq) } }; s), 
    by decide +kernel,
    by decide +kernel,
    by decide +kernel,
    by decide +kernel,
    by decide +kernel,
    by decide +kernel,
    by decide +kernel,
    by decide +kernel,
    by decide +kernel,
    by decide +kernel,
    by decide +kernel⟩,
   ⟨(0 : BitVec 6), (0 : BitVec 8), (0 : BitVec 128), (Tests.up), 
    by decide +kernel⟩,
   ⟨(0 : Nat), ({ trigger := 1, subject := 0, detail := 0, time := 0, occur := 1 } : StbReq), ([] : List StbReq), (let s : State := Tests.up; let s : State := { s with stb.clearing := none }; let s : State := { s with stb.full := false }; let s : State := { s with stb.fifo := (({ trigger := 1, subject := 0, detail := 0, time := 0, occur := 1 } : StbReq)) :: (([] : List StbReq)) }; let s : State := { s with stb.queue := [] }; s), 
    by decide +kernel,
    by decide +kernel,
    by decide +kernel,
    by decide +kernel,
    by decide +kernel,
    by decide +kernel,
    by decide +kernel⟩,
   ⟨(0 : Nat), ({ trigger := 1, subject := 0, detail := 0, time := 0, occur := 1 } : StbReq), ([] : List StbReq), (let s : State := Tests.up; let s : State := { s with stb.clearing := none }; let s : State := { s with stb.full := false }; let s : State := { s with stb.made := 32767 }; let s : State := { s with stb.fifo := (({ trigger := 1, subject := 0, detail := 0, time := 0, occur := 1 } : StbReq)) :: (([] : List StbReq)) }; s), 
    by decide +kernel,
    by decide +kernel,
    by decide +kernel,
    by decide +kernel,
    by decide +kernel,
    by decide +kernel⟩,
   ⟨(0 : Nat), ({ trigger := 1, subject := 0, detail := 0, time := 0, occur := 1 } : StbReq), ([] : List StbReq), (let s : State := Tests.up; let s : State := { s with stb.clearing := none }; let s : State := { s with stb.full := true }; let s : State := { s with stb.fifo := (({ trigger := 1, subject := 0, detail := 0, time := 0, occur := 1 } : StbReq)) :: (([] : List StbReq)) }; s), 
    by decide +kernel,
    by decide +kernel,
    by decide +kernel,
    by decide +kernel,
    by decide +kernel⟩,
   ⟨(0 : Nat), (let s : State := Tests.withYard Tests.up; let s : State := { s with stb := { s.stb with queue := List.replicate 32 [] } }; s), 
    by decide +kernel⟩,
   ⟨(1 : BitVec 8), (0 : BitVec 15), (let s : State := Tests.withYard Tests.up; let s : State := { s with stb.clearing := none }; s), 
    by decide +kernel,
    by decide +kernel,
    by decide +kernel,
    by decide +kernel⟩,
   ⟨(1 : BitVec 6), (0 : BitVec 8), (0 : BitVec 128), (let s : State := Tests.withYard Tests.up; let s : State := { s with isl.mem := true }; let s : State := { s with cross.toRecorder := [] }; let s : State := { s with stb.stopped := true }; s), 
    by decide +kernel,
    by decide +kernel,
    by decide +kernel,
    by decide +kernel,
    by decide +kernel⟩,
   ⟨(let s : State := Tests.withYard Tests.up; let s : State := { s with isl.mem := true }; let s : State := { s with stb := { s.stb with refused := 1 } }; s), 
    by decide +kernel,
    by decide +kernel,
    by decide +kernel⟩,
   ⟨(let s : State := Tests.up; let s : State := { s with stb.refused := s.stb.refWritten }; s), 
    by decide +kernel⟩,
   ⟨Tests.cmd (96 * 2 ^ 64), Tests.flight (96 * 2 ^ 64), (Laws.pkg 0x1101 5 (List.replicate 16 0) : List Byte), (let s : State := Tests.work (96 * 2 ^ 64); let s : State := { s with sec := { s.sec with owner := some Laws.key } }; let s : State := { s with stb := { s.stb with clearSeq := 5 } }; s), 
    Tests.executing (by decide +kernel),
    by decide +kernel,
    by rw [Laws.pkg_length]; rfl,
    Laws.pkg_head _ _ _ (by decide +kernel),
    Laws.pkg_signed _ _ _,
    by rw [Laws.pkg_seq]; decide +kernel⟩,
   ⟨Tests.cmd (96 * 2 ^ 64), Tests.flight (96 * 2 ^ 64), (Laws.pkg 0x1101 5 (List.replicate 16 0) : List Byte), (let s : State := Tests.work (96 * 2 ^ 64); let s : State := { s with stb.clearedAt := none }; let s : State := { s with sec := { s.sec with owner := some Laws.key } }; let s : State := { s with stb := { s.stb with faults := List.replicate 16 ({ kind := 1, bank := 0, slot := 0, affected := 0, oph := 0, gen := 0 } : FaultWord) } }; s), 
    Tests.executing (by decide +kernel),
    by decide +kernel,
    by rw [Laws.pkg_length]; rfl,
    Laws.pkg_head _ _ _ (by decide +kernel),
    Laws.pkg_signed _ _ _,
    by rw [Laws.pkg_seq]; decide +kernel,
    by decide +kernel,
    by rw [Laws.pkg_drop]; decide +kernel,
    by decide +kernel⟩,
   ⟨Tests.cmd (96 * 2 ^ 64), Tests.flight (96 * 2 ^ 64), (Laws.pkg 0x1101 5 (List.replicate 16 0) : List Byte), (let s : State := Tests.work (96 * 2 ^ 64); let s : State := { s with stb.clearedAt := none }; let s : State := { s with stb.clearing := none }; let s : State := { s with sec := { s.sec with owner := some Laws.key } }; let s : State := { s with stb := { s.stb with fifo := [({ trigger := 1, subject := 0, detail := 0, time := 0, occur := 1 } : StbReq)] } }; s), 
    Tests.executing (by decide +kernel),
    by decide +kernel,
    by rw [Laws.pkg_length]; rfl,
    Laws.pkg_head _ _ _ (by decide +kernel),
    Laws.pkg_signed _ _ _,
    by rw [Laws.pkg_seq]; decide +kernel,
    by decide +kernel,
    by rw [Laws.pkg_drop]; decide +kernel,
    by decide +kernel,
    by decide +kernel,
    by decide +kernel⟩,
   ⟨Tests.cmd ((0) * 2 ^ 64), Tests.flight ((0) * 2 ^ 64), ([] : List Byte), (Tests.live ((0) * 2 ^ 64)), 
    Tests.executing (by decide +kernel),
    by decide +kernel⟩,
   ⟨({ ({ cmd := Tests.cmd 0, seq := 1, left := 0 } : Clearing) with first := some (([] : List Byte)) } : Clearing), Tests.flight (0), ([] : List Byte), ({ ({ addr := 0x600000, bytes := List.replicate 16 0, at_ := 0 } : Codeword) with addr := slotAddr 0 + 240 } : Codeword), (let s : State := Tests.live (0); let s : State := { s with isl.mem := true }; let s : State := { s with stb.clearing := some (({ ({ cmd := Tests.cmd 0, seq := 1, left := 0 } : Clearing) with first := some (([] : List Byte)) } : Clearing)) }; let s : State := { s with stb.queue := [] }; let s : State := { s with mem.queue.slot := 1 }; let s : State := { s with mem.queue.sb := [(({ ({ addr := 0x600000, bytes := List.replicate 16 0, at_ := 0 } : Codeword) with addr := slotAddr 0 + 240 } : Codeword))] }; s), 
    by decide +kernel,
    by decide +kernel,
    by decide +kernel,
    by decide +kernel,
    Tests.executing (by decide +kernel),
    by decide +kernel,
    by decide +kernel,
    by decide +kernel⟩,
   ⟨Tests.cmd ((0) * 2 ^ 64 + (1) * 2 ^ 128), Tests.flight ((0) * 2 ^ 64 + (1) * 2 ^ 128), (Tests.live ((0) * 2 ^ 64 + (1) * 2 ^ 128)), 
    Tests.executing (by decide +kernel),
    by decide +kernel,
    by decide +kernel⟩,
   ⟨Tests.cmd (1 * 2 ^ 32), Tests.flight (1 * 2 ^ 32), (1 : Nat), (let s : State := Tests.work (1 * 2 ^ 32); let s : State := { s with stb := { s.stb with records := 2, made := 2 } }; s), 
    Tests.executing (by decide +kernel),
    by decide +kernel,
    by decide +kernel,
    by decide +kernel,
    by decide +kernel,
    by decide +kernel,
    by decide +kernel⟩,
   ⟨Tests.cmd ((1) * 2 ^ 64), Tests.flight ((1) * 2 ^ 64), (Tests.live ((1) * 2 ^ 64)), 
    Tests.executing (by decide +kernel),
    by decide +kernel⟩,
   ⟨Tests.cmd (1 * 2 ^ 32), Tests.flight (1 * 2 ^ 32), (0 : Nat), (let s : State := Tests.work (1 * 2 ^ 32); let s : State := { s with stb.clearing := none }; let s : State := { s with stb := { s.stb with records := 2, made := 2 } }; s), 
    Tests.executing (by decide +kernel),
    by decide +kernel,
    by decide +kernel,
    by decide +kernel,
    by decide +kernel,
    by decide +kernel,
    by decide +kernel,
    by decide +kernel⟩⟩

/-- Witnesses of the hypotheses of `PairsCompareAndTest`. -/
theorem witness_PairsCompareAndTest :
    (∃ (p : Fin 8) (lane : BitVec 2) (group : BitVec 4) (pc : BitVec 32) (s : State), (s.pctl.split = false) ∧ ((s.pairs.at p).st = .run) ∧ (group.toNat < (if lane = 0 then 5 else if lane = 2 then 10 else 6))) ∧
    (∃ (p : Fin 8) (lane : BitVec 2) (group : BitVec 4) (pc : BitVec 32) (s : State), (s.pctl.split = true ∨ (s.pairs.at p).st = .off)) ∧
    (∃ (p : Fin 8) (s : State), (s.pctl.split = false) ∧ (p ≠ 0) ∧ ((s.pairs.at p).st = .run) ∧ (∀ q, (s.pairs.at q).st ≠ .selftest) ∧ (s.pctl.waits = []) ∧ ((s.pairs.at p).cfg.stEn = true) ∧ ((s.pairs.at p).testedAt + (s.pairs.at p).cfg.intervalS * ticksPerS ≤ s.now)) ∧
    (∃ (p : Fin 8) (q : Fin 8) (s : State), ((s.pairs.at q).st = .selftest)) ∧
    (∃ (p : Fin 8) (core : Bool) (c : Cmd) (f : Flight) (since : Nat) (s : State), ((s.pairs.at p).st = .selftest) ∧ ((s.pairs.at p).stopPend = false) ∧ (s.pctl.waits = [⟨c, p, false, since, true⟩]) ∧ (Executing s c f)) ∧
    (∃ (p : Fin 8) (r : BitVec 4) (core : Bool) (c : Cmd) (f : Flight) (since : Nat) (s : State), ((s.pairs.at p).st = .selftest) ∧ (s.pctl.split = false) ∧ (2 ≤ r.toNat) ∧ (r.toNat ≤ 5) ∧ (s.pctl.waits = [⟨c, p, false, since, true⟩]) ∧ (Executing s c f) ∧ (p ≠ 0)) ∧
    (∃ (p : Fin 8) (core : Bool) (c : Cmd) (f : Flight) (since : Nat) (s : State), ((s.pairs.at p).st = .fault ∨ (s.pairs.at p).st = .failed) ∧ (p ≠ 0) ∧ (s.pctl.waits = [⟨c, p, true, since, true⟩]) ∧ (Executing s c f)) ∧
    (∃ (p : Fin 8) (r : BitVec 4) (core : Bool) (c : Cmd) (f : Flight) (since : Nat) (s : State), ((s.pairs.at p).st = .fault) ∧ (s.pctl.split = false) ∧ (2 ≤ r.toNat) ∧ (r.toNat ≤ 5) ∧ (s.pctl.waits = [⟨c, p, true, since, true⟩]) ∧ (Executing s c f)) ∧
    (∃ (c : Cmd) (f : Flight) (p : Fin 8) (s : State), (Executing s c f) ∧ (opByte c 0 = p.val) ∧ (opByte c 1 ≤ 1) ∧ (∀ q, (s.pairs.at q).st ≠ .selftest) ∧ (s.pctl.waits = []) ∧ (opByte c 1 = 0) ∧ (p = 0) ∧ (s.pctl.split = false)) ∧
    (∃ (c : Cmd) (f : Flight) (p : Fin 8) (s : State), (Executing s c f) ∧ (opByte c 0 = p.val) ∧ (opByte c 1 ≤ 1) ∧ (∀ q, (s.pairs.at q).st ≠ .selftest) ∧ (s.pctl.waits = []) ∧ (opByte c 1 = 0) ∧ (p ≠ 0) ∧ ((s.pairs.at p).st ≠ .run) ∧ ((s.pairs.at p).st ≠ .split)) ∧
    (∃ (c : Cmd) (f : Flight) (p : Fin 8) (s : State), (Executing s c f) ∧ (opByte c 0 = p.val) ∧ (opByte c 1 ≤ 1) ∧ (∀ q, (s.pairs.at q).st ≠ .selftest) ∧ (s.pctl.waits = []) ∧ (opByte c 1 = 0) ∧ (p ≠ 0) ∧ ((s.pairs.at p).st = .run)) ∧
    (∃ (c : Cmd) (f : Flight) (p : Fin 8) (s : State), (Executing s c f) ∧ (opByte c 0 = p.val) ∧ (opByte c 1 ≤ 1) ∧ (∀ q, (s.pairs.at q).st ≠ .selftest) ∧ (s.pctl.waits = []) ∧ (opByte c 1 = 1) ∧ ((s.pairs.at p).st = .fault) ∧ ((s.pairs.at p).mmCnt < 3)) ∧
    (∃ (c : Cmd) (f : Flight) (p : Fin 8) (s : State), (Executing s c f) ∧ (opByte c 0 = p.val) ∧ (opByte c 1 ≤ 1) ∧ (∀ q, (s.pairs.at q).st ≠ .selftest) ∧ (s.pctl.waits = []) ∧ (opByte c 1 = 1) ∧ ((s.pairs.at p).st = .fault) ∧ (3 ≤ (s.pairs.at p).mmCnt)) ∧
    (∃ (c : Cmd) (f : Flight) (q : Fin 8) (s : State), (Executing s c f) ∧ (opByte c 0 ≤ 7) ∧ (opByte c 1 ≤ 1) ∧ ((s.pairs.at q).st = .selftest)) ∧
    (∃ (c : Cmd) (f : Flight) (p : Fin 8) (since : Nat) (s : State), (s.pctl.waits = [⟨c, p, false, since, false⟩]) ∧ (since + ticksPerS ≤ s.now) ∧ (Executing s c f)) ∧
    (∃ (s : State), (∀ w ∈ s.pctl.waits, w.began = true ∨ s.now < w.since + ticksPerS)) :=
  ⟨⟨(1 : Fin 8), (0 : BitVec 2), (0 : BitVec 4), (0 : BitVec 32), (let s : State := Tests.up; let s : State := { s with pctl.split := false }; let s : State := { s with pairs := s.pairs.upd (((1 : Fin 8))) (fun x => { x with st := .run }) }; s), 
    by decide +kernel,
    by decide +kernel,
    by decide +kernel⟩,
   ⟨(1 : Fin 8), (0 : BitVec 2), (0 : BitVec 4), (0 : BitVec 32), (let s : State := Tests.up; let s : State := { s with pctl.split := true }; s), 
    by decide +kernel⟩,
   ⟨(1 : Fin 8), (let s : State := Tests.up; let s : State := { s with pctl.split := false }; let s : State := { s with pairs := s.pairs.upd (((1 : Fin 8))) (fun x => { x with st := .run }) }; let s : State := { s with pctl.waits := [] }; let s : State := { s with pairs := s.pairs.upd (((1 : Fin 8))) (fun x => { x with cfg.stEn := true }) }; s), 
    by decide +kernel,
    by decide +kernel,
    by decide +kernel,
    by decide +kernel,
    by decide +kernel,
    by decide +kernel,
    by decide +kernel⟩,
   ⟨(1 : Fin 8), (1 : Fin 8), (let s : State := Tests.up; let s : State := { s with pairs := s.pairs.upd (((1 : Fin 8))) (fun x => { x with st := .selftest }) }; s), 
    by decide +kernel⟩,
   ⟨(1 : Fin 8), (true : Bool), Tests.cmd (0), Tests.flight (0), (0 : Nat), (let s : State := Tests.live (0); let s : State := { s with pairs := s.pairs.upd (((1 : Fin 8))) (fun x => { x with st := .selftest }) }; let s : State := { s with pairs := s.pairs.upd (((1 : Fin 8))) (fun x => { x with stopPend := false }) }; let s : State := { s with pctl.waits := [⟨(Tests.cmd (0)), ((1 : Fin 8)), false, ((0 : Nat)), true⟩] }; s), 
    by decide +kernel,
    by decide +kernel,
    by decide +kernel,
    Tests.executing (by decide +kernel)⟩,
   ⟨(1 : Fin 8), (2 : BitVec 4), (true : Bool), Tests.cmd (0), Tests.flight (0), (0 : Nat), (let s : State := Tests.work (0); let s : State := { s with pairs := s.pairs.upd (((1 : Fin 8))) (fun x => { x with st := .selftest }) }; let s : State := { s with pctl.split := false }; let s : State := { s with pctl.waits := [⟨(Tests.cmd (0)), ((1 : Fin 8)), false, ((0 : Nat)), true⟩] }; s), 
    by decide +kernel,
    by decide +kernel,
    by decide +kernel,
    by decide +kernel,
    by decide +kernel,
    Tests.executing (by decide +kernel),
    by decide +kernel⟩,
   ⟨(1 : Fin 8), (true : Bool), Tests.cmd (0), Tests.flight (0), (0 : Nat), (let s : State := Tests.live (0); let s : State := { s with pairs := s.pairs.upd (((1 : Fin 8))) (fun x => { x with st := .fault }) }; let s : State := { s with pctl.waits := [⟨(Tests.cmd (0)), ((1 : Fin 8)), true, ((0 : Nat)), true⟩] }; s), 
    by decide +kernel,
    by decide +kernel,
    by decide +kernel,
    Tests.executing (by decide +kernel)⟩,
   ⟨(1 : Fin 8), (2 : BitVec 4), (true : Bool), Tests.cmd (0), Tests.flight (0), (0 : Nat), (let s : State := Tests.work (0); let s : State := { s with pairs := s.pairs.upd (((1 : Fin 8))) (fun x => { x with st := .fault }) }; let s : State := { s with pctl.split := false }; let s : State := { s with pctl.waits := [⟨(Tests.cmd (0)), ((1 : Fin 8)), true, ((0 : Nat)), true⟩] }; s), 
    by decide +kernel,
    by decide +kernel,
    by decide +kernel,
    by decide +kernel,
    by decide +kernel,
    Tests.executing (by decide +kernel)⟩,
   ⟨Tests.cmd ((((0 : Fin 8)).val) + (0) * 2 ^ 8), Tests.flight ((((0 : Fin 8)).val) + (0) * 2 ^ 8), (0 : Fin 8), (let s : State := Tests.work ((((0 : Fin 8)).val) + (0) * 2 ^ 8); let s : State := { s with pctl.waits := [] }; let s : State := { s with pctl.split := false }; s), 
    Tests.executing (by decide +kernel),
    by decide +kernel,
    by decide +kernel,
    by decide +kernel,
    by decide +kernel,
    by decide +kernel,
    by decide +kernel,
    by decide +kernel⟩,
   ⟨Tests.cmd ((((1 : Fin 8)).val) + (0) * 2 ^ 8), Tests.flight ((((1 : Fin 8)).val) + (0) * 2 ^ 8), (1 : Fin 8), (let s : State := Tests.live ((((1 : Fin 8)).val) + (0) * 2 ^ 8); let s : State := { s with pctl.waits := [] }; s), 
    Tests.executing (by decide +kernel),
    by decide +kernel,
    by decide +kernel,
    by decide +kernel,
    by decide +kernel,
    by decide +kernel,
    by decide +kernel,
    by decide +kernel,
    by decide +kernel⟩,
   ⟨Tests.cmd ((((1 : Fin 8)).val) + (0) * 2 ^ 8), Tests.flight ((((1 : Fin 8)).val) + (0) * 2 ^ 8), (1 : Fin 8), (let s : State := Tests.live ((((1 : Fin 8)).val) + (0) * 2 ^ 8); let s : State := { s with pctl.waits := [] }; let s : State := { s with pairs := s.pairs.upd (((1 : Fin 8))) (fun x => { x with st := .run }) }; s), 
    Tests.executing (by decide +kernel),
    by decide +kernel,
    by decide +kernel,
    by decide +kernel,
    by decide +kernel,
    by decide +kernel,
    by decide +kernel,
    by decide +kernel⟩,
   ⟨Tests.cmd ((((1 : Fin 8)).val) + (1) * 2 ^ 8), Tests.flight ((((1 : Fin 8)).val) + (1) * 2 ^ 8), (1 : Fin 8), (let s : State := Tests.live ((((1 : Fin 8)).val) + (1) * 2 ^ 8); let s : State := { s with pctl.waits := [] }; let s : State := { s with pairs := s.pairs.upd (((1 : Fin 8))) (fun x => { x with st := .fault }) }; s), 
    Tests.executing (by decide +kernel),
    by decide +kernel,
    by decide +kernel,
    by decide +kernel,
    by decide +kernel,
    by decide +kernel,
    by decide +kernel,
    by decide +kernel⟩,
   ⟨Tests.cmd ((((1 : Fin 8)).val) + (1) * 2 ^ 8), Tests.flight ((((1 : Fin 8)).val) + (1) * 2 ^ 8), (1 : Fin 8), (let s : State := Tests.live ((((1 : Fin 8)).val) + (1) * 2 ^ 8); let s : State := { s with pctl.waits := [] }; let s : State := { s with pairs := s.pairs.upd (((1 : Fin 8))) (fun x => { x with st := .fault }) }; let s : State := { s with pairs := s.pairs.upd (((1 : Fin 8))) (fun x => { x with mmCnt := 3 }) }; s), 
    Tests.executing (by decide +kernel),
    by decide +kernel,
    by decide +kernel,
    by decide +kernel,
    by decide +kernel,
    by decide +kernel,
    by decide +kernel,
    by decide +kernel⟩,
   ⟨Tests.cmd ((7) + (1) * 2 ^ 8), Tests.flight ((7) + (1) * 2 ^ 8), (1 : Fin 8), (let s : State := Tests.live ((7) + (1) * 2 ^ 8); let s : State := { s with pairs := s.pairs.upd (((1 : Fin 8))) (fun x => { x with st := .selftest }) }; s), 
    Tests.executing (by decide +kernel),
    by decide +kernel,
    by decide +kernel,
    by decide +kernel⟩,
   ⟨Tests.cmd (0), Tests.flight (0), (1 : Fin 8), (0 : Nat), (let s : State := Tests.live (0); let s : State := { s with pctl.waits := [⟨(Tests.cmd (0)), ((1 : Fin 8)), false, ((0 : Nat)), false⟩] }; s), 
    by decide +kernel,
    by decide +kernel,
    Tests.executing (by decide +kernel)⟩,
   ⟨(Tests.up), 
    by decide +kernel⟩⟩

/-- Witnesses of the hypotheses of `PairsStartStopAndDebug`. -/
theorem witness_PairsStartStopAndDebug :
    (∃ (p : Fin 8) (s : State), (p ≠ 0) ∧ ((s.pairs.at p).st = .off)) ∧
    (∃ (p : Fin 8) (s : State), (p ≠ 0) ∧ ((s.pairs.at p).st = .run ∨ (s.pairs.at p).st = .split ∨ (s.pairs.at p).st = .dbgHalt)) ∧
    (∃ (w : Fin 16) (p : Fin 8) (s : State), (w ≠ 0 ∨ p = 0 ∨ (s.pairs.at p).st = .fault ∨ (s.pairs.at p).st = .failed)) ∧
    (∃ (w : Fin 16) (s : State), ((s.pairs.at (pairOf w)).st = .run)) ∧
    (∃ (p : Fin 8) (s : State), (s.pctl.attached = true) ∧ (s.pctl.unlocked.getLsbD p.val = true) ∧ ((s.pairs.at p).st = .run ∨ (s.pairs.at p).st = .split)) ∧
    (∃ (p : Fin 8) (s : State), (s.pctl.attached = true) ∧ (s.pctl.unlocked.getLsbD p.val = true) ∧ ((s.pairs.at p).st = .dbgHalt) ∧ ((s.pairs.at p).replay = [])) ∧
    (∃ (p : Fin 8) (addr : BitVec 17) (v : BitVec 32) (s : State), (s.pctl.attached = true) ∧ (s.pctl.unlocked.getLsbD p.val = true) ∧ ((s.pairs.at p).st = .dbgHalt) ∧ (s.pctl.split = false) ∧ (s.pctl.mode = 0) ∧ ((s.pairs.at p).done = false) ∧ (s.ret.pending = false) ∧ ((s.pairs.at p).replay.length < 4096)) ∧
    (∃ (p : Fin 8) (addr : BitVec 17) (v : BitVec 32) (s : State), (s.pctl.attached = true) ∧ (s.pctl.unlocked.getLsbD p.val = true) ∧ ((s.pairs.at p).st = .dbgHalt) ∧ (s.pctl.split = false) ∧ (s.pctl.mode = 0) ∧ ((s.pairs.at p).done = false) ∧ (s.ret.pending = false) ∧ (4096 ≤ (s.pairs.at p).replay.length)) ∧
    (∃ (p : Fin 8) (second : Bool) (w : DbgWrite) (s : State), (s.pctl.attached = false ∨ s.pctl.unlocked.getLsbD p.val = false)) ∧
    (∃ (c : Cmd) (f : Flight) (pkg : List Byte) (s : State), (Executing s c f) ∧ (opField c 8 4 = 96) ∧ (pkg.length = 96) ∧ (packageHead 0x0B01 pkg = true) ∧ (zeroBytes pkg 0x11 0x12 = true) ∧ (1 ≤ field pkg 0x12 2) ∧ (field pkg 0x12 2 ≤ 720) ∧ (zeroBytes pkg 0x14 0x20 = true) ∧ (packageSigned s.sec.owner pkg = true) ∧ (s.pctl.dbgSeq.toNat < field pkg 4 4)) ∧
    (∃ (c : Cmd) (f : Flight) (pkg : List Byte) (s : State), (Executing s c f) ∧ (opField c 8 4 = 96) ∧ (pkg.length = 96) ∧ (packageHead 0x0B01 pkg = true) ∧ (zeroBytes pkg 0x11 0x12 = true) ∧ (1 ≤ field pkg 0x12 2) ∧ (field pkg 0x12 2 ≤ 720) ∧ (zeroBytes pkg 0x14 0x20 = true) ∧ (packageSigned s.sec.owner pkg = true) ∧ (field pkg 4 4 ≤ s.pctl.dbgSeq.toNat)) ∧
    (∃ (s : State), (s.pctl.unlocked ≠ 0) ∧ (s.pctl.expires ≤ s.oph)) ∧
    (∃ (s : State), (s.pctl.unlocked = 0 ∨ s.oph < s.pctl.expires)) :=
  ⟨⟨(1 : Fin 8), (let s : State := Tests.up; let s : State := { s with pairs := s.pairs.upd (((1 : Fin 8))) (fun x => { x with st := .off }) }; s), 
    by decide +kernel,
    by decide +kernel⟩,
   ⟨(1 : Fin 8), (let s : State := Tests.up; let s : State := { s with pairs := s.pairs.upd (((1 : Fin 8))) (fun x => { x with st := .run }) }; s), 
    by decide +kernel,
    by decide +kernel⟩,
   ⟨(1 : Fin 16), (1 : Fin 8), (Tests.up), 
    by decide +kernel⟩,
   ⟨(1 : Fin 16), (let s : State := Tests.up; let s : State := { s with pairs := s.pairs.upd ((pairOf ((1 : Fin 16)))) (fun x => { x with st := .run }) }; s), 
    by decide +kernel⟩,
   ⟨(1 : Fin 8), (let s : State := Tests.up; let s : State := { s with pctl.attached := true }; let s : State := { s with pctl.unlocked := BitVec.allOnes _ }; let s : State := { s with pairs := s.pairs.upd (((1 : Fin 8))) (fun x => { x with st := .run }) }; s), 
    by decide +kernel,
    by decide +kernel,
    by decide +kernel⟩,
   ⟨(1 : Fin 8), (let s : State := Tests.up; let s : State := { s with pctl.attached := true }; let s : State := { s with pctl.unlocked := BitVec.allOnes _ }; let s : State := { s with pairs := s.pairs.upd (((1 : Fin 8))) (fun x => { x with st := .dbgHalt }) }; let s : State := { s with pairs := s.pairs.upd (((1 : Fin 8))) (fun x => { x with replay := [] }) }; s), 
    by decide +kernel,
    by decide +kernel,
    by decide +kernel,
    by decide +kernel⟩,
   ⟨(1 : Fin 8), (0 : BitVec 17), (0 : BitVec 32), (let s : State := Tests.up; let s : State := { s with pctl.attached := true }; let s : State := { s with pctl.unlocked := BitVec.allOnes _ }; let s : State := { s with pairs := s.pairs.upd (((1 : Fin 8))) (fun x => { x with st := .dbgHalt }) }; let s : State := { s with pctl.split := false }; let s : State := { s with pctl.mode := 0 }; let s : State := { s with pairs := s.pairs.upd (((1 : Fin 8))) (fun x => { x with done := false }) }; let s : State := { s with ret.pending := false }; s), 
    by decide +kernel,
    by decide +kernel,
    by decide +kernel,
    by decide +kernel,
    by decide +kernel,
    by decide +kernel,
    by decide +kernel,
    by decide +kernel⟩,
   ⟨(1 : Fin 8), (0 : BitVec 17), (0 : BitVec 32), (let s : State := Tests.withYard Tests.up; let s : State := { s with pctl.attached := true }; let s : State := { s with pctl.unlocked := BitVec.allOnes _ }; let s : State := { s with pairs := s.pairs.upd (((1 : Fin 8))) (fun x => { x with st := .dbgHalt }) }; let s : State := { s with pctl.split := false }; let s : State := { s with pctl.mode := 0 }; let s : State := { s with pairs := s.pairs.upd (((1 : Fin 8))) (fun x => { x with done := false }) }; let s : State := { s with ret.pending := false }; let s : State := { s with pairs := s.pairs.upd 1 (fun zz => { zz with replay := List.replicate 4096 (.tcm 0 0) }) }; s), 
    by decide +kernel,
    by decide +kernel,
    by decide +kernel,
    by decide +kernel,
    by decide +kernel,
    by decide +kernel,
    by decide +kernel,
    by decide +kernel⟩,
   ⟨(1 : Fin 8), (true : Bool), (.reg 0 0 : DbgWrite), (let s : State := Tests.up; let s : State := { s with pctl.attached := false }; s), 
    by decide +kernel⟩,
   ⟨Tests.cmd (96 * 2 ^ 64), Tests.flight (96 * 2 ^ 64), (Laws.pkg 0x0B01 5 ([1, 0, 1] ++ List.replicate 13 0) : List Byte), (let s : State := Tests.work (96 * 2 ^ 64); let s : State := { s with sec := { s.sec with owner := some Laws.key } }; s), 
    Tests.executing (by decide +kernel),
    by decide +kernel,
    by rw [Laws.pkg_length]; rfl,
    Laws.pkg_head _ _ _ (by decide +kernel),
    by rw [Laws.zero_from _ _ _ _ _ (by decide) (by decide)]; decide +kernel,
    by rw [Laws.field_from _ _ _ _ _ (by decide)]; decide +kernel,
    by rw [Laws.field_from _ _ _ _ _ (by decide)]; decide +kernel,
    by rw [Laws.zero_from _ _ _ _ _ (by decide) (by decide)]; decide +kernel,
    Laws.pkg_signed _ _ _,
    by rw [Laws.pkg_seq]; decide +kernel⟩,
   ⟨Tests.cmd (96 * 2 ^ 64), Tests.flight (96 * 2 ^ 64), (Laws.pkg 0x0B01 5 ([1, 0, 1] ++ List.replicate 13 0) : List Byte), (let s : State := Tests.work (96 * 2 ^ 64); let s : State := { s with sec := { s.sec with owner := some Laws.key } }; let s : State := { s with pctl := { s.pctl with dbgSeq := 5 } }; s), 
    Tests.executing (by decide +kernel),
    by decide +kernel,
    by rw [Laws.pkg_length]; rfl,
    Laws.pkg_head _ _ _ (by decide +kernel),
    by rw [Laws.zero_from _ _ _ _ _ (by decide) (by decide)]; decide +kernel,
    by rw [Laws.field_from _ _ _ _ _ (by decide)]; decide +kernel,
    by rw [Laws.field_from _ _ _ _ _ (by decide)]; decide +kernel,
    by rw [Laws.zero_from _ _ _ _ _ (by decide) (by decide)]; decide +kernel,
    Laws.pkg_signed _ _ _,
    by rw [Laws.pkg_seq]; decide +kernel⟩,
   ⟨(let s : State := Tests.withYard Tests.up; let s : State := { s with pctl := { s.pctl with unlocked := 1 } }; s), 
    by decide +kernel,
    by decide +kernel⟩,
   ⟨(let s : State := Tests.up; let s : State := { s with pctl.unlocked := 0 }; s), 
    by decide +kernel⟩⟩

/-- Witnesses of the hypotheses of `PowerRequestsAndRunLevels`. -/
theorem witness_PowerRequestsAndRunLevels :
    (∃ (c : Cmd) (f : Flight) (s : State), (Executing s c f) ∧ (opByte c 0 ≤ 1) ∧ (s.pwr.phase = 0) ∧ (s.pwr.levelBusy = false) ∧ (s.pwr.wake = none) ∧ (s.pwr.st = .run ∨ s.pwr.st = .idle)) ∧
    (∃ (c : Cmd) (f : Flight) (s : State), (Executing s c f) ∧ (4 ≤ opByte c 0)) ∧
    (∃ (c : Cmd) (f : Flight) (s : State), (Executing s c f) ∧ (opByte c 0 ≤ 3) ∧ (s.pwr.phase = 0) ∧ (s.pwr.levelBusy = false) ∧ (s.pwr.wake = none) ∧ (s.pwr.st = .run ∨ s.pwr.st = .idle) ∧ (opByte c 0 = s.pwr.level.toNat)) ∧
    (∃ (c : Cmd) (f : Flight) (s : State), (Executing s c f) ∧ (opByte c 0 ≤ 3) ∧ (s.pwr.phase = 0) ∧ (s.pwr.levelBusy = false) ∧ (s.pwr.wake = none) ∧ (s.pwr.st = .run ∨ s.pwr.st = .idle) ∧ (opByte c 0 < s.pwr.level.toNat)) ∧
    (∃ (c : Cmd) (f : Flight) (s : State), (Executing s c f) ∧ (opByte c 0 ≤ 3) ∧ (s.pwr.phase = 0) ∧ (s.pwr.levelBusy = false) ∧ (s.pwr.wake = none) ∧ (s.pwr.st = .run ∨ s.pwr.st = .idle) ∧ (s.pwr.level.toNat < opByte c 0)) ∧
    (∃ (c : Cmd) (f : Flight) (l : BitVec 2) (w : BitVec 16) (s : State), (s.pwr.pmbus = some (.levelUp l)) ∧ (w &&& 0xE87E = 0) ∧ (s.pwr.levelCmd = some c) ∧ (s.pwr.pend = none) ∧ (Executing s c f)) ∧
    (∃ (w : BitVec 16) (s : State), (s.pwr.pmbus = none ∨ w &&& 0xE87E ≠ 0)) ∧
    (∃ (l : BitVec 2) (w : BitVec 16) (s : State), (s.pwr.pmbus = some (.levelUp l)) ∧ (s.pwr.retries < 2)) ∧
    (∃ (c : Cmd) (f : Flight) (l : BitVec 2) (w : BitVec 16) (s : State), (s.pwr.pmbus = some (.levelUp l)) ∧ (s.pwr.retries = 2) ∧ (s.pwr.levelCmd = some c) ∧ (Executing s c f)) ∧
    (∃ (v : Word) (s : State), (v.extractLsb' 24 8 = 0x5A) ∧ (s.pwr.phase = 0) ∧ (s.pwr.levelBusy = false) ∧ (s.pwr.wake = none) ∧ (s.pwr.st = .run) ∧ (v.getLsbD 8 = false) ∧ (v.extractLsb' 0 2 = 1)) ∧
    (∃ (v : Word) (s : State), (v.extractLsb' 24 8 = 0x5A) ∧ (s.pwr.phase = 0) ∧ (s.pwr.levelBusy = false) ∧ (s.pwr.wake = none) ∧ (s.pwr.st = .run) ∧ (v.getLsbD 8 = true) ∧ (v.extractLsb' 4 2 < s.pwr.level)) ∧
    (∃ (core : Fin 16) (v : Word) (s : State), (v.extractLsb' 24 8 ≠ 0x5A ∨ 2 ≤ core.val)) ∧
    (∃ (s : State), (s.pwr.st = .run ∨ s.pwr.st = .idle) ∧ (s.pwr.wake = none) ∧ (s.pwr.held = false) ∧ (s.isl.coreA = true)) ∧
    (∃ (s : State), (s.pwr.held = true)) ∧
    (∃ (s : State), (s.pwr.held = true ∨ s.pwr.st = .stabled)) :=
  ⟨⟨Tests.cmd ((1)), Tests.flight ((1)), (let s : State := Tests.live ((1)); let s : State := { s with pwr.phase := 0 }; let s : State := { s with pwr.levelBusy := false }; let s : State := { s with pwr.wake := none }; let s : State := { s with pwr.st := .run }; s), 
    Tests.executing (by decide +kernel),
    by decide +kernel,
    by decide +kernel,
    by decide +kernel,
    by decide +kernel,
    by decide +kernel⟩,
   ⟨Tests.cmd ((4)), Tests.flight ((4)), (Tests.live ((4))), 
    Tests.executing (by decide +kernel),
    by decide +kernel⟩,
   ⟨Tests.cmd (2), Tests.flight (2), (let s : State := Tests.work (2); let s : State := { s with pwr.phase := 0 }; let s : State := { s with pwr.levelBusy := false }; let s : State := { s with pwr.wake := none }; let s : State := { s with pwr.st := .run }; s), 
    Tests.executing (by decide +kernel),
    by decide +kernel,
    by decide +kernel,
    by decide +kernel,
    by decide +kernel,
    by decide +kernel,
    by decide +kernel⟩,
   ⟨Tests.cmd (1), Tests.flight (1), (let s : State := Tests.work (1); let s : State := { s with pwr.phase := 0 }; let s : State := { s with pwr.levelBusy := false }; let s : State := { s with pwr.wake := none }; let s : State := { s with pwr.st := .run }; s), 
    Tests.executing (by decide +kernel),
    by decide +kernel,
    by decide +kernel,
    by decide +kernel,
    by decide +kernel,
    by decide +kernel,
    by decide +kernel⟩,
   ⟨Tests.cmd (3), Tests.flight (3), (let s : State := Tests.work (3); let s : State := { s with pwr.phase := 0 }; let s : State := { s with pwr.levelBusy := false }; let s : State := { s with pwr.wake := none }; let s : State := { s with pwr.st := .run }; s), 
    Tests.executing (by decide +kernel),
    by decide +kernel,
    by decide +kernel,
    by decide +kernel,
    by decide +kernel,
    by decide +kernel,
    by decide +kernel⟩,
   ⟨Tests.cmd (0), Tests.flight (0), (0 : BitVec 2), (0 : BitVec 16), (let s : State := Tests.live (0); let s : State := { s with pwr.pmbus := some (.levelUp ((0 : BitVec 2))) }; let s : State := { s with pwr.levelCmd := some (Tests.cmd (0)) }; let s : State := { s with pwr.pend := none }; s), 
    by decide +kernel,
    by decide +kernel,
    by decide +kernel,
    by decide +kernel,
    Tests.executing (by decide +kernel)⟩,
   ⟨(0 : BitVec 16), (let s : State := Tests.up; let s : State := { s with pwr.pmbus := none }; s), 
    by decide +kernel⟩,
   ⟨(0 : BitVec 2), (0 : BitVec 16), (let s : State := Tests.up; let s : State := { s with pwr.pmbus := some (.levelUp ((0 : BitVec 2))) }; s), 
    by decide +kernel,
    by decide +kernel⟩,
   ⟨Tests.cmd (0), Tests.flight (0), (0 : BitVec 2), (0 : BitVec 16), (let s : State := Tests.live (0); let s : State := { s with pwr.pmbus := some (.levelUp ((0 : BitVec 2))) }; let s : State := { s with pwr.retries := 2 }; let s : State := { s with pwr.levelCmd := some (Tests.cmd (0)) }; s), 
    by decide +kernel,
    by decide +kernel,
    by decide +kernel,
    Tests.executing (by decide +kernel)⟩,
   ⟨(0x5A000001 : Word), (let s : State := Tests.withYard Tests.up; let s : State := { s with pwr.phase := 0 }; let s : State := { s with pwr.levelBusy := false }; let s : State := { s with pwr.wake := none }; let s : State := { s with pwr.st := .run }; s), 
    by decide +kernel,
    by decide +kernel,
    by decide +kernel,
    by decide +kernel,
    by decide +kernel,
    by decide +kernel,
    by decide +kernel⟩,
   ⟨(0x5A000110 : Word), (let s : State := Tests.withYard Tests.up; let s : State := { s with pwr.phase := 0 }; let s : State := { s with pwr.levelBusy := false }; let s : State := { s with pwr.wake := none }; let s : State := { s with pwr.st := .run }; s), 
    by decide +kernel,
    by decide +kernel,
    by decide +kernel,
    by decide +kernel,
    by decide +kernel,
    by decide +kernel,
    by decide +kernel⟩,
   ⟨(1 : Fin 16), (0 : Word), (Tests.up), 
    by decide +kernel⟩,
   ⟨(let s : State := Tests.up; let s : State := { s with pwr.st := .run }; let s : State := { s with pwr.wake := none }; let s : State := { s with pwr.held := false }; let s : State := { s with isl.coreA := true }; s), 
    by decide +kernel,
    by decide +kernel,
    by decide +kernel,
    by decide +kernel⟩,
   ⟨(let s : State := Tests.up; let s : State := { s with pwr.held := true }; s), 
    by decide +kernel⟩,
   ⟨(let s : State := Tests.up; let s : State := { s with pwr.held := true }; s), 
    by decide +kernel⟩⟩

/-- Witnesses of the hypotheses of `EntriesRefusersAndAccounting`. -/
theorem witness_EntriesRefusersAndAccounting :
    (∃ (c : Cmd) (f : Flight) (s : State), (Executing s c f) ∧ (opByte c 0 = 2) ∧ (s.pwr.phase = 0) ∧ (s.pwr.levelBusy = false) ∧ (s.pwr.wake = none) ∧ (s.pwr.st = .run ∨ s.pwr.st = .idle) ∧ (s.refuser false 0 = none)) ∧
    (∃ (c : Cmd) (f : Flight) (s : State) (n : Nat), (Executing s c f) ∧ (opByte c 0 = 2) ∧ (s.pwr.phase = 0) ∧ (s.pwr.levelBusy = false) ∧ (s.pwr.wake = none) ∧ (s.pwr.st = .run ∨ s.pwr.st = .idle) ∧ (s.refuser false 0 = some n)) ∧
    (∃ (s : State) (b : Bool) (n : Nat), (∃ i, (s.strs.at i).st ≠ .opened ∧ (s.strs.at i).st ≠ .welded)) ∧
    (∃ (s : State) (b : Bool) (n : Nat), (∀ i, (s.strs.at i).st = .opened ∨ (s.strs.at i).st = .welded) ∧ (s.unfetched = false) ∧ (s.pctl.attached = true)) ∧
    (∃ (s : State) (b : Bool) (n : Nat), (∀ i, (s.strs.at i).st = .opened ∨ (s.strs.at i).st = .welded) ∧ (s.unfetched = false) ∧ (s.pctl.attached = false) ∧ (s.therm.warn = true ∨ 420 ≤ s.therm.tMax)) ∧
    (∃ (s : State) (b : Bool) (n : Nat), (∀ i, (s.strs.at i).st = .opened ∨ (s.strs.at i).st = .welded) ∧ (s.unfetched = false) ∧ (s.pctl.attached = false) ∧ (s.therm.warn = false) ∧ (s.therm.tMax < 420) ∧ (s.pwr.veto = true)) ∧
    (∃ (s : State) (b : Bool) (n : Nat), (∀ i, (s.strs.at i).st = .opened ∨ (s.strs.at i).st = .welded) ∧ (s.unfetched = false) ∧ (s.pctl.attached = false) ∧ (s.therm.warn = false) ∧ (s.therm.tMax < 420) ∧ (s.pwr.veto = false)) ∧
    (∃ (s : State), (s.pwr.phase = 1) ∧ (s.stillExecuting = false) ∧ (s.pwr.latched = none) ∧ (s.pwr.pend = none) ∧ (s.refuser (s.pwr.target == .stabled) 1 = none)) ∧
    (∃ (c : Cmd) (f : Flight) (q : PwrReq) (src : BitVec 4) (s : State), (s.pwr.phase = 1) ∧ (s.stillExecuting = false) ∧ (s.pwr.latched = some src) ∧ (s.pwr.entry = some q) ∧ (q.cmd = some c) ∧ (s.pwr.joined = []) ∧ (s.pwr.pend = none) ∧ (Executing s c f)) ∧
    (∃ (s : State), (s.pwr.phase = 1) ∧ (s.stillExecuting = true)) ∧
    (∃ (s : State), (s.pwr.phase = 4) ∧ (s.pwr.target = .stabled) ∧ (s.pwr.latched = none) ∧ (s.pwr.pend = none) ∧ (s.refuser true 4 = none)) ∧
    (∃ (c : Cmd) (f : Flight) (q : PwrReq) (s : State), (s.pwr.phase = 1) ∧ (s.stillExecuting = true) ∧ (s.pwr.phaseAt + 50 * ticksPerMs ≤ s.now) ∧ (s.pwr.entry = some q) ∧ (q.cmd = some c) ∧ (s.pwr.joined = []) ∧ (s.pwr.pend = none) ∧ (Executing s c f)) ∧
    (∃ (why : EntryTimeout) (s : State), (s.pwr.phase = 0)) ∧
    (∃ (c : Cmd) (f : Flight) (s : State), (Executing s c f) ∧ (opField c 8 8 % 16 = 0)) ∧
    (∃ (s : State), (s.ret.creditAt + 8000 ≤ s.oph)) ∧
    (∃ (s : State), (s.oph < s.ret.creditAt + 8000)) :=
  ⟨⟨Tests.cmd ((2)), Tests.flight ((2)), (let s : State := Tests.live ((2)); let s : State := { s with pwr.phase := 0 }; let s : State := { s with pwr.levelBusy := false }; let s : State := { s with pwr.wake := none }; let s : State := { s with pwr.st := .run }; s), 
    Tests.executing (by decide +kernel),
    by decide +kernel,
    by decide +kernel,
    by decide +kernel,
    by decide +kernel,
    by decide +kernel,
    by decide +kernel⟩,
   ⟨Tests.cmd (2), Tests.flight (2), (let s : State := Tests.work (2); let s : State := { s with pwr.phase := 0 }; let s : State := { s with pwr.levelBusy := false }; let s : State := { s with pwr.wake := none }; let s : State := { s with pwr.st := .run }; let s : State := { s with strs := s.strs.upd 1 (fun zz => { zz with st := .closed }) }; s), (1 : Nat), 
    Tests.executing (by decide +kernel),
    by decide +kernel,
    by decide +kernel,
    by decide +kernel,
    by decide +kernel,
    by decide +kernel,
    by decide +kernel⟩,
   ⟨(let s : State := Tests.withYard Tests.up; let s : State := { s with strs := s.strs.upd 1 (fun zz => { zz with st := .closed }) }; s), (true : Bool), (0 : Nat), 
    by decide +kernel⟩,
   ⟨(let s : State := Tests.withYard Tests.up; let s : State := { s with pctl.attached := true }; s), (true : Bool), (0 : Nat), 
    by decide +kernel,
    by decide +kernel,
    by decide +kernel⟩,
   ⟨(let s : State := Tests.withYard Tests.up; let s : State := { s with pctl.attached := false }; let s : State := { s with therm.warn := true }; s), (true : Bool), (0 : Nat), 
    by decide +kernel,
    by decide +kernel,
    by decide +kernel,
    by decide +kernel⟩,
   ⟨(let s : State := Tests.withYard Tests.up; let s : State := { s with pctl.attached := false }; let s : State := { s with therm.warn := false }; let s : State := { s with pwr.veto := true }; s), (true : Bool), (0 : Nat), 
    by decide +kernel,
    by decide +kernel,
    by decide +kernel,
    by decide +kernel,
    by decide +kernel,
    by decide +kernel⟩,
   ⟨(let s : State := Tests.withYard Tests.up; let s : State := { s with pctl.attached := false }; let s : State := { s with therm.warn := false }; let s : State := { s with pwr.veto := false }; s), (true : Bool), (0 : Nat), 
    by decide +kernel,
    by decide +kernel,
    by decide +kernel,
    by decide +kernel,
    by decide +kernel,
    by decide +kernel⟩,
   ⟨(let s : State := Tests.up; let s : State := { s with pwr.phase := 1 }; let s : State := { s with pwr.latched := none }; let s : State := { s with pwr.pend := none }; s), 
    by decide +kernel,
    by decide +kernel,
    by decide +kernel,
    by decide +kernel,
    by decide +kernel⟩,
   ⟨Tests.cmd (0), Tests.flight (0), ({ ({ level := false, val := 2, wakeEn := 0, cmd := none } : PwrReq) with cmd := some (Tests.cmd (0)) } : PwrReq), (0 : BitVec 4), (let s : State := Tests.live (0); let s : State := { s with pwr.phase := 1 }; let s : State := { s with pwr.latched := some ((0 : BitVec 4)) }; let s : State := { s with pwr.entry := some (({ ({ level := false, val := 2, wakeEn := 0, cmd := none } : PwrReq) with cmd := some (Tests.cmd (0)) } : PwrReq)) }; let s : State := { s with pwr.joined := [] }; let s : State := { s with pwr.pend := none }; s), 
    by decide +kernel,
    by decide +kernel,
    by decide +kernel,
    by decide +kernel,
    by decide +kernel,
    by decide +kernel,
    by decide +kernel,
    Tests.executing (by decide +kernel)⟩,
   ⟨(let s : State := Tests.withYard Tests.up; let s : State := { s with pwr.phase := 1 }; let s : State := { s with hif := { s.hif with issued := 1, flights := [Tests.flight 0] } }; s), 
    by decide +kernel,
    by decide +kernel⟩,
   ⟨(let s : State := Tests.up; let s : State := { s with pwr.phase := 4 }; let s : State := { s with pwr.target := .stabled }; let s : State := { s with pwr.latched := none }; let s : State := { s with pwr.pend := none }; s), 
    by decide +kernel,
    by decide +kernel,
    by decide +kernel,
    by decide +kernel,
    by decide +kernel⟩,
   ⟨Tests.cmd (0), Tests.flight (0), ({ level := false, val := 2, wakeEn := 0, cmd := some (Tests.cmd 0) } : PwrReq), (let s : State := Tests.work (0); let s : State := { s with pwr.phase := 1 }; let s : State := { s with pwr.entry := some (({ level := false, val := 2, wakeEn := 0, cmd := some (Tests.cmd 0) } : PwrReq)) }; let s : State := { s with pwr.joined := [] }; let s : State := { s with pwr.pend := none }; let s : State := { s with hif := { s.hif with issued := 9, flights := [Tests.flight 0, { Tests.flight 0 with cmd := { Tests.cmd 0 with stamp := 5 } }] } }; s), 
    by decide +kernel,
    by decide +kernel,
    by decide +kernel,
    by decide +kernel,
    by decide +kernel,
    by decide +kernel,
    by decide +kernel,
    Tests.executing (by decide +kernel)⟩,
   ⟨(.command : EntryTimeout), (let s : State := Tests.up; let s : State := { s with pwr.phase := 0 }; s), 
    by decide +kernel⟩,
   ⟨Tests.cmd ((0) * 2 ^ 64), Tests.flight ((0) * 2 ^ 64), (Tests.live ((0) * 2 ^ 64)), 
    Tests.executing (by decide +kernel),
    by decide +kernel⟩,
   ⟨(Tests.up), 
    by decide +kernel⟩,
   ⟨(let s : State := Tests.withYard Tests.up; let s : State := { s with ret := { s.ret with creditAt := 4000000000 } }; s), 
    by decide +kernel⟩⟩

/-- Witnesses of the hypotheses of `WakesAndRestoration`. -/
theorem witness_WakesAndRestoration :
    (∃ (s : State), (s.therm.shutDown = false) ∧ (s.pwr.wake = none) ∧ (s.pwr.phase = 0) ∧ (s.pwr.st = .rest)) ∧
    (∃ (src : WakeSrc) (s : State), (s.therm.shutDown = false) ∧ (s.pwr.wake = none) ∧ (s.pwr.phase = 0) ∧ (s.pwr.st = .stabled) ∧ (s.pwr.wakeEn = 0x7F) ∧ (src ≠ .pcie) ∧ (src ≠ .safetyInput)) ∧
    (∃ (n : Fin 8) (s : State), (s.therm.shutDown = false) ∧ (s.pwr.wake = none) ∧ (s.pwr.phase = 2) ∧ (s.pwr.latched = none) ∧ ((s.halter.cfg.sin.at n).role ≠ 0)) ∧
    (∃ (src : WakeSrc) (s : State), (s.pwr.wake = none) ∧ (s.pwr.phase = 0) ∧ (s.pwr.st = .run ∨ s.pwr.st = .idle)) ∧
    (∃ (s : State), (s.pwr.wakeEn.getLsbD 2 = false)) ∧
    (∃ (k : Wake) (ok : Bool) (code : BitVec 8) (s : State), (s.pwr.wake = some k) ∧ (k.step = 2)) ∧
    (∃ (k : Wake) (code : BitVec 8) (s : State), (s.pwr.wake = some k) ∧ (k.step = 3) ∧ (k.boot = false) ∧ (k.check = false) ∧ (s.pwr.st = .stabled) ∧ (s.ret.imgValid = true)) ∧
    (∃ (k : Wake) (ok : Bool) (code : BitVec 8) (s : State), (s.pwr.wake = some k) ∧ (k.step = 3) ∧ (k.boot = false) ∧ (s.pwr.st = .stabled) ∧ (ok = false ∨ s.ret.imgValid = false)) ∧
    (∃ (k : Wake) (c : Cmd) (f : Flight) (q : PwrReq) (s : State), (s.pwr.wake = some k) ∧ (k.step = 4) ∧ (k.boot = false) ∧ (s.pwr.st = .rest) ∧ (s.pwr.entry = some q) ∧ (q.cmd = some c) ∧ (s.pwr.joined = []) ∧ (s.pwr.pend = none) ∧ (Executing s c f)) ∧
    (∃ (k : Wake) (code : BitVec 8) (s : State), (s.pwr.wake = some k) ∧ (k.step = 4) ∧ (k.boot = false) ∧ (s.pwr.st = .stabled) ∧ (s.pwr.pend = none)) ∧
    (∃ (k : Wake) (s : State), (s.pwr.wake = some k) ∧ (k.step = 0) ∧ (k.src ≠ 9) ∧ (k.check = false) ∧ (s.pwr.wakeFails = 1) ∧ (s.pwr.failAt + 32768 ≤ s.clk.rtcTicks)) ∧
    (∃ (b : Fin 1536) (s : State), (s.isl.mem = true) ∧ (s.pwr.st = .run) ∧ (s.ret.pending = true) ∧ (b.val ∉ s.ret.restored)) ∧
    (∃ (b : Fin 1536) (s : State), (s.ret.pending = false ∨ b.val ∈ s.ret.restored)) ∧
    (∃ (s : State), (s.pwr.st = .run ∨ s.pwr.st = .idle) ∧ (s.isl.mem = true) ∧ (s.therm.shutDown = false) ∧ (s.pwr.held = false)) ∧
    (∃ (s : State) (p : Fin 4), (s.pwr.st = .run ∨ s.pwr.st = .idle) ∧ (s.isl.mem = true) ∧ (s.therm.shutDown = false) ∧ (s.pwr.held = false) ∧ (s.isl.port.at p = false)) ∧
    (∃ (s : State) (p : Fin 4), (s.pwr.st = .run ∨ s.pwr.st = .idle) ∧ (s.isl.mem = true) ∧ (s.therm.shutDown = false) ∧ (s.pwr.held = false) ∧ (s.isl.port.at p = true)) ∧
    (∃ (i : Island) (s : State), (s.pwr.st = .rest ∨ s.pwr.st = .stabled ∨ s.pwr.held = true)) ∧
    (∃ (n : Fin 8) (r : BitVec 16) (s : State), (s.pwr.st = .stabled) ∧ (s.therm.shutDown = false) ∧ (s.pwr.wake = none) ∧ (s.pwr.phase = 0) ∧ ((s.halter.cfg.sin.at n).role ≠ 0) ∧ (r.getLsbD (2 * n.val) ≠ s.pwr.sinAt5.getLsbD (2 * n.val))) ∧
    (∃ (s : State), (s.pwr.st = .stabled)) :=
  ⟨⟨(let s : State := Tests.up; let s : State := { s with therm.shutDown := false }; let s : State := { s with pwr.wake := none }; let s : State := { s with pwr.phase := 0 }; let s : State := { s with pwr.st := .rest }; s), 
    by decide +kernel,
    by decide +kernel,
    by decide +kernel,
    by decide +kernel⟩,
   ⟨(.wake0 : WakeSrc), (let s : State := Tests.up; let s : State := { s with therm.shutDown := false }; let s : State := { s with pwr.wake := none }; let s : State := { s with pwr.phase := 0 }; let s : State := { s with pwr.st := .stabled }; let s : State := { s with pwr.wakeEn := 0x7F }; s), 
    by decide +kernel,
    by decide +kernel,
    by decide +kernel,
    by decide +kernel,
    by decide +kernel,
    by decide +kernel,
    by decide +kernel⟩,
   ⟨(1 : Fin 8), (let s : State := Tests.withYard Tests.up; let s : State := { s with therm.shutDown := false }; let s : State := { s with pwr.wake := none }; let s : State := { s with pwr.phase := 2 }; let s : State := { s with pwr.latched := none }; let s : State := { s with halter := { s.halter with cfg := { s.halter.cfg with sin := s.halter.cfg.sin.upd ((1 : Fin 8)) (fun x => { x with role := 1 }) } } }; s), 
    by decide +kernel,
    by decide +kernel,
    by decide +kernel,
    by decide +kernel,
    by decide +kernel⟩,
   ⟨(.wake0 : WakeSrc), (let s : State := Tests.up; let s : State := { s with pwr.wake := none }; let s : State := { s with pwr.phase := 0 }; let s : State := { s with pwr.st := .run }; s), 
    by decide +kernel,
    by decide +kernel,
    by decide +kernel⟩,
   ⟨(let s : State := Tests.withYard Tests.up; let s : State := { s with pwr := { s.pwr with wakeEn := 0 } }; s), 
    by decide +kernel⟩,
   ⟨({ ({ step := 1, src := 3, check := false, boot := false, loud := true, since := 0 } : Wake) with step := 2 } : Wake), (true : Bool), (0 : BitVec 8), (let s : State := Tests.up; let s : State := { s with pwr.wake := some (({ ({ step := 1, src := 3, check := false, boot := false, loud := true, since := 0 } : Wake) with step := 2 } : Wake)) }; s), 
    by decide +kernel,
    by decide +kernel⟩,
   ⟨({ ({ step := 1, src := 3, check := false, boot := false, loud := true, since := 0 } : Wake) with step := 3, boot := false, check := false } : Wake), (0 : BitVec 8), (let s : State := Tests.up; let s : State := { s with pwr.wake := some (({ ({ step := 1, src := 3, check := false, boot := false, loud := true, since := 0 } : Wake) with step := 3, boot := false, check := false } : Wake)) }; let s : State := { s with pwr.st := .stabled }; let s : State := { s with ret.imgValid := true }; s), 
    by decide +kernel,
    by decide +kernel,
    by decide +kernel,
    by decide +kernel,
    by decide +kernel,
    by decide +kernel⟩,
   ⟨({ ({ step := 1, src := 3, check := false, boot := false, loud := true, since := 0 } : Wake) with step := 3, boot := false } : Wake), (true : Bool), (0 : BitVec 8), (let s : State := Tests.up; let s : State := { s with pwr.wake := some (({ ({ step := 1, src := 3, check := false, boot := false, loud := true, since := 0 } : Wake) with step := 3, boot := false } : Wake)) }; let s : State := { s with pwr.st := .stabled }; s), 
    by decide +kernel,
    by decide +kernel,
    by decide +kernel,
    by decide +kernel,
    by decide +kernel⟩,
   ⟨({ ({ step := 1, src := 3, check := false, boot := false, loud := true, since := 0 } : Wake) with step := 4, boot := false } : Wake), Tests.cmd (0), Tests.flight (0), ({ ({ level := false, val := 2, wakeEn := 0, cmd := none } : PwrReq) with cmd := some (Tests.cmd (0)) } : PwrReq), (let s : State := Tests.live (0); let s : State := { s with pwr.wake := some (({ ({ step := 1, src := 3, check := false, boot := false, loud := true, since := 0 } : Wake) with step := 4, boot := false } : Wake)) }; let s : State := { s with pwr.st := .rest }; let s : State := { s with pwr.entry := some (({ ({ level := false, val := 2, wakeEn := 0, cmd := none } : PwrReq) with cmd := some (Tests.cmd (0)) } : PwrReq)) }; let s : State := { s with pwr.joined := [] }; let s : State := { s with pwr.pend := none }; s), 
    by decide +kernel,
    by decide +kernel,
    by decide +kernel,
    by decide +kernel,
    by decide +kernel,
    by decide +kernel,
    by decide +kernel,
    by decide +kernel,
    Tests.executing (by decide +kernel)⟩,
   ⟨({ ({ step := 1, src := 3, check := false, boot := false, loud := true, since := 0 } : Wake) with step := 4, boot := false } : Wake), (0 : BitVec 8), (let s : State := Tests.up; let s : State := { s with pwr.wake := some (({ ({ step := 1, src := 3, check := false, boot := false, loud := true, since := 0 } : Wake) with step := 4, boot := false } : Wake)) }; let s : State := { s with pwr.st := .stabled }; let s : State := { s with pwr.pend := none }; s), 
    by decide +kernel,
    by decide +kernel,
    by decide +kernel,
    by decide +kernel,
    by decide +kernel⟩,
   ⟨({ ({ step := 1, src := 3, check := false, boot := false, loud := true, since := 0 } : Wake) with step := 0, check := false } : Wake), (let s : State := Tests.up; let s : State := { s with pwr.wake := some (({ ({ step := 1, src := 3, check := false, boot := false, loud := true, since := 0 } : Wake) with step := 0, check := false } : Wake)) }; let s : State := { s with pwr.wakeFails := 1 }; s), 
    by decide +kernel,
    by decide +kernel,
    by decide +kernel,
    by decide +kernel,
    by decide +kernel,
    by decide +kernel⟩,
   ⟨(1 : Fin 1536), (let s : State := Tests.up; let s : State := { s with isl.mem := true }; let s : State := { s with pwr.st := .run }; let s : State := { s with ret.pending := true }; s), 
    by decide +kernel,
    by decide +kernel,
    by decide +kernel,
    by decide +kernel⟩,
   ⟨(1 : Fin 1536), (let s : State := Tests.up; let s : State := { s with ret.pending := false }; s), 
    by decide +kernel⟩,
   ⟨(let s : State := Tests.up; let s : State := { s with pwr.st := .run }; let s : State := { s with isl.mem := true }; let s : State := { s with therm.shutDown := false }; let s : State := { s with pwr.held := false }; s), 
    by decide +kernel,
    by decide +kernel,
    by decide +kernel,
    by decide +kernel⟩,
   ⟨(let s : State := Tests.withYard Tests.up; let s : State := { s with pwr.st := .run }; let s : State := { s with isl.mem := true }; let s : State := { s with therm.shutDown := false }; let s : State := { s with pwr.held := false }; let s : State := { s with isl.port := s.isl.port.put (((1 : Fin 4))) (false) }; s), (1 : Fin 4), 
    by decide +kernel,
    by decide +kernel,
    by decide +kernel,
    by decide +kernel,
    by decide +kernel⟩,
   ⟨(let s : State := Tests.withYard Tests.up; let s : State := { s with pwr.st := .run }; let s : State := { s with isl.mem := true }; let s : State := { s with therm.shutDown := false }; let s : State := { s with pwr.held := false }; let s : State := { s with isl.port := s.isl.port.put (((1 : Fin 4))) (true) }; s), (1 : Fin 4), 
    by decide +kernel,
    by decide +kernel,
    by decide +kernel,
    by decide +kernel,
    by decide +kernel⟩,
   ⟨(.est : Island), (let s : State := Tests.up; let s : State := { s with pwr.st := .rest }; s), 
    by decide +kernel⟩,
   ⟨(1 : Fin 8), (0xFFFF : BitVec 16), (let s : State := Tests.withYard Tests.up; let s : State := { s with pwr.st := .stabled }; let s : State := { s with therm.shutDown := false }; let s : State := { s with pwr.wake := none }; let s : State := { s with pwr.phase := 0 }; let s : State := { s with halter := { s.halter with cfg := { s.halter.cfg with sin := s.halter.cfg.sin.upd ((1 : Fin 8)) (fun x => { x with role := 1 }) } } }; s), 
    by decide +kernel,
    by decide +kernel,
    by decide +kernel,
    by decide +kernel,
    by decide +kernel,
    by decide +kernel⟩,
   ⟨(let s : State := Tests.up; let s : State := { s with pwr.st := .stabled }; s), 
    by decide +kernel⟩⟩

/-- Witnesses of the hypotheses of `SensorsThrottleAndShutDown`. -/
theorem witness_SensorsThrottleAndShutDown :
    (∃ (x : Int) (s : State), (s.sensorsRun = true) ∧ (s.cal.device = none) ∧ (-220 ≤ x) ∧ (x ≤ 700) ∧ (∀ n, (s.therm.sensor.at n).failed = false)) ∧
    (∃ (n : Fin 12) (t0 : Nat) (s : State), (s.sensorsRun = true) ∧ ((s.therm.sensor.at n).failed = false) ∧ ((s.therm.sensor.at n).disSince = some t0) ∧ (t0 + 64000000 ≤ s.now)) ∧
    (∃ (n : Fin 12) (s : State), ((s.therm.sensor.at n).disSince = none) ∧ (-220 ≤ (s.therm.sensor.at n).reading) ∧ ((s.therm.sensor.at n).reading ≤ 700)) ∧
    (∃ (n : Fin 12) (lo : Fin 12) (hi : Fin 12) (s : State), (s.sensorsRun = true) ∧ (lo < hi) ∧ (lo ≠ n) ∧ (hi ≠ n) ∧ (clusterOf lo = clusterOf n) ∧ (clusterOf hi = clusterOf n) ∧ (∀ m, clusterOf m = clusterOf n → (s.therm.sensor.at m).failed = false ∧ (s.therm.sensor.at m).disSince = none)) ∧
    (∃ (n : Fin 12) (m : Fin 12) (s : State), (clusterOf m = clusterOf n) ∧ ((s.therm.sensor.at m).failed = true)) ∧
    (∃ (s : State), (s.sensorsRun = true) ∧ (∀ c, s.therm.failedIn c ≤ 1)) ∧
    (∃ (c : Fin 4) (s : State), (s.sensorsRun = true) ∧ (2 ≤ s.therm.failedIn c)) ∧
    (∃ (n : Fin 12) (s : State), (s.sensorsRun = true) ∧ (s.therm.failedIn (clusterOf n) = 0) ∧ (∀ m, m ≠ n → clusterOf m = clusterOf n → (s.therm.sensor.at m).vote = false)) ∧
    (∃ (n : Fin 12) (s : State) (m : Fin 12), (s.sensorsRun = true) ∧ (s.therm.failedIn (clusterOf n) = 0) ∧ (m ≠ n) ∧ (clusterOf m = clusterOf n) ∧ ((s.therm.sensor.at m).vote = true) ∧ (s.therm.shutDown = false)) ∧
    (∃ (n : Fin 12) (s : State), ((s.therm.sensor.at n).failed = true)) ∧
    (∃ (t0 : Nat) (s : State), (s.therm.shutDown = true) ∧ (s.therm.coolSince = some t0) ∧ (s.now < t0 + 64000000)) ∧
    (∃ (t0 : Nat) (s : State), (s.therm.shutDown = true) ∧ (s.therm.coolSince = some t0) ∧ (t0 + 64000000 ≤ s.now)) :=
  ⟨⟨(0 : Int), (let s : State := Tests.up; let s : State := { s with cal.device := none }; s), 
    by decide +kernel,
    by decide +kernel,
    by decide +kernel,
    by decide +kernel,
    by decide +kernel⟩,
   ⟨(1 : Fin 12), (0 : Nat), (let s : State := Tests.up; let s : State := { s with therm.sensor := s.therm.sensor.upd (((1 : Fin 12))) (fun x => { x with failed := false }) }; let s : State := { s with therm.sensor := s.therm.sensor.upd (((1 : Fin 12))) (fun x => { x with disSince := some ((0 : Nat)) }) }; s), 
    by decide +kernel,
    by decide +kernel,
    by decide +kernel,
    by decide +kernel⟩,
   ⟨(1 : Fin 12), (let s : State := Tests.up; let s : State := { s with therm.sensor := s.therm.sensor.upd (((1 : Fin 12))) (fun x => { x with disSince := none }) }; s), 
    by decide +kernel,
    by decide +kernel,
    by decide +kernel⟩,
   ⟨(1 : Fin 12), (0 : Fin 12), (2 : Fin 12), (Tests.withYard Tests.up), 
    by decide +kernel,
    by decide +kernel,
    by decide +kernel,
    by decide +kernel,
    by decide +kernel,
    by decide +kernel,
    by decide +kernel⟩,
   ⟨(1 : Fin 12), (1 : Fin 12), (let s : State := Tests.up; let s : State := { s with therm.sensor := s.therm.sensor.upd (((1 : Fin 12))) (fun x => { x with failed := true }) }; s), 
    by decide +kernel,
    by decide +kernel⟩,
   ⟨(Tests.up), 
    by decide +kernel,
    by decide +kernel⟩,
   ⟨(0 : Fin 4), (let s : State := Tests.withYard Tests.up; let s : State := { s with therm := { s.therm with sensor := Bank.fill 12 { failed := true } } }; s), 
    by decide +kernel,
    by decide +kernel⟩,
   ⟨(1 : Fin 12), (Tests.up), 
    by decide +kernel,
    by decide +kernel,
    by decide +kernel⟩,
   ⟨(0 : Fin 12), (let s : State := Tests.withYard Tests.up; let s : State := { s with therm.sensor := s.therm.sensor.upd (((1 : Fin 12))) (fun x => { x with vote := true }) }; let s : State := { s with therm.shutDown := false }; s), (1 : Fin 12), 
    by decide +kernel,
    by decide +kernel,
    by decide +kernel,
    by decide +kernel,
    by decide +kernel,
    by decide +kernel⟩,
   ⟨(1 : Fin 12), (let s : State := Tests.up; let s : State := { s with therm.sensor := s.therm.sensor.upd (((1 : Fin 12))) (fun x => { x with failed := true }) }; s), 
    by decide +kernel⟩,
   ⟨(2304000000000 : Nat), (let s : State := Tests.withYard Tests.up; let s : State := { s with therm.shutDown := true }; let s : State := { s with therm.coolSince := some ((2304000000000 : Nat)) }; s), 
    by decide +kernel,
    by decide +kernel,
    by decide +kernel⟩,
   ⟨(0 : Nat), (let s : State := Tests.up; let s : State := { s with therm.shutDown := true }; let s : State := { s with therm.coolSince := some ((0 : Nat)) }; s), 
    by decide +kernel,
    by decide +kernel,
    by decide +kernel⟩⟩

/-- Witnesses of the hypotheses of `RtcAlarmsAndHoursCell`. -/
theorem witness_RtcAlarmsAndHoursCell :
    (∃ (s : State), (s.isl.mem = true) ∧ (s.clk.hoursAt + 60000 ≤ s.oph)) ∧
    (∃ (s : State), (s.oph < s.clk.hoursAt + 60000)) ∧
    (∃ (c : Cmd) (f : Flight) (s : State), (Executing s c f) ∧ (s.pwr.wake = none) ∧ (opByte c 0 = 0)) ∧
    (∃ (c : Cmd) (f : Flight) (s : State), (Executing s c f) ∧ (opByte c 0 = 1) ∧ (opField c 4 4 = 0 ∨ s.rtcNow < opField c 4 4)) ∧
    (∃ (c : Cmd) (f : Flight) (s : State), (Executing s c f) ∧ (opByte c 0 = 1) ∧ (opField c 4 4 ≠ 0) ∧ (opField c 4 4 ≤ s.rtcNow)) ∧
    (∃ (c : Cmd) (f : Flight) (s : State), (Executing s c f) ∧ (opByte c 0 = 2) ∧ (opField c 4 4 = 0 ∨ (10 ≤ opField c 4 4 ∧ opField c 4 4 ≤ 86400))) ∧
    (∃ (c : Cmd) (f : Flight) (s : State), (Executing s c f) ∧ (opByte c 0 = 2) ∧ ((1 ≤ opField c 4 4 ∧ opField c 4 4 ≤ 9) ∨ 86400 < opField c 4 4)) ∧
    (∃ (c : Cmd) (f : Flight) (s : State), (Executing s c f) ∧ (3 ≤ opByte c 0)) ∧
    (∃ (s : State), (s.clk.alarm ≠ 0) ∧ (s.clk.alarm ≤ s.rtcNow) ∧ (s.pwr.st = .run ∨ s.pwr.st = .idle ∨ s.pwr.wakeEn.getLsbD 0 = false) ∧ (s.pwr.wake = none) ∧ (s.pwr.phase = 0)) ∧
    (∃ (s : State), (s.clk.alarm ≠ 0) ∧ (s.clk.alarm ≤ s.rtcNow) ∧ (s.pwr.st = .rest ∨ s.pwr.st = .stabled) ∧ (s.therm.shutDown = false) ∧ (s.pwr.wakeEn.getLsbD 0 = true) ∧ (s.pwr.wake = none) ∧ (s.pwr.phase = 0)) ∧
    (∃ (s : State), (s.clk.alarm = 0 ∨ s.rtcNow < s.clk.alarm)) ∧
    (∃ (s : State), (s.clk.chkS ≠ 0) ∧ (s.clk.chkFrom + s.clk.chkS * 32768 ≤ s.clk.rtcTicks) ∧ (s.pwr.st = .run ∨ s.pwr.st = .idle) ∧ (s.pwr.wake = none) ∧ (s.pwr.phase = 0)) ∧
    (∃ (s : State), (s.clk.chkS ≠ 0) ∧ (s.clk.chkFrom + s.clk.chkS * 32768 ≤ s.clk.rtcTicks) ∧ (s.pwr.st = .rest ∨ s.pwr.st = .stabled) ∧ (s.therm.shutDown = false) ∧ (s.pwr.wakeEn.getLsbD 1 = true) ∧ (s.pwr.wake = none) ∧ (s.pwr.phase = 0)) ∧
    (∃ (s : State), (s.clk.chkS = 0 ∨ s.clk.rtcTicks < s.clk.chkFrom + s.clk.chkS * 32768)) :=
  ⟨⟨(let s : State := Tests.up; let s : State := { s with isl.mem := true }; s), 
    by decide +kernel,
    by decide +kernel⟩,
   ⟨(let s : State := Tests.withYard Tests.up; let s : State := { s with clk := { s.clk with hoursAt := 4000000000 } }; s), 
    by decide +kernel⟩,
   ⟨Tests.cmd ((0)), Tests.flight ((0)), (let s : State := Tests.live ((0)); let s : State := { s with pwr.wake := none }; s), 
    Tests.executing (by decide +kernel),
    by decide +kernel,
    by decide +kernel⟩,
   ⟨Tests.cmd ((1) + (0) * 2 ^ 32), Tests.flight ((1) + (0) * 2 ^ 32), (Tests.live ((1) + (0) * 2 ^ 32)), 
    Tests.executing (by decide +kernel),
    by decide +kernel,
    by decide +kernel⟩,
   ⟨Tests.cmd ((1) + (1) * 2 ^ 32), Tests.flight ((1) + (1) * 2 ^ 32), (Tests.live ((1) + (1) * 2 ^ 32)), 
    Tests.executing (by decide +kernel),
    by decide +kernel,
    by decide +kernel,
    by decide +kernel⟩,
   ⟨Tests.cmd ((2) + (0) * 2 ^ 32), Tests.flight ((2) + (0) * 2 ^ 32), (Tests.live ((2) + (0) * 2 ^ 32)), 
    Tests.executing (by decide +kernel),
    by decide +kernel,
    by decide +kernel⟩,
   ⟨Tests.cmd ((2) + (1) * 2 ^ 32), Tests.flight ((2) + (1) * 2 ^ 32), (Tests.live ((2) + (1) * 2 ^ 32)), 
    Tests.executing (by decide +kernel),
    by decide +kernel,
    by decide +kernel⟩,
   ⟨Tests.cmd ((3)), Tests.flight ((3)), (Tests.live ((3))), 
    Tests.executing (by decide +kernel),
    by decide +kernel⟩,
   ⟨(let s : State := Tests.withYard Tests.up; let s : State := { s with pwr.st := .run }; let s : State := { s with pwr.wake := none }; let s : State := { s with pwr.phase := 0 }; let s : State := { s with clk := { s.clk with alarm := 1 } }; s), 
    by decide +kernel,
    by decide +kernel,
    by decide +kernel,
    by decide +kernel,
    by decide +kernel⟩,
   ⟨(let s : State := Tests.withYard Tests.up; let s : State := { s with pwr.st := .rest }; let s : State := { s with therm.shutDown := false }; let s : State := { s with pwr.wakeEn := BitVec.allOnes _ }; let s : State := { s with pwr.wake := none }; let s : State := { s with pwr.phase := 0 }; let s : State := { s with clk := { s.clk with alarm := 1 } }; s), 
    by decide +kernel,
    by decide +kernel,
    by decide +kernel,
    by decide +kernel,
    by decide +kernel,
    by decide +kernel,
    by decide +kernel⟩,
   ⟨(let s : State := Tests.up; let s : State := { s with clk.alarm := 0 }; s), 
    by decide +kernel⟩,
   ⟨(let s : State := Tests.withYard Tests.up; let s : State := { s with pwr.st := .run }; let s : State := { s with pwr.wake := none }; let s : State := { s with pwr.phase := 0 }; let s : State := { s with clk := { s.clk with chkS := 1 } }; s), 
    by decide +kernel,
    by decide +kernel,
    by decide +kernel,
    by decide +kernel,
    by decide +kernel⟩,
   ⟨(let s : State := Tests.withYard Tests.up; let s : State := { s with pwr.st := .rest }; let s : State := { s with therm.shutDown := false }; let s : State := { s with pwr.wakeEn := BitVec.allOnes _ }; let s : State := { s with pwr.wake := none }; let s : State := { s with pwr.phase := 0 }; let s : State := { s with clk := { s.clk with chkS := 1 } }; s), 
    by decide +kernel,
    by decide +kernel,
    by decide +kernel,
    by decide +kernel,
    by decide +kernel,
    by decide +kernel,
    by decide +kernel⟩,
   ⟨(let s : State := Tests.up; let s : State := { s with clk.chkS := 0 }; s), 
    by decide +kernel⟩⟩

/-- Witnesses of the hypotheses of `ConfigurationQuoteAndOwnerKey`. -/
theorem witness_ConfigurationQuoteAndOwnerKey :
    (∃ (c : Cmd) (f : Flight) (s : State), (Executing s c f) ∧ (opField c 8 8 % 16 = 0)) ∧
    (∃ (c : Cmd) (f : Flight) (pkg : List Byte) (body : List Byte) (seq : Nat) (kind : Nat) (s : State), (Executing s c f) ∧ (opField c 0 8 % 16 = 0) ∧ (opField c 8 4 = 48) ∧ (seq < 2 ^ 32) ∧ (body.length = 8) ∧ (pkg = leBytes 4 0x501 ++ leBytes 4 seq ++ devDigest ++ leBytes 2 1 ++ leBytes 14 0 ++ leBytes 1 kind ++ leBytes 3 0 ++ leBytes 4 8 ++ body) ∧ (kind = 7) ∧ (pwrBodyOk body = true) ∧ (s.sec.cfgSeq.toNat < seq)) ∧
    (∃ (c : Cmd) (f : Flight) (pkg : List Byte) (body : List Byte) (seq : Nat) (kind : Nat) (s : State), (Executing s c f) ∧ (opField c 0 8 % 16 = 0) ∧ (opField c 8 4 = 48) ∧ (seq < 2 ^ 32) ∧ (body.length = 8) ∧ (pkg = leBytes 4 0x501 ++ leBytes 4 seq ++ devDigest ++ leBytes 2 1 ++ leBytes 14 0 ++ leBytes 1 kind ++ leBytes 3 0 ++ leBytes 4 8 ++ body) ∧ (kind = 7) ∧ (pwrBodyOk body = true) ∧ (seq ≤ s.sec.cfgSeq.toNat)) ∧
    (∃ (c : Cmd) (f : Flight) (pkg : List Byte) (body : List Byte) (seq : Nat) (kind : Nat) (s : State), (Executing s c f) ∧ (opField c 0 8 % 16 = 0) ∧ (opField c 8 4 = 48) ∧ (seq < 2 ^ 32) ∧ (body.length = 8) ∧ (pkg = leBytes 4 0x501 ++ leBytes 4 seq ++ devDigest ++ leBytes 2 1 ++ leBytes 14 0 ++ leBytes 1 kind ++ leBytes 3 0 ++ leBytes 4 8 ++ body) ∧ (kind = 7) ∧ (pwrBodyOk body = false)) ∧
    (∃ (c : Cmd) (f : Flight) (pkg : List Byte) (body : List Byte) (seq : Nat) (kind : Nat) (s : State), (Executing s c f) ∧ (opField c 0 8 % 16 = 0) ∧ (opField c 8 4 = 48) ∧ (seq < 2 ^ 32) ∧ (body.length = 8) ∧ (pkg = leBytes 4 0x501 ++ leBytes 4 seq ++ devDigest ++ leBytes 2 1 ++ leBytes 14 0 ++ leBytes 1 kind ++ leBytes 3 0 ++ leBytes 4 8 ++ body) ∧ (kind = 0 ∨ (10 ≤ kind ∧ kind < 256))) ∧
    (∃ (c : Cmd) (f : Flight) (pkg : List Byte) (body : List Byte) (seq : Nat) (kind : Nat) (s : State), (Executing s c f) ∧ (opField c 0 8 % 16 = 0) ∧ (opField c 8 4 = 48) ∧ (seq < 2 ^ 32) ∧ (body.length = 8) ∧ (pkg = leBytes 4 0x501 ++ leBytes 4 seq ++ devDigest ++ leBytes 2 1 ++ leBytes 14 0 ++ leBytes 1 kind ++ leBytes 3 0 ++ leBytes 4 8 ++ body) ∧ (kind = 8) ∧ (body = leBytes 8 1)) ∧
    (∃ (c : Cmd) (f : Flight) (s : State), (Executing s c f) ∧ (opField c 0 8 % 16 = 0)) ∧
    (∃ (c : Cmd) (f : Flight) (pkg : List Byte) (sig : List Byte) (kind : Nat) (seq : Nat) (key : BitVec 256) (s : State), (Executing s c f) ∧ (opField c 0 8 % 16 = 0) ∧ (opField c 8 4 = 112) ∧ (seq < 2 ^ 32) ∧ (sig.length = 64) ∧ (pkg = leBytes 4 kind ++ leBytes 4 seq ++ devDigest ++ leBytes 32 key.toNat ++ sig) ∧ (kind = 0xA01) ∧ (key ≠ 0) ∧ (packageSigned (some key) pkg = true) ∧ (s.sec.ownerSeq.toNat < seq) ∧ (s.sec.owner = none) ∧ (s.halter.key.press.isSome = true)) ∧
    (∃ (c : Cmd) (f : Flight) (pkg : List Byte) (sig : List Byte) (kind : Nat) (seq : Nat) (key : BitVec 256) (s : State), (Executing s c f) ∧ (opField c 0 8 % 16 = 0) ∧ (opField c 8 4 = 112) ∧ (seq < 2 ^ 32) ∧ (sig.length = 64) ∧ (pkg = leBytes 4 kind ++ leBytes 4 seq ++ devDigest ++ leBytes 32 key.toNat ++ sig) ∧ (kind = 0xA01) ∧ (key ≠ 0) ∧ (packageSigned (some key) pkg = true) ∧ (s.sec.ownerSeq.toNat < seq) ∧ (s.sec.owner = none) ∧ (s.halter.key.press = none)) ∧
    (∃ (c : Cmd) (f : Flight) (pkg : List Byte) (sig : List Byte) (kind : Nat) (seq : Nat) (key : BitVec 256) (s : State), (Executing s c f) ∧ (opField c 0 8 % 16 = 0) ∧ (opField c 8 4 = 112) ∧ (seq < 2 ^ 32) ∧ (sig.length = 64) ∧ (pkg = leBytes 4 kind ++ leBytes 4 seq ++ devDigest ++ leBytes 32 key.toNat ++ sig) ∧ (kind = 0xA01) ∧ (key ≠ 0) ∧ (packageSigned (some key) pkg = true) ∧ (s.sec.ownerSeq.toNat < seq) ∧ (s.sec.owner.isSome = true)) ∧
    (∃ (c : Cmd) (f : Flight) (pkg : List Byte) (sig : List Byte) (kind : Nat) (seq : Nat) (key : BitVec 256) (s : State), (Executing s c f) ∧ (opField c 0 8 % 16 = 0) ∧ (opField c 8 4 = 112) ∧ (seq < 2 ^ 32) ∧ (sig.length = 64) ∧ (pkg = leBytes 4 kind ++ leBytes 4 seq ++ devDigest ++ leBytes 32 key.toNat ++ sig) ∧ (kind = 0xA02) ∧ (key ≠ 0) ∧ (packageSigned s.sec.owner pkg = true) ∧ (s.sec.ownerSeq.toNat < seq)) ∧
    (∃ (c : Cmd) (f : Flight) (pkg : List Byte) (sig : List Byte) (kind : Nat) (seq : Nat) (key : BitVec 256) (s : State), (Executing s c f) ∧ (opField c 0 8 % 16 = 0) ∧ (opField c 8 4 = 112) ∧ (seq < 2 ^ 32) ∧ (sig.length = 64) ∧ (pkg = leBytes 4 kind ++ leBytes 4 seq ++ devDigest ++ leBytes 32 key.toNat ++ sig) ∧ (kind = 0xA02) ∧ (key ≠ 0) ∧ (packageSigned s.sec.owner pkg = false)) ∧
    (∃ (c : Cmd) (f : Flight) (pkg : List Byte) (sig : List Byte) (kind : Nat) (seq : Nat) (key : BitVec 256) (s : State), (Executing s c f) ∧ (opField c 0 8 % 16 = 0) ∧ (opField c 8 4 = 112) ∧ (seq < 2 ^ 32) ∧ (sig.length = 64) ∧ (pkg = leBytes 4 kind ++ leBytes 4 seq ++ devDigest ++ leBytes 32 key.toNat ++ sig) ∧ (kind = 0xA03) ∧ (key ≠ 0) ∧ (s.sec.service = none)) ∧
    (∃ (c : Cmd) (f : Flight) (pkg : List Byte) (sig : List Byte) (kind : Nat) (seq : Nat) (key : BitVec 256) (s : State), (Executing s c f) ∧ (opField c 0 8 % 16 = 0) ∧ (opField c 8 4 = 112) ∧ (seq < 2 ^ 32) ∧ (sig.length = 64) ∧ (pkg = leBytes 4 kind ++ leBytes 4 seq ++ devDigest ++ leBytes 32 key.toNat ++ sig) ∧ (kind ≠ 0xA04) ∧ (kind < 2 ^ 32) ∧ (key = 0)) :=
  ⟨⟨Tests.cmd ((0) * 2 ^ 64), Tests.flight ((0) * 2 ^ 64), (Tests.live ((0) * 2 ^ 64)), 
    Tests.executing (by decide +kernel),
    by decide +kernel⟩,
   ⟨Tests.cmd (48 * 2 ^ 64), Tests.flight (48 * 2 ^ 64), (leBytes 4 0x501 ++ leBytes 4 5 ++ devDigest ++ leBytes 2 1 ++ leBytes 14 0 ++ leBytes 1 7 ++ leBytes 3 0 ++ leBytes 4 8 ++ ([0x20, 0xF4, 0, 0x6F, 250, 0, 0, 0]) : List Byte), ([0x20, 0xF4, 0, 0x6F, 250, 0, 0, 0] : List Byte), (5 : Nat), (7 : Nat), (Tests.work (48 * 2 ^ 64)), 
    Tests.executing (by decide +kernel),
    by decide +kernel,
    by decide +kernel,
    by decide +kernel,
    by decide +kernel,
    rfl,
    by decide +kernel,
    by decide +kernel,
    by decide +kernel⟩,
   ⟨Tests.cmd (48 * 2 ^ 64), Tests.flight (48 * 2 ^ 64), (leBytes 4 0x501 ++ leBytes 4 5 ++ devDigest ++ leBytes 2 1 ++ leBytes 14 0 ++ leBytes 1 7 ++ leBytes 3 0 ++ leBytes 4 8 ++ ([0x20, 0xF4, 0, 0x6F, 250, 0, 0, 0]) : List Byte), ([0x20, 0xF4, 0, 0x6F, 250, 0, 0, 0] : List Byte), (5 : Nat), (7 : Nat), (let s : State := Tests.work (48 * 2 ^ 64); let s : State := { s with sec := { s.sec with cfgSeq := 5 } }; s), 
    Tests.executing (by decide +kernel),
    by decide +kernel,
    by decide +kernel,
    by decide +kernel,
    by decide +kernel,
    rfl,
    by decide +kernel,
    by decide +kernel,
    by decide +kernel⟩,
   ⟨Tests.cmd (48 * 2 ^ 64), Tests.flight (48 * 2 ^ 64), (leBytes 4 0x501 ++ leBytes 4 5 ++ devDigest ++ leBytes 2 1 ++ leBytes 14 0 ++ leBytes 1 7 ++ leBytes 3 0 ++ leBytes 4 8 ++ (List.replicate 8 0) : List Byte), (List.replicate 8 0 : List Byte), (5 : Nat), (7 : Nat), (Tests.work (48 * 2 ^ 64)), 
    Tests.executing (by decide +kernel),
    by decide +kernel,
    by decide +kernel,
    by decide +kernel,
    by decide +kernel,
    rfl,
    by decide +kernel,
    by decide +kernel⟩,
   ⟨Tests.cmd (48 * 2 ^ 64), Tests.flight (48 * 2 ^ 64), (leBytes 4 0x501 ++ leBytes 4 5 ++ devDigest ++ leBytes 2 1 ++ leBytes 14 0 ++ leBytes 1 10 ++ leBytes 3 0 ++ leBytes 4 8 ++ (List.replicate 8 0) : List Byte), (List.replicate 8 0 : List Byte), (5 : Nat), (10 : Nat), (Tests.work (48 * 2 ^ 64)), 
    Tests.executing (by decide +kernel),
    by decide +kernel,
    by decide +kernel,
    by decide +kernel,
    by decide +kernel,
    rfl,
    by decide +kernel⟩,
   ⟨Tests.cmd (48 * 2 ^ 64), Tests.flight (48 * 2 ^ 64), (leBytes 4 0x501 ++ leBytes 4 5 ++ devDigest ++ leBytes 2 1 ++ leBytes 14 0 ++ leBytes 1 8 ++ leBytes 3 0 ++ leBytes 4 8 ++ (leBytes 8 1) : List Byte), (leBytes 8 1 : List Byte), (5 : Nat), (8 : Nat), (Tests.work (48 * 2 ^ 64)), 
    Tests.executing (by decide +kernel),
    by decide +kernel,
    by decide +kernel,
    by decide +kernel,
    by decide +kernel,
    rfl,
    by decide +kernel,
    by decide +kernel⟩,
   ⟨Tests.cmd ((0)), Tests.flight ((0)), (Tests.live ((0))), 
    Tests.executing (by decide +kernel),
    by decide +kernel⟩,
   ⟨Tests.cmd (112 * 2 ^ 64), Tests.flight (112 * 2 ^ 64), (leBytes 4 0xA01 ++ leBytes 4 5 ++ devDigest ++ leBytes 32 (Laws.key : BitVec 256).toNat ++ Laws.sig : List Byte), (Laws.sig : List Byte), (0xA01 : Nat), (5 : Nat), (Laws.key : BitVec 256), (let s : State := Tests.work (112 * 2 ^ 64); let s : State := { s with halter := { s.halter with key := { s.halter.key with press := some 0 } } }; s), 
    Tests.executing (by decide +kernel),
    by decide +kernel,
    by decide +kernel,
    by decide +kernel,
    by decide +kernel,
    rfl,
    by decide +kernel,
    by decide +kernel,
    Laws.pkg_signed _ _ _,
    by decide +kernel,
    by decide +kernel,
    by decide +kernel⟩,
   ⟨Tests.cmd (112 * 2 ^ 64), Tests.flight (112 * 2 ^ 64), (leBytes 4 0xA01 ++ leBytes 4 5 ++ devDigest ++ leBytes 32 (Laws.key : BitVec 256).toNat ++ Laws.sig : List Byte), (Laws.sig : List Byte), (0xA01 : Nat), (5 : Nat), (Laws.key : BitVec 256), (Tests.work (112 * 2 ^ 64)), 
    Tests.executing (by decide +kernel),
    by decide +kernel,
    by decide +kernel,
    by decide +kernel,
    by decide +kernel,
    rfl,
    by decide +kernel,
    by decide +kernel,
    Laws.pkg_signed _ _ _,
    by decide +kernel,
    by decide +kernel,
    by decide +kernel⟩,
   ⟨Tests.cmd (112 * 2 ^ 64), Tests.flight (112 * 2 ^ 64), (leBytes 4 0xA01 ++ leBytes 4 5 ++ devDigest ++ leBytes 32 (Laws.key : BitVec 256).toNat ++ Laws.sig : List Byte), (Laws.sig : List Byte), (0xA01 : Nat), (5 : Nat), (Laws.key : BitVec 256), (let s : State := Tests.work (112 * 2 ^ 64); let s : State := { s with sec := { s.sec with owner := some Laws.key } }; s), 
    Tests.executing (by decide +kernel),
    by decide +kernel,
    by decide +kernel,
    by decide +kernel,
    by decide +kernel,
    rfl,
    by decide +kernel,
    by decide +kernel,
    Laws.pkg_signed _ _ _,
    by decide +kernel,
    by decide +kernel⟩,
   ⟨Tests.cmd (112 * 2 ^ 64), Tests.flight (112 * 2 ^ 64), (leBytes 4 0xA02 ++ leBytes 4 5 ++ devDigest ++ leBytes 32 (Laws.key : BitVec 256).toNat ++ Laws.sig : List Byte), (Laws.sig : List Byte), (0xA02 : Nat), (5 : Nat), (Laws.key : BitVec 256), (let s : State := Tests.work (112 * 2 ^ 64); let s : State := { s with sec := { s.sec with owner := some Laws.key } }; s), 
    Tests.executing (by decide +kernel),
    by decide +kernel,
    by decide +kernel,
    by decide +kernel,
    by decide +kernel,
    rfl,
    by decide +kernel,
    by decide +kernel,
    Laws.pkg_signed _ _ _,
    by decide +kernel⟩,
   ⟨Tests.cmd (112 * 2 ^ 64), Tests.flight (112 * 2 ^ 64), (leBytes 4 0xA02 ++ leBytes 4 5 ++ devDigest ++ leBytes 32 (Laws.key : BitVec 256).toNat ++ Laws.sig : List Byte), (Laws.sig : List Byte), (0xA02 : Nat), (5 : Nat), (Laws.key : BitVec 256), (Tests.work (112 * 2 ^ 64)), 
    Tests.executing (by decide +kernel),
    by decide +kernel,
    by decide +kernel,
    by decide +kernel,
    by decide +kernel,
    rfl,
    by decide +kernel,
    by decide +kernel,
    rfl⟩,
   ⟨Tests.cmd (112 * 2 ^ 64), Tests.flight (112 * 2 ^ 64), (leBytes 4 0xA03 ++ leBytes 4 5 ++ devDigest ++ leBytes 32 (Laws.key : BitVec 256).toNat ++ Laws.sig : List Byte), (Laws.sig : List Byte), (0xA03 : Nat), (5 : Nat), (Laws.key : BitVec 256), (Tests.work (112 * 2 ^ 64)), 
    Tests.executing (by decide +kernel),
    by decide +kernel,
    by decide +kernel,
    by decide +kernel,
    by decide +kernel,
    rfl,
    by decide +kernel,
    by decide +kernel,
    by decide +kernel⟩,
   ⟨Tests.cmd (112 * 2 ^ 64), Tests.flight (112 * 2 ^ 64), (leBytes 4 0xA01 ++ leBytes 4 5 ++ devDigest ++ leBytes 32 (0 : BitVec 256).toNat ++ Laws.sig : List Byte), (Laws.sig : List Byte), (0xA01 : Nat), (5 : Nat), (0 : BitVec 256), (Tests.work (112 * 2 ^ 64)), 
    Tests.executing (by decide +kernel),
    by decide +kernel,
    by decide +kernel,
    by decide +kernel,
    by decide +kernel,
    rfl,
    by decide +kernel,
    by decide +kernel,
    by decide +kernel⟩⟩

/-- Witnesses of the hypotheses of `ImagesAndBoot`. -/
theorem witness_ImagesAndBoot :
    (∃ (c : Cmd) (f : Flight) (data : List Byte) (n : Bool) (s : State), (Executing s c f) ∧ (opByte c 0 = (if n then 1 else 0)) ∧ (opField c 4 4 % 16 = 0) ∧ (16 ≤ opField c 0x10 4) ∧ (opField c 0x10 4 ≤ 65536) ∧ (opField c 0x10 4 % 16 = 0) ∧ (opField c 4 4 + opField c 0x10 4 ≤ 0x600000) ∧ (data.length = opField c 0x10 4) ∧ (s.sec.booted = true ∧ s.sec.running = n)) ∧
    (∃ (c : Cmd) (f : Flight) (data : List Byte) (n : Bool) (s : State), (Executing s c f) ∧ (opByte c 0 = (if n then 1 else 0)) ∧ (opField c 4 4 % 16 = 0) ∧ (16 ≤ opField c 0x10 4) ∧ (opField c 0x10 4 ≤ 65536) ∧ (opField c 0x10 4 % 16 = 0) ∧ (opField c 4 4 + opField c 0x10 4 ≤ 0x600000) ∧ (data.length = opField c 0x10 4) ∧ (s.sec.booted = false ∨ s.sec.running ≠ n)) ∧
    (∃ (c : Cmd) (f : Flight) (data : List Byte) (s : State), (Executing s c f) ∧ (2 ≤ opByte c 0 ∨ opField c 4 4 % 16 ≠ 0 ∨ 65536 < opField c 0x10 4)) ∧
    (∃ (c : Cmd) (f : Flight) (n : Bool) (s : State), (Executing s c f) ∧ (opByte c 0 = (if n then 1 else 0)) ∧ (opByte c 1 ≤ 1) ∧ (field (s.imageHead n) 0 4 ≠ 0x4D58494D)) ∧
    (∃ (c : Cmd) (f : Flight) (u : Option (Fin 0x600000)) (v : Option (Fin 0x600000)) (s : State), (Executing s c f) ∧ (4 ≤ opByte c 1)) ∧
    (∃ (c : Cmd) (f : Flight) (n : Bool) (s : State), (Executing s c f) ∧ (opByte c 1 = 2) ∧ (s.sec.running = n) ∧ (s.sec.rbCount < (s.sec.img.at (if n then 1 else 0)).rbLevel) ∧ (field (s.imageHead (!n)) 0 4 ≠ 0x4D58494D)) ∧
    (∃ (c : Cmd) (f : Flight) (n : Bool) (s : State), (Executing s c f) ∧ (opByte c 1 = 2) ∧ (s.sec.running = n) ∧ ((s.sec.img.at (if n then 1 else 0)).rbLevel ≤ s.sec.rbCount)) ∧
    (∃ (c : Cmd) (f : Flight) (s : State), (Executing s c f) ∧ (opByte c 1 = 3) ∧ (opByte c 0 ≤ 1) ∧ (∃ i, (s.strs.at i).st ≠ .opened)) ∧
    (∃ (c : Cmd) (f : Flight) (s : State), (Executing s c f) ∧ (opByte c 1 = 3) ∧ (opByte c 0 ≤ 1) ∧ (∀ i, (s.strs.at i).st = .opened)) ∧
    (∃ (code : BitVec 8) (u : Option (Fin 0x600000)) (v : Option (Fin 0x600000)) (s : State), (s.sec.bootDue = true) ∧ (s.isl.coreA = true) ∧ (s.isl.mem = true) ∧ (0x20 ≤ code.toNat) ∧ (code.toNat ≤ 0x5F)) ∧
    (∃ (s : State), (s.sec.bootDue = true) ∧ (s.isl.coreA = true) ∧ (s.isl.mem = true) ∧ (∀ n, field (s.imageHead n) 0 4 ≠ 0x4D58494D)) ∧
    (∃ (code : BitVec 8) (u : Option (Fin 0x600000)) (v : Option (Fin 0x600000)) (s : State), (s.sec.bootDue = false)) ∧
    (∃ (c : Cmd) (f : Flight) (u : Option (Fin 0x600000)) (v : Option (Fin 0x600000)) (s : State), (Executing { s with sec := { s.sec with recovery := false } } c f) ∧ (s.sec.recovery = true) ∧ (opByte c 1 = 2)) :=
  ⟨⟨Tests.cmd (1 + 16 * 2 ^ 128), Tests.flight (1 + 16 * 2 ^ 128), (List.replicate 16 0 : List Byte), (true : Bool), (let s : State := Tests.work (1 + 16 * 2 ^ 128); let s : State := { s with sec.booted := true }; let s : State := { s with sec.running := ((true : Bool)) }; let s : State := { s with sec := { s.sec with booted := true, running := true } }; s), 
    Tests.executing (by decide +kernel),
    by decide +kernel,
    by decide +kernel,
    by decide +kernel,
    by decide +kernel,
    by decide +kernel,
    by decide +kernel,
    by decide +kernel,
    by decide +kernel⟩,
   ⟨Tests.cmd (16 * 2 ^ 128), Tests.flight (16 * 2 ^ 128), (List.replicate 16 0 : List Byte), (false : Bool), (let s : State := Tests.work (16 * 2 ^ 128); let s : State := { s with sec.booted := false }; let s : State := { s with sec := { s.sec with booted := true, running := true } }; s), 
    Tests.executing (by decide +kernel),
    by decide +kernel,
    by decide +kernel,
    by decide +kernel,
    by decide +kernel,
    by decide +kernel,
    by decide +kernel,
    by decide +kernel,
    by decide +kernel⟩,
   ⟨Tests.cmd ((2)), Tests.flight ((2)), ([] : List Byte), (Tests.live ((2))), 
    Tests.executing (by decide +kernel),
    by decide +kernel⟩,
   ⟨Tests.cmd (((if ((true : Bool)) then 1 else 0)) + (1) * 2 ^ 8), Tests.flight (((if ((true : Bool)) then 1 else 0)) + (1) * 2 ^ 8), (true : Bool), (Tests.live (((if ((true : Bool)) then 1 else 0)) + (1) * 2 ^ 8)), 
    Tests.executing (by decide +kernel),
    by decide +kernel,
    by decide +kernel,
    by decide +kernel⟩,
   ⟨Tests.cmd ((4) * 2 ^ 8), Tests.flight ((4) * 2 ^ 8), (none : Option (Fin 0x600000)), (none : Option (Fin 0x600000)), (Tests.live ((4) * 2 ^ 8)), 
    Tests.executing (by decide +kernel),
    by decide +kernel⟩,
   ⟨Tests.cmd (2 * 2 ^ 8), Tests.flight (2 * 2 ^ 8), (false : Bool), (let s : State := Tests.work (2 * 2 ^ 8); let s : State := { s with sec.running := ((false : Bool)) }; let s : State := { s with sec := { s.sec with img := Bank.fill 2 { rbLevel := 1 } } }; s), 
    Tests.executing (by decide +kernel),
    by decide +kernel,
    by decide +kernel,
    by decide +kernel,
    by decide +kernel⟩,
   ⟨Tests.cmd ((2) * 2 ^ 8), Tests.flight ((2) * 2 ^ 8), (true : Bool), (let s : State := Tests.live ((2) * 2 ^ 8); let s : State := { s with sec.running := ((true : Bool)) }; s), 
    Tests.executing (by decide +kernel),
    by decide +kernel,
    by decide +kernel,
    by decide +kernel⟩,
   ⟨Tests.cmd ((1) + (3) * 2 ^ 8), Tests.flight ((1) + (3) * 2 ^ 8), (let s : State := Tests.work ((1) + (3) * 2 ^ 8); let s : State := { s with strs := s.strs.upd 1 (fun zz => { zz with st := .closed }) }; s), 
    Tests.executing (by decide +kernel),
    by decide +kernel,
    by decide +kernel,
    by decide +kernel⟩,
   ⟨Tests.cmd ((1) + (3) * 2 ^ 8), Tests.flight ((1) + (3) * 2 ^ 8), (Tests.live ((1) + (3) * 2 ^ 8)), 
    Tests.executing (by decide +kernel),
    by decide +kernel,
    by decide +kernel,
    by decide +kernel⟩,
   ⟨(0x20 : BitVec 8), (none : Option (Fin 0x600000)), (none : Option (Fin 0x600000)), (let s : State := Tests.withYard Tests.up; let s : State := { s with sec.bootDue := true }; let s : State := { s with isl.coreA := true }; let s : State := { s with isl.mem := true }; s), 
    by decide +kernel,
    by decide +kernel,
    by decide +kernel,
    by decide +kernel,
    by decide +kernel⟩,
   ⟨(let s : State := Tests.up; let s : State := { s with sec.bootDue := true }; let s : State := { s with isl.coreA := true }; let s : State := { s with isl.mem := true }; s), 
    by decide +kernel,
    by decide +kernel,
    by decide +kernel,
    by decide +kernel⟩,
   ⟨(0 : BitVec 8), (none : Option (Fin 0x600000)), (none : Option (Fin 0x600000)), (let s : State := Tests.up; let s : State := { s with sec.bootDue := false }; s), 
    by decide +kernel⟩,
   ⟨Tests.cmd (2 * 2 ^ 8), Tests.flight (2 * 2 ^ 8), (none : Option (Fin 0x600000)), (none : Option (Fin 0x600000)), (let s : State := Tests.live (2 * 2 ^ 8); let s : State := { s with sec.recovery := true }; s), 
    Tests.executing (by decide +kernel),
    by decide +kernel,
    by decide +kernel⟩⟩

/-- Witnesses of the hypotheses of `IdentityBlockReads`. -/
theorem witness_IdentityBlockReads : ∃ (s : State) (t : State) (view : View) (off : Nat), (off < 0x1C) :=
  ⟨(Tests.up), (Tests.up), (.host : View), (0 : Nat), 
    by decide +kernel⟩

/-- A step from a state that the invariant admits. -/
theorem witness_EveryStepKeepsMemoryForm :
    ∃ s t : State, step s = .next t ∧ Memory.wf s.mem.sram = true ∧ Memory.wf s.mem.mram = true ∧
      (∀ w ∈ s.mem.queue.all, w.addr % 16 = 0 ∧ w.bytes.length = 16) ∧ ∃ w ∈ t.mem.queue.all, w.bytes.length = 16 :=
  ⟨{ Tests.up with pending := [.hoursCellWrite] }, Tests.after .hoursCellWrite Tests.up, rfl, by decide +kernel, by decide +kernel, by decide +kernel,
    by decide +kernel⟩

/-- A package that sets the first owner key. -/
def Tests.ownerPkg : List Byte := Laws.pkg 0xA01 5 (leBytes 32 1)

/-- A device whose reset key is pressed, with that package in flight. -/
def Tests.pressed : State :=
  { Tests.live (112 * 2 ^ 64) with halter := { State.reset.halter with key := { State.reset.halter.key with press := some 0 } } }

theorem Tests.owner_set :
    (Tests.after (.ownerKey (Tests.cmd (112 * 2 ^ 64)) Tests.ownerPkg) Tests.pressed).sec.owner = some Laws.key := by
  have e : Tests.after (.ownerKey (Tests.cmd (112 * 2 ^ 64)) Tests.ownerPkg) Tests.pressed =
      eventInterrupt Tests.pressed (Tests.pressed.run (Tests.cmd (112 * 2 ^ 64)) false (ownerKey (Tests.cmd (112 * 2 ^ 64)) Tests.ownerPkg)) := rfl
  have hk : field Tests.ownerPkg 0 4 = 0xA01 := by rw [Tests.ownerPkg, Laws.pkg_kind]; decide +kernel
  have hs : field Tests.ownerPkg 4 4 = 5 := by rw [Tests.ownerPkg, Laws.pkg_seq]; decide +kernel
  have hn : (BitVec.ofNat 256 (field Tests.ownerPkg 0x10 32)) = Laws.key := by
    rw [Tests.ownerPkg, Laws.field_from _ _ _ _ _ (by decide)]; decide +kernel
  have hl : Tests.ownerPkg.length = 112 := by rw [Tests.ownerPkg, Laws.pkg_length]; rfl
  have hh : packageHead 0xA01 Tests.ownerPkg = true := Laws.pkg_head _ _ _ (by decide +kernel)
  have hg : packageSigned (some Laws.key) Tests.ownerPkg = true := Laws.pkg_signed _ _ _
  have w : Tests.pressed.waits (Tests.cmd (112 * 2 ^ 64)) = false := by decide +kernel
  rw [e, State.run, w, ownerKey]
  simp only [hk, hs, hn, hl, hh, State.ownerVerifier, if_true, hg]
  decide +kernel

theorem Tests.step_after {c : Instr} {s : State} (hs : s.pending = []) (h : ∃ t, exec c s = .next t) :
    step { s with pending := [c] } = .next (Tests.after c s) := by
  obtain ⟨t, h⟩ := h
  have e : ({ s with pending := [] } : State) = s := by rw [← hs]
  simp only [step, Tests.after, e, h]

/-- A device whose image A lies above the rollback count. -/
def Tests.raise : State := { Tests.live (2 * 2 ^ 8) with sec := { Tests.up.sec with img := Bank.fill 2 { rbLevel := 1 } } }

theorem Tests.count_raised : (Tests.after (.imageActivate (Tests.cmd (2 * 2 ^ 8)) none none) Tests.raise).sec.rbCount = 1 := by decide +kernel

/-- Each kind of change of the tack store happens: a rollback count that rises, and a first owner key. -/
theorem witness_TackStoreChangesOnlyAsStated :
    (∃ s t : State, step s = .next t ∧ s.sec.owner.isSome = true) ∧
    (∃ s t : State, step s = .next t ∧ (t.sec.rbCount ≠ s.sec.rbCount ∨ t.sec.bootSel ≠ s.sec.bootSel)) ∧
    ∃ s t : State, step s = .next t ∧ (t.sec.owner ≠ s.sec.owner ∨ t.sec.service ≠ s.sec.service ∨ t.sec.ownerSeq ≠ s.sec.ownerSeq) :=
  ⟨⟨{ State.reset with sec := { State.reset.sec with owner := some Laws.key } }, _, rfl, rfl⟩,
    ⟨_, _, Tests.step_after (c := .imageActivate (Tests.cmd (2 * 2 ^ 8)) none none) (s := Tests.raise) rfl ⟨_, rfl⟩,
      Or.inl (by rw [Tests.count_raised]; decide +kernel)⟩,
    ⟨_, _, Tests.step_after (c := .ownerKey (Tests.cmd (112 * 2 ^ 64)) Tests.ownerPkg) (s := Tests.pressed) rfl ⟨_, rfl⟩,
      Or.inl (by rw [Tests.owner_set]; decide +kernel)⟩⟩

/-- Every command but two leaves the count of power cycles, and a power-on with a valid copy of the hours cell raises it. -/
theorem witness_PowerCycleCountChangesOnlyAtPowerOn :
    (∃ (c : Instr) (rest : List Instr) (s t : State), s.pending = c :: rest ∧ (∀ a b d, c ≠ .aonPowerOn a b d) ∧ c ≠ .aonPowerLoss ∧ step s = .next t) ∧
    (∃ s t : State, s.pending = [] ∧ step s = .next t) ∧
    ∃ (copy : Bool) (o p : Nat) (s : State), s.powerOff.hoursCopy copy = some (o, p) :=
  ⟨⟨.hoursCellWrite, [], { Tests.up with pending := [.hoursCellWrite] }, Tests.after .hoursCellWrite Tests.up, rfl, by simp, by simp, rfl⟩,
    ⟨State.reset, _, rfl, rfl⟩,
    ⟨false, 0, 3, { State.reset with mem := { mram := Memory.writeBytes [] 0x6DF000 (hoursBytes 0 3) } }, by decide +kernel⟩⟩

end Sys2Proof
end

section
/-! SUPPORT. How to show that a command answers a state, and what the event interrupt does to it. -/

namespace Sys2Proof.Machine

/-- Nothing that has left the device is taken back when a vector is due. -/
theorem State.out_prefix_sendVector (s : State) (v : Fin 32) : s.out <+: (s.sendVector v).out := by
  unfold State.sendVector
  dsimp only
  split
  · exact List.prefix_refl _
  · exact List.prefix_append _ _

theorem out_prefix_eventInterrupt (b s : State) : s.out <+: (eventInterrupt b s).out := by
  unfold eventInterrupt
  dsimp only
  split
  · exact List.prefix_refl _
  · exact State.out_prefix_sendVector _ _

/-- The event interrupt, as a change of the two fields that it can change. -/
theorem eventInterrupt_eq_with (b s : State) :
    eventInterrupt b s = { s with msix := (eventInterrupt b s).msix, out := (eventInterrupt b s).out } := by
  apply State.ext_fields <;> simp

/-- A command whose meaning is the change from `s` to `u` answers `u` with the event interrupt that the change calls for. -/
theorem answers_of_exec {c : Instr} {s u : State} {P : State → Prop} (hc : exec c s = answer s u)
    (h : P (eventInterrupt s u)) : Answers c s P :=
  ⟨_, hc, h⟩

/-- What a command answers is what its meaning gives, but for the pending bits and for what the event interrupt sends. -/
theorem answers_of_exec_up_to_interrupt {c : Instr} {s u : State} {P : State → Prop} (hc : exec c s = answer s u)
    (h : ∀ t : State, t.misc = u.misc → t.evt = u.evt → u.out <+: t.out → t = { u with msix := t.msix, out := t.out } → P t) :
    Answers c s P :=
  answers_of_exec hc (h _ (by simp only [eventInterrupt_frame]) (by simp only [eventInterrupt_frame])
    (out_prefix_eventInterrupt s u) (eventInterrupt_eq_with s u))

/-- A command that changes no event answers exactly the state that its meaning gives. -/
theorem answers_of_exec_of_evt_eq {c : Instr} {s u : State} {P : State → Prop} (hc : exec c s = answer s u)
    (he : u.evt = s.evt) (h : P u) : Answers c s P := by
  refine answers_of_exec hc ?_
  rwa [eventInterrupt_same (congrArg evtSum he)]

end Sys2Proof.Machine
end

section
/-! SUPPORT. The selectors of a view: what a read, a replacement and a write of them give (00 R12, R13). -/

namespace Sys2Proof.Machine

@[simp] theorem State.selOf_putSel_self (s : State) (view : View) (x : Sel) : (s.putSel view x).selOf view = x := by
  cases view with
  | host => rfl
  | core c => exact Bank.at_put_self _ _ _

/-- The copies of the host and of every core are apart (R13). -/
theorem State.selOf_putSel_of_ne (s : State) {view other : View} (x : Sel) (h : other ≠ view) :
    (s.putSel view x).selOf other = s.selOf other := by
  cases view with
  | host =>
    cases other with
    | host => exact absurd rfl h
    | core d => rfl
  | core c =>
    cases other with
    | host => rfl
    | core d => exact Bank.at_put_of_ne _ _ fun e => h (e ▸ rfl)

/-- Selectors are part of `misc` alone. -/
theorem State.putSel_eq_with (s : State) (view : View) (x : Sel) :
    s.putSel view x = { s with misc := (s.putSel view x).misc } := by
  cases view <;> rfl

theorem State.putSel_evt (s : State) (view : View) (x : Sel) : (s.putSel view x).evt = s.evt := by
  rw [State.putSel_eq_with]

-- A write to each selector. Where the field has as many values as there are members, every value is in range.

theorem Sel.write_ring (x : Sel) (v : Word) : x.write 0x0C00 v = { x with ring := ⟨v.toNat % 16, by omega⟩ } :=
  dif_pos (show v.toNat % 16 < 16 by omega)

theorem Sel.write_stall (x : Sel) (v : Word) : x.write 0x1000 v = { x with stall := ⟨v.toNat % 32, by omega⟩ } :=
  dif_pos (show v.toNat % 32 < 32 by omega)

theorem Sel.write_unit (x : Sel) (v : Word) : x.write 0x1004 v = { x with unit := ⟨v.toNat % 4, by omega⟩ } :=
  dif_pos (show v.toNat % 4 < 4 by omega)

theorem Sel.write_str (x : Sel) (v : Word) : x.write 0x1C00 v = { x with str := ⟨v.toNat % 4, by omega⟩ } :=
  dif_pos (show v.toNat % 4 < 4 by omega)

theorem Sel.write_pair (x : Sel) (v : Word) : x.write 0x3400 v = { x with pair := ⟨v.toNat % 8, by omega⟩ } :=
  dif_pos (show v.toNat % 8 < 8 by omega)

theorem Sel.write_swc (x : Sel) (v : Word) (h : v.toNat % 32 < 24) :
    x.write 0x2000 v = { x with swc := ⟨v.toNat % 32, h⟩ } := dif_pos h

theorem Sel.write_swc_out_of_range (x : Sel) (v : Word) (h : 24 ≤ v.toNat % 32) : x.write 0x2000 v = x :=
  dif_neg (Nat.not_lt.mpr h)

theorem Sel.write_tsens (x : Sel) (v : Word) (h : v.toNat % 16 < 12) :
    x.write 0x0800 v = { x with tsens := ⟨v.toNat % 16, h⟩ } := dif_pos h

theorem Sel.write_tsens_out_of_range (x : Sel) (v : Word) (h : 12 ≤ v.toNat % 16) : x.write 0x0800 v = x :=
  dif_neg (Nat.not_lt.mpr h)

/-- SELECTOR_WRITE answers the state with the selectors of its view written, and sends nothing. -/
theorem answers_selectorWrite {view : View} {off : BitVec 16} {v : Word} {s : State} {P : State → Prop}
    (h : P (s.writeSel view off.toNat v)) : Answers (.selectorWrite view off v) s P :=
  answers_of_exec_of_evt_eq rfl (s.putSel_evt view _) h

/-- After SELECTOR_WRITE a view selects what `Sel.write` says. -/
theorem selectorWrite_selects {view : View} {off : BitVec 16} {v : Word} {s : State} {x : Sel}
    (h : (s.selOf view).write off.toNat v = x) : Answers (.selectorWrite view off v) s fun t => t.selOf view = x :=
  answers_selectorWrite ((s.selOf_putSel_self view _).trans h)

/-- Every selector register reads the selector that the reading view has at its offset. -/
theorem State.readReg_selectors (s : State) (x : Sel) (sh : Shadows) :
    s.readReg x sh 0x0C00 = w32 x.ring.val ∧ s.readReg x sh 0x1000 = w32 x.stall.val ∧
    s.readReg x sh 0x1004 = w32 x.unit.val ∧ s.readReg x sh 0x1C00 = w32 x.str.val ∧
    s.readReg x sh 0x2000 = w32 x.swc.val ∧ s.readReg x sh 0x0800 = w32 x.tsens.val ∧
    s.readReg x sh 0x3400 = w32 x.pair.val := by
  and_intros <;> rfl

/-- Settles O4: a write replaces one selector by `Sel.write`, in the copy of its own view. -/
theorem selectorWritesStayInTheirView : Obligations.SelectorWritesStayInTheirView := by
  unfold Obligations.SelectorWritesStayInTheirView
  refine ⟨fun view v s => selectorWrite_selects (Sel.write_ring _ v), fun view v s => selectorWrite_selects (Sel.write_stall _ v),
    fun view v s => selectorWrite_selects (Sel.write_unit _ v), fun view v s => selectorWrite_selects (Sel.write_str _ v),
    fun view v s => selectorWrite_selects (Sel.write_pair _ v), fun view v s h => selectorWrite_selects (Sel.write_swc _ v h),
    fun view v s h => selectorWrite_selects (Sel.write_swc_out_of_range _ v h),
    fun view v s h => selectorWrite_selects (Sel.write_tsens _ v h),
    fun view v s h => selectorWrite_selects (Sel.write_tsens_out_of_range _ v h),
    fun view s => s.readReg_selectors _ _, fun view other off v s h => answers_selectorWrite ⟨?_, ?_⟩⟩
  · exact s.selOf_putSel_of_ne _ h
  · exact s.putSel_eq_with view _

end Sys2Proof.Machine
end

section
/-! SUPPORT. Accesses that have no effect: recorded for the host, an access fault in a core (00 R8; 01 R25, R28; 19 R474). -/

namespace Sys2Proof.Machine

/-- The KIND of a narrow or unaligned access, as 19 R474 numbers it by the base address register. -/
def narrowKind (bar : Bar) : BitVec 3 := if bar = .bar0 then 0 else 4

/-- `ACC_ERR` after a host access without effect: COUNT saturates, and starts again at 1 where VALID was clear (19 R474). -/
def accErrAfter (s : State) (kind : BitVec 3) (off : BitVec 16) : AccErr :=
  { kind := kind, off := off, count := if s.evt.acc then min 0xFFF (s.misc.accErr.count + 1) else 1 }

theorem satAdd_eq_min (max v n : Nat) : satAdd max v n = min max (v + n) := by
  unfold satAdd
  split <;> omega

theorem State.accError_eq (s : State) (k : AccKind) (off : BitVec 16) :
    s.accError k off.toNat =
      { s with misc := { s.misc with accErr := accErrAfter s k.code off }, evt := { s.evt with acc := true } } := by
  simp [State.accError, accErrAfter, satAdd_eq_min]

/-- A narrow or unaligned host access is recorded, and nothing else changes. -/
theorem State.narrow_host (s : State) (bar : Bar) (off : BitVec 16) :
    s.narrow .host bar off.toNat =
      { s with misc := { s.misc with accErr := accErrAfter s (narrowKind bar) off }, evt := { s.evt with acc := true } } := by
  cases bar <;> exact s.accError_eq _ off

theorem exec_hostNarrowAccess (bar : Bar) (off : BitVec 16) (s : State) :
    exec (.hostNarrowAccess bar off) s = answer s (s.narrow .host bar off.toNat) := rfl

theorem exec_shadowCaptureRead_unaligned {bar : Bar} {off : BitVec 16} (h : off.toNat % 4 ≠ 0) (s : State) :
    exec (.shadowCaptureRead .host bar off) s = answer s ((s.narrow .host bar off.toNat).emit (.busRead 0)) :=
  congrArg (answer s) (if_pos h)

theorem exec_registerWrite_unaligned {view : View} {bar : Bar} {off : BitVec 16} (h : off.toNat % 4 ≠ 0) (v : Word) (s : State) :
    exec (.registerWrite view bar off v) s = answer s (s.narrow view bar off.toNat) :=
  congrArg (answer s) (if_pos h)

theorem exec_accessFault_of_denied {core : Fin 16} {addr : BitVec 32} {write : Bool} (s : State)
    (h : inCoreMap addr.toNat = false ∨ write = true ∧ storeDenied addr.toNat = true) :
    exec (.accessFault core addr write) s = answer s (s.faultCore core) :=
  congrArg (answer s) (if_pos (by simpa using h))

theorem within_eq_true {lo hi v : Nat} : within lo hi v = true ↔ lo ≤ v ∧ v ≤ hi := decide_eq_true_iff

theorem within_eq_false {lo hi v : Nat} : within lo hi v = false ↔ ¬ (lo ≤ v ∧ v ≤ hi) := decide_eq_false_iff_not

/-- The address map of a core is its TCM, shared SRAM, MRAM and the register window (01 R25). -/
theorem inCoreMap_eq_false {addr : Nat} (htcm : 0x20000 ≤ addr) (hsram : ¬ (0x20000000 ≤ addr ∧ addr ≤ 0x203FFFFF))
    (hmram : ¬ (0x40000000 ≤ addr ∧ addr ≤ 0x41FFFFFF)) (hreg : ¬ (0x60000000 ≤ addr ∧ addr ≤ 0x6000FFFF)) :
    inCoreMap addr = false := by
  simp only [inCoreMap, Bool.or_eq_false_iff, within_eq_false, decide_eq_false_iff_not]
  exact ⟨⟨⟨Nat.not_lt.mpr htcm, hsram⟩, hmram⟩, hreg⟩

theorem storeDenied_of_mram {addr : Nat} (hlo : 0x40000000 ≤ addr) (hhi : addr ≤ 0x41FFFFFF) : storeDenied addr = true := by
  rw [storeDenied, within_eq_true.mpr ⟨hlo, hhi⟩, Bool.true_or]

/-- Settles O2: a faulty host access is recorded with the event interrupt, and a faulty core access is `State.faultCore`. -/
theorem faultyAccessesRecordedOrFaulting : Obligations.FaultyAccessesRecordedOrFaulting := by
  unfold Obligations.FaultyAccessesRecordedOrFaulting
  refine ⟨fun bar off s => ?narrow, fun bar off v s h => ⟨?read, ?write⟩, fun core off s => ?coreNarrow,
    fun core addr write s htcm hsram hmram hreg => ?outside, fun core addr s hlo hhi => ?mramStore⟩
  case narrow =>
    refine answers_of_exec_up_to_interrupt (exec_hostNarrowAccess bar off s) fun t hmisc hevt _ hrest => ?_
    rw [State.narrow_host] at hmisc hevt hrest
    exact ⟨hmisc, hevt, by rw [hmisc, hevt]; exact hrest⟩
  case read =>
    refine answers_of_exec_up_to_interrupt (exec_shadowCaptureRead_unaligned h s) fun t hmisc hevt hout _ => ?_
    rw [State.narrow_host] at hmisc hevt hout
    exact ⟨hout, by rw [hmisc]; rfl, by rw [hmisc]; rfl, hevt⟩
  case write =>
    refine answers_of_exec_up_to_interrupt (exec_registerWrite_unaligned h v s) fun t hmisc hevt _ hrest => ?_
    rw [State.narrow_host] at hmisc hevt hrest
    exact ⟨by rw [hmisc]; rfl, by rw [hmisc]; rfl, hevt, by rw [hmisc, hevt]; exact hrest⟩
  case coreNarrow => exact answers_of_exec_of_evt_eq (u := s.faultCore core) rfl rfl rfl
  case outside =>
    exact answers_of_exec_of_evt_eq (exec_accessFault_of_denied s (.inl (inCoreMap_eq_false htcm hsram hmram hreg))) rfl rfl
  case mramStore =>
    exact answers_of_exec_of_evt_eq (exec_accessFault_of_denied s (.inr ⟨rfl, storeDenied_of_mram hlo hhi⟩)) rfl rfl

end Sys2Proof.Machine
end

section
/-! SUPPORT. A command that ends with its completion, and event bits that are set. -/

namespace Sys2Proof.Machine

/-- An answer meets whatever follows from what it meets. -/
theorem Answers.imp {i : Instr} {s : State} {P Q : State → Prop} (h : Answers i s P) (hpq : ∀ t, P t → Q t) : Answers i s Q := by
  obtain ⟨t, ht, hp⟩ := h
  exact ⟨t, ht, hpq t hp⟩

/-- A completion, as a change of the two fields that it can change. -/
theorem State.complete_eq_with (s : State) (c : Cmd) (x : BitVec 8) (r : BitVec 128) :
    s.complete c x r = { s with hif := (s.complete c x r).hif, rings := (s.complete c x r).rings } := by
  apply State.ext_fields <;> simp

/-- A command whose meaning sets no event and ends with its completion answers that completion, and nothing more. -/
theorem answers_of_exec_complete {i : Instr} {s u : State} {c : Cmd} {f : Flight} {x : BitVec 8} {r : BitVec 128}
    (h : Executing s c f) (hi : exec i s = answer s (u.complete c x r)) (hrings : u.rings = s.rings)
    (hhif : u.hif = (s.executing c).hif) (hnow : u.clk.ytime = s.clk.ytime) (hevt : u.evt = s.evt) :
    Answers i s fun t => Completes s t c f x r ∧ t = { u with hif := t.hif, rings := t.rings } := by
  have hsame : eventInterrupt s (u.complete c x r) = u.complete c x r :=
    eventInterrupt_same (congrArg evtSum (by simpa using hevt))
  refine answers_of_exec hi ⟨complete_completes h hrings hhif hnow x r, ?_⟩
  rw [hsame]
  exact u.complete_eq_with c x r

/-- BAD_OPERAND changes nothing but the completion of its command. -/
theorem answers_badOperand {i : Instr} {s : State} {c : Cmd} {f : Flight} (h : Executing s c f)
    (hi : exec i s = answer s ((s.executing c).badOperand c)) :
    Answers i s fun t => Completes s t c f 0x12 0 ∧ t = { s with hif := t.hif, rings := t.rings } :=
  answers_of_exec_complete (u := s.executing c) h hi rfl rfl rfl rfl

/-- A command that changes the clocks and the events alone answers that change, with what the event interrupt sends. -/
theorem answers_of_exec_clk_evt {i : Instr} {s u : State} (hi : exec i s = answer s u)
    (hu : u = { s with clk := u.clk, evt := u.evt }) :
    Answers i s fun t => t = { s with clk := t.clk, evt := t.evt, msix := t.msix, out := t.out } :=
  answers_of_exec_up_to_interrupt hi fun t _ hevt _ ht => by
    have hclk : t.clk = u.clk := (congrArg State.clk ht).trans rfl
    rw [hclk, hevt]
    exact ht.trans (by rw [hu])

theorem setBit_getLsbD_self {w : Nat} (x : BitVec w) {n : Nat} (h : n < w) : (setBit x n).getLsbD n = true := by
  rw [setBit, BitVec.getLsbD_or, BitVec.getLsbD_ofNat, Nat.testBit_two_pow_self]
  simp [h]

/-- An event bit that stands stays when another is set. -/
theorem setBit_getLsbD_of_set {w : Nat} {x : BitVec w} {i : Nat} (n : Nat) (h : x.getLsbD i = true) :
    (setBit x n).getLsbD i = true := by
  simp [setBit, h]

/-- A studbook request sets no time event. -/
@[simp] theorem State.studbook_evt_time (s : State) (t : BitVec 6) (n : Nat) (d : List Byte) :
    (s.studbook t n d).evt.time = s.evt.time := by
  unfold State.studbook
  dsimp only
  split
  · unfold State.recorderTakes
    repeat' split
    all_goals rfl
  · rfl

end Sys2Proof.Machine
end

section
/-! SUPPORT. A whole codeword stored to MRAM reads back while it waits in its lane (01 R29; 11 R339), and the hours cell (17 R445). -/

namespace Sys2Proof.Machine

@[simp] theorem MramQueue.lane_setLane_self (q : MramQueue) (l : Lane) (ws : List Codeword) : (q.setLane l ws).lane l = ws := by
  cases l <;> rfl

@[simp] theorem Mem.mramBytes_length (m : Mem) (a n : Nat) : (m.mramBytes a n).length = n := by
  induction n generalizing a with
  | zero => rfl
  | succ n ih => simp [Mem.mramBytes, ih]

theorem Mem.mramBytes_getElem (m : Mem) (a n i : Nat) (h : i < (m.mramBytes a n).length) :
    (m.mramBytes a n)[i] = m.mramByte (a + i) := by
  induction n generalizing a i with
  | zero => simp at h
  | succ n ih =>
    cases i with
    | zero => rfl
    | succ i =>
      have hi : i < (m.mramBytes (a + 1) n).length := by simpa using h
      simpa [Mem.mramBytes, Nat.add_assoc, Nat.add_comm 1] using ih (a + 1) i hi

/-- Bytes that replace a whole codeword leave nothing of it. -/
theorem padTo_splice_whole {n : Nat} {old bytes : List Byte} (hbytes : bytes.length = n) :
    padTo n (splice old 0 bytes) = bytes := by
  simp [padTo, splice, slice, hbytes]

/-- A byte of a codeword reads as the newest store to the codeword left it. -/
theorem Mem.mramByte_store {m : Mem} {now addr off a : Nat} {bytes : List Byte} (hword : a / 16 * 16 = addr)
    (haddr : regionOf addr ≠ .reserved) (ha : regionOf a ≠ .reserved) :
    (m.store now addr off bytes).mramByte a = (padTo 16 (splice (m.mramBytes addr 16) off bytes)).getD (a % 16) 0 := by
  simp [Mem.mramByte, Mem.store, MramQueue.newest, hword, haddr, ha]

theorem Mem.storeBytes_codeword (m : Mem) (now : Nat) {addr : Nat} {bytes : List Byte} (haddr : addr % 16 = 0)
    (hbytes : bytes.length = 16) : m.storeBytes now addr bytes = m.store now addr 0 bytes := by
  have hne : bytes ≠ [] := by rintro rfl; simp at hbytes
  have htake : bytes.take 16 = bytes := List.take_of_length_le (by omega)
  have hdrop : bytes.drop 16 = [] := List.drop_eq_nil_of_le (by omega)
  simp [Mem.storeBytes, Mem.storeAll, haddr, hne, htake, hdrop]

/-- A codeword stored outside the reserved regions reads back. -/
theorem Mem.mramBytes_storeBytes_codeword (m : Mem) (now : Nat) {addr : Nat} {bytes : List Byte} (haddr : addr % 16 = 0)
    (hbytes : bytes.length = 16) (hregion : ∀ i < 16, regionOf (addr + i) ≠ .reserved) :
    (m.storeBytes now addr bytes).mramBytes addr 16 = bytes := by
  rw [Mem.storeBytes_codeword m now haddr hbytes]
  refine List.ext_getElem (by simp [hbytes]) fun i hi hib => ?_
  have hi16 : i < 16 := by simpa using hi
  have hmod : (addr + i) % 16 = i := by omega
  rw [Mem.mramBytes_getElem, Mem.mramByte_store (addr := addr) (by omega) (hregion 0 (by decide)) (hregion i hi16),
    padTo_splice_whole hbytes, hmod]
  simp [hib]

theorem regionOf_config {a : Nat} (hlo : 0x600000 ≤ a) (hhi : a < 0x700000) : regionOf a = .config := by
  rw [regionOf, if_neg (by omega), if_pos hhi]

theorem hoursBytes_length (oph pcc : Nat) : (hoursBytes oph pcc).length = 16 := by
  simp [hoursBytes, withCrc32c, bvBytes, Laws.leBytes_length]

/-- The copy that `writeHours` writes reads as the hours cell lays it out (R445). -/
theorem State.writeHours_mramRead (s : State) :
    s.writeHours.mramRead (hoursCopyAt s.olderHours) 16 = hoursBytes s.oph s.clk.pcc := by
  refine Mem.mramBytes_storeBytes_codeword _ _ ?_ (hoursBytes_length _ _) fun i hi => ?_
  · cases s.olderHours <;> rfl
  · rw [regionOf_config (by unfold hoursCopyAt; split <;> omega) (by unfold hoursCopyAt; split <;> omega)]
    exact Region.noConfusion

theorem State.hoursDue_eq_true {s : State} : s.hoursDue = true ↔ s.clk.hoursAt + 60000 ≤ s.oph := decide_eq_true_iff

theorem exec_hoursCellWrite_of_due {s : State} (hmem : s.isl.mem = true) (h : s.clk.hoursAt + 60000 ≤ s.oph) :
    exec .hoursCellWrite s = answer s s.writeHours :=
  congrArg (answer s) (if_pos (by rw [State.hoursDue_eq_true.mpr h, hmem]; rfl))

theorem exec_hoursCellWrite_of_not_due {s : State} (h : s.oph < s.clk.hoursAt + 60000) :
    exec .hoursCellWrite s = answer s s :=
  congrArg (answer s) (if_neg (by rw [Bool.and_eq_true, State.hoursDue_eq_true]; omega))

end Sys2Proof.Machine
end

section
/-! SUPPORT. What an enabled wake source does in each power state, and what it leaves alone (15 R416, R417). -/

namespace Sys2Proof.Machine

/-- A request to the regulator changes what the regulator was asked for, and what has left the device. -/
@[simp] theorem State.ask_frame (s : State) (why : PmbusWhy) :
    (s.ask why).clk = s.clk ∧ (s.ask why).evt = s.evt ∧ (s.ask why).hif = s.hif ∧ (s.ask why).rings = s.rings ∧
    (s.ask why).pwr = { s.pwr with pmbus := some why, retries := 0 } := by
  cases why with
  | entry => unfold State.ask State.sendRequest; dsimp only; split <;> and_intros <;> rfl
  | _ => and_intros <;> rfl

/-- The start of a wake changes the power state, and what has left the device. -/
@[simp] theorem State.startWake_frame (s : State) (src : BitVec 4) (check loud : Bool) :
    (s.startWake src check loud).clk = s.clk ∧ (s.startWake src check loud).evt = s.evt ∧
    (s.startWake src check loud).hif = s.hif ∧ (s.startWake src check loud).rings = s.rings := by
  simp [State.startWake, State.onPwr]

theorem State.startWake_wake (s : State) (src : BitVec 4) (check loud : Bool) :
    (s.startWake src check loud).pwr.wake = some ⟨1, src, check, false, loud, s.clk.rtcTicks⟩ := by
  simp [State.startWake, State.onPwr]

/-- A check cycle that becomes a full wake changes the power state, the islands and the rates of the strings. -/
@[simp] theorem State.checkToWake_frame (s : State) (src : BitVec 4) :
    (s.checkToWake src).clk = s.clk ∧ (s.checkToWake src).evt = s.evt ∧ (s.checkToWake src).hif = s.hif ∧
    (s.checkToWake src).rings = s.rings := by
  unfold State.checkToWake
  dsimp only
  split <;> split <;> and_intros <;> rfl

/-- Another try of step 1 changes the power state, and what has left the device. -/
@[simp] theorem State.retryWake_frame (s : State) :
    s.retryWake.clk = s.clk ∧ s.retryWake.evt = s.evt ∧ s.retryWake.hif = s.hif ∧ s.retryWake.rings = s.rings := by
  unfold State.retryWake
  split <;> simp [State.onPwr]

/-- A wake source changes neither the clocks nor the events, and nothing of the host interface. -/
@[simp] theorem State.wakeSource_frame (s : State) (src : BitVec 4) :
    (s.wakeSource src).clk = s.clk ∧ (s.wakeSource src).evt = s.evt ∧ (s.wakeSource src).hif = s.hif ∧
    (s.wakeSource src).rings = s.rings := by
  unfold State.wakeSource
  repeat' split
  all_goals simp [State.onPwr]

theorem State.wakeSource_of_disabled {s : State} {src : BitVec 4} (h : s.pwr.wakeEnabled src = false) : s.wakeSource src = s :=
  if_pos (by simp [h])

/-- While the device is awake and stays so, a wake source does nothing. -/
theorem State.wakeSource_of_awake {s : State} {src : BitVec 4} (hst : s.pwr.st = .run ∨ s.pwr.st = .idle)
    (hwake : s.pwr.wake = none) (hphase : s.pwr.phase = 0) : s.wakeSource src = s := by
  rcases hst with hst | hst <;> simp [State.wakeSource, hst, hwake, hphase]

/-- In Rest and Stabled an enabled wake source starts a wake, or a check cycle where it is one that starts those. -/
theorem State.wakeSource_of_asleep {s : State} {src : BitVec 4} (hst : s.pwr.st = .rest ∨ s.pwr.st = .stabled)
    (hshut : s.therm.shutDown = false) (hen : s.pwr.wakeEnabled src = true) (hwake : s.pwr.wake = none)
    (hphase : s.pwr.phase = 0) : s.wakeSource src = s.startWake src (checkSource src) true := by
  simp [State.wakeSource, hst, hshut, hen, hwake, hphase]

/-- A command that ends with a wake source leaves the clocks and the events as they were before the source. -/
theorem answers_wakeSource_clk_evt {i : Instr} {s u : State} {src : BitVec 4} (hi : exec i s = answer s (u.wakeSource src)) :
    Answers i s fun t => t.clk = u.clk ∧ t.evt = u.evt :=
  answers_of_exec hi (by simp)

/-- A command that ends with an enabled wake source wakes the device from Rest or Stabled. -/
theorem answers_wakeSource_of_asleep {i : Instr} {s u : State} {src : BitVec 4} (hi : exec i s = answer s (u.wakeSource src))
    (hst : u.pwr.st = .rest ∨ u.pwr.st = .stabled) (hshut : u.therm.shutDown = false) (hen : u.pwr.wakeEnabled src = true)
    (hwake : u.pwr.wake = none) (hphase : u.pwr.phase = 0) :
    Answers i s fun t => t.pwr.wake = some ⟨1, src, checkSource src, false, true, u.clk.rtcTicks⟩ := by
  refine answers_of_exec hi ?_
  rw [State.wakeSource_of_asleep hst hshut hen hwake hphase]
  simpa only [eventInterrupt_frame] using State.startWake_wake _ _ _ _

/-- The RTC alarm is enabled by bit 0 of WAKE_EN (R416). -/
theorem Pwr.wakeEnabled_alarm (p : Pwr) : p.wakeEnabled 1 = p.wakeEn.getLsbD 0 := by
  simp [Pwr.wakeEnabled]

/-- The periodic check is enabled by bit 1 of WAKE_EN (R416). -/
theorem Pwr.wakeEnabled_check (p : Pwr) : p.wakeEnabled 2 = p.wakeEn.getLsbD 1 := by
  simp [Pwr.wakeEnabled]

end Sys2Proof.Machine
end

section
/-! SUPPORT. The armed alarm, the periodic check, and RTC_SET case by case (17 R447 to R450). -/

namespace Sys2Proof.Machine

/-- The state in which the alarm has disarmed and set ALARM of `TIME_EVT`, before it acts as a wake source (R449). -/
def State.alarmDisarmed (s : State) : State := State.timeEvent { s with clk := { s.clk with alarm := 0 } } 0

theorem State.fireAlarm_of_due {s : State} (h : s.clk.alarm ≠ 0) (hle : s.clk.alarm ≤ s.rtcNow) :
    s.fireAlarm = s.alarmDisarmed.wakeSource 1 := if_pos ⟨h, hle⟩

theorem State.fireAlarm_of_not_due {s : State} (h : s.clk.alarm = 0 ∨ s.rtcNow < s.clk.alarm) : s.fireAlarm = s :=
  if_neg (by omega)

theorem State.alarmDisarmed_time (s : State) : s.alarmDisarmed.evt.time.getLsbD 0 = true := setBit_getLsbD_self _ (by decide)

/-- The alarm changes nothing of the host interface, of the clocks at most the armed value, and takes no time event back. -/
theorem State.fireAlarm_frame (s : State) :
    s.fireAlarm.hif = s.hif ∧ s.fireAlarm.rings = s.rings ∧
    s.fireAlarm.clk = { s.clk with alarm := if s.clk.alarm ≠ 0 ∧ s.clk.alarm ≤ s.rtcNow then 0 else s.clk.alarm } ∧
    ∀ i, s.evt.time.getLsbD i = true → s.fireAlarm.evt.time.getLsbD i = true := by
  unfold State.fireAlarm
  split
  · simp only [State.wakeSource_frame]
    exact ⟨rfl, rfl, rfl, fun i h => setBit_getLsbD_of_set 0 h⟩
  · exact ⟨rfl, rfl, rfl, fun i h => h⟩

theorem State.fireAlarm_time {s : State} (h : s.clk.alarm ≠ 0) (hle : s.clk.alarm ≤ s.rtcNow) :
    s.fireAlarm.evt.time.getLsbD 0 = true := by
  rw [State.fireAlarm_of_due h hle]
  simp only [State.wakeSource_frame]
  exact s.alarmDisarmed_time

/-- A due alarm disarms, sets its event, and is a wake source. -/
theorem exec_rtcAlarm_of_due {s : State} (h : s.clk.alarm ≠ 0) (hle : s.clk.alarm ≤ s.rtcNow) :
    exec .rtcAlarm s = answer s (s.alarmDisarmed.wakeSource 1) := congrArg (answer s) (State.fireAlarm_of_due h hle)

theorem exec_rtcAlarm_of_not_due {s : State} (h : s.clk.alarm = 0 ∨ s.rtcNow < s.clk.alarm) : exec .rtcAlarm s = answer s s :=
  congrArg (answer s) (State.fireAlarm_of_not_due h)

/-- The state in which the periodic check has fired and set CHK of `TIME_EVT`, before it acts as a wake source: every whole period that
has passed is counted (R450). -/
def State.checkFired (s : State) : State :=
  State.timeEvent { s with clk := { s.clk with
    chkFrom := s.clk.chkFrom + (s.clk.rtcTicks - s.clk.chkFrom) / (s.clk.chkS * 32768) * (s.clk.chkS * 32768) } } 1

theorem State.checkFired_time (s : State) : s.checkFired.evt.time.getLsbD 1 = true := setBit_getLsbD_self _ (by decide)

theorem exec_periodicCheckAlarm_of_due {s : State} (h : s.clk.chkS ≠ 0)
    (hle : s.clk.chkFrom + s.clk.chkS * 32768 ≤ s.clk.rtcTicks) :
    exec .periodicCheckAlarm s = answer s (s.checkFired.wakeSource 2) := congrArg (answer s) (if_pos ⟨h, hle⟩)

theorem exec_periodicCheckAlarm_of_not_due {s : State} (h : s.clk.chkS = 0 ∨ s.clk.rtcTicks < s.clk.chkFrom + s.clk.chkS * 32768) :
    exec .periodicCheckAlarm s = answer s s := congrArg (answer s) (if_neg (by unfold rtcTicksPerS; omega))

theorem opField_lt (c : Cmd) (off len : Nat) : opField c off len < 2 ^ (8 * len) := Nat.mod_lt _ (Nat.two_pow_pos _)

/-- The state in which FUNC 0 of RTC_SET has moved the RTC to `v` and requested its record, before the alarm is compared (R448). -/
def State.rtcMoved (s : State) (v : Nat) : State :=
  let back := decide (v < s.rtcNow)
  let t := { s with clk := { s.clk with rtcBase := v, rtcFrom := s.clk.rtcTicks, rtcSet := true } }
  (if back then t.timeEvent 2 else t).studbook 0x03 0 (leBytes 4 s.rtcNow ++ leBytes 4 v ++ leBytes 1 (bit back))

/-- Moving the RTC changes, of the clocks, the RTC alone. -/
@[simp] theorem State.rtcMoved_frame (s : State) (v : Nat) :
    (s.rtcMoved v).hif = s.hif ∧ (s.rtcMoved v).rings = s.rings ∧
    (s.rtcMoved v).clk = { s.clk with rtcBase := v, rtcFrom := s.clk.rtcTicks, rtcSet := true } := by
  unfold State.rtcMoved
  dsimp only
  split <;> simp [State.timeEvent]

theorem State.rtcMoved_rtcNow {s : State} {v : Nat} (h : v < 2 ^ 32) : (s.rtcMoved v).rtcNow = v := by
  simpa [State.rtcNow, State.rtcSec] using h

/-- An RTC_SET that moves the RTC back sets SETBACK. -/
theorem State.rtcMoved_setback {s : State} {v : Nat} (h : v < s.rtcNow) : (s.rtcMoved v).evt.time.getLsbD 2 = true := by
  simp only [State.rtcMoved, State.studbook_evt_time, h, decide_true, if_true]
  exact setBit_getLsbD_self _ (by decide)

theorem exec_rtcSet {s u : State} {c : Cmd} {f : Flight} (h : Executing s c f) (hu : rtcSet c (s.executing c) = u) :
    exec (.rtcSet c) s = answer s u := congrArg (answer s) ((run_executing h false _).trans hu)

theorem rtcSet_set {c : Cmd} (h : opByte c 0 = 0) (s : State) :
    rtcSet c s = (s.rtcMoved (opField c 4 4)).fireAlarm.ok c
      (dwords s.rtcNow (if opField c 4 4 < s.rtcNow then 1 else 0) 0 0) := by
  simp [rtcSet, h, State.rtcMoved, bit]

theorem rtcSet_arm {c : Cmd} (h : opByte c 0 = 1) {s : State} (hv : opField c 4 4 = 0 ∨ s.rtcNow < opField c 4 4) :
    rtcSet c s = State.ok { s with clk := { s.clk with alarm := opField c 4 4 } } c (dwords (opField c 4 4) 0 0 0) := by
  simp only [rtcSet, h]
  exact if_neg (by omega)

theorem rtcSet_arm_refused {c : Cmd} (h : opByte c 0 = 1) {s : State} (hv : opField c 4 4 ≠ 0) (hle : opField c 4 4 ≤ s.rtcNow) :
    rtcSet c s = s.badOperand c := by
  simp only [rtcSet, h]
  exact if_pos ⟨hv, hle⟩

theorem rtcSet_period {c : Cmd} (h : opByte c 0 = 2) (s : State)
    (hv : opField c 4 4 = 0 ∨ (10 ≤ opField c 4 4 ∧ opField c 4 4 ≤ 86400)) :
    rtcSet c s = State.ok { s with clk := { s.clk with chkS := opField c 4 4, chkFrom := s.clk.rtcTicks } } c
      (dwords (opField c 4 4) 0 0 0) := by
  simp only [rtcSet, h]
  exact if_neg (by omega)

theorem rtcSet_period_refused {c : Cmd} (h : opByte c 0 = 2) (s : State)
    (hv : (1 ≤ opField c 4 4 ∧ opField c 4 4 ≤ 9) ∨ 86400 < opField c 4 4) : rtcSet c s = s.badOperand c := by
  simp only [rtcSet, h]
  exact if_pos (by omega)

theorem rtcSet_unknown {c : Cmd} (h : 3 ≤ opByte c 0) (s : State) : rtcSet c s = s.badOperand c := by
  unfold rtcSet
  split
  · omega
  · omega
  · omega
  · rfl

end Sys2Proof.Machine
end

section
/-! SUPPORT. What an AON power-on makes of the clocks: loading the persistent state changes the restored counters alone (17 R446). -/

namespace Sys2Proof.Machine

theorem State.clk_foldl {α : Type} (l : List α) (f : State → α → State) (h : ∀ t a, (f t a).clk = t.clk) (s : State) :
    (l.foldl f s).clk = s.clk :=
  List.foldlRecOn l f (motive := fun t => t.clk = s.clk) rfl fun t ht a _ => (h t a).trans ht

@[simp] theorem State.onWb_clk (s : State) (str : Fin 4) (f : WbStr → WbStr) : (s.onWb str f).clk = s.clk := rfl

@[simp] theorem State.wbEvent_clk (s : State) (n : Nat) : (s.wbEvent n).clk = s.clk := rfl

theorem State.loadWeighbridge_clk (s : State) : s.loadWeighbridge.clk = s.clk := by
  unfold State.loadWeighbridge
  split
  next stmt stmtBad _ =>
  split
  next exposures exposuresBad _ =>
  split
  next tariffs tariffsBad _ =>
  refine (State.clk_foldl _ _ (fun t i => ?_) _).trans ?_
  · dsimp only
    repeat' split
    all_goals simp
  · simp only [apply_ite State.clk, State.wbEvent_clk, ite_self]
    split
    · rfl
    · refine State.clk_foldl _ _ (fun t i => ?_) _
      simp

theorem State.loadCalibration_clk (s : State) : s.loadCalibration.clk = s.clk := by
  unfold State.loadCalibration
  dsimp only
  rw [State.clk_foldl _ _ fun t u => ?_]
  · split <;> simp
  · repeat' split
    all_goals simp

theorem State.loadCheckpoint_clk (s : State) : s.loadCheckpoint.clk = s.clk := by
  unfold State.loadCheckpoint
  split <;> rfl

theorem State.cancelClear_clk (s : State) : s.cancelClear.clk = s.clk := by
  unfold State.cancelClear
  split <;> simp

theorem State.recorderFault_clk (s : State) (kind : BitVec 8) (slot : Nat) : (s.recorderFault kind slot).clk = s.clk := by
  unfold State.recorderFault
  simp only [State.cancelClear_clk, State.stbEvent]
  split
  · refine State.clk_foldl _ _ (fun t n => ?_) s
    simp
  · rfl

theorem State.scanStudbook_clk (s : State) : s.scanStudbook.1.clk = s.clk := by
  unfold State.scanStudbook
  dsimp only
  split
  · exact State.recorderFault_clk _ _ _
  · rfl

theorem State.loadStudbook_clk (s : State) : s.loadStudbook.clk = s.clk := by
  unfold State.loadStudbook
  have h := s.scanStudbook_clk
  split <;> simp_all

/-- The hours restored at a power-on change the two counters and the moment of the latest write, and no other clock. -/
theorem State.restoreHours_clk (s : State) :
    s.restoreHours.clk = { s.clk with
      ophMs := s.restoreHours.clk.ophMs, pcc := s.restoreHours.clk.pcc, hoursAt := s.restoreHours.clk.hoursAt } :=
  rfl

theorem State.loadPersistent_clk (s : State) :
    s.loadPersistent.clk = { s.clk with
      ophMs := s.loadPersistent.clk.ophMs, pcc := s.loadPersistent.clk.pcc, hoursAt := s.loadPersistent.clk.hoursAt } := by
  have h := s.loadWeighbridge.loadCalibration.loadCheckpoint.loadStudbook.restoreHours_clk
  unfold State.loadPersistent
  simpa only [State.loadStudbook_clk, State.loadCheckpoint_clk, State.loadCalibration_clk, State.loadWeighbridge_clk] using h

/-- An AON power-on leaves the clocks as the persistent state has them. -/
theorem answers_aonPowerOn_clk (snsExternal rstkA rstkB : Bool) (s : State) :
    Answers (.aonPowerOn snsExternal rstkA rstkB) s fun t =>
      t.clk = (State.loadPersistent { s.powerOff with isl := { s.powerOff.isl with mem := true } }).clk :=
  answers_of_exec rfl (by simp [State.onPwr])

end Sys2Proof.Machine
end

section
/-! SUPPORT. The statement about the RTC, its alarms and the hours cell, clause by clause. -/

namespace Sys2Proof.Machine

/-- FUNC 0 of RTC_SET changes, of the clocks, the RTC and an alarm that it reaches; both may set their events (R448, R449). -/
theorem answers_rtcSet_set {c : Cmd} {f : Flight} {s : State} (h : Executing s c f) (hfunc : opByte c 0 = 0) :
    Answers (.rtcSet c) s fun t =>
      t.clk = { s.clk with
        rtcBase := opField c 4 4, rtcFrom := s.clk.rtcTicks, rtcSet := true
        alarm := if s.clk.alarm ≠ 0 ∧ s.clk.alarm ≤ opField c 4 4 then 0 else s.clk.alarm } ∧
      (opField c 4 4 < s.rtcNow → t.evt.time.getLsbD 2 = true) ∧
      (s.clk.alarm ≠ 0 → s.clk.alarm ≤ opField c 4 4 → t.evt.time.getLsbD 0 = true) ∧
      Completes s t c f 0x00 (dwords s.rtcNow (if opField c 4 4 < s.rtcNow then 1 else 0) 0 0) := by
  have hnow : ((s.executing c).rtcMoved (opField c 4 4)).rtcNow = opField c 4 4 := State.rtcMoved_rtcNow (opField_lt c 4 4)
  have halarm : ((s.executing c).rtcMoved (opField c 4 4)).clk.alarm = s.clk.alarm := by simp
  obtain ⟨hhif, hrings, hclk, htime⟩ := ((s.executing c).rtcMoved (opField c 4 4)).fireAlarm_frame
  simp only [hnow, State.rtcMoved_frame] at hhif hrings hclk
  refine answers_of_exec (exec_rtcSet h (rtcSet_set hfunc _)) ⟨?clk, ?setback, ?alarm,
    complete_completes h hrings hhif (congrArg Clk.ytime hclk :) _ _⟩
  case clk => simpa using hclk
  case setback =>
    intro hback
    simpa using htime 2 (State.rtcMoved_setback hback)
  case alarm =>
    intro harm hle
    simpa using State.fireAlarm_time (halarm ▸ harm) (by rwa [halarm, hnow])

/-- Settles O53, clause by clause through what each of the five commands does to the clocks, the time events and the power state. -/
theorem rtcAlarmsAndHoursCell : Obligations.RtcAlarmsAndHoursCell := by
  unfold Obligations.RtcAlarmsAndHoursCell
  refine ⟨fun s hmem hdue => ?hours, fun s hdue => ?hoursEarly, fun c f s h _ hfunc => ?set,
    fun c f s h hfunc => ⟨fun hv => ?arm, fun hv hle => ?armPast⟩,
    fun c f s h hfunc => ⟨fun hv => ?period, fun hv => ?periodBad⟩, fun c f s h hfunc => ?unknown,
    fun s harm hle => ⟨?alarm, fun hst hwake hphase => ?alarmAwake, fun hst hshut hen hwake hphase => ?alarmAsleep⟩,
    fun s hno => ?alarmNot,
    fun s hon hle => ⟨?check, fun hst hwake hphase => ?checkAwake, fun hst hshut hen hwake hphase => ?checkAsleep⟩,
    fun s hno => ?checkNot, fun a b d s => ?powerOn⟩
  case hours => exact answers_of_exec_of_evt_eq (exec_hoursCellWrite_of_due hmem hdue) rfl ⟨s.writeHours_mramRead, rfl, rfl⟩
  case hoursEarly => exact answers_of_exec_of_evt_eq (exec_hoursCellWrite_of_not_due hdue) rfl rfl
  case set =>
    refine (answers_rtcSet_set h hfunc).imp fun t ⟨hclk, hback, hfired, hdone⟩ => ?_
    have hnow : t.rtcNow = opField c 4 4 := by
      simpa [State.rtcNow, State.rtcSec, hclk] using opField_lt c 4 4
    rw [hclk]
    exact ⟨hnow, rfl, rfl, rfl, rfl, rfl, rfl, hback, fun hno => if_neg (by omega),
      fun harm hle => ⟨if_pos ⟨harm, hle⟩, hfired harm hle⟩, hdone⟩
  case arm => exact answers_of_exec_complete h (exec_rtcSet h (rtcSet_arm hfunc hv)) rfl rfl rfl rfl
  case armPast => exact answers_badOperand h (exec_rtcSet h (rtcSet_arm_refused hfunc hv hle))
  case period =>
    refine (answers_of_exec_complete h (exec_rtcSet h (rtcSet_period hfunc _ hv)) rfl rfl rfl rfl).imp fun t ⟨hdone, ht⟩ => ?_
    have hclk := congrArg State.clk ht
    exact ⟨hdone, congrArg Clk.chkS hclk, congrArg Clk.chkFrom hclk, ht.trans (by rw [hclk]; rfl)⟩
  case periodBad => exact answers_badOperand h (exec_rtcSet h (rtcSet_period_refused hfunc _ hv))
  case unknown => exact answers_badOperand h (exec_rtcSet h (rtcSet_unknown hfunc _))
  case alarm =>
    refine (answers_wakeSource_clk_evt (exec_rtcAlarm_of_due harm hle)).imp fun t ⟨hclk, hevt⟩ => ⟨hclk, ?_⟩
    rw [hevt]
    exact s.alarmDisarmed_time
  case alarmAwake =>
    have hsame : s.alarmDisarmed.wakeSource 1 = s.alarmDisarmed := by
      rcases or_assoc.mpr hst with hawake | hoff
      · exact State.wakeSource_of_awake hawake hwake hphase
      · exact State.wakeSource_of_disabled (s.pwr.wakeEnabled_alarm.trans hoff)
    exact answers_of_exec_clk_evt (hsame ▸ exec_rtcAlarm_of_due harm hle) rfl
  case alarmAsleep =>
    exact answers_wakeSource_of_asleep (u := s.alarmDisarmed) (exec_rtcAlarm_of_due harm hle) hst hshut
      (s.pwr.wakeEnabled_alarm.trans hen) hwake hphase
  case alarmNot => exact answers_of_exec_of_evt_eq (exec_rtcAlarm_of_not_due hno) rfl rfl
  case check =>
    refine (answers_wakeSource_clk_evt (exec_periodicCheckAlarm_of_due hon hle)).imp fun t ⟨hclk, hevt⟩ => ⟨?_, hclk⟩
    rw [hevt]
    exact s.checkFired_time
  case checkAwake =>
    have hsame : s.checkFired.wakeSource 2 = s.checkFired := State.wakeSource_of_awake hst hwake hphase
    exact answers_of_exec_clk_evt (hsame ▸ exec_periodicCheckAlarm_of_due hon hle) rfl
  case checkAsleep =>
    exact answers_wakeSource_of_asleep (u := s.checkFired) (exec_periodicCheckAlarm_of_due hon hle) hst hshut
      (s.pwr.wakeEnabled_check.trans hen) hwake hphase
  case checkNot => exact answers_of_exec_of_evt_eq (exec_periodicCheckAlarm_of_not_due hno) rfl rfl
  case powerOn =>
    refine (answers_aonPowerOn_clk a b d s).imp fun t hclk => ?_
    rw [State.loadPersistent_clk] at hclk
    rw [hclk]
    exact ⟨rfl, rfl, rfl⟩

end Sys2Proof.Machine
end

section
/-! SUPPORT. The shadows of a view, and an aligned read of BAR0 (10 R323; 00 R8). -/

namespace Sys2Proof.Machine

/-- A member replaced by itself leaves its bank as it was. -/
@[simp] theorem Bank.put_at_self {α : Type} {n : Nat} (b : Bank n α) (i : Fin n) : b.put i (b.at i) = b :=
  Vector.set_getElem_self i.isLt

@[simp] theorem State.shOf_putSh_self (s : State) (view : View) (x : Shadows) : (s.putSh view x).shOf view = x := by
  cases view with
  | host => rfl
  | core c => exact Bank.at_put_self _ _ _

@[simp] theorem State.putSh_shOf_self (s : State) (view : View) : s.putSh view (s.shOf view) = s := by
  cases view with
  | host => rfl
  | core c => simp only [State.putSh, State.shOf, Bank.put_at_self]

/-- Shadows are part of `misc` alone. -/
theorem State.putSh_eq_with (s : State) (view : View) (x : Shadows) :
    s.putSh view x = { s with misc := (s.putSh view x).misc } := by
  cases view <;> rfl

theorem State.putSh_evt (s : State) (view : View) (x : Shadows) : (s.putSh view x).evt = s.evt := by
  rw [State.putSh_eq_with]

/-- The state after an aligned read of BAR0: the shadows that the read captures, and the word on the bus. -/
def State.afterRead (s : State) (view : View) (off : Nat) : State :=
  (s.putSh view (s.captured (s.selOf view) (s.shOf view) off)).emit (.busRead (s.readReg (s.selOf view) (s.shOf view) off))

theorem exec_shadowCaptureRead_bar0 {view : View} {off : BitVec 16} (h : off.toNat % 4 = 0) (s : State) :
    exec (.shadowCaptureRead view .bar0 off) s = answer s (s.afterRead view off.toNat) :=
  congrArg (answer s) (if_neg (not_not_intro h))

theorem State.afterRead_evt (s : State) (view : View) (off : Nat) : (s.afterRead view off).evt = s.evt :=
  s.putSh_evt view _

/-- An aligned read sends the word that the register reads, leaves in the shadows of its view what it captures, and changes
nothing else. -/
theorem answers_shadowCaptureRead_bar0 {view : View} {off : BitVec 16} (h : off.toNat % 4 = 0) (s : State) :
    Answers (.shadowCaptureRead view .bar0 off) s fun t =>
      t.shOf view = s.captured (s.selOf view) (s.shOf view) off.toNat ∧
      t.out = s.out ++ [.busRead (s.readReg (s.selOf view) (s.shOf view) off.toNat)] ∧
      t = { s with misc := t.misc, out := t.out } := by
  refine answers_of_exec_of_evt_eq (exec_shadowCaptureRead_bar0 h s) (s.afterRead_evt view _) ⟨?shadows, ?word, ?rest⟩
  case shadows => exact s.shOf_putSh_self view _
  case word => rw [State.afterRead, State.emit_out, State.putSh_eq_with]
  case rest => rw [State.afterRead, State.putSh_eq_with]; rfl

/-- An aligned read that captures nothing sends the word that the register reads, and changes nothing else. -/
theorem answers_shadowCaptureRead_bar0_plain {view : View} {off : BitVec 16} (h : off.toNat % 4 = 0) (s : State)
    (hplain : s.captured (s.selOf view) (s.shOf view) off.toNat = s.shOf view) :
    Answers (.shadowCaptureRead view .bar0 off) s fun t =>
      t = { s with out := s.out ++ [.busRead (s.readReg (s.selOf view) (s.shOf view) off.toNat)] } := by
  refine answers_of_exec_of_evt_eq (exec_shadowCaptureRead_bar0 h s) (s.afterRead_evt view _) ?_
  rw [State.afterRead, hplain, State.putSh_shOf_self]
  rfl

end Sys2Proof.Machine
end

section
/-! SUPPORT. The identity block: what it reads, and what its reads capture (19 R470). -/

namespace Sys2Proof.Machine

/-- The identity block reads from the shadows of the reading view and from nothing else of the state. -/
theorem State.readReg_identity (s : State) (sel : Sel) (sh : Shadows) {off : Nat} (h : off < 0x0400) :
    s.readReg sel sh off = regIdentity sh off := if_pos h

/-- Only the register of the captured half reads the shadows. -/
theorem regIdentity_of_lt_serialHi (sh sh' : Shadows) {off : Nat} (h : off < 0x1C) : regIdentity sh off = regIdentity sh' off := by
  unfold regIdentity
  split
  case h_7 => omega -- 0x1C itself
  all_goals rfl

/-- A field of a register that is given as a number. -/
theorem w32_extractLsb'_toNat (n start len : Nat) :
    ((w32 n).extractLsb' start len).toNat = n % 2 ^ 32 / 2 ^ start % 2 ^ len := by
  rw [w32, BitVec.extractLsb'_toNat, BitVec.toNat_ofNat, Nat.shiftRight_eq_div_pow]

/-- MAP_VER of `DEV_REV` does not depend on the stepping and the ROM version. -/
theorem devRev_mapVer (stepping romVer : BitVec 8) :
    (w32 (stepping.toNat + 256 + 65536 * romVer.toNat)).extractLsb' 8 8 = 1 := by
  refine BitVec.eq_of_toNat_eq ((w32_extractLsb'_toNat _ _ _).trans ?_)
  change _ = 1
  omega

/-- The reserved bits of `DEV_REV` above the ROM version read 0. -/
theorem devRev_reserved (stepping romVer : BitVec 8) :
    (w32 (stepping.toNat + 256 + 65536 * romVer.toNat)).extractLsb' 24 8 = 0 := by
  refine BitVec.eq_of_toNat_eq ((w32_extractLsb'_toNat _ _ _).trans ?_)
  change _ = 0
  omega

/-- A read of `DEV_SERIAL_LO` captures the upper half of the serial number, and leaves the other shadows. -/
theorem State.captured_serialLo (s : State) (sel : Sel) (sh : Shadows) :
    s.captured sel sh 0x18 = { sh with serial := hi32 Config.serial.toNat } := rfl

theorem State.captured_serialHi (s : State) (sel : Sel) (sh : Shadows) : s.captured sel sh 0x1C = sh := rfl

/-- Settles O59: the block reads constants of the part but for `DEV_SERIAL_HI`, which reads the shadow that a read of its
partner leaves. -/
theorem identityBlockReads : Obligations.IdentityBlockReads := by
  unfold Obligations.IdentityBlockReads
  refine ⟨fun s view => ⟨rfl, devRev_mapVer _ _, devRev_reserved _ _, rfl, rfl, rfl, rfl, rfl⟩,
    fun s t view off h => ?same, fun view s => ?serialLo, fun view s => ?serialHi⟩
  case same =>
    have hblock : off < 0x0400 := by omega
    rw [s.readReg_identity _ _ hblock, t.readReg_identity _ _ hblock]
    exact regIdentity_of_lt_serialHi _ _ h
  case serialLo =>
    refine (answers_shadowCaptureRead_bar0 (off := 0x18) rfl s).imp fun t ⟨hshadows, hword, hrest⟩ => ⟨?_, hword, hrest⟩
    exact congrArg Shadows.serial (hshadows.trans (s.captured_serialLo _ _))
  case serialHi => exact answers_shadowCaptureRead_bar0_plain (off := 0x1C) rfl s (s.captured_serialHi _ _)

end Sys2Proof.Machine
end

section
/-! SUPPORT. What leaves the memories, the tack store and the clocks alone: the operations of the model that act on other parts. -/

namespace Sys2Proof.Machine

/-- From `s` to `t` the memories, the tack store and the clocks stay as they were. -/
abbrev State.SameStores (s t : State) : Prop := t.mem = s.mem ∧ t.sec = s.sec ∧ t.clk = s.clk

theorem State.SameStores.trans {s t u : State} (h : s.SameStores t) (h' : t.SameStores u) : s.SameStores u :=
  ⟨h'.1.trans h.1, h'.2.1.trans h.2.1, h'.2.2.trans h.2.2⟩

@[simp] theorem State.stores_foldl {α : Type} (l : List α) (f : State → α → State) (h : ∀ t a, State.SameStores t (f t a)) (s : State) :
    s.SameStores (l.foldl f s) :=
  List.foldlRecOn l f (motive := fun t => s.SameStores t) ⟨rfl, rfl, rfl⟩ fun _ ht a _ => ht.trans (h _ a)

@[simp] theorem State.settleMask_stores (s : State) (u : Fin 128) : s.SameStores (s.settleMask u) := by
  unfold State.settleMask
  dsimp only
  split <;> simp [State.SameStores]

@[simp] theorem State.turnOn_stores (s : State) (ch : Fin 24) : s.SameStores (s.turnOn ch) := by
  unfold State.turnOn
  dsimp only
  repeat' split
  all_goals simp [State.SameStores]

@[simp] theorem State.turnOff_stores (s : State) (ch : Fin 24) : s.SameStores (State.turnOff s ch) :=
  ⟨rfl, rfl, rfl⟩

@[simp] theorem State.settleOut_stores (s : State) (ch : Fin 24) : s.SameStores (s.settleOut ch) := by
  unfold State.settleOut
  dsimp only
  repeat' split
  all_goals simp [State.SameStores]

@[simp] theorem State.settleContactors_stores (s : State) : s.SameStores s.settleContactors := by
  simp [State.settleContactors, State.SameStores]

@[simp] theorem State.command_stores (s : State) (ch : Fin 24) (on : Bool) : s.SameStores (s.command ch on) := by
  simp [State.SameStores, State.command]

@[simp] theorem State.swcEvent_stores (s : State) (ch : Fin 24) : s.SameStores (State.swcEvent s ch) :=
  ⟨rfl, rfl, rfl⟩

@[simp] theorem State.latch_stores (s : State) (ch : Fin 24) (cause : LatchCause) : s.SameStores (s.latch ch cause) := by
  simp [State.SameStores, State.latch]

@[simp] theorem State.trip_stores (s : State) (ch : Fin 24) (cause : LatchCause) : s.SameStores (s.trip ch cause) := by
  unfold State.trip
  dsimp only
  split <;> simp [State.SameStores]

@[simp] theorem State.setVbat_stores (s : State) (d : Fin 2) (v : BitVec 12) : s.SameStores (State.setVbat s d v) :=
  ⟨rfl, rfl, rfl⟩

@[simp] theorem State.pulseResult_stores (s : State) (ch : Fin 12) (fell : Bool) : s.SameStores (s.pulseResult ch fell) := by
  unfold State.pulseResult
  dsimp only
  repeat' split
  all_goals simp [State.SameStores]

@[simp] theorem supplyDip_stores (s : State) (die : Fin 2) (v : BitVec 12) : s.SameStores (supplyDip s die v) := by
  unfold supplyDip
  split <;> simp [State.SameStores]

@[simp] theorem State.dipRecord_stores (s : State) (die : Fin 2) : s.SameStores (s.dipRecord die) := by
  simp [State.SameStores, State.dipRecord]

@[simp] theorem State.restoreChannel_stores (s : State) (ch : Fin 24) : s.SameStores (s.restoreChannel ch) := by
  unfold State.restoreChannel
  dsimp only
  repeat' split
  all_goals simp [State.SameStores]

@[simp] theorem supplyRestore_stores (s : State) (die : Fin 2) (v : BitVec 12) : s.SameStores (supplyRestore s die v) := by
  unfold supplyRestore
  split <;> simp [State.SameStores]

@[simp] theorem supplyLoss_stores (s : State) (die : Fin 2) (v : BitVec 12) : s.SameStores (supplyLoss s die v) := by
  simp [State.SameStores, supplyLoss]

@[simp] theorem swcSet_stores (c : Cmd) (s : State) : s.SameStores (swcSet c s) := by
  unfold swcSet
  dsimp only
  repeat' split
  all_goals simp [State.SameStores]

@[simp] theorem swcConfig0_stores (c : Cmd) (s : State) : s.SameStores (swcConfig0 c s) := by
  unfold swcConfig0
  dsimp only
  repeat' split
  all_goals simp [State.SameStores]

@[simp] theorem swcConfig1_stores (c : Cmd) (s : State) : s.SameStores (swcConfig1 c s) := by
  unfold swcConfig1
  dsimp only
  repeat' split
  all_goals simp [State.SameStores]

@[simp] theorem swcConfig2_stores (c : Cmd) (pkg : List Byte) (s : State) : s.SameStores (swcConfig2 c pkg s) := by
  simp [swcConfig2, State.SameStores, apply_ite State.mem, apply_ite State.sec, apply_ite State.clk]

@[simp] theorem State.strEvent_stores (s : State) (base : Nat) (str : Fin 4) : s.SameStores (State.strEvent s base str) :=
  ⟨rfl, rfl, rfl⟩

@[simp] theorem State.abortShunt_stores (s : State) (str : Fin 4) : s.SameStores (s.abortShunt str) := by
  unfold State.abortShunt
  dsimp only
  split
  · exact ⟨rfl, rfl, rfl⟩
  · refine State.SameStores.trans ?_ (State.stores_foldl _ _ (fun t c => ?_) _)
    · split <;> simp [State.SameStores]
    · simp [State.SameStores]

@[simp] theorem State.stopExcitation_stores (s : State) (str : Fin 4) : s.SameStores (s.stopExcitation str) := by
  unfold State.stopExcitation
  split <;> simp [State.SameStores]

@[simp] theorem State.enterStr_stores (s : State) (str : Fin 4) (new : StrState) (cause : Nat) (stamp : BitVec 32) :
    s.SameStores (s.enterStr str new cause stamp) := by
  unfold State.enterStr
  dsimp only
  repeat' split
  all_goals simp [State.SameStores]

@[simp] theorem State.cmdContactor_stores (s : State) (str : Fin 4) (k : Fin 3) (on : Bool) : s.SameStores (s.cmdContactor str k on) := by
  unfold State.cmdContactor
  dsimp only
  repeat' split
  all_goals simp [State.SameStores]

@[simp] theorem State.withdraw_stores (s : State) (str : Fin 4) : s.SameStores (s.withdraw str) := by
  simp [State.withdraw, State.SameStores]

@[simp] theorem State.closeRefused_stores (s : State) (str : Fin 4) (code d3 : Nat) : s.SameStores (s.closeRefused str code d3) := by
  unfold State.closeRefused
  split <;> simp [State.SameStores]

@[simp] theorem State.closeCancelled_stores (s : State) (str : Fin 4) : s.SameStores (s.closeCancelled str) := by
  unfold State.closeCancelled
  split <;> simp [State.SameStores]

@[simp] theorem State.abortPrecharge_stores (s : State) (str : Fin 4) : s.SameStores (s.abortPrecharge str) := by
  unfold State.abortPrecharge
  split <;> simp [State.SameStores]

@[simp] theorem State.countBreak_stores (s : State) (str : Fin 4) (i : Option Nat) : s.SameStores (s.countBreak str i) := by
  unfold State.countBreak
  dsimp only
  repeat' split
  all_goals simp [State.SameStores]

@[simp] theorem State.openDone_stores (s : State) (str : Fin 4) (welded : Bool) : s.SameStores (s.openDone str welded) := by
  simp [State.SameStores, State.openDone]

@[simp] theorem State.enterWelded_stores (s : State) (str : Fin 4) (e : WeldStat) : s.SameStores (s.enterWelded str e) := by
  simp [State.SameStores, State.enterWelded]

@[simp] theorem State.weldEval_stores (s : State) (str : Fin 4) : s.SameStores (s.weldEval str) := by
  unfold State.weldEval
  dsimp only
  repeat' split
  all_goals simp [State.SameStores]

@[simp] theorem State.weldedEval_stores (s : State) (str : Fin 4) : s.SameStores (s.weldedEval str) := by
  unfold State.weldedEval
  split <;> simp [State.SameStores]

@[simp] theorem State.startWeldCheck_stores (s : State) (str : Fin 4) (cause : Nat) (stamp : BitVec 32) :
    s.SameStores (s.startWeldCheck str cause stamp) := by
  simp [State.startWeldCheck, State.SameStores]

@[simp] theorem State.weldPeers_stores (s : State) : s.SameStores s.weldPeers := by
  simp [State.weldPeers, State.SameStores]

@[simp] theorem State.startOpening_stores (s : State) (str : Fin 4) (cause : Nat) (stamp : BitVec 32) :
    s.SameStores (s.startOpening str cause stamp) := by
  simp [State.SameStores, State.startOpening]

@[simp] theorem State.releaseOpening_stores (s : State) (str : Fin 4) : s.SameStores (s.releaseOpening str) := by
  unfold State.releaseOpening
  dsimp only
  split <;> simp [State.SameStores]

@[simp] theorem State.breakNow_stores (s : State) (str : Fin 4) (cause : Nat) (i : Option Nat) : s.SameStores (s.breakNow str cause i) := by
  unfold State.breakNow
  dsimp only
  split
  · simp [State.SameStores]
  · split <;> simp [State.SameStores]

@[simp] theorem State.requestB_stores (s : State) (str : Fin 4) (cause : Nat) : s.SameStores (s.requestB str cause) := by
  unfold State.requestB
  split <;> simp [State.SameStores]

@[simp] theorem State.openAllA_stores (s : State) (cause : Nat) : s.SameStores (s.openAllA cause) := by
  simp [State.openAllA, State.SameStores, apply_ite State.mem, apply_ite State.sec, apply_ite State.clk]

@[simp] theorem State.sendEnables_stores (s : State) : s.SameStores (State.sendEnables s) :=
  ⟨rfl, rfl, rfl⟩

@[simp] theorem State.sendStatus_stores (s : State) (sent0 sent1 : Bool) : s.SameStores (s.sendStatus sent0 sent1) := by
  unfold State.sendStatus
  repeat' split
  all_goals simp [State.SameStores]

@[simp] theorem State.hltEvent_stores (s : State) (n : Nat) : s.SameStores (State.hltEvent s n) :=
  ⟨rfl, rfl, rfl⟩

@[simp] theorem State.lockOut_stores (s : State) (d : Detail) (w : Fin 16) : s.SameStores (s.lockOut d w) := by
  simp [State.lockOut, State.SameStores]

@[simp] theorem State.raiseDetail_stores (s : State) (d : Detail) (w : Fin 16) : s.SameStores (s.raiseDetail d w) := by
  unfold State.raiseDetail
  dsimp only
  repeat' split
  all_goals simp [State.SameStores]

@[simp] theorem State.dropDetail_stores (s : State) (d : Detail) (w : Nat) : s.SameStores (State.dropDetail s d w) :=
  ⟨rfl, rfl, rfl⟩

@[simp] theorem State.clearDetail_stores (s : State) (d : Detail) : s.SameStores (State.clearDetail s d) :=
  ⟨rfl, rfl, rfl⟩

@[simp] theorem State.sinEval_stores (s : State) (n : Fin 8) : s.SameStores (s.sinEval n) := by
  unfold State.sinEval
  dsimp only
  repeat' split
  all_goals simp [State.SameStores]

@[simp] theorem State.accError_stores (s : State) (k : AccKind) (off : Nat) : s.SameStores (State.accError s k off) :=
  ⟨rfl, rfl, rfl⟩

@[simp] theorem State.viewError_stores (s : State) (v : View) (k : AccKind) (off : Nat) : s.SameStores (s.viewError v k off) := by
  unfold State.viewError
  split <;> simp [State.SameStores]

@[simp] theorem State.ringEvent_stores (s : State) (r : Fin 16) (n : Nat) : s.SameStores (State.ringEvent s r n) :=
  ⟨rfl, rfl, rfl⟩

@[simp] theorem State.pruneTroughs_stores (s : State) : s.SameStores s.pruneTroughs := by
  unfold State.pruneTroughs
  simp [State.SameStores]

@[simp] theorem State.endStream_stores (s : State) (x : StreamS) (status : BitVec 8) (unused : Nat) (withResult : Bool) :
    s.SameStores (s.endStream x status unused withResult) := by
  unfold State.endStream
  dsimp only
  split <;> simp [State.SameStores]

@[simp] theorem State.stopStream_stores (s : State) (x : StreamS) : s.SameStores (s.stopStream x) := by
  simp [State.SameStores, State.stopStream]

@[simp] theorem State.completeBuffer_stores (s : State) (x : StreamS) : s.SameStores (s.completeBuffer x) := by
  unfold State.completeBuffer
  split <;> simp [State.SameStores]

@[simp] theorem State.stopRingStreams_stores (s : State) (r : Fin 16) : s.SameStores (s.stopRingStreams r) := by
  simp [State.SameStores, State.stopRingStreams]

@[simp] theorem State.dropReads_stores (s : State) (r : Fin 16) : s.SameStores (State.dropReads s r) :=
  ⟨rfl, rfl, rfl⟩

@[simp] theorem State.ringError_stores (s : State) (r : Fin 16) (n : Nat) : s.SameStores (State.ringError s r n) :=
  ⟨rfl, rfl, rfl⟩

@[simp] theorem State.writeRingCfg_stores (s : State) (view : View) (r : Fin 16) (v : Word) : s.SameStores (s.writeRingCfg view r v) := by
  unfold State.writeRingCfg
  dsimp only
  repeat' split
  all_goals simp [State.SameStores]

@[simp] theorem State.writeRingBase_stores (s : State) (view : View) (r : Fin 16) (sq lo : Bool) (off : Nat) (v : Word) :
    s.SameStores (s.writeRingBase view r sq lo off v) := by
  unfold State.writeRingBase
  dsimp only
  repeat' split
  all_goals simp [State.SameStores]

@[simp] theorem hostReset_stores (s : State) : s.SameStores (hostReset s) :=
  ⟨rfl, rfl, rfl⟩

@[simp] theorem State.sendPending_stores (s : State) : s.SameStores s.sendPending := by
  refine State.stores_foldl _ _ (fun t v => ?_) _
  dsimp only
  split <;> simp [State.SameStores]

@[simp] theorem State.writeDbBase_stores (s : State) (view : View) (hi : Bool) (v : Word) : s.SameStores (s.writeDbBase view hi v) := by
  unfold State.writeDbBase
  split <;> simp [State.SameStores]

@[simp] theorem State.clearDbErr_stores (s : State) : s.SameStores (State.clearDbErr s) :=
  ⟨rfl, rfl, rfl⟩

@[simp] theorem takeSlot_stores (slots : Bank 16 DbSlot) (acc : State × Bool) (r : Fin 16) :
    acc.1.SameStores (takeSlot slots acc r).1 := by
  unfold takeSlot
  split <;> simp [State.SameStores]

@[simp] theorem State.readEntries_stores (s : State) (r : Fin 16) (n : Nat) : s.SameStores (State.readEntries s r n) :=
  ⟨rfl, rfl, rfl⟩

@[simp] theorem State.passOver_stores (s : State) (rs : List (Fin 16)) : s.SameStores (s.passOver rs) := by
  simp [State.SameStores, State.passOver]

@[simp] theorem State.visit_stores (s : State) (cls : BitVec 2) (r : Fin 16) : s.SameStores (s.visit cls r) := by
  simp [State.SameStores, State.visit]

@[simp] theorem State.settleDeps_stores (s : State) (stamp : BitVec 32) : s.SameStores (s.settleDeps stamp) := by
  unfold State.settleDeps
  repeat' split
  all_goals simp [State.SameStores]

@[simp] theorem arrive_stores (s : State) (r : Fin 16) (e : BitVec 512) : s.SameStores (arrive s r e) := by
  unfold arrive
  dsimp only
  repeat' split
  all_goals simp [State.SameStores]

@[simp] theorem State.sendRingVector_stores (s : State) (r : Fin 16) : s.SameStores (s.sendRingVector r) := by
  simp [State.SameStores, State.sendRingVector]

@[simp] theorem State.countIrq_stores (s : State) (r : Fin 16) : s.SameStores (s.countIrq r) := by
  unfold State.countIrq
  dsimp only
  repeat' split
  all_goals simp [State.SameStores]

@[simp] theorem State.moveCompletion_stores (s : State) (r : Fin 16) (c : Completion) : s.SameStores (s.moveCompletion r c) := by
  unfold State.moveCompletion
  split <;> simp [State.SameStores]

@[simp] theorem State.unmask_stores (s : State) (v : Fin 32) : s.SameStores (s.unmask v) := by
  unfold State.unmask
  dsimp only
  split <;> simp [State.SameStores]

@[simp] theorem State.troughTakes_stores (s : State) (src : Source) (words : List (BitVec 32)) (mask : BitVec 32) :
    s.SameStores (s.troughTakes src words mask) := by
  unfold State.troughTakes
  dsimp only
  split <;> simp [State.SameStores]

@[simp] theorem State.troughLoses_stores (s : State) (src : Source) : s.SameStores (s.troughLoses src) := by
  unfold State.troughLoses
  split <;> simp [State.SameStores]

@[simp] theorem State.setStream_stores (s : State) (x : StreamS) : s.SameStores (State.setStream s x) :=
  ⟨rfl, rfl, rfl⟩

@[simp] theorem State.moveRecord_stores (s : State) (src : Source) (x : StreamS) (i : TroughItem) (buf : BitVec 64) :
    s.SameStores (State.moveRecord s src x i buf) :=
  ⟨rfl, rfl, rfl⟩

@[simp] theorem startStream_stores (op : BitVec 8) (c : Cmd) (s : State) : s.SameStores (startStream op c s) := by
  unfold startStream
  dsimp only
  repeat' split
  all_goals simp [State.SameStores]

@[simp] theorem stopByStamp_stores (c : Cmd) (s : State) : s.SameStores (stopByStamp c s) := by
  unfold stopByStamp
  dsimp only
  repeat' split
  all_goals simp [State.SameStores]

@[simp] theorem State.onSin_stores (s : State) (n : Fin 8) (f : Sin → Sin) : s.SameStores (State.onSin s n f) :=
  ⟨rfl, rfl, rfl⟩

@[simp] theorem State.sinPair_stores (s : State) (n : Fin 8) : s.SameStores (s.sinPair n) := by
  unfold State.sinPair
  dsimp only
  split <;> simp [State.SameStores]

@[simp] theorem State.judgeSin_stores (s : State) (k : Fin 4) (read : Bank 16 PulseReading) (n : Fin 8) : s.SameStores (s.judgeSin k read n) := by
  unfold State.judgeSin
  dsimp only
  repeat' split
  all_goals simp [State.SameStores]

@[simp] theorem State.writeHeartbeat_stores (s : State) (view : View) (v : Word) : s.SameStores (s.writeHeartbeat view v) := by
  unfold State.writeHeartbeat
  dsimp only
  repeat' split
  all_goals simp [State.SameStores]

@[simp] theorem State.onNet_stores (s : State) (f : HaltNet → HaltNet) : s.SameStores (State.onNet s f) :=
  ⟨rfl, rfl, rfl⟩

@[simp] theorem State.strike_stores (s : State) : s.SameStores s.strike := by
  unfold State.strike
  dsimp only
  repeat' split
  all_goals simp [State.SameStores]

@[simp] theorem State.armPermits_stores (s : State) (bits : BitVec 4) : s.SameStores (s.armPermits bits) := by
  unfold State.armPermits
  split <;> simp [State.SameStores]

@[simp] theorem State.acceptPair_stores (s : State) (b : BitVec 128) : s.SameStores (s.acceptPair b) := by
  unfold State.acceptPair
  dsimp only
  repeat' split
  all_goals simp [State.SameStores]

@[simp] theorem State.loneCopy_stores (s : State) (net : Fin 2) : s.SameStores (s.loneCopy net) := by
  unfold State.loneCopy
  repeat' split
  all_goals simp [State.SameStores]

@[simp] theorem State.onPulse_stores (s : State) (j : Fin 12) (f : CtPulse → CtPulse) : s.SameStores (State.onPulse s j f) :=
  ⟨rfl, rfl, rfl⟩

@[simp] theorem State.contactorResult_stores (s : State) (j : Fin 12) (passed : Bool) : s.SameStores (s.contactorResult j passed) := by
  unfold State.contactorResult
  dsimp only
  repeat' split
  all_goals simp [State.SameStores]

@[simp] theorem State.onKey_stores (s : State) (f : Rstk → Rstk) : s.SameStores (State.onKey s f) :=
  ⟨rfl, rfl, rfl⟩

@[simp] theorem State.pressRefused_stores (s : State) (code d3 : Nat) : s.SameStores (s.pressRefused code d3) := by
  simp [State.SameStores, State.pressRefused]

@[simp] theorem State.pressInvalid_stores (s : State) (why : Nat) : s.SameStores (s.pressInvalid why) := by
  unfold State.pressInvalid
  split <;> simp [State.SameStores]

@[simp] theorem State.lockExit_stores (s : State) (pressMs : Nat) : s.SameStores (s.lockExit pressMs) := by
  simp [State.SameStores, State.lockExit]

@[simp] theorem State.pressValid_stores (s : State) (pressMs : Nat) : s.SameStores (s.pressValid pressMs) := by
  unfold State.pressValid
  dsimp only
  repeat' split
  all_goals simp [State.SameStores]

@[simp] theorem State.writeHostReq_stores (s : State) (v : Word) : s.SameStores (s.writeHostReq v) := by
  unfold State.writeHostReq
  split <;> simp [State.SameStores]

@[simp] theorem State.preFault_stores (s : State) (str : Fin 4) (code : BitVec 3) : s.SameStores (s.preFault str code) := by
  simp [State.preFault, State.SameStores]

@[simp] theorem State.pcOn_stores (s : State) (str : Fin 4) : s.SameStores (s.pcOn str) := by
  simp [State.SameStores, State.pcOn]

@[simp] theorem State.preDone_stores (s : State) (str : Fin 4) : s.SameStores (s.preDone str) := by
  simp [State.SameStores, State.preDone]

@[simp] theorem State.preComplete_stores (s : State) (str : Fin 4) (inst : Nat) : s.SameStores (s.preComplete str inst) := by
  unfold State.preComplete
  repeat' split
  all_goals simp [State.SameStores]

@[simp] theorem State.preParallel_stores (s : State) (str : Fin 4) : s.SameStores (s.preParallel str) := by
  unfold State.preParallel
  dsimp only
  repeat' split
  all_goals simp [State.SameStores]

@[simp] theorem State.cnPhaseFail_stores (s : State) (str : Fin 4) : s.SameStores (s.cnPhaseFail str) := by
  simp [State.cnPhaseFail, State.SameStores]

@[simp] theorem State.onVLink_stores (s : State) (str : Fin 4) (inst : Nat) : s.SameStores (s.onVLink str inst) := by
  unfold State.onVLink
  repeat' split
  all_goals simp [State.SameStores]

@[simp] theorem State.onIMain_stores (s : State) (str : Fin 4) : s.SameStores (s.onIMain str) := by
  unfold State.onIMain
  split <;> simp [State.SameStores]

@[simp] theorem State.onIso_stores (s : State) (str : Fin 4) : s.SameStores (s.onIso str) := by
  unfold State.onIso
  dsimp only
  split <;> simp [State.SameStores]

@[simp] theorem State.onTemps_stores (s : State) (str : Fin 4) : s.SameStores (s.onTemps str) := by
  unfold State.onTemps
  split <;> simp [State.SameStores]

@[simp] theorem State.closeRefuse_stores (s : State) (c : Cmd) (str : Fin 4) (code d3 : Nat) : s.SameStores (s.closeRefuse c str code d3) := by
  simp [State.SameStores, State.closeRefuse]

@[simp] theorem State.dipEnd_stores (s : State) (str : Fin 4) : s.SameStores (s.dipEnd str) := by
  simp [State.dipEnd, State.SameStores]

@[simp] theorem State.startClose_stores (s : State) (c : Cmd) (str : Fin 4) : s.SameStores (s.startClose c str) := by
  unfold State.startClose
  dsimp only
  split <;> split <;> simp [State.SameStores]

@[simp] theorem stringCloseChecked_stores (c : Cmd) (str : Fin 4) (s : State) : s.SameStores (stringCloseChecked c str s) := by
  unfold stringCloseChecked
  dsimp only
  repeat' split
  all_goals simp [State.SameStores]

@[simp] theorem State.joinOpen_stores (s : State) (c : Cmd) (str : Fin 4) (started : Bool) : s.SameStores (State.joinOpen s c str started) :=
  ⟨rfl, rfl, rfl⟩

@[simp] theorem stringOpen_stores (c : Cmd) (str : Fin 4) (immediate : Bool) (s : State) : s.SameStores (stringOpen c str immediate s) := by
  unfold stringOpen
  repeat' split
  all_goals simp [State.SameStores]

@[simp] theorem State.dipTimeout_stores (s : State) : s.SameStores s.dipTimeout := by
  simp [State.dipTimeout, State.SameStores, apply_ite State.mem, apply_ite State.sec, apply_ite State.clk]

@[simp] theorem State.dipStart_stores (s : State) : s.SameStores s.dipStart := by
  simp [State.dipStart, State.SameStores, apply_ite State.mem, apply_ite State.sec, apply_ite State.clk]

@[simp] theorem State.isoRequest_stores (s : State) (str : Fin 4) : s.SameStores (s.isoRequest str) := by
  unfold State.isoRequest
  repeat' split
  all_goals simp [State.SameStores]

@[simp] theorem State.holdAges_stores (s : State) (str : Fin 4) (stop : Bool) : s.SameStores (s.holdAges str stop) := by
  simp [State.SameStores, State.holdAges]

@[simp] theorem State.leaveService_stores (s : State) (str : Fin 4) : s.SameStores (s.leaveService str) := by
  unfold State.leaveService
  dsimp only
  repeat' split
  all_goals simp [State.SameStores]

@[simp] theorem State.restartWindow_stores (s : State) (u : Fin 128) (from_ : Nat) : s.SameStores (State.restartWindow s u from_) :=
  ⟨rfl, rfl, rfl⟩

@[simp] theorem State.restartHistory_stores (s : State) (u : Fin 128) (from_ : Nat) (codes : List (BitVec 8)) (rate : BitVec 2) :
    s.SameStores (State.restartHistory s u from_ codes rate) :=
  ⟨rfl, rfl, rfl⟩

@[simp] theorem State.formRecords_stores (s : State) (u : Fin 128) : s.SameStores (s.formRecords u) := by
  unfold State.formRecords
  dsimp only
  split <;> simp [State.SameStores]

@[simp] theorem State.compare_stores (s : State) (u : Fin 128) (str : Fin 4) (key : Nat) (k : TripKind) (verdict : Option (Bool × Bool)) :
    s.SameStores (s.compare u str key k verdict) := by
  unfold State.compare
  dsimp only
  repeat' split
  all_goals simp [State.SameStores]

@[simp] theorem State.compareSweep_stores (s : State) (u : Fin 128) (str : Fin 4) (smp : List (BitVec 8 × Sample)) :
    s.SameStores (s.compareSweep u str smp) := by
  simp [State.compareSweep, State.SameStores, apply_ite State.mem, apply_ite State.sec, apply_ite State.clk]

@[simp] theorem State.comparePair_stores (s : State) (u : Fin 128) (str : Fin 4) (m c : Sample) : s.SameStores (s.comparePair u str m c) := by
  simp [State.SameStores, State.comparePair]

@[simp] theorem State.applyTrips_stores (s : State) : s.SameStores s.applyTrips := by
  simp [State.applyTrips, State.SameStores, apply_ite State.mem, apply_ite State.sec, apply_ite State.clk]

@[simp] theorem sweepRate_stores (c : Cmd) (s : State) : s.SameStores (sweepRate c s) := by
  unfold sweepRate
  dsimp only
  repeat' split
  all_goals simp [State.SameStores]

@[simp] theorem State.queueLink_stores (s : State) (i : Fin 32) (l : List LinkSlot) : s.SameStores (State.queueLink s i l) :=
  ⟨rfl, rfl, rfl⟩

@[simp] theorem sweepList_stores (c : Cmd) (s : State) : s.SameStores (sweepList c s) := by
  unfold sweepList
  dsimp only
  repeat' split
  all_goals simp [State.SameStores]

@[simp] theorem sweepAverage_stores (c : Cmd) (s : State) : s.SameStores (sweepAverage c s) := by
  unfold sweepAverage
  dsimp only
  repeat' split
  all_goals simp [State.SameStores]

@[simp] theorem sweepSleep_stores (c : Cmd) (s : State) : s.SameStores (sweepSleep c s) := by
  unfold sweepSleep
  dsimp only
  split <;> simp [State.SameStores]

@[simp] theorem State.applyAverage_stores (s : State) (i : Fin 32) : s.SameStores (s.applyAverage i) := by
  simp [State.applyAverage, State.SameStores, apply_ite State.mem, apply_ite State.sec, apply_ite State.clk]

@[simp] theorem State.sendLink_stores (s : State) (i : Fin 32) (k : LinkSlot) : s.SameStores (State.sendLink s i k) :=
  ⟨rfl, rfl, rfl⟩

@[simp] theorem State.sendBalance_stores (s : State) (u : Fin 128) : s.SameStores (State.sendBalance s u) :=
  ⟨rfl, rfl, rfl⟩

@[simp] theorem State.driveMask_stores (s : State) (u : Fin 128) (m testArg : BitVec 16) : s.SameStores (State.driveMask s u m testArg) :=
  ⟨rfl, rfl, rfl⟩

@[simp] theorem State.releaseMask_stores (s : State) (u : Fin 128) : s.SameStores (State.releaseMask s u) :=
  ⟨rfl, rfl, rfl⟩

@[simp] theorem State.sendRouting_stores (s : State) (u : Fin 128) (ch : Option Nat) : s.SameStores (State.sendRouting s u ch) :=
  ⟨rfl, rfl, rfl⟩

@[simp] theorem State.routeRun_stores (s : State) (u : Fin 128) : s.SameStores (s.routeRun u) := by
  unfold State.routeRun
  split <;> simp [State.SameStores]

@[simp] theorem State.resumeTest_stores (s : State) (u : Fin 128) : s.SameStores (s.resumeTest u) := by
  unfold State.resumeTest
  repeat' split
  all_goals simp [State.SameStores]

@[simp] theorem State.stopRouting_stores (s : State) (u : Fin 128) : s.SameStores (s.stopRouting u) := by
  unfold State.stopRouting
  repeat' split
  all_goals simp [State.SameStores]

@[simp] theorem State.endRun_stores (s : State) (u : Fin 128) (code : BitVec 4) : s.SameStores (s.endRun u code) := by
  unfold State.endRun
  split <;> simp [State.SameStores]

@[simp] theorem State.abortRun_stores (s : State) (u : Fin 128) : s.SameStores (s.abortRun u) := by
  unfold State.abortRun
  split <;> simp [State.SameStores]

@[simp] theorem State.applyRate_stores (s : State) (str : Fin 4) (rate : BitVec 2) (b : Nat) : s.SameStores (s.applyRate str rate b) := by
  unfold State.applyRate
  dsimp only
  split <;> simp [State.SameStores]

@[simp] theorem State.clearAlign_stores (s : State) (u : Fin 128) : s.SameStores (State.clearAlign s u) :=
  ⟨rfl, rfl, rfl⟩

@[simp] theorem State.integEvent_stores (s : State) (u : Fin 128) : s.SameStores (State.integEvent s u) :=
  ⟨rfl, rfl, rfl⟩

@[simp] theorem State.changeInvalid_stores (s : State) (u : Fin 128) (f : UnitInteg → UnitInteg) : s.SameStores (State.changeInvalid s u f) :=
  ⟨rfl, rfl, rfl⟩

@[simp] theorem State.ageRecord_stores (s : State) (str : Fin 4) (current two : Bool) (dir : Crossing) :
    s.SameStores (s.ageRecord str current two dir) := by
  simp [State.SameStores, State.ageRecord]

@[simp] theorem State.onWire_stores (s : State) (u : Fin 128) (w : Fin 16) (f : WireHist → WireHist) : s.SameStores (State.onWire s u w f) :=
  ⟨rfl, rfl, rfl⟩

@[simp] theorem State.wireRecord_stores (s : State) (u : Fin 128) (w : Fin 16) (outcome sw : Nat) : s.SameStores (s.wireRecord u w outcome sw) := by
  simp [State.SameStores, State.wireRecord]

@[simp] theorem State.confirmWire_stores (s : State) (u : Fin 128) (w : Fin 16) (outcome sw : Nat) : s.SameStores (s.confirmWire u w outcome sw) := by
  simp [State.SameStores, State.confirmWire]

@[simp] theorem State.clearWire_stores (s : State) (u : Fin 128) (w : Fin 16) : s.SameStores (s.clearWire u w) := by
  unfold State.clearWire
  dsimp only
  split <;> simp [State.SameStores]

@[simp] theorem State.queueProbe_stores (s : State) (u : Fin 128) (p : Probe) : s.SameStores (State.queueProbe s u p) :=
  ⟨rfl, rfl, rfl⟩

@[simp] theorem State.suspectWire_stores (s : State) (u : Fin 128) (w : Fin 16) : s.SameStores (s.suspectWire u w) := by
  unfold State.suspectWire
  dsimp only
  split <;> simp [State.SameStores]

@[simp] theorem State.pairSum_stores (s : State) (u : Fin 128) : s.SameStores (s.pairSum u) := by
  unfold State.pairSum
  dsimp only
  repeat' split
  all_goals simp [State.SameStores, apply_ite State.mem, apply_ite State.sec, apply_ite State.clk]

@[simp] theorem State.setPlaus_stores (s : State) (p : PlausId) (on : Bool) : s.SameStores (s.setPlaus p on) := by
  unfold State.setPlaus
  split <;> simp [State.SameStores]

@[simp] theorem State.plausRecord_stores (s : State) (p : PlausId) (on : Bool) : s.SameStores (s.plausRecord p on) := by
  unfold State.plausRecord
  split <;> simp [State.SameStores]

@[simp] theorem State.wireOutcome_stores (s : State) (u : Fin 128) (w : Fin 16) (out sw : Nat) : s.SameStores (s.wireOutcome u w out sw) := by
  unfold State.wireOutcome
  dsimp only
  repeat' split
  all_goals simp [State.SameStores]

@[simp] theorem State.mendWire_stores (s : State) (u : Fin 128) (w : Fin 16) (sw : Nat) : s.SameStores (s.mendWire u w sw) := by
  simp [State.SameStores, State.mendWire]

@[simp] theorem State.commandOutcome_stores (s : State) (u : Fin 128) (mode : BitVec 8) (w : Fin 16) (out sw : Nat) :
    s.SameStores (s.commandOutcome u mode w out sw) := by
  unfold State.commandOutcome
  repeat' split
  all_goals simp [State.SameStores]

@[simp] theorem State.endProbe_stores (s : State) (u : Fin 128) (q : Probe) (outs : List (Fin 16 × Nat × Nat)) (stopped : Bool) :
    s.SameStores (s.endProbe u q outs stopped) := by
  unfold State.endProbe
  dsimp only
  repeat' split
  all_goals simp [State.SameStores]

@[simp] theorem State.startWireCheck_stores (s : State) (u : Fin 128) : s.SameStores (State.startWireCheck s u) :=
  ⟨rfl, rfl, rfl⟩

@[simp] theorem State.switchResult_stores (s : State) (u : Fin 128) (c : Fin 16) (out : BitVec 4) : s.SameStores (s.switchResult u c out) := by
  unfold State.switchResult
  dsimp only
  repeat' split
  all_goals simp [State.SameStores]

@[simp] theorem State.finishTest_stores (s : State) (u : Fin 128) (t : BalTest) : s.SameStores (s.finishTest u t) := by
  unfold State.finishTest
  split <;> simp [State.SameStores]

@[simp] theorem State.nextSwitch_stores (s : State) (u : Fin 128) (t : BalTest) : s.SameStores (s.nextSwitch u t) := by
  unfold State.nextSwitch
  dsimp only
  repeat' split
  all_goals simp [State.SameStores]

@[simp] theorem State.startTest_stores (s : State) (u : Fin 128) (mask : BitVec 16) (sched : Bool) (cmd : Option Cmd) :
    s.SameStores (s.startTest u mask sched cmd) := by
  simp [State.SameStores, State.startTest]

@[simp] theorem State.loseProbes_stores (s : State) (u : Fin 128) : s.SameStores (s.loseProbes u) := by
  unfold State.loseProbes
  dsimp only
  repeat' split
  all_goals simp [State.SameStores]

@[simp] theorem State.abandonProbes_stores (s : State) : s.SameStores s.abandonProbes := by
  simp [State.abandonProbes, State.SameStores, apply_ite State.mem, apply_ite State.sec, apply_ite State.clk]

@[simp] theorem balTestRun_stores (c : Cmd) (s : State) : s.SameStores (balTestRun c s) := by
  unfold balTestRun
  dsimp only
  repeat' split
  all_goals simp [State.SameStores]

@[simp] theorem balTestThresholds_stores (c : Cmd) (s : State) : s.SameStores (balTestThresholds c s) := by
  unfold balTestThresholds
  dsimp only
  repeat' split
  all_goals simp [State.SameStores]

@[simp] theorem State.configureUnit_stores (s : State) (u : Fin 128) (first : Nat) : s.SameStores (s.configureUnit u first) := by
  unfold State.configureUnit
  dsimp only
  repeat' split
  all_goals simp [State.SameStores]

@[simp] theorem State.startRun_stores (s : State) (u : Fin 128) (cmds : List Cmd) : s.SameStores (s.startRun u cmds) := by
  unfold State.startRun
  dsimp only
  repeat' split
  all_goals simp [State.SameStores]

@[simp] theorem State.runSweep_stores (s : State) (u : Fin 128) (start : Nat) (a b : Option Int) : s.SameStores (s.runSweep u start a b) := by
  unfold State.runSweep
  repeat' split
  all_goals simp [State.SameStores]

@[simp] theorem State.driftSweep_stores (s : State) (u : Fin 128) (a b : Option Int) : s.SameStores (State.driftSweep s u a b) :=
  ⟨rfl, rfl, rfl⟩

@[simp] theorem State.startShunt_stores (s : State) (str : Fin 4) (gain : Bool) (iRef : Int) (secs : Nat) (cmd : Option Cmd) :
    s.SameStores (State.startShunt s str gain iRef secs cmd) :=
  ⟨rfl, rfl, rfl⟩

@[simp] theorem State.shuntFrame_stores (s : State) (str : Fin 4) (g : Nat) (m c : BitVec 18) : s.SameStores (s.shuntFrame str g m c) := by
  unfold State.shuntFrame
  repeat' split
  all_goals simp [State.SameStores]

@[simp] theorem State.shuntFailed_stores (s : State) (str : Fin 4) (u : Fin 128) (r : ShuntRun) (out : BitVec 4) :
    s.SameStores (s.shuntFailed str u r out) := by
  simp [State.SameStores, State.shuntFailed]

@[simp] theorem calRunLive_stores (c : Cmd) (s : State) : s.SameStores (calRunLive c s) := by
  unfold calRunLive
  repeat' split
  all_goals simp [State.SameStores]

@[simp] theorem calRunShunt_stores (c : Cmd) (gain : Bool) (s : State) : s.SameStores (calRunShunt c gain s) := by
  unfold calRunShunt
  dsimp only
  repeat' split
  all_goals simp [State.SameStores]

@[simp] theorem calRunSettings_stores (c : Cmd) (s : State) : s.SameStores (calRunSettings c s) := by
  unfold calRunSettings
  dsimp only
  split <;> simp [State.SameStores]

@[simp] theorem State.settleDevice_stores (s : State) : s.SameStores s.settleDevice := by
  unfold State.settleDevice
  repeat' split
  all_goals simp [State.SameStores]

@[simp] theorem State.loadCalibration_stores (s : State) : s.SameStores s.loadCalibration := by
  unfold State.loadCalibration
  dsimp only
  refine State.SameStores.trans ?_ (State.stores_foldl _ _ (fun t u => ?_) _)
  · split <;> simp [State.SameStores]
  · split
    · simp [State.SameStores]
    · split <;> simp [State.SameStores]

@[simp] theorem State.streamImpedance_stores (s : State) (u : Fin 128) (c : Fin 16) : s.SameStores (s.streamImpedance u c) := by
  unfold State.streamImpedance
  dsimp only
  split <;> simp [State.SameStores]

@[simp] theorem State.publish_stores (s : State) : s.SameStores s.publish := by
  unfold State.publish
  dsimp only
  repeat' split
  all_goals simp [State.SameStores]

@[simp] theorem State.onCells_stores (s : State) (u : Fin 128) (f : EstCell → EstCell) : s.SameStores (State.onCells s u f) :=
  ⟨rfl, rfl, rfl⟩

@[simp] theorem State.learnStall_stores (s : State) (i : Fin 32) : s.SameStores (s.learnStall i) := by
  simp [State.learnStall, State.SameStores, apply_ite State.mem, apply_ite State.sec, apply_ite State.clk]

@[simp] theorem State.resumeEst_stores (s : State) : s.SameStores s.resumeEst := by
  unfold State.resumeEst
  split
  · exact ⟨rfl, rfl, rfl⟩
  · dsimp only
    split
    · exact ⟨rfl, rfl, rfl⟩
    · simp only [State.SameStores]
      refine State.stores_foldl _ _ (fun t u => ?_) s
      split
      · exact ⟨rfl, rfl, rfl⟩
      · split <;> exact ⟨rfl, rfl, rfl⟩

@[simp] theorem State.stringLimits_stores (s : State) (str : Fin 4) : s.SameStores (s.stringLimits str) := by
  unfold State.stringLimits
  dsimp only
  split <;> simp [State.SameStores]

@[simp] theorem State.measureShares_stores (s : State) : s.SameStores s.measureShares := by
  unfold State.measureShares
  dsimp only
  split <;> simp [State.SameStores]

@[simp] theorem State.yardLimits_stores (s : State) : s.SameStores s.yardLimits := by
  simp [State.SameStores, State.yardLimits]

@[simp] theorem State.limitsLate_stores (s : State) (n : Nat) : s.SameStores (s.limitsLate n) := by
  unfold State.limitsLate
  dsimp only
  repeat' split
  all_goals simp [State.SameStores]

@[simp] theorem State.runProjection_stores (s : State) (c : Cmd) : s.SameStores (s.runProjection c) := by
  simp [State.SameStores, State.runProjection]

@[simp] theorem State.queryWork_stores (s : State) : s.SameStores s.queryWork := by
  simp [State.SameStores, State.queryWork]

@[simp] theorem State.applyDescriptor_stores (s : State) (d : Descriptor) : s.SameStores (s.applyDescriptor d) := by
  cases d <;> simp [State.applyDescriptor, State.SameStores, apply_ite State.mem, apply_ite State.sec, apply_ite State.clk]

@[simp] theorem State.applyConfigs_stores (s : State) : s.SameStores s.applyConfigs := by
  refine State.SameStores.trans ⟨rfl, rfl, rfl⟩ (State.stores_foldl _ _ (fun t w => ?_) _)
  split <;> simp [State.SameStores]

@[simp] theorem State.loads_stores (s : State) (n : Nat) : s.SameStores (s.loads n) := by
  unfold State.loads
  split <;> simp [State.SameStores]

@[simp] theorem State.sendEstimates_stores (s : State) (x : StreamS) : s.SameStores (s.sendEstimates x) := by
  simp [State.SameStores, State.sendEstimates]

@[simp] theorem State.freshCells_stores (s : State) (u : Fin 128) : s.SameStores (State.freshCells s u) :=
  ⟨rfl, rfl, rfl⟩

@[simp] theorem State.estSweep_stores (s : State) (u : Fin 128) (str : Fin 4) : s.SameStores (s.estSweep u str) := by
  unfold State.estSweep
  dsimp only
  split <;> simp [State.SameStores]

@[simp] theorem State.estCurrent_stores (s : State) (u : Fin 128) (str : Fin 4) : s.SameStores (s.estCurrent u str) := by
  unfold State.estCurrent
  repeat' split
  all_goals simp [State.SameStores]

@[simp] theorem State.estAbs_stores (s : State) (str : Fin 4) (ma : Nat) : s.SameStores (State.estAbs s str ma) :=
  ⟨rfl, rfl, rfl⟩

@[simp] theorem State.startBlocks_stores (s : State) (str : Fin 4) : s.SameStores (s.startBlocks str) := by
  unfold State.startBlocks
  dsimp only
  split <;> simp [State.SameStores]

@[simp] theorem State.setExcitation_stores (s : State) (str : Fin 4) : s.SameStores (s.setExcitation str) := by
  simp [State.setExcitation, State.SameStores, apply_ite State.mem, apply_ite State.sec, apply_ite State.clk]

@[simp] theorem State.excPhaseStart_stores (s : State) (str : Fin 4) (bin : Fin 32) (phase : Bool) :
    s.SameStores (s.excPhaseStart str bin phase) := by
  simp [State.SameStores, State.excPhaseStart]

@[simp] theorem State.excPassDone_stores (s : State) (str : Fin 4) : s.SameStores (s.excPassDone str) := by
  simp [State.SameStores, State.excPassDone]

@[simp] theorem State.onWb_stores (s : State) (str : Fin 4) (f : WbStr → WbStr) : s.SameStores (State.onWb s str f) :=
  ⟨rfl, rfl, rfl⟩

@[simp] theorem State.wbEvent_stores (s : State) (n : Nat) : s.SameStores (State.wbEvent s n) :=
  ⟨rfl, rfl, rfl⟩

@[simp] theorem State.wbFrame_stores (s : State) (str : Fin 4) (f : Nat) : s.SameStores (s.wbFrame str f) := by
  unfold State.wbFrame
  dsimp only
  repeat' split
  all_goals simp [State.SameStores]

@[simp] theorem State.queueStmt_stores (s : State) (c : Cmd) (health : Bool) : s.SameStores (State.queueStmt s c health) :=
  ⟨rfl, rfl, rfl⟩

@[simp] theorem State.loadWeighbridge_stores (s : State) : s.SameStores s.loadWeighbridge := by
  unfold State.loadWeighbridge
  split
  split
  split
  refine State.SameStores.trans ?_ (State.stores_foldl _ _ (fun t i => ?_) _)
  · split <;> split <;> simp [State.SameStores]
  · dsimp only
    repeat' split
    all_goals simp [State.SameStores]

@[simp] theorem State.stallEvent_stores (s : State) (i : Fin 32) : s.SameStores (State.stallEvent s i) :=
  ⟨rfl, rfl, rfl⟩

@[simp] theorem State.linkRecord_stores (s : State) (i : Fin 32) (what : Byte) : s.SameStores (s.linkRecord i what) := by
  simp [State.SameStores, State.linkRecord]

@[simp] theorem State.countLoss_stores (s : State) (i : Fin 32) : s.SameStores (State.countLoss s i) :=
  ⟨rfl, rfl, rfl⟩

@[simp] theorem State.loseUnit_stores (s : State) (u : Fin 128) : s.SameStores (s.loseUnit u) := by
  unfold State.loseUnit
  dsimp only
  repeat' split
  all_goals simp [State.SameStores]

@[simp] theorem State.reachUnit_stores (s : State) (u : Fin 128) : s.SameStores (State.reachUnit s u) :=
  ⟨rfl, rfl, rfl⟩

@[simp] theorem State.readTrims_stores (s : State) (u : Fin 128) (again : Nat) : s.SameStores (State.readTrims s u again) :=
  ⟨rfl, rfl, rfl⟩

@[simp] theorem State.trimsMissed_stores (s : State) (u : Fin 128) : s.SameStores (State.trimsMissed s u) :=
  ⟨rfl, rfl, rfl⟩

@[simp] theorem State.askTrims_stores (s : State) (u : Fin 128) : s.SameStores (s.askTrims u) := by
  unfold State.askTrims
  repeat' split
  all_goals simp [State.SameStores]

@[simp] theorem State.startEnum_stores (s : State) (i : Fin 32) (cause : BitVec 4) : s.SameStores (s.startEnum i cause) := by
  simp [State.startEnum, State.SameStores]

@[simp] theorem State.kickEnum_stores (s : State) (i : Fin 32) : s.SameStores (s.kickEnum i) := by
  unfold State.kickEnum
  repeat' split
  all_goals simp [State.SameStores]

@[simp] theorem State.takeUnits_stores (s : State) (i : Fin 32) (first : Nat) : s.SameStores (s.takeUnits i first) := by
  simp [State.takeUnits, State.SameStores, apply_ite State.mem, apply_ite State.sec, apply_ite State.clk]

@[simp] theorem State.enumDone_stores (s : State) (i : Fin 32) : s.SameStores (s.enumDone i) := by
  simp [State.SameStores, State.enumDone]

@[simp] theorem State.becomeLost_stores (s : State) (i : Fin 32) : s.SameStores (s.becomeLost i) := by
  unfold State.becomeLost
  dsimp only
  split <;> simp [State.SameStores]

@[simp] theorem State.completeEnum_stores (s : State) (i : Fin 32) (n : Nat) : s.SameStores (s.completeEnum i n) := by
  simp [State.completeEnum, State.SameStores, apply_ite State.mem, apply_ite State.sec, apply_ite State.clk]

@[simp] theorem State.completeRejoin_stores (s : State) (i : Fin 32) (first n : Nat) : s.SameStores (s.completeRejoin i first n) := by
  unfold State.completeRejoin
  dsimp only
  repeat' split
  all_goals simp [State.SameStores, apply_ite State.mem, apply_ite State.sec, apply_ite State.clk]

@[simp] theorem State.completeRun_stores (s : State) (i : Fin 32) (r : EnumRun) : s.SameStores (s.completeRun i r) := by
  unfold State.completeRun
  split <;> simp [State.SameStores]

@[simp] theorem State.enumEdge_stores (s : State) (i : Fin 32) : s.SameStores (s.enumEdge i) := by
  unfold State.enumEdge
  repeat' split
  all_goals simp [State.SameStores]

@[simp] theorem State.endEnum_stores (s : State) (i : Fin 32) (r : EnumRun) : s.SameStores (s.endEnum i r) := by
  unfold State.endEnum
  split <;> simp [State.SameStores]

@[simp] theorem State.enumReply_stores (s : State) (i : Fin 32) (reply : BitVec 112) : s.SameStores (s.enumReply i reply) := by
  unfold State.enumReply
  dsimp only
  repeat' split
  all_goals simp [State.SameStores]

@[simp] theorem State.declareBreak_stores (s : State) (i : Fin 32) (k : Fin 4) : s.SameStores (s.declareBreak i k) := by
  simp [State.declareBreak, State.SameStores, apply_ite State.mem, apply_ite State.sec, apply_ite State.clk]

@[simp] theorem State.rollCall_stores (s : State) (i : Fin 32) : s.SameStores (s.rollCall i) := by
  unfold State.rollCall
  dsimp only
  split <;> simp [State.SameStores]

@[simp] theorem State.startPort_stores (s : State) (p : Fin 4) (mask : BitVec 32) : s.SameStores (s.startPort p mask) := by
  simp [State.startPort, State.SameStores, apply_ite State.mem, apply_ite State.sec, apply_ite State.clk]

@[simp] theorem State.sendRates_stores (s : State) (str : Fin 4) : s.SameStores (s.sendRates str) := by
  simp [State.sendRates, State.SameStores, apply_ite State.mem, apply_ite State.sec, apply_ite State.clk]

@[simp] theorem State.sendQueued_stores (s : State) (i : Fin 32) (k : LinkSlot) : s.SameStores (s.sendQueued i k) := by
  unfold State.sendQueued
  split <;> simp [State.SameStores]

@[simp] theorem State.fillWindow_stores (s : State) (i : Fin 32) : s.SameStores (s.fillWindow i) := by
  unfold State.fillWindow
  dsimp only
  repeat' split
  all_goals simp [State.SameStores]

@[simp] theorem State.stallEdge_stores (s : State) (i : Fin 32) : s.SameStores (s.stallEdge i) := by
  unfold State.stallEdge
  dsimp only
  repeat' split
  all_goals simp [State.SameStores]

@[simp] theorem State.arriving_stores (s : State) (u : Fin 128) (n : Sweep) : s.SameStores (s.arriving u n).1 :=
  ⟨rfl, rfl, rfl⟩

@[simp] theorem State.pairArrives_stores (s : State) (u : Fin 128) (str : Fin 4) (g : Nat) (pair : Option (BitVec 18 × BitVec 18)) :
    s.SameStores (s.pairArrives u str g pair) := by
  unfold State.pairArrives
  dsimp only
  repeat' split
  all_goals simp [State.SameStores]

@[simp] theorem State.mp4Arrives_stores (s : State) (str : Fin 4) (n : Sweep) (smp : List (BitVec 8 × Sample)) :
    s.SameStores (s.mp4Arrives str n smp) := by
  unfold State.mp4Arrives
  split <;> simp [State.SameStores]

@[simp] theorem State.markAges_stores (s : State) (u : Fin 128) : s.SameStores (s.markAges u) := by
  unfold State.markAges
  dsimp only
  repeat' split
  all_goals simp [State.SameStores]

@[simp] theorem State.checkSweep_stores (s : State) (u : Fin 128) (n : Sweep) (smp : List (BitVec 8 × Sample)) :
    s.SameStores (s.checkSweep u n smp) := by
  unfold State.checkSweep
  dsimp only
  repeat' split
  all_goals simp [State.SameStores]

@[simp] theorem State.mc16Arrives_stores (s : State) (u : Fin 128) (str : Fin 4) (n : Sweep) (smp : List (BitVec 8 × Sample)) :
    s.SameStores (s.mc16Arrives u str n smp) := by
  simp [State.SameStores, State.mc16Arrives]

@[simp] theorem State.discard_stores (s : State) (i : Fin 32) : s.SameStores (State.discard s i) :=
  ⟨rfl, rfl, rfl⟩

@[simp] theorem State.currentRecord_stores (s : State) (i : Fin 32) (str : Fin 4) (r : UpRecord) : s.SameStores (s.currentRecord i str r) := by
  unfold State.currentRecord
  dsimp only
  repeat' split
  all_goals simp [State.SameStores]

@[simp] theorem State.clearStallErr_stores (s : State) (i : Fin 32) : s.SameStores (State.clearStallErr s i) :=
  ⟨rfl, rfl, rfl⟩

@[simp] theorem State.leaveLink_stores (s : State) (i : Fin 32) : s.SameStores (s.leaveLink i) := by
  simp [State.leaveLink, State.SameStores, apply_ite State.mem, apply_ite State.sec, apply_ite State.clk]

@[simp] theorem State.rejoinLink_stores (s : State) (i : Fin 32) : s.SameStores (s.rejoinLink i) := by
  unfold State.rejoinLink
  dsimp only
  split <;> simp [State.SameStores]

@[simp] theorem State.pairEvent_stores (s : State) (n : Nat) : s.SameStores (State.pairEvent s n) :=
  ⟨rfl, rfl, rfl⟩

@[simp] theorem State.pairRecord_stores (s : State) (p : Fin 8) (kind lane group core pc : Nat) :
    s.SameStores (s.pairRecord p kind lane group core pc) := by
  simp [State.SameStores, State.pairRecord]

@[simp] theorem State.pairConsequence_stores (s : State) (p : Fin 8) : s.SameStores (s.pairConsequence p) := by
  simp [State.pairConsequence, State.SameStores, apply_ite State.mem, apply_ite State.sec, apply_ite State.clk]

@[simp] theorem State.pairCauseGone_stores (s : State) (p : Fin 8) : s.SameStores (s.pairCauseGone p) := by
  unfold State.pairCauseGone
  split <;> simp [State.SameStores]

@[simp] theorem State.testDone_stores (s : State) (p : Fin 8) (result : BitVec 4) : s.SameStores (s.testDone p result) := by
  unfold State.testDone
  split <;> simp [State.SameStores]

@[simp] theorem State.liveTestEnd_stores (s : State) (p : Fin 8) (result : BitVec 4) (core : Bool) : s.SameStores (s.liveTestEnd p result core) := by
  unfold State.liveTestEnd
  split <;> simp [State.SameStores]

@[simp] theorem State.startPair_stores (s : State) (writer : Fin 16) (p : Fin 8) : s.SameStores (s.startPair writer p) := by
  unfold State.startPair
  split <;> simp [State.SameStores]

@[simp] theorem State.stopPair_stores (s : State) (writer : Fin 16) (p : Fin 8) : s.SameStores (s.stopPair writer p) := by
  unfold State.stopPair
  repeat' split
  all_goals simp [State.SameStores]

@[simp] theorem State.pairDone_stores (s : State) (writer : Fin 16) : s.SameStores (s.pairDone writer) := by
  unfold State.pairDone
  split <;> simp [State.SameStores]

@[simp] theorem State.setUnlock_stores (s : State) (mask : BitVec 8) (expires : Nat) : s.SameStores (s.setUnlock mask expires) := by
  unfold State.setUnlock
  split <;> simp [State.SameStores]

@[simp] theorem debugUnlock_stores (c : Cmd) (pkg : List Byte) (s : State) : s.SameStores (debugUnlock c pkg s) := by
  unfold debugUnlock
  dsimp only
  repeat' split
  all_goals simp [State.SameStores]

@[simp] theorem State.stbEvent_stores (s : State) (n : Nat) : s.SameStores (State.stbEvent s n) :=
  ⟨rfl, rfl, rfl⟩

@[simp] theorem State.cancelClear_stores (s : State) : s.SameStores s.cancelClear := by
  unfold State.cancelClear
  split <;> simp [State.SameStores]

@[simp] theorem State.clearMaxwait_stores (s : State) : s.SameStores (State.clearMaxwait s) :=
  ⟨rfl, rfl, rfl⟩

@[simp] theorem State.drawBytes_stores (n : Nat) (s : State) : s.SameStores (State.drawBytes n s).2 := by
  induction n generalizing s with
  | zero => exact ⟨rfl, rfl, rfl⟩
  | succ n ih => exact State.SameStores.trans ⟨rfl, rfl, rfl⟩ (ih s.draw.2)

@[simp] theorem State.loadCheckpoint_stores (s : State) : s.SameStores s.loadCheckpoint := by
  unfold State.loadCheckpoint
  split <;> simp [State.SameStores]

@[simp] theorem State.halterStart_stores (s : State) (rstkA rstkB : Bool) : s.SameStores (s.halterStart rstkA rstkB) := by
  unfold State.halterStart
  split <;> simp [State.SameStores]

@[simp] theorem State.pwrEvent_stores (s : State) (n : Nat) : s.SameStores (State.pwrEvent s n) :=
  ⟨rfl, rfl, rfl⟩

@[simp] theorem State.onPwr_stores (s : State) (f : Pwr → Pwr) : s.SameStores (State.onPwr s f) :=
  ⟨rfl, rfl, rfl⟩

@[simp] theorem State.sendVout_stores (s : State) (level : Nat) : s.SameStores (State.sendVout s level) :=
  ⟨rfl, rfl, rfl⟩

@[simp] theorem State.sendOperation_stores (s : State) (on : Bool) : s.SameStores (State.sendOperation s on) :=
  ⟨rfl, rfl, rfl⟩

@[simp] theorem State.sendRequest_stores (s : State) (why : PmbusWhy) : s.SameStores (s.sendRequest why) := by
  unfold State.sendRequest
  repeat' split
  all_goals simp [State.SameStores]

@[simp] theorem State.ask_stores (s : State) (why : PmbusWhy) : s.SameStores (s.ask why) := by
  simp [State.SameStores, State.ask]

@[simp] theorem State.levelEnd_stores (s : State) (failed : Bool) : s.SameStores (s.levelEnd failed) := by
  unfold State.levelEnd
  dsimp only
  repeat' split
  all_goals simp [State.SameStores]

@[simp] theorem State.setLevel_stores (s : State) (level : BitVec 2) : s.SameStores (s.setLevel level) := by
  unfold State.setLevel
  split <;> simp [State.SameStores]

@[simp] theorem State.startLevel_stores (s : State) (level : BitVec 2) (c : Option Cmd) : s.SameStores (s.startLevel level c) := by
  unfold State.startLevel
  dsimp only
  repeat' split
  all_goals simp [State.SameStores]

@[simp] theorem State.account_stores (s : State) (code : Nat) (state : BitVec 2) : s.SameStores (State.account s code state) :=
  ⟨rfl, rfl, rfl⟩

@[simp] theorem State.powerRecord_stores (s : State) (where_ : Option Nat) (cmd : Option (BitVec 8)) : s.SameStores (s.powerRecord where_ cmd) := by
  simp [State.SameStores, State.powerRecord]

@[simp] theorem State.countRefusal_stores (s : State) (n : Nat) (state : BitVec 2) : s.SameStores (s.countRefusal n state) := by
  simp [State.SameStores, State.countRefusal]

@[simp] theorem State.leaveEntry_stores (s : State) : s.SameStores (State.leaveEntry s) :=
  ⟨rfl, rfl, rfl⟩

@[simp] theorem State.refuseEntry_stores (s : State) (n : Nat) : s.SameStores (s.refuseEntry n) := by
  simp [State.SameStores, State.refuseEntry]

@[simp] theorem State.abortEntry_stores (s : State) (point : Nat) (src : BitVec 4) : s.SameStores (s.abortEntry point src) := by
  simp [State.SameStores, State.abortEntry]

@[simp] theorem State.stabledBegins_stores (s : State) : s.SameStores s.stabledBegins := by
  simp [State.stabledBegins, State.SameStores, apply_ite State.mem, apply_ite State.sec, apply_ite State.clk]

@[simp] theorem State.startEntry_stores (s : State) (q : PwrReq) : s.SameStores (s.startEntry q) := by
  unfold State.startEntry
  dsimp only
  split
  · split <;> simp [State.SameStores]
  · split <;> simp [State.SameStores]

@[simp] theorem State.applyRequest_stores (s : State) (q : PwrReq) : s.SameStores (s.applyRequest q) := by
  unfold State.applyRequest
  repeat' split
  all_goals simp [State.SameStores]

@[simp] theorem State.pendRequest_stores (s : State) (q : PwrReq) : s.SameStores (s.pendRequest q) := by
  unfold State.pendRequest
  dsimp only
  repeat' split
  all_goals simp [State.SameStores]

@[simp] theorem State.startWake_stores (s : State) (src : BitVec 4) (check loud : Bool) : s.SameStores (s.startWake src check loud) := by
  simp [State.SameStores, State.startWake]

@[simp] theorem State.request_stores (s : State) (q : PwrReq) : s.SameStores (s.request q) := by
  unfold State.request
  repeat' split
  all_goals simp [State.SameStores]

@[simp] theorem State.applyPending_stores (s : State) : s.SameStores s.applyPending := by
  unfold State.applyPending
  repeat' split
  all_goals simp [State.SameStores]

@[simp] theorem State.dropRecords_stores (s : State) : s.SameStores s.dropRecords := by
  unfold State.dropRecords
  simp [State.SameStores]

@[simp] theorem State.sleepUnits_stores (s : State) : s.SameStores s.sleepUnits := by
  simp [State.sleepUnits, State.SameStores, apply_ite State.mem, apply_ite State.sec, apply_ite State.clk]

@[simp] theorem State.isolateBegins_stores (s : State) : s.SameStores s.isolateBegins := by
  unfold State.isolateBegins
  dsimp only
  repeat' split
  all_goals simp [State.SameStores]

@[simp] theorem State.saveBegins_stores (s : State) : s.SameStores (State.saveBegins s) :=
  ⟨rfl, rfl, rfl⟩

@[simp] theorem State.endCheckIslands_stores (s : State) : s.SameStores (State.endCheckIslands s) :=
  ⟨rfl, rfl, rfl⟩

@[simp] theorem State.checkToWake_stores (s : State) (src : BitVec 4) : s.SameStores (s.checkToWake src) := by
  unfold State.checkToWake
  dsimp only
  repeat' split
  all_goals simp [State.SameStores]

@[simp] theorem State.retryWake_stores (s : State) : s.SameStores s.retryWake := by
  unfold State.retryWake
  split <;> simp [State.SameStores]

@[simp] theorem State.wakeSource_stores (s : State) (src : BitVec 4) : s.SameStores (s.wakeSource src) := by
  unfold State.wakeSource
  repeat' split
  all_goals simp [State.SameStores]

@[simp] theorem State.wakeComplete_stores (s : State) (src : BitVec 4) : s.SameStores (s.wakeComplete src) := by
  simp [State.SameStores, State.wakeComplete]

@[simp] theorem State.countWake_stores (s : State) (k : Wake) : s.SameStores (State.countWake s k) :=
  ⟨rfl, rfl, rfl⟩

@[simp] theorem State.pollAgain_stores (s : State) : s.SameStores (State.pollAgain s) :=
  ⟨rfl, rfl, rfl⟩

@[simp] theorem State.comparatorsFailed_stores (s : State) (code : BitVec 8) : s.SameStores (s.comparatorsFailed code) := by
  unfold State.comparatorsFailed
  dsimp only
  split <;> simp [State.SameStores]

@[simp] theorem State.allIslands_stores (s : State) : s.SameStores s.allIslands := by
  simp [State.allIslands, State.SameStores]

@[simp] theorem State.powerFault_stores (s : State) (where_ : Option Nat) (cmd : Option (BitVec 8)) : s.SameStores (s.powerFault where_ cmd) := by
  simp [State.SameStores, State.powerFault]

@[simp] theorem State.writePwrReq_stores (s : State) (core : Fin 16) (v : Word) : s.SameStores (s.writePwrReq core v) := by
  unfold State.writePwrReq
  split <;> simp [State.SameStores]

@[simp] theorem State.timeEvent_stores (s : State) (n : Nat) : s.SameStores (State.timeEvent s n) :=
  ⟨rfl, rfl, rfl⟩

@[simp] theorem State.moveStall_stores (s : State) (i : Fin 32) (dest : Option (Fin 4)) : s.SameStores (s.moveStall i dest) := by
  unfold State.moveStall
  split <;> simp [State.SameStores]

@[simp] theorem State.assignStalls_stores (s : State) : s.SameStores s.assignStalls := by
  simp [State.assignStalls, State.SameStores]

@[simp] theorem State.applyHaltRec_stores (s : State) (r : HaltRec) : s.SameStores (s.applyHaltRec r) := by
  simp [State.applyHaltRec, State.SameStores, apply_ite State.mem, apply_ite State.sec, apply_ite State.clk]

@[simp] theorem State.applyRecord_stores (s : State) (e : CfgEntry) : s.SameStores (s.applyRecord e) := by
  simp [State.applyRecord, State.SameStores, apply_ite State.mem, apply_ite State.sec, apply_ite State.clk]

@[simp] theorem State.secEvent_stores (s : State) (n : Nat) : s.SameStores (State.secEvent s n) :=
  ⟨rfl, rfl, rfl⟩

@[simp] theorem State.releasePair0_stores (s : State) : s.SameStores s.releasePair0 := by
  unfold State.releasePair0
  dsimp only
  repeat' split
  all_goals simp [State.SameStores]

@[simp] theorem State.joinNets_stores (s : State) : s.SameStores (State.joinNets s) :=
  ⟨rfl, rfl, rfl⟩

@[simp] theorem State.bootRecord_stores (s : State) (result : Nat) (n : Bool) : s.SameStores (s.bootRecord result n) := by
  simp [State.bootRecord, State.SameStores]

@[simp] theorem State.activateRecord_stores (s : State) (func : Nat) : s.SameStores (s.activateRecord func) := by
  simp [State.SameStores, State.activateRecord]

@[simp] theorem State.haltEntry_stores (s : State) (e : XEntry) : s.SameStores (s.haltEntry e) := by
  cases e <;> simp [State.haltEntry, State.SameStores, apply_ite State.mem, apply_ite State.sec, apply_ite State.clk]

@[simp] theorem State.takeEnables_stores (s : State) (mask : BitVec 12) (cutoffClosed : Bool) : s.SameStores (s.takeEnables mask cutoffClosed) := by
  simp [State.takeEnables, State.SameStores]

@[simp] theorem State.reinitCell_stores (s : State) (cell : Nat) : s.SameStores (State.reinitCell s cell) :=
  ⟨rfl, rfl, rfl⟩

@[simp] theorem State.faultCore_stores (s : State) (core : Fin 16) : s.SameStores (State.faultCore s core) :=
  ⟨rfl, rfl, rfl⟩

@[simp] theorem State.putSel_stores (s : State) (view : View) (x : Sel) : s.SameStores (s.putSel view x) := by
  unfold State.putSel
  split <;> simp [State.SameStores]

@[simp] theorem State.putSh_stores (s : State) (view : View) (x : Shadows) : s.SameStores (s.putSh view x) := by
  unfold State.putSh
  split <;> simp [State.SameStores]

@[simp] theorem State.writeSel_stores (s : State) (view : View) (off : Nat) (v : Word) : s.SameStores (s.writeSel view off v) := by
  simp [State.SameStores, State.writeSel]

@[simp] theorem State.writeEvtEn_stores (s : State) (v : Word) : s.SameStores (s.writeEvtEn v) := by
  unfold State.writeEvtEn
  dsimp only
  split <;> simp [State.SameStores]

@[simp] theorem State.writeHifCtrl_stores (s : State) (v : Word) : s.SameStores (s.writeHifCtrl v) := by
  unfold State.writeHifCtrl
  dsimp only
  split <;> simp [State.SameStores]

@[simp] theorem State.writePairCtrl_stores (s : State) (core : Fin 16) (v : Word) : s.SameStores (s.writePairCtrl core v) := by
  simp [State.writePairCtrl, State.SameStores, apply_ite State.mem, apply_ite State.sec, apply_ite State.clk]

@[simp] theorem State.writeMsix_stores (s : State) (off : Nat) (v : Word) : s.SameStores (s.writeMsix off v) := by
  unfold State.writeMsix
  repeat' split
  all_goals simp [State.SameStores]

@[simp] theorem State.writeCoreReg_stores (s : State) (core : Fin 16) (off : Nat) (v : Word) : s.SameStores (s.writeCoreReg core off v) := by
  unfold State.writeCoreReg
  repeat' split
  all_goals simp [State.SameStores]

@[simp] theorem State.writeRings_stores (s : State) (view : View) (off : Nat) (v : Word) : s.SameStores (s.writeRings view off v) := by
  unfold State.writeRings
  repeat' split
  all_goals simp [State.SameStores]

@[simp] theorem State.narrow_stores (s : State) (view : View) (bar : Bar) (off : Nat) : s.SameStores (s.narrow view bar off) := by
  unfold State.narrow
  split <;> simp [State.SameStores]

@[simp] theorem State.nudge_stores (s : State) : s.SameStores s.nudge := by
  unfold State.nudge
  repeat' split
  all_goals simp [State.SameStores]

@[simp] theorem State.onTherm_stores (s : State) (f : Therm → Therm) : s.SameStores (State.onTherm s f) :=
  ⟨rfl, rfl, rfl⟩

@[simp] theorem State.onSensor_stores (s : State) (n : Fin 12) (f : Sensor → Sensor) : s.SameStores (State.onSensor s n f) :=
  ⟨rfl, rfl, rfl⟩

@[simp] theorem State.thEvent_stores (s : State) (n : Nat) : s.SameStores (State.thEvent s n) :=
  ⟨rfl, rfl, rfl⟩

@[simp] theorem State.thermalRecord_stores (s : State) (cluster : Fin 4) (kind : Nat) (n : Option (Fin 12)) :
    s.SameStores (s.thermalRecord cluster kind n) := by
  simp [State.SameStores, State.thermalRecord]

@[simp] theorem State.judgeWarn_stores (s : State) : s.SameStores s.judgeWarn := by
  unfold State.judgeWarn
  dsimp only
  repeat' split
  all_goals simp [State.SameStores]

@[simp] theorem State.judgeThrottle_stores (s : State) : s.SameStores s.judgeThrottle := by
  unfold State.judgeThrottle
  dsimp only
  repeat' split
  all_goals simp [State.SameStores]

@[simp] theorem State.judgeTemp_stores (s : State) : s.SameStores s.judgeTemp := by
  simp [State.judgeTemp, State.SameStores]

end Sys2Proof.Machine
end

section
/-! SUPPORT. The form of the memories, and a step that keeps it with the tack store and the power-cycle count (log entry 3; 18 R452; 17 R444). -/

namespace Sys2Proof.Machine

/-- A codeword as every store leaves it: aligned and 16 bytes long (01 R29). -/
def Codeword.Whole (w : Codeword) : Prop := w.addr % 16 = 0 ∧ w.bytes.length = 16

/-- Both memories have the one form of their lists, and every codeword that waits for MRAM is whole (log entry 3). -/
structure Mem.InForm (m : Mem) : Prop where
  sram  : Memory.wf m.sram = true
  mram  : Memory.wf m.mram = true
  queue : ∀ w ∈ m.queue.all, w.Whole

/-- The form of a list of bytes, said of its members. -/
theorem Memory.sortedFrom_iff (m : List Host.Cell) (lo : Option Nat) :
    Memory.sortedFrom lo m = true ↔
      m.Pairwise (fun a b => a.1 < b.1) ∧ ∀ c ∈ m, c.2 ≠ Memory.blank ∧ ∀ l, lo = some l → l < c.1 := by
  induction m generalizing lo with
  | nil => simp [Memory.sortedFrom]
  | cons p m ih =>
    obtain ⟨k, b⟩ := p
    simp only [Memory.sortedFrom, Bool.and_eq_true, decide_eq_true_eq, ih, List.pairwise_cons, List.forall_mem_cons]
    cases lo with
    | none => simp; grind
    | some l => simp; grind

theorem Memory.wf_iff (m : List Host.Cell) :
    Memory.wf m = true ↔ m.Pairwise (fun a b => a.1 < b.1) ∧ ∀ c ∈ m, c.2 ≠ Memory.blank := by
  simp [Memory.wf, Memory.sortedFrom_iff]

theorem Memory.wf_filter {m : List Host.Cell} (p : Host.Cell → Bool) (h : Memory.wf m = true) : Memory.wf (m.filter p) = true := by
  rw [Memory.wf_iff] at h ⊢
  exact ⟨h.1.filter p, fun c hc => h.2 c (List.mem_filter.mp hc).1⟩

theorem MramQueue.mem_all {q : MramQueue} {w : Codeword} : w ∈ q.all ↔ ∃ l, w ∈ q.lane l := by
  simp only [MramQueue.all, List.mem_append]
  refine ⟨?_, fun ⟨l, h⟩ => ?_⟩
  · rintro (((h | h) | h) | h)
    · exact ⟨.wb, h⟩
    · exact ⟨.sb, h⟩
    · exact ⟨.cal, h⟩
    · exact ⟨.cr, h⟩
  · cases l <;> simp_all [MramQueue.lane]

theorem MramQueue.lane_setLane_of_ne (q : MramQueue) {l k : Lane} (ws : List Codeword) (h : k ≠ l) :
    (q.setLane l ws).lane k = q.lane k := by
  cases l <;> cases k <;> simp_all [MramQueue.setLane, MramQueue.lane]

/-- A lane of whole codewords keeps the queue whole. -/
theorem MramQueue.whole_setLane {q : MramQueue} {l : Lane} {ws : List Codeword} (hq : ∀ w ∈ q.all, w.Whole)
    (hws : ∀ w ∈ ws, w.Whole) : ∀ w ∈ (q.setLane l ws).all, w.Whole := by
  intro w hw
  obtain ⟨k, hk⟩ := MramQueue.mem_all.mp hw
  by_cases h : k = l
  · subst h
    exact hws w (by simpa using hk)
  · rw [MramQueue.lane_setLane_of_ne q ws h] at hk
    exact hq w (MramQueue.mem_all.mpr ⟨k, hk⟩)

theorem padTo_length (n : Nat) (bs : List Byte) : (padTo n bs).length = n := by
  simp only [padTo, slice, List.length_append, List.length_replicate, List.length_take]
  omega

/-- A store puts one whole codeword into a lane, and nothing into the memories. -/
theorem Mem.inForm_store {m : Mem} (now addr off : Nat) (bytes : List Byte) (haddr : addr % 16 = 0) (h : m.InForm) :
    (m.store now addr off bytes).InForm := by
  unfold Mem.store
  dsimp only
  split
  · exact h
  · refine ⟨h.sram, h.mram, MramQueue.whole_setLane h.queue fun w hw => ?_⟩
    rcases List.mem_append.mp hw with hw | hw
    · exact h.queue w (MramQueue.mem_all.mpr ⟨_, hw⟩)
    · rw [List.mem_singleton.mp hw]
      exact ⟨haddr, padTo_length _ _⟩

theorem Mem.inForm_storeAll (fuel : Nat) : ∀ {m : Mem} (now addr : Nat) (bytes : List Byte), m.InForm →
    (Mem.storeAll fuel m now addr bytes).InForm := by
  induction fuel with
  | zero => exact fun _ _ _ h => h
  | succ fuel ih =>
    intro m now addr bytes h
    unfold Mem.storeAll
    split
    · exact h
    · exact ih _ _ _ (Mem.inForm_store _ _ _ _ (by omega) h)

theorem Mem.inForm_storeBytes {m : Mem} (now addr : Nat) (bytes : List Byte) (h : m.InForm) :
    (m.storeBytes now addr bytes).InForm := Mem.inForm_storeAll _ _ _ _ h

/-- The same keys with their sequence, the same rollback counter and the same boot selection (18 R452). -/
abbrev Sec.SameTack (x y : Sec) : Prop :=
  y.owner = x.owner ∧ y.service = x.service ∧ y.ownerSeq = x.ownerSeq ∧ y.rbCount = x.rbCount ∧ y.bootSel = x.bootSel

/-- From `s` to `t` the form of the memories is kept, and the tack store and the power-cycle count stay. -/
abbrev State.Keeps (s t : State) : Prop :=
  (s.mem.InForm → t.mem.InForm) ∧ s.sec.SameTack t.sec ∧ t.clk.pcc = s.clk.pcc

theorem State.Keeps.refl (s : State) : s.Keeps s := ⟨id, ⟨rfl, rfl, rfl, rfl, rfl⟩, rfl⟩

theorem State.Keeps.trans {s t u : State} (h : s.Keeps t) (h' : t.Keeps u) : s.Keeps u := by
  obtain ⟨hform, ⟨howner, hservice, hseq, hcount, hsel⟩, hpcc⟩ := h
  obtain ⟨hform', ⟨howner', hservice', hseq', hcount', hsel'⟩, hpcc'⟩ := h'
  exact ⟨hform' ∘ hform, ⟨howner'.trans howner, hservice'.trans hservice, hseq'.trans hseq, hcount'.trans hcount, hsel'.trans hsel⟩,
    hpcc'.trans hpcc⟩

theorem State.SameStores.keeps {s t : State} (h : s.SameStores t) : s.Keeps t := by
  obtain ⟨hmem, hsec, hclk⟩ := h
  exact ⟨fun hf => hmem ▸ hf, by simp [Sec.SameTack, hsec], by rw [hclk]⟩

@[simp] theorem State.Keeps.foldl {α : Type} (l : List α) (f : State → α → State) (h : ∀ t a, State.Keeps t (f t a)) (s : State) :
    s.Keeps (l.foldl f s) :=
  List.foldlRecOn l f (motive := fun t => s.Keeps t) (.refl s) fun _ ht a _ => ht.trans (h _ a)

theorem State.Keeps.of_mem {s t : State} (h : s.mem.InForm → t.mem.InForm) (hsec : t.sec = s.sec) (hclk : t.clk = s.clk) : s.Keeps t :=
  ⟨h, hsec ▸ ⟨rfl, rfl, rfl, rfl, rfl⟩, congrArg Clk.pcc hclk⟩

theorem State.Keeps.same {s t u : State} (h : s.Keeps t) (h' : t.SameStores u) : s.Keeps u := h.trans h'.keeps

theorem Mem.inForm_iff (m : Mem) :
    m.InForm ↔ Memory.wf m.sram = true ∧ Memory.wf m.mram = true ∧ ∀ w ∈ m.queue.all, w.Whole :=
  ⟨fun h => ⟨h.sram, h.mram, h.queue⟩, fun ⟨hs, hm, hq⟩ => ⟨hs, hm, hq⟩⟩

theorem Mem.inForm_writeSram {m : Mem} (a : Nat) (bytes : List Byte) (h : m.InForm) :
    { m with sram := Memory.writeBytes m.sram a bytes }.InForm :=
  ⟨Memory.wf_writeBytes _ _ _ h.sram, h.mram, h.queue⟩

/-- The image of SRAM between two parts of MRAM that lie below and above it is in form (15 R412). -/
theorem Memory.wf_image {sram mram : List Host.Cell} (hs : Memory.wf sram = true) (hm : Memory.wf mram = true) :
    Memory.wf (mram.filter (fun c => decide (c.1 < imageBase)) ++
      (sram.filter (fun c => decide (c.1 < imageSize))).map (fun c => (imageBase + c.1, c.2)) ++
      mram.filter (fun c => decide (imageBase + imageSize ≤ c.1))) = true := by
  rw [Memory.wf_iff] at hs hm ⊢
  obtain ⟨hsSorted, hsBlank⟩ := hs
  obtain ⟨hmSorted, hmBlank⟩ := hm
  simp only [List.pairwise_append, List.pairwise_map, List.mem_append, List.mem_map, List.mem_filter, decide_eq_true_eq]
  refine ⟨⟨⟨hmSorted.filter _, (hsSorted.filter _).imp (by omega), ?_⟩, hmSorted.filter _, ?_⟩, ?_⟩
  · rintro a ⟨-, ha⟩ _ ⟨b, ⟨-, -⟩, rfl⟩
    exact Nat.lt_of_lt_of_le ha (Nat.le_add_right _ _)
  · rintro a (⟨-, ha⟩ | ⟨b, ⟨-, hb⟩, rfl⟩) c ⟨-, hc⟩
    · exact Nat.lt_of_lt_of_le ha (Nat.le_trans (Nat.le_add_right _ _) hc)
    · exact Nat.lt_of_lt_of_le (Nat.add_lt_add_left hb _) hc
  · rintro c ((⟨hc, -⟩ | ⟨b, ⟨hb, -⟩, rfl⟩) | ⟨hc, -⟩)
    · exact hmBlank c hc
    · exact hsBlank b hb
    · exact hmBlank c hc

/-- A lane from which its oldest codeword is taken holds whole codewords as before. -/
theorem popLane_whole {now : Nat} {l : List Codeword} (h : ∀ w ∈ l, w.Whole) : ∀ w ∈ popLane now l, w.Whole := by
  intro w hw
  unfold popLane at hw
  obtain ⟨i, hi, rfl⟩ := List.mem_iff_getElem.mp hw
  rw [List.getElem_modify]
  have hm : (l.drop 1)[i]'(by simpa using hi) ∈ l := List.mem_of_mem_drop (List.getElem_mem _)
  split
  · split
    · exact ⟨(h _ hm).1, (h _ hm).2⟩
    · exact h _ hm
  · exact h _ hm

end Sys2Proof.Machine
end

section
/-! SUPPORT. The operations that store, read or draw: they keep the form, the tack store and the count. -/

namespace Sys2Proof.Machine

@[simp] theorem State.advance_keeps (s : State) (n : Nat) : s.Keeps (s.advance n) :=
  ⟨id, ⟨rfl, rfl, rfl, rfl, rfl⟩, rfl⟩

@[simp] theorem State.mramStore_keeps (s : State) (addr : Nat) (bytes : List Byte) : s.Keeps (s.mramStore addr bytes) :=
  .of_mem (Mem.inForm_storeBytes _ _ _) rfl rfl

@[simp] theorem State.restoreBlock_keeps (s : State) (b : Nat) : s.Keeps (s.restoreBlock b) := by
  unfold State.restoreBlock
  split
  · exact .of_mem (Mem.inForm_writeSram _ _) rfl rfl
  · exact .refl s

@[simp] theorem State.sramStore_keeps (s : State) (key : Nat) (bytes : List Byte) : s.Keeps (s.sramStore key bytes) := by
  have h := (s.restoreBlock_keeps (key / blockSize)).trans (State.restoreBlock_keeps _ ((key + bytes.length - 1) / blockSize))
  exact h.trans (.of_mem (Mem.inForm_writeSram _ _) rfl rfl)

@[simp] theorem State.memoryError_keeps (s : State) (src : UeSrc) (bank : Fin 32) (off : Nat) : s.Keeps (s.memoryError src bank off) := by
  unfold State.memoryError
  dsimp only
  split <;> split <;> split <;> simp [State.Keeps, Sec.SameTack, Mem.inForm_iff]

@[simp] theorem State.writeSense_keeps (s : State) (ch : Fin 24) (tag : Nat) : s.Keeps (s.writeSense ch tag) := by
  simp +contextual [State.Keeps, Sec.SameTack, State.writeSense]

@[simp] theorem State.takeSample_keeps (s : State) (ch : Fin 24) (ma : Nat) (sat settling : Bool) (tag : Nat) :
    s.Keeps (s.takeSample ch ma sat settling tag) := by
  simp +contextual [State.Keeps, Sec.SameTack, State.takeSample]

@[simp] theorem State.sampleContactors_keeps (s : State) (mv : Bank 12 Nat) : s.Keeps (s.sampleContactors mv) := by
  simp +contextual [State.Keeps, Sec.SameTack, State.sampleContactors]

@[simp] theorem State.writeImage_keeps (s : State) (u : Fin 128) : s.Keeps (s.writeImage u) := by
  simp +contextual [State.Keeps, Sec.SameTack, State.writeImage]

@[simp] theorem State.writeEntry_keeps (s : State) (u : Fin 128) (body : List Byte) (source : Nat) (cmds : List Cmd) (result : BitVec 4)
    (write : Bool) : s.Keeps (s.writeEntry u body source cmds result write) := by
  unfold State.writeEntry
  split
  split
  extract_lets entry base s1 s2
  have h1 : s.Keeps s1 := (s.mramStore_keeps _ _).trans (State.mramStore_keeps _ _ _)
  have h2 : s1.Keeps s2 := s1.mramStore_keeps _ _
  exact (h1.trans h2).same (by simp [State.SameStores])

@[simp] theorem State.applyRun_keeps (s : State) (u : Fin 128) (body : List Byte) (cmds : List Cmd) :
    s.Keeps (s.applyRun u body cmds) := by
  simp +contextual [State.Keeps, Sec.SameTack, State.applyRun]

@[simp] theorem State.evaluateRun_keeps (s : State) (u : Fin 128) (r : LiveRun) : s.Keeps (s.evaluateRun u r) := by
  unfold State.evaluateRun
  dsimp only
  repeat' split
  all_goals simp +contextual [State.Keeps, Sec.SameTack]

@[simp] theorem State.shuntApplied_keeps (s : State) (str : Fin 4) (u : Fin 128) (r : ShuntRun) (body : List Byte) :
    s.Keeps (s.shuntApplied str u r body) := by
  unfold State.shuntApplied
  dsimp only
  repeat' split
  all_goals simp +contextual [State.Keeps, Sec.SameTack]

@[simp] theorem State.writeDevice_keeps (s : State) (c : Cmd) (body : List Byte) : s.Keeps (s.writeDevice c body) := by
  simp +contextual [State.Keeps, Sec.SameTack, State.writeDevice]

@[simp] theorem calWriteDevice_keeps (c : Cmd) (off len : Nat) (data : List Byte) (s : State) :
    s.Keeps (calWriteDevice c off len data s) := by
  unfold calWriteDevice
  dsimp only
  repeat' split
  all_goals simp +contextual [State.Keeps, Sec.SameTack]

@[simp] theorem calWriteUnit_keeps (c : Cmd) (off len : Nat) (data : List Byte) (s : State) : s.Keeps (calWriteUnit c off len data s) := by
  unfold calWriteUnit
  dsimp only
  repeat' split
  all_goals simp +contextual [State.Keeps, Sec.SameTack]

@[simp] theorem State.writeUnitRecord_keeps (s : State) (u : Fin 128) : s.Keeps (s.writeUnitRecord u) := by
  simp +contextual [State.Keeps, Sec.SameTack, State.writeUnitRecord]

@[simp] theorem State.writeStringRecord_keeps (s : State) (str : Fin 4) : s.Keeps (s.writeStringRecord str) := by
  simp +contextual [State.Keeps, Sec.SameTack, State.writeStringRecord]

@[simp] theorem State.writeYardRecord_keeps (s : State) : s.Keeps s.writeYardRecord := by
  simp +contextual [State.Keeps, Sec.SameTack, State.writeYardRecord]

@[simp] theorem State.writeImpedance_keeps (s : State) (u : Fin 128) (c : Fin 16) : s.Keeps (s.writeImpedance u c) := by
  simp +contextual [State.Keeps, Sec.SameTack, State.writeImpedance]

@[simp] theorem State.unitStep_keeps (s : State) (str : Fin 4) (u : Fin 128) : s.Keeps (s.unitStep str u) := by
  unfold State.unitStep
  repeat' split
  all_goals simp +contextual [State.Keeps, Sec.SameTack]

@[simp] theorem State.batch_keeps (s : State) (i : Fin 32) : s.Keeps (s.batch i) := by
  unfold State.batch
  split
  · exact .refl s
  · exact .foldl _ _ (fun t u => t.unitStep_keeps _ u) s

@[simp] theorem State.batches_keeps (s : State) (n : Nat) (limits : Bool) : s.Keeps (s.batches n limits) := by
  simp +contextual [State.Keeps, Sec.SameTack, State.batches]

@[simp] theorem State.computeLimits_keeps (s : State) : s.Keeps s.computeLimits := by
  unfold State.computeLimits
  extract_lets s1 s2 s3 s4
  have h1 : s.SameStores s1 := by simp [State.SameStores, s1]
  have h3 : s2.Keeps s3 := .trans (.foldl _ _ (fun t i => t.writeStringRecord_keeps i) _) (State.writeYardRecord_keeps _)
  exact ((h1.keeps.same s1.yardLimits_stores).trans h3).same (by simp [State.SameStores, s4])

@[simp] theorem State.estStep_keeps (s : State) (n : Nat) : s.Keeps (s.estStep n) := by
  unfold State.estStep
  extract_lets ran late s1 s2 s3 _ s4 limits s5 s6 s7 s8 s9 _ s10
  have h3 : s.SameStores s3 := by
    unfold s3 s2 s1
    split <;> simp [State.SameStores]
  have h5 : s4.Keeps s5 := by
    unfold s5
    split
    · exact s4.computeLimits_keeps
    · exact .refl s4
  have h6 : s5.Keeps s6 := by
    unfold s6
    split
    · exact .refl s5
    · exact s5.batches_keeps _ _
  have h7 : s6.SameStores s7 := by
    unfold s7
    split <;> simp [State.SameStores]
  have h9 : s7.SameStores s10 := by simp [State.SameStores, s10, s9, s8]
  have h4 : s.Keeps s4 := h3.keeps.same ⟨rfl, rfl, rfl⟩
  exact ((((h4.trans h5).trans h6).same h7).same h9).same (by simp [State.SameStores])

@[simp] theorem State.takeBlock_keeps (s : State) (str : Fin 4) (i : Fin 32) (starts : List Nat) (f : Rat) (exc : Bool) :
    s.Keeps (s.takeBlock str i starts f exc) := by
  refine .foldl _ _ (fun t u => .foldl _ _ (fun t c => ?_) t) s
  split
  · exact .refl t
  · extract_lets t1
    have h1 : t.Keeps t1 := State.SameStores.keeps (by simp [State.SameStores, t1])
    exact (h1.trans (t1.writeImpedance_keeps u c)).same (State.streamImpedance_stores _ u c)

@[simp] theorem State.writeCounters_keeps (s : State) (str : Fin 4) : s.Keeps (s.writeCounters str) := by
  simp +contextual [State.Keeps, Sec.SameTack, State.writeCounters]

@[simp] theorem State.applyTariff_keeps (s : State) (p : TariffPend) : s.Keeps (s.applyTariff p) := by
  unfold State.applyTariff
  extract_lets frame seq old body s1 s2 _ s3
  split
  · exact State.SameStores.keeps (by simp [State.SameStores])
  · have h1 : s.Keeps s1 := s.mramStore_keeps _ _
    have h2 : s1.SameStores s2 := by simp [State.SameStores, s2, apply_ite State.mem, apply_ite State.sec, apply_ite State.clk]
    exact (h1.same h2).same (by simp [State.SameStores, s3])

@[simp] theorem State.applyWb_keeps (s : State) : s.Keeps s.applyWb := by
  unfold State.applyWb
  extract_lets q _ s1 s2
  have h2 : s.Keeps s2 := .trans (t := s1) (State.SameStores.keeps ⟨rfl, rfl, rfl⟩) (.foldl _ _ (fun t p => t.applyTariff_keeps p) s1)
  split
  · exact h2
  · refine h2.same ?_
    refine .trans (t := { s2 with wb := _ }) ⟨rfl, rfl, rfl⟩ (State.stores_foldl _ _ (fun t i => ?_) _)
    split <;> exact ⟨rfl, rfl, rfl⟩

@[simp] theorem State.writeExposure_keeps (s : State) : s.Keeps s.writeExposure := by
  simp +contextual [State.Keeps, Sec.SameTack, State.writeExposure]

@[simp] theorem State.snapshot_keeps (s : State) (x : Stmt) : s.Keeps (s.snapshot x) := by
  unfold State.snapshot
  extract_lets len _ s1 s2 seqs body slot s3 addrs bytes
  split
  · exact State.SameStores.keeps (by simp [State.SameStores])
  · have h2 : s1.Keeps s2 := .foldl _ _ (fun t i => t.writeCounters_keeps i) s1
    have h3 : s2.Keeps s3 := s2.mramStore_keeps _ _
    exact ((State.SameStores.keeps (t := s1) ⟨rfl, rfl, rfl⟩).trans (h2.trans h3)).same ⟨rfl, rfl, rfl⟩

@[simp] theorem State.stmtEdge_keeps (s : State) : s.Keeps s.stmtEdge := by
  unfold State.stmtEdge
  dsimp only
  repeat' split
  all_goals simp +contextual [State.Keeps, Sec.SameTack]

@[simp] theorem State.wbEdge_keeps (s : State) : s.Keeps s.wbEdge := by
  unfold State.wbEdge
  extract_lets s1 s2
  have h2 : s1.SameStores s2 := by
    unfold s2
    split <;> simp [State.SameStores]
  exact (s.applyWb_keeps.same h2).trans s2.stmtEdge_keeps

@[simp] theorem State.trimsDone_keeps (s : State) (u : Fin 128) (t : TrimRead) : s.Keeps (s.trimsDone u t) := by
  unfold State.trimsDone
  dsimp only
  repeat' split
  all_goals simp +contextual [State.Keeps, Sec.SameTack]

theorem State.trimReply_keeps {s t : State} {u : Fin 128} {reply : BitVec 112} (h : s.trimReply u reply = some t) : s.Keeps t := by
  unfold State.trimReply at h
  dsimp only at h
  split at h
  · exact absurd h nofun
  · split at h
    · exact absurd h nofun
    · split at h
      · exact absurd h nofun
      · rw [← Option.some.inj h]
        exact .trans (State.SameStores.keeps (by simp [State.SameStores])) (State.trimsDone_keeps _ _ _)

@[simp] theorem State.atFrameEdge_keeps (s : State) (senseMv : Bank 12 Nat) : s.Keeps (s.atFrameEdge senseMv) := by
  unfold State.atFrameEdge
  extract_lets s1 s2 s3
  have h1 : s.Keeps s1 := (State.applyTrips_stores s).keeps.trans (State.sampleContactors_keeps _ _)
  exact (h1.same (by simp [State.SameStores, s3, s2])).trans s3.wbEdge_keeps

@[simp] theorem State.sweepArrives_keeps (s : State) (u : Fin 128) (str : Fin 4) (start : Nat) (raw : Option (List (BitVec 18))) (flags : BitVec 15) :
    s.Keeps (s.sweepArrives u str start raw flags) := by
  unfold State.sweepArrives
  dsimp only
  repeat' split
  all_goals simp +contextual [State.Keeps, Sec.SameTack]

@[simp] theorem State.sweepRecord_keeps (s : State) (i : Fin 32) (str : Fin 4) (r : UpRecord) : s.Keeps (s.sweepRecord i str r) := by
  unfold State.sweepRecord
  dsimp only
  repeat' split
  all_goals simp +contextual [State.Keeps, Sec.SameTack]

@[simp] theorem State.replyRecord_keeps (s : State) (i : Fin 32) (r : UpRecord) : s.Keeps (s.replyRecord i r) := by
  unfold State.replyRecord
  extract_lets u x
  split
  · next t ht =>
    split at ht
    · exact State.trimReply_keeps ht
    · exact absurd ht nofun
  · split
    · exact State.SameStores.keeps (by simp [State.SameStores])
    · split
      · exact State.SameStores.keeps (by simp [State.SameStores])
      · exact .refl s

@[simp] theorem State.unitWindowEnd_keeps (s : State) (u : Fin 128) (str : Fin 4) : s.Keeps (s.unitWindowEnd u str) := by
  unfold State.unitWindowEnd
  dsimp only
  repeat' split
  all_goals simp +contextual [State.Keeps, Sec.SameTack]

@[simp] theorem State.adoptUnit_keeps (s : State) (u : Fin 128) (type_ : BitVec 8) (id : BitVec 64) :
    s.Keeps (s.adoptUnit u type_ id) := by
  unfold State.adoptUnit
  dsimp only
  repeat' split
  all_goals simp +contextual [State.Keeps, Sec.SameTack]

@[simp] theorem State.clearTcm_keeps (s : State) (p : Fin 8) : s.Keeps (s.clearTcm p) :=
  .of_mem (fun h => ⟨Memory.wf_filter _ h.sram, h.mram, h.queue⟩) rfl rfl

@[simp] theorem State.recoveryEnd_keeps (s : State) (p : Fin 8) (result : BitVec 4) : s.Keeps (s.recoveryEnd p result) := by
  unfold State.recoveryEnd
  repeat' split
  all_goals simp +contextual [State.Keeps, Sec.SameTack]

@[simp] theorem State.replayEntry_keeps (s : State) (p : Fin 8) (w : DbgWrite) : s.Keeps (s.replayEntry p w) := by
  cases w <;> simp +contextual [State.Keeps, Sec.SameTack, State.replayEntry]

@[simp] theorem State.passRecords_keeps (fuel : Nat) (s : State) : s.Keeps (State.passRecords fuel s) := by
  induction fuel generalizing s with
  | zero => exact .refl s
  | succ fuel ih =>
    unfold State.passRecords
    split
    · exact .refl s
    · split
      · exact .refl s
      · extract_lets seq old s1
        have h1 : s.Keeps s1 := s.mramStore_keeps _ _
        refine .trans (h1.same ?_) (ih _)
        exact ⟨rfl, rfl, rfl⟩

@[simp] theorem State.addRecord_keeps (s : State) (r : RecordParts) : s.Keeps (s.addRecord r) := by
  simp +contextual [State.Keeps, Sec.SameTack, State.addRecord]

@[simp] theorem State.startLog_keeps (s : State) : s.Keeps s.startLog := by
  unfold State.startLog
  repeat' split
  all_goals simp +contextual [State.Keeps, Sec.SameTack]

@[simp] theorem State.writeRefused_keeps (s : State) : s.Keeps s.writeRefused := by
  unfold State.writeRefused
  extract_lets b s1
  have h1 : s.Keeps s1 := .foldl _ _ (fun t n => t.mramStore_keeps _ _) s
  exact h1.same (by simp [State.SameStores])

@[simp] theorem State.finishClear_keeps (s : State) : s.Keeps s.finishClear := by
  unfold State.finishClear
  dsimp only
  repeat' split
  all_goals simp +contextual [State.Keeps, Sec.SameTack]

@[simp] theorem State.captureRecord_keeps (s : State) (q : StbReq) (detail : List Byte) (captureUs : Nat) :
    s.Keeps (s.captureRecord q detail captureUs) := by
  simp +contextual [State.Keeps, Sec.SameTack, State.captureRecord]

@[simp] theorem State.recorderFault_keeps (s : State) (kind : BitVec 8) (slot : Nat) : s.Keeps (s.recorderFault kind slot) := by
  unfold State.recorderFault
  extract_lets hit f k s1 _ s2 _ s3
  have h2 : s.Keeps s2 := by
    unfold s2
    split
    · exact .same (.foldl _ _ (fun t n => t.mramStore_keeps _ _) s) ⟨rfl, rfl, rfl⟩
    · exact .refl s
  exact h2.same (by simp [State.SameStores, s3])

@[simp] theorem studbookClear_keeps (c : Cmd) (pkg : List Byte) (s : State) : s.Keeps (studbookClear c pkg s) := by
  unfold studbookClear
  dsimp only
  repeat' split
  all_goals simp +contextual [State.Keeps, Sec.SameTack]

@[simp] theorem studbookRead_keeps (c : Cmd) (badRecord : Option Nat) (s : State) : s.Keeps (studbookRead c badRecord s) := by
  unfold studbookRead
  extract_lets first count addr func have_ bytes n copy
  have hcopy : ∀ t k, State.SameStores t (copy t k) := by
    intro t k
    unfold copy
    split <;> simp [State.SameStores]
  split
  · exact State.SameStores.keeps (by simp [State.SameStores])
  · split
    · exact State.SameStores.keeps (by simp [State.SameStores])
    · split
      · exact State.SameStores.keeps (by simp [State.SameStores])
      · split
        · split
          · next b _ =>
            extract_lets s1 s2
            have h2 : s.Keeps s2 := (hcopy s _).keeps.trans (State.memoryError_keeps _ _ _ _)
            exact (h2.trans (s2.recorderFault_keeps 3 b)).same (by simp [State.SameStores])
          · exact (hcopy s n).keeps.same (by simp [State.SameStores])
        · exact (hcopy s n).keeps.same (by simp [State.SameStores])

theorem State.scanStudbook_keeps (s : State) : s.Keeps s.scanStudbook.1 := by
  unfold State.scanStudbook
  extract_lets faults _ s1 b0 gen valid n last next torn refused _
  have h1 : s.Keeps s1 := State.SameStores.keeps (by simp [State.SameStores, s1])
  split
  · dsimp only
    exact h1.trans (s1.recorderFault_keeps 4 0)
  · exact h1.same (by simp [State.SameStores])

@[simp] theorem State.loadStudbook_keeps (s : State) : s.Keeps s.loadStudbook := by
  have h := s.scanStudbook_keeps
  unfold State.loadStudbook
  split
  · next hs => rwa [hs] at h
  · next hs =>
    rw [hs] at h
    exact h.same (by simp [State.SameStores])

@[simp] theorem State.clearMaxlat_keeps (s : State) : s.Keeps s.clearMaxlat :=
  .of_mem (fun h => ⟨h.sram, h.mram, h.queue⟩) rfl rfl

@[simp] theorem State.writeCodeword_keeps (s : State) (lane : Lane) (w : Codeword) (verified : Bool) :
    s.Keeps (s.writeCodeword lane w verified) := by
  unfold State.writeCodeword
  extract_lets q us _ q' _ s1
  have h1 : s.Keeps s1 :=
    .of_mem (fun h => ⟨h.sram, h.mram, MramQueue.whole_setLane h.queue
      (popLane_whole fun w hw => h.queue w (MramQueue.mem_all.mpr ⟨lane, hw⟩))⟩)
      rfl rfl
  split
  next bytes s2 hs2 =>
  have h2 : s1.SameStores s2 := by
    split at hs2
    · obtain ⟨-, rfl⟩ := Prod.mk.inj hs2
      exact ⟨rfl, rfl, rfl⟩
    · simpa only [hs2] using State.drawBytes_stores 16 s1
  exact (h1.same h2).trans (.of_mem (fun h => ⟨h.sram, Memory.wf_writeBytes _ _ _ h.mram, h.queue⟩) rfl rfl)

@[simp] theorem State.settleWaits_keeps (s : State) : s.Keeps s.settleWaits := by
  unfold State.settleWaits
  split
  extract_lets _ s1
  have h1 : s.Keeps s1 := ⟨id, ⟨rfl, rfl, rfl, rfl, rfl⟩, rfl⟩
  exact h1.same (by simp [State.SameStores])

@[simp] theorem State.idleTick_keeps (s : State) : s.Keeps s.idleTick := by
  unfold State.idleTick
  split
  · exact s.advance_keeps 1
  · exact ⟨id, ⟨rfl, rfl, rfl, rfl, rfl⟩, rfl⟩

@[simp] theorem State.haltTime_keeps (s : State) : s.Keeps s.haltTime :=
  ⟨id, ⟨rfl, rfl, rfl, rfl, rfl⟩, rfl⟩

@[simp] theorem State.restartTime_keeps (s : State) : s.Keeps s.restartTime := by
  unfold State.restartTime
  exact ⟨id, ⟨rfl, rfl, rfl, rfl, rfl⟩, rfl⟩

@[simp] theorem State.writeHours_keeps (s : State) : s.Keeps s.writeHours := by
  simp +contextual [State.Keeps, Sec.SameTack, State.writeHours]

@[simp] theorem State.rebooted_keeps (s : State) (halter mem : Bool) : s.Keeps (s.rebooted halter mem) := by
  unfold State.rebooted
  extract_lets
  rename_i t1 t2
  have h1 : s.Keeps t1 := by
    refine ⟨fun h => ?_, ⟨rfl, rfl, rfl, rfl, rfl⟩, rfl⟩
    unfold t1
    dsimp only
    split
    · exact ⟨rfl, h.mram, h.queue⟩
    · exact ⟨rfl, h.mram, nofun⟩
  have h2 : t1.Keeps t2 := by
    unfold t2
    split
    · exact .refl t1
    · exact t1.loadWeighbridge_stores.keeps.trans t1.loadWeighbridge.scanStudbook_keeps
  exact (h1.trans h2).same (by simp [State.SameStores])

@[simp] theorem State.flushBegins_keeps (s : State) : s.Keeps s.flushBegins := by
  unfold State.flushBegins
  extract_lets s1 s2
  have h1 : s.Keeps s1 := .foldl _ _ (fun t i => t.writeCounters_keeps i) s
  have h2 : s1.Keeps s2 := by
    unfold s2
    split
    · exact s1.writeRefused_keeps
    · exact .refl s1
  split
  · exact (h1.trans h2).trans s2.writeHours_keeps
  · exact h1.trans h2

@[simp] theorem State.copyImage_keeps (s : State) : s.Keeps s.copyImage := by
  refine .of_mem (fun h => ⟨h.sram, ?_, h.queue⟩) rfl rfl
  exact Memory.wf_image h.sram h.mram

@[simp] theorem State.passA4_keeps (s : State) : s.Keeps s.passA4 := by
  simp +contextual [State.Keeps, Sec.SameTack, State.passA4]

@[simp] theorem State.beginPhase_keeps (s : State) (n : Nat) : s.Keeps (s.beginPhase n) := by
  unfold State.beginPhase
  repeat' split
  all_goals simp +contextual [State.Keeps, Sec.SameTack]

@[simp] theorem State.abortPoint_keeps (s : State) (n : Nat) : s.Keeps (s.abortPoint n) := by
  unfold State.abortPoint
  repeat' split
  all_goals simp +contextual [State.Keeps, Sec.SameTack]

@[simp] theorem State.finishEntry_keeps (s : State) : s.Keeps s.finishEntry := by
  unfold State.finishEntry
  extract_lets stabled _ _ _ s1 first s2
  have h1 : s.Keeps s1 := by
    unfold s1
    split
    · exact ⟨fun h => ⟨rfl, h.mram, h.queue⟩, ⟨rfl, rfl, rfl, rfl, rfl⟩, rfl⟩
    · exact State.SameStores.keeps ⟨rfl, rfl, rfl⟩
  have h2 : s.Keeps s2 := h1.same (by simp [State.SameStores, s2])
  split
  · exact h2.same (State.startWake_stores _ _ _ _)
  · split
    · split
      · exact h2
      · exact h2.same (State.startWake_stores _ _ _ _)
    · exact h2

@[simp] theorem State.restored_keeps (s : State) (k : Wake) (code : BitVec 8) : s.Keeps (s.restored k code) := by
  unfold State.restored
  dsimp only
  repeat' split
  all_goals simp +contextual [State.Keeps, Sec.SameTack]

@[simp] theorem State.bootReady_keeps (s : State) (k : Wake) : s.Keeps (s.bootReady k) := by
  unfold State.bootReady
  repeat' split
  all_goals simp +contextual [State.Keeps, Sec.SameTack]

@[simp] theorem State.startCheck_keeps (s : State) : s.Keeps s.startCheck := by
  unfold State.startCheck
  extract_lets s1 s2
  have h1 : s.Keeps s1 := by
    unfold s1
    split
    · exact s.restartTime_keeps
    · exact .refl s
  have h2 : s.Keeps s2 := h1.same ⟨rfl, rfl, rfl⟩
  refine h2.same (State.stores_foldl _ _ (fun t p => ?_) s2)
  split <;> simp [State.SameStores]

@[simp] theorem State.memoryReady_keeps (s : State) (k : Wake) (imageOk : Bool) : s.Keeps (s.memoryReady k imageOk) := by
  unfold State.memoryReady
  dsimp only
  repeat' split
  all_goals simp +contextual [State.Keeps, Sec.SameTack]

@[simp] theorem State.acknowledged_keeps (s : State) (why : PmbusWhy) : s.Keeps (s.acknowledged why) := by
  unfold State.acknowledged
  split <;> simp +contextual [State.Keeps, Sec.SameTack]

@[simp] theorem State.faulted_keeps (s : State) (why : PmbusWhy) : s.Keeps (s.faulted why) := by
  unfold State.faulted
  dsimp only
  repeat' split
  all_goals simp +contextual [State.Keeps, Sec.SameTack]

@[simp] theorem State.fireAlarm_keeps (s : State) : s.Keeps s.fireAlarm := by
  unfold State.fireAlarm
  split <;> simp +contextual [State.Keeps, Sec.SameTack]

@[simp] theorem rtcSet_keeps (c : Cmd) (s : State) : s.Keeps (rtcSet c s) := by
  unfold rtcSet
  dsimp only
  repeat' split
  all_goals simp +contextual [State.Keeps, Sec.SameTack]

@[simp] theorem configLoad_keeps (c : Cmd) (pkg : List Byte) (s : State) : s.Keeps (configLoad c pkg s) := by
  unfold configLoad
  extract_lets seq
  split
  · exact State.SameStores.keeps (by simp [State.SameStores])
  · split
    · exact State.SameStores.keeps (by simp [State.SameStores])
    · split
      · exact State.SameStores.keeps (by simp [State.SameStores])
      · split
        · exact State.SameStores.keeps (by simp [State.SameStores])
        · split
          · exact State.SameStores.keeps (by simp [State.SameStores])
          · extract_lets s1 s2 _ _ s3 digest s4 addrs s5
            have h1 : s.SameStores s1 := State.stores_foldl _ _ (fun t e => t.applyRecord_stores e) s
            have h2 : s1.SameStores s2 := by
              unfold s2
              split <;> simp [State.SameStores]
            have h3 : s.Keeps s3 := (h1.trans h2).keeps.trans ⟨id, ⟨rfl, rfl, rfl, rfl, rfl⟩, rfl⟩
            have h4 : s3.Keeps s4 := .foldl _ _ (fun t e => t.mramStore_keeps _ _) s3
            have h5 : s4.SameStores s5 := State.stores_foldl _ _ (fun t e => by simp [State.SameStores]) s4
            exact ((h3.trans h4).same h5).trans ⟨id, ⟨rfl, rfl, rfl, rfl, rfl⟩, rfl⟩

@[simp] theorem State.verifyImage_keeps (s : State) (n : Bool) (ue : Option (Fin 0x600000)) : s.Keeps (s.verifyImage n ue).1 := by
  unfold State.verifyImage
  extract_lets h len met reason
  clear_value met
  split
  next digest s1 hs1 =>
  have h1 : s.SameStores s1 := by
    split at hs1
    · obtain ⟨-, rfl⟩ := Prod.mk.inj hs1
      exact ⟨rfl, rfl, rfl⟩
    · simpa only [hs1] using State.drawBytes_stores 64 s
  extract_lets img _ s2 s3
  have h2 : s.Keeps s2 := h1.keeps.trans ⟨id, ⟨rfl, rfl, rfl, rfl, rfl⟩, rfl⟩
  have h3 : s2.Keeps s3 := by
    unfold s3
    split
    · exact s2.memoryError_keeps _ _ _
    · exact .refl s2
  exact h2.trans h3

@[simp] theorem State.copyCode_keeps (s : State) (n : Bool) : s.Keeps (s.copyCode n) := by
  unfold State.copyCode
  dsimp only
  split <;> simp +contextual [State.Keeps, Sec.SameTack]

@[simp] theorem State.bootEnds_keeps (s : State) (result : Nat) (n : Bool) : s.Keeps (s.bootEnds result n) := by
  unfold State.bootEnds
  dsimp only
  repeat' split
  all_goals simp +contextual [State.Keeps, Sec.SameTack]

@[simp] theorem State.bootImages_keeps (s : State) (ue0 ue1 : Option (Fin 0x600000)) : s.Keeps (s.bootImages ue0 ue1) := by
  unfold State.bootImages
  extract_lets ue first
  split
  next s1 r1 hs1 =>
  have h1 : s.Keeps s1 := by simpa only [hs1] using s.verifyImage_keeps first (ue first)
  split
  · exact h1.trans (s1.bootEnds_keeps _ _)
  · split
    next s2 r2 hs2 =>
    have h2 : s1.Keeps s2 := by simpa only [hs2] using s1.verifyImage_keeps (!first) (ue (!first))
    split
    · exact (h1.trans h2).trans (s2.bootEnds_keeps _ _)
    · exact (h1.trans h2).trans (s2.bootEnds_keeps _ _)

@[simp] theorem imageWrite_keeps (c : Cmd) (data : List Byte) (s : State) : s.Keeps (imageWrite c data s) := by
  unfold imageWrite
  dsimp only
  repeat' split
  all_goals simp +contextual [State.Keeps, Sec.SameTack]

@[simp] theorem State.restart_keeps (s : State) : s.Keeps s.restart := by
  simp +contextual [State.Keeps, Sec.SameTack, State.restart]

@[simp] theorem State.scrubError_keeps (s : State) (bank : Fin 32) (off : Nat) : s.Keeps (s.scrubError bank off) := by
  unfold State.scrubError
  repeat' split
  all_goals simp +contextual [State.Keeps, Sec.SameTack]

@[simp] theorem State.clearEcc_keeps (s : State) (bank : Fin 32) : s.Keeps (s.clearEcc bank) :=
  .of_mem (fun h => ⟨h.sram, h.mram, h.queue⟩) rfl rfl

@[simp] theorem State.writeOther_keeps (s : State) (view : View) (off : Nat) (v : Word) : s.Keeps (s.writeOther view off v) := by
  unfold State.writeOther
  dsimp only
  split
  case h_3 => exact ⟨id, ⟨rfl, rfl, rfl, rfl, rfl⟩, rfl⟩
  case h_13 =>
    split
    · split
      · exact s.clearEcc_keeps _
      · exact .refl s
    · split <;> exact State.SameStores.keeps (by simp [State.SameStores])
  case h_10 =>
    split
    · exact s.clearMaxlat_keeps
    · exact .refl s

  all_goals (repeat' split)
  all_goals exact State.SameStores.keeps (by simp [State.SameStores])

@[simp] theorem State.writeReg_keeps (s : State) (view : View) (off : Nat) (v : Word) : s.Keeps (s.writeReg view off v) := by
  unfold State.writeReg
  repeat' split
  all_goals simp +contextual [State.Keeps, Sec.SameTack]

@[simp] theorem State.debugLocal_keeps (s : State) (p : Fin 8) (second : Bool) (w : DbgWrite) : s.Keeps (s.debugLocal p second w) := by
  unfold State.debugLocal
  repeat' split
  all_goals simp +contextual [State.Keeps, Sec.SameTack]

@[simp] theorem State.debugOther_keeps (s : State) (p : Fin 8) (addr : Nat) (v : Word) : s.Keeps (s.debugOther p addr v) := by
  unfold State.debugOther
  repeat' split
  all_goals simp +contextual [State.Keeps, Sec.SameTack]

@[simp] theorem State.shutDown_keeps (s : State) (n : Fin 12) : s.Keeps (s.shutDown n) := by
  unfold State.shutDown
  extract_lets s1 s2 _ _ _ s3
  have h2 : s.SameStores s2 := by simp [State.SameStores, s2, s1]
  have h3 : s.Keeps s3 := h2.keeps.trans ⟨fun h => ⟨rfl, h.mram, h.queue⟩, ⟨rfl, rfl, rfl, rfl, rfl⟩, rfl⟩
  split
  · exact .refl s
  · split
    · exact h3
    · exact h3.same (State.raiseDetail_stores _ _ _)

@[simp] theorem State.judgeCall_keeps (s : State) (n : Fin 12) : s.Keeps (s.judgeCall n) := by
  unfold State.judgeCall
  split <;> simp +contextual [State.Keeps, Sec.SameTack]

@[simp] theorem State.failSensor_keeps (s : State) (n : Fin 12) : s.Keeps (s.failSensor n) := by
  unfold State.failSensor
  dsimp only
  repeat' split
  all_goals simp +contextual [State.Keeps, Sec.SameTack]

end Sys2Proof.Machine
end

section
/-! SUPPORT. The AON supply, OWNER_KEY and IMAGE_ACTIVATE: the commands that change more (17 R446; 18 R452, R459, R463). -/

namespace Sys2Proof.Machine

theorem State.powerOff_form {s : State} (h : s.mem.InForm) : s.powerOff.mem.InForm := ⟨rfl, h.mram, nofun⟩

theorem State.powerOff_tack (s : State) : s.sec.SameTack s.powerOff.sec := ⟨rfl, rfl, rfl, rfl, rfl⟩

/-- The restored hours change the clocks and the retention account, and are written to the older copy of their cell (17 R446). -/
theorem State.restoreHours_eq (s : State) : ∃ k r, s.restoreHours = State.writeHours { s with clk := k, ret := r } :=
  ⟨_, _, rfl⟩

theorem State.restoreHours_form {s : State} (h : s.mem.InForm) : s.restoreHours.mem.InForm := by
  obtain ⟨k, r, hs⟩ := s.restoreHours_eq
  rw [hs]
  exact (State.writeHours_keeps _).1 h

theorem State.restoreHours_tack (s : State) : s.sec.SameTack s.restoreHours.sec := by
  obtain ⟨k, r, hs⟩ := s.restoreHours_eq
  rw [hs]
  exact (State.writeHours_keeps { s with clk := k, ret := r }).2.1

/-- What is loaded before the hours (01, 17 R446). -/
def State.loadBeforeHours (s : State) : State := s.loadWeighbridge.loadCalibration.loadCheckpoint.loadStudbook

theorem State.loadBeforeHours_keeps (s : State) : s.Keeps s.loadBeforeHours := by
  have h : s.SameStores s.loadWeighbridge.loadCalibration.loadCheckpoint := by simp [State.SameStores]
  unfold State.loadBeforeHours
  exact h.keeps.trans (State.loadStudbook_keeps _)

theorem State.loadPersistent_eq (s : State) : s.loadPersistent = s.loadBeforeHours.restoreHours := rfl

/-- The persistent state is loaded in the form in which MRAM holds it, and leaves the tack store. -/
theorem State.loadPersistent_form {s : State} (h : s.mem.InForm) : s.loadPersistent.mem.InForm :=
  State.restoreHours_form (s.loadBeforeHours_keeps.1 h)

theorem State.loadPersistent_tack (s : State) : s.sec.SameTack s.loadPersistent.sec := by
  have h := s.loadBeforeHours_keeps.2.1
  have h' := s.loadBeforeHours.restoreHours_tack
  simp_all [Sec.SameTack, State.loadPersistent_eq]

/-- The state in which an AON power-on loads what MRAM kept. -/
def State.atPowerOn (s : State) : State := { s.powerOff with isl := { s.powerOff.isl with mem := true } }

theorem State.atPowerOn_mem (s : State) : s.atPowerOn.mem = s.powerOff.mem := rfl

theorem State.atPowerOn_form {s : State} (h : s.mem.InForm) : s.atPowerOn.loadPersistent.mem.InForm := by
  refine State.loadPersistent_form ?_
  rw [State.atPowerOn_mem]
  exact State.powerOff_form h

theorem State.atPowerOn_tack (s : State) : s.sec.SameTack s.atPowerOn.loadPersistent.sec := s.atPowerOn.loadPersistent_tack

/-- Of the stores, an AON power-on changes what it loads. -/
theorem execAonPowerOn_effect (a b d : Bool) (s : State) :
    ∃ t, execAonPowerOn a b d s = answer s t ∧
      t.mem = s.atPowerOn.loadPersistent.mem ∧ t.sec = s.atPowerOn.loadPersistent.sec :=
  ⟨_, rfl, by simp [State.atPowerOn], by simp [State.atPowerOn]⟩

/-- OWNER_KEY changes, of the stores, the keys and their sequence, and never takes the owner key away (18 R463). -/
theorem ownerKey_effect (c : Cmd) (pkg : List Byte) (s : State) :
    (ownerKey c pkg s).mem = s.mem ∧ (ownerKey c pkg s).clk = s.clk ∧ (ownerKey c pkg s).sec.rbCount = s.sec.rbCount ∧
    (ownerKey c pkg s).sec.bootSel = s.sec.bootSel ∧ (s.sec.owner.isSome = true → (ownerKey c pkg s).sec.owner.isSome = true) := by
  unfold ownerKey
  dsimp only
  repeat' split
  all_goals simp

/-- What IMAGE_ACTIVATE keeps of the stores: the form of the memories, the keys, a counter that only rises, and the power-cycle count (18 R459). -/
structure State.Activates (s t : State) : Prop where
  form    : s.mem.InForm → t.mem.InForm
  owner   : t.sec.owner = s.sec.owner
  service : t.sec.service = s.sec.service
  seq     : t.sec.ownerSeq = s.sec.ownerSeq
  count   : s.sec.rbCount ≤ t.sec.rbCount
  pcc     : t.clk.pcc = s.clk.pcc

theorem State.Keeps.activates {s t : State} (h : s.Keeps t) : s.Activates t := by
  obtain ⟨hform, ⟨howner, hservice, hseq, hcount, -⟩, hpcc⟩ := h
  exact ⟨hform, howner, hservice, hseq, hcount ▸ BitVec.le_refl _, hpcc⟩

theorem State.Activates.trans {s t u : State} (h : s.Activates t) (h' : t.Activates u) : s.Activates u :=
  ⟨h'.form ∘ h.form, h'.owner.trans h.owner, h'.service.trans h.service, h'.seq.trans h.seq, BitVec.le_trans h.count h'.count,
    h'.pcc.trans h.pcc⟩

theorem imageActivate_activates (c : Cmd) (ue0 ue1 : Option (Fin 0x600000)) (s : State) : s.Activates (imageActivate c ue0 ue1 s) := by
  unfold imageActivate
  extract_lets n ue func level old s1 other
  split
  · exact State.Keeps.activates (State.SameStores.keeps (by simp [State.SameStores]))
  split
  · split
    next s2 r hs2 =>
    have h1 : s.Keeps s2 := by simpa only [hs2] using s.verifyImage_keeps n (ue n)
    refine h1.activates.trans ?_
    split
    · exact State.Keeps.activates (State.SameStores.keeps (by simp [State.SameStores]))
    · split
      · constructor <;> simp
      · exact State.Keeps.activates (State.SameStores.keeps (by simp [State.SameStores]))
  split
  · split
    · exact State.Keeps.activates (State.SameStores.keeps (by simp [State.SameStores]))
    · split
      · exact State.Keeps.activates (State.SameStores.keeps (by simp [State.SameStores]))
      · next hlevel =>
        have h1 : s.Activates s1 := by
          constructor
          case count => simpa [s1, BitVec.le_def] using Nat.le_of_not_le hlevel
          all_goals simp [s1, old]
        split
        next s2 r hs2 =>
        have h2 : s1.Keeps s2 := by simpa only [hs2] using s1.verifyImage_keeps other (ue other)
        exact h1.trans (h2.same (by simp [State.SameStores])).activates
  split
  · exact State.Keeps.activates (State.SameStores.keeps (by simp [State.SameStores]))
  · exact ((State.SameStores.keeps (s.activateRecord_stores 3)).trans (State.restart_keeps _)).activates

end Sys2Proof.Machine
end

section
/-! SUPPORT. Every other command keeps the form, the tack store and the count. -/

namespace Sys2Proof.Machine

theorem State.run_keeps (s : State) (c : Cmd) (inRecovery : Bool) (body : State → State) (h : ∀ t, State.Keeps t (body t)) :
    s.Keeps (s.run c inRecovery body) := by
  unfold State.run
  split
  · exact .refl s
  · split
    · exact State.SameStores.keeps (by simp [State.SameStores])
    · exact (State.SameStores.keeps (by simp [State.SameStores])).trans (h _)

/-- The slots of a doorbell block change the ring pairs and their events. -/
theorem takeSlots_stores (slots : Bank 16 DbSlot) (rs : List (Fin 16)) (acc : State × Bool) :
    acc.1.SameStores (rs.foldl (takeSlot slots) acc).1 :=
  List.foldlRecOn rs _ (motive := fun x => acc.1.SameStores x.1) ⟨rfl, rfl, rfl⟩ fun x hx r _ => hx.trans (takeSlot_stores slots x r)

theorem execLimitTimeout_keeps (ch : Fin 12) (s : State) : ∃ t, execLimitTimeout ch s = answer s t ∧ s.Keeps t := by
  refine ⟨_, rfl, State.SameStores.keeps ?_⟩
  dsimp only
  split <;> simp [State.SameStores]

theorem execContactorOvercurrent_keeps (j : Fin 12) (s : State) : ∃ t, execContactorOvercurrent j s = answer s t ∧ s.Keeps t := by
  refine ⟨_, rfl, State.SameStores.keeps ?_⟩
  split <;> simp [State.SameStores]

theorem execThermalTrip_keeps (ch : Fin 24) (s : State) : ∃ t, execThermalTrip ch s = answer s t ∧ s.Keeps t := by
  refine ⟨_, rfl, State.SameStores.keeps ?_⟩
  dsimp only
  split <;> simp [State.SameStores]

theorem execChannelRestart_keeps (ch : Fin 12) (s : State) : ∃ t, execChannelRestart ch s = answer s t ∧ s.Keeps t := by
  refine ⟨_, rfl, State.SameStores.keeps ?_⟩
  dsimp only
  repeat' split
  all_goals simp [State.SameStores]

theorem execCurrentLimitChange_keeps (ch : Fin 12) (inLimit : Bool) (s : State) :
    ∃ t, execCurrentLimitChange ch inLimit s = answer s t ∧ s.Keeps t := by
  refine ⟨_, rfl, State.SameStores.keeps ?_⟩
  split <;> simp [State.SameStores]

theorem execPullInEnd_keeps (j : Fin 12) (dutyPermille iEndMa : Nat) (s : State) :
    ∃ t, execPullInEnd j dutyPermille iEndMa s = answer s t ∧ s.Keeps t := by
  refine ⟨_, rfl, State.SameStores.keeps ?_⟩
  dsimp only
  split <;> simp [State.SameStores]

theorem execEconomiserUpdate_keeps (vbat10mV : BitVec 12) (s : State) : ∃ t, execEconomiserUpdate vbat10mV s = answer s t ∧ s.Keeps t := by
  refine ⟨_, rfl, State.SameStores.keeps ?_⟩
  simp +contextual [State.SameStores, apply_ite State.mem, apply_ite State.sec, apply_ite State.clk]

theorem execDutyCompensationUpdate_keeps (vbat10mV : BitVec 12) (s : State) :
    ∃ t, execDutyCompensationUpdate vbat10mV s = answer s t ∧ s.Keeps t := by
  refine ⟨_, rfl, State.SameStores.keeps ?_⟩
  simp +contextual [State.SameStores, apply_ite State.mem, apply_ite State.sec, apply_ite State.clk]

theorem execGeneralTestPulse_keeps (ch : Fin 12) (s : State) : ∃ t, execGeneralTestPulse ch s = answer s t ∧ s.Keeps t := by
  refine ⟨_, rfl, State.SameStores.keeps ?_⟩
  split <;> simp [State.SameStores]

theorem execGeneralTestPulseEnd_keeps (ch : Fin 12) (fell : Bool) (s : State) :
    ∃ t, execGeneralTestPulseEnd ch fell s = answer s t ∧ s.Keeps t := by
  refine ⟨_, rfl, State.SameStores.keeps ?_⟩
  dsimp only
  repeat' split
  all_goals simp [State.SameStores]

theorem execSenseGSample_keeps (senseMv : Nat) (s : State) : ∃ t, execSenseGSample senseMv s = answer s t ∧ s.Keeps t := by
  refine ⟨_, rfl, ?_⟩
  dsimp only
  repeat' split
  all_goals simp +contextual [State.Keeps, Sec.SameTack]

theorem execSnsSelRead_keeps (pins : BitVec 4) (s : State) : ∃ t, execSnsSelRead pins s = answer s t ∧ s.Keeps t := by
  refine ⟨_, rfl, State.SameStores.keeps ?_⟩
  split <;> simp [State.SameStores]

theorem execSwcSet_keeps (c : Cmd) (s : State) : ∃ t, execSwcSet c s = answer s t ∧ s.Keeps t := by
  refine ⟨_, rfl, State.run_keeps _ _ _ _ fun t => State.SameStores.keeps ?_⟩
  simp [State.SameStores]

theorem execSwcConfig_keeps (c : Cmd) (pkg : List Byte) (s : State) : ∃ t, execSwcConfig c pkg s = answer s t ∧ s.Keeps t := by
  refine ⟨_, rfl, State.run_keeps _ _ _ _ fun t => State.SameStores.keeps ?_⟩
  repeat' split
  all_goals simp [State.SameStores]

theorem execHostInterfaceReset_keeps (_kind : HifReset) (s : State) : ∃ t, execHostInterfaceReset _kind s = answer s t ∧ s.Keeps t := by
  refine ⟨_, rfl, State.SameStores.keeps ?_⟩
  simp [State.SameStores]

theorem execBusMasterEnableChange_keeps (en : Bool) (s : State) : ∃ t, execBusMasterEnableChange en s = answer s t ∧ s.Keeps t := by
  refine ⟨_, rfl, State.SameStores.keeps ?_⟩
  split <;> simp [State.SameStores]

theorem execDbBaseWrite_keeps (hi : Bool) (v : Word) (s : State) : ∃ t, execDbBaseWrite hi v s = answer s t ∧ s.Keeps t := by
  refine ⟨_, rfl, State.SameStores.keeps ?_⟩
  simp [State.SameStores]

theorem execDbErrClear_keeps (s : State) : ∃ t, execDbErrClear s = answer s t ∧ s.Keeps t := by
  refine ⟨_, rfl, State.SameStores.keeps ?_⟩
  simp [State.SameStores]

theorem execRingEnable_keeps (r : Fin 16) (cfg : Word) (s : State) : ∃ t, execRingEnable r cfg s = answer s t ∧ s.Keeps t := by
  refine ⟨_, rfl, State.SameStores.keeps ?_⟩
  simp [State.SameStores]

theorem execRingDisable_keeps (r : Fin 16) (cfg : Word) (s : State) : ∃ t, execRingDisable r cfg s = answer s t ∧ s.Keeps t := by
  refine ⟨_, rfl, State.SameStores.keeps ?_⟩
  simp [State.SameStores]

theorem execDoorbellPoll_keeps (s : State) : ∃ t, execDoorbellPoll s = answer s t ∧ s.Keeps t := by
  refine ⟨_, rfl, State.SameStores.keeps ?_⟩
  split <;> simp [State.SameStores]

theorem execDoorbellReadComplete_keeps (read : Option (Bank 16 DbSlot)) (s : State) :
    ∃ t, execDoorbellReadComplete read s = answer s t ∧ s.Keeps t := by
  refine ⟨_, rfl, ?_⟩
  split
  · exact .refl s
  · split
    · exact State.SameStores.keeps ⟨rfl, rfl, rfl⟩
    · next slots =>
      split
      next t changed ht =>
      have h1 : s.SameStores t := by simpa only [ht] using takeSlots_stores slots (places 16) (s, false)
      exact h1.keeps.same (by simp [State.SameStores])

theorem execDmaErrorCompletion_keeps (r : Fin 16) (_kind : DmaKind) (s : State) :
    ∃ t, execDmaErrorCompletion r _kind s = answer s t ∧ s.Keeps t := by
  refine ⟨_, rfl, State.SameStores.keeps ?_⟩
  split <;> simp [State.SameStores]

theorem execSubmissionFetch_keeps (s : State) : ∃ t, execSubmissionFetch s = answer s t ∧ s.Keeps t := by
  refine ⟨_, rfl, State.SameStores.keeps ?_⟩
  repeat' split
  all_goals simp [State.SameStores]

theorem execSubmissionArrival_keeps (r : Fin 16) (entry : BitVec 512) (s : State) :
    ∃ t, execSubmissionArrival r entry s = answer s t ∧ s.Keeps t := by
  refine ⟨_, rfl, State.SameStores.keeps ?_⟩
  split <;> simp [State.SameStores]

theorem execCommandDependencyResolved_keeps (stamp : BitVec 32) (s : State) :
    ∃ t, execCommandDependencyResolved stamp s = answer s t ∧ s.Keeps t := by
  refine ⟨_, rfl, State.SameStores.keeps ?_⟩
  simp [State.SameStores]

theorem execCommandDataDmaComplete_keeps (stamp : BitVec 32) (ok : Bool) (s : State) :
    ∃ t, execCommandDataDmaComplete stamp ok s = answer s t ∧ s.Keeps t := by
  refine ⟨_, rfl, State.SameStores.keeps ?_⟩
  repeat' split
  all_goals simp [State.SameStores]

theorem execCompletionToHost_keeps (r : Fin 16) (s : State) : ∃ t, execCompletionToHost r s = answer s t ∧ s.Keeps t := by
  refine ⟨_, rfl, State.SameStores.keeps ?_⟩
  dsimp only
  repeat' split
  all_goals simp [State.SameStores]

theorem execCoalesceTimer_keeps (r : Fin 16) (s : State) : ∃ t, execCoalesceTimer r s = answer s t ∧ s.Keeps t := by
  refine ⟨_, rfl, State.SameStores.keeps ?_⟩
  dsimp only
  split <;> simp [State.SameStores]

theorem execMsixUnmask_keeps (vec : Fin 32) (s : State) : ∃ t, execMsixUnmask vec s = answer s t ∧ s.Keeps t := by
  refine ⟨_, rfl, State.SameStores.keeps ?_⟩
  simp [State.SameStores]

theorem execDrainComplete_keeps (r : Fin 16) (s : State) : ∃ t, execDrainComplete r s = answer s t ∧ s.Keeps t := by
  refine ⟨_, rfl, State.SameStores.keeps ?_⟩
  dsimp only
  split <;> simp [State.SameStores]

theorem execTroughRecord_keeps (src : Source) (rec_ : TroughRec) (s : State) : ∃ t, execTroughRecord src rec_ s = answer s t ∧ s.Keeps t := by
  refine ⟨_, rfl, ?_⟩
  split <;> simp +contextual [State.Keeps, Sec.SameTack]

theorem execStreamRecordTransfer_keeps (src : Source) (listEntry : BitVec 128) (s : State) :
    ∃ t, execStreamRecordTransfer src listEntry s = answer s t ∧ s.Keeps t := by
  refine ⟨_, rfl, State.SameStores.keeps ?_⟩
  dsimp only
  repeat' split
  all_goals simp [State.SameStores]

theorem execStreamFlushTimer_keeps (stamp : BitVec 32) (s : State) : ∃ t, execStreamFlushTimer stamp s = answer s t ∧ s.Keeps t := by
  refine ⟨_, rfl, State.SameStores.keeps ?_⟩
  repeat' split
  all_goals simp [State.SameStores]

theorem execStreamSamples_keeps (c : Cmd) (s : State) : ∃ t, execStreamSamples c s = answer s t ∧ s.Keeps t := by
  refine ⟨_, rfl, State.run_keeps _ _ _ _ fun t => State.SameStores.keeps ?_⟩
  simp [State.SameStores]

theorem execStreamImpedance_keeps (c : Cmd) (s : State) : ∃ t, execStreamImpedance c s = answer s t ∧ s.Keeps t := by
  refine ⟨_, rfl, State.run_keeps _ _ _ _ fun t => State.SameStores.keeps ?_⟩
  simp [State.SameStores]

theorem execStreamEstimates_keeps (c : Cmd) (s : State) : ∃ t, execStreamEstimates c s = answer s t ∧ s.Keeps t := by
  refine ⟨_, rfl, State.run_keeps _ _ _ _ fun t => State.SameStores.keeps ?_⟩
  simp [State.SameStores]

theorem execStreamStop_keeps (c : Cmd) (s : State) : ∃ t, execStreamStop c s = answer s t ∧ s.Keeps t := by
  refine ⟨_, rfl, State.run_keeps _ _ _ _ fun t => State.SameStores.keeps ?_⟩
  simp [State.SameStores]

theorem execNopAdmin_keeps (c : Cmd) (s : State) : ∃ t, execNopAdmin c s = answer s t ∧ s.Keeps t := by
  refine ⟨_, rfl, State.run_keeps _ _ _ _ fun t => State.SameStores.keeps ?_⟩
  simp [State.SameStores]

theorem execNopControl_keeps (c : Cmd) (s : State) : ∃ t, execNopControl c s = answer s t ∧ s.Keeps t := by
  refine ⟨_, rfl, State.run_keeps _ _ _ _ fun t => State.SameStores.keeps ?_⟩
  simp [State.SameStores]

theorem execNopQuery_keeps (c : Cmd) (s : State) : ∃ t, execNopQuery c s = answer s t ∧ s.Keeps t := by
  refine ⟨_, rfl, State.run_keeps _ _ _ _ fun t => State.SameStores.keeps ?_⟩
  simp [State.SameStores]

theorem execNopStream_keeps (c : Cmd) (s : State) : ∃ t, execNopStream c s = answer s t ∧ s.Keeps t := by
  refine ⟨_, rfl, State.run_keeps _ _ _ _ fun t => State.SameStores.keeps ?_⟩
  simp [State.SameStores]

theorem execHalterCauseEntry_keeps (d : Detail) (w : Fin 16) (s : State) : ∃ t, execHalterCauseEntry d w s = answer s t ∧ s.Keeps t := by
  refine ⟨_, rfl, State.SameStores.keeps ?_⟩
  simp [State.SameStores]

theorem execLockoutWordCopy_keeps (s : State) : ∃ t, execLockoutWordCopy s = answer s t ∧ s.Keeps t := by
  refine ⟨_, rfl, State.SameStores.keeps ?_⟩
  split <;> simp [State.SameStores]

theorem execSafetyInputChange_keeps (n : Fin 8) (chB closed : Bool) (s : State) :
    ∃ t, execSafetyInputChange n chB closed s = answer s t ∧ s.Keeps t := by
  refine ⟨_, rfl, State.SameStores.keeps ?_⟩
  dsimp only
  repeat' split
  all_goals simp [State.SameStores]

theorem execSinTestPulse_keeps (k : Fin 4) (s : State) : ∃ t, execSinTestPulse k s = answer s t ∧ s.Keeps t := by
  refine ⟨_, rfl, State.SameStores.keeps ?_⟩
  simp [State.SameStores]

theorem execSinTestPulseJudge_keeps (k : Fin 4) (read : Bank 16 PulseReading) (s : State) :
    ∃ t, execSinTestPulseJudge k read s = answer s t ∧ s.Keeps t := by
  refine ⟨_, rfl, State.SameStores.keeps ?_⟩
  simp [State.SameStores]

theorem execSinDiscrepancy_keeps (n : Fin 8) (s : State) : ∃ t, execSinDiscrepancy n s = answer s t ∧ s.Keeps t := by
  refine ⟨_, rfl, State.SameStores.keeps ?_⟩
  dsimp only
  split <;> simp [State.SameStores]

theorem execGuardProofExpiry_keeps (n : Fin 8) (s : State) : ∃ t, execGuardProofExpiry n s = answer s t ∧ s.Keeps t := by
  refine ⟨_, rfl, State.SameStores.keeps ?_⟩
  dsimp only
  split <;> simp [State.SameStores]

theorem execHeartbeatWrite_keeps (view : View) (v : Word) (s : State) : ∃ t, execHeartbeatWrite view v s = answer s t ∧ s.Keeps t := by
  refine ⟨_, rfl, State.SameStores.keeps ?_⟩
  simp [State.SameStores]

theorem execHeartbeatLate_keeps (s : State) : ∃ t, execHeartbeatLate s = answer s t ∧ s.Keeps t := by
  refine ⟨_, rfl, State.SameStores.keeps ?_⟩
  split <;> simp [State.SameStores]

theorem execHeartbeatLoss_keeps (s : State) : ∃ t, execHeartbeatLoss s = answer s t ∧ s.Keeps t := by
  refine ⟨_, rfl, State.SameStores.keeps ?_⟩
  split <;> simp [State.SameStores]

theorem execTelegramReceived_keeps (net : Fin 2) (bytes : BitVec 128) (s : State) :
    ∃ t, execTelegramReceived net bytes s = answer s t ∧ s.Keeps t := by
  refine ⟨_, rfl, State.SameStores.keeps ?_⟩
  dsimp only
  repeat' split
  all_goals simp [State.SameStores]

theorem execTelegramPairTimeout_keeps (net : Fin 2) (s : State) : ∃ t, execTelegramPairTimeout net s = answer s t ∧ s.Keeps t := by
  refine ⟨_, rfl, State.SameStores.keeps ?_⟩
  simp [State.SameStores]

theorem execNetLoss_keeps (s : State) : ∃ t, execNetLoss s = answer s t ∧ s.Keeps t := by
  refine ⟨_, rfl, State.SameStores.keeps ?_⟩
  split <;> simp [State.SameStores]

theorem execStatusTelegram_keeps (sent0 sent1 : Bool) (s : State) : ∃ t, execStatusTelegram sent0 sent1 s = answer s t ∧ s.Keeps t := by
  refine ⟨_, rfl, State.SameStores.keeps ?_⟩
  split <;> simp [State.SameStores]

theorem execClosePermitExpiry_keeps (str : Fin 4) (s : State) : ∃ t, execClosePermitExpiry str s = answer s t ∧ s.Keeps t := by
  refine ⟨_, rfl, State.SameStores.keeps ?_⟩
  repeat' split
  all_goals simp [State.SameStores]

theorem execHalterMirrorRead_keeps (s : State) : ∃ t, execHalterMirrorRead s = answer s t ∧ s.Keeps t := by
  refine ⟨_, rfl, State.SameStores.keeps ?_⟩
  simp [State.SameStores]

theorem execContactorTestPulse_keeps (j : Fin 12) (s : State) : ∃ t, execContactorTestPulse j s = answer s t ∧ s.Keeps t := by
  refine ⟨_, rfl, State.SameStores.keeps ?_⟩
  dsimp only
  split <;> simp [State.SameStores]

theorem execContactorTestPulseEnd_keeps (j : Fin 12) (echoFell outFell outRecovered : Bool) (s : State) :
    ∃ t, execContactorTestPulseEnd j echoFell outFell outRecovered s = answer s t ∧ s.Keeps t := by
  refine ⟨_, rfl, State.SameStores.keeps ?_⟩
  dsimp only
  repeat' split
  all_goals simp [State.SameStores]

theorem execEnableRefresh_keeps (s : State) : ∃ t, execEnableRefresh s = answer s t ∧ s.Keeps t := by
  refine ⟨_, rfl, State.SameStores.keeps ?_⟩
  split <;> simp [State.SameStores]

theorem execEnableRefreshTimeout_keeps (s : State) : ∃ t, execEnableRefreshTimeout s = answer s t ∧ s.Keeps t := by
  refine ⟨_, rfl, State.SameStores.keeps ?_⟩
  split <;> simp [State.SameStores]

theorem execResetKeyPressStart_keeps (s : State) : ∃ t, execResetKeyPressStart s = answer s t ∧ s.Keeps t := by
  refine ⟨_, rfl, State.SameStores.keeps ?_⟩
  dsimp only
  split <;> simp [State.SameStores]

theorem execResetKeyPressEnd_keeps (otherWithin50ms : Bool) (s : State) :
    ∃ t, execResetKeyPressEnd otherWithin50ms s = answer s t ∧ s.Keeps t := by
  refine ⟨_, rfl, State.SameStores.keeps ?_⟩
  dsimp only
  repeat' split
  all_goals simp [State.SameStores]

theorem execRstkHeld_keeps (s : State) : ∃ t, execRstkHeld s = answer s t ∧ s.Keeps t := by
  refine ⟨_, rfl, State.SameStores.keeps ?_⟩
  repeat' split
  all_goals simp [State.SameStores]

theorem execRstkDisc_keeps (s : State) : ∃ t, execRstkDisc s = answer s t ∧ s.Keeps t := by
  refine ⟨_, rfl, State.SameStores.keeps ?_⟩
  simp [State.SameStores]

theorem execResetEnable_keeps (s : State) : ∃ t, execResetEnable s = answer s t ∧ s.Keeps t := by
  refine ⟨_, rfl, State.SameStores.keeps ?_⟩
  dsimp only
  repeat' split
  all_goals simp [State.SameStores]

theorem execHalterResetReq_keeps (c : Cmd) (s : State) : ∃ t, execHalterResetReq c s = answer s t ∧ s.Keeps t := by
  refine ⟨_, rfl, State.run_keeps _ _ _ _ fun t => State.SameStores.keeps ?_⟩
  dsimp only
  repeat' split
  all_goals simp [State.SameStores]

theorem execHostSafeRequest_keeps (v : Word) (s : State) : ∃ t, execHostSafeRequest v s = answer s t ∧ s.Keeps t := by
  refine ⟨_, rfl, State.SameStores.keeps ?_⟩
  simp [State.SameStores]

theorem execHalterStartupTestsDone_keeps (stageOk eccOk comparatorsOk : Bool) (s : State) :
    ∃ t, execHalterStartupTestsDone stageOk eccOk comparatorsOk s = answer s t ∧ s.Keeps t := by
  refine ⟨_, rfl, State.SameStores.keeps ?_⟩
  dsimp only
  repeat' split
  all_goals simp [State.SameStores]

theorem execFaultPinMismatch_keeps (_pinA : Bool) (s : State) : ∃ t, execFaultPinMismatch _pinA s = answer s t ∧ s.Keeps t := by
  refine ⟨_, rfl, State.SameStores.keeps ?_⟩
  simp [State.SameStores]

theorem execStringClose_keeps (c : Cmd) (s : State) : ∃ t, execStringClose c s = answer s t ∧ s.Keeps t := by
  refine ⟨_, rfl, State.run_keeps _ _ _ _ fun t => State.SameStores.keeps ?_⟩
  dsimp only
  repeat' split
  all_goals simp [State.SameStores]

theorem execStringOpen_keeps (c : Cmd) (s : State) : ∃ t, execStringOpen c s = answer s t ∧ s.Keeps t := by
  refine ⟨_, rfl, State.run_keeps _ _ _ _ fun t => State.SameStores.keeps ?_⟩
  split <;> simp [State.SameStores]

theorem execPreCnTimeout_keeps (str : Fin 4) (s : State) : ∃ t, execPreCnTimeout str s = answer s t ∧ s.Keeps t := by
  refine ⟨_, rfl, State.SameStores.keeps ?_⟩
  repeat' split
  all_goals simp [State.SameStores]

theorem execPrechargeCheckpoint_keeps (str : Fin 4) (s : State) : ∃ t, execPrechargeCheckpoint str s = answer s t ∧ s.Keeps t := by
  refine ⟨_, rfl, State.SameStores.keeps ?_⟩
  dsimp only
  repeat' split
  all_goals simp [State.SameStores]

theorem execPrechargeTimeout_keeps (str : Fin 4) (s : State) : ∃ t, execPrechargeTimeout str s = answer s t ∧ s.Keeps t := by
  refine ⟨_, rfl, State.SameStores.keeps ?_⟩
  dsimp only
  split <;> simp [State.SameStores]

theorem execOverlapTimeout_keeps (str : Fin 4) (s : State) : ∃ t, execOverlapTimeout str s = answer s t ∧ s.Keeps t := by
  refine ⟨_, rfl, State.SameStores.keeps ?_⟩
  dsimp only
  repeat' split
  all_goals simp [State.SameStores]

theorem execOpeningRelease_keeps (str : Fin 4) (s : State) : ∃ t, execOpeningRelease str s = answer s t ∧ s.Keeps t := by
  refine ⟨_, rfl, State.SameStores.keeps ?_⟩
  split <;> simp [State.SameStores]

theorem execOpeningForcedRelease_keeps (str : Fin 4) (s : State) : ∃ t, execOpeningForcedRelease str s = answer s t ∧ s.Keeps t := by
  refine ⟨_, rfl, State.SameStores.keeps ?_⟩
  split <;> simp [State.SameStores]

theorem execOpeningCnOff_keeps (str : Fin 4) (s : State) : ∃ t, execOpeningCnOff str s = answer s t ∧ s.Keeps t := by
  refine ⟨_, rfl, State.SameStores.keeps ?_⟩
  repeat' split
  all_goals simp [State.SameStores]

theorem execWeldCheckTimeout_keeps (str : Fin 4) (s : State) : ∃ t, execWeldCheckTimeout str s = answer s t ∧ s.Keeps t := by
  refine ⟨_, rfl, State.SameStores.keeps ?_⟩
  dsimp only
  repeat' split
  all_goals simp [State.SameStores]

theorem execWeldedRelease_keeps (str : Fin 4) (s : State) : ∃ t, execWeldedRelease str s = answer s t ∧ s.Keeps t := by
  refine ⟨_, rfl, State.SameStores.keeps ?_⟩
  repeat' split
  all_goals simp [State.SameStores]

theorem execAuxInputChange_keeps (k : Fin 12) (closed : Bool) (s : State) : ∃ t, execAuxInputChange k closed s = answer s t ∧ s.Keeps t := by
  refine ⟨_, rfl, State.SameStores.keeps ?_⟩
  dsimp only
  split <;> simp [State.SameStores]

theorem execAuxMismatch_keeps (k : Fin 12) (s : State) : ∃ t, execAuxMismatch k s = answer s t ∧ s.Keeps t := by
  refine ⟨_, rfl, State.SameStores.keeps ?_⟩
  dsimp only
  split <;> simp [State.SameStores]

theorem execAuxClosedWhileOpen_keeps (k : Fin 12) (s : State) : ∃ t, execAuxClosedWhileOpen k s = answer s t ∧ s.Keeps t := by
  refine ⟨_, rfl, State.SameStores.keeps ?_⟩
  dsimp only
  split <;> simp [State.SameStores]

theorem execSupplyDip_keeps (die : Fin 2) (vbat10mV : BitVec 12) (s : State) : ∃ t, execSupplyDip die vbat10mV s = answer s t ∧ s.Keeps t := by
  refine ⟨_, rfl, State.SameStores.keeps ?_⟩
  dsimp only
  split <;> simp [State.SameStores]

theorem execContactorDipTimeout_keeps (s : State) : ∃ t, execContactorDipTimeout s = answer s t ∧ s.Keeps t := by
  refine ⟨_, rfl, State.SameStores.keeps ?_⟩
  simp [State.SameStores]

theorem execSupplyRestore_keeps (die : Fin 2) (vbat10mV : BitVec 12) (s : State) :
    ∃ t, execSupplyRestore die vbat10mV s = answer s t ∧ s.Keeps t := by
  refine ⟨_, rfl, State.SameStores.keeps ?_⟩
  split <;> simp [State.SameStores]

theorem execSupplyLoss_keeps (die : Fin 2) (vbat10mV : BitVec 12) (s : State) : ∃ t, execSupplyLoss die vbat10mV s = answer s t ∧ s.Keeps t := by
  refine ⟨_, rfl, State.SameStores.keeps ?_⟩
  simp +contextual [State.SameStores, apply_ite State.mem, apply_ite State.sec, apply_ite State.clk]

theorem execPrechargeCauseExpiry_keeps (str : Fin 4) (s : State) : ∃ t, execPrechargeCauseExpiry str s = answer s t ∧ s.Keeps t := by
  refine ⟨_, rfl, State.SameStores.keeps ?_⟩
  repeat' split
  all_goals simp [State.SameStores]

theorem execIsoPersistenceElapsed_keeps (str : Fin 4) (cond : IsoCond) (s : State) :
    ∃ t, execIsoPersistenceElapsed str cond s = answer s t ∧ s.Keeps t := by
  refine ⟨_, rfl, State.SameStores.keeps ?_⟩
  dsimp only
  repeat' split
  all_goals simp [State.SameStores]

theorem execIsoClear_keeps (str : Fin 4) (cond : IsoCond) (s : State) : ∃ t, execIsoClear str cond s = answer s t ∧ s.Keeps t := by
  refine ⟨_, rfl, State.SameStores.keeps ?_⟩
  dsimp only
  repeat' split
  all_goals simp [State.SameStores]

theorem execOverTempSet_keeps (str : Fin 4) (s : State) : ∃ t, execOverTempSet str s = answer s t ∧ s.Keeps t := by
  refine ⟨_, rfl, State.SameStores.keeps ?_⟩
  dsimp only
  repeat' split
  all_goals simp [State.SameStores]

theorem execOverTempClear_keeps (str : Fin 4) (s : State) : ∃ t, execOverTempClear str s = answer s t ∧ s.Keeps t := by
  refine ⟨_, rfl, State.SameStores.keeps ?_⟩
  dsimp only
  repeat' split
  all_goals simp [State.SameStores]

theorem execServiceMode_keeps (c : Cmd) (s : State) : ∃ t, execServiceMode c s = answer s t ∧ s.Keeps t := by
  refine ⟨_, rfl, State.run_keeps _ _ _ _ fun t => State.SameStores.keeps ?_⟩
  dsimp only
  repeat' split
  all_goals simp [State.SameStores]

theorem execServiceModeExpiry_keeps (str : Fin 4) (s : State) : ∃ t, execServiceModeExpiry str s = answer s t ∧ s.Keeps t := by
  refine ⟨_, rfl, State.SameStores.keeps ?_⟩
  dsimp only
  split <;> simp [State.SameStores]

theorem execLimitsRead_keeps (c : Cmd) (s : State) : ∃ t, execLimitsRead c s = answer s t ∧ s.Keeps t := by
  refine ⟨_, rfl, State.run_keeps _ _ _ _ fun t => State.SameStores.keeps ?_⟩
  dsimp only
  split <;> simp [State.SameStores]

theorem execTripRequest_keeps (str : Fin 4) (k : TripKind) (s : State) : ∃ t, execTripRequest str k s = answer s t ∧ s.Keeps t := by
  refine ⟨_, rfl, State.SameStores.keeps ?_⟩
  dsimp only
  split <;> simp [State.SameStores]

theorem execTripKindClear_keeps (str : Fin 4) (k : TripKind) (s : State) : ∃ t, execTripKindClear str k s = answer s t ∧ s.Keeps t := by
  refine ⟨_, rfl, State.SameStores.keeps ?_⟩
  dsimp only
  split <;> simp [State.SameStores]

theorem execTripLimits_keeps (c : Cmd) (s : State) : ∃ t, execTripLimits c s = answer s t ∧ s.Keeps t := by
  refine ⟨_, rfl, State.run_keeps _ _ _ _ fun t => State.SameStores.keeps ?_⟩
  dsimp only
  repeat' split
  all_goals simp [State.SameStores]

theorem execSweepConfig_keeps (c : Cmd) (s : State) : ∃ t, execSweepConfig c s = answer s t ∧ s.Keeps t := by
  refine ⟨_, rfl, State.run_keeps _ _ _ _ fun t => State.SameStores.keeps ?_⟩
  repeat' split
  all_goals simp [State.SameStores]

theorem execRateChangeApply_keeps (str : Fin 4) (s : State) : ∃ t, execRateChangeApply str s = answer s t ∧ s.Keeps t := by
  refine ⟨_, rfl, State.SameStores.keeps ?_⟩
  simp [State.SameStores]

theorem execSlotListApply_keeps (u : Fin 128) (s : State) : ∃ t, execSlotListApply u s = answer s t ∧ s.Keeps t := by
  refine ⟨_, rfl, State.SameStores.keeps ?_⟩
  dsimp only
  repeat' split
  all_goals simp [State.SameStores]

theorem execSampleRead_keeps (c : Cmd) (s : State) : ∃ t, execSampleRead c s = answer s t ∧ s.Keeps t := by
  refine ⟨_, rfl, State.run_keeps _ _ _ _ fun t => State.SameStores.keeps ?_⟩
  dsimp only
  repeat' split
  all_goals simp [State.SameStores]

theorem execAlignCntClr_keeps (u : Fin 128) (s : State) : ∃ t, execAlignCntClr u s = answer s t ∧ s.Keeps t := by
  refine ⟨_, rfl, State.SameStores.keeps ?_⟩
  simp [State.SameStores]

theorem execDataAgeDerate_keeps (str : Fin 4) (dir : Crossing) (s : State) : ∃ t, execDataAgeDerate str dir s = answer s t ∧ s.Keeps t := by
  refine ⟨_, rfl, State.SameStores.keeps ?_⟩
  dsimp only
  split <;> simp [State.SameStores]

theorem execDataAgeDisconnect_keeps (str : Fin 4) (dir : Crossing) (s : State) :
    ∃ t, execDataAgeDisconnect str dir s = answer s t ∧ s.Keeps t := by
  refine ⟨_, rfl, State.SameStores.keeps ?_⟩
  dsimp only
  repeat' split
  all_goals simp [State.SameStores]

theorem execCurrentAgeDerate_keeps (str : Fin 4) (dir : Crossing) (s : State) : ∃ t, execCurrentAgeDerate str dir s = answer s t ∧ s.Keeps t := by
  refine ⟨_, rfl, State.SameStores.keeps ?_⟩
  dsimp only
  split <;> simp [State.SameStores]

theorem execCurrentAgeDisconnect_keeps (str : Fin 4) (dir : Crossing) (s : State) :
    ∃ t, execCurrentAgeDisconnect str dir s = answer s t ∧ s.Keeps t := by
  refine ⟨_, rfl, State.SameStores.keeps ?_⟩
  dsimp only
  repeat' split
  all_goals simp [State.SameStores]

theorem execInvalidAgeExpiry_keeps (u : Fin 128) (cell : Fin 16) (s : State) : ∃ t, execInvalidAgeExpiry u cell s = answer s t ∧ s.Keeps t := by
  refine ⟨_, rfl, State.SameStores.keeps ?_⟩
  repeat' split
  all_goals simp [State.SameStores]

theorem execPlausibilityEvaluation_keeps (u : Fin 128) (s : State) : ∃ t, execPlausibilityEvaluation u s = answer s t ∧ s.Keeps t := by
  refine ⟨_, rfl, State.SameStores.keeps ?_⟩
  dsimp only
  repeat' split
  all_goals simp [State.SameStores]

theorem execPlausibilitySet_keeps (p : PlausId) (s : State) : ∃ t, execPlausibilitySet p s = answer s t ∧ s.Keeps t := by
  refine ⟨_, rfl, State.SameStores.keeps ?_⟩
  dsimp only
  repeat' split
  all_goals simp [State.SameStores]

theorem execPlausibilityClear_keeps (p : PlausId) (s : State) : ∃ t, execPlausibilityClear p s = answer s t ∧ s.Keeps t := by
  refine ⟨_, rfl, State.SameStores.keeps ?_⟩
  dsimp only
  repeat' split
  all_goals simp [State.SameStores]

theorem execOpenWireProbeStart_keeps (s : State) : ∃ t, execOpenWireProbeStart s = answer s t ∧ s.Keeps t := by
  refine ⟨_, rfl, State.SameStores.keeps ?_⟩
  split <;> simp [State.SameStores]

theorem execProbePulseEnd_keeps (u : Fin 128) (s : State) : ∃ t, execProbePulseEnd u s = answer s t ∧ s.Keeps t := by
  refine ⟨_, rfl, State.SameStores.keeps ?_⟩
  repeat' split
  all_goals simp [State.SameStores]

theorem execProbeDecision_keeps (u : Fin 128) (s : State) : ∃ t, execProbeDecision u s = answer s t ∧ s.Keeps t := by
  refine ⟨_, rfl, State.SameStores.keeps ?_⟩
  dsimp only
  repeat' split
  all_goals simp [State.SameStores]

theorem execProbeRetry_keeps (u : Fin 128) (wire : Fin 16) (s : State) : ∃ t, execProbeRetry u wire s = answer s t ∧ s.Keeps t := by
  refine ⟨_, rfl, State.SameStores.keeps ?_⟩
  repeat' split
  all_goals simp [State.SameStores]

theorem execBalTestPhaseEnd_keeps (u : Fin 128) (vbr : Reading) (s : State) : ∃ t, execBalTestPhaseEnd u vbr s = answer s t ∧ s.Keeps t := by
  refine ⟨_, rfl, State.SameStores.keeps ?_⟩
  dsimp only
  repeat' split
  all_goals simp [State.SameStores]

theorem execBalTestSchedule_keeps (s : State) : ∃ t, execBalTestSchedule s = answer s t ∧ s.Keeps t := by
  refine ⟨_, rfl, State.SameStores.keeps ?_⟩
  dsimp only
  repeat' split
  all_goals simp [State.SameStores]

theorem execOpenWireProbe_keeps (c : Cmd) (s : State) : ∃ t, execOpenWireProbe c s = answer s t ∧ s.Keeps t := by
  refine ⟨_, rfl, State.run_keeps _ _ _ _ fun t => State.SameStores.keeps ?_⟩
  dsimp only
  repeat' split
  all_goals simp [State.SameStores]

theorem execBalTest_keeps (c : Cmd) (s : State) : ∃ t, execBalTest c s = answer s t ∧ s.Keeps t := by
  refine ⟨_, rfl, State.run_keeps _ _ _ _ fun t => State.SameStores.keeps ?_⟩
  dsimp only
  repeat' split
  all_goals simp [State.SameStores]

theorem execCalGenerationSwitch_keeps (u : Fin 128) (s : State) : ∃ t, execCalGenerationSwitch u s = answer s t ∧ s.Keeps t := by
  refine ⟨_, rfl, State.SameStores.keeps ?_⟩
  dsimp only
  repeat' split
  all_goals simp [State.SameStores]

theorem execLiveRunChannelDone_keeps (u : Fin 128) (s : State) : ∃ t, execLiveRunChannelDone u s = answer s t ∧ s.Keeps t := by
  refine ⟨_, rfl, ?_⟩
  dsimp only
  repeat' split
  all_goals simp +contextual [State.Keeps, Sec.SameTack]

theorem execCalRoutingRenew_keeps (u : Fin 128) (s : State) : ∃ t, execCalRoutingRenew u s = answer s t ∧ s.Keeps t := by
  refine ⟨_, rfl, State.SameStores.keeps ?_⟩
  repeat' split
  all_goals simp [State.SameStores]

theorem execCalDeferredWrite_keeps (u : Fin 128) (s : State) : ∃ t, execCalDeferredWrite u s = answer s t ∧ s.Keeps t := by
  refine ⟨_, rfl, ?_⟩
  repeat' split
  all_goals simp +contextual [State.Keeps, Sec.SameTack]

theorem execDriftEvaluation_keeps (u : Fin 128) (s : State) : ∃ t, execDriftEvaluation u s = answer s t ∧ s.Keeps t := by
  refine ⟨_, rfl, State.SameStores.keeps ?_⟩
  dsimp only
  repeat' split
  all_goals simp [State.SameStores]

theorem execDriftRunDeferredStart_keeps (u : Fin 128) (s : State) : ∃ t, execDriftRunDeferredStart u s = answer s t ∧ s.Keeps t := by
  refine ⟨_, rfl, State.SameStores.keeps ?_⟩
  split <;> simp [State.SameStores]

theorem execShuntOffsetRunEnd_keeps (str : Fin 4) (s : State) : ∃ t, execShuntOffsetRunEnd str s = answer s t ∧ s.Keeps t := by
  refine ⟨_, rfl, ?_⟩
  dsimp only
  repeat' split
  all_goals simp +contextual [State.Keeps, Sec.SameTack]

theorem execShuntGainRunEnd_keeps (str : Fin 4) (s : State) : ∃ t, execShuntGainRunEnd str s = answer s t ∧ s.Keeps t := by
  refine ⟨_, rfl, ?_⟩
  dsimp only
  repeat' split
  all_goals simp +contextual [State.Keeps, Sec.SameTack]

theorem execShuntAutoStart_keeps (str : Fin 4) (s : State) : ∃ t, execShuntAutoStart str s = answer s t ∧ s.Keeps t := by
  refine ⟨_, rfl, State.SameStores.keeps ?_⟩
  dsimp only
  repeat' split
  all_goals simp [State.SameStores]

theorem execCalRun_keeps (c : Cmd) (s : State) : ∃ t, execCalRun c s = answer s t ∧ s.Keeps t := by
  refine ⟨_, rfl, State.run_keeps _ _ _ _ fun t => State.SameStores.keeps ?_⟩
  dsimp only
  repeat' split
  all_goals simp [State.SameStores]

theorem execCalWrite_keeps (c : Cmd) (data : List Byte) (s : State) : ∃ t, execCalWrite c data s = answer s t ∧ s.Keeps t := by
  refine ⟨_, rfl, State.run_keeps _ _ _ _ fun t => ?_⟩
  dsimp only
  repeat' split
  all_goals simp +contextual [State.Keeps, Sec.SameTack]

theorem execCalRead_keeps (c : Cmd) (s : State) : ∃ t, execCalRead c s = answer s t ∧ s.Keeps t := by
  refine ⟨_, rfl, State.run_keeps _ _ _ _ fun t => State.SameStores.keeps ?_⟩
  split
  · extract_lets addr u body bytes
    clear_value bytes
    split <;> simp [State.SameStores]
  · simp [State.SameStores]

theorem execEstimatorCheckpoint_keeps (ok : Bool) (s : State) : ∃ t, execEstimatorCheckpoint ok s = answer s t ∧ s.Keeps t := by
  refine ⟨_, rfl, ?_⟩
  split
  · exact .refl s
  · extract_lets _ s1 _ base gen body head s2 s3
    have h1 : s.Keeps s1 := State.SameStores.keeps ⟨rfl, rfl, rfl⟩
    clear_value body head
    split
    · exact h1.same ⟨rfl, rfl, rfl⟩
    · have h2 : s1.Keeps s2 := (s1.mramStore_keeps _ _).trans (State.mramStore_keeps _ _ _)
      have h3 : s2.SameStores s3 := State.stores_foldl _ _ (fun t u => t.onCells_stores u _) s2
      clear_value s3 s2
      exact ((h1.trans h2).same h3).same ⟨rfl, rfl, rfl⟩

theorem execLimitStaleTimeout_keeps (str : Fin 4) (s : State) : ∃ t, execLimitStaleTimeout str s = answer s t ∧ s.Keeps t := by
  refine ⟨_, rfl, ?_⟩
  split <;> simp +contextual [State.Keeps, Sec.SameTack]

theorem execEstConfig_keeps (c : Cmd) (pkg : List Byte) (s : State) : ∃ t, execEstConfig c pkg s = answer s t ∧ s.Keeps t := by
  refine ⟨_, rfl, State.run_keeps _ _ _ _ fun t => State.SameStores.keeps ?_⟩
  dsimp only
  repeat' split
  all_goals simp [State.SameStores]

theorem execEstimatorStep_keeps (s : State) : ∃ t, execEstimatorStep s = answer s t ∧ s.Keeps t := by
  refine ⟨_, rfl, ?_⟩
  split <;> simp +contextual [State.Keeps, Sec.SameTack]

theorem execHealthUpdate_keeps (str : Fin 4) (s : State) : ∃ t, execHealthUpdate str s = answer s t ∧ s.Keeps t := by
  refine ⟨_, rfl, ?_⟩
  split
  · exact .refl s
  · extract_lets
    rename_i s1 s2 s3
    have h1 : s.SameStores s1 := ⟨rfl, rfl, rfl⟩
    have h2 : s1.SameStores s2 := by simp [State.SameStores, s2]
    have h3 : s2.SameStores s3 := State.stores_foldl _ _ (fun t u => t.onCells_stores u _) s2
    clear_value s3 s2 s1
    exact (((h1.trans h2).trans h3).keeps.trans (s3.writeStringRecord_keeps str)).trans (.foldl _ _ (fun t u => t.writeUnitRecord_keeps u) _)

theorem execEstQuery_keeps (c : Cmd) (s : State) : ∃ t, execEstQuery c s = answer s t ∧ s.Keeps t := by
  refine ⟨_, rfl, State.run_keeps _ _ _ _ fun t => State.SameStores.keeps ?_⟩
  dsimp only
  repeat' split
  all_goals simp [State.SameStores]

theorem execEstimateStreamTick_keeps (s : State) : ∃ t, execEstimateStreamTick s = answer s t ∧ s.Keeps t := by
  refine ⟨_, rfl, State.SameStores.keeps ?_⟩
  simp +contextual [State.SameStores, apply_ite State.mem, apply_ite State.sec, apply_ite State.clk]

theorem execLockinBlockEnd_keeps (str : Fin 4) (bin : Fin 32) (s : State) : ∃ t, execLockinBlockEnd str bin s = answer s t ∧ s.Keeps t := by
  refine ⟨_, rfl, ?_⟩
  dsimp only
  repeat' split
  all_goals simp +contextual [State.Keeps, Sec.SameTack]

theorem execExcitationStart_keeps (str : Fin 4) (s : State) : ∃ t, execExcitationStart str s = answer s t ∧ s.Keeps t := by
  refine ⟨_, rfl, State.SameStores.keeps ?_⟩
  dsimp only
  repeat' split
  all_goals simp [State.SameStores]

theorem execExcitationToggle_keeps (str : Fin 4) (s : State) : ∃ t, execExcitationToggle str s = answer s t ∧ s.Keeps t := by
  refine ⟨_, rfl, State.SameStores.keeps ?_⟩
  dsimp only
  repeat' split
  all_goals simp [State.SameStores]

theorem execCounterSlotWrite_keeps (str : Fin 4) (s : State) : ∃ t, execCounterSlotWrite str s = answer s t ∧ s.Keeps t := by
  refine ⟨_, rfl, ?_⟩
  split <;> simp +contextual [State.Keeps, Sec.SameTack]

theorem execTariffTag_keeps (c : Cmd) (s : State) : ∃ t, execTariffTag c s = answer s t ∧ s.Keeps t := by
  refine ⟨_, rfl, State.run_keeps _ _ _ _ fun t => State.SameStores.keeps ?_⟩
  dsimp only
  repeat' split
  all_goals simp [State.SameStores]

theorem execExposureTick_keeps (str : Fin 4) (s : State) : ∃ t, execExposureTick str s = answer s t ∧ s.Keeps t := by
  refine ⟨_, rfl, State.SameStores.keeps ?_⟩
  dsimp only
  split <;> simp [State.SameStores]

theorem execExposureSlotWrite_keeps (s : State) : ∃ t, execExposureSlotWrite s = answer s t ∧ s.Keeps t := by
  refine ⟨_, rfl, ?_⟩
  split <;> simp +contextual [State.Keeps, Sec.SameTack]

theorem execMeterStatement_keeps (c : Cmd) (s : State) : ∃ t, execMeterStatement c s = answer s t ∧ s.Keeps t := by
  refine ⟨_, rfl, State.run_keeps _ _ _ _ fun t => State.SameStores.keeps ?_⟩
  repeat' split
  all_goals simp [State.SameStores]

theorem execHealthStatement_keeps (c : Cmd) (s : State) : ∃ t, execHealthStatement c s = answer s t ∧ s.Keeps t := by
  refine ⟨_, rfl, State.run_keeps _ _ _ _ fun t => State.SameStores.keeps ?_⟩
  split <;> simp [State.SameStores]

theorem execStatementRelease_keeps (s : State) : ∃ t, execStatementRelease s = answer s t ∧ s.Keeps t := by
  refine ⟨_, rfl, State.SameStores.keeps ?_⟩
  repeat' split
  all_goals simp [State.SameStores]

theorem execFrameEdge_keeps (senseMv : Bank 12 Nat) (s : State) : ∃ t, execFrameEdge senseMv s = answer s t ∧ s.Keeps t := by
  refine ⟨_, rfl, ?_⟩
  split
  · exact (s.advance_keeps _).trans (State.atFrameEdge_keeps _ _)
  · exact .refl s

theorem execUpstreamRecord_keeps (stall : Fin 32) (r : UpRecord) (s : State) : ∃ t, execUpstreamRecord stall r s = answer s t ∧ s.Keeps t := by
  refine ⟨_, rfl, ?_⟩
  repeat' split
  all_goals simp +contextual [State.Keeps, Sec.SameTack]

theorem execUpstreamWindowEnd_keeps (stall : Fin 32) (s : State) : ∃ t, execUpstreamWindowEnd stall s = answer s t ∧ s.Keeps t := by
  refine ⟨_, rfl, ?_⟩
  dsimp only
  repeat' split
  all_goals simp +contextual [State.Keeps, Sec.SameTack]

theorem execBreakDeclared_keeps (stall : Fin 32) (pos : Fin 4) (s : State) : ∃ t, execBreakDeclared stall pos s = answer s t ∧ s.Keeps t := by
  refine ⟨_, rfl, State.SameStores.keeps ?_⟩
  dsimp only
  split <;> simp [State.SameStores]

theorem execEightFrameBoundary_keeps (s : State) : ∃ t, execEightFrameBoundary s = answer s t ∧ s.Keeps t := by
  refine ⟨_, rfl, State.SameStores.keeps ?_⟩
  simp +contextual [State.SameStores, apply_ite State.mem, apply_ite State.sec, apply_ite State.clk]

theorem execEnumReplyTimeout_keeps (stall : Fin 32) (s : State) : ∃ t, execEnumReplyTimeout stall s = answer s t ∧ s.Keeps t := by
  refine ⟨_, rfl, State.SameStores.keeps ?_⟩
  repeat' split
  all_goals simp [State.SameStores]

theorem execLoopbackTest_keeps (stall : Fin 32) (readBack : Word) (s : State) :
    ∃ t, execLoopbackTest stall readBack s = answer s t ∧ s.Keeps t := by
  refine ⟨_, rfl, State.SameStores.keeps ?_⟩
  split <;> simp [State.SameStores]

theorem execPhyFault_keeps (stall : Fin 32) (s : State) : ∃ t, execPhyFault stall s = answer s t ∧ s.Keeps t := by
  refine ⟨_, rfl, State.SameStores.keeps ?_⟩
  split <;> simp [State.SameStores]

theorem execPhyFaultRecovery_keeps (stall : Fin 32) (s : State) : ∃ t, execPhyFaultRecovery stall s = answer s t ∧ s.Keeps t := by
  refine ⟨_, rfl, State.SameStores.keeps ?_⟩
  split <;> simp [State.SameStores]

theorem execBalanceLeaseRefresh_keeps (u : Fin 128) (s : State) : ∃ t, execBalanceLeaseRefresh u s = answer s t ∧ s.Keeps t := by
  refine ⟨_, rfl, State.SameStores.keeps ?_⟩
  split <;> simp [State.SameStores]

theorem execBalanceDurationExpiry_keeps (u : Fin 128) (s : State) : ∃ t, execBalanceDurationExpiry u s = answer s t ∧ s.Keeps t := by
  refine ⟨_, rfl, State.SameStores.keeps ?_⟩
  dsimp only
  repeat' split
  all_goals simp [State.SameStores]

theorem execBalanceSet_keeps (c : Cmd) (s : State) : ∃ t, execBalanceSet c s = answer s t ∧ s.Keeps t := by
  refine ⟨_, rfl, State.run_keeps _ _ _ _ fun t => State.SameStores.keeps ?_⟩
  dsimp only
  repeat' split
  all_goals simp [State.SameStores]

theorem execEnumerate_keeps (c : Cmd) (s : State) : ∃ t, execEnumerate c s = answer s t ∧ s.Keeps t := by
  refine ⟨_, rfl, State.run_keeps _ _ _ _ fun t => State.SameStores.keeps ?_⟩
  simp +contextual [State.SameStores, apply_ite State.mem, apply_ite State.sec, apply_ite State.clk]

theorem execRosterRead_keeps (c : Cmd) (s : State) : ∃ t, execRosterRead c s = answer s t ∧ s.Keeps t := by
  refine ⟨_, rfl, State.run_keeps _ _ _ _ fun t => State.SameStores.keeps ?_⟩
  dsimp only
  repeat' split
  all_goals simp [State.SameStores]

theorem execStallErrCntClr_keeps (stall : Fin 32) (s : State) : ∃ t, execStallErrCntClr stall s = answer s t ∧ s.Keeps t := by
  refine ⟨_, rfl, State.SameStores.keeps ?_⟩
  simp [State.SameStores]

theorem execRosterAdopt_keeps (c : Cmd) (pkg : List Byte) (s : State) : ∃ t, execRosterAdopt c pkg s = answer s t ∧ s.Keeps t := by
  refine ⟨_, rfl, State.run_keeps _ _ _ _ fun t => ?_⟩
  extract_lets mask named seq es t1 t2 _ t3 t4
  have h1 : t.SameStores t1 := State.stores_foldl _ _ (fun x e => x.abortRun_stores _) t
  have h2 : t1.Keeps t2 := .foldl _ _ (fun x e => x.adoptUnit_keeps _ _ _) t1
  have h4 : t.Keeps t4 := (h1.keeps.trans h2).same (by simp [State.SameStores, t4, t3])
  repeat' split
  case isFalse => exact h4.same (by simp [State.SameStores])
  all_goals exact State.SameStores.keeps (by simp [State.SameStores])

theorem execStallService_keeps (c : Cmd) (pkg : List Byte) (s : State) : ∃ t, execStallService c pkg s = answer s t ∧ s.Keeps t := by
  refine ⟨_, rfl, State.run_keeps _ _ _ _ fun t => State.SameStores.keeps ?_⟩
  simp +contextual [State.SameStores, apply_ite State.mem, apply_ite State.sec, apply_ite State.clk]

theorem execLockstepMismatch_keeps (p : Fin 8) (lane : BitVec 2) (group : BitVec 4) (pc : BitVec 32) (s : State) :
    ∃ t, execLockstepMismatch p lane group pc s = answer s t ∧ s.Keeps t := by
  refine ⟨_, rfl, State.SameStores.keeps ?_⟩
  split <;> simp [State.SameStores]

theorem execPairSelftestStart_keeps (p : Fin 8) (s : State) : ∃ t, execPairSelftestStart p s = answer s t ∧ s.Keeps t := by
  refine ⟨_, rfl, State.SameStores.keeps ?_⟩
  split <;> simp [State.SameStores]

theorem execPairSelftestEnd_keeps (p : Fin 8) (result : BitVec 4) (core : Bool) (s : State) :
    ∃ t, execPairSelftestEnd p result core s = answer s t ∧ s.Keeps t := by
  refine ⟨_, rfl, ?_⟩
  repeat' split
  all_goals simp +contextual [State.Keeps, Sec.SameTack]

theorem execPairSelftest_keeps (c : Cmd) (s : State) : ∃ t, execPairSelftest c s = answer s t ∧ s.Keeps t := by
  refine ⟨_, rfl, State.run_keeps _ _ _ _ fun t => State.SameStores.keeps ?_⟩
  dsimp only
  repeat' split
  all_goals simp [State.SameStores]

theorem execPairSelftestIdleTimeout_keeps (s : State) : ∃ t, execPairSelftestIdleTimeout s = answer s t ∧ s.Keeps t := by
  refine ⟨_, rfl, State.SameStores.keeps ?_⟩
  simp [State.SameStores]

theorem execPairStart_keeps (writer : Fin 16) (p : Fin 8) (s : State) : ∃ t, execPairStart writer p s = answer s t ∧ s.Keeps t := by
  refine ⟨_, rfl, State.SameStores.keeps ?_⟩
  simp [State.SameStores]

theorem execPairStop_keeps (writer : Fin 16) (p : Fin 8) (s : State) : ∃ t, execPairStop writer p s = answer s t ∧ s.Keeps t := by
  refine ⟨_, rfl, State.SameStores.keeps ?_⟩
  simp [State.SameStores]

theorem execPairDone_keeps (writer : Fin 16) (s : State) : ∃ t, execPairDone writer s = answer s t ∧ s.Keeps t := by
  refine ⟨_, rfl, State.SameStores.keeps ?_⟩
  simp [State.SameStores]

theorem execDebugHalt_keeps (p : Fin 8) (s : State) : ∃ t, execDebugHalt p s = answer s t ∧ s.Keeps t := by
  refine ⟨_, rfl, State.SameStores.keeps ?_⟩
  split <;> simp [State.SameStores]

theorem execDebugResume_keeps (p : Fin 8) (s : State) : ∃ t, execDebugResume p s = answer s t ∧ s.Keeps t := by
  refine ⟨_, rfl, ?_⟩
  split <;> simp +contextual [State.Keeps, Sec.SameTack]

theorem execJtagExtest_keeps (s : State) : ∃ t, execJtagExtest s = answer s t ∧ s.Keeps t := by
  refine ⟨_, rfl, State.SameStores.keeps ?_⟩
  simp [State.SameStores]

theorem execDebugUnlock_keeps (c : Cmd) (pkg : List Byte) (s : State) : ∃ t, execDebugUnlock c pkg s = answer s t ∧ s.Keeps t := by
  refine ⟨_, rfl, State.run_keeps _ _ _ _ fun t => State.SameStores.keeps ?_⟩
  simp [State.SameStores]

theorem execDebugUnlockExpiry_keeps (s : State) : ∃ t, execDebugUnlockExpiry s = answer s t ∧ s.Keeps t := by
  refine ⟨_, rfl, State.SameStores.keeps ?_⟩
  split <;> simp [State.SameStores]

theorem execDebuggerAttach_keeps (on : Bool) (s : State) : ∃ t, execDebuggerAttach on s = answer s t ∧ s.Keeps t := by
  refine ⟨_, rfl, State.SameStores.keeps ?_⟩
  simp [State.SameStores]

theorem execRecordCapture_keeps (captureUs : Nat) (s : State) : ∃ t, execRecordCapture captureUs s = answer s t ∧ s.Keeps t := by
  refine ⟨_, rfl, ?_⟩
  dsimp only
  repeat' split
  all_goals simp +contextual [State.Keeps, Sec.SameTack]

theorem execStudbookRequest_keeps (trigger : BitVec 6) (subject : BitVec 8) (detail : BitVec 128) (s : State) :
    ∃ t, execStudbookRequest trigger subject detail s = answer s t ∧ s.Keeps t := by
  refine ⟨_, rfl, State.SameStores.keeps ?_⟩
  split <;> simp [State.SameStores]

theorem execRecorderFault_keeps (kind : BitVec 8) (bank7 : Bool) (slot : BitVec 15) (s : State) :
    ∃ t, execRecorderFault kind bank7 slot s = answer s t ∧ s.Keeps t := by
  refine ⟨_, rfl, ?_⟩
  split <;> simp +contextual [State.Keeps, Sec.SameTack]

theorem execRefusedCountWrite_keeps (s : State) : ∃ t, execRefusedCountWrite s = answer s t ∧ s.Keeps t := by
  refine ⟨_, rfl, ?_⟩
  repeat' split
  all_goals simp +contextual [State.Keeps, Sec.SameTack]

theorem execStudbookClear_keeps (c : Cmd) (pkg : List Byte) (s : State) : ∃ t, execStudbookClear c pkg s = answer s t ∧ s.Keeps t := by
  refine ⟨_, rfl, State.run_keeps _ _ _ _ fun t => ?_⟩
  simp +contextual [State.Keeps, Sec.SameTack]

theorem execStudbookRead_keeps (c : Cmd) (badRecord : Option Nat) (s : State) : ∃ t, execStudbookRead c badRecord s = answer s t ∧ s.Keeps t := by
  refine ⟨_, rfl, State.run_keeps _ _ _ _ fun t => ?_⟩
  simp +contextual [State.Keeps, Sec.SameTack]

theorem execYardArbitrationRound_keeps (target : Fin 12) (arriving : BitVec 25) (s : State) :
    ∃ t, execYardArbitrationRound target arriving s = answer s t ∧ s.Keeps t := by
  refine ⟨_, rfl, State.SameStores.keeps ?_⟩
  dsimp only
  repeat' split
  all_goals simp [State.SameStores]

theorem execYardMaxwaitClr_keeps (s : State) : ∃ t, execYardMaxwaitClr s = answer s t ∧ s.Keeps t := by
  refine ⟨_, rfl, State.SameStores.keeps ?_⟩
  simp [State.SameStores]

theorem execMqMaxlatClr_keeps (s : State) : ∃ t, execMqMaxlatClr s = answer s t ∧ s.Keeps t := by
  refine ⟨_, rfl, ?_⟩
  simp +contextual [State.Keeps, Sec.SameTack]

theorem execMramWriteSlot_keeps (verified : Bool) (s : State) : ∃ t, execMramWriteSlot verified s = answer s t ∧ s.Keeps t := by
  refine ⟨_, rfl, ?_⟩
  split
  · exact .refl s
  · split
    · exact .of_mem (fun h => ⟨h.sram, h.mram, h.queue⟩) rfl rfl
    · next lane _ =>
      split
      · exact .refl s
      · next w _ _ =>
        extract_lets record s1 s2 s3
        have h1 : s.Keeps s1 := s.writeCodeword_keeps lane w verified
        have h2 : s1.SameStores s2 := by
          unfold s2
          split <;> simp [State.SameStores]
        have h3 : s2.Keeps s3 := by
          unfold s3
          split
          · exact s2.recorderFault_keeps _ _
          · exact .refl s2
        have h4 : s3.Keeps (State.passRecords 32 s3) := State.passRecords_keeps 32 s3
        exact ((((h1.same h2).trans h3).trans h4).trans (State.finishClear_keeps _)).same (State.settleDevice_stores _) |>.trans
          (State.settleWaits_keeps _)

theorem execEntryPhaseComplete_keeps (s : State) : ∃ t, execEntryPhaseComplete s = answer s t ∧ s.Keeps t := by
  refine ⟨_, rfl, ?_⟩
  dsimp only
  repeat' split
  all_goals simp +contextual [State.Keeps, Sec.SameTack]

theorem execEntryPhaseTimeout_keeps (why : EntryTimeout) (s : State) : ∃ t, execEntryPhaseTimeout why s = answer s t ∧ s.Keeps t := by
  refine ⟨_, rfl, State.SameStores.keeps ?_⟩
  dsimp only
  repeat' split
  all_goals simp [State.SameStores]

theorem execWakeStepReady_keeps (imageOk : Bool) (comparatorCode : BitVec 8) (s : State) :
    ∃ t, execWakeStepReady imageOk comparatorCode s = answer s t ∧ s.Keeps t := by
  refine ⟨_, rfl, ?_⟩
  repeat' split
  all_goals simp +contextual [State.Keeps, Sec.SameTack]

theorem execWakeEvent_keeps (src : WakeSrc) (s : State) : ∃ t, execWakeEvent src s = answer s t ∧ s.Keeps t := by
  refine ⟨_, rfl, State.SameStores.keeps ?_⟩
  repeat' split
  all_goals simp [State.SameStores]

theorem execStabledSinScan_keeps (readings : BitVec 16) (s : State) : ∃ t, execStabledSinScan readings s = answer s t ∧ s.Keeps t := by
  refine ⟨_, rfl, State.SameStores.keeps ?_⟩
  dsimp only
  repeat' split
  all_goals simp [State.SameStores]

theorem execWakeRetry_keeps (s : State) : ∃ t, execWakeRetry s = answer s t ∧ s.Keeps t := by
  refine ⟨_, rfl, State.SameStores.keeps ?_⟩
  dsimp only
  repeat' split
  all_goals simp [State.SameStores]

theorem execPmbusAck_keeps (statusWord : BitVec 16) (s : State) : ∃ t, execPmbusAck statusWord s = answer s t ∧ s.Keeps t := by
  refine ⟨_, rfl, ?_⟩
  repeat' split
  all_goals simp +contextual [State.Keeps, Sec.SameTack]

theorem execPmbusAttemptFail_keeps (statusWord : Option (BitVec 16)) (s : State) :
    ∃ t, execPmbusAttemptFail statusWord s = answer s t ∧ s.Keeps t := by
  refine ⟨_, rfl, ?_⟩
  dsimp only
  repeat' split
  all_goals simp +contextual [State.Keeps, Sec.SameTack]

theorem execPgoodLoss_keeps (s : State) : ∃ t, execPgoodLoss s = answer s t ∧ s.Keeps t := by
  refine ⟨_, rfl, State.SameStores.keeps ?_⟩
  split <;> simp [State.SameStores]

theorem execPgoodRecovery_keeps (s : State) : ∃ t, execPgoodRecovery s = answer s t ∧ s.Keeps t := by
  refine ⟨_, rfl, ?_⟩
  split <;> simp +contextual [State.Keeps, Sec.SameTack]

theorem execSetPowerState_keeps (c : Cmd) (s : State) : ∃ t, execSetPowerState c s = answer s t ∧ s.Keeps t := by
  refine ⟨_, rfl, State.run_keeps _ _ _ _ fun t => State.SameStores.keeps ?_⟩
  split <;> simp [State.SameStores]

theorem execSetRunLevel_keeps (c : Cmd) (s : State) : ∃ t, execSetRunLevel c s = answer s t ∧ s.Keeps t := by
  refine ⟨_, rfl, State.run_keeps _ _ _ _ fun t => State.SameStores.keeps ?_⟩
  split <;> simp [State.SameStores]

theorem execSetHostVeto_keeps (c : Cmd) (s : State) : ∃ t, execSetHostVeto c s = answer s t ∧ s.Keeps t := by
  refine ⟨_, rfl, State.run_keeps _ _ _ _ fun t => State.SameStores.keeps ?_⟩
  split <;> simp [State.SameStores]

theorem execPwrReqState_keeps (core : Fin 16) (v : Word) (s : State) : ∃ t, execPwrReqState core v s = answer s t ∧ s.Keeps t := by
  refine ⟨_, rfl, State.SameStores.keeps ?_⟩
  split <;> simp [State.SameStores]

theorem execPwrReqLevel_keeps (core : Fin 16) (v : Word) (s : State) : ∃ t, execPwrReqLevel core v s = answer s t ∧ s.Keeps t := by
  refine ⟨_, rfl, State.SameStores.keeps ?_⟩
  split <;> simp [State.SameStores]

theorem execPowerAccount_keeps (c : Cmd) (s : State) : ∃ t, execPowerAccount c s = answer s t ∧ s.Keeps t := by
  refine ⟨_, rfl, State.run_keeps _ _ _ _ fun t => State.SameStores.keeps ?_⟩
  split <;> simp [State.SameStores]

theorem execSramBlockRestore_keeps (block : Fin 1536) (s : State) : ∃ t, execSramBlockRestore block s = answer s t ∧ s.Keeps t := by
  refine ⟨_, rfl, ?_⟩
  split <;> simp +contextual [State.Keeps, Sec.SameTack]

theorem execIslandWakeOnAccess_keeps (i : Island) (s : State) : ∃ t, execIslandWakeOnAccess i s = answer s t ∧ s.Keeps t := by
  refine ⟨_, rfl, State.SameStores.keeps ?_⟩
  repeat' split
  all_goals simp [State.SameStores]

theorem execRetCreditTick_keeps (s : State) : ∃ t, execRetCreditTick s = answer s t ∧ s.Keeps t := by
  refine ⟨_, rfl, State.SameStores.keeps ?_⟩
  split <;> simp [State.SameStores]

theorem execCheckCycleDecide_keeps (s : State) : ∃ t, execCheckCycleDecide s = answer s t ∧ s.Keeps t := by
  refine ⟨_, rfl, ?_⟩
  dsimp only
  repeat' split
  all_goals simp +contextual [State.Keeps, Sec.SameTack]

theorem execHoursCellWrite_keeps (s : State) : ∃ t, execHoursCellWrite s = answer s t ∧ s.Keeps t := by
  refine ⟨_, rfl, ?_⟩
  split <;> simp +contextual [State.Keeps, Sec.SameTack]

theorem execRtcSet_keeps (c : Cmd) (s : State) : ∃ t, execRtcSet c s = answer s t ∧ s.Keeps t := by
  refine ⟨_, rfl, State.run_keeps _ _ _ _ fun t => ?_⟩
  simp +contextual [State.Keeps, Sec.SameTack]

theorem execRtcAlarm_keeps (s : State) : ∃ t, execRtcAlarm s = answer s t ∧ s.Keeps t := by
  refine ⟨_, rfl, ?_⟩
  simp +contextual [State.Keeps, Sec.SameTack]

theorem execPeriodicCheckAlarm_keeps (s : State) : ∃ t, execPeriodicCheckAlarm s = answer s t ∧ s.Keeps t := by
  refine ⟨_, rfl, ?_⟩
  dsimp only
  split <;> simp +contextual [State.Keeps, Sec.SameTack]

theorem execConfigRead_keeps (c : Cmd) (s : State) : ∃ t, execConfigRead c s = answer s t ∧ s.Keeps t := by
  refine ⟨_, rfl, State.run_keeps _ _ _ _ fun t => State.SameStores.keeps ?_⟩
  split <;> simp [State.SameStores]

theorem execConfigLoad_keeps (c : Cmd) (pkg : List Byte) (s : State) : ∃ t, execConfigLoad c pkg s = answer s t ∧ s.Keeps t := by
  refine ⟨_, rfl, State.run_keeps _ _ _ _ fun t => ?_⟩
  simp +contextual [State.Keeps, Sec.SameTack]

theorem execBoot_keeps (comparatorCode : BitVec 8) (ue0 ue1 : Option (Fin 0x600000)) (s : State) :
    ∃ t, execBoot comparatorCode ue0 ue1 s = answer s t ∧ s.Keeps t := by
  refine ⟨_, rfl, ?_⟩
  dsimp only
  repeat' split
  all_goals simp +contextual [State.Keeps, Sec.SameTack]

theorem execImageWrite_keeps (c : Cmd) (data : List Byte) (s : State) : ∃ t, execImageWrite c data s = answer s t ∧ s.Keeps t := by
  refine ⟨_, rfl, State.run_keeps _ _ _ _ fun t => ?_⟩
  simp +contextual [State.Keeps, Sec.SameTack]

theorem execAttest_keeps (c : Cmd) (s : State) : ∃ t, execAttest c s = answer s t ∧ s.Keeps t := by
  refine ⟨_, rfl, State.run_keeps _ _ _ _ fun t => State.SameStores.keeps ?_⟩
  split <;> simp [State.SameStores]

theorem execCrossingDeliver_keeps (x : XChan) (s : State) : ∃ t, execCrossingDeliver x s = answer s t ∧ s.Keeps t := by
  refine ⟨_, rfl, State.SameStores.keeps ?_⟩
  repeat' split
  all_goals simp [State.SameStores]

theorem execClockCheckWindow_keeps (k : ClkId) (permille : Nat) (s : State) :
    ∃ t, execClockCheckWindow k permille s = answer s t ∧ s.Keeps t := by
  refine ⟨_, rfl, State.SameStores.keeps ?_⟩
  dsimp only
  repeat' split
  all_goals simp [State.SameStores]

theorem execScrubRead_keeps (inMram : Bool) (found : EccRead) (s : State) : ∃ t, execScrubRead inMram found s = answer s t ∧ s.Keeps t := by
  refine ⟨_, rfl, ?_⟩
  split
  · split
    extract_lets
    rename_i s1
    have h1 : s.Keeps s1 := .of_mem (fun h => by cases inMram <;> exact ⟨h.sram, h.mram, h.queue⟩) rfl rfl
    split
    · exact h1
    · exact h1.trans (.of_mem (fun h => ⟨h.sram, h.mram, h.queue⟩) rfl rfl)
    · exact h1.trans (s1.scrubError_keeps _ _)
  · exact .refl s

theorem execEccCntClr_keeps (bank : Fin 32) (s : State) : ∃ t, execEccCntClr bank s = answer s t ∧ s.Keeps t := by
  refine ⟨_, rfl, ?_⟩
  simp +contextual [State.Keeps, Sec.SameTack]

theorem execAccessFault_keeps (core : Fin 16) (addr : BitVec 32) (write : Bool) (s : State) :
    ∃ t, execAccessFault core addr write s = answer s t ∧ s.Keeps t := by
  refine ⟨_, rfl, State.SameStores.keeps ?_⟩
  split <;> simp [State.SameStores]

theorem execCoreNarrowAccess_keeps (core : Fin 16) (_off : BitVec 16) (s : State) :
    ∃ t, execCoreNarrowAccess core _off s = answer s t ∧ s.Keeps t := by
  refine ⟨_, rfl, State.SameStores.keeps ?_⟩
  simp [State.SameStores]

theorem execSelectorWrite_keeps (view : View) (off : BitVec 16) (v : Word) (s : State) :
    ∃ t, execSelectorWrite view off v s = answer s t ∧ s.Keeps t := by
  refine ⟨_, rfl, State.SameStores.keeps ?_⟩
  simp [State.SameStores]

theorem execEvtEnWrite_keeps (v : Word) (s : State) : ∃ t, execEvtEnWrite v s = answer s t ∧ s.Keeps t := by
  refine ⟨_, rfl, State.SameStores.keeps ?_⟩
  simp [State.SameStores]

theorem execHostNarrowAccess_keeps (bar : Bar) (off : BitVec 16) (s : State) : ∃ t, execHostNarrowAccess bar off s = answer s t ∧ s.Keeps t := by
  refine ⟨_, rfl, State.SameStores.keeps ?_⟩
  simp [State.SameStores]

theorem execPollNudge_keeps (_v : Word) (s : State) : ∃ t, execPollNudge _v s = answer s t ∧ s.Keeps t := by
  refine ⟨_, rfl, State.SameStores.keeps ?_⟩
  simp [State.SameStores]

theorem execRegisterWrite_keeps (view : View) (bar : Bar) (off : BitVec 16) (v : Word) (s : State) :
    ∃ t, execRegisterWrite view bar off v s = answer s t ∧ s.Keeps t := by
  refine ⟨_, rfl, ?_⟩
  repeat' split
  all_goals simp +contextual [State.Keeps, Sec.SameTack]

theorem execShadowCaptureRead_keeps (view : View) (bar : Bar) (off : BitVec 16) (s : State) :
    ∃ t, execShadowCaptureRead view bar off s = answer s t ∧ s.Keeps t := by
  refine ⟨_, rfl, State.SameStores.keeps ?_⟩
  dsimp only
  repeat' split
  all_goals simp [State.SameStores]

theorem execIdentify_keeps (c : Cmd) (s : State) : ∃ t, execIdentify c s = answer s t ∧ s.Keeps t := by
  refine ⟨_, rfl, State.run_keeps _ _ _ _ fun t => State.SameStores.keeps ?_⟩
  split <;> simp [State.SameStores]

theorem execCanBusOffRecovery_keeps (ctl : Fin 4) (s : State) : ∃ t, execCanBusOffRecovery ctl s = answer s t ∧ s.Keeps t := by
  refine ⟨_, rfl, State.SameStores.keeps ?_⟩
  split <;> simp [State.SameStores]

theorem execEthLinkChange_keeps (m : Fin 2) (link : Bool) (speed : BitVec 2) (s : State) :
    ∃ t, execEthLinkChange m link speed s = answer s t ∧ s.Keeps t := by
  refine ⟨_, rfl, State.SameStores.keeps ?_⟩
  split <;> simp [State.SameStores]

theorem execDebugWrite_keeps (p : Fin 8) (second : Bool) (w : DbgWrite) (s : State) :
    ∃ t, execDebugWrite p second w s = answer s t ∧ s.Keeps t := by
  refine ⟨_, rfl, ?_⟩
  dsimp only
  repeat' split
  all_goals simp +contextual [State.Keeps, Sec.SameTack]

theorem execSensorReadingCheck_keeps (readings : Bank 12 Int) (s : State) : ∃ t, execSensorReadingCheck readings s = answer s t ∧ s.Keeps t := by
  refine ⟨_, rfl, ?_⟩
  split <;> simp +contextual [State.Keeps, Sec.SameTack]

theorem execSensorFail_keeps (n : Fin 12) (s : State) : ∃ t, execSensorFail n s = answer s t ∧ s.Keeps t := by
  refine ⟨_, rfl, ?_⟩
  dsimp only
  repeat' split
  all_goals simp +contextual [State.Keeps, Sec.SameTack]

theorem execOffsetLearning_keeps (s : State) : ∃ t, execOffsetLearning s = answer s t ∧ s.Keeps t := by
  refine ⟨_, rfl, State.SameStores.keeps ?_⟩
  split <;> simp [State.SameStores]

theorem execThrottleLevelUpdate_keeps (s : State) : ∃ t, execThrottleLevelUpdate s = answer s t ∧ s.Keeps t := by
  refine ⟨_, rfl, State.SameStores.keeps ?_⟩
  split <;> simp [State.SameStores]

theorem execThrottlePauseEnd_keeps (s : State) : ∃ t, execThrottlePauseEnd s = answer s t ∧ s.Keeps t := by
  refine ⟨_, rfl, State.SameStores.keeps ?_⟩
  simp [State.SameStores]

theorem execComparatorVote_keeps (n : Fin 12) (s : State) : ∃ t, execComparatorVote n s = answer s t ∧ s.Keeps t := by
  refine ⟨_, rfl, ?_⟩
  split <;> simp +contextual [State.Keeps, Sec.SameTack]

theorem execThermalRestart_keeps (s : State) : ∃ t, execThermalRestart s = answer s t ∧ s.Keeps t := by
  refine ⟨_, rfl, ?_⟩
  dsimp only
  repeat' split
  all_goals simp +contextual [State.Keeps, Sec.SameTack]

end Sys2Proof.Machine
end

section
/-! SUPPORT. A power-on resumes the hours above every valid copy of their cell (17 R444, R446). -/

namespace Sys2Proof.Machine

/-- What MRAM's configuration region reads as comes from these two: the bytes written, and the lane of the region's waiting codewords. -/
abbrev Mem.SameConfig (m m' : Mem) : Prop := m'.mram = m.mram ∧ m'.queue.cr = m.queue.cr

theorem Mem.mramByte_sameConfig {m m' : Mem} (h : m.SameConfig m') {a : Nat} (hlo : 0x600000 ≤ a) (hhi : a < 0x700000) :
    m'.mramByte a = m.mramByte a := by
  have ha : regionOf a = .config := regionOf_config hlo hhi
  have hword : regionOf (a / 16 * 16) = .config := regionOf_config (by omega) (by omega)
  simp only [Mem.mramByte, MramQueue.newest, ha, hword, laneOf, MramQueue.lane, h.1, h.2]

theorem Mem.mramBytes_sameConfig {m m' : Mem} (h : m.SameConfig m') {a n : Nat} (hlo : 0x600000 ≤ a) (hhi : a + n ≤ 0x700000) :
    m'.mramBytes a n = m.mramBytes a n :=
  List.ext_getElem (by simp) fun i hi _ => by
    rw [Mem.mramBytes_getElem, Mem.mramBytes_getElem, Mem.mramByte_sameConfig h (by omega)]
    have : i < n := by simpa using hi
    omega

theorem MramQueue.cr_setLane (q : MramQueue) {l : Lane} (ws : List Codeword) (h : l ≠ .cr) : (q.setLane l ws).cr = q.cr := by
  cases l
  case cr => contradiction
  all_goals rfl

/-- A store outside the lane of the configuration region leaves what that region reads as. -/
theorem Mem.sameConfig_store (m : Mem) (now off : Nat) {addr : Nat} (bytes : List Byte) (h : laneOf (regionOf addr) ≠ .cr) :
    m.SameConfig (m.store now addr off bytes) := by
  unfold Mem.store
  dsimp only
  split
  · exact ⟨rfl, rfl⟩
  · exact ⟨rfl, MramQueue.cr_setLane _ _ h⟩

theorem Mem.sameConfig_storeAll (fuel : Nat) : ∀ (m : Mem) (now addr : Nat) (bytes : List Byte),
    (∀ a, addr / 16 * 16 ≤ a → a < addr + bytes.length → laneOf (regionOf a) ≠ .cr) →
    m.SameConfig (Mem.storeAll fuel m now addr bytes) := by
  induction fuel with
  | zero => exact fun _ _ _ _ _ => ⟨rfl, rfl⟩
  | succ fuel ih =>
    intro m now addr bytes h
    unfold Mem.storeAll
    split
    · exact ⟨rfl, rfl⟩
    · next hne =>
      have hlen : 0 < bytes.length := List.length_pos_iff.mpr (by simpa using hne)
      have h1 := m.sameConfig_store now (addr % 16) (bytes.take (16 - addr % 16)) (h (addr - addr % 16) (by omega) (by omega))
      have h2 := ih (m.store now (addr - addr % 16) (addr % 16) (bytes.take (16 - addr % 16))) now (addr - addr % 16 + 16)
        (bytes.drop (16 - addr % 16)) fun a ha hlt => h a (by omega) (by simp only [List.length_drop] at hlt; omega)
      exact ⟨h2.1.trans h1.1, h2.2.trans h1.2⟩

theorem faultWord_bytes_length (f : FaultWord) : f.bytes.length = 32 := by
  simp [FaultWord.bytes, withCrc32c, bvBytes, Laws.leBytes_length]

theorem fin_three_cases : ∀ n : Fin 3, n = 0 ∨ n = 1 ∨ n = 2 := by decide

theorem laneOf_faultCell (n : Fin 3) {a : Nat} (hlo : faultCell n ≤ a) (hhi : a < faultCell n + 0x1000) : laneOf (regionOf a) ≠ .cr := by
  rcases fin_three_cases n with rfl | rfl | rfl
  · have hlo : 0x700000 ≤ a := hlo
    have hhi : a < 0x701000 := hhi
    rw [regionOf, if_neg (by omega), if_neg (by omega), if_pos hhi]
    simp [laneOf]
  · have hlo : 0xF00000 ≤ a := hlo
    have hhi : a < 0xF01000 := hhi
    rw [regionOf, if_neg (by omega), if_neg (by omega), if_neg (by omega), if_neg (by omega), if_neg (by omega), if_neg (by omega), if_pos hhi]
    simp [laneOf]
  · have hlo : 0x1700000 ≤ a := hlo
    have hhi : a < 0x1701000 := hhi
    rw [regionOf, if_neg (by omega), if_neg (by omega), if_neg (by omega), if_neg (by omega), if_neg (by omega), if_neg (by omega),
      if_neg (by omega), if_neg (by omega), if_neg (by omega), if_neg (by omega), if_neg (by omega), if_pos hhi]
    simp [laneOf]

theorem faultCell_mod (n : Fin 3) : faultCell n % 16 = 0 := by decide +revert

theorem State.sameConfig_storeFault (s : State) (n : Fin 3) {k : Nat} (hk : k < 16) (f : FaultWord) :
    s.mem.SameConfig (s.mramStore (faultCell n + 32 * k) f.bytes).mem := by
  refine Mem.sameConfig_storeAll _ _ _ _ _ fun a ha hlt => laneOf_faultCell n ?_ ?_
  · have := faultCell_mod n
    omega
  · rw [faultWord_bytes_length] at hlt
    omega

/-- The fault words that the recorder writes lie outside the configuration region (13 R376). -/
theorem State.sameConfig_recorderFault (s : State) (kind : BitVec 8) (slot : Nat) : s.mem.SameConfig (s.recorderFault kind slot).mem := by
  unfold State.recorderFault
  extract_lets hit f k s1 _ s2
  have h1 : s.mem.SameConfig s2.mem := by
    unfold s2
    split
    · next hk =>
      exact List.foldlRecOn (places 3) _ (motive := fun t : State => s.mem.SameConfig t.mem) ⟨rfl, rfl⟩ fun t ht n _ => by
        have := t.sameConfig_storeFault n hk f
        exact ⟨this.1.trans ht.1, this.2.trans ht.2⟩
    · exact ⟨rfl, rfl⟩
  clear_value s2
  simpa using h1

theorem State.sameConfig_loadStudbook (s : State) : s.mem.SameConfig s.loadStudbook.mem := by
  have h : s.mem.SameConfig s.scanStudbook.1.mem := by
    unfold State.scanStudbook
    extract_lets faults _ s1 b0 gen valid n last next torn refused _
    split
    · dsimp only
      exact s1.sameConfig_recorderFault 4 0
    · exact ⟨rfl, rfl⟩
  unfold State.loadStudbook
  split
  next hs => simpa only [hs] using h
  next t torn n hs =>
    have ht : s.mem.SameConfig t.mem := by simpa only [hs] using h
    simpa using ht

theorem State.hoursCopy_sameConfig {s t : State} (h : s.mem.SameConfig t.mem) (copy : Bool) : t.hoursCopy copy = s.hoursCopy copy := by
  have hread : t.mramRead (hoursCopyAt copy) 16 = s.mramRead (hoursCopyAt copy) 16 :=
    Mem.mramBytes_sameConfig h (by cases copy <;> simp [hoursCopyAt]) (by cases copy <;> simp [hoursCopyAt])
  simp only [State.hoursCopy, hread]

theorem State.hoursCopy_loadBeforeHours (s : State) (copy : Bool) : s.loadBeforeHours.hoursCopy copy = s.hoursCopy copy := by
  have h0 : s.SameStores s.loadWeighbridge.loadCalibration.loadCheckpoint := by simp [State.SameStores]
  have h := s.loadWeighbridge.loadCalibration.loadCheckpoint.sameConfig_loadStudbook
  rw [h0.1] at h
  unfold State.loadBeforeHours
  exact State.hoursCopy_sameConfig h copy

/-- What the hours resume above: every copy that reads as valid, and the base they start from (17 R446). -/
theorem le_foldl_max {α : Type} (f : α → Nat) (l : List α) (b : Nat) : b ≤ l.foldl (fun m c => max m (f c)) b ∧
    ∀ x ∈ l, f x ≤ l.foldl (fun m c => max m (f c)) b := by
  induction l generalizing b with
  | nil => simp
  | cons y l ih =>
    have := (ih (max b (f y))).1
    refine ⟨Nat.le_trans (Nat.le_max_left _ _) this, List.forall_mem_cons.mpr ⟨Nat.le_trans (Nat.le_max_right _ _) this, (ih _).2⟩⟩

theorem State.restoreHours_above {s : State} {copy : Bool} {p : Nat × Nat} (h : s.hoursCopy copy = some p) :
    p.1 < s.restoreHours.clk.ophMs ∧ p.2 < s.restoreHours.clk.pcc := by
  have hm : p ∈ [s.hoursCopy false, s.hoursCopy true].filterMap id := by
    cases copy <;> simp [h]
  have hclk : s.restoreHours.clk = _ := s.restoreHours_clk
  rw [hclk]
  exact ⟨Nat.lt_succ_of_le ((le_foldl_max Prod.fst _ _).2 p hm), Nat.lt_succ_of_le ((le_foldl_max Prod.snd _ _).2 p hm)⟩

/-- A power-on resumes both hours and the power-cycle count above every valid copy of their cell (17 R444, R446). -/
theorem answers_aonPowerOn_above (snsExternal rstkA rstkB : Bool) (s : State) :
    Answers (.aonPowerOn snsExternal rstkA rstkB) s fun t =>
      ∀ copy p, s.powerOff.hoursCopy copy = some p → p.1 < t.clk.ophMs ∧ p.2 < t.clk.pcc := by
  refine (answers_aonPowerOn_clk snsExternal rstkA rstkB s).imp fun t ht copy p hp => ?_
  rw [ht, State.loadPersistent_eq]
  refine State.restoreHours_above (copy := copy) ?_
  rw [State.hoursCopy_loadBeforeHours]
  exact hp

end Sys2Proof.Machine
end

section
/-! SUPPORT. The invariants of every step: the form of the memories, the tack store, the power-cycle count. -/

namespace Sys2Proof.Machine

/-- The commands that neither load what the AON supply lost nor write the tack store. -/
def Instr.ordinary : Instr → Bool
  | .aonPowerOn .. | .aonPowerLoss | .ownerKey .. | .imageActivate .. => false
  | _ => true

/-- Every ordinary command keeps the form of the memories, the tack store and the power-cycle count. -/
theorem exec_keeps (c : Instr) (s : State) (h : Instr.ordinary c = true) : ∃ t, exec c s = answer s t ∧ s.Keeps t := by
  cases c with
  | aonPowerOn _ _ _ => exact Bool.noConfusion h
  | hostNarrowAccess bar off => exact execHostNarrowAccess_keeps bar off s
  | coreNarrowAccess core off => exact execCoreNarrowAccess_keeps core off s
  | accessFault core addr write => exact execAccessFault_keeps core addr write s
  | selectorWrite view off v => exact execSelectorWrite_keeps view off v s
  | registerWrite view bar off v => exact execRegisterWrite_keeps view bar off v s
  | shadowCaptureRead view bar off => exact execShadowCaptureRead_keeps view bar off s
  | crossingDeliver x => exact execCrossingDeliver_keeps x s
  | clockCheckWindow k permille => exact execClockCheckWindow_keeps k permille s
  | scrubRead inMram found => exact execScrubRead_keeps inMram found s
  | eccCntClr bank => exact execEccCntClr_keeps bank s
  | hostInterfaceReset kind => exact execHostInterfaceReset_keeps kind s
  | busMasterEnableChange en => exact execBusMasterEnableChange_keeps en s
  | pollNudge v => exact execPollNudge_keeps v s
  | dbBaseWrite hi v => exact execDbBaseWrite_keeps hi v s
  | dbErrClear => exact execDbErrClear_keeps s
  | ringEnable r cfg => exact execRingEnable_keeps r cfg s
  | ringDisable r cfg => exact execRingDisable_keeps r cfg s
  | doorbellPoll => exact execDoorbellPoll_keeps s
  | doorbellReadComplete read => exact execDoorbellReadComplete_keeps read s
  | dmaErrorCompletion r kind => exact execDmaErrorCompletion_keeps r kind s
  | submissionFetch => exact execSubmissionFetch_keeps s
  | submissionArrival r entry => exact execSubmissionArrival_keeps r entry s
  | commandDependencyResolved stamp => exact execCommandDependencyResolved_keeps stamp s
  | completionToHost r => exact execCompletionToHost_keeps r s
  | coalesceTimer r => exact execCoalesceTimer_keeps r s
  | msixUnmask vec => exact execMsixUnmask_keeps vec s
  | drainComplete r => exact execDrainComplete_keeps r s
  | troughRecord src rec_ => exact execTroughRecord_keeps src rec_ s
  | streamRecordTransfer src listEntry => exact execStreamRecordTransfer_keeps src listEntry s
  | streamFlushTimer stamp => exact execStreamFlushTimer_keeps stamp s
  | streamSamples c => exact execStreamSamples_keeps c s
  | streamImpedance c => exact execStreamImpedance_keeps c s
  | streamEstimates c => exact execStreamEstimates_keeps c s
  | streamStop c => exact execStreamStop_keeps c s
  | nopAdmin c => exact execNopAdmin_keeps c s
  | nopControl c => exact execNopControl_keeps c s
  | nopQuery c => exact execNopQuery_keeps c s
  | nopStream c => exact execNopStream_keeps c s
  | frameEdge senseMv => exact execFrameEdge_keeps senseMv s
  | upstreamRecord stall rec_ => exact execUpstreamRecord_keeps stall rec_ s
  | upstreamWindowEnd stall => exact execUpstreamWindowEnd_keeps stall s
  | breakDeclared stall pos => exact execBreakDeclared_keeps stall pos s
  | eightFrameBoundary => exact execEightFrameBoundary_keeps s
  | enumReplyTimeout stall => exact execEnumReplyTimeout_keeps stall s
  | loopbackTest stall readBack => exact execLoopbackTest_keeps stall readBack s
  | phyFault stall => exact execPhyFault_keeps stall s
  | phyFaultRecovery stall => exact execPhyFaultRecovery_keeps stall s
  | balanceLeaseRefresh u => exact execBalanceLeaseRefresh_keeps u s
  | balanceDurationExpiry u => exact execBalanceDurationExpiry_keeps u s
  | rosterAdopt c pkg => exact execRosterAdopt_keeps c pkg s
  | stallService c pkg => exact execStallService_keeps c pkg s
  | enumerate c => exact execEnumerate_keeps c s
  | balanceSet c => exact execBalanceSet_keeps c s
  | rosterRead c => exact execRosterRead_keeps c s
  | stallErrCntClr stall => exact execStallErrCntClr_keeps stall s
  | rateChangeApply str => exact execRateChangeApply_keeps str s
  | slotListApply u => exact execSlotListApply_keeps u s
  | tripRequest str k => exact execTripRequest_keeps str k s
  | tripKindClear str k => exact execTripKindClear_keeps str k s
  | tripLimits c => exact execTripLimits_keeps c s
  | sweepConfig c => exact execSweepConfig_keeps c s
  | sampleRead c => exact execSampleRead_keeps c s
  | alignCntClr u => exact execAlignCntClr_keeps u s
  | checkCycleDecide => exact execCheckCycleDecide_keeps s
  | plausibilityEvaluation u => exact execPlausibilityEvaluation_keeps u s
  | plausibilitySet p => exact execPlausibilitySet_keeps p s
  | plausibilityClear p => exact execPlausibilityClear_keeps p s
  | openWireProbeStart => exact execOpenWireProbeStart_keeps s
  | probePulseEnd u => exact execProbePulseEnd_keeps u s
  | probeDecision u => exact execProbeDecision_keeps u s
  | probeRetry u wire => exact execProbeRetry_keeps u wire s
  | invalidAgeExpiry u cell => exact execInvalidAgeExpiry_keeps u cell s
  | dataAgeDerate str dir => exact execDataAgeDerate_keeps str dir s
  | dataAgeDisconnect str dir => exact execDataAgeDisconnect_keeps str dir s
  | currentAgeDerate str dir => exact execCurrentAgeDerate_keeps str dir s
  | currentAgeDisconnect str dir => exact execCurrentAgeDisconnect_keeps str dir s
  | balTestSchedule => exact execBalTestSchedule_keeps s
  | balTestPhaseEnd u vbr => exact execBalTestPhaseEnd_keeps u vbr s
  | openWireProbe c => exact execOpenWireProbe_keeps c s
  | balTest c => exact execBalTest_keeps c s
  | estimatorStep => exact execEstimatorStep_keeps s
  | limitStaleTimeout str => exact execLimitStaleTimeout_keeps str s
  | estimatorCheckpoint ok => exact execEstimatorCheckpoint_keeps ok s
  | lockinBlockEnd str bin => exact execLockinBlockEnd_keeps str bin s
  | excitationStart str => exact execExcitationStart_keeps str s
  | excitationToggle str => exact execExcitationToggle_keeps str s
  | healthUpdate str => exact execHealthUpdate_keeps str s
  | estimateStreamTick => exact execEstimateStreamTick_keeps s
  | estConfig c pkg => exact execEstConfig_keeps c pkg s
  | estQuery c => exact execEstQuery_keeps c s
  | stringClose c => exact execStringClose_keeps c s
  | stringOpen c => exact execStringOpen_keeps c s
  | serviceMode c => exact execServiceMode_keeps c s
  | limitsRead c => exact execLimitsRead_keeps c s
  | preCnTimeout str => exact execPreCnTimeout_keeps str s
  | prechargeCheckpoint str => exact execPrechargeCheckpoint_keeps str s
  | prechargeTimeout str => exact execPrechargeTimeout_keeps str s
  | overlapTimeout str => exact execOverlapTimeout_keeps str s
  | openingRelease str => exact execOpeningRelease_keeps str s
  | openingForcedRelease str => exact execOpeningForcedRelease_keeps str s
  | openingCnOff str => exact execOpeningCnOff_keeps str s
  | weldCheckTimeout str => exact execWeldCheckTimeout_keeps str s
  | weldedRelease str => exact execWeldedRelease_keeps str s
  | auxInputChange k closed => exact execAuxInputChange_keeps k closed s
  | auxMismatch k => exact execAuxMismatch_keeps k s
  | auxClosedWhileOpen k => exact execAuxClosedWhileOpen_keeps k s
  | contactorDipTimeout => exact execContactorDipTimeout_keeps s
  | prechargeCauseExpiry str => exact execPrechargeCauseExpiry_keeps str s
  | isoPersistenceElapsed str cond => exact execIsoPersistenceElapsed_keeps str cond s
  | isoClear str cond => exact execIsoClear_keeps str cond s
  | overTempSet str => exact execOverTempSet_keeps str s
  | overTempClear str => exact execOverTempClear_keeps str s
  | serviceModeExpiry str => exact execServiceModeExpiry_keeps str s
  | halterCauseEntry d w => exact execHalterCauseEntry_keeps d w s
  | lockoutWordCopy => exact execLockoutWordCopy_keeps s
  | safetyInputChange n chB closed => exact execSafetyInputChange_keeps n chB closed s
  | sinTestPulse k => exact execSinTestPulse_keeps k s
  | sinTestPulseJudge k read => exact execSinTestPulseJudge_keeps k read s
  | sinDiscrepancy n => exact execSinDiscrepancy_keeps n s
  | guardProofExpiry n => exact execGuardProofExpiry_keeps n s
  | heartbeatWrite view v => exact execHeartbeatWrite_keeps view v s
  | heartbeatLate => exact execHeartbeatLate_keeps s
  | heartbeatLoss => exact execHeartbeatLoss_keeps s
  | telegramReceived net bytes => exact execTelegramReceived_keeps net bytes s
  | telegramPairTimeout net => exact execTelegramPairTimeout_keeps net s
  | netLoss => exact execNetLoss_keeps s
  | statusTelegram sent0 sent1 => exact execStatusTelegram_keeps sent0 sent1 s
  | closePermitExpiry str => exact execClosePermitExpiry_keeps str s
  | contactorTestPulse j => exact execContactorTestPulse_keeps j s
  | contactorTestPulseEnd j echoFell outFell outRecovered => exact execContactorTestPulseEnd_keeps j echoFell outFell outRecovered s
  | enableRefresh => exact execEnableRefresh_keeps s
  | enableRefreshTimeout => exact execEnableRefreshTimeout_keeps s
  | resetKeyPressStart => exact execResetKeyPressStart_keeps s
  | resetKeyPressEnd otherWithin50ms => exact execResetKeyPressEnd_keeps otherWithin50ms s
  | rstkHeld => exact execRstkHeld_keeps s
  | rstkDisc => exact execRstkDisc_keeps s
  | resetEnable => exact execResetEnable_keeps s
  | halterResetReq c => exact execHalterResetReq_keeps c s
  | hostSafeRequest v => exact execHostSafeRequest_keeps v s
  | halterStartupTestsDone stageOk eccOk comparatorsOk => exact execHalterStartupTestsDone_keeps stageOk eccOk comparatorsOk s
  | swcSet c => exact execSwcSet_keeps c s
  | swcConfig c pkg => exact execSwcConfig_keeps c pkg s
  | limitTimeout ch => exact execLimitTimeout_keeps ch s
  | contactorOvercurrent j => exact execContactorOvercurrent_keeps j s
  | thermalTrip ch => exact execThermalTrip_keeps ch s
  | channelRestart ch => exact execChannelRestart_keeps ch s
  | pullInEnd j dutyPermille iEndMa => exact execPullInEnd_keeps j dutyPermille iEndMa s
  | economiserUpdate vbat10mV => exact execEconomiserUpdate_keeps vbat10mV s
  | dutyCompensationUpdate vbat10mV => exact execDutyCompensationUpdate_keeps vbat10mV s
  | generalTestPulse ch => exact execGeneralTestPulse_keeps ch s
  | generalTestPulseEnd ch fell => exact execGeneralTestPulseEnd_keeps ch fell s
  | supplyDip die vbat10mV => exact execSupplyDip_keeps die vbat10mV s
  | supplyRestore die vbat10mV => exact execSupplyRestore_keeps die vbat10mV s
  | supplyLoss die vbat10mV => exact execSupplyLoss_keeps die vbat10mV s
  | senseGSample senseMv => exact execSenseGSample_keeps senseMv s
  | snsSelRead pins => exact execSnsSelRead_keeps pins s
  | tariffTag c => exact execTariffTag_keeps c s
  | counterSlotWrite str => exact execCounterSlotWrite_keeps str s
  | exposureTick str => exact execExposureTick_keeps str s
  | exposureSlotWrite => exact execExposureSlotWrite_keeps s
  | meterStatement c => exact execMeterStatement_keeps c s
  | healthStatement c => exact execHealthStatement_keeps c s
  | statementRelease => exact execStatementRelease_keeps s
  | yardArbitrationRound target arriving => exact execYardArbitrationRound_keeps target arriving s
  | halterMirrorRead => exact execHalterMirrorRead_keeps s
  | mramWriteSlot verified => exact execMramWriteSlot_keeps verified s
  | yardMaxwaitClr => exact execYardMaxwaitClr_keeps s
  | mqMaxlatClr => exact execMqMaxlatClr_keeps s
  | calRoutingRenew u => exact execCalRoutingRenew_keeps u s
  | liveRunChannelDone u => exact execLiveRunChannelDone_keeps u s
  | calGenerationSwitch u => exact execCalGenerationSwitch_keeps u s
  | driftEvaluation u => exact execDriftEvaluation_keeps u s
  | shuntAutoStart str => exact execShuntAutoStart_keeps str s
  | shuntOffsetRunEnd str => exact execShuntOffsetRunEnd_keeps str s
  | shuntGainRunEnd str => exact execShuntGainRunEnd_keeps str s
  | calDeferredWrite u => exact execCalDeferredWrite_keeps u s
  | calRun c => exact execCalRun_keeps c s
  | calWrite c data => exact execCalWrite_keeps c data s
  | calRead c => exact execCalRead_keeps c s
  | studbookRequest trigger subject detail => exact execStudbookRequest_keeps trigger subject detail s
  | recordCapture captureUs => exact execRecordCapture_keeps captureUs s
  | recorderFault kind bank7 slot => exact execRecorderFault_keeps kind bank7 slot s
  | refusedCountWrite => exact execRefusedCountWrite_keeps s
  | studbookClear c pkg => exact execStudbookClear_keeps c pkg s
  | studbookRead c badRecord => exact execStudbookRead_keeps c badRecord s
  | lockstepMismatch p lane group pc => exact execLockstepMismatch_keeps p lane group pc s
  | pairSelftestStart p => exact execPairSelftestStart_keeps p s
  | pairSelftestEnd p result core => exact execPairSelftestEnd_keeps p result core s
  | pairStart writer p => exact execPairStart_keeps writer p s
  | pairStop writer p => exact execPairStop_keeps writer p s
  | pairDone writer => exact execPairDone_keeps writer s
  | debugHalt p => exact execDebugHalt_keeps p s
  | debugResume p => exact execDebugResume_keeps p s
  | debugWrite p second w => exact execDebugWrite_keeps p second w s
  | jtagExtest => exact execJtagExtest_keeps s
  | debugUnlock c pkg => exact execDebugUnlock_keeps c pkg s
  | debugUnlockExpiry => exact execDebugUnlockExpiry_keeps s
  | pairSelftest c => exact execPairSelftest_keeps c s
  | setPowerState c => exact execSetPowerState_keeps c s
  | setRunLevel c => exact execSetRunLevel_keeps c s
  | setHostVeto c => exact execSetHostVeto_keeps c s
  | powerAccount c => exact execPowerAccount_keeps c s
  | pwrReqState core v => exact execPwrReqState_keeps core v s
  | pwrReqLevel core v => exact execPwrReqLevel_keeps core v s
  | pmbusAck statusWord => exact execPmbusAck_keeps statusWord s
  | pmbusAttemptFail statusWord => exact execPmbusAttemptFail_keeps statusWord s
  | pgoodLoss => exact execPgoodLoss_keeps s
  | pgoodRecovery => exact execPgoodRecovery_keeps s
  | entryPhaseComplete => exact execEntryPhaseComplete_keeps s
  | wakeEvent src => exact execWakeEvent_keeps src s
  | wakeStepReady imageOk comparatorCode => exact execWakeStepReady_keeps imageOk comparatorCode s
  | sramBlockRestore block => exact execSramBlockRestore_keeps block s
  | islandWakeOnAccess isl => exact execIslandWakeOnAccess_keeps isl s
  | wakeRetry => exact execWakeRetry_keeps s
  | retCreditTick => exact execRetCreditTick_keeps s
  | stabledSinScan readings => exact execStabledSinScan_keeps readings s
  | sensorReadingCheck readings => exact execSensorReadingCheck_keeps readings s
  | sensorFail n => exact execSensorFail_keeps n s
  | offsetLearning => exact execOffsetLearning_keeps s
  | throttleLevelUpdate => exact execThrottleLevelUpdate_keeps s
  | throttlePauseEnd => exact execThrottlePauseEnd_keeps s
  | comparatorVote n => exact execComparatorVote_keeps n s
  | thermalRestart => exact execThermalRestart_keeps s
  | hoursCellWrite => exact execHoursCellWrite_keeps s
  | rtcSet c => exact execRtcSet_keeps c s
  | rtcAlarm => exact execRtcAlarm_keeps s
  | periodicCheckAlarm => exact execPeriodicCheckAlarm_keeps s
  | boot comparatorCode ue0 ue1 => exact execBoot_keeps comparatorCode ue0 ue1 s
  | configLoad c pkg => exact execConfigLoad_keeps c pkg s
  | configRead c => exact execConfigRead_keeps c s
  | imageWrite c data => exact execImageWrite_keeps c data s
  | imageActivate _ _ _ => exact Bool.noConfusion h
  | attest c => exact execAttest_keeps c s
  | ownerKey _ _ => exact Bool.noConfusion h
  | identify c => exact execIdentify_keeps c s
  | evtEnWrite v => exact execEvtEnWrite_keeps v s
  | canBusOffRecovery ctl => exact execCanBusOffRecovery_keeps ctl s
  | aonPowerLoss => exact Bool.noConfusion h
  | entryPhaseTimeout why => exact execEntryPhaseTimeout_keeps why s
  | pairSelftestIdleTimeout => exact execPairSelftestIdleTimeout_keeps s
  | driftRunDeferredStart u => exact execDriftRunDeferredStart_keeps u s
  | currentLimitChange ch inLimit => exact execCurrentLimitChange_keeps ch inLimit s
  | debuggerAttach on => exact execDebuggerAttach_keeps on s
  | faultPinMismatch pinA => exact execFaultPinMismatch_keeps pinA s
  | ethLinkChange m link speed => exact execEthLinkChange_keeps m link speed s
  | commandDataDmaComplete stamp ok => exact execCommandDataDmaComplete_keeps stamp ok s

/-- A command runs its body on a state with the same stores, or leaves the stores. -/
theorem State.run_cases (s : State) (c : Cmd) (inRecovery : Bool) (body : State → State) :
    s.SameStores (s.run c inRecovery body) ∨ ∃ t, s.SameStores t ∧ s.run c inRecovery body = body t := by
  unfold State.run
  split
  · exact .inl ⟨rfl, rfl, rfl⟩
  · split
    · exact .inl (by simp [State.SameStores])
    · exact .inr ⟨_, by simp [State.SameStores], rfl⟩

theorem answer_eq_next {s t u : State} (h : answer s t = .next u) : u.mem = t.mem ∧ u.sec = t.sec ∧ u.clk = t.clk := by
  cases h
  simp

/-- What OWNER_KEY leaves of the stores (18 R463). -/
structure State.TakesKey (s t : State) : Prop where
  mem     : t.mem = s.mem
  clk     : t.clk = s.clk
  rbCount : t.sec.rbCount = s.sec.rbCount
  bootSel : t.sec.bootSel = s.sec.bootSel
  owner   : s.sec.owner.isSome = true → t.sec.owner.isSome = true

theorem exec_ownerKey_takesKey (c : Cmd) (pkg : List Byte) (s : State) : ∃ t, exec (.ownerKey c pkg) s = answer s t ∧ s.TakesKey t := by
  refine ⟨_, rfl, ?_⟩
  rcases s.run_cases c false (ownerKey c pkg) with ⟨hmem, hsec, hclk⟩ | ⟨t, ⟨hmem, hsec, hclk⟩, ht⟩
  · constructor <;> simp_all
  · obtain ⟨h1, h2, h3, h4, h5⟩ := ownerKey_effect c pkg t
    rw [ht]
    constructor <;> simp_all

theorem exec_imageActivate_activates (c : Cmd) (ue0 ue1 : Option (Fin 0x600000)) (s : State) :
    ∃ t, exec (.imageActivate c ue0 ue1) s = answer s t ∧ s.Activates t := by
  refine ⟨_, rfl, ?_⟩
  rcases s.run_cases c true (imageActivate c ue0 ue1) with h | ⟨t, h, ht⟩
  · exact h.keeps.activates
  · rw [ht]
    exact h.keeps.activates.trans (imageActivate_activates c ue0 ue1 t)

/-- Every command keeps the form of the memories (log entry 3). -/
theorem exec_form (c : Instr) (s : State) : ∃ t, exec c s = answer s t ∧ (s.mem.InForm → t.mem.InForm) := by
  by_cases h : Instr.ordinary c = true
  · obtain ⟨t, ht, hk, -⟩ := exec_keeps c s h
    exact ⟨t, ht, hk⟩
  · cases c
    case aonPowerOn a b d =>
      obtain ⟨t, ht, hmem, -⟩ := execAonPowerOn_effect a b d s
      refine ⟨t, ht, fun hf => ?_⟩
      rw [hmem]
      exact State.atPowerOn_form hf
    case aonPowerLoss => exact ⟨s.powerOff, rfl, State.powerOff_form⟩
    case ownerKey c pkg =>
      obtain ⟨t, ht, hk⟩ := exec_ownerKey_takesKey c pkg s
      exact ⟨t, ht, fun hf => hk.mem ▸ hf⟩
    case imageActivate c ue0 ue1 =>
      obtain ⟨t, ht, hk⟩ := exec_imageActivate_activates c ue0 ue1 s
      exact ⟨t, ht, hk.form⟩
    all_goals exact absurd rfl h

/-- Every command but OWNER_KEY and IMAGE_ACTIVATE leaves the tack store (18 R452). -/
theorem exec_sameTack (c : Instr) (s : State) (hkey : ∀ d pkg, c ≠ .ownerKey d pkg) (hact : ∀ d v w, c ≠ .imageActivate d v w) :
    ∃ t, exec c s = answer s t ∧ s.sec.SameTack t.sec := by
  by_cases h : Instr.ordinary c = true
  · obtain ⟨t, ht, -, hk, -⟩ := exec_keeps c s h
    exact ⟨t, ht, hk⟩
  · cases c
    case aonPowerOn a b d =>
      obtain ⟨t, ht, -, hsec⟩ := execAonPowerOn_effect a b d s
      refine ⟨t, ht, ?_⟩
      rw [hsec]
      exact s.atPowerOn_tack
    case aonPowerLoss => exact ⟨_, rfl, s.powerOff_tack⟩
    case ownerKey c pkg => exact absurd rfl (hkey c pkg)
    case imageActivate c ue0 ue1 => exact absurd rfl (hact c ue0 ue1)
    all_goals exact absurd rfl h

theorem exec_pcc (c : Instr) (s : State) (hon : ∀ a b d, c ≠ .aonPowerOn a b d) (hloss : c ≠ .aonPowerLoss) :
    ∃ t, exec c s = answer s t ∧ t.clk.pcc = s.clk.pcc := by
  by_cases h : Instr.ordinary c = true
  · obtain ⟨t, ht, -, -, hk⟩ := exec_keeps c s h
    exact ⟨t, ht, hk⟩
  · cases c
    case aonPowerOn a b d => exact absurd rfl (hon a b d)
    case aonPowerLoss => exact absurd rfl hloss
    case ownerKey c pkg =>
      obtain ⟨t, ht, hk⟩ := exec_ownerKey_takesKey c pkg s
      exact ⟨t, ht, congrArg Clk.pcc hk.clk⟩
    case imageActivate c ue0 ue1 =>
      obtain ⟨t, ht, hk⟩ := exec_imageActivate_activates c ue0 ue1 s
      exact ⟨t, ht, hk.pcc⟩
    all_goals exact absurd rfl h

theorem step_of_pending_nil {s : State} (h : s.pending = []) : step s = .next s.idleTick := by
  simp only [step, h]

theorem step_of_pending_cons {s : State} {c : Instr} {rest : List Instr} (h : s.pending = c :: rest) :
    step s = exec c { s with pending := rest } := by
  simp only [step, h]

theorem next_inj {t u : State} (h : (Host.Outcome.next t : Host.Outcome State Fault Refusal) = .next u) : t = u := by
  cases h
  rfl

theorem step_form {s t : State} (h : step s = .next t) (hs : s.mem.InForm) : t.mem.InForm := by
  cases hp : s.pending with
  | nil =>
    rw [step_of_pending_nil hp] at h
    exact next_inj h ▸ s.idleTick_keeps.1 hs
  | cons c rest =>
    rw [step_of_pending_cons hp] at h
    obtain ⟨v, hv, hform⟩ := exec_form c { s with pending := rest }
    rw [hv] at h
    exact (answer_eq_next h).1 ▸ hform hs

/-- Settles O56: the form is kept by every command and by the idle tick. -/
theorem everyStepKeepsMemoryForm : Obligations.EveryStepKeepsMemoryForm := by
  intro s t h hsram hmram hqueue
  exact (Mem.inForm_iff _).mp (step_form h ⟨hsram, hmram, hqueue⟩)

/-- What R452 asks of a step from `s` to `t` whose front command is `front`. -/
structure TackChange (front : Option Instr) (x y : Sec) : Prop where
  count : x.rbCount ≤ y.rbCount
  owner : x.owner.isSome = true → y.owner.isSome = true
  key   : (y.owner ≠ x.owner ∨ y.service ≠ x.service ∨ y.ownerSeq ≠ x.ownerSeq) → ∃ c pkg, front = some (.ownerKey c pkg)
  boot  : (y.rbCount ≠ x.rbCount ∨ y.bootSel ≠ x.bootSel) → ∃ c v w, front = some (.imageActivate c v w)

theorem Sec.SameTack.tackChange {x y : Sec} (front : Option Instr) (h : x.SameTack y) : TackChange front x y := by
  obtain ⟨howner, hservice, hseq, hcount, hsel⟩ := h
  constructor <;> simp [howner, hservice, hseq, hcount, hsel]

theorem exec_tackChange (c : Instr) (s : State) : ∃ t, exec c s = answer s t ∧ TackChange (some c) s.sec t.sec := by
  by_cases hkey : ∃ d pkg, c = .ownerKey d pkg
  · obtain ⟨d, pkg, rfl⟩ := hkey
    obtain ⟨t, ht, hk⟩ := exec_ownerKey_takesKey d pkg s
    refine ⟨t, ht, ?_, hk.owner, fun _ => ⟨d, pkg, rfl⟩, ?_⟩
    · exact hk.rbCount ▸ BitVec.le_refl _
    · simp [hk.rbCount, hk.bootSel]
  by_cases hact : ∃ d v w, c = .imageActivate d v w
  · obtain ⟨d, v, w, rfl⟩ := hact
    obtain ⟨t, ht, hk⟩ := exec_imageActivate_activates d v w s
    refine ⟨t, ht, hk.count, fun h => hk.owner ▸ h, ?_, fun _ => ⟨d, v, w, rfl⟩⟩
    simp [hk.owner, hk.service, hk.seq]
  obtain ⟨t, ht, hk⟩ := exec_sameTack c s (fun d pkg h => hkey ⟨d, pkg, h⟩) (fun d v w h => hact ⟨d, v, w, h⟩)
  exact ⟨t, ht, hk.tackChange _⟩

theorem step_tackChange {s t : State} (h : step s = .next t) : TackChange s.pending.head? s.sec t.sec := by
  cases hp : s.pending with
  | nil =>
    rw [step_of_pending_nil hp] at h
    exact next_inj h ▸ Sec.SameTack.tackChange _ s.idleTick_keeps.2.1
  | cons c rest =>
    rw [step_of_pending_cons hp] at h
    obtain ⟨v, hv, htack⟩ := exec_tackChange c { s with pending := rest }
    rw [hv] at h
    exact (answer_eq_next h).2.1 ▸ htack

/-- Settles O57: of the commands, OWNER_KEY writes the keys and IMAGE_ACTIVATE the counter and the boot selection. -/
theorem tackStoreChangesOnlyAsStated : Obligations.TackStoreChangesOnlyAsStated := by
  intro s t h
  obtain ⟨hcount, howner, hkey, hboot⟩ := step_tackChange h
  refine ⟨hcount, howner, fun hne => ?_, fun hne => ?_⟩
  · obtain ⟨c, pkg, hc⟩ := hkey hne
    exact ⟨c, pkg, List.head?_eq_some_iff.mp hc⟩
  · obtain ⟨c, v, w, hc⟩ := hboot hne
    exact ⟨c, v, w, List.head?_eq_some_iff.mp hc⟩

/-- Settles O58: the count is a part of what every other command leaves, and a power-on resumes above the copies of its cell. -/
theorem powerCycleCountChangesOnlyAtPowerOn : Obligations.PowerCycleCountChangesOnlyAtPowerOn := by
  refine ⟨fun c rest s t hp hon hloss h => ?_, fun s t hp h => ?_, fun a b d copy o p s hcopy => ?_⟩
  · rw [step_of_pending_cons hp] at h
    obtain ⟨v, hv, hpcc⟩ := exec_pcc c { s with pending := rest } hon hloss
    rw [hv] at h
    exact (congrArg Clk.pcc (answer_eq_next h).2.2).trans hpcc
  · rw [step_of_pending_nil hp] at h
    exact next_inj h ▸ s.idleTick_keeps.2.2
  · exact (answers_aonPowerOn_above a b d s).imp fun t ht => (ht copy _ hcopy).2

end Sys2Proof.Machine
end

section
/-! SUPPORT. The sources of `EVT_SUM` bit by bit: when the event vector is due, and when not (19 R473). -/

namespace Sys2Proof.Machine

/-- The event sources in the order of `EVT_SUM` (19 R473). -/
def Evts.sources (e : Evts) : List Bool :=
  [e.memUe, e.acc, e.stall != 0, e.integ != 0, e.trip != 0, e.time != 0, e.est != 0, e.str != 0, e.swc != 0,
   e.hlt != 0, e.stb != 0, e.wb != 0, e.cal != 0, e.pair != 0, e.sec != 0, e.pwr != 0, e.th != 0, e.aged != 0,
   e.dbErr, e.ring.toList.any (fun r => r != 0)]

@[simp] theorem putBit_getLsbD {w : Nat} (x : BitVec w) (n i : Nat) (v : Bool) (hn : n < w) :
    (putBit x n v).getLsbD i = if i = n then v else x.getLsbD i := by
  by_cases hi : i < w
  · have hpow : (BitVec.ofNat w (2 ^ n)).getLsbD i = decide (i = n) := by
      simp only [BitVec.getLsbD_ofNat, Nat.testBit_two_pow, hi, decide_true, Bool.true_and, eq_comm]
    cases v with
    | false =>
      change (x &&& ~~~ BitVec.ofNat w (2 ^ n)).getLsbD i = _
      rw [BitVec.getLsbD_and, BitVec.getLsbD_not, hpow]
      by_cases h : i = n <;> simp [h, hi]
    | true =>
      change (x ||| BitVec.ofNat w (2 ^ n)).getLsbD i = _
      rw [BitVec.getLsbD_or, hpow]
      by_cases h : i = n <;> simp [h]
  · have : i ≠ n := by omega
    simp [this, BitVec.getLsbD_of_ge _ _ (Nat.le_of_not_lt hi)]

/-- A fold that puts the bits of a list, from bit `k` on, puts each in its place and leaves the others. -/
theorem foldl_putBit_getLsbD {w : Nat} (l : List Bool) (k : Nat) (x : BitVec w) (h : k + l.length ≤ w) (i : Nat) :
    ((l.zipIdx k).foldl (fun acc p => putBit acc p.2 p.1) x).getLsbD i =
      if k ≤ i then (l[i - k]?).getD (x.getLsbD i) else x.getLsbD i := by
  induction l generalizing k x with
  | nil => simp
  | cons b l ih =>
    simp only [List.length_cons] at h
    rw [List.zipIdx_cons, List.foldl_cons, ih (k + 1) _ (by omega), putBit_getLsbD _ _ _ _ (by omega)]
    rcases Nat.lt_trichotomy i k with hlt | rfl | hgt
    · simp [Nat.not_le.mpr hlt, show ¬ k + 1 ≤ i by omega, Nat.ne_of_lt hlt]
    · simp [show ¬ i + 1 ≤ i by omega]
    · obtain ⟨j, rfl⟩ : ∃ j, i = k + 1 + j := ⟨i - (k + 1), by omega⟩
      simp [show k ≤ k + 1 + j by omega, show k + 1 + j - k = j + 1 by omega, show k + 1 + j ≠ k by omega]

/-- A bit of `EVT_SUM` reads its source. -/
theorem evtSum_getLsbD (e : Evts) (i : Nat) : (evtSum e).getLsbD i = (e.sources[i]?).getD false := by
  refine (foldl_putBit_getLsbD e.sources 0 0 (by simp [Evts.sources]) i).trans ?_
  simp

/-- No source of `EVT_SUM` rises from `e` to `e'`. -/
def Evts.NoRise (e e' : Evts) : Prop := ∀ i : Nat, (e'.sources[i]?).getD false = true → (e.sources[i]?).getD false = true

/-- Where no source rises, no vector is due. -/
theorem eventInterrupt_of_noRise {s t : State} (h : s.evt.NoRise t.evt) : eventInterrupt s t = t := by
  have hrose : evtSum t.evt &&& ~~~ evtSum s.evt &&& t.evt.en = 0 := by
    apply BitVec.eq_of_getLsbD_eq
    intro i hi
    have := h i
    simp only [BitVec.getLsbD_and, BitVec.getLsbD_not, hi, evtSum_getLsbD]
    revert this
    cases (t.evt.sources[i]?).getD false <;> cases (s.evt.sources[i]?).getD false <;> simp
  simp only [eventInterrupt, hrose, if_true]

/-- An enabled source that rises makes the vector due. -/
theorem eventInterrupt_of_rise {s t : State} {i : Nat} (hi : i < 20) (hafter : t.evt.sources[i]? = some true)
    (hbefore : s.evt.sources[i]? = some false) (hen : t.evt.en.getLsbD i = true) :
    eventInterrupt s t = t.sendVector t.evtVector := by
  have hrose : evtSum t.evt &&& ~~~ evtSum s.evt &&& t.evt.en ≠ 0 := fun h0 => by
    have := congrArg (BitVec.getLsbD · i) h0
    simp only [BitVec.getLsbD_and, BitVec.getLsbD_not, evtSum_getLsbD, hi, hafter, hbefore, hen] at this
    simp at this
  simp only [eventInterrupt, hrose, if_false]

/-- A vector that is not masked leaves when the device may write (02 R76). -/
theorem State.sendVector_of_canDma {s : State} {v : Fin 32} (hmask : (s.msix.at v).masked = false) (hdma : s.canDma = true) :
    s.sendVector v = s.emit (.msix v (s.msix.at v).addr (s.msix.at v).data) := by
  simp [State.sendVector, hmask, hdma, State.emit]

/-- A command that raises no event source answers exactly the state that its meaning gives. -/
theorem answers_of_exec_noRise {c : Instr} {s u : State} {P : State → Prop} (hc : exec c s = answer s u)
    (he : s.evt.NoRise u.evt) (h : P u) : Answers c s P := by
  refine answers_of_exec hc ?_
  rwa [eventInterrupt_of_noRise he]

theorem State.writeEvtEn_of_newly {s : State} {v : Word} (h : (v.setWidth 20 &&& ~~~ s.evt.en &&& evtSum s.evt) ≠ 0) :
    s.writeEvtEn v = State.sendVector { s with evt := { s.evt with en := v.setWidth 20 } } s.evtVector :=
  if_neg h

theorem State.writeEvtEn_of_none {s : State} {v : Word} (h : (v.setWidth 20 &&& ~~~ s.evt.en &&& evtSum s.evt) = 0) :
    s.writeEvtEn v = { s with evt := { s.evt with en := v.setWidth 20 } } :=
  if_pos h

/-- Settles O3: a rising enabled source and an enabled standing one make the vector due, and enabling nothing that stands does not. -/
theorem eventVectorSentOnRiseAndOnEnable : Obligations.EventVectorSentOnRiseAndOnEnable := by
  refine ⟨fun bar off s hacc hen hmask hdma => ?_, fun v s h hmask hdma => ?_, fun v s h => ?_⟩
  · refine answers_of_exec (exec_hostNarrowAccess bar off s) ?_
    have hsend := State.sendVector_of_canDma (s := s.narrow .host bar off.toNat) (v := s.evtVector)
      (by rw [State.narrow_host]; exact hmask) (by rw [State.narrow_host]; exact hdma)
    have hrise : eventInterrupt s (s.narrow .host bar off.toNat) = (s.narrow .host bar off.toNat).sendVector s.evtVector := by
      rw [State.narrow_host]
      exact eventInterrupt_of_rise (i := 1) (by decide) rfl (by simp [Evts.sources, hacc]) hen
    rw [hrise, hsend, State.narrow_host]
    exact ⟨rfl, rfl⟩
  · have hsend := State.sendVector_of_canDma (s := { s with evt := { s.evt with en := v.setWidth 20 } }) hmask hdma
    refine answers_of_exec_noRise rfl ?_ (u := s.writeEvtEn v) ?_
    · rw [State.writeEvtEn_of_newly h, hsend]
      exact fun _ hi => hi
    · rw [State.writeEvtEn_of_newly h, hsend]
      exact ⟨rfl, rfl, rfl⟩
  · refine answers_of_exec_noRise rfl ?_ (u := s.writeEvtEn v) (State.writeEvtEn_of_none h)
    rw [State.writeEvtEn_of_none h]
    exact fun _ hi => hi

end Sys2Proof.Machine
end

section
/-! SUPPORT. Writes that clear, store or are recorded, and reads that capture (00 R9, R10; 02 R46; 19 R470, R474). -/

namespace Sys2Proof.Machine

theorem and_not_ne_zero {w : Nat} {x y : BitVec w} (h : x &&& ~~~ y ≠ 0) : x ≠ 0 := by
  rintro rfl
  exact h (BitVec.zero_and)

/-- Bit for bit, the second list holds no 1 that the first does not. -/
def BitsFall : List Bool → List Bool → Prop
  | b :: l, b' :: l' => (b' = true → b = true) ∧ BitsFall l l'
  | _, l' => l' = []

@[simp] theorem BitsFall_nil (l : List Bool) : BitsFall l [] := by cases l <;> rfl

@[simp] theorem BitsFall_cons (b b' : Bool) (l l' : List Bool) : BitsFall (b :: l) (b' :: l') ↔ (b' = true → b = true) ∧ BitsFall l l' := Iff.rfl

theorem BitsFall.getD {l l' : List Bool} (h : BitsFall l l') (i : Nat) (hi : (l'[i]?).getD false = true) : (l[i]?).getD false = true := by
  induction l generalizing l' i with
  | nil =>
    have hnil : l' = [] := h
    simp [hnil] at hi
  | cons b l ih =>
    cases l' with
    | nil => simp at hi
    | cons b' l' =>
      obtain ⟨hhead, htail⟩ := h
      cases i with
      | zero => simpa using hhead (by simpa using hi)
      | succ i => simpa using ih htail i (by simpa using hi)

/-- Where each source of `EVT_SUM` falls or stays, none rises. -/
theorem Evts.noRise_of_fall {e e' : Evts} (h : BitsFall e.sources e'.sources) : e.NoRise e' :=
  h.getD

/-- A W1C write raises no event source (00 R9). -/
theorem Evts.noRise_clear (e : Evts) (off : Nat) (v : Word) : e.NoRise (e.clear off v) := by
  unfold Evts.clear
  split
  case h_17 => exact Evts.noRise_of_fall (by simp +contextual [Evts.sources])
  case h_18 => exact fun _ h => h
  all_goals exact Evts.noRise_of_fall (by simpa [Evts.sources, w1c] using and_not_ne_zero)

/-- A write to an event register clears the bits written as 1, and sends nothing. -/
theorem answers_registerWrite_event {view : View} {off : BitVec 16} {v : Word} {s : State}
    (hw : exec (.registerWrite view .bar0 off v) s = answer s { s with evt := s.evt.clear off.toNat v }) :
    Answers (.registerWrite view .bar0 off v) s fun t => t = { s with evt := s.evt.clear off.toNat v } :=
  answers_of_exec_noRise hw (s.evt.noRise_clear _ _) rfl

/-- A write that the host may not make is recorded with its KIND and changes nothing else (19 R474). -/
theorem answers_accError {i : Instr} {s : State} {k : AccKind} {off : BitVec 16} (hi : exec i s = answer s (s.accError k off.toNat)) :
    Answers i s fun t => t.evt = { s.evt with acc := true } ∧ t.misc.accErr.kind = k.code ∧ t.misc.accErr.off = off ∧
      t = { s with misc := { s.misc with accErr := t.misc.accErr }, evt := t.evt, msix := t.msix, out := t.out } := by
  refine answers_of_exec_up_to_interrupt hi fun t hmisc hevt _ hrest => ?_
  rw [State.accError_eq] at hmisc hevt hrest
  exact ⟨hevt, by rw [hmisc]; rfl, by rw [hmisc]; rfl, by rw [hmisc, hevt]; exact hrest⟩

theorem exec_registerWrite_bar2 {off : BitVec 16} (h : off.toNat % 4 = 0) (h0 : off ≠ 0) (v : Word) (s : State) :
    exec (.registerWrite .host .bar2 off v) s = answer s (s.accError .bar2Write off.toNat) :=
  (congrArg (answer s) (if_neg (not_not_intro h))).trans (congrArg (answer s) (if_neg h0))

/-- The shadows of the views are apart (10 R323). -/
theorem State.shOf_putSh_of_ne (s : State) {view other : View} (x : Shadows) (h : other ≠ view) :
    (s.putSh view x).shOf other = s.shOf other := by
  cases view with
  | host =>
    cases other with
    | host => exact absurd rfl h
    | core d => rfl
  | core c =>
    cases other with
    | host => rfl
    | core d => exact Bank.at_put_of_ne _ _ fun e => h (e ▸ rfl)

theorem State.captured_ytLo (s : State) (sel : Sel) (sh : Shadows) :
    s.captured sel sh 0x1480 = { sh with yt := BitVec.ofNat 32 (s.clk.ytime / 2 ^ 32) } := rfl

theorem State.captured_ytHi (s : State) (sel : Sel) (sh : Shadows) : s.captured sel sh 0x1484 = sh := rfl

theorem State.readReg_ytLo (s : State) (sel : Sel) (sh : Shadows) : s.readReg sel sh 0x1480 = BitVec.ofNat 32 s.clk.ytime := rfl

theorem State.readReg_ytHi (s : State) (sel : Sel) (sh : Shadows) : s.readReg sel sh 0x1484 = sh.yt := rfl

/-- A read leaves the shadows of the other views. -/
theorem answers_shadowCaptureRead_others {view : View} {off : BitVec 16} (h : off.toNat % 4 = 0) (s : State) :
    Answers (.shadowCaptureRead view .bar0 off) s fun t =>
      t = s.afterRead view off.toNat ∧ ∀ other, other ≠ view → t.shOf other = s.shOf other :=
  answers_of_exec_of_evt_eq (exec_shadowCaptureRead_bar0 h s) (s.afterRead_evt view _) ⟨rfl, fun _ hne => s.shOf_putSh_of_ne _ hne⟩

/-- Settles O5: event registers take W1C writes, the rest is recorded, and a read returns its register and captures the partner. -/
theorem registerAccessesFollowTheirTypes : Obligations.RegisterAccessesFollowTheirTypes := by
  refine ⟨fun view v s => answers_registerWrite_event rfl, fun view v s => answers_registerWrite_event rfl,
    fun view v s => answers_registerWrite_event rfl, fun view v s => answers_of_exec_of_evt_eq rfl rfl rfl,
    fun v s => answers_accError (k := .notWritable) (off := 0) rfl,
    fun off v s h h0 => answers_accError (exec_registerWrite_bar2 h h0 v s),
    fun core v s => answers_of_exec_of_evt_eq rfl rfl rfl,
    fun view s => answers_shadowCaptureRead_bar0_plain (off := 0x0000) rfl s rfl,
    fun view s => answers_shadowCaptureRead_bar0_plain (off := 0x0008) rfl s rfl,
    fun s => answers_of_exec_of_evt_eq rfl rfl rfl, fun view s => ?yt, fun view s => ?captured⟩
  case yt =>
    refine (answers_shadowCaptureRead_others (off := 0x1480) rfl s).imp fun t ⟨ht, hother⟩ => ⟨?_, ?_, hother, ?_⟩
    · rw [ht, State.afterRead, State.emit_out, State.putSh_eq_with]
      exact congrArg (fun w => s.out ++ [OutEvent.busRead w]) (s.readReg_ytLo _ _)
    · rw [ht]
      exact (s.shOf_putSh_self view _).trans (s.captured_ytLo _ _)
    · rw [ht, State.afterRead, State.putSh_eq_with]
      rfl
  case captured =>
    refine (answers_shadowCaptureRead_bar0_plain (off := 0x1484) rfl s (s.captured_ytHi _ _)).imp fun t ht => ?_
    rw [ht]
    exact congrArg (fun w => { s with out := s.out ++ [OutEvent.busRead w] }) (s.readReg_ytHi _ _)

end Sys2Proof.Machine
end

section
/-! SUPPORT. Every command answers a next state. -/

namespace Sys2Proof.Machine

/-- Settles O1: the meaning of every command is an answer. -/
theorem stepTakesFrontCommand : Obligations.StepTakesFrontCommand := by
  refine ⟨fun c rest s h => step_of_pending_cons h, fun s h htb => ?_, fun s h htb => ?_, fun c s => ?_⟩
  · rw [step_of_pending_nil h, State.idleTick, if_pos htb]
    rfl
  · rw [step_of_pending_nil h, State.idleTick, htb]
    rfl
  · obtain ⟨t, ht, -⟩ := exec_form c s
    exact ⟨_, ht⟩

end Sys2Proof.Machine
end

section
/-! SUPPORT. The transitions of the strings: what they leave of the rest of the state and of the halter (07, 08). -/

namespace Sys2Proof.Machine

/-- What is left of the halter when the isolation faults are forgotten (08 R248). -/
def Halter.butIso (h : Halter) : Halter := { h with present := h.present.put 4 0 }

/-- What the strings' transitions leave: every other part of the state, and of the halter all but the isolation faults (07, 08). -/
def State.outsideStrings (s : State) : State :=
  { s with
    evt := {}, cross := {}, hif := {}, rings := Bank.fill 16 {}, ulink := Bank.fill 128 {}, estr := Bank.fill 4 {}, strs := State.reset.strs,
    halter := s.halter.butIso, swc := Bank.fill 24 {}, strcal := Bank.fill 4 {}, stb := {}, free := 0 }

@[simp] theorem State.outsideStrings_with (s : State) (evt : Evts) (cross : Crossings) (hif : Hif) (rings : Bank 16 Ring)
    (ulink : Bank 128 UnitLink)
    (estr : Bank 4 EstString) (strs : Bank 4 Str) (swc : Bank 24 Swc) (strcal : Bank 4 StrCal) (stb : Stb) (free : Nat) :
    State.outsideStrings { s with
      evt := evt, cross := cross, hif := hif, rings := rings, ulink := ulink, estr := estr, strs := strs, swc := swc, strcal := strcal
      stb := stb, free := free } = s.outsideStrings := rfl

theorem Halter.butIso_with_present (h : Halter) (b : Bank 20 (BitVec 16)) (hb : b.put 4 0 = h.present.put 4 0) :
    Halter.butIso { h with present := b } = h.butIso := by
  simp only [Halter.butIso, hb]

theorem Bank.put_upd_same {α : Type} {n : Nat} (b : Bank n α) (i : Fin n) (f : α → α) (x : α) : (b.upd i f).put i x = b.put i x := by
  apply Vector.ext
  intro k hk
  by_cases h : i.val = k <;> simp [Bank.put, Bank.upd, h]

@[simp] theorem State.onHalter_outsideStrings (s : State) (f : Halter → Halter) (h : (f s.halter).butIso = s.halter.butIso) :
    (s.onHalter f).outsideStrings = s.outsideStrings := by
  simp only [State.onHalter, State.outsideStrings, h]

@[simp] theorem State.draw_outsideStrings (s : State) : s.draw.2.outsideStrings = s.outsideStrings := rfl

@[simp] theorem State.foldl_outsideStrings {α : Type} (l : List α) (f : State → α → State) (h : ∀ t a, (f t a).outsideStrings = t.outsideStrings)
    (s : State) : (l.foldl f s).outsideStrings = s.outsideStrings :=
  List.foldlRecOn l f (motive := fun t => t.outsideStrings = s.outsideStrings) rfl fun _ ht a _ => (h _ a).trans ht

@[simp] theorem State.onLink_outsideStrings (s : State) (u : Fin 128) (f : UnitLink → UnitLink) :
    (s.onLink u f).outsideStrings = s.outsideStrings := by
  simp [State.onLink]

@[simp] theorem State.onEstr_outsideStrings (s : State) (i : Fin 4) (f : EstString → EstString) :
    (s.onEstr i f).outsideStrings = s.outsideStrings := by
  simp [State.onEstr]

@[simp] theorem State.onStr_outsideStrings (s : State) (i : Fin 4) (f : Str → Str) : (s.onStr i f).outsideStrings = s.outsideStrings := by
  simp [State.onStr]

@[simp] theorem State.onSwc_outsideStrings (s : State) (ch : Fin 24) (f : Swc → Swc) : (s.onSwc ch f).outsideStrings = s.outsideStrings := by
  simp [State.onSwc]

@[simp] theorem State.recorderTakes_outsideStrings (s : State) (q : StbReq) : (s.recorderTakes q).outsideStrings = s.outsideStrings := by
  unfold State.recorderTakes
  repeat' split
  all_goals simp

@[simp] theorem State.studbook_outsideStrings (s : State) (trigger : BitVec 6) (subject : Nat) (detail : List Byte) :
    (s.studbook trigger subject detail).outsideStrings = s.outsideStrings := by
  unfold State.studbook
  split <;> simp

@[simp] theorem State.refreshEligible_outsideStrings (s : State) : (s.refreshEligible).outsideStrings = s.outsideStrings := by
  simp [State.refreshEligible]

@[simp] theorem State.complete_outsideStrings (s : State) (c : Cmd) (status : BitVec 8) (result : BitVec 128) :
    (s.complete c status result).outsideStrings = s.outsideStrings := by
  unfold State.complete
  split <;> simp

@[simp] theorem State.ok_outsideStrings (s : State) (c : Cmd) (result : BitVec 128) : (s.ok c result).outsideStrings = s.outsideStrings := by
  simp [State.ok]

@[simp] theorem State.settleMask_outsideStrings (s : State) (u : Fin 128) : (s.settleMask u).outsideStrings = s.outsideStrings := by
  unfold State.settleMask
  dsimp only
  split <;> simp

@[simp] theorem State.turnOn_outsideStrings (s : State) (ch : Fin 24) : (s.turnOn ch).outsideStrings = s.outsideStrings := by
  unfold State.turnOn
  split
  · split <;> simp
  · simp

@[simp] theorem State.turnOff_outsideStrings (s : State) (ch : Fin 24) : (s.turnOff ch).outsideStrings = s.outsideStrings := by
  simp [State.turnOff]

@[simp] theorem State.settleOut_outsideStrings (s : State) (ch : Fin 24) : (s.settleOut ch).outsideStrings = s.outsideStrings := by
  unfold State.settleOut
  dsimp only
  repeat' split
  all_goals simp

@[simp] theorem State.command_outsideStrings (s : State) (ch : Fin 24) (on : Bool) : (s.command ch on).outsideStrings = s.outsideStrings := by
  simp [State.command]

@[simp] theorem State.strEvent_outsideStrings (s : State) (base : Nat) (str : Fin 4) : (s.strEvent base str).outsideStrings = s.outsideStrings := by
  simp [State.strEvent]

@[simp] theorem State.abortShunt_outsideStrings (s : State) (str : Fin 4) : (s.abortShunt str).outsideStrings = s.outsideStrings := by
  unfold State.abortShunt
  dsimp only
  split
  · rfl
  · rw [State.foldl_outsideStrings _ _ (fun t c => t.complete_outsideStrings c _ _)]
    split <;> simp

@[simp] theorem State.stopExcitation_outsideStrings (s : State) (str : Fin 4) : (s.stopExcitation str).outsideStrings = s.outsideStrings := by
  unfold State.stopExcitation
  split
  · exact (State.foldl_outsideStrings _ _ (fun t u => by simp) _).trans (by simp)
  · rfl

@[simp] theorem State.enterStr_outsideStrings (s : State) (str : Fin 4) (new : StrState) (cause : Nat) (stamp : BitVec 32) :
    (s.enterStr str new cause stamp).outsideStrings = s.outsideStrings := by
  unfold State.enterStr
  extract_lets old s1 s2 s3 s4 s5 s6 s7 s8
  have h3 : s3.outsideStrings = s.outsideStrings := by
    unfold s3
    split <;> simp [s2, s1]
  have h4 : s4.outsideStrings = s.outsideStrings := by
    unfold s4
    split <;> simp [h3]
  have h5 : s5.outsideStrings = s.outsideStrings := by
    unfold s5
    split <;> simp [h4]
  have h8 : s8.outsideStrings = s.outsideStrings :=
    (s7.onHalter_outsideStrings _ (Halter.butIso_with_present _ _ (Bank.put_upd_same _ _ _ _))).trans (by simp [s7, s6, h5])
  split
  · exact h8
  · exact h5

@[simp] theorem State.cmdContactor_outsideStrings (s : State) (str : Fin 4) (k : Fin 3) (on : Bool) :
    (s.cmdContactor str k on).outsideStrings = s.outsideStrings := by
  unfold State.cmdContactor
  dsimp only
  repeat' split
  all_goals simp

@[simp] theorem State.withdraw_outsideStrings (s : State) (str : Fin 4) : (s.withdraw str).outsideStrings = s.outsideStrings := by
  simp [State.withdraw]

@[simp] theorem State.closeRefused_outsideStrings (s : State) (str : Fin 4) (code d3 : Nat) :
    (s.closeRefused str code d3).outsideStrings = s.outsideStrings := by
  unfold State.closeRefused
  split <;> simp

@[simp] theorem State.abortPrecharge_outsideStrings (s : State) (str : Fin 4) : (s.abortPrecharge str).outsideStrings = s.outsideStrings := by
  unfold State.abortPrecharge
  split <;> simp

@[simp] theorem State.countBreak_outsideStrings (s : State) (str : Fin 4) (i : Option Nat) :
    (s.countBreak str i).outsideStrings = s.outsideStrings := by
  unfold State.countBreak
  dsimp only
  repeat' split
  all_goals simp

@[simp] theorem State.openDone_outsideStrings (s : State) (str : Fin 4) (welded : Bool) :
    (s.openDone str welded).outsideStrings = s.outsideStrings := by
  unfold State.openDone
  exact (State.foldl_outsideStrings _ _ (fun t (p : Cmd × Bool) => t.ok_outsideStrings p.1 _) _).trans (s.onStr_outsideStrings _ _)

@[simp] theorem State.weldEval_outsideStrings (s : State) (str : Fin 4) : (s.weldEval str).outsideStrings = s.outsideStrings := by
  unfold State.weldEval
  dsimp only
  repeat' split
  all_goals simp

@[simp] theorem State.weldedEval_outsideStrings (s : State) (str : Fin 4) : (s.weldedEval str).outsideStrings = s.outsideStrings := by
  unfold State.weldedEval
  split <;> simp

@[simp] theorem State.startWeldCheck_outsideStrings (s : State) (str : Fin 4) (cause : Nat) (stamp : BitVec 32) :
    (s.startWeldCheck str cause stamp).outsideStrings = s.outsideStrings := by
  simp [State.startWeldCheck]

@[simp] theorem State.weldPeers_outsideStrings (s : State) : (s.weldPeers).outsideStrings = s.outsideStrings :=
  State.foldl_outsideStrings _ _ (fun t i => by simp) s

@[simp] theorem State.breakNow_outsideStrings (s : State) (str : Fin 4) (cause : Nat) (i : Option Nat) :
    (s.breakNow str cause i).outsideStrings = s.outsideStrings := by
  unfold State.breakNow
  dsimp only
  repeat' split
  all_goals simp

@[simp] theorem State.openAllA_outsideStrings (s : State) (cause : Nat) : (s.openAllA cause).outsideStrings = s.outsideStrings :=
  State.foldl_outsideStrings _ _ (fun t str => by split <;> simp) s

end Sys2Proof.Machine
end

section
/-! SUPPORT. A detail that arises at the halter: the lock-out, and what it leaves (08 R248 to R251). -/

namespace Sys2Proof.Machine

theorem State.halter_of_outsideStrings {s t : State} (h : t.outsideStrings = s.outsideStrings) : t.halter.butIso = s.halter.butIso :=
  congrArg State.halter h

/-- What the strings and the halter leave when a detail arises: every other part of the state (08 R248). -/
def State.outsideHalter (s : State) : State := { s.outsideStrings with halter := {}, out := [] }

@[simp] theorem State.outsideHalter_with (s : State) (evt : Evts) (cross : Crossings) (hif : Hif) (rings : Bank 16 Ring)
    (ulink : Bank 128 UnitLink) (estr : Bank 4 EstString) (strs : Bank 4 Str) (halter : Halter) (swc : Bank 24 Swc) (strcal : Bank 4 StrCal)
    (stb : Stb) (out : List OutEvent) (free : Nat) :
    State.outsideHalter { s with
      evt := evt, cross := cross, hif := hif, rings := rings, ulink := ulink, estr := estr, strs := strs, halter := halter, swc := swc
      strcal := strcal, stb := stb, out := out, free := free } = s.outsideHalter := rfl

theorem State.outsideHalter_of_strings {s t : State} (h : t.outsideStrings = s.outsideStrings) : t.outsideHalter = s.outsideHalter := by
  simp only [State.outsideHalter, h]

@[simp] theorem State.onHalter_outsideHalter (s : State) (f : Halter → Halter) : (s.onHalter f).outsideHalter = s.outsideHalter := rfl

@[simp] theorem State.emit_outsideHalter (s : State) (o : OutEvent) : (s.emit o).outsideHalter = s.outsideHalter := rfl

@[simp] theorem State.sendEnables_outsideHalter (s : State) : s.sendEnables.outsideHalter = s.outsideHalter := rfl

@[simp] theorem State.hltEvent_outsideHalter (s : State) (n : Nat) : (s.hltEvent n).outsideHalter = s.outsideHalter := rfl

@[simp] theorem State.studbook_outsideHalter (s : State) (trigger : BitVec 6) (subject : Nat) (detail : List Byte) :
    (s.studbook trigger subject detail).outsideHalter = s.outsideHalter :=
  State.outsideHalter_of_strings (s.studbook_outsideStrings trigger subject detail)

@[simp] theorem State.openAllA_outsideHalter (s : State) (cause : Nat) : (s.openAllA cause).outsideHalter = s.outsideHalter :=
  State.outsideHalter_of_strings (s.openAllA_outsideStrings cause)

@[simp] theorem State.sendStatus_outsideHalter (s : State) (sent0 sent1 : Bool) : (s.sendStatus sent0 sent1).outsideHalter = s.outsideHalter := by
  unfold State.sendStatus
  cases sent0 <;> cases sent1 <;> rfl

@[simp] theorem State.lockOut_outsideHalter (s : State) (d : Detail) (w : Fin 16) : (s.lockOut d w).outsideHalter = s.outsideHalter := by
  simp [State.lockOut]

@[simp] theorem State.raiseDetail_outsideHalter (s : State) (d : Detail) (w : Fin 16) :
    (s.raiseDetail d w).outsideHalter = s.outsideHalter := by
  unfold State.raiseDetail
  extract_lets stood locked s1 s2
  have h2 : s2.outsideHalter = s.outsideHalter := by
    unfold s2
    repeat' split
    all_goals simp [s1]
  split
  · exact h2
  · exact h2

/-- What a lock-out leaves of the halter: all but the details, the safe state and its record, the key's memory of a press, and the counters of
the status telegram (08 R248 to R251, R264). -/
def Halter.besidesLock (h : Halter) : Halter :=
  { h with
    present := Bank.fill 20 0, lockout := false, lockCause := 0, lockWhere := 0, enables := 0, cutoff := false, faultA := true, faultB := true
    lockCnt := 0, lateCnt := 0, aonWord := {}, copyDue := false, key := { h.key with seen := 0 }, net := { h.net with seq := 0, txFail := 0 } }

theorem Halter.besidesLock_butIso (h : Halter) : h.butIso.besidesLock = h.besidesLock := rfl

theorem Halter.besidesLock_of_butIso {h k : Halter} (e : h.butIso = k.butIso) : h.besidesLock = k.besidesLock := by
  rw [← h.besidesLock_butIso, e, k.besidesLock_butIso]

@[simp] theorem State.sendStatus_besidesLock (s : State) (sent0 sent1 : Bool) :
    (s.sendStatus sent0 sent1).halter.besidesLock = s.halter.besidesLock := by
  unfold State.sendStatus
  cases sent0 <;> cases sent1 <;> rfl

@[simp] theorem State.sendStatus_present (s : State) (sent0 sent1 : Bool) :
    (s.sendStatus sent0 sent1).halter.present = s.halter.present ∧ (s.sendStatus sent0 sent1).halter.lockout = s.halter.lockout := by
  unfold State.sendStatus
  cases sent0 <;> cases sent1 <;> exact ⟨rfl, rfl⟩

/-- The halter as a lock-out leaves it, before the strings open and the status telegram leaves. -/
def State.lockedHalter (s : State) (d : Detail) (w : Fin 16) : Halter :=
  Halter.settle { s.halter with
    lockout := true, lockCause := BitVec.ofNat 8 (detailCode d), lockWhere := BitVec.ofNat 4 w.val, lockCnt := satAdd 0xFFFF s.halter.lockCnt 1
    aonWord := { lockout := true, cause := BitVec.ofNat 8 (detailCode d), where_ := BitVec.ofNat 4 w.val, hours := s.oph }
    copyDue := true }

theorem State.studbook_halter (s : State) (trigger : BitVec 6) (subject : Nat) (detail : List Byte) :
    (s.studbook trigger subject detail).halter = s.halter := by simp

theorem State.lockOut_halter (s : State) (d : Detail) (w : Fin 16) :
    ∃ u : State, s.lockOut d w = u.sendStatus true true ∧ u.halter.butIso = (s.lockedHalter d w).butIso := by
  refine ⟨_, rfl, (State.halter_of_outsideStrings (State.openAllA_outsideStrings _ _)).trans ?_⟩
  rw [State.studbook_halter]
  rfl

theorem Halter.present_of_butIso {h k : Halter} (e : h.butIso = k.butIso) : h.present.put 4 0 = k.present.put 4 0 :=
  congrArg Halter.present e

theorem Halter.lockout_of_butIso {h k : Halter} (e : h.butIso = k.butIso) : h.lockout = k.lockout := (congrArg Halter.lockout e :)

/-- The halter is locked out, and of the details only isolation faults of strings that open can go. -/
theorem State.lockOut_locks (s : State) (d : Detail) (w : Fin 16) :
    (s.lockOut d w).halter.lockout = true ∧ (s.lockOut d w).halter.present.put 4 0 = s.halter.present.put 4 0 ∧
    (s.lockOut d w).halter.besidesLock = s.halter.besidesLock := by
  obtain ⟨u, hu, hb⟩ := s.lockOut_halter d w
  rw [hu, State.sendStatus_besidesLock, (u.sendStatus_present _ _).1, (u.sendStatus_present _ _).2]
  exact ⟨Halter.lockout_of_butIso hb, (Halter.present_of_butIso hb :), (Halter.besidesLock_of_butIso hb :)⟩

/-- The halter with the detail that arises marked, and remembered by a press (08 R250, R268). -/
def Halter.arise (h : Halter) (d : Detail) (w : Fin 16) : Halter :=
  { (h.mark d w.val true) with key := { h.key with
    seen := if h.key.press.isSome then setBit h.key.seen (detailPlace d).val else h.key.seen } }

theorem Halter.arise_besidesLock (h : Halter) (d : Detail) (w : Fin 16) : (h.arise d w).besidesLock = h.besidesLock := rfl

/-- A detail that arises is present, locks the halter out, and leaves the other details but isolation faults (08 R248, R250). -/
theorem State.raiseDetail_locks (s : State) {d : Detail} (w : Fin 16) (hd : detailMomentary d = false) :
    (s.raiseDetail d w).halter.lockout = true ∧
    (s.raiseDetail d w).halter.present.put 4 0 = (s.halter.mark d w.val true).present.put 4 0 ∧
    (s.raiseDetail d w).halter.besidesLock = s.halter.besidesLock := by
  unfold State.raiseDetail
  extract_lets stood locked s1 s2
  rw [if_neg (by simp [hd])]
  have h1 : s1.halter = s.halter.arise d w := rfl
  unfold s2
  split
  · obtain ⟨hlock, hpresent, hbesides⟩ := s1.lockOut_locks d w
    refine ⟨hlock, hpresent.trans ?_, hbesides.trans ?_⟩
    · rw [h1]
      rfl
    · rw [h1, Halter.arise_besidesLock]
  · next hl =>
    have hlocked : s.halter.lockout = true := by simpa [locked] using hl
    split
    · exact ⟨hlocked, rfl, rfl⟩
    · rw [State.studbook_halter]
      exact ⟨hlocked, rfl, rfl⟩

theorem State.clocks_of_outsideHalter {s t : State} (h : t.outsideHalter = s.outsideHalter) : t.clocks = s.clocks :=
  (congrArg State.clocks h :)

end Sys2Proof.Machine
end

section
/-! SUPPORT. The windows of the checked clocks and the scrubber (01 R23, R32 to R35). -/

namespace Sys2Proof.Machine

theorem within_of_outside {lo hi v : Nat} (h : v < lo ∨ hi < v) : within lo hi v = false :=
  within_eq_false.mpr (by omega)

/-- A window outside of a clock that is judged, the first in a row: no fault yet (01 R23). -/
theorem exec_clockCheckWindow_first {k : ClkId} {permille : Nat} {s : State} (hj : s.judges k = true)
    (hout : permille < 750 ∨ 1250 < permille) (hbad : (s.clocks.get k).bad = 0) :
    exec (.clockCheckWindow k permille) s = answer s { s with clocks := s.clocks.set k { good := 0, bad := 1 } } := by
  refine congrArg (answer s) ((if_pos hj).trans ?_)
  rw [within_of_outside hout]
  simp [ClockWin.next, hbad]

/-- The second window outside in a row of another clock than the halter's is a detail of category A (01 R23). -/
theorem exec_clockCheckWindow_second {p : Fin 4} {permille : Nat} {s : State} (hj : s.judges (.port p) = true)
    (hout : permille < 750 ∨ 1250 < permille) (hbad : (s.clocks.port.at p).bad = 1) :
    exec (.clockCheckWindow (.port p) permille) s =
      answer s (State.raiseDetail { s with clocks := s.clocks.set (.port p) { good := 0, bad := 2 } } .clock 0) := by
  refine congrArg (answer s) ((if_pos hj).trans ?_)
  rw [within_of_outside hout]
  simp [ClockWin.next, Clocks.get, hbad]

theorem exec_clockCheckWindow_halter {permille : Nat} {s : State} (hj : s.judges .halter = true)
    (hout : permille < 750 ∨ 1250 < permille) (hbad : s.clocks.halter.bad = 1) :
    exec (.clockCheckWindow .halter permille) s = answer s { s with
      clocks := s.clocks.set .halter { good := 0, bad := 2 }
      cross := { s.cross with tbToHalter := s.cross.tbToHalter ++ [.clockFault] } } := by
  refine congrArg (answer s) ((if_pos hj).trans ?_)
  rw [within_of_outside hout]
  simp [ClockWin.next, Clocks.get, hbad]

theorem sramBank_low {a : Nat} (h : a < 0x20000) : sramBank a = (0, a) := by
  have h0 : a / 0x20000 = 0 := Nat.div_eq_of_lt h
  have h1 : a % 0x20000 = a := Nat.mod_eq_of_lt h
  rw [sramBank, if_pos (by omega), h0, h1]
  rfl

/-- A studbook request sets no event but those of the recorder, and enters no crossing but the recorder's. -/
theorem State.studbook_memUe (s : State) (trigger : BitVec 6) (subject : Nat) (detail : List Byte) :
    (s.studbook trigger subject detail).evt.memUe = s.evt.memUe ∧
    (s.studbook trigger subject detail).cross.memToHalter = s.cross.memToHalter := by
  unfold State.studbook
  dsimp only
  split
  · unfold State.recorderTakes
    repeat' split
    all_goals exact ⟨rfl, rfl⟩
  · exact ⟨rfl, rfl⟩

/-- The memory state after an uncorrectable error that `src` found in the protection data of bank 0 (01 R33). -/
def Mem.afterUe0 (m : Mem) (src : UeSrc) (off : Nat) : Mem :=
  { m with
    ue := { bank := 0, src := src.code, prot := true, count := satAdd 0xFFFF m.ue.count 1, off := BitVec.ofNat 22 (off / 16 * 16) }
    ecc := m.ecc.upd 0 (fun c => { c with ue := satAdd 0xFF c.ue 1 }) }

theorem State.memoryError_bank0 (s : State) (src : UeSrc) (off : Nat) :
    ∃ detail, ∃ u : State, u = State.studbook { s with mem := s.mem.afterUe0 src off, evt := { s.evt with memUe := true } } 0x06 0 detail ∧
      s.memoryError src 0 off = { u with cross := { u.cross with memToHalter := u.cross.memToHalter ++ [.memFault] } } :=
  ⟨_, _, rfl, rfl⟩

theorem State.memoryError_protected (s : State) (src : UeSrc) (off : Nat) :
    (s.memoryError src 0 off).mem = s.mem.afterUe0 src off ∧ (s.memoryError src 0 off).evt.memUe = true ∧
    (s.memoryError src 0 off).cross.memToHalter = s.cross.memToHalter ++ [.memFault] := by
  obtain ⟨detail, u, hu, h⟩ := s.memoryError_bank0 src off
  have hs := State.studbook_memUe { s with mem := s.mem.afterUe0 src off, evt := { s.evt with memUe := true } } 0x06 0 detail
  rw [← hu] at hs
  rw [h]
  exact ⟨by simp [hu], hs.1, congrArg (· ++ [XEntry.memFault]) hs.2⟩

/-- The scrubber reads while the memory island is up, in Run and Idle (01 R32). -/
theorem exec_scrubRead_sram_ue {s : State} (hmem : s.isl.mem = true) (hrun : s.pwr.st = .run) (hlow : s.mem.scrubSram < 0x2000) :
    exec (.scrubRead false .uncorrectable) s = answer s (State.memoryError
      { s with mem := { s.mem with scrubSram := (s.mem.scrubSram + 1) % 0x60000 } } .scrubber 0 (16 * s.mem.scrubSram)) := by
  refine congrArg (answer s) ((if_pos ⟨hmem, .inl hrun⟩).trans ?_)
  rw [if_neg (by decide), sramBank_low (by omega)]
  rfl

theorem mramBank_word {w : Nat} (h : w < 0x200000) : (mramBank (16 * w)).1 = ⟨(24 + w / 0x40000) % 32, by omega⟩ := by
  refine Fin.ext ?_
  change (24 + 16 * w / 0x400000) % 32 = (24 + w / 0x40000) % 32
  omega

theorem exec_scrubRead_mram_corrected {s : State} (hmem : s.isl.mem = true) (hrun : s.pwr.st = .run) (hlt : s.mem.scrubMram < 0x200000) :
    exec (.scrubRead true .correctable) s = answer s { s with
      mem := ({ s.mem with scrubMram := (s.mem.scrubMram + 1) % 0x200000 } : Mem).countCorrected ⟨(24 + s.mem.scrubMram / 0x40000) % 32, by omega⟩ } := by
  refine congrArg (answer s) ((if_pos ⟨hmem, .inl hrun⟩).trans ?_)
  rw [← mramBank_word hlt]
  rfl

/-- Settles O7: the windows of a clock, the scrubber's reads, and the CLR of a bank, case by case. -/
theorem clocksWatchedAndMemoryScrubbed : Obligations.ClocksWatchedAndMemoryScrubbed := by
  refine ⟨fun p permille s hh hp hout hbad => ?second, fun p permille s hh hp hout hbad => ?first, fun permille s hh htb hout hbad => ?halter,
    fun s hmem hrun _ => ?clean, fun s hmem hrun hlt => ?corrected, fun s hmem hrun hlow => ?ue, fun m found s hrest => ?rest,
    fun bank s => ?clear⟩
  case second =>
    refine answers_of_exec (exec_clockCheckWindow_second (by simp [State.judges, hh, hp]) hout hbad) ?_
    have hbesides := State.raiseDetail_outsideHalter { s with clocks := s.clocks.set (.port p) { good := 0, bad := 2 } } .clock 0
    have hlock := (State.raiseDetail_locks { s with clocks := s.clocks.set (.port p) { good := 0, bad := 2 } } (d := .clock) 0 rfl).1
    simp only [eventInterrupt_frame, hlock, State.clocks_of_outsideHalter hbesides]
    simp [Clocks.set]
  case first =>
    exact answers_of_exec_of_evt_eq (exec_clockCheckWindow_first (by simp [State.judges, hh, hp]) hout hbad) rfl
      ⟨by simp [Clocks.set], rfl, rfl⟩
  case halter =>
    exact answers_of_exec_of_evt_eq (exec_clockCheckWindow_halter (by simp [State.judges, hh, htb]) hout hbad) rfl ⟨rfl, rfl, rfl⟩
  case clean => exact answers_of_exec_of_evt_eq (congrArg (answer s) (if_pos ⟨hmem, .inl hrun⟩)) rfl rfl
  case corrected =>
    refine answers_of_exec_of_evt_eq (exec_scrubRead_mram_corrected hmem hrun hlt) rfl ⟨rfl, rfl⟩
  case ue =>
    refine answers_of_exec (exec_scrubRead_sram_ue hmem hrun hlow) ?_
    obtain ⟨hm, he, hc⟩ := State.memoryError_protected { s with mem := { s.mem with scrubSram := (s.mem.scrubSram + 1) % 0x60000 } } .scrubber
      (16 * s.mem.scrubSram)
    have hoff : 16 * s.mem.scrubSram / 16 * 16 = 16 * s.mem.scrubSram := by omega
    simp only [eventInterrupt_frame, hm, he, hc, Mem.afterUe0, Bank.at_upd_self, hoff]
    exact ⟨trivial, rfl, trivial, trivial, trivial, trivial, trivial, trivial⟩
  case rest => exact answers_of_exec_of_evt_eq (congrArg (answer s) (if_neg (by simp [hrest]))) rfl rfl
  case clear =>
    refine answers_of_exec_of_evt_eq (u := s.clearEcc bank) rfl rfl ⟨?_, ?_, fun b hb => ?_, rfl⟩
    · simp [State.clearEcc]
    · simp [State.clearEcc]
    · exact Bank.at_put_of_ne _ _ (Ne.symm hb)

end Sys2Proof.Machine
end

section
/-! SUPPORT. The completion of a command in flight, whatever its meaning changed before (02 R65, R68). -/

namespace Sys2Proof.Machine

/-- In `u` the command `c` is in flight as `f`, and its completion is posted and kept: its ring pair takes it and its stamp is tracked; as far as
the completion goes, `u` stands where `s` did (02 R53, R65, R68). -/
structure Ending (s u : State) (c : Cmd) (f : Flight) : Prop where
  flight  : u.hif.flight c.stamp = some f
  same    : f.cmd = c
  enabled : (u.rings.at c.ring).st ≠ .disabled
  kept    : (u.rings.at c.ring).discard = false
  tracked : u.hif.tracked c.stamp = true
  trough  : (u.rings.at c.ring).trough = (s.rings.at c.ring).trough
  now     : u.clk.ytime = s.clk.ytime

theorem State.post_of_kept {u : State} {c : Cmd} (hen : (u.rings.at c.ring).st ≠ .disabled) (hkept : (u.rings.at c.ring).discard = false)
    (op x : BitVec 8) (r : BitVec 128) (final gap : Bool) :
    u.post c op x r final gap =
      { u.onRing c.ring (fun r' => { r' with trough := r'.trough ++
          [{ tag := c.tag, status := x, opcode := op, stamp := c.stamp, result := r,
             ctime := BitVec.ofNat 32 u.now, final := final, gap := gap, noIrq := c.noIrq }] }) with
        hif := { u.hif with activeAt := u.now, pollGap := 0, dueAt := min u.hif.dueAt (u.now + 128) } } := by
  simp [State.post, hen, hkept]

theorem Hif.tracked_of_issued {h k : Hif} (e : h.issued = k.issued) (stamp : BitVec 32) : h.tracked stamp = k.tracked stamp := by
  simp [Hif.tracked, Hif.age, Hif.stampNext, e]

/-- A ring pair after its eligibility was looked at again keeps everything but that. -/
theorem State.refreshEligible_at (s : State) (r : Fin 16) :
    s.refreshEligible.rings.at r = { s.rings.at r with eligibleAt := (s.refreshEligible.rings.at r).eligibleAt } := by
  simp only [State.refreshEligible, Bank.at_each]
  split <;> rfl

theorem Hif.flight_filter_self (fs : List Flight) (stamp : BitVec 32) (status : BitVec 8) :
    ((fs.filter (fun g => g.cmd.stamp != stamp)).map (fun f => { f with deps := f.deps.map (Dep.told stamp status) })).find?
      (fun f => f.cmd.stamp == stamp) = none := by
  simp [List.find?_eq_none]

/-- The final completion of a command is posted, ends it, and is kept, whatever else changed before (02 R65, R68). -/
theorem Ending.completes {s u : State} {c : Cmd} {f : Flight} (h : Ending s u c f) (x : BitVec 8) (r : BitVec 128) :
    Completes s (u.complete c x r) c f x r := by
  obtain ⟨hflight, hsame, henabled, hkept, htracked, htrough, hnow⟩ := h
  subst hsame
  have hpost := State.post_of_kept henabled hkept f.opcode x r true false
  refine ⟨?_, ?_, ?_⟩
  · simp only [State.complete, hflight, hpost]
    rw [State.refreshEligible_at]
    simp [htrough, State.now, hnow]
  · simp only [State.complete, hflight, hpost, State.refreshEligible_frame]
    exact Hif.flight_filter_self _ _ _
  · simp only [State.complete, hflight, hpost, State.refreshEligible_frame]
    have htr := (Hif.tracked_of_issued (h := { u.hif with
      activeAt := u.now, pollGap := 0, dueAt := min u.hif.dueAt (u.now + 128)
      flights := u.hif.flights.filter (fun g => g.cmd.stamp != f.cmd.stamp) }) (k := u.hif) rfl f.cmd.stamp).trans htracked
    simp only [Hif.recordFinal, Hif.finalOf, htr, if_true]
    simp

/-- The event interrupt leaves a completion. -/
theorem Completes.eventInterrupt {s t : State} {c : Cmd} {f : Flight} {x : BitVec 8} {r : BitVec 128} (b : State) (h : Completes s t c f x r) :
    Completes s (eventInterrupt b t) c f x r := by
  simpa only [Completes, eventInterrupt_frame] using h

theorem Completes.ended {s t : State} {c : Cmd} {f : Flight} {x : BitVec 8} {r : BitVec 128} (h : Completes s t c f x r) : Ended t c x := by
  obtain ⟨-, hflight, hfinal⟩ := h
  exact ⟨hflight, by rw [hfinal]; rfl⟩

/-- A command that executes can end. -/
theorem Executing.ending {s : State} {c : Cmd} {f : Flight} (h : Executing s c f) : Ending s (s.executing c) c f :=
  ⟨executing_flight_same h, h.same, h.enabled, h.kept, h.tracked, rfl, rfl⟩

/-- What a meaning changes besides the flights, the ring pairs and the clock leaves the ending of a command. -/
theorem Ending.of_eq {s u v : State} {c : Cmd} {f : Flight} (h : Ending s u c f) (hhif : v.hif = u.hif) (hrings : v.rings = u.rings)
    (hnow : v.clk.ytime = u.clk.ytime) : Ending s v c f := by
  obtain ⟨hflight, hsame, henabled, hkept, htracked, htrough, hnow'⟩ := h
  exact ⟨hhif ▸ hflight, hsame, hrings ▸ henabled, hrings ▸ hkept, hhif ▸ htracked, hrings ▸ htrough, hnow.trans hnow'⟩

/-- A command in flight outside the recovery mode, whether it waits or executes. -/
theorem ending_of_flight {s : State} {c : Cmd} {f : Flight} (hf : s.hif.flight c.stamp = some f) (hsame : f.cmd = c)
    (hen : (s.rings.at c.ring).st ≠ .disabled) (hkept : (s.rings.at c.ring).discard = false) (htr : s.hif.tracked c.stamp = true) :
    Ending s s c f :=
  ⟨hf, hsame, hen, hkept, htr, rfl, rfl⟩

/-- A command that executes does what its body says. -/
theorem exec_of_run {i : Instr} {s : State} {c : Cmd} {f : Flight} {inRecovery : Bool} {body : State → State} (h : Executing s c f)
    (hi : exec i s = answer s (s.run c inRecovery body)) : exec i s = answer s (body (s.executing c)) :=
  hi.trans (congrArg (answer s) (run_executing h inRecovery body))

/-- A command whose meaning changes no event and ends it answers the completion. -/
theorem answers_of_complete {i : Instr} {s u : State} {c : Cmd} {f : Flight} {x : BitVec 8} {r : BitVec 128} {P : State → Prop}
    (hi : exec i s = answer s (u.complete c x r)) (he : Ending s u c f) (hevt : u.evt = s.evt)
    (h : ∀ t, Completes s t c f x r → t = { u with hif := t.hif, rings := t.rings } → P t) : Answers i s P :=
  answers_of_exec_of_evt_eq hi (by simpa using hevt) (h _ (he.completes x r) (u.complete_eq_with c x r))

/-- A command that only ends changes nothing but its completion. -/
theorem answers_only_complete {i : Instr} {s : State} {c : Cmd} {f : Flight} {x : BitVec 8} {r : BitVec 128} (h : Executing s c f)
    (hi : exec i s = answer s ((s.executing c).complete c x r)) :
    Answers i s fun t => Completes s t c f x r ∧ t = { s with hif := t.hif, rings := t.rings } :=
  answers_of_complete hi h.ending rfl fun _ hc ht => ⟨hc, ht⟩

theorem dwords_one {n : Nat} (h : n < 2 ^ 32) : dwords n 0 0 0 = BitVec.ofNat 128 n := by
  have h' : n % 4294967296 = n := Nat.mod_eq_of_lt h
  simp [dwords, h']

@[simp] theorem stallOf_unitPos (i : Fin 32) (k : Fin 4) : stallOf (unitPos i k) = i := by
  refine Fin.ext ?_
  change (4 * i.val + k.val) / 4 = i.val
  omega

@[simp] theorem unitOf_unitPos (i : Fin 32) (k : Fin 4) : unitOf (unitPos i k) = k := by
  refine Fin.ext ?_
  change (4 * i.val + k.val) % 4 = k.val
  omega

end Sys2Proof.Machine
end

section
/-! SUPPORT. Dependencies and command-data transfers (02 R65, R70; 11 R335). -/

namespace Sys2Proof.Machine

/-- A dependency of the command needed SUCCESS and ended without it (02 R65). -/
def Flight.depFailed (f : Flight) : Bool :=
  f.deps.any (fun d => d.success && (match d.ended with | some st => st != stSuccess | none => false))

theorem exec_commandDependencyResolved {s : State} {stamp : BitVec 32} {f : Flight} (hf : s.hif.flight stamp = some f)
    (hw : f.stage = .waiting) :
    exec (.commandDependencyResolved stamp) s = answer s
      (if f.depFailed then s.complete f.cmd stDepFailed else if f.deps.all (fun d => d.ended.isSome) then s.executing f.cmd else s) := by
  refine congrArg (answer s) ?_
  simp only [State.settleDeps, hf, hw, ne_eq, not_true_eq_false, if_false] <;> rfl

theorem executing_of_flight {s : State} {c : Cmd} {f : Flight} (hf : s.hif.flight c.stamp = some f) :
    (s.executing c).hif.flight c.stamp = some { f with stage := .executing } := by
  have hs : f.cmd.stamp = c.stamp := by simpa using List.find?_some (p := fun g : Flight => g.cmd.stamp == c.stamp) hf
  rw [executing_flight, hf]
  simp [hs]

/-- Flights changed in what no stamp depends on are found at their stamps. -/
theorem Hif.find_map_flights (fs : List Flight) (stamp : BitVec 32) (g : Flight → Flight) (hg : ∀ f, (g f).cmd = f.cmd) :
    (fs.map g).find? (fun f => f.cmd.stamp == stamp) = (fs.find? (fun f => f.cmd.stamp == stamp)).map g := by
  rw [List.find?_map]
  congr 2
  funext f
  simp [hg]

/-- A command-data transfer that completed is counted for its command (11 R335). -/
def Flight.countDma (stamp : BitVec 32) (g : Flight) : Flight := if g.cmd.stamp == stamp then { g with dmaDone := g.dmaDone + 1 } else g

theorem Flight.countDma_cmd (stamp : BitVec 32) (g : Flight) : (g.countDma stamp).cmd = g.cmd := by
  unfold Flight.countDma
  split <;> rfl

theorem exec_commandDataDmaComplete_ok {s : State} {stamp : BitVec 32} {f : Flight} (hf : s.hif.flight stamp = some f) :
    exec (.commandDataDmaComplete stamp true) s =
      answer s { s with hif := { s.hif with flights := s.hif.flights.map (Flight.countDma stamp) } } := by
  refine congrArg (answer s) ?_
  simp only [hf, if_true] <;> rfl

/-- Settles O12: a dependency that failed, all satisfied, one that waits; a transfer that failed and one that did not. -/
theorem dependenciesAndDataTransfers : Obligations.DependenciesAndDataTransfers := by
  refine ⟨fun c f d st s hf hsame hw hd hsuccess hended hst hen hkept htr => ?failed, fun c f s hf hsame hw hall => ?satisfied,
    fun c f s hf hsame hw hopen hothers => ?waiting, fun c f s hf hsame hen hkept htr hstreams => ?dmaError, fun c f s hf hsame => ?dmaOk⟩
  case failed =>
    have hany : f.depFailed = true :=
      List.any_eq_true.mpr ⟨d, hd, by simpa [hsuccess, hended, stSuccess] using hst⟩
    refine answers_of_exec ((exec_commandDependencyResolved hf hw).trans (congrArg (answer s) (if_pos hany))) ?_
    rw [hsame]
    exact ((ending_of_flight hf hsame hen hkept htr).completes _ _).eventInterrupt s
  case satisfied =>
    have hany : f.depFailed = false :=
      List.any_eq_false.mpr fun d hd => by simp [hall d hd, stSuccess]
    have hevery : f.deps.all (fun d => d.ended.isSome) = true := List.all_eq_true.mpr fun d hd => by simp [hall d hd]
    refine answers_of_exec_of_evt_eq (u := s.executing c) ?_ rfl ⟨executing_of_flight hf, rfl, rfl⟩
    rw [exec_commandDependencyResolved hf hw, hany, hevery, hsame]
    rfl
  case waiting =>
    obtain ⟨d, hd, hnone⟩ := hopen
    have hany : f.depFailed = false :=
      List.any_eq_false.mpr fun d hd => by rcases hothers d hd with h | h <;> simp [h, stSuccess]
    have hevery : f.deps.all (fun d => d.ended.isSome) = false := List.all_eq_false.mpr ⟨d, hd, by simp [hnone]⟩
    refine answers_of_exec_of_evt_eq (u := s) ?_ rfl rfl
    rw [exec_commandDependencyResolved hf hw, hany, hevery]
    rfl
  case dmaError =>
    have hnone : s.hif.streams.find? (fun x => x.cmd.stamp == c.stamp) = none :=
      List.find?_eq_none.mpr fun x hx => by simpa using hstreams x hx
    refine answers_of_exec (u := s.complete c stDmaError) (congrArg (answer s) ?_) ?_
    · simp only [hf, hnone, hsame, Bool.false_eq_true, if_false]
    · exact ((ending_of_flight hf hsame hen hkept htr).completes _ _).eventInterrupt s
  case dmaOk =>
    have hs : f.cmd.stamp = c.stamp := congrArg Cmd.stamp hsame
    refine answers_of_exec_of_evt_eq (exec_commandDataDmaComplete_ok hf) rfl ⟨?_, rfl⟩
    refine (Hif.find_map_flights _ _ _ (Flight.countDma_cmd c.stamp)).trans ?_
    rw [show s.hif.flights.find? (fun g => g.cmd.stamp == c.stamp) = some f from hf]
    simp [Flight.countDma, hs]

end Sys2Proof.Machine
end

section
/-! SUPPORT. The balancing masks (03 R114, R115). -/

namespace Sys2Proof.Machine

/-- The mask in force follows what is wanted of a unit, and nothing else of it changes but whether it is renewed (03 R114, R115). -/
theorem State.settleMask_at (s : State) (u : Fin 128) : ∃ applied stale, (s.settleMask u).ulink.at u =
    { s.ulink.at u with applied := applied, stale := stale } := by
  unfold State.settleMask
  dsimp only
  split
  · exact ⟨_, _, rfl⟩
  · exact ⟨_, _, Bank.at_upd_self _ _ _⟩

theorem State.settleMask_at_of_ne (s : State) {u v : Fin 128} (h : v ≠ u) : (s.settleMask u).ulink.at v = s.ulink.at v := by
  unfold State.settleMask
  dsimp only
  split
  · rfl
  · exact Bank.at_upd_of_ne _ _ (Ne.symm h)

theorem State.settleMask_eq_with (s : State) (u : Fin 128) : s.settleMask u = { s with ulink := (s.settleMask u).ulink } := by
  unfold State.settleMask
  dsimp only
  split <;> rfl

/-- The state in which BALANCE_SET ends: the host mask and its duration are replaced (03 R114). -/
def State.setHostMask (s : State) (u : Fin 128) (mask dur : Nat) : State :=
  (s.onLink u (fun l => { l with
    hostMask := BitVec.ofNat 16 mask, hostDur := dur, hostFrom := if l.reached then some s.now else none })).settleMask u

theorem State.setHostMask_eq_with (s : State) (u : Fin 128) (mask dur : Nat) :
    s.setHostMask u mask dur = { s with ulink := (s.setHostMask u mask dur).ulink } :=
  State.settleMask_eq_with _ u

theorem State.setHostMask_at (s : State) (u : Fin 128) (mask dur : Nat) :
    ((s.setHostMask u mask dur).ulink.at u).hostMask = BitVec.ofNat 16 mask ∧ ((s.setHostMask u mask dur).ulink.at u).hostDur = dur := by
  unfold State.setHostMask
  obtain ⟨applied, stale, h⟩ := State.settleMask_at (s.onLink u (fun l => { l with
    hostMask := BitVec.ofNat 16 mask, hostDur := dur, hostFrom := if l.reached then some s.now else none })) u
  rw [h]
  simp [State.onLink]

theorem State.setHostMask_at_of_ne (s : State) {u v : Fin 128} (mask dur : Nat) (h : v ≠ u) :
    (s.setHostMask u mask dur).ulink.at v = s.ulink.at v :=
  (State.settleMask_at_of_ne _ h).trans (Bank.at_upd_of_ne _ _ (Ne.symm h))

theorem exec_balanceSet {s : State} {c : Cmd} {f : Flight} {i : Fin 32} {k : Fin 4} (h : Executing s c f) (hi : opByte c 0 = i.val)
    (hk : opByte c 1 = k.val) (hunit : s.isMc16 (unitPos i k) = true) (hserves : (s.stalls.at i).oos = false) :
    exec (.balanceSet c) s = answer s (((s.executing c).setHostMask (unitPos i k) (opField c 2 2) (opField c 4 2)).complete c stSuccess
      (dwords (opField c 2 2) 0 0 0)) := by
  refine (exec_of_run h rfl).trans (congrArg (answer s) ?_)
  have hiLt : opByte c 0 < 32 := hi ▸ i.isLt
  have hkLt : opByte c 1 < 4 := hk ▸ k.isLt
  have hpos : unitPos ⟨opByte c 0, hiLt⟩ ⟨opByte c 1, hkLt⟩ = unitPos i k := by congr 1 <;> exact Fin.ext (by assumption)
  rw [dif_pos ⟨hiLt, hkLt⟩, hpos]
  have hmc : (s.executing c).isMc16 (unitPos i k) = true := hunit
  have hoos : (s.executing c).outOfService (unitPos i k) = false := by rw [State.outOfService, stallOf_unitPos]; exact hserves
  simp only [hmc, hoos]
  rfl

theorem exec_balanceSet_bad {s : State} {c : Cmd} {f : Flight} (h : Executing s c f) (hbad : 32 ≤ opByte c 0 ∨ 4 ≤ opByte c 1) :
    exec (.balanceSet c) s = answer s ((s.executing c).badOperand c) :=
  (exec_of_run h rfl).trans (congrArg (answer s) (dif_neg (by omega)))

theorem exec_balanceDurationExpiry {s : State} {u : Fin 128} {since : Nat} (hfrom : (s.ulink.at u).hostFrom = some since)
    (hdur : 0 < (s.ulink.at u).hostDur) (hdue : since + 64000000 * (s.ulink.at u).hostDur ≤ s.now) :
    exec (.balanceDurationExpiry u) s =
      answer s ((s.onLink u (fun l => { l with hostMask := 0, hostDur := 0, hostFrom := none })).settleMask u) := by
  have hdue' : since + (s.ulink.at u).hostDur * ticksPerS ≤ s.now := by rw [Nat.mul_comm]; exact hdue
  refine congrArg (answer s) ?_
  simp only [hfrom, hdur, hdue', and_self, if_true]

/-- Settles O19: a mask that BALANCE_SET sets, one that runs out, and the lease with the mask in force. -/
theorem balancingMasks : Obligations.BalancingMasks := by
  refine ⟨fun c f i k s h hi hk hunit hserves => ?set, fun c f s h hbad => ?bad, fun u since s hfrom hdur hdue => ?expiry,
    fun u s hdriven hbal hidle => ?lease⟩
  case set =>
    have hwith := (s.executing c).setHostMask_eq_with (unitPos i k) (opField c 2 2) (opField c 4 2)
    have hmask : opField c 2 2 < 2 ^ 32 := Nat.lt_trans (opField_lt c 2 2) (by decide)
    refine answers_of_complete (exec_balanceSet h hi hk hunit hserves) (h.ending.of_eq ?_ ?_ ?_) ?_ fun t hc ht => ⟨?_, ?_, ?_, ?_, ?_⟩
    case refine_5 => rwa [dwords_one hmask] at hc
    case refine_6 => rw [ht]; exact (State.setHostMask_at _ _ _ _).1
    case refine_7 => rw [ht]; exact (State.setHostMask_at _ _ _ _).2
    case refine_8 => intro u hu; rw [ht]; exact State.setHostMask_at_of_ne _ _ _ hu
    case refine_9 => rw [ht, hwith]; rfl
    all_goals rw [hwith]
    rfl
  case bad => exact (answers_badOperand h (exec_balanceSet_bad h hbad)).imp fun t ⟨hc, ht⟩ => ⟨hc, by rw [ht]⟩
  case expiry =>
    have hwith := State.settleMask_eq_with (s.onLink u (fun l => { l with hostMask := 0, hostDur := 0, hostFrom := none })) u
    obtain ⟨applied, stale, hat⟩ := State.settleMask_at (s.onLink u (fun l => { l with hostMask := 0, hostDur := 0, hostFrom := none })) u
    refine answers_of_exec_of_evt_eq (exec_balanceDurationExpiry hfrom hdur hdue) (by rw [hwith]; rfl) ⟨?_, ?_, ?_⟩
    · rw [hat]; simp [State.onLink]
    · rw [hat]; simp [State.onLink]
    · rw [hwith]; rfl
  case lease =>
    have hrun : (s.stalls.at (stallOf u)).enumerating = false := by rw [Stall.enumerating, hidle]
    refine answers_of_exec_of_evt_eq (u := s.sendBalance u) (congrArg (answer s) (if_pos ⟨hdriven, hbal, hrun⟩)) rfl ⟨?_, rfl, rfl⟩
    simp [State.sendBalance, State.sendLink, State.onLink, State.emit]

end Sys2Proof.Machine
end

section
/-! SUPPORT. What the arrival of a sweep or of a current leaves of the stalls and the links (03, 04). -/

namespace Sys2Proof.Machine

/-- The link part of a unit, with the masks in force forgotten (03). -/
def UnitLink.noMasks (l : UnitLink) : UnitLink := { l with applied := 0, stale := false, excMask := none }

/-- The links of the units, with the masks in force forgotten: their roster, their reach, their losses and leases (03). -/
def State.links (s : State) : Bank 128 UnitLink := s.ulink.each (fun _ => UnitLink.noMasks)

theorem State.links_of_ulink {s t : State} (h : t.ulink = s.ulink) : t.links = s.links := by
  simp only [State.links, h]

theorem State.links_at (s : State) (u : Fin 128) : s.links.at u = (s.ulink.at u).noMasks := Bank.at_each _ _ _

theorem State.links_onLink (s : State) (u : Fin 128) (f : UnitLink → UnitLink) (h : ∀ l, (f l).noMasks = l.noMasks) :
    (s.onLink u f).links = s.links := by
  refine Vector.ext fun k hk => ?_
  refine (State.links_at _ ⟨k, hk⟩).trans (Eq.trans ?_ (State.links_at _ ⟨k, hk⟩).symm)
  by_cases e : u = ⟨k, hk⟩
  · subst e
    simp [State.onLink, h]
  · simp [State.onLink, Bank.at_upd_of_ne _ _ e]

@[simp] theorem State.draw_links (s : State) : s.draw.2.stalls = s.stalls ∧ s.draw.2.links = s.links := ⟨rfl, rfl⟩

@[simp] theorem State.foldl_stalls {α : Type} (l : List α) (f : State → α → State) (h : ∀ t a, (f t a).stalls = t.stalls)
    (s : State) : (l.foldl f s).stalls = s.stalls :=
  List.foldlRecOn l f (motive := fun t => t.stalls = s.stalls) rfl fun _ ht a _ => (h _ a).trans ht

@[simp] theorem State.foldl_links {α : Type} (l : List α) (f : State → α → State) (h : ∀ t a, (f t a).links = t.links)
    (s : State) : (l.foldl f s).links = s.links :=
  List.foldlRecOn l f (motive := fun t => t.links = s.links) rfl fun _ ht a _ => (h _ a).trans ht

@[simp] theorem State.onSweep_links (s : State) (u : Fin 128) (f : UnitSweep → UnitSweep) :
    (s.onSweep u f).stalls = s.stalls ∧ (s.onSweep u f).links = s.links :=
  ⟨by simp, State.links_of_ulink (by simp)⟩

@[simp] theorem State.onInteg_links (s : State) (u : Fin 128) (f : UnitInteg → UnitInteg) :
    (s.onInteg u f).stalls = s.stalls ∧ (s.onInteg u f).links = s.links :=
  ⟨by simp, State.links_of_ulink (by simp)⟩

@[simp] theorem State.onCal_links (s : State) (u : Fin 128) (f : UnitCal → UnitCal) :
    (s.onCal u f).stalls = s.stalls ∧ (s.onCal u f).links = s.links :=
  ⟨by simp, State.links_of_ulink (by simp)⟩

@[simp] theorem State.onEst_links (s : State) (u : Fin 128) (f : EstUnit → EstUnit) :
    (s.onEst u f).stalls = s.stalls ∧ (s.onEst u f).links = s.links :=
  ⟨by simp, State.links_of_ulink (by simp)⟩

@[simp] theorem State.onEstr_links (s : State) (i : Fin 4) (f : EstString → EstString) :
    (s.onEstr i f).stalls = s.stalls ∧ (s.onEstr i f).links = s.links :=
  ⟨by simp, State.links_of_ulink (by simp)⟩

@[simp] theorem State.onStr_links (s : State) (i : Fin 4) (f : Str → Str) : (s.onStr i f).stalls = s.stalls ∧ (s.onStr i f).links = s.links :=
  ⟨by simp, State.links_of_ulink (by simp)⟩

@[simp] theorem State.onSwc_links (s : State) (ch : Fin 24) (f : Swc → Swc) : (s.onSwc ch f).stalls = s.stalls ∧ (s.onSwc ch f).links = s.links :=
  ⟨by simp, State.links_of_ulink (by simp)⟩

@[simp] theorem State.sramStore_links (s : State) (key : Nat) (bytes : List Byte) :
    (s.sramStore key bytes).stalls = s.stalls ∧ (s.sramStore key bytes).links = s.links :=
  ⟨by simp, State.links_of_ulink (by simp)⟩

@[simp] theorem State.studbook_links (s : State) (trigger : BitVec 6) (subject : Nat) (detail : List Byte) :
    (s.studbook trigger subject detail).stalls = s.stalls ∧ (s.studbook trigger subject detail).links = s.links :=
  ⟨by simp, State.links_of_ulink (by simp)⟩

@[simp] theorem State.complete_links (s : State) (c : Cmd) (status : BitVec 8) (result : BitVec 128) :
    (s.complete c status result).stalls = s.stalls ∧ (s.complete c status result).links = s.links :=
  ⟨by simp, State.links_of_ulink (by simp)⟩

@[simp] theorem State.ok_links (s : State) (c : Cmd) (result : BitVec 128) : (s.ok c result).stalls = s.stalls ∧ (s.ok c result).links = s.links :=
  ⟨by simp, State.links_of_ulink (by simp)⟩

@[simp] theorem State.settleMask_links (s : State) (u : Fin 128) : (s.settleMask u).stalls = s.stalls ∧ (s.settleMask u).links = s.links := by
  unfold State.settleMask
  dsimp only
  split
  · exact ⟨rfl, rfl⟩
  · exact ⟨rfl, State.links_onLink _ _ _ fun _ => rfl⟩

@[simp] theorem State.turnOn_links (s : State) (ch : Fin 24) : (s.turnOn ch).stalls = s.stalls ∧ (s.turnOn ch).links = s.links := by
  unfold State.turnOn
  split
  · split <;> simp
  · simp

@[simp] theorem State.turnOff_links (s : State) (ch : Fin 24) : (s.turnOff ch).stalls = s.stalls ∧ (s.turnOff ch).links = s.links := by
  simp [State.turnOff]

@[simp] theorem State.settleOut_links (s : State) (ch : Fin 24) : (s.settleOut ch).stalls = s.stalls ∧ (s.settleOut ch).links = s.links := by
  unfold State.settleOut
  dsimp only
  repeat' split
  all_goals simp

@[simp] theorem State.command_links (s : State) (ch : Fin 24) (on : Bool) :
    (s.command ch on).stalls = s.stalls ∧ (s.command ch on).links = s.links := by
  simp [State.command]

@[simp] theorem State.strEvent_links (s : State) (base : Nat) (str : Fin 4) :
    (s.strEvent base str).stalls = s.stalls ∧ (s.strEvent base str).links = s.links :=
  ⟨rfl, rfl⟩

@[simp] theorem State.abortShunt_links (s : State) (str : Fin 4) : (s.abortShunt str).stalls = s.stalls ∧ (s.abortShunt str).links = s.links := by
  unfold State.abortShunt
  dsimp only
  split
  · exact ⟨rfl, rfl⟩
  · rw [State.foldl_stalls _ _ (fun t c => (t.complete_links c _ _).1), State.foldl_links _ _ (fun t c => (t.complete_links c _ _).2)]
    split <;> exact ⟨by simp, State.links_of_ulink (by simp)⟩

@[simp] theorem State.stopExcitation_links (s : State) (str : Fin 4) :
    (s.stopExcitation str).stalls = s.stalls ∧ (s.stopExcitation str).links = s.links := by
  unfold State.stopExcitation
  split
  · have h : ∀ (t : State) (u : Fin 128), ((t.onLink u (fun l => { l with excMask := none })).settleMask u).stalls = t.stalls ∧
        ((t.onLink u (fun l => { l with excMask := none })).settleMask u).links = t.links := fun t u => by
      rw [(State.settleMask_links _ u).1, (State.settleMask_links _ u).2]
      exact ⟨rfl, State.links_onLink _ _ _ fun _ => rfl⟩
    exact ⟨State.foldl_stalls _ _ (fun t u => (h t u).1) _, State.foldl_links _ _ (fun t u => (h t u).2) _⟩
  · exact ⟨rfl, rfl⟩

@[simp] theorem State.enterStr_links (s : State) (str : Fin 4) (new : StrState) (cause : Nat) (stamp : BitVec 32) :
    (s.enterStr str new cause stamp).stalls = s.stalls ∧ (s.enterStr str new cause stamp).links = s.links := by
  unfold State.enterStr
  extract_lets old s1 s2 s3 s4 s5 s6 s7 s8
  have h3 : s3.stalls = s.stalls ∧ s3.links = s.links := by
    unfold s3
    split <;> simp [s2, s1, State.links_of_ulink]
  have h4 : s4.stalls = s.stalls ∧ s4.links = s.links := by
    unfold s4
    split <;> simp [h3]
  have h5 : s5.stalls = s.stalls ∧ s5.links = s.links := by
    unfold s5
    split <;> simp [h4]
  clear_value s5
  split
  · exact ⟨h5.1, (State.links_of_ulink (s := s5) rfl).trans h5.2⟩
  · exact h5

@[simp] theorem State.cmdContactor_links (s : State) (str : Fin 4) (k : Fin 3) (on : Bool) :
    (s.cmdContactor str k on).stalls = s.stalls ∧ (s.cmdContactor str k on).links = s.links := by
  unfold State.cmdContactor
  dsimp only
  repeat' split
  all_goals simp

@[simp] theorem State.withdraw_links (s : State) (str : Fin 4) : (s.withdraw str).stalls = s.stalls ∧ (s.withdraw str).links = s.links := by
  simp [State.withdraw]

@[simp] theorem State.closeRefused_links (s : State) (str : Fin 4) (code d3 : Nat) :
    (s.closeRefused str code d3).stalls = s.stalls ∧ (s.closeRefused str code d3).links = s.links := by
  unfold State.closeRefused
  split <;> simp

@[simp] theorem State.openDone_links (s : State) (str : Fin 4) (welded : Bool) :
    (s.openDone str welded).stalls = s.stalls ∧ (s.openDone str welded).links = s.links := by
  simp [State.openDone]

@[simp] theorem State.enterWelded_links (s : State) (str : Fin 4) (e : WeldStat) :
    (s.enterWelded str e).stalls = s.stalls ∧ (s.enterWelded str e).links = s.links := by
  simp [State.enterWelded]

@[simp] theorem State.weldEval_links (s : State) (str : Fin 4) : (s.weldEval str).stalls = s.stalls ∧ (s.weldEval str).links = s.links := by
  unfold State.weldEval
  dsimp only
  repeat' split
  all_goals simp

@[simp] theorem State.weldedEval_links (s : State) (str : Fin 4) : (s.weldedEval str).stalls = s.stalls ∧ (s.weldedEval str).links = s.links := by
  unfold State.weldedEval
  split <;> simp

@[simp] theorem State.startWeldCheck_links (s : State) (str : Fin 4) (cause : Nat) (stamp : BitVec 32) :
    (s.startWeldCheck str cause stamp).stalls = s.stalls ∧ (s.startWeldCheck str cause stamp).links = s.links := by
  simp [State.startWeldCheck]

@[simp] theorem State.weldPeers_links (s : State) : (s.weldPeers).stalls = s.stalls ∧ (s.weldPeers).links = s.links := by
  simp [State.weldPeers]

@[simp] theorem State.preFault_links (s : State) (str : Fin 4) (code : BitVec 3) :
    (s.preFault str code).stalls = s.stalls ∧ (s.preFault str code).links = s.links := by
  simp [State.preFault]

@[simp] theorem State.preDone_links (s : State) (str : Fin 4) : (s.preDone str).stalls = s.stalls ∧ (s.preDone str).links = s.links := by
  simp [State.preDone]

@[simp] theorem State.preComplete_links (s : State) (str : Fin 4) (inst : Nat) :
    (s.preComplete str inst).stalls = s.stalls ∧ (s.preComplete str inst).links = s.links := by
  unfold State.preComplete
  repeat' split
  all_goals simp

@[simp] theorem State.preParallel_links (s : State) (str : Fin 4) :
    (s.preParallel str).stalls = s.stalls ∧ (s.preParallel str).links = s.links := by
  unfold State.preParallel
  dsimp only
  repeat' split
  all_goals simp

@[simp] theorem State.cnPhaseFail_links (s : State) (str : Fin 4) :
    (s.cnPhaseFail str).stalls = s.stalls ∧ (s.cnPhaseFail str).links = s.links := by
  simp [State.cnPhaseFail]

@[simp] theorem State.onVLink_links (s : State) (str : Fin 4) (inst : Nat) :
    (s.onVLink str inst).stalls = s.stalls ∧ (s.onVLink str inst).links = s.links := by
  unfold State.onVLink
  repeat' split
  all_goals simp

@[simp] theorem State.onIMain_links (s : State) (str : Fin 4) : (s.onIMain str).stalls = s.stalls ∧ (s.onIMain str).links = s.links := by
  unfold State.onIMain
  split <;> simp

@[simp] theorem State.onIso_links (s : State) (str : Fin 4) : (s.onIso str).stalls = s.stalls ∧ (s.onIso str).links = s.links := by
  unfold State.onIso
  dsimp only
  split <;> simp

@[simp] theorem State.onTemps_links (s : State) (str : Fin 4) : (s.onTemps str).stalls = s.stalls ∧ (s.onTemps str).links = s.links := by
  unfold State.onTemps
  split <;> simp

@[simp] theorem State.writeImage_links (s : State) (u : Fin 128) : (s.writeImage u).stalls = s.stalls ∧ (s.writeImage u).links = s.links := by
  simp [State.writeImage]

@[simp] theorem State.formRecords_links (s : State) (u : Fin 128) : (s.formRecords u).stalls = s.stalls ∧ (s.formRecords u).links = s.links := by
  unfold State.formRecords
  dsimp only
  split <;> simp

@[simp] theorem State.compare_links (s : State) (u : Fin 128) (str : Fin 4) (key : Nat) (k : TripKind) (verdict : Option (Bool × Bool)) :
    (s.compare u str key k verdict).stalls = s.stalls ∧ (s.compare u str key k verdict).links = s.links := by
  unfold State.compare
  split
  · exact ⟨rfl, rfl⟩
  · dsimp only
    repeat' split
    all_goals exact ⟨by simp, State.links_of_ulink (by simp)⟩

@[simp] theorem State.compareSweep_links (s : State) (u : Fin 128) (str : Fin 4) (smp : List (BitVec 8 × Sample)) :
    (s.compareSweep u str smp).stalls = s.stalls ∧ (s.compareSweep u str smp).links = s.links := by
  simp [State.compareSweep, apply_ite State.links, apply_ite State.stalls, State.links_of_ulink]

@[simp] theorem State.comparePair_links (s : State) (u : Fin 128) (str : Fin 4) (m c : Sample) :
    (s.comparePair u str m c).stalls = s.stalls ∧ (s.comparePair u str m c).links = s.links := by
  simp [State.comparePair]

@[simp] theorem State.runSweep_links (s : State) (u : Fin 128) (start : Nat) (a b : Option Int) :
    (s.runSweep u start a b).stalls = s.stalls ∧ (s.runSweep u start a b).links = s.links := by
  unfold State.runSweep
  repeat' split
  all_goals simp

@[simp] theorem State.driftSweep_links (s : State) (u : Fin 128) (a b : Option Int) :
    (s.driftSweep u a b).stalls = s.stalls ∧ (s.driftSweep u a b).links = s.links := by
  simp [State.driftSweep]

@[simp] theorem State.shuntFrame_links (s : State) (str : Fin 4) (g : Nat) (m c : BitVec 18) :
    (s.shuntFrame str g m c).stalls = s.stalls ∧ (s.shuntFrame str g m c).links = s.links := by
  unfold State.shuntFrame
  split
  · dsimp only
    split <;> exact ⟨rfl, rfl⟩
  · exact ⟨rfl, rfl⟩

@[simp] theorem State.estSweep_links (s : State) (u : Fin 128) (str : Fin 4) :
    (s.estSweep u str).stalls = s.stalls ∧ (s.estSweep u str).links = s.links := by
  unfold State.estSweep
  dsimp only
  split <;> simp

@[simp] theorem State.estCurrent_links (s : State) (u : Fin 128) (str : Fin 4) :
    (s.estCurrent u str).stalls = s.stalls ∧ (s.estCurrent u str).links = s.links := by
  unfold State.estCurrent
  repeat' split
  all_goals simp

@[simp] theorem State.estAbs_links (s : State) (str : Fin 4) (ma : Nat) :
    (s.estAbs str ma).stalls = s.stalls ∧ (s.estAbs str ma).links = s.links := by
  simp [State.estAbs]

@[simp] theorem State.trimsMissed_links (s : State) (u : Fin 128) : (s.trimsMissed u).stalls = s.stalls ∧ (s.trimsMissed u).links = s.links := by
  simp [State.trimsMissed]

@[simp] theorem State.pairArrives_links (s : State) (u : Fin 128) (str : Fin 4) (g : Nat) (pair : Option (BitVec 18 × BitVec 18)) :
    (s.pairArrives u str g pair).stalls = s.stalls ∧ (s.pairArrives u str g pair).links = s.links := by
  unfold State.pairArrives
  dsimp only
  repeat' split
  all_goals simp

@[simp] theorem State.mp4Arrives_links (s : State) (str : Fin 4) (n : Sweep) (smp : List (BitVec 8 × Sample)) :
    (s.mp4Arrives str n smp).stalls = s.stalls ∧ (s.mp4Arrives str n smp).links = s.links := by
  unfold State.mp4Arrives
  split <;> simp

@[simp] theorem State.markAges_links (s : State) (u : Fin 128) : (s.markAges u).stalls = s.stalls ∧ (s.markAges u).links = s.links := by
  unfold State.markAges
  dsimp only
  repeat' split
  all_goals simp

@[simp] theorem State.checkSweep_links (s : State) (u : Fin 128) (n : Sweep) (smp : List (BitVec 8 × Sample)) :
    (s.checkSweep u n smp).stalls = s.stalls ∧ (s.checkSweep u n smp).links = s.links := by
  unfold State.checkSweep
  dsimp only
  repeat' split
  all_goals simp

@[simp] theorem State.mc16Arrives_links (s : State) (u : Fin 128) (str : Fin 4) (n : Sweep) (smp : List (BitVec 8 × Sample)) :
    (s.mc16Arrives u str n smp).stalls = s.stalls ∧ (s.mc16Arrives u str n smp).links = s.links := by
  simp [State.mc16Arrives]

@[simp] theorem State.sweepArrives_links (s : State) (u : Fin 128) (str : Fin 4) (start : Nat) (raw : Option (List (BitVec 18)))
    (flags : BitVec 15) :
    (s.sweepArrives u str start raw flags).stalls = s.stalls ∧ (s.sweepArrives u str start raw flags).links = s.links := by
  have h : ∀ n, (s.arriving u n).1.stalls = s.stalls ∧ (s.arriving u n).1.links = s.links := fun n => by
    simp [State.arriving]
  unfold State.sweepArrives
  extract_lets n
  have hn := h n
  generalize s.arriving u n = a at hn
  obtain ⟨t, smp⟩ := a
  dsimp only at hn ⊢
  repeat' split
  all_goals simp [hn]

end Sys2Proof.Machine
end

section
/-! SUPPORT. What the work of a frame edge leaves of the time, the islands, the stalls and the output (03 R87, R88). -/

namespace Sys2Proof.Machine

@[simp] theorem State.foldl_clk {α : Type} (l : List α) (f : State → α → State) (h : ∀ t a, (f t a).clk = t.clk)
    (s : State) : (l.foldl f s).clk = s.clk :=
  List.foldlRecOn l f (motive := fun t => t.clk = s.clk) rfl fun _ ht a _ => (h _ a).trans ht

@[simp] theorem State.foldl_isl {α : Type} (l : List α) (f : State → α → State) (h : ∀ t a, (f t a).isl = t.isl)
    (s : State) : (l.foldl f s).isl = s.isl :=
  List.foldlRecOn l f (motive := fun t => t.isl = s.isl) rfl fun _ ht a _ => (h _ a).trans ht

@[simp] theorem State.foldl_out {α : Type} (l : List α) (f : State → α → State) (h : ∀ t a, (f t a).out = t.out)
    (s : State) : (l.foldl f s).out = s.out :=
  List.foldlRecOn l f (motive := fun t => t.out = s.out) rfl fun _ ht a _ => (h _ a).trans ht

@[simp] theorem State.writeSense_edge (s : State) (ch : Fin 24) (tag : Nat) :
    (s.writeSense ch tag).clk = s.clk ∧
    (s.writeSense ch tag).isl = s.isl ∧
    (s.writeSense ch tag).stalls = s.stalls ∧
    (s.writeSense ch tag).out = s.out := by
  simp [State.writeSense]

@[simp] theorem State.takeSample_edge (s : State) (ch : Fin 24) (ma : Nat) (sat settling : Bool) (tag : Nat) :
    (s.takeSample ch ma sat settling tag).clk = s.clk ∧
    (s.takeSample ch ma sat settling tag).isl = s.isl ∧
    (s.takeSample ch ma sat settling tag).stalls = s.stalls ∧
    (s.takeSample ch ma sat settling tag).out = s.out := by
  simp [State.takeSample]

@[simp] theorem State.sampleContactors_edge (s : State) (mv : Bank 12 Nat) :
    (s.sampleContactors mv).clk = s.clk ∧
    (s.sampleContactors mv).isl = s.isl ∧
    (s.sampleContactors mv).stalls = s.stalls ∧
    (s.sampleContactors mv).out = s.out := by
  simp [State.sampleContactors]

@[simp] theorem State.dropDetail_edge (s : State) (d : Detail) (w : Nat) :
    (s.dropDetail d w).clk = s.clk ∧ (s.dropDetail d w).isl = s.isl ∧
    (s.dropDetail d w).stalls = s.stalls ∧ (s.dropDetail d w).out = s.out := by
  simp [State.dropDetail]

@[simp] theorem State.applyTrips_edge (s : State) :
    s.applyTrips.clk = s.clk ∧ s.applyTrips.isl = s.isl ∧ s.applyTrips.stalls = s.stalls ∧ s.applyTrips.out = s.out := by
  simp [State.applyTrips, apply_ite State.clk, apply_ite State.isl, apply_ite State.out, apply_ite State.stalls]

@[simp] theorem State.onWb_edge (s : State) (str : Fin 4) (f : WbStr → WbStr) :
    (s.onWb str f).clk = s.clk ∧ (s.onWb str f).isl = s.isl ∧ (s.onWb str f).stalls = s.stalls ∧ (s.onWb str f).out = s.out := by
  simp [State.onWb]

@[simp] theorem State.wbEvent_edge (s : State) (n : Nat) :
    (s.wbEvent n).clk = s.clk ∧ (s.wbEvent n).isl = s.isl ∧ (s.wbEvent n).stalls = s.stalls ∧ (s.wbEvent n).out = s.out := by
  simp [State.wbEvent]

@[simp] theorem State.writeCounters_edge (s : State) (str : Fin 4) :
    (s.writeCounters str).clk = s.clk ∧
    (s.writeCounters str).isl = s.isl ∧
    (s.writeCounters str).stalls = s.stalls ∧
    (s.writeCounters str).out = s.out := by
  simp [State.writeCounters]

@[simp] theorem State.wbFrame_edge (s : State) (str : Fin 4) (f : Nat) :
    (s.wbFrame str f).clk = s.clk ∧ (s.wbFrame str f).isl = s.isl ∧ (s.wbFrame str f).stalls = s.stalls ∧ (s.wbFrame str f).out = s.out := by
  unfold State.wbFrame
  dsimp only
  repeat' split
  all_goals simp

@[simp] theorem State.applyTariff_edge (s : State) (p : TariffPend) :
    (s.applyTariff p).clk = s.clk ∧ (s.applyTariff p).isl = s.isl ∧ (s.applyTariff p).stalls = s.stalls ∧ (s.applyTariff p).out = s.out := by
  simp [State.applyTariff, apply_ite State.clk, apply_ite State.isl, apply_ite State.out, apply_ite State.stalls]

@[simp] theorem State.applyWb_edge (s : State) :
    s.applyWb.clk = s.clk ∧ s.applyWb.isl = s.isl ∧ s.applyWb.stalls = s.stalls ∧ s.applyWb.out = s.out := by
  unfold State.applyWb
  extract_lets q _ s1 s2
  have h : s2.clk = s.clk ∧ s2.isl = s.isl ∧ s2.stalls = s.stalls ∧ s2.out = s.out := by simp [s2, s1]
  clear_value s2
  split
  · exact h
  · refine ⟨(State.foldl_clk _ _ (fun t i => ?_) _).trans h.1, (State.foldl_isl _ _ (fun t i => ?_) _).trans h.2.1,
      (State.foldl_stalls _ _ (fun t i => ?_) _).trans h.2.2.1, (State.foldl_out _ _ (fun t i => ?_) _).trans h.2.2.2⟩
    all_goals (split <;> simp)

@[simp] theorem State.snapshot_edge (s : State) (x : Stmt) :
    (s.snapshot x).clk = s.clk ∧ (s.snapshot x).isl = s.isl ∧ (s.snapshot x).stalls = s.stalls ∧ (s.snapshot x).out = s.out := by
  unfold State.snapshot
  dsimp only
  repeat' split
  all_goals simp

@[simp] theorem State.stmtEdge_edge (s : State) :
    s.stmtEdge.clk = s.clk ∧ s.stmtEdge.isl = s.isl ∧ s.stmtEdge.stalls = s.stalls ∧ s.stmtEdge.out = s.out := by
  unfold State.stmtEdge
  dsimp only
  repeat' split
  all_goals simp

@[simp] theorem State.wbEdge_edge (s : State) :
    s.wbEdge.clk = s.clk ∧ s.wbEdge.isl = s.isl ∧ s.wbEdge.stalls = s.stalls ∧ s.wbEdge.out = s.out := by
  unfold State.wbEdge
  dsimp only
  split <;> simp

end Sys2Proof.Machine
end

section
/-! SUPPORT. What a stall's work at a frame edge leaves of the other stalls (03). -/

namespace Sys2Proof.Machine

/-- What the work of one stall at a frame edge leaves: every other stall, and every part of the state but the units, the events, the studbook's
crossing and the commands that wait for an enumeration (03). -/
def State.besidesStall (s : State) (i : Fin 32) : State :=
  { s with
    evt := {}, cross := {}, hif := {}, rings := Bank.fill 16 {}, ulink := Bank.fill 128 {}, uswp := Bank.fill 128 {}, uint := Bank.fill 128 {}
    ucal := Bank.fill 128 {}, integ := {}, stb := {}, stalls := s.stalls.put i {}, out := [] }

@[simp] theorem State.besidesStall_with (s : State) (i : Fin 32) (evt : Evts) (cross : Crossings) (hif : Hif) (rings : Bank 16 Ring)
    (ulink : Bank 128 UnitLink) (uswp : Bank 128 UnitSweep) (uint : Bank 128 UnitInteg) (ucal : Bank 128 UnitCal) (integ : Integ) (stb : Stb)
    (out : List OutEvent) : State.besidesStall { s with
      evt := evt, cross := cross, hif := hif, rings := rings, ulink := ulink, uswp := uswp, uint := uint, ucal := ucal, integ := integ
      stb := stb, out := out } i = s.besidesStall i := rfl

@[simp] theorem State.onStall_besidesStall (s : State) (i : Fin 32) (f : Stall → Stall) : (s.onStall i f).besidesStall i = s.besidesStall i := by
  simp only [State.onStall, State.besidesStall, Bank.put_upd_same]

/-- A fold over what belongs to one stall. -/
theorem State.foldl_besidesStall {α : Type} (i : Fin 32) (l : List α) (f : State → α → State)
    (h : ∀ t a, a ∈ l → (f t a).besidesStall i = t.besidesStall i) (s : State) : (l.foldl f s).besidesStall i = s.besidesStall i :=
  List.foldlRecOn l f (motive := fun t => t.besidesStall i = s.besidesStall i) rfl fun _ ht a ha => (h _ a ha).trans ht

theorem stallOf_of_mem {i : Fin 32} {u : Fin 128} (h : u ∈ unitsOf i) : stallOf u = i := by
  simp only [unitsOf, List.mem_cons, List.not_mem_nil, or_false] at h
  rcases h with rfl | rfl | rfl | rfl <;> exact stallOf_unitPos _ _

@[simp] theorem State.foldl_units_besidesStall (i : Fin 32) (f : State → Fin 128 → State)
    (h : ∀ t u, (f t u).besidesStall (stallOf u) = t.besidesStall (stallOf u)) (s : State) :
    ((unitsOf i).foldl f s).besidesStall i = s.besidesStall i :=
  State.foldl_besidesStall i _ _ (fun t u hu => stallOf_of_mem hu ▸ h t u) s

@[simp] theorem State.foldl_all_besidesStall {α : Type} (i : Fin 32) (l : List α) (f : State → α → State)
    (h : ∀ t a, (f t a).besidesStall i = t.besidesStall i) (s : State) : (l.foldl f s).besidesStall i = s.besidesStall i :=
  State.foldl_besidesStall i l f (fun t a _ => h t a) s

@[simp] theorem State.onLink_besidesStall (s : State) (u : Fin 128) (f : UnitLink → UnitLink) (j : Fin 32) :
    (s.onLink u f).besidesStall j = s.besidesStall j := by
  simp [State.onLink]

@[simp] theorem State.onSweep_besidesStall (s : State) (u : Fin 128) (f : UnitSweep → UnitSweep) (j : Fin 32) :
    (s.onSweep u f).besidesStall j = s.besidesStall j := by
  simp [State.onSweep]

@[simp] theorem State.onCal_besidesStall (s : State) (u : Fin 128) (f : UnitCal → UnitCal) (j : Fin 32) :
    (s.onCal u f).besidesStall j = s.besidesStall j := by
  simp [State.onCal]

@[simp] theorem State.emit_besidesStall (s : State) (e : OutEvent) (j : Fin 32) : (s.emit e).besidesStall j = s.besidesStall j := rfl

@[simp] theorem State.recorderTakes_besidesStall (s : State) (q : StbReq) (j : Fin 32) :
    (s.recorderTakes q).besidesStall j = s.besidesStall j := by
  unfold State.recorderTakes
  repeat' split
  all_goals simp

@[simp] theorem State.studbook_besidesStall (s : State) (trigger : BitVec 6) (subject : Nat) (detail : List Byte) (j : Fin 32) :
    (s.studbook trigger subject detail).besidesStall j = s.besidesStall j := by
  unfold State.studbook
  split <;> simp

@[simp] theorem State.refreshEligible_besidesStall (s : State) (j : Fin 32) : s.refreshEligible.besidesStall j = s.besidesStall j := by
  simp [State.refreshEligible]

@[simp] theorem State.complete_besidesStall (s : State) (c : Cmd) (status : BitVec 8) (result : BitVec 128) (j : Fin 32) :
    (s.complete c status result).besidesStall j = s.besidesStall j := by
  unfold State.complete
  split <;> simp

@[simp] theorem State.ok_besidesStall (s : State) (c : Cmd) (result : BitVec 128) (j : Fin 32) :
    (s.ok c result).besidesStall j = s.besidesStall j := by
  simp [State.ok]

@[simp] theorem State.restartWindow_besidesStall (s : State) (u : Fin 128) (from_ : Nat) :
    (s.restartWindow u from_).besidesStall (stallOf u) = s.besidesStall (stallOf u) := by
  simp [State.restartWindow]

@[simp] theorem State.restartHistory_besidesStall (s : State) (u : Fin 128) (from_ : Nat) (codes : List (BitVec 8)) (rate : BitVec 2) :
    (s.restartHistory u from_ codes rate).besidesStall (stallOf u) = s.besidesStall (stallOf u) := by
  simp [State.restartHistory]

@[simp] theorem State.queueLink_besidesStall (s : State) (i : Fin 32) (l : List LinkSlot) :
    (s.queueLink i l).besidesStall i = s.besidesStall i := by
  simp [State.queueLink]

@[simp] theorem State.applyAverage_besidesStall (s : State) (i : Fin 32) : (s.applyAverage i).besidesStall i = s.besidesStall i := by
  unfold State.applyAverage
  refine (State.foldl_besidesStall i _ _ (fun t a _ => ?_) _).trans (s.onStall_besidesStall i _)
  extract_lets old rate new t1
  clear_value new
  rw [State.ok_besidesStall, State.onStall_besidesStall]
  unfold t1
  split
  · exact State.foldl_units_besidesStall i _ (fun v u => v.restartWindow_besidesStall u _) t
  · rfl

@[simp] theorem State.sendLink_besidesStall (s : State) (i : Fin 32) (k : LinkSlot) : (s.sendLink i k).besidesStall i = s.besidesStall i := by
  simp [State.sendLink]

@[simp] theorem State.sendBalance_besidesStall (s : State) (u : Fin 128) :
    (s.sendBalance u).besidesStall (stallOf u) = s.besidesStall (stallOf u) := by
  simp [State.sendBalance]

@[simp] theorem State.startWireCheck_besidesStall (s : State) (u : Fin 128) :
    (s.startWireCheck u).besidesStall (stallOf u) = s.besidesStall (stallOf u) := by
  simp [State.startWireCheck]

@[simp] theorem State.configureUnit_besidesStall (s : State) (u : Fin 128) (first : Nat) :
    (s.configureUnit u first).besidesStall (stallOf u) = s.besidesStall (stallOf u) := by
  unfold State.configureUnit
  dsimp only
  repeat' split
  all_goals simp

@[simp] theorem State.stallEvent_besidesStall (s : State) (i : Fin 32) : (s.stallEvent i).besidesStall i = s.besidesStall i := rfl

@[simp] theorem State.linkRecord_besidesStall (s : State) (i : Fin 32) (what : Byte) :
    (s.linkRecord i what).besidesStall i = s.besidesStall i := by
  simp [State.linkRecord]

@[simp] theorem State.countLoss_besidesStall (s : State) (i : Fin 32) : (s.countLoss i).besidesStall i = s.besidesStall i := by
  simp [State.countLoss]

@[simp] theorem State.reachUnit_besidesStall (s : State) (u : Fin 128) :
    (s.reachUnit u).besidesStall (stallOf u) = s.besidesStall (stallOf u) := by
  simp [State.reachUnit]

@[simp] theorem State.readTrims_besidesStall (s : State) (u : Fin 128) (again : Nat) :
    (s.readTrims u again).besidesStall (stallOf u) = s.besidesStall (stallOf u) := by
  simp [State.readTrims]

@[simp] theorem State.askTrims_besidesStall (s : State) (u : Fin 128) : (s.askTrims u).besidesStall (stallOf u) = s.besidesStall (stallOf u) := by
  unfold State.askTrims
  repeat' split
  all_goals simp

@[simp] theorem State.kickEnum_besidesStall (s : State) (i : Fin 32) : (s.kickEnum i).besidesStall i = s.besidesStall i := by
  unfold State.kickEnum
  repeat' split
  all_goals simp

@[simp] theorem State.takeUnits_besidesStall (s : State) (i : Fin 32) (first : Nat) :
    (s.takeUnits i first).besidesStall i = s.besidesStall i := by
  unfold State.takeUnits
  refine State.foldl_units_besidesStall i _ (fun t u => ?_) s
  dsimp only
  repeat' split
  all_goals simp

@[simp] theorem State.enumDone_besidesStall (s : State) (i : Fin 32) : (s.enumDone i).besidesStall i = s.besidesStall i := by
  simp [State.enumDone]

@[simp] theorem State.becomeLost_besidesStall (s : State) (i : Fin 32) : (s.becomeLost i).besidesStall i = s.besidesStall i := by
  unfold State.becomeLost
  dsimp only
  split <;> simp

@[simp] theorem State.completeEnum_besidesStall (s : State) (i : Fin 32) (n : Nat) : (s.completeEnum i n).besidesStall i = s.besidesStall i := by
  unfold State.completeEnum
  extract_lets s1 found s2 s3
  have h1 : s1.besidesStall i = s.besidesStall i := State.foldl_units_besidesStall i _ (fun t u => by dsimp only; split <;> simp) s
  have h3 : s3.besidesStall i = s1.besidesStall i := by
    unfold s3
    split <;> simp [s2]
  simpa using h3.trans h1

@[simp] theorem State.completeRejoin_besidesStall (s : State) (i : Fin 32) (first n : Nat) :
    (s.completeRejoin i first n).besidesStall i = s.besidesStall i := by
  unfold State.completeRejoin
  extract_lets s1 s2 s3
  have h1 : s1.besidesStall i = s.besidesStall i := s.onStall_besidesStall i _
  have h2 : s2.besidesStall i = s1.besidesStall i := State.foldl_units_besidesStall i _ (fun t u => by split <;> simp) s1
  have h3 : s3.besidesStall i = s2.besidesStall i := by
    unfold s3
    split <;> simp
  split
  · exact h1
  · simpa using h3.trans (h2.trans h1)

@[simp] theorem State.completeRun_besidesStall (s : State) (i : Fin 32) (r : EnumRun) :
    (s.completeRun i r).besidesStall i = s.besidesStall i := by
  unfold State.completeRun
  split <;> simp

@[simp] theorem State.enumEdge_besidesStall (s : State) (i : Fin 32) : (s.enumEdge i).besidesStall i = s.besidesStall i := by
  unfold State.enumEdge
  repeat' split
  all_goals simp

@[simp] theorem State.sendQueued_besidesStall (s : State) (i : Fin 32) (k : LinkSlot) : (s.sendQueued i k).besidesStall i = s.besidesStall i := by
  unfold State.sendQueued
  split <;> simp

@[simp] theorem State.fillWindow_besidesStall (s : State) (i : Fin 32) : (s.fillWindow i).besidesStall i = s.besidesStall i := by
  unfold State.fillWindow
  extract_lets before s1 stale s2 room q s3 ask
  have h1 : s1.besidesStall i = s.besidesStall i := s.enumEdge_besidesStall i
  have h2 : s2.besidesStall i = s1.besidesStall i := State.foldl_besidesStall i _ _ (fun t u hu => by
    have hi : stallOf u = i := stallOf_of_mem (List.mem_filter.mp (List.mem_of_mem_take hu)).1
    exact hi ▸ t.sendBalance_besidesStall u) s1
  have h3 : s3.besidesStall i = s2.besidesStall i := by simp [s3]
  have h : s3.besidesStall i = s.besidesStall i := h3.trans (h2.trans h1)
  clear_value s3 s1
  split
  · exact h1
  · split
    · exact h
    · refine (State.foldl_besidesStall i _ _ (fun t u hu => ?_) s3).trans h
      have hi : stallOf u = i := stallOf_of_mem (List.mem_filter.mp (List.mem_of_mem_take hu)).1
      exact hi ▸ t.askTrims_besidesStall u

@[simp] theorem State.stallEdge_besidesStall (s : State) (i : Fin 32) : (s.stallEdge i).besidesStall i = s.besidesStall i := by
  unfold State.stallEdge
  dsimp only
  repeat' split
  all_goals simp

end Sys2Proof.Machine
end

section
/-! SUPPORT. What the ends of an enumeration leave of the output (03). -/

namespace Sys2Proof.Machine

@[simp] theorem State.restartWindow_out (s : State) (u : Fin 128) (from_ : Nat) : (s.restartWindow u from_).out = s.out := by
  simp [State.restartWindow]

@[simp] theorem State.restartHistory_out (s : State) (u : Fin 128) (from_ : Nat) (codes : List (BitVec 8)) (rate : BitVec 2) :
    (s.restartHistory u from_ codes rate).out = s.out := by
  simp [State.restartHistory]

@[simp] theorem State.queueLink_out (s : State) (i : Fin 32) (l : List LinkSlot) : (s.queueLink i l).out = s.out := by
  simp [State.queueLink]

@[simp] theorem State.applyAverage_out (s : State) (i : Fin 32) : (s.applyAverage i).out = s.out := by
  unfold State.applyAverage
  refine State.foldl_out _ _ (fun t a => ?_) _
  extract_lets old rate new t1
  clear_value new
  simp only [State.ok_frame, State.onStall_frame]
  unfold t1
  split
  · exact State.foldl_out _ _ (fun v u => v.restartWindow_out u _) t
  · rfl

@[simp] theorem State.startWireCheck_out (s : State) (u : Fin 128) : (s.startWireCheck u).out = s.out := by
  simp [State.startWireCheck]

@[simp] theorem State.configureUnit_out (s : State) (u : Fin 128) (first : Nat) : (s.configureUnit u first).out = s.out := by
  unfold State.configureUnit
  dsimp only
  repeat' split
  all_goals simp

@[simp] theorem State.stallEvent_out (s : State) (i : Fin 32) : (s.stallEvent i).out = s.out := by
  simp [State.stallEvent]

@[simp] theorem State.linkRecord_out (s : State) (i : Fin 32) (what : Byte) : (s.linkRecord i what).out = s.out := by
  simp [State.linkRecord]

@[simp] theorem State.countLoss_out (s : State) (i : Fin 32) : (s.countLoss i).out = s.out := by
  simp [State.countLoss]

@[simp] theorem State.reachUnit_out (s : State) (u : Fin 128) : (s.reachUnit u).out = s.out := by
  simp [State.reachUnit]

@[simp] theorem State.readTrims_out (s : State) (u : Fin 128) (again : Nat) : (s.readTrims u again).out = s.out := by
  simp [State.readTrims]

@[simp] theorem State.takeUnits_out (s : State) (i : Fin 32) (first : Nat) : (s.takeUnits i first).out = s.out := by
  unfold State.takeUnits
  refine State.foldl_out _ _ (fun t u => ?_) s
  dsimp only
  repeat' split
  all_goals simp

@[simp] theorem State.enumDone_out (s : State) (i : Fin 32) : (s.enumDone i).out = s.out := by
  simp [State.enumDone]

@[simp] theorem State.becomeLost_out (s : State) (i : Fin 32) : (s.becomeLost i).out = s.out := by
  unfold State.becomeLost
  dsimp only
  split <;> simp

@[simp] theorem State.completeEnum_out (s : State) (i : Fin 32) (n : Nat) : (s.completeEnum i n).out = s.out := by
  unfold State.completeEnum
  extract_lets s1 found s2 s3
  have h1 : s1.out = s.out := State.foldl_out _ _ (fun t u => by dsimp only; split <;> simp) s
  have h3 : s3.out = s1.out := by
    unfold s3
    split <;> simp [s2]
  simpa using h3.trans h1

@[simp] theorem State.completeRejoin_out (s : State) (i : Fin 32) (first n : Nat) : (s.completeRejoin i first n).out = s.out := by
  unfold State.completeRejoin
  extract_lets s1 s2 s3
  have h2 : s2.out = s1.out := State.foldl_out _ _ (fun t u => by split <;> simp) s1
  have h3 : s3.out = s2.out := by
    unfold s3
    split <;> simp
  split
  · rfl
  · simpa using (h3.trans h2).trans (show s1.out = s.out by simp [s1])

@[simp] theorem State.completeRun_out (s : State) (i : Fin 32) (r : EnumRun) : (s.completeRun i r).out = s.out := by
  unfold State.completeRun
  split <;> simp

end Sys2Proof.Machine
end

section
/-! SUPPORT. Frame edges, discarded records and the end of an upstream window (03 R87, R88, R92, R104). -/

namespace Sys2Proof.Machine

-- What has left the device stays, whatever a stall's window sends after it.

theorem State.out_prefix_of_eq {s t : State} (h : t.out = s.out) : s.out <+: t.out := ⟨[], by rw [List.append_nil, h]⟩

theorem State.out_prefix_foldl {α : Type} (l : List α) (f : State → α → State) (h : ∀ t a, t.out <+: (f t a).out) (s : State) :
    s.out <+: (l.foldl f s).out :=
  List.foldlRecOn l f (motive := fun t => s.out <+: t.out) (List.prefix_refl _) fun _ ht a _ => ht.trans (h _ a)

theorem State.out_prefix_emit (s : State) (e : OutEvent) : s.out <+: (s.emit e).out := List.prefix_append _ _

theorem State.out_prefix_sendLink (s : State) (i : Fin 32) (k : LinkSlot) : s.out <+: (s.sendLink i k).out := List.prefix_append _ _

theorem State.out_prefix_sendBalance (s : State) (u : Fin 128) : s.out <+: (s.sendBalance u).out := List.prefix_append _ _

theorem State.out_prefix_askTrims (s : State) (u : Fin 128) : s.out <+: (s.askTrims u).out := by
  unfold State.askTrims
  repeat' split
  · exact List.prefix_append _ _
  · exact List.prefix_refl _
  · exact List.prefix_refl _

theorem State.out_prefix_kickEnum (s : State) (i : Fin 32) : s.out <+: (s.kickEnum i).out := by
  unfold State.kickEnum
  repeat' split
  · exact (List.prefix_append _ _).trans (List.prefix_append _ _)
  · exact List.prefix_refl _
  · exact List.prefix_refl _

theorem State.out_prefix_sendQueued (s : State) (i : Fin 32) (k : LinkSlot) : s.out <+: (s.sendQueued i k).out := by
  unfold State.sendQueued
  dsimp only
  split <;> exact List.prefix_append _ _

theorem State.out_prefix_enumEdge (s : State) (i : Fin 32) : s.out <+: (s.enumEdge i).out := by
  unfold State.enumEdge
  split
  · exact List.prefix_refl _
  · next r _ =>
    dsimp only
    split
    · exact s.out_prefix_kickEnum i
    · split
      · exact List.prefix_append _ _
      · exact List.prefix_refl _
    · split <;> exact List.prefix_append _ _
    · exact State.out_prefix_foldl _ _ (fun t k => t.out_prefix_sendLink i _) s
    · exact State.out_prefix_of_eq (State.completeRun_out ..)

theorem State.out_prefix_fillWindow (s : State) (i : Fin 32) : s.out <+: (s.fillWindow i).out := by
  unfold State.fillWindow
  extract_lets before s1 stale s2 room q s3 ask
  have h1 : s.out <+: s1.out := s.out_prefix_enumEdge i
  have h2 : s1.out <+: s2.out := State.out_prefix_foldl _ _ (fun t u => t.out_prefix_sendBalance u) s1
  have h3 : s2.out <+: s3.out := State.out_prefix_foldl (q.take room) (fun t k => t.sendQueued i k) (fun t k => t.out_prefix_sendQueued i k)
    (s2.onStall i (fun x => { x with linkQ := q.drop room }))
  clear_value s3 s2 s1
  split
  · exact h1
  · split
    · exact h1.trans (h2.trans h3)
    · exact h1.trans (h2.trans (h3.trans (State.out_prefix_foldl _ _ (fun t u => t.out_prefix_askTrims u) s3)))

theorem State.out_prefix_stallEdge (s : State) (i : Fin 32) : s.out <+: (s.stallEdge i).out := by
  unfold State.stallEdge
  split
  · extract_lets n s1
    have h1 : s1.out = s.out := by
      unfold s1
      split <;> simp
    split
    · exact h1 ▸ List.prefix_refl _
    · rw [← h1]
      exact (s1.out_prefix_emit _).trans (State.out_prefix_fillWindow _ i)
  · exact List.prefix_refl _

/-- A stall is driven and its PHY works, as its frame edge finds it. -/
def State.windows (s : State) (i : Fin 32) : Prop := s.driven i = true ∧ (s.stalls.at i).lstate ≠ .phyFault

theorem State.stalls_at_of_besidesStall {s t : State} {i j : Fin 32} (h : t.besidesStall i = s.besidesStall i) (hj : j ≠ i) :
    t.stalls.at j = s.stalls.at j := by
  have hb : t.stalls.put i {} = s.stalls.put i {} := congrArg State.stalls h
  have := congrArg (fun b => Bank.at b j) hb
  simpa [Bank.at_put_of_ne _ _ (Ne.symm hj)] using this

theorem State.windows_of_besidesStall {s t : State} {i j : Fin 32} (h : t.besidesStall i = s.besidesStall i) (hj : j ≠ i)
    (hw : s.windows j) : t.windows j := by
  have hisl : t.isl = s.isl := (congrArg State.isl h :)
  have hat := State.stalls_at_of_besidesStall h hj
  unfold State.windows State.driven at *
  rw [hat, hisl]
  exact hw

theorem Stall.chooseW_lstate (x : Stall) (rate : BitVec 2) : (x.chooseW rate).lstate = x.lstate := by
  unfold Stall.chooseW
  repeat' split
  all_goals rfl

/-- Averaging settings that a sweep start applies leave the state of the stall (04 R149). -/
theorem State.applyAverage_lstate (s : State) (i : Fin 32) :
    ((s.applyAverage i).stalls.at i).lstate = (s.stalls.at i).lstate := by
  unfold State.applyAverage
  refine List.foldlRecOn _ _ (motive := fun t : State => (t.stalls.at i).lstate = (s.stalls.at i).lstate) ?_ fun t ht a _ => ?_
  · simp [State.onStall]
  · extract_lets old rate new t1
    have hnew : new.lstate = old.lstate := Stall.chooseW_lstate _ _
    clear_value new
    simp only [State.ok_frame, State.onStall, Bank.at_upd_self]
    exact hnew.trans ht

/-- The window of a driven stall opens with the time of its frame edge (03 R87, R88). -/
theorem State.window_mem_stallEdge {s : State} {i : Fin 32} (h : s.windows i) :
    ∃ e, OutEvent.window i e (BitVec.ofNat 64 s.now) ∈ (s.stallEdge i).out := by
  obtain ⟨hdriven, hphy⟩ := h
  unfold State.stallEdge
  rw [if_pos hdriven]
  extract_lets n s1
  have h1 : s1.besidesStall i = s.besidesStall i ∧ (s1.stalls.at i).lstate = (s.stalls.at i).lstate := by
    unfold s1
    split
    · exact ⟨s.applyAverage_besidesStall i, s.applyAverage_lstate i⟩
    · exact ⟨rfl, rfl⟩
  have hclk : s1.clk = s.clk := (congrArg State.clk h1.1 :)
  rw [if_neg (h1.2 ▸ hphy), State.now, hclk]
  exact ⟨_, (State.out_prefix_fillWindow _ i).subset (List.mem_append_right _ (List.mem_singleton_self _))⟩

/-- At the edges of several stalls the window of each driven one of them opens. -/
theorem State.window_mem_foldl {l : List (Fin 32)} {i : Fin 32} (hi : i ∈ l) : ∀ {s : State}, s.windows i →
    ∃ e, OutEvent.window i e (BitVec.ofNat 64 s.now) ∈ (l.foldl (fun s i => s.stallEdge i) s).out := by
  induction l with
  | nil => exact absurd hi List.not_mem_nil
  | cons j l ih =>
    intro s hs
    by_cases hij : i = j
    · subst hij
      obtain ⟨e, he⟩ := State.window_mem_stallEdge hs
      exact ⟨e, (State.out_prefix_foldl l _ (fun t k => t.out_prefix_stallEdge k) _).subset he⟩
    · have hb := s.stallEdge_besidesStall j
      have hclk : (s.stallEdge j).clk = s.clk := (congrArg State.clk hb :)
      obtain ⟨e, he⟩ := ih ((List.mem_cons.mp hi).resolve_left hij) (State.windows_of_besidesStall hb hij hs)
      exact ⟨e, by rwa [State.now, hclk] at he⟩

/-- The state with what the stalls still have to send forgotten. -/
def State.besidesQueues (s : State) : State := { s with stalls := s.stalls.each (fun _ x => { x with linkQ := [] }) }

theorem State.clk_of_besidesQueues {s t : State} (h : t.besidesQueues = s.besidesQueues) : t.clk = s.clk := by
  simpa only [State.besidesQueues] using congrArg State.clk h

theorem State.isl_of_besidesQueues {s t : State} (h : t.besidesQueues = s.besidesQueues) : t.isl = s.isl := by
  simpa only [State.besidesQueues] using congrArg State.isl h

/-- A change of what a stall still has to send. -/
theorem State.onStall_besidesQueues (s : State) (i : Fin 32) (q : Stall → List LinkSlot) :
    (s.onStall i (fun x => { x with linkQ := q x })).besidesQueues = s.besidesQueues := by
  have h : (s.stalls.upd i (fun x => { x with linkQ := q x })).each (fun _ x => { x with linkQ := [] }) =
      s.stalls.each (fun _ x => { x with linkQ := [] }) := by
    refine Vector.ext fun k hk => ?_
    refine (Bank.at_each _ _ ⟨k, hk⟩).trans (Eq.trans ?_ (Bank.at_each _ _ ⟨k, hk⟩).symm)
    by_cases e : i = ⟨k, hk⟩
    · subst e
      rw [Bank.at_upd_self]
    · rw [Bank.at_upd_of_ne _ _ e]
  exact congrArg (fun b => { s with stalls := b }) h

theorem State.foldl_besidesQueues {α : Type} (l : List α) (f : State → α → State) (h : ∀ t a, (f t a).besidesQueues = t.besidesQueues)
    (s : State) : (l.foldl f s).besidesQueues = s.besidesQueues :=
  List.foldlRecOn l f (motive := fun t => t.besidesQueues = s.besidesQueues) rfl fun _ ht a _ => (h _ a).trans ht

/-- The changes of rate that wait for a string change what its stalls still have to send (04 R123). -/
theorem State.sendRates_besidesQueues (s : State) (str : Fin 4) : (s.sendRates str).besidesQueues = s.besidesQueues := by
  unfold State.sendRates
  refine State.foldl_besidesQueues _ _ (fun t p => ?_) s
  split
  · refine State.foldl_besidesQueues _ _ (fun v u => ?_) t
    split
    · exact v.onStall_besidesQueues _ _
    · rfl
  · rfl

theorem State.windows_of_besidesQueues {s t : State} {i : Fin 32} (h : t.besidesQueues = s.besidesQueues) (hw : s.windows i) :
    t.windows i := by
  have hisl : t.isl = s.isl := State.isl_of_besidesQueues h
  have hat : { t.stalls.at i with linkQ := [] } = { s.stalls.at i with linkQ := [] } := by
    have hb : t.besidesQueues.stalls.at i = s.besidesQueues.stalls.at i := congrArg (fun x => x.stalls.at i) h
    rwa [State.besidesQueues, State.besidesQueues, Bank.at_each, Bank.at_each] at hb
  have hstr : (t.stalls.at i).str = (s.stalls.at i).str := (congrArg Stall.str hat :)
  have hoos : (t.stalls.at i).oos = (s.stalls.at i).oos := (congrArg Stall.oos hat :)
  have hlstate : (t.stalls.at i).lstate = (s.stalls.at i).lstate := (congrArg Stall.lstate hat :)
  unfold State.windows State.driven at *
  rw [hisl, hstr, hoos, hlstate]
  exact hw

theorem State.stallEdges_clk (l : List (Fin 32)) (s : State) : (l.foldl (fun s i => s.stallEdge i) s).clk = s.clk :=
  State.foldl_clk l (fun s i => s.stallEdge i) (fun t i => (congrArg State.clk (t.stallEdge_besidesStall i) :)) s

/-- The work of a frame edge leaves the time, and opens the window of every driven stall (03 R87, R88). -/
theorem State.atFrameEdge_clk (s : State) (sense : Bank 12 Nat) : (s.atFrameEdge sense).clk = s.clk := by
  unfold State.atFrameEdge
  extract_lets s1 s2 s3
  have h1 : s1.clk = s.clk := by simp [s1]
  have h2 : s2.clk = s1.clk := State.clk_of_besidesQueues (State.foldl_besidesQueues _ _ (fun t str => t.sendRates_besidesQueues str) s1)
  have h3 : s3.clk = s2.clk := State.stallEdges_clk _ s2
  clear_value s3
  rw [s3.wbEdge_edge.1, h3, h2, h1]

theorem State.window_mem_atFrameEdge {s : State} {i : Fin 32} (sense : Bank 12 Nat) (h : s.windows i) :
    ∃ e, OutEvent.window i e (BitVec.ofNat 64 s.now) ∈ (s.atFrameEdge sense).out := by
  unfold State.atFrameEdge
  extract_lets s1 s2 s3
  have h1 : s1.clk = s.clk ∧ s1.isl = s.isl ∧ s1.stalls = s.stalls := by simp [s1]
  obtain ⟨hclk, hisl, hstalls⟩ := h1
  have hb : s2.besidesQueues = s1.besidesQueues := State.foldl_besidesQueues _ _ (fun t str => t.sendRates_besidesQueues str) s1
  have hw1 : s1.windows i := by rwa [State.windows, State.driven, hisl, hstalls]
  have hclk2 : s2.clk = s1.clk := State.clk_of_besidesQueues hb
  obtain ⟨e, he⟩ := State.window_mem_foldl (l := places 32) (List.mem_finRange i) (State.windows_of_besidesQueues hb hw1)
  refine ⟨e, ?_⟩
  rw [s3.wbEdge_edge.2.2.2]
  rwa [State.now, hclk2, hclk] at he

/-- Time goes on to the next frame edge. -/
theorem next_frame_edge (y : Nat) : y + (ticksPerFrame - y % ticksPerFrame) = 8000 * (y / 8000 + 1) := by
  have := Nat.div_add_mod y 8000
  have := Nat.mod_lt y (show 0 < 8000 by omega)
  simp only [ticksPerFrame]
  omega

-- The end of an upstream window (03 R104, R106).

/-- A unit from which nothing was expected at the end of its window. -/
def State.quietEnd (s : State) (u : Fin 128) : State :=
  (s.onLink u (fun l => { l with gotSweep := false, gotCurrent := false })).trimsMissed u

theorem State.unitWindowEnd_of_unexpected {s : State} {u : Fin 128} (str : Fin 4) (hS : s.expectedSweep u s.frame = none)
    (hP : s.expectedPair u s.frame = none) : s.unitWindowEnd u str = s.quietEnd u := by
  simp only [State.unitWindowEnd, hS, hP]
  rfl

theorem State.quietEnd_link (s : State) (u v : Fin 128) :
    (s.quietEnd u).ulink.at v = if u = v then { s.ulink.at v with gotSweep := false, gotCurrent := false } else s.ulink.at v := by
  change (s.ulink.upd u _).at v = _
  rw [Bank.at_upd]
  split <;> simp [*]

/-- What says whether a record is expected from a unit: its roster, its reach and its sweep. -/
theorem State.quietEnd_ulink (s : State) (u v : Fin 128) :
    ((s.quietEnd u).ulink.at v).sweepFrom = (s.ulink.at v).sweepFrom ∧ ((s.quietEnd u).ulink.at v).reached = (s.ulink.at v).reached ∧
    ((s.quietEnd u).ulink.at v).outcome = (s.ulink.at v).outcome ∧ ((s.quietEnd u).ulink.at v).rosterType = (s.ulink.at v).rosterType := by
  rw [State.quietEnd_link]
  split <;> exact ⟨rfl, rfl, rfl, rfl⟩

theorem State.quietEnd_entry (s : State) (u v : Fin 128) : ((s.quietEnd u).ucal.at v).entry = (s.ucal.at v).entry := by
  change ((s.ucal.upd u _).at v).entry = _
  rw [Bank.at_upd]
  split
  · next h => subst h; rfl
  · rfl

@[simp] theorem State.quietEnd_frame (s : State) (u : Fin 128) :
    (s.quietEnd u).uswp = s.uswp ∧ (s.quietEnd u).strs = s.strs ∧ (s.quietEnd u).stalls = s.stalls ∧ (s.quietEnd u).frame = s.frame :=
  ⟨rfl, rfl, rfl, rfl⟩

theorem State.quietEnd_sweepable (s : State) (u v : Fin 128) : (s.quietEnd u).sweepable v = s.sweepable v := by
  simp only [State.sweepable, State.isMc16, State.isMp4, State.outOfService, State.quietEnd_ulink, State.quietEnd_entry, State.quietEnd_frame]

theorem State.expectedSweep_quietEnd (s : State) (u v : Fin 128) (f : Nat) :
    (s.quietEnd u).expectedSweep v f = s.expectedSweep v f := by
  simp only [State.expectedSweep, State.rateAt, State.rateNow, State.strOf, State.quietEnd_ulink, State.quietEnd_sweepable,
    State.quietEnd_frame] <;> rfl

theorem State.expectedPair_quietEnd (s : State) (u v : Fin 128) (f : Nat) :
    (s.quietEnd u).expectedPair v f = s.expectedPair v f := by
  simp only [State.expectedPair, State.isMp4, State.quietEnd_ulink, State.quietEnd_sweepable, State.expectedSweep_quietEnd] <;> rfl

/-- Units from which nothing was expected, one after the other. -/
theorem State.foldl_unitWindowEnd_of_unexpected (str : Fin 4) : ∀ (l : List (Fin 128)) (s : State),
    (∀ u ∈ l, s.expectedSweep u s.frame = none ∧ s.expectedPair u s.frame = none) →
    l.foldl (fun s u => s.unitWindowEnd u str) s = l.foldl State.quietEnd s
  | [], _, _ => rfl
  | u :: l, s, h => by
    rw [List.foldl_cons, List.foldl_cons, State.unitWindowEnd_of_unexpected str (h u List.mem_cons_self).1 (h u List.mem_cons_self).2]
    refine State.foldl_unitWindowEnd_of_unexpected str l _ fun v hv => ?_
    rw [State.expectedSweep_quietEnd, State.expectedPair_quietEnd, (s.quietEnd_frame u).2.2.2]
    exact h v (List.mem_cons_of_mem _ hv)

/-- After them no run of misses has changed, and their arrivals are forgotten. -/
theorem State.foldl_quietEnd (l : List (Fin 128)) : ∀ s : State, (l.foldl State.quietEnd s).stalls = s.stalls ∧
    ∀ v, ((l.foldl State.quietEnd s).ulink.at v).missRun = (s.ulink.at v).missRun ∧
      (v ∈ l ∨ ((s.ulink.at v).gotSweep = false ∧ (s.ulink.at v).gotCurrent = false) →
        ((l.foldl State.quietEnd s).ulink.at v).gotSweep = false ∧ ((l.foldl State.quietEnd s).ulink.at v).gotCurrent = false) := by
  induction l with
  | nil => exact fun s => ⟨rfl, fun v => ⟨rfl, fun h => h.resolve_left List.not_mem_nil⟩⟩
  | cons u l ih =>
    intro s
    obtain ⟨hstalls, hl⟩ := ih (s.quietEnd u)
    refine ⟨hstalls, fun v => ⟨(hl v).1.trans ?_, fun hv => (hl v).2 ?_⟩⟩
    · rw [State.quietEnd_link]
      split <;> rfl
    · rw [State.quietEnd_link]
      split
      · exact .inr ⟨rfl, rfl⟩
      · next hne => exact hv.imp (fun h => (List.mem_cons.mp h).resolve_left (Ne.symm hne)) id

theorem fin_four_cases : ∀ k : Fin 4, k = 0 ∨ k = 1 ∨ k = 2 ∨ k = 3 := by decide

theorem unitPos_mem_unitsOf (i : Fin 32) (k : Fin 4) : unitPos i k ∈ unitsOf i := by
  rcases fin_four_cases k with rfl | rfl | rfl | rfl <;> simp [unitsOf]

/-- The end of the window of a driven stall that calls no unit (03 R104, R107). -/
theorem exec_upstreamWindowEnd {s : State} {i : Fin 32} {str : Fin 4} (hstr : (s.stalls.at i).str = some str) (hdriven : s.driven i = true)
    (hcall : (((unitsOf i).foldl (fun s u => s.unitWindowEnd u str) s).stalls.at i).rollCall = []) :
    exec (.upstreamWindowEnd i) s = answer s ((unitsOf i).foldl (fun s u => s.unitWindowEnd u str) s) := by
  change execUpstreamWindowEnd i s = _
  unfold execUpstreamWindowEnd
  simp only [hstr, hdriven, if_true, hcall, List.find?_nil]

theorem State.str_of_driven {s : State} {i : Fin 32} (h : s.driven i = true) : ∃ str, (s.stalls.at i).str = some str := by
  simp only [State.driven, Bool.and_eq_true] at h
  exact Option.isSome_iff_exists.mp h.1.1

/-- A sweep that was expected and has not come: the unit's run of misses and the stall's count rise (03 R104, R106). -/
theorem State.unitWindowEnd_of_missing {s : State} {u : Fin 128} {start : Nat} (str : Fin 4) (hS : s.expectedSweep u s.frame = some start)
    (hgot : (s.ulink.at u).gotSweep = false) :
    (s.unitWindowEnd u str).stalls = s.stalls.upd (stallOf u) (fun x => { x with missCnt := satAdd 0x7FFF x.missCnt 1 }) ∧
    (s.unitWindowEnd u str).links = (s.onLink u (fun l => { l with
      gotSweep := false, gotCurrent := false, missRun := l.missRun + 1 })).links := by
  have hP : s.expectedPair u s.frame = none := by
    unfold State.expectedPair
    simp only [hS, Option.isNone_some]
    split <;> simp
  have h : s.unitWindowEnd u str = (((s.onLink u (fun l => { l with
      gotSweep := false, gotCurrent := false, missRun := l.missRun + 1 })).onStall (stallOf u)
      (fun x => { x with missCnt := satAdd 0x7FFF x.missCnt 1 })).sweepArrives u str start none 0).trimsMissed u := by
    simp [State.unitWindowEnd, hS, hP, hgot]
  rw [h, (State.trimsMissed_links _ u).1, (State.trimsMissed_links _ u).2, (State.sweepArrives_links _ u str start none 0).1,
    (State.sweepArrives_links _ u str start none 0).2]
  exact ⟨by simp [State.onStall], State.links_of_ulink (by simp [State.onStall])⟩

theorem State.not_expected_of_sweepFrom {s : State} {u : Fin 128} (h : (s.ulink.at u).sweepFrom = none) (f : Nat) :
    s.expectedSweep u f = none ∧ s.expectedPair u f = none := by
  simp [State.expectedSweep, State.expectedPair, h]

/-- The first unit of a stall misses its sweep, and its other units are not swept (03 R104). -/
theorem State.windowEnd_of_missing {s : State} {i : Fin 32} {start : Nat} (str : Fin 4)
    (hS : s.expectedSweep (unitPos i 0) s.frame = some start) (hgot : (s.ulink.at (unitPos i 0)).gotSweep = false)
    (hrest : ∀ k, k ≠ 0 → (s.ulink.at (unitPos i k)).sweepFrom = none) :
    let t := (unitsOf i).foldl (fun s u => s.unitWindowEnd u str) s
    t.stalls = s.stalls.upd i (fun x => { x with missCnt := satAdd 0x7FFF x.missCnt 1 }) ∧
    (t.ulink.at (unitPos i 0)).missRun = (s.ulink.at (unitPos i 0)).missRun + 1 := by
  obtain ⟨hstalls, hlinks⟩ := State.unitWindowEnd_of_missing str hS hgot
  rw [stallOf_unitPos] at hstalls
  have hat (v : Fin 128) : ((s.unitWindowEnd (unitPos i 0) str).ulink.at v).noMasks = ((s.onLink (unitPos i 0) (fun l => { l with
      gotSweep := false, gotCurrent := false, missRun := l.missRun + 1 })).ulink.at v).noMasks := by
    rw [← State.links_at, hlinks, State.links_at]
  have hrest' (k : Fin 4) (hk : k ≠ 0) : ((s.unitWindowEnd (unitPos i 0) str).ulink.at (unitPos i k)).sweepFrom = none := by
    have hne : unitPos i 0 ≠ unitPos i k := fun e => hk (by simpa using (congrArg unitOf e).symm)
    have h := hat (unitPos i k)
    simp only [State.onLink, Bank.at_upd_of_ne _ _ hne] at h
    exact (congrArg UnitLink.sweepFrom h :).trans (hrest k hk)
  have hmiss : ((s.unitWindowEnd (unitPos i 0) str).ulink.at (unitPos i 0)).missRun = (s.ulink.at (unitPos i 0)).missRun + 1 := by
    have h := hat (unitPos i 0)
    simp only [State.onLink, Bank.at_upd_self] at h
    exact (congrArg UnitLink.missRun h :)
  obtain ⟨hq, hl⟩ := State.foldl_quietEnd [unitPos i 1, unitPos i 2, unitPos i 3] (s.unitWindowEnd (unitPos i 0) str)
  have hfold : (unitsOf i).foldl (fun s u => s.unitWindowEnd u str) s =
      [unitPos i 1, unitPos i 2, unitPos i 3].foldl State.quietEnd (s.unitWindowEnd (unitPos i 0) str) := by
    refine State.foldl_unitWindowEnd_of_unexpected str [unitPos i 1, unitPos i 2, unitPos i 3]
      (s.unitWindowEnd (unitPos i 0) str) fun u hu => State.not_expected_of_sweepFrom ?_ _
    simp only [List.mem_cons, List.not_mem_nil, or_false] at hu
    rcases hu with rfl | rfl | rfl <;> exact hrest' _ (by decide)
  dsimp only
  rw [hfold]
  exact ⟨hq.trans hstalls, (hl _).1.trans hmiss⟩

/-- A record that is not used counts in CRC_CNT (03 R92). -/
theorem answers_upstreamRecord_discard {s : State} {i : Fin 32} {r : UpRecord} (hdriven : s.driven i = true)
    (hphy : (s.stalls.at i).lstate ≠ .phyFault) (hr : r.crcOk = false ∨ r.inWindow = false ∨ r.kind = 3) :
    Answers (.upstreamRecord i r) s fun t =>
      t = { s with stalls := s.stalls.upd i (fun x => { x with crcCnt := satAdd 0xFFFF x.crcCnt 1 }) } := by
  obtain ⟨str, hstr⟩ := State.str_of_driven hdriven
  have hbad : (!r.crcOk || !r.inWindow || r.kind == 3) = true := by
    rcases hr with h | h | h <;> simp [h]
  have hexec : exec (.upstreamRecord i r) s = answer s (s.discard i) := by
    change execUpstreamRecord i r s = _
    unfold execUpstreamRecord
    simp only [hstr, hdriven, hphy, hbad, Bool.true_eq_false, or_self, if_false, if_true]
  exact answers_of_exec_of_evt_eq hexec rfl rfl

/-- Settles O16: the effects of a frame edge on the time and the windows, the discarded records, and the end of an upstream window. -/
theorem framesAndUpstreamRecords : Obligations.FramesAndUpstreamRecords := by
  unfold Obligations.FramesAndUpstreamRecords
  refine ⟨fun sense s htb => ?_, fun sense s htb => ?_, fun i r s hdriven hphy hr => answers_upstreamRecord_discard hdriven hphy hr,
    fun i s hdriven hcall hquiet => ?_, fun i start s hdriven hcall hS hgot hrest => ?_⟩
  case refine_1 =>
    have hexec : exec (.frameEdge sense) s = answer s ((s.advance (ticksPerFrame - s.now % ticksPerFrame)).atFrameEdge sense) :=
      congrArg (answer s) (if_pos htb)
    have hnow : (s.advance (ticksPerFrame - s.now % ticksPerFrame)).now = 8000 * (s.clk.ytime / 8000 + 1) := next_frame_edge _
    refine answers_of_exec hexec ⟨?_, fun i hdriven hphy => ?_⟩
    · simp only [eventInterrupt_frame, State.atFrameEdge_clk]
      exact hnow
    · obtain ⟨e, he⟩ := State.window_mem_atFrameEdge (s := s.advance (ticksPerFrame - s.now % ticksPerFrame)) sense
        (i := i) ⟨hdriven, hphy⟩
      rw [hnow] at he
      exact ⟨e, (out_prefix_eventInterrupt _ _).subset he⟩
  case refine_2 =>
    exact answers_of_exec_of_evt_eq (u := s) (congrArg (answer s) (if_neg (by simp [htb]))) rfl rfl
  case refine_3 =>
    obtain ⟨str, hstr⟩ := State.str_of_driven hdriven
    have hfold : (unitsOf i).foldl (fun s u => s.unitWindowEnd u str) s = (unitsOf i).foldl State.quietEnd s :=
      State.foldl_unitWindowEnd_of_unexpected str _ _ fun u hu => by
        obtain ⟨k, rfl⟩ : ∃ k, u = unitPos i k := by simpa [unitsOf, Fin.exists_fin_succ] using hu
        exact hquiet k
    obtain ⟨hstalls, hl⟩ := State.foldl_quietEnd (unitsOf i) s
    rw [← hfold] at hstalls hl
    refine answers_of_exec (exec_upstreamWindowEnd hstr hdriven (hstalls ▸ hcall)) fun k => ?_
    simp only [eventInterrupt_frame]
    exact ⟨(hl _).1, (hl _).2 (.inl (unitPos_mem_unitsOf i k))⟩
  case refine_4 =>
    obtain ⟨str, hstr⟩ := State.str_of_driven hdriven
    obtain ⟨hstalls, hmiss⟩ := State.windowEnd_of_missing str hS hgot hrest
    refine answers_of_exec (exec_upstreamWindowEnd hstr hdriven (by rw [hstalls, Bank.at_upd_self]; exact hcall)) ?_
    simp only [eventInterrupt_frame]
    exact ⟨hmiss, by rw [hstalls, Bank.at_upd_self]⟩

end Sys2Proof.Machine
end

section
/-! SUPPORT. What the loss of a unit leaves of the stalls, and of which units are reached (03 R95). -/

namespace Sys2Proof.Machine

/-- Which units are reached (03 R95). -/
def State.reaches (s : State) (u : Fin 128) : Bool := (s.ulink.at u).reached

theorem State.reaches_of_ulink {s t : State} (h : t.ulink = s.ulink) : t.reaches = s.reaches := by
  unfold State.reaches
  rw [h]

theorem State.reaches_onLink (s : State) (u : Fin 128) (f : UnitLink → UnitLink) (h : ∀ l, (f l).reached = l.reached) :
    (s.onLink u f).reaches = s.reaches := by
  funext v
  unfold State.reaches State.onLink
  dsimp only
  rw [Bank.at_upd]
  split
  · next e => exact e ▸ h _
  · rfl

@[simp] theorem State.draw_reach (s : State) : s.draw.2.stalls = s.stalls ∧ s.draw.2.reaches = s.reaches := ⟨rfl, rfl⟩

@[simp] theorem State.foldl_reaches {α : Type} (l : List α) (f : State → α → State) (h : ∀ t a, (f t a).reaches = t.reaches)
    (s : State) : (l.foldl f s).reaches = s.reaches :=
  List.foldlRecOn l f (motive := fun t => t.reaches = s.reaches) rfl fun _ ht a _ => (h _ a).trans ht

@[simp] theorem State.onSweep_reach (s : State) (u : Fin 128) (f : UnitSweep → UnitSweep) :
    (s.onSweep u f).stalls = s.stalls ∧ (s.onSweep u f).reaches = s.reaches :=
  ⟨by simp, State.reaches_of_ulink (by simp)⟩

@[simp] theorem State.onInteg_reach (s : State) (u : Fin 128) (f : UnitInteg → UnitInteg) :
    (s.onInteg u f).stalls = s.stalls ∧ (s.onInteg u f).reaches = s.reaches :=
  ⟨by simp, State.reaches_of_ulink (by simp)⟩

@[simp] theorem State.onCal_reach (s : State) (u : Fin 128) (f : UnitCal → UnitCal) :
    (s.onCal u f).stalls = s.stalls ∧ (s.onCal u f).reaches = s.reaches :=
  ⟨by simp, State.reaches_of_ulink (by simp)⟩

@[simp] theorem State.onEstr_reach (s : State) (i : Fin 4) (f : EstString → EstString) :
    (s.onEstr i f).stalls = s.stalls ∧ (s.onEstr i f).reaches = s.reaches :=
  ⟨by simp, State.reaches_of_ulink (by simp)⟩

@[simp] theorem State.onStr_reach (s : State) (i : Fin 4) (f : Str → Str) : (s.onStr i f).stalls = s.stalls ∧ (s.onStr i f).reaches = s.reaches :=
  ⟨by simp, State.reaches_of_ulink (by simp)⟩

@[simp] theorem State.onSwc_reach (s : State) (ch : Fin 24) (f : Swc → Swc) :
    (s.onSwc ch f).stalls = s.stalls ∧ (s.onSwc ch f).reaches = s.reaches :=
  ⟨by simp, State.reaches_of_ulink (by simp)⟩

@[simp] theorem State.emit_reach (s : State) (e : OutEvent) : (s.emit e).stalls = s.stalls ∧ (s.emit e).reaches = s.reaches :=
  ⟨by simp, State.reaches_of_ulink (by simp)⟩

@[simp] theorem State.studbook_reach (s : State) (trigger : BitVec 6) (subject : Nat) (detail : List Byte) :
    (s.studbook trigger subject detail).stalls = s.stalls ∧ (s.studbook trigger subject detail).reaches = s.reaches :=
  ⟨by simp, State.reaches_of_ulink (by simp)⟩

@[simp] theorem State.complete_reach (s : State) (c : Cmd) (status : BitVec 8) (result : BitVec 128) :
    (s.complete c status result).stalls = s.stalls ∧ (s.complete c status result).reaches = s.reaches :=
  ⟨by simp, State.reaches_of_ulink (by simp)⟩

@[simp] theorem State.ok_reach (s : State) (c : Cmd) (result : BitVec 128) :
    (s.ok c result).stalls = s.stalls ∧ (s.ok c result).reaches = s.reaches :=
  ⟨by simp, State.reaches_of_ulink (by simp)⟩

@[simp] theorem State.settleMask_reach (s : State) (u : Fin 128) : (s.settleMask u).stalls = s.stalls ∧ (s.settleMask u).reaches = s.reaches := by
  unfold State.settleMask
  dsimp only
  split
  · exact ⟨rfl, rfl⟩
  · exact ⟨rfl, State.reaches_onLink _ _ _ fun _ => rfl⟩

@[simp] theorem State.turnOn_reach (s : State) (ch : Fin 24) : (s.turnOn ch).stalls = s.stalls ∧ (s.turnOn ch).reaches = s.reaches := by
  unfold State.turnOn
  split
  · split <;> simp
  · simp

@[simp] theorem State.turnOff_reach (s : State) (ch : Fin 24) : (s.turnOff ch).stalls = s.stalls ∧ (s.turnOff ch).reaches = s.reaches := by
  simp [State.turnOff]

@[simp] theorem State.settleOut_reach (s : State) (ch : Fin 24) : (s.settleOut ch).stalls = s.stalls ∧ (s.settleOut ch).reaches = s.reaches := by
  unfold State.settleOut
  dsimp only
  repeat' split
  all_goals simp

@[simp] theorem State.command_reach (s : State) (ch : Fin 24) (on : Bool) :
    (s.command ch on).stalls = s.stalls ∧ (s.command ch on).reaches = s.reaches := by
  simp [State.command]

@[simp] theorem State.strEvent_reach (s : State) (base : Nat) (str : Fin 4) :
    (s.strEvent base str).stalls = s.stalls ∧ (s.strEvent base str).reaches = s.reaches :=
  ⟨rfl, rfl⟩

@[simp] theorem State.abortShunt_reach (s : State) (str : Fin 4) :
    (s.abortShunt str).stalls = s.stalls ∧ (s.abortShunt str).reaches = s.reaches := by
  unfold State.abortShunt
  dsimp only
  split
  · exact ⟨rfl, rfl⟩
  · rw [State.foldl_stalls _ _ (fun t c => (t.complete_reach c _ _).1), State.foldl_reaches _ _ (fun t c => (t.complete_reach c _ _).2)]
    split <;> exact ⟨by simp, State.reaches_of_ulink (by simp)⟩

@[simp] theorem State.stopExcitation_reach (s : State) (str : Fin 4) :
    (s.stopExcitation str).stalls = s.stalls ∧ (s.stopExcitation str).reaches = s.reaches := by
  unfold State.stopExcitation
  split
  · have h : ∀ (t : State) (u : Fin 128), ((t.onLink u (fun l => { l with excMask := none })).settleMask u).stalls = t.stalls ∧
        ((t.onLink u (fun l => { l with excMask := none })).settleMask u).reaches = t.reaches := fun t u => by
      rw [(State.settleMask_reach _ u).1, (State.settleMask_reach _ u).2]
      exact ⟨rfl, State.reaches_onLink _ _ _ fun _ => rfl⟩
    exact ⟨State.foldl_stalls _ _ (fun t u => (h t u).1) _, State.foldl_reaches _ _ (fun t u => (h t u).2) _⟩
  · exact ⟨rfl, rfl⟩

@[simp] theorem State.enterStr_reach (s : State) (str : Fin 4) (new : StrState) (cause : Nat) (stamp : BitVec 32) :
    (s.enterStr str new cause stamp).stalls = s.stalls ∧ (s.enterStr str new cause stamp).reaches = s.reaches := by
  unfold State.enterStr
  extract_lets old s1 s2 s3 s4 s5 s6 s7 s8
  have h3 : s3.stalls = s.stalls ∧ s3.reaches = s.reaches := by
    unfold s3
    split <;> simp [s2, s1, State.reaches_of_ulink]
  have h4 : s4.stalls = s.stalls ∧ s4.reaches = s.reaches := by
    unfold s4
    split <;> simp [h3]
  have h5 : s5.stalls = s.stalls ∧ s5.reaches = s.reaches := by
    unfold s5
    split <;> simp [h4]
  clear_value s5
  split
  · exact ⟨h5.1, (State.reaches_of_ulink (s := s5) rfl).trans h5.2⟩
  · exact h5

@[simp] theorem State.cmdContactor_reach (s : State) (str : Fin 4) (k : Fin 3) (on : Bool) :
    (s.cmdContactor str k on).stalls = s.stalls ∧ (s.cmdContactor str k on).reaches = s.reaches := by
  unfold State.cmdContactor
  dsimp only
  repeat' split
  all_goals simp

@[simp] theorem State.withdraw_reach (s : State) (str : Fin 4) : (s.withdraw str).stalls = s.stalls ∧ (s.withdraw str).reaches = s.reaches := by
  simp [State.withdraw]

@[simp] theorem State.closeRefused_reach (s : State) (str : Fin 4) (code d3 : Nat) :
    (s.closeRefused str code d3).stalls = s.stalls ∧ (s.closeRefused str code d3).reaches = s.reaches := by
  unfold State.closeRefused
  split <;> simp

@[simp] theorem State.abortPrecharge_reach (s : State) (str : Fin 4) :
    (s.abortPrecharge str).stalls = s.stalls ∧ (s.abortPrecharge str).reaches = s.reaches := by
  unfold State.abortPrecharge
  split <;> simp

@[simp] theorem State.countBreak_reach (s : State) (str : Fin 4) (i : Option Nat) :
    (s.countBreak str i).stalls = s.stalls ∧ (s.countBreak str i).reaches = s.reaches := by
  unfold State.countBreak
  dsimp only
  repeat' split
  all_goals simp

@[simp] theorem State.openDone_reach (s : State) (str : Fin 4) (welded : Bool) :
    (s.openDone str welded).stalls = s.stalls ∧ (s.openDone str welded).reaches = s.reaches := by
  simp [State.openDone]

@[simp] theorem State.weldEval_reach (s : State) (str : Fin 4) : (s.weldEval str).stalls = s.stalls ∧ (s.weldEval str).reaches = s.reaches := by
  unfold State.weldEval
  dsimp only
  repeat' split
  all_goals simp

@[simp] theorem State.weldedEval_reach (s : State) (str : Fin 4) :
    (s.weldedEval str).stalls = s.stalls ∧ (s.weldedEval str).reaches = s.reaches := by
  unfold State.weldedEval
  split <;> simp

@[simp] theorem State.startWeldCheck_reach (s : State) (str : Fin 4) (cause : Nat) (stamp : BitVec 32) :
    (s.startWeldCheck str cause stamp).stalls = s.stalls ∧ (s.startWeldCheck str cause stamp).reaches = s.reaches := by
  simp [State.startWeldCheck]

@[simp] theorem State.weldPeers_reach (s : State) : s.weldPeers.stalls = s.stalls ∧ s.weldPeers.reaches = s.reaches := by
  simp [State.weldPeers]

@[simp] theorem State.startOpening_reach (s : State) (str : Fin 4) (cause : Nat) (stamp : BitVec 32) :
    (s.startOpening str cause stamp).stalls = s.stalls ∧ (s.startOpening str cause stamp).reaches = s.reaches := by
  simp [State.startOpening]

@[simp] theorem State.breakNow_reach (s : State) (str : Fin 4) (cause : Nat) (i : Option Nat) :
    (s.breakNow str cause i).stalls = s.stalls ∧ (s.breakNow str cause i).reaches = s.reaches := by
  unfold State.breakNow
  dsimp only
  repeat' split
  all_goals simp

@[simp] theorem State.requestB_reach (s : State) (str : Fin 4) (cause : Nat) :
    (s.requestB str cause).stalls = s.stalls ∧ (s.requestB str cause).reaches = s.reaches := by
  unfold State.requestB
  split <;> simp

@[simp] theorem State.sendLink_reach (s : State) (i : Fin 32) (k : LinkSlot) :
    (s.sendLink i k).stalls = s.stalls ∧ (s.sendLink i k).reaches = s.reaches := by
  simp [State.sendLink]

@[simp] theorem State.sendBalance_reach (s : State) (u : Fin 128) :
    (s.sendBalance u).stalls = s.stalls ∧ (s.sendBalance u).reaches = s.reaches := by
  unfold State.sendBalance
  exact ⟨rfl, State.reaches_onLink _ _ _ fun _ => rfl⟩

@[simp] theorem State.driveMask_reach (s : State) (u : Fin 128) (m testArg : BitVec 16) :
    (s.driveMask u m testArg).stalls = s.stalls ∧ (s.driveMask u m testArg).reaches = s.reaches := by
  unfold State.driveMask
  rw [(State.sendBalance_reach _ u).1, (State.sendBalance_reach _ u).2]
  exact ⟨rfl, State.reaches_onLink _ _ _ fun _ => rfl⟩

@[simp] theorem State.releaseMask_reach (s : State) (u : Fin 128) :
    (s.releaseMask u).stalls = s.stalls ∧ (s.releaseMask u).reaches = s.reaches := by
  unfold State.releaseMask
  exact ⟨rfl, State.reaches_onLink _ _ _ fun _ => rfl⟩

@[simp] theorem State.sendRouting_reach (s : State) (u : Fin 128) (ch : Option Nat) :
    (s.sendRouting u ch).stalls = s.stalls ∧ (s.sendRouting u ch).reaches = s.reaches := by
  simp [State.sendRouting]

@[simp] theorem State.resumeTest_reach (s : State) (u : Fin 128) : (s.resumeTest u).stalls = s.stalls ∧ (s.resumeTest u).reaches = s.reaches := by
  unfold State.resumeTest
  repeat' split
  all_goals simp

@[simp] theorem State.stopRouting_reach (s : State) (u : Fin 128) :
    (s.stopRouting u).stalls = s.stalls ∧ (s.stopRouting u).reaches = s.reaches := by
  unfold State.stopRouting
  repeat' split
  all_goals simp

@[simp] theorem State.endRun_reach (s : State) (u : Fin 128) (code : BitVec 4) :
    (s.endRun u code).stalls = s.stalls ∧ (s.endRun u code).reaches = s.reaches := by
  unfold State.endRun
  extract_lets x cmds s1 s2 _ s3 s4
  have h2 : s2.stalls = s.stalls ∧ s2.reaches = s.reaches := by simp [s2, s1]
  have h4 : s4.stalls = s.stalls ∧ s4.reaches = s.reaches := by
    have h3 : s3.stalls = s2.stalls ∧ s3.reaches = s2.reaches := ⟨rfl, rfl⟩
    simp [s4, h3, h2]
  clear_value s4
  split <;> simp [State.completeAll, h4]

@[simp] theorem State.abortRun_reach (s : State) (u : Fin 128) : (s.abortRun u).stalls = s.stalls ∧ (s.abortRun u).reaches = s.reaches := by
  unfold State.abortRun
  split <;> simp

@[simp] theorem State.integEvent_reach (s : State) (u : Fin 128) : (s.integEvent u).stalls = s.stalls ∧ (s.integEvent u).reaches = s.reaches :=
  ⟨rfl, rfl⟩

@[simp] theorem State.changeInvalid_reach (s : State) (u : Fin 128) (f : UnitInteg → UnitInteg) :
    (s.changeInvalid u f).stalls = s.stalls ∧ (s.changeInvalid u f).reaches = s.reaches := by
  simp [State.changeInvalid]

@[simp] theorem State.onWire_reach (s : State) (u : Fin 128) (w : Fin 16) (f : WireHist → WireHist) :
    (s.onWire u w f).stalls = s.stalls ∧ (s.onWire u w f).reaches = s.reaches := by
  simp [State.onWire]

@[simp] theorem State.wireRecord_reach (s : State) (u : Fin 128) (w : Fin 16) (outcome sw : Nat) :
    (s.wireRecord u w outcome sw).stalls = s.stalls ∧ (s.wireRecord u w outcome sw).reaches = s.reaches := by
  simp [State.wireRecord]

@[simp] theorem State.confirmWire_reach (s : State) (u : Fin 128) (w : Fin 16) (outcome sw : Nat) :
    (s.confirmWire u w outcome sw).stalls = s.stalls ∧ (s.confirmWire u w outcome sw).reaches = s.reaches := by
  simp [State.confirmWire]

@[simp] theorem State.clearWire_reach (s : State) (u : Fin 128) (w : Fin 16) :
    (s.clearWire u w).stalls = s.stalls ∧ (s.clearWire u w).reaches = s.reaches := by
  unfold State.clearWire
  dsimp only
  split <;> simp

@[simp] theorem State.wireOutcome_reach (s : State) (u : Fin 128) (w : Fin 16) (out sw : Nat) :
    (s.wireOutcome u w out sw).stalls = s.stalls ∧ (s.wireOutcome u w out sw).reaches = s.reaches := by
  unfold State.wireOutcome
  dsimp only
  repeat' split
  all_goals simp

@[simp] theorem State.mendWire_reach (s : State) (u : Fin 128) (w : Fin 16) (sw : Nat) :
    (s.mendWire u w sw).stalls = s.stalls ∧ (s.mendWire u w sw).reaches = s.reaches := by
  simp [State.mendWire]

@[simp] theorem State.commandOutcome_reach (s : State) (u : Fin 128) (mode : BitVec 8) (w : Fin 16) (out sw : Nat) :
    (s.commandOutcome u mode w out sw).stalls = s.stalls ∧ (s.commandOutcome u mode w out sw).reaches = s.reaches := by
  unfold State.commandOutcome
  repeat' split
  all_goals simp

@[simp] theorem State.endProbe_reach (s : State) (u : Fin 128) (q : Probe) (outs : List (Fin 16 × Nat × Nat)) (stopped : Bool) :
    (s.endProbe u q outs stopped).stalls = s.stalls ∧ (s.endProbe u q outs stopped).reaches = s.reaches := by
  unfold State.endProbe
  extract_lets held s1 s2 s3 pend mask s4
  have h2 : s2.stalls = s.stalls ∧ s2.reaches = s.reaches := by
    unfold s2 s1
    split <;> simp
  have h4 : s4.stalls = s.stalls ∧ s4.reaches = s.reaches := by
    unfold s4 s3
    clear_value s2 pend
    split
    · simp [h2]
    · split
      · exact h2
      · rw [State.reaches_onLink _ _ (fun l => { l with delivering := true }) (fun _ => rfl)]
        simp [h2]
    · dsimp only
      repeat' split
      all_goals simp [h2]
  clear_value s4
  simp [h4]

@[simp] theorem State.switchResult_reach (s : State) (u : Fin 128) (c : Fin 16) (out : BitVec 4) :
    (s.switchResult u c out).stalls = s.stalls ∧ (s.switchResult u c out).reaches = s.reaches := by
  unfold State.switchResult
  dsimp only
  repeat' split
  all_goals simp

@[simp] theorem State.finishTest_reach (s : State) (u : Fin 128) (t : BalTest) :
    (s.finishTest u t).stalls = s.stalls ∧ (s.finishTest u t).reaches = s.reaches := by
  unfold State.finishTest
  split <;> simp

@[simp] theorem State.loseProbes_reach (s : State) (u : Fin 128) : (s.loseProbes u).stalls = s.stalls ∧ (s.loseProbes u).reaches = s.reaches := by
  unfold State.loseProbes
  extract_lets none_ isCmd waiting _ s1 s2 s3
  have h2 : s2.stalls = s.stalls ∧ s2.reaches = s.reaches := by
    have h1 : s1.stalls = s.stalls ∧ s1.reaches = s.reaches := ⟨rfl, rfl⟩
    clear_value s1
    unfold s2
    split
    · dsimp only
      split <;> simp [h1]
    · exact h1
  have h3 : s3.stalls = s.stalls ∧ s3.reaches = s.reaches := by
    clear_value s2
    unfold s3
    split <;> simp [h2]
  clear_value s3
  simp [h3]

end Sys2Proof.Machine
end

section
/-! SUPPORT. What the loss of a unit and an enumeration leave of the islands (03). -/

namespace Sys2Proof.Machine

@[simp] theorem State.settleMask_isl (s : State) (u : Fin 128) : (s.settleMask u).isl = s.isl := by
  unfold State.settleMask
  dsimp only
  split <;> simp

@[simp] theorem State.turnOn_isl (s : State) (ch : Fin 24) : (s.turnOn ch).isl = s.isl := by
  unfold State.turnOn
  dsimp only
  repeat' split
  all_goals simp

@[simp] theorem State.turnOff_isl (s : State) (ch : Fin 24) : (s.turnOff ch).isl = s.isl := by
  simp [State.turnOff]

@[simp] theorem State.settleOut_isl (s : State) (ch : Fin 24) : (s.settleOut ch).isl = s.isl := by
  unfold State.settleOut
  dsimp only
  repeat' split
  all_goals simp

@[simp] theorem State.command_isl (s : State) (ch : Fin 24) (on : Bool) : (s.command ch on).isl = s.isl := by
  simp [State.command]

@[simp] theorem State.strEvent_isl (s : State) (base : Nat) (str : Fin 4) : (s.strEvent base str).isl = s.isl := by
  simp [State.strEvent]

@[simp] theorem State.abortShunt_isl (s : State) (str : Fin 4) : (s.abortShunt str).isl = s.isl :=
  (congrArg State.isl (s.abortShunt_outsideStrings str) :)

@[simp] theorem State.stopExcitation_isl (s : State) (str : Fin 4) : (s.stopExcitation str).isl = s.isl := by
  unfold State.stopExcitation
  split <;> simp

@[simp] theorem State.enterStr_isl (s : State) (str : Fin 4) (new : StrState) (cause : Nat) (stamp : BitVec 32) :
    (s.enterStr str new cause stamp).isl = s.isl := by
  unfold State.enterStr
  dsimp only
  repeat' split
  all_goals simp

@[simp] theorem State.cmdContactor_isl (s : State) (str : Fin 4) (k : Fin 3) (on : Bool) : (s.cmdContactor str k on).isl = s.isl := by
  unfold State.cmdContactor
  dsimp only
  repeat' split
  all_goals simp

@[simp] theorem State.withdraw_isl (s : State) (str : Fin 4) : (s.withdraw str).isl = s.isl := by
  simp [State.withdraw]

@[simp] theorem State.closeRefused_isl (s : State) (str : Fin 4) (code d3 : Nat) : (s.closeRefused str code d3).isl = s.isl := by
  unfold State.closeRefused
  split <;> simp

@[simp] theorem State.abortPrecharge_isl (s : State) (str : Fin 4) : (s.abortPrecharge str).isl = s.isl := by
  unfold State.abortPrecharge
  split <;> simp

@[simp] theorem State.countBreak_isl (s : State) (str : Fin 4) (i : Option Nat) : (s.countBreak str i).isl = s.isl := by
  unfold State.countBreak
  dsimp only
  repeat' split
  all_goals simp

@[simp] theorem State.openDone_isl (s : State) (str : Fin 4) (welded : Bool) : (s.openDone str welded).isl = s.isl := by
  simp [State.openDone]

@[simp] theorem State.weldEval_isl (s : State) (str : Fin 4) : (s.weldEval str).isl = s.isl := by
  unfold State.weldEval
  dsimp only
  repeat' split
  all_goals simp

@[simp] theorem State.weldedEval_isl (s : State) (str : Fin 4) : (s.weldedEval str).isl = s.isl := by
  unfold State.weldedEval
  split <;> simp

@[simp] theorem State.startWeldCheck_isl (s : State) (str : Fin 4) (cause : Nat) (stamp : BitVec 32) :
    (s.startWeldCheck str cause stamp).isl = s.isl := by
  simp [State.startWeldCheck]

@[simp] theorem State.weldPeers_isl (s : State) : s.weldPeers.isl = s.isl := by
  simp [State.weldPeers]

@[simp] theorem State.startOpening_isl (s : State) (str : Fin 4) (cause : Nat) (stamp : BitVec 32) :
    (s.startOpening str cause stamp).isl = s.isl := by
  simp [State.startOpening]

@[simp] theorem State.breakNow_isl (s : State) (str : Fin 4) (cause : Nat) (i : Option Nat) : (s.breakNow str cause i).isl = s.isl := by
  unfold State.breakNow
  dsimp only
  repeat' split
  all_goals simp

@[simp] theorem State.requestB_isl (s : State) (str : Fin 4) (cause : Nat) : (s.requestB str cause).isl = s.isl := by
  unfold State.requestB
  split <;> simp

@[simp] theorem State.sendLink_isl (s : State) (i : Fin 32) (k : LinkSlot) : (s.sendLink i k).isl = s.isl := by
  simp [State.sendLink]

@[simp] theorem State.sendBalance_isl (s : State) (u : Fin 128) : (s.sendBalance u).isl = s.isl := by
  simp [State.sendBalance]

@[simp] theorem State.driveMask_isl (s : State) (u : Fin 128) (m testArg : BitVec 16) : (s.driveMask u m testArg).isl = s.isl := by
  simp [State.driveMask]

@[simp] theorem State.releaseMask_isl (s : State) (u : Fin 128) : (s.releaseMask u).isl = s.isl := by
  simp [State.releaseMask]

@[simp] theorem State.sendRouting_isl (s : State) (u : Fin 128) (ch : Option Nat) : (s.sendRouting u ch).isl = s.isl := by
  simp [State.sendRouting]

@[simp] theorem State.resumeTest_isl (s : State) (u : Fin 128) : (s.resumeTest u).isl = s.isl := by
  unfold State.resumeTest
  repeat' split
  all_goals simp

@[simp] theorem State.stopRouting_isl (s : State) (u : Fin 128) : (s.stopRouting u).isl = s.isl := by
  unfold State.stopRouting
  repeat' split
  all_goals simp

@[simp] theorem State.endRun_isl (s : State) (u : Fin 128) (code : BitVec 4) : (s.endRun u code).isl = s.isl := by
  unfold State.endRun
  split <;> simp

@[simp] theorem State.abortRun_isl (s : State) (u : Fin 128) : (s.abortRun u).isl = s.isl := by
  unfold State.abortRun
  split <;> simp

@[simp] theorem State.integEvent_isl (s : State) (u : Fin 128) : (s.integEvent u).isl = s.isl := by
  simp [State.integEvent]

@[simp] theorem State.changeInvalid_isl (s : State) (u : Fin 128) (f : UnitInteg → UnitInteg) : (s.changeInvalid u f).isl = s.isl := by
  simp [State.changeInvalid]

@[simp] theorem State.onWire_isl (s : State) (u : Fin 128) (w : Fin 16) (f : WireHist → WireHist) : (s.onWire u w f).isl = s.isl := by
  simp [State.onWire]

@[simp] theorem State.wireRecord_isl (s : State) (u : Fin 128) (w : Fin 16) (outcome sw : Nat) : (s.wireRecord u w outcome sw).isl = s.isl := by
  simp [State.wireRecord]

@[simp] theorem State.confirmWire_isl (s : State) (u : Fin 128) (w : Fin 16) (outcome sw : Nat) : (s.confirmWire u w outcome sw).isl = s.isl := by
  simp [State.confirmWire]

@[simp] theorem State.clearWire_isl (s : State) (u : Fin 128) (w : Fin 16) : (s.clearWire u w).isl = s.isl := by
  unfold State.clearWire
  dsimp only
  split <;> simp

@[simp] theorem State.wireOutcome_isl (s : State) (u : Fin 128) (w : Fin 16) (out sw : Nat) : (s.wireOutcome u w out sw).isl = s.isl := by
  unfold State.wireOutcome
  dsimp only
  repeat' split
  all_goals simp

@[simp] theorem State.mendWire_isl (s : State) (u : Fin 128) (w : Fin 16) (sw : Nat) : (s.mendWire u w sw).isl = s.isl := by
  simp [State.mendWire]

@[simp] theorem State.commandOutcome_isl (s : State) (u : Fin 128) (mode : BitVec 8) (w : Fin 16) (out sw : Nat) :
    (s.commandOutcome u mode w out sw).isl = s.isl := by
  unfold State.commandOutcome
  repeat' split
  all_goals simp

@[simp] theorem State.endProbe_isl (s : State) (u : Fin 128) (q : Probe) (outs : List (Fin 16 × Nat × Nat)) (stopped : Bool) :
    (s.endProbe u q outs stopped).isl = s.isl := by
  unfold State.endProbe
  dsimp only
  repeat' split
  all_goals simp

@[simp] theorem State.switchResult_isl (s : State) (u : Fin 128) (c : Fin 16) (out : BitVec 4) : (s.switchResult u c out).isl = s.isl := by
  unfold State.switchResult
  dsimp only
  repeat' split
  all_goals simp

@[simp] theorem State.finishTest_isl (s : State) (u : Fin 128) (t : BalTest) : (s.finishTest u t).isl = s.isl := by
  unfold State.finishTest
  split <;> simp

@[simp] theorem State.loseProbes_isl (s : State) (u : Fin 128) : (s.loseProbes u).isl = s.isl := by
  unfold State.loseProbes
  dsimp only
  repeat' split
  all_goals simp

@[simp] theorem State.loseUnit_isl (s : State) (u : Fin 128) : (s.loseUnit u).isl = s.isl := by
  unfold State.loseUnit
  dsimp only
  repeat' split
  all_goals simp

@[simp] theorem State.kickEnum_isl (s : State) (i : Fin 32) : (s.kickEnum i).isl = s.isl := by
  unfold State.kickEnum
  repeat' split
  all_goals simp

@[simp] theorem State.rollCall_isl (s : State) (i : Fin 32) : (s.rollCall i).isl = s.isl := by
  unfold State.rollCall
  dsimp only
  split <;> simp

end Sys2Proof.Machine
end

section
/-! SUPPORT. Breaks, the eight-frame boundary, the loopback test and PHY faults (03 R95, R106 to R110). -/

namespace Sys2Proof.Machine

-- A unit that becomes unreached, and a stall whose units all do.

@[simp] theorem State.loseUnit_stalls (s : State) (u : Fin 128) : (s.loseUnit u).stalls = s.stalls := by
  unfold State.loseUnit
  extract_lets s1 s2 s3 s4
  have h4 : s4.stalls = s.stalls := by simp [s4, s3, s2, s1]
  clear_value s4
  repeat' split
  all_goals simp [h4]

theorem State.loseUnit_reaches (s : State) (u v : Fin 128) : (s.loseUnit u).reaches v = if u = v then false else s.reaches v := by
  unfold State.loseUnit
  extract_lets s1 s2 s3 s4
  have h1 : s1.reaches = s.reaches := by simp [s1]
  have h2 : s2.reaches v = if u = v then false else s1.reaches v := by
    clear_value s1
    simp only [s2, State.reaches, State.onLink, Bank.at_upd]
    split <;> rfl
  have h4 : s4.reaches = s2.reaches := State.reaches_of_ulink (by simp [s4, s3])
  rw [← h1, ← h2, ← h4]
  clear_value s4
  repeat' split
  all_goals simp

theorem State.foldl_loseUnit_stalls (p : Fin 128 → Prop) [DecidablePred p] (l : List (Fin 128)) (s : State) :
    (l.foldl (fun s u => if p u then s.loseUnit u else s) s).stalls = s.stalls :=
  State.foldl_stalls l _ (fun t u => by split <;> simp) s

/-- The units of a list that have a property become unreached, and no other (03 R106). -/
theorem State.foldl_loseUnit_reaches (p : Fin 128 → Prop) [DecidablePred p] (v : Fin 128) : ∀ (l : List (Fin 128)) (s : State),
    (l.foldl (fun s u => if p u then s.loseUnit u else s) s).reaches v = if v ∈ l ∧ p v then false else s.reaches v
  | [], s => by simp
  | u :: l, s => by
    have hu : (if p u then s.loseUnit u else s).reaches v = if u = v ∧ p v then false else s.reaches v := by
      by_cases h : p u
      · rw [if_pos h, State.loseUnit_reaches]
        by_cases e : u = v
        · subst e
          rw [if_pos rfl, if_pos ⟨rfl, h⟩]
        · rw [if_neg e, if_neg fun hv => e hv.1]
      · rw [if_neg h, if_neg fun hv : u = v ∧ p v => h (hv.1 ▸ hv.2)]
    rw [List.foldl_cons, State.foldl_loseUnit_reaches p v l, hu]
    simp only [List.mem_cons]
    grind

-- The records of a stall that loses units (03 R106, R110; 13 R373).

@[simp] theorem State.studbook_evt_stall (s : State) (t : BitVec 6) (n : Nat) (d : List Byte) :
    (s.studbook t n d).evt.stall = s.evt.stall := by
  unfold State.studbook State.recorderTakes
  dsimp only
  repeat' split
  all_goals rfl

/-- A record of a stall sets its bit of STALL_EVT. -/
theorem State.linkRecord_effect (s : State) (i : Fin 32) (what : Byte) :
    (s.linkRecord i what).stalls = s.stalls ∧ (s.linkRecord i what).reaches = s.reaches ∧
    (s.linkRecord i what).evt.stall.getLsbD i.val = true := by
  unfold State.linkRecord
  refine ⟨by simp [State.stallEvent], State.reaches_of_ulink (by simp [State.stallEvent]), ?_⟩
  rw [State.studbook_evt_stall]
  exact setBit_getLsbD_self _ i.isLt

/-- A break above position 0 leaves the stall Degraded, with the units below the break reached (03 R106, R107). -/
theorem State.declareBreak_degraded (s : State) (i : Fin 32) {k : Fin 4} (hk : k ≠ 0) :
    let t := s.declareBreak i k
    (t.stalls.at i).lstate = .degraded ∧ (t.stalls.at i).breakPos = BitVec.ofNat 3 k.val ∧
    (t.stalls.at i).breakCnt = satAdd 0xFFFF (s.stalls.at i).breakCnt 1 ∧ t.evt.stall.getLsbD i.val = true ∧
    ∀ j, t.reaches (unitPos i j) = if k.val ≤ j.val then false else s.reaches (unitPos i j) := by
  unfold State.declareBreak
  extract_lets s1 s2 t
  have h1 : s1.stalls = s.stalls := State.foldl_loseUnit_stalls _ _ s
  have hr (j : Fin 4) : s1.reaches (unitPos i j) = if k.val ≤ j.val then false else s.reaches (unitPos i j) := by
    have h := State.foldl_loseUnit_reaches (fun u => k.val ≤ (unitOf u).val) (unitPos i j) (unitsOf i) s
    simpa only [unitPos_mem_unitsOf, true_and, unitOf_unitPos] using h
  obtain ⟨hstalls, hreaches, hevt⟩ :=
    State.linkRecord_effect ((s2.onStall i (fun x => { x with lstate := .degraded, breakPos := BitVec.ofNat 3 k.val })).countLoss i) i 1
  have ht : t = (((s2.onStall i (fun x => { x with lstate := .degraded, breakPos := BitVec.ofNat 3 k.val })).countLoss i).linkRecord i 1) :=
    if_neg hk
  rw [ht, hreaches, hstalls]
  clear_value s1
  refine ⟨?_, ?_, ?_, hevt, fun j => ?_⟩
  · simp [State.countLoss, State.onStall]
  · simp [State.countLoss, State.onStall]
  · simp [State.countLoss, State.onStall, s2, h1]
  · exact hr j

/-- A break at position 0 leaves the stall Lost (03 R106). -/
theorem State.declareBreak_lost (s : State) (i : Fin 32) :
    let t := s.declareBreak i 0
    (t.stalls.at i).lstate = .lost ∧ (t.stalls.at i).breakPos = 0 ∧ ∀ j, t.reaches (unitPos i j) = false := by
  unfold State.declareBreak
  extract_lets s1 s2 t
  have hr (j : Fin 4) : s2.reaches (unitPos i j) = false := by
    have h1 : s1.reaches (unitPos i j) = _ :=
      State.foldl_loseUnit_reaches (fun u => (0 : Fin 4).val ≤ (unitOf u).val) (unitPos i j) (unitsOf i) s
    rw [if_pos ⟨unitPos_mem_unitsOf i j, Nat.zero_le _⟩] at h1
    clear_value s1
    exact (congrFun (State.reaches_of_ulink (by simp [s2])) _).trans h1
  have ht : t = s2.becomeLost i := if_pos rfl
  rw [ht]
  clear_value s2
  unfold State.becomeLost
  extract_lets marked s3
  have h3 : (s3.stalls.at i).lstate = .lost ∧ (s3.stalls.at i).breakPos = 0 := by simp [s3, State.onStall]
  split
  · exact ⟨h3.1, h3.2, hr⟩
  · obtain ⟨hstalls, hreaches, -⟩ := State.linkRecord_effect (s3.countLoss i) i 2
    rw [hstalls, hreaches]
    refine ⟨?_, ?_, hr⟩ <;> simp [State.countLoss, State.onStall, h3]

/-- A full enumeration that starts (03 R95, R96). -/
theorem State.startEnum_stalls (s : State) (i : Fin 32) (cause : BitVec 4) :
    (s.startEnum i cause).stalls = s.stalls.upd i (fun x => { x with
      lstate := .enumerating, breakPos := 4, cause := cause, enumCnt := x.enumCnt + 1, linkQ := [], rollCall := []
      enum := some { phase := .start, pos := 0, a := 0, rejoin := false, first := 0 } }) := by
  have h : ((unitsOf i).foldl (fun s u => (s.loseUnit u).onLink u (fun l =>
      { l with foundType := 0, foundId := 0, segDelay := 0, delay := 0 })) s).stalls = s.stalls :=
    State.foldl_stalls _ _ (fun t u => by simp) s
  simp only [State.startEnum, State.onStall, h]

/-- What an enumeration that starts at a boundary leaves in its stall (03 R95). -/
theorem State.kickEnum_stall (s : State) (i : Fin 32) :
    ((s.kickEnum i).stalls.at i).lstate = (s.stalls.at i).lstate ∧ ((s.kickEnum i).stalls.at i).cause = (s.stalls.at i).cause ∧
    ((s.kickEnum i).stalls.at i).enumCnt = (s.stalls.at i).enumCnt := by
  unfold State.kickEnum
  repeat' split
  · simp [State.onStall, State.sendLink, State.emit]
  · exact ⟨rfl, rfl, rfl⟩
  · exact ⟨rfl, rfl, rfl⟩

/-- What the boundary of eight frames does with one stall. -/
def State.boundary (s : State) (i : Fin 32) : State :=
  if s.driven i = false then s
  else if (s.stalls.at i).lstate = .degraded then s.rollCall i
  else if (s.stalls.at i).lstate = .lost ∧ (s.stalls.at i).enum.isNone then (s.startEnum i 1).kickEnum i
  else s.kickEnum i

theorem State.rollCall_stalls_at_of_ne (s : State) {i j : Fin 32} (h : j ≠ i) : (s.rollCall i).stalls.at j = s.stalls.at j := by
  unfold State.rollCall
  dsimp only
  split <;> simp [State.onStall, State.sendLink, State.emit, Bank.at_upd_of_ne _ _ (Ne.symm h)]

theorem State.boundary_of_ne (s : State) {i j : Fin 32} (h : j ≠ i) :
    (s.boundary i).stalls.at j = s.stalls.at j ∧ (s.boundary i).isl = s.isl := by
  have hkick (t : State) : (t.kickEnum i).stalls.at j = t.stalls.at j := State.stalls_at_of_besidesStall (t.kickEnum_besidesStall i) h
  unfold State.boundary
  repeat' split
  · exact ⟨rfl, rfl⟩
  · exact ⟨s.rollCall_stalls_at_of_ne h, s.rollCall_isl i⟩
  · rw [hkick, State.startEnum_stalls, Bank.at_upd_of_ne _ _ (Ne.symm h)]
    exact ⟨rfl, by simp [State.startEnum]⟩
  · exact ⟨hkick s, s.kickEnum_isl i⟩

/-- A fold of which one place alone moves a view: the view is what that place's step leaves. -/
theorem foldl_of_single {σ ι β : Type} (view : σ → β) (f : σ → ι → σ) (i : ι)
    (h : ∀ t j, j ≠ i → view (f t j) = view t) : ∀ {l : List ι}, i ∈ l → l.Nodup → ∀ s,
    ∃ t, view t = view s ∧ view (l.foldl f s) = view (f t i)
  | j :: l, hi, hl, s => by
    obtain ⟨hj, hl⟩ := List.nodup_cons.mp hl
    by_cases e : i = j
    · subst e
      refine ⟨s, rfl, List.foldlRecOn l f (motive := fun t => view t = view (f s i)) rfl fun t ht k hk => (h t k ?_).trans ht⟩
      exact fun e => hj (e ▸ hk)
    · obtain ⟨t, ht, hf⟩ := foldl_of_single view f i h ((List.mem_cons.mp hi).resolve_left e) hl (f s j)
      exact ⟨t, ht.trans (h s j (Ne.symm e)), hf⟩

/-- The boundary starts a full enumeration of a Lost stall (03 R95). -/
theorem State.boundary_of_lost {s : State} {i : Fin 32} (hdriven : s.driven i = true) (hlost : (s.stalls.at i).lstate = .lost)
    (henum : (s.stalls.at i).enum = none) : ((s.boundary i).stalls.at i).lstate = .enumerating ∧
    ((s.boundary i).stalls.at i).cause = 1 ∧ ((s.boundary i).stalls.at i).enumCnt = (s.stalls.at i).enumCnt + 1 := by
  have h : s.boundary i = (s.startEnum i 1).kickEnum i := by simp [State.boundary, hdriven, hlost, henum]
  obtain ⟨hl, hc, hn⟩ := (s.startEnum i 1).kickEnum_stall i
  rw [h, hl, hc, hn, State.startEnum_stalls, Bank.at_upd_self]
  exact ⟨rfl, rfl, rfl⟩

theorem State.foldl_boundary_of_lost {l : List (Fin 32)} {s : State} {i : Fin 32} (hi : i ∈ l) (hl : l.Nodup)
    (hdriven : s.driven i = true) (hlost : (s.stalls.at i).lstate = .lost)
    (henum : (s.stalls.at i).enum = none) : let t := l.foldl State.boundary s
    (t.stalls.at i).lstate = .enumerating ∧ (t.stalls.at i).cause = 1 ∧ (t.stalls.at i).enumCnt = (s.stalls.at i).enumCnt + 1 := by
  obtain ⟨u, hu, hf⟩ := foldl_of_single (fun t : State => (t.stalls.at i, t.isl)) State.boundary i
    (fun t j hj => Prod.ext (t.boundary_of_ne (Ne.symm hj)).1 (t.boundary_of_ne (Ne.symm hj)).2) hi hl s
  have hat : u.stalls.at i = s.stalls.at i := congrArg Prod.fst hu
  have hisl : u.isl = s.isl := congrArg Prod.snd hu
  have hfat : (l.foldl State.boundary s).stalls.at i = (u.boundary i).stalls.at i := congrArg Prod.fst hf
  have hd : u.driven i = true := by
    unfold State.driven at *
    rw [hat, hisl]
    exact hdriven
  have h := State.boundary_of_lost hd (hat ▸ hlost) (hat ▸ henum)
  rw [hat] at h
  dsimp only
  rw [hfat]
  exact h

theorem State.startBlocks_stalls (s : State) (str : Fin 4) : (s.startBlocks str).stalls = s.stalls := by
  unfold State.startBlocks
  dsimp only
  split <;> rfl

theorem exec_eightFrameBoundary {s : State} (h : s.frame % 8 = 0) :
    exec .eightFrameBoundary s = answer s ((places 4).foldl (fun s str => s.startBlocks str) ((places 32).foldl State.boundary s)) :=
  congrArg (answer s) (if_pos h)

/-- A PHY fault: every unit of the stall becomes unreached (03 R110). -/
theorem answers_phyFault {s : State} {i : Fin 32} (hdriven : s.driven i = true) (hrun : 3 ≤ (s.stalls.at i).failRun)
    (hphy : (s.stalls.at i).lstate ≠ .phyFault) : Answers (.phyFault i) s fun t => (t.stalls.at i).lstate = .phyFault ∧
      (t.stalls.at i).breakCnt = satAdd 0xFFFF (s.stalls.at i).breakCnt 1 ∧ t.evt.stall.getLsbD i.val = true ∧
      ∀ k, (t.ulink.at (unitPos i k)).reached = false := by
  refine answers_of_exec (u := _) (congrArg (answer s) (if_pos ⟨hdriven, hrun, hphy⟩)) ?_
  extract_lets s1 s2
  have h1 : s1.stalls = s.stalls := State.foldl_stalls _ _ (fun t u => t.loseUnit_stalls u) s
  have hr (j : Fin 4) : s1.reaches (unitPos i j) = false := by
    have h := State.foldl_loseUnit_reaches (fun _ => True) (unitPos i j) (unitsOf i) s
    rw [if_pos ⟨unitPos_mem_unitsOf i j, trivial⟩] at h
    simpa only [if_true] using h
  obtain ⟨hstalls, hreaches, hevt⟩ := State.linkRecord_effect (s2.countLoss i) i 3
  have hr2 : (s2.countLoss i).reaches = s1.reaches := State.reaches_of_ulink (by simp [s2, State.countLoss])
  simp only [eventInterrupt_frame]
  refine ⟨?_, ?_, hevt, fun k => (congrFun (hreaches.trans hr2) _).trans (hr k)⟩
  · rw [hstalls]
    simp [State.countLoss, State.onStall, s2]
  · rw [hstalls]
    simp [State.countLoss, State.onStall, s2, h1]

/-- A loopback test of a driven stall (03 R110). -/
theorem answers_loopbackTest {s : State} {i : Fin 32} (v : Word) (hdriven : s.driven i = true) {P : State → Prop}
    (h : P (s.onStall i (fun x => if v = x.pattern then
      { x with loopAlt := !x.loopAlt, loopOk := true, loopRun := satAdd 15 x.loopRun 1, failRun := 0, passRun := x.passRun + 1 }
      else { x with loopAlt := !x.loopAlt, loopOk := false, loopRun := 0, loopFail := satAdd 0xFFFF x.loopFail 1
                    failRun := x.failRun + 1, passRun := 0 }))) : Answers (.loopbackTest i v) s P :=
  answers_of_exec_of_evt_eq (congrArg (answer s) (if_pos hdriven)) rfl h

/-- Settles O17: what a break, a boundary, a loopback test and a PHY fault leave of a stall. -/
theorem breaksLoopbackAndPhyFaults : Obligations.BreaksLoopbackAndPhyFaults := by
  unfold Obligations.BreaksLoopbackAndPhyFaults
  refine ⟨fun i k s hk hdriven hreached hmiss hbelow => ?_, fun i s hdriven hreached hmiss => ?_, fun i k s hmiss => ?_,
    fun i s hframe hdriven hlost henum => ?_, fun s hframe => ?_, fun i s hdriven => ?_, fun i v s hdriven hv => ?_,
    fun i s hdriven hrun hphy => answers_phyFault hdriven hrun hphy, fun i s hrun => ?_, fun i s hdriven hphy hrun => ?_, fun i s => ?_⟩
  case refine_1 =>
    have hb : (k == 0 || (s.ulink.at (unitPos i (k - 1))).missRun == 0) = true := by simp [hbelow]
    refine answers_of_exec (u := _) (congrArg (answer s) (if_pos ⟨hdriven, hreached, hmiss, hb⟩)) ?_
    obtain ⟨hl, hp, hc, he, hr⟩ := s.declareBreak_degraded i hk
    simp only [eventInterrupt_frame]
    exact ⟨hl, hp, hc, he, fun j hj => (hr j).trans (if_pos hj), fun j hj => (hr j).trans (if_neg (Nat.not_le.mpr hj))⟩
  case refine_2 =>
    refine answers_of_exec (u := _) (congrArg (answer s) (if_pos ⟨hdriven, hreached, hmiss, rfl⟩)) ?_
    simp only [eventInterrupt_frame]
    exact s.declareBreak_lost i
  case refine_3 =>
    exact answers_of_exec_of_evt_eq (u := s) (congrArg (answer s) (if_neg fun h => absurd h.2.2.1 (Nat.not_le.mpr hmiss))) rfl rfl
  case refine_4 =>
    refine answers_of_exec (exec_eightFrameBoundary hframe) ?_
    have hblocks (t : State) : ((places 4).foldl (fun s str => s.startBlocks str) t).stalls = t.stalls :=
      State.foldl_stalls _ _ (fun t str => t.startBlocks_stalls str) t
    simp only [eventInterrupt_frame, hblocks]
    exact State.foldl_boundary_of_lost (List.mem_finRange i) (List.nodup_finRange 32) hdriven hlost henum
  case refine_5 => exact answers_of_exec_of_evt_eq (u := s) (congrArg (answer s) (if_neg hframe)) rfl rfl
  case refine_6 =>
    refine answers_loopbackTest _ hdriven ?_
    refine ⟨?_, ?_, ?_, ?_, fun j hj => ?_, rfl⟩
    case refine_5 => exact Bank.at_upd_of_ne _ _ (Ne.symm hj)
    all_goals simp [State.onStall]
  case refine_7 =>
    refine answers_loopbackTest v hdriven ?_
    refine ⟨?_, ?_, ?_, ?_, ?_, rfl⟩
    all_goals simp [State.onStall, hv]
  case refine_8 =>
    exact answers_of_exec_of_evt_eq (u := s) (congrArg (answer s) (if_neg fun h => absurd h.2.1 (Nat.not_le.mpr hrun))) rfl rfl
  case refine_9 =>
    refine answers_of_exec (u := s.startEnum i 4) (congrArg (answer s) (if_pos ⟨hdriven, hphy, hrun⟩)) ?_
    simp only [eventInterrupt_frame, State.startEnum_stalls, Bank.at_upd_self, and_self]
  case refine_10 => exact answers_of_exec_of_evt_eq (u := s.clearStallErr i) rfl rfl rfl

end Sys2Proof.Machine
end

section
/-! SUPPORT. Entries that arrive, and the visit of a ring pair (02 R63, R64, R67; 11 R332, R333). -/

namespace Sys2Proof.Machine

-- Submission entries that arrive (02 R63, R64, R67).

/-- The command that a submission entry asks for, with the stamp that it receives. -/
def State.arrivalCmd (s : State) (r : Fin 16) (e : BitVec 512) : Cmd :=
  { ring := r, stamp := s.hif.stampNext, tag := e.extractLsb' 16 16, noIrq := e.getLsbD 13, ops := e.extractLsb' 256 256 }

/-- The dependencies of an arriving entry. -/
def State.arrivalDeps (s : State) (r : Fin 16) (e : BitVec 512) : List (DepRes × Bool) :=
  entryDeps s.hif.issued s.hif.stampNext (s.rings.at r).fetched e

/-- An arriving entry as it is held before the checks at fetch. -/
def State.arrivalFlight (s : State) (r : Fin 16) (e : BitVec 512) : Flight :=
  { cmd := s.arrivalCmd r e, opcode := e.extractLsb' 0 8
    deps := (s.arrivalDeps r e).filterMap (fun d =>
      match d.1 with
      | DepRes.wait st => some { stamp := st, success := d.2, ended := (s.hif.finalOf st).map Final.status }
      | _ => none)
    stage := .waiting, dmaDone := 0 }

/-- The state in which an arriving entry has its stamp, before the checks at fetch. -/
def State.admitted (s : State) (r : Fin 16) (e : BitVec 512) : State :=
  State.refreshEligible { s.onRing r (fun x =>
    { x with sqCi := (x.sqCi + 1) % 2 ^ x.sqLog2.toNat, reading := x.reading - 1
             fetched := (s.hif.stampNext :: x.fetched).take 4096 }) with
    hif := { s.hif with
      issued := s.hif.issued + 1, fetchQ := s.hif.fetchQ.drop 1, flights := s.hif.flights ++ [s.arrivalFlight r e] } }

theorem State.admitted_hif (s : State) (r : Fin 16) (e : BitVec 512) : (s.admitted r e).hif =
    { s.hif with
      issued := s.hif.issued + 1, fetchQ := s.hif.fetchQ.drop 1, flights := s.hif.flights ++ [s.arrivalFlight r e] } := by
  simp only [State.admitted, State.refreshEligible_frame]

theorem State.admitted_ring (s : State) (r : Fin 16) (e : BitVec 512) : (s.admitted r e).rings.at r =
    { s.rings.at r with
      sqCi := ((s.rings.at r).sqCi + 1) % 2 ^ (s.rings.at r).sqLog2.toNat, reading := (s.rings.at r).reading - 1
      fetched := (s.hif.stampNext :: (s.rings.at r).fetched).take 4096, eligibleAt := ((s.admitted r e).rings.at r).eligibleAt } := by
  unfold State.admitted
  rw [State.refreshEligible_at]
  simp [State.onRing]

theorem State.admitted_clk_evt (s : State) (r : Fin 16) (e : BitVec 512) :
    (s.admitted r e).clk = s.clk ∧ (s.admitted r e).evt = s.evt := by
  simp [State.admitted]

/-- The checks at fetch (02 R67). -/
theorem arrive_eq (s : State) (r : Fin 16) (e : BitVec 512) : arrive s r e =
    if !opcodeAssigned (e.extractLsb' 0 8) then (s.admitted r e).complete (s.arrivalCmd r e) stBadOpcode
    else if e.extractLsb' 8 2 ≠ (e.extractLsb' 0 8).extractLsb' 6 2 ∨ e.extractLsb' 8 2 ≠ (s.rings.at r).cls then
      (s.admitted r e).complete (s.arrivalCmd r e) stWrongClass
    else match (s.arrivalDeps r e).find? (fun d => d.1 == DepRes.forward || d.1 == DepRes.stale) with
      | some d => (s.admitted r e).complete (s.arrivalCmd r e) (if d.1 = DepRes.stale then stDepStale else stDepForward)
      | none =>
        if isStreamOp (e.extractLsb' 0 8) &&
            63 ≤ (s.hif.flights.filter (fun f => f.cmd.ring == r && isStreamOp f.opcode)).length then
          (s.admitted r e).complete (s.arrivalCmd r e) stBusy
        else
          (if e.getLsbD 12 then (s.admitted r e).post (s.arrivalCmd r e) (e.extractLsb' 0 8) stFetched 0 false false
            else s.admitted r e).settleDeps s.hif.stampNext := by
  rfl

/-- An entry that arrives with a fresh stamp can end. -/
theorem admitted_ending {s : State} {r : Fin 16} {e : BitVec 512} (hst : (s.rings.at r).st = .active)
    (hkept : (s.rings.at r).discard = false) (hfresh : s.hif.flight s.hif.stampNext = none) :
    Ending s (s.admitted r e) (s.arrivalCmd r e) (s.arrivalFlight r e) := by
  have hring := s.admitted_ring r e
  constructor
  case flight =>
    rw [s.admitted_hif]
    unfold Hif.flight at hfresh ⊢
    rw [List.find?_append, show (s.arrivalCmd r e).stamp = s.hif.stampNext from rfl, hfresh]
    simp [State.arrivalFlight, State.arrivalCmd]
  case same => rfl
  case enabled =>
    change ((s.admitted r e).rings.at r).st ≠ _
    rw [hring]
    simp [hst]
  case kept =>
    change ((s.admitted r e).rings.at r).discard = false
    rw [hring]
    exact hkept
  case tracked =>
    have hage : (BitVec.ofNat 32 (s.hif.issued + 1) - BitVec.ofNat 32 s.hif.issued).toNat = 1 := by
      rw [BitVec.ofNat_add, BitVec.add_comm, BitVec.add_sub_cancel]
      rfl
    rw [s.admitted_hif]
    simp only [Hif.tracked, Hif.age, Hif.stampNext, State.arrivalCmd, hage]
    simp
  case trough =>
    change ((s.admitted r e).rings.at r).trough = _
    rw [hring]
    rfl
  case now => rw [(s.admitted_clk_evt r e).1]

theorem exec_submissionArrival {s : State} {r : Fin 16} (e : BitVec 512) (hq : s.hif.fetchQ.head? = some r)
    (hst : (s.rings.at r).st = .active) : exec (.submissionArrival r e) s = answer s (arrive s r e) :=
  congrArg (answer s) (if_pos ⟨hq, hst⟩)

-- What posting and completing leave of the ring pairs and of the stamps.

theorem State.post_ring_at (s : State) (c : Cmd) (op x : BitVec 8) (res : BitVec 128) (final gap : Bool) (q : Fin 16) :
    (s.post c op x res final gap).rings.at q =
      { s.rings.at q with trough := ((s.post c op x res final gap).rings.at q).trough } := by
  unfold State.post
  dsimp only
  split
  · rfl
  · simp only [State.onRing, Bank.at_upd]
    split <;> simp_all

theorem State.complete_ring_at (s : State) (c : Cmd) (x : BitVec 8) (res : BitVec 128) (q : Fin 16) :
    (s.complete c x res).rings.at q =
      { s.rings.at q with
        trough := ((s.complete c x res).rings.at q).trough, eligibleAt := ((s.complete c x res).rings.at q).eligibleAt } := by
  unfold State.complete
  split
  · rfl
  · dsimp only
    rw [State.refreshEligible_at]
    dsimp only
    rw [State.post_ring_at]

theorem State.post_hif_kept (s : State) (c : Cmd) (op x : BitVec 8) (res : BitVec 128) (final gap : Bool) :
    (s.post c op x res final gap).hif.issued = s.hif.issued ∧ (s.post c op x res final gap).hif.flights = s.hif.flights := by
  unfold State.post
  dsimp only
  split <;> exact ⟨rfl, rfl⟩

theorem State.complete_issued (s : State) (c : Cmd) (x : BitVec 8) (res : BitVec 128) :
    (s.complete c x res).hif.issued = s.hif.issued := by
  unfold State.complete
  split
  · rfl
  · simp [Hif.recordFinal, State.post_hif_kept]

/-- An entry that a check at fetch ends (02 R67). -/
theorem answers_arrival_ended {s : State} {r : Fin 16} {e : BitVec 512} {x : BitVec 8} {P : State → Prop}
    (hq : s.hif.fetchQ.head? = some r) (hst : (s.rings.at r).st = .active) (hkept : (s.rings.at r).discard = false)
    (hfresh : s.hif.flight s.hif.stampNext = none)
    (harrive : arrive s r e = (s.admitted r e).complete (s.arrivalCmd r e) x)
    (h : ∀ t, Completes s t (s.arrivalCmd r e) (s.arrivalFlight r e) x 0 → t.hif.issued = s.hif.issued + 1 →
      (t.rings.at r).sqCi = ((s.rings.at r).sqCi + 1) % 2 ^ (s.rings.at r).sqLog2.toNat → P t) :
    Answers (.submissionArrival r e) s P := by
  refine answers_of_exec_of_evt_eq ((exec_submissionArrival e hq hst).trans (congrArg (answer s) harrive)) ?_
    (h _ ((admitted_ending hst hkept hfresh).completes x 0) ?_ ?_)
  · rw [(State.complete_frame _ _ _ _).2.2.1, (s.admitted_clk_evt r e).2]
  · rw [State.complete_issued, s.admitted_hif]
  · rw [State.complete_ring_at, s.admitted_ring]

theorem extractLsb'_class (e : BitVec 512) : (e.extractLsb' 0 8).extractLsb' 6 2 = e.extractLsb' 6 2 := by
  ext i hi
  simp [BitVec.getElem_extractLsb']

/-- What a completion of an arriving entry shows in the trough of its ring pair. -/
theorem Completes.in_trough {s t : State} {r : Fin 16} {e : BitVec 512} {x : BitVec 8}
    (h : Completes s t (s.arrivalCmd r e) (s.arrivalFlight r e) x 0) :
    ∃ c, (t.rings.at r).trough = (s.rings.at r).trough ++ [c] ∧ c.status = x ∧ c.final = true ∧ c.tag = e.extractLsb' 16 16 ∧
      c.stamp = s.hif.stampNext ∧ c.result = 0 :=
  ⟨_, h.1, rfl, rfl, rfl, rfl, rfl⟩

/-- A dependency on the command itself lies forward (02 R64). -/
theorem resolveStamp_self (issued : Nat) (stamp : BitVec 32) : resolveStamp issued stamp stamp = .forward := by
  simp [resolveStamp]

theorem State.arrivalDeps_self {s : State} {r : Fin 16} {e : BitVec 512} (hcnt : 1 ≤ (e.extractLsb' 10 2).toNat)
    (hself : e.extractLsb' 64 32 = s.hif.stampNext) (hkind : e.extractLsb' 96 8 = 1) :
    ∃ b l, s.arrivalDeps r e = (.forward, b) :: l := by
  have href : (e.extractLsb' 64 64).extractLsb' 0 32 = s.hif.stampNext := by
    rw [← hself]
    ext i hi
    simp [BitVec.getElem_extractLsb', show i < 64 by omega]
  have hkind' : (e.extractLsb' 64 64).extractLsb' 32 8 = 1 := by
    rw [← hkind]
    ext i hi
    simp [BitVec.getElem_extractLsb', show 32 + i < 64 by omega, ← Nat.add_assoc]
  have hslot : resolveSlot s.hif.issued s.hif.stampNext (s.rings.at r).fetched (e.extractLsb' 64 64) = some .forward := by
    simp only [resolveSlot, href, hkind', if_true, resolveStamp_self]
  unfold State.arrivalDeps entryDeps
  dsimp only
  rw [List.filter_cons_of_pos (p := fun i => decide (i < (e.extractLsb' 10 2).toNat))
      (decide_eq_true (show 0 < (e.extractLsb' 10 2).toNat from hcnt)),
    List.filterMap_cons_some (by rw [hslot]; rfl)]
  exact ⟨_, _, rfl⟩

theorem State.arrivalDeps_none {s : State} {r : Fin 16} {e : BitVec 512} (hcnt : e.extractLsb' 10 2 = 0) :
    s.arrivalDeps r e = [] := by
  simp [State.arrivalDeps, entryDeps, hcnt]

/-- An entry without dependencies that passes the checks executes; ACK_FETCH posts FETCHED before (02 R67). -/
theorem arrive_of_accepted {s : State} {r : Fin 16} {e : BitVec 512} (hassigned : opcodeAssigned (e.extractLsb' 0 8) = true)
    (hop : e.extractLsb' 8 2 = e.extractLsb' 6 2) (hcls : e.extractLsb' 8 2 = (s.rings.at r).cls)
    (hcnt : e.extractLsb' 10 2 = 0) (hstream : isStreamOp (e.extractLsb' 0 8) = false) :
    arrive s r e = (if e.getLsbD 12 then (s.admitted r e).post (s.arrivalCmd r e) (e.extractLsb' 0 8) stFetched 0 false false
      else s.admitted r e).settleDeps s.hif.stampNext := by
  rw [arrive_eq, hassigned, State.arrivalDeps_none hcnt, hstream, extractLsb'_class, if_neg (by simp), if_neg (by simp [hop, ← hcls])]
  simp

theorem arrive_of_unassigned {s : State} {r : Fin 16} {e : BitVec 512} (h : opcodeAssigned (e.extractLsb' 0 8) = false) :
    arrive s r e = (s.admitted r e).complete (s.arrivalCmd r e) stBadOpcode :=
  (arrive_eq s r e).trans (if_pos (by rw [h]; rfl))

theorem arrive_of_wrongClass {s : State} {r : Fin 16} {e : BitVec 512} (h : opcodeAssigned (e.extractLsb' 0 8) = true)
    (hcls : e.extractLsb' 8 2 ≠ e.extractLsb' 6 2 ∨ e.extractLsb' 8 2 ≠ (s.rings.at r).cls) :
    arrive s r e = (s.admitted r e).complete (s.arrivalCmd r e) stWrongClass := by
  rw [arrive_eq, h, extractLsb'_class, if_neg (by simp), if_pos hcls]

theorem arrive_of_self {s : State} {r : Fin 16} {e : BitVec 512} (h : opcodeAssigned (e.extractLsb' 0 8) = true)
    (hop : e.extractLsb' 8 2 = e.extractLsb' 6 2) (hcls : e.extractLsb' 8 2 = (s.rings.at r).cls)
    (hcnt : 1 ≤ (e.extractLsb' 10 2).toNat) (hself : e.extractLsb' 64 32 = s.hif.stampNext) (hkind : e.extractLsb' 96 8 = 1) :
    arrive s r e = (s.admitted r e).complete (s.arrivalCmd r e) stDepForward := by
  obtain ⟨b, l, hdeps⟩ := State.arrivalDeps_self (r := r) hcnt hself hkind
  rw [arrive_eq, h, extractLsb'_class, if_neg (by simp), if_neg (by simp [hop, ← hcls]), hdeps,
    List.find?_cons_of_pos (by simp)]
  rfl

theorem State.executing_issued (s : State) (c : Cmd) : (s.executing c).hif.issued = s.hif.issued := rfl

theorem State.executing_rings (s : State) (c : Cmd) : (s.executing c).rings = s.rings := rfl

/-- A waiting command without dependencies executes (02 R65). -/
theorem State.settleDeps_of_noDeps {s : State} {stamp : BitVec 32} {f : Flight} (hf : s.hif.flight stamp = some f)
    (hstage : f.stage = .waiting) (hdeps : f.deps = []) : s.settleDeps stamp = s.executing f.cmd := by
  simp [State.settleDeps, hf, hstage, hdeps]

theorem answers_arrival_accepted {s : State} {r : Fin 16} {e : BitVec 512} (hq : s.hif.fetchQ.head? = some r)
    (hst : (s.rings.at r).st = .active) (hkept : (s.rings.at r).discard = false) (hfresh : s.hif.flight s.hif.stampNext = none)
    (hassigned : opcodeAssigned (e.extractLsb' 0 8) = true) (hop : e.extractLsb' 8 2 = e.extractLsb' 6 2)
    (hcls : e.extractLsb' 8 2 = (s.rings.at r).cls) (hcnt : e.extractLsb' 10 2 = 0) (hstream : isStreamOp (e.extractLsb' 0 8) = false) :
    Answers (.submissionArrival r e) s fun t => t.hif.issued = s.hif.issued + 1 ∧
      t.hif.flight s.hif.stampNext = some { cmd := s.arrivalCmd r e, opcode := e.extractLsb' 0 8, deps := [], stage := .executing, dmaDone := 0 } ∧
      (e.getLsbD 12 = false → (t.rings.at r).trough = (s.rings.at r).trough) ∧
      (e.getLsbD 12 = true → ∃ c, (t.rings.at r).trough = (s.rings.at r).trough ++ [c] ∧ c.status = 0x01 ∧ c.final = false) := by
  have hending := admitted_ending (e := e) hst hkept hfresh
  have hflight : s.arrivalFlight r e =
      { cmd := s.arrivalCmd r e, opcode := e.extractLsb' 0 8, deps := [], stage := .waiting, dmaDone := 0 } := by
    simp [State.arrivalFlight, State.arrivalDeps_none hcnt]
  have hexec := (exec_submissionArrival e hq hst).trans
    (congrArg (answer s) (arrive_of_accepted hassigned hop hcls hcnt hstream))
  have hset (u : State) (hu : u.hif.flights = (s.admitted r e).hif.flights) : u.settleDeps s.hif.stampNext = u.executing (s.arrivalCmd r e) := by
    refine State.settleDeps_of_noDeps (f := s.arrivalFlight r e) ?_ (by rw [hflight]) (by rw [hflight])
    rw [← hending.flight]
    simp only [Hif.flight, hu]
    rfl
  have hgoes (u : State) (hu : u.hif.flights = (s.admitted r e).hif.flights) :
      (u.executing (s.arrivalCmd r e)).hif.flight s.hif.stampNext =
        some { cmd := s.arrivalCmd r e, opcode := e.extractLsb' 0 8, deps := [], stage := .executing, dmaDone := 0 } := by
    have h := hending.flight
    rw [hflight] at h
    refine (executing_flight u (s.arrivalCmd r e)).trans ?_
    have hu' : u.hif.flight (s.arrivalCmd r e).stamp = (s.admitted r e).hif.flight (s.arrivalCmd r e).stamp := by
      simp only [Hif.flight, hu]
    rw [hu', h]
    rfl
  by_cases hack : e.getLsbD 12 = true
  · rw [if_pos hack] at hexec
    have hpost := State.post_hif_kept (s.admitted r e) (s.arrivalCmd r e) (e.extractLsb' 0 8) stFetched 0 false false
    rw [hset _ hpost.2] at hexec
    refine answers_of_exec_of_evt_eq hexec ?_ ⟨?_, hgoes _ hpost.2, fun h => absurd (h.symm.trans hack) Bool.false_ne_true, fun _ => ?_⟩
    · simp [(s.admitted_clk_evt r e).2]
    · rw [State.executing_issued, hpost.1, s.admitted_hif]
    · rw [State.executing_rings, State.post_of_kept (c := s.arrivalCmd r e) hending.enabled hending.kept]
      simp only [State.onRing, State.arrivalCmd, Bank.at_upd_self]
      exact ⟨_, congrArg (· ++ _) hending.trough, rfl, rfl⟩
  · rw [if_neg hack, hset _ rfl] at hexec
    refine answers_of_exec_of_evt_eq hexec ?_ ⟨?_, hgoes _ rfl, fun _ => hending.trough, fun h => absurd h hack⟩
    · simp [(s.admitted_clk_evt r e).2]
    · rw [State.executing_issued, s.admitted_hif]

-- A fetch visit (11 R332, R333).

theorem mem_classOrder : ∀ c : BitVec 2, c ∈ classOrder := by decide

/-- Every ring pair is in the order in which its class's pointer visits them. -/
theorem State.mem_visitOrder (s : State) (r : Fin 16) : r ∈ s.visitOrder (s.rings.at r).cls := by
  unfold State.visitOrder
  extract_lets p
  refine List.mem_filter.mpr ⟨List.mem_map.mpr ⟨(r.val + 31 - p) % 16, List.mem_range.mpr (Nat.mod_lt _ (by decide)), ?_⟩, by simp⟩
  have hp : p < 16 := (s.hif.ptr.at _).isLt
  refine Fin.ext ?_
  change (p + 1 + (r.val + 31 - p) % 16) % 16 = r.val
  omega

/-- The one ring pair that may be fetched from is the one that its class's pointer comes to, and no other class has one. -/
theorem State.find_visitOrder {s : State} {r : Fin 16} (hmay : s.mayFetch r = true) (hother : ∀ q, q ≠ r → s.mayFetch q = false)
    (c : BitVec 2) : (s.visitOrder c).find? s.mayFetch = if c = (s.rings.at r).cls then some r else none := by
  have honly {q : Fin 16} (h : s.mayFetch q = true) : q = r := by
    refine Decidable.byContradiction fun hne => ?_
    rw [hother q hne] at h
    exact absurd h Bool.false_ne_true
  split
  · next h =>
    subst h
    obtain ⟨q, hq⟩ := Option.isSome_iff_exists.mp (List.find?_isSome.mpr ⟨r, s.mem_visitOrder r, hmay⟩)
    rw [hq, honly (List.find?_some hq)]
  · next h =>
    refine List.find?_eq_none.mpr fun q hq hm => h ?_
    have hcls : (s.rings.at q).cls = c := by simpa using (List.mem_filter.mp hq).2
    rw [← hcls, honly hm]

theorem findSome?_of_single {α β : Type} {f : α → Option β} {a : α} {b : β} (hf : f a = some b) (hother : ∀ x, x ≠ a → f x = none) :
    ∀ {l : List α}, a ∈ l → l.findSome? f = some b
  | x :: l, h => by
    by_cases e : x = a
    · rw [List.findSome?_cons, e, hf]
    · rw [List.findSome?_cons, hother x e]
      exact findSome?_of_single hf hother ((List.mem_cons.mp h).resolve_left (Ne.symm e))

/-- With one ring pair to fetch from, and none aged, the visit goes to it. -/
theorem exec_submissionFetch {s : State} {r : Fin 16} (hdma : s.canDma = true) (haged : s.agedRing = none)
    (hmay : s.mayFetch r = true) (hother : ∀ q, q ≠ r → s.mayFetch q = false) :
    exec .submissionFetch s = answer s (s.visit (s.rings.at r).cls r) := by
  have hfind : classOrder.findSome? (fun cls => ((s.visitOrder cls).find? s.mayFetch).map (fun r => (cls, r))) =
      some ((s.rings.at r).cls, r) := by
    refine findSome?_of_single (a := (s.rings.at r).cls) ?_ (fun c hc => ?_) (mem_classOrder _)
    · rw [State.find_visitOrder hmay hother, if_pos rfl]
      rfl
    · rw [State.find_visitOrder hmay hother, if_neg hc]
      rfl
  change execSubmissionFetch s = _
  unfold execSubmissionFetch
  rw [hdma, haged, hfind]
  rfl

/-- A change of one member that a projection does not see. -/
theorem Bank.map_upd_same {α β : Type} {n : Nat} (b : Bank n α) (i : Fin n) (f : α → α) {g : α → β} (h : ∀ x, g (f x) = g x) :
    (b.upd i f).toList.map g = b.toList.map g := by
  refine List.ext_getElem (by simp) fun k hk hk' => ?_
  have hkn : k < n := by simpa using hk'
  have hat : g ((b.upd i f).at ⟨k, hkn⟩) = g (b.at ⟨k, hkn⟩) := by
    rw [Bank.at_upd]
    split
    · next e => rw [h, e]
    · rfl
  simpa [Bank.at] using hat

/-- Passing over ring pairs takes their credit, and nothing else. -/
theorem State.passOver_effect (rs : List (Fin 16)) (s : State) : (s.passOver rs).hif = s.hif ∧ (s.passOver rs).evt = s.evt ∧
    (s.passOver rs).rings.toList.map Ring.reading = s.rings.toList.map Ring.reading ∧
    ∀ r, r ∉ rs → (s.passOver rs).rings.at r = s.rings.at r := by
  refine List.foldlRecOn rs _ (motive := fun t : State => t.hif = s.hif ∧ t.evt = s.evt ∧
    t.rings.toList.map Ring.reading = s.rings.toList.map Ring.reading ∧ ∀ r, r ∉ rs → t.rings.at r = s.rings.at r)
    ⟨rfl, rfl, rfl, fun _ _ => rfl⟩ fun t ⟨hhif, hevt, hreading, hat⟩ q hq => ⟨hhif, hevt, ?_, fun r hr => ?_⟩
  · exact (Bank.map_upd_same t.rings q (fun x => { x with credit := 0 }) fun _ => rfl).trans hreading
  · rw [← hat r hr]
    exact Bank.at_upd_of_ne _ _ fun e => hr (e ▸ hq)

theorem State.fetchRoom_congr {s t : State} {r : Fin 16} (hhif : t.hif = s.hif) (hring : t.rings.at r = s.rings.at r)
    (hreading : t.rings.toList.map Ring.reading = s.rings.toList.map Ring.reading) : t.fetchRoom r = s.fetchRoom r := by
  simp only [State.fetchRoom, hhif, hring, hreading]

theorem State.readEntries_effect (s : State) (r : Fin 16) (n : Nat) :
    (s.readEntries r n).hif = { s.hif with fetchQ := s.hif.fetchQ ++ List.replicate n r } ∧
    ((s.readEntries r n).rings.at r).sqCi = (s.rings.at r).sqCi ∧ (s.readEntries r n).evt = s.evt := by
  unfold State.readEntries
  dsimp only
  refine ⟨by simp only [State.refreshEligible_frame, State.onRing], ?_, by simp only [State.refreshEligible_frame, State.onRing]⟩
  rw [State.refreshEligible_at]
  simp [State.onRing]

/-- What a visit of a ring pair fetches (11 R333). -/
theorem State.visit_effect (s : State) (c : BitVec 2) (r : Fin 16) :
    (s.visit c r).hif.fetchQ = s.hif.fetchQ ++
      List.replicate (min ((s.rings.at r).credit + max 1 (s.rings.at r).quantum.toNat) (s.fetchRoom r)) r ∧
    (s.visit c r).hif.flights = s.hif.flights ∧ ((s.visit c r).rings.at r).sqCi = (s.rings.at r).sqCi ∧ (s.visit c r).evt = s.evt := by
  unfold State.visit
  extract_lets s1 credit n s2
  obtain ⟨hhif, hevt, hreading, hat⟩ := State.passOver_effect ((s.visitOrder c).takeWhile (fun q => q != r)) s
  have hr : s1.rings.at r = s.rings.at r := hat r fun h => by
    have hall := List.all_eq_true.mp List.all_takeWhile r h
    simp at hall
  have hn : n = min ((s.rings.at r).credit + max 1 (s.rings.at r).quantum.toNat) (s.fetchRoom r) := by
    unfold n credit
    rw [hr, State.fetchRoom_congr hhif hr hreading]
  obtain ⟨hq, hci, he⟩ := State.readEntries_effect { s2 with hif := { s2.hif with ptr := s2.hif.ptr.put ⟨c.toNat, c.isLt⟩ r } } r n
  rw [hq, hci, he, ← hn]
  have hhif2 : s2.hif = s.hif := hhif
  have hevt2 : s2.evt = s.evt := hevt
  have hring : (s2.rings.at r).sqCi = (s.rings.at r).sqCi := by
    clear_value credit n
    simp only [s2, State.onRing, Bank.at_upd_self, hr]
  clear_value s2 n
  simp only [hhif2, hevt2, hring, and_self]

/-- Settles O11: the entry is admitted with its stamp, then ends or executes; a visit reads what it may. -/
theorem fetchAndChecksAtFetch : Obligations.FetchAndChecksAtFetch := by
  unfold Obligations.FetchAndChecksAtFetch
  refine ⟨fun r e s hq hst hkept hfresh hbad => ?_, fun r e s hq hst hkept hfresh hassigned hcls => ?_,
    fun r e s hq hst hkept hfresh hassigned hop hcls hcnt hself hkind => ?_,
    fun r e s hq hst hkept hfresh hassigned hop hcls hcnt hstream =>
      answers_arrival_accepted hq hst hkept hfresh hassigned hop hcls hcnt hstream, fun r s hdma haged hmay hother => ?_⟩
  case refine_1 =>
    refine answers_arrival_ended hq hst hkept hfresh (arrive_of_unassigned hbad) fun t hc hissued hci => ?_
    exact ⟨hissued, hci, hc.2.2, hc.in_trough⟩
  case refine_2 =>
    refine answers_arrival_ended hq hst hkept hfresh (arrive_of_wrongClass hassigned hcls) fun t hc hissued _ => ?_
    obtain ⟨c, htrough, hx, hfinal, -⟩ := hc.in_trough
    exact ⟨hissued, c, htrough, hx, hfinal⟩
  case refine_3 =>
    refine answers_arrival_ended hq hst hkept hfresh (arrive_of_self hassigned hop hcls hcnt hself hkind) fun t hc _ _ => ?_
    obtain ⟨c, htrough, hx, hfinal, -⟩ := hc.in_trough
    exact ⟨c, htrough, hx, hfinal⟩
  case refine_4 =>
    obtain ⟨hq, hflights, hci, hevt⟩ := s.visit_effect (s.rings.at r).cls r
    exact answers_of_exec_of_evt_eq (exec_submissionFetch hdma haged hmay hother) hevt ⟨hq, hflights, hci, hevt⟩

end Sys2Proof.Machine
end

section
/-! SUPPORT. The states of a ring pair (02 R53). -/

namespace Sys2Proof.Machine

-- The write to RING_CFG (02 R51, R53).

/-- A configuration with ENABLE set has the fields of the one written. -/
theorem or_one_fields (v : Word) : (v ||| 1).getLsbD 0 = true ∧
    ∀ i n, 1 ≤ i → (v ||| 1).extractLsb' i n = v.extractLsb' i n := by
  refine ⟨by simp, fun i n hi => ?_⟩
  ext k hk
  simp [BitVec.getElem_extractLsb', show i ≠ 0 by omega]

theorem and_not_one (v : Word) : (v &&& 0xFFFFFFFE).getLsbD 0 = false := by
  simp

/-- A ring pair as a configuration with valid sizes enables it. -/
theorem State.writeRingCfg_enables {s : State} {r : Fin 16} {v : Word} (view : View) (hst : (s.rings.at r).st = .disabled)
    (hon : v.getLsbD 0 = true) (hsizes : ((s.rings.at r).withCfg v).sizesValid = true) :
    s.writeRingCfg view r v = (s.onRing r (fun _ => ((s.rings.at r).withCfg v).enabled)).refreshEligible := by
  have hbit : v[0] = true := by simpa using hon
  simp [State.writeRingCfg, hst, hbit, hsizes]

theorem State.writeRingCfg_cfgErr {s : State} {r : Fin 16} {v : Word} (view : View) (hst : (s.rings.at r).st = .disabled)
    (hon : v.getLsbD 0 = true) (hsizes : ((s.rings.at r).withCfg v).sizesValid = false) :
    s.writeRingCfg view r v = (s.onRing r (fun _ => { (s.rings.at r).withCfg v with enable := false })).ringEvent r 1 := by
  have hbit : v[0] = true := by simpa using hon
  simp [State.writeRingCfg, hst, hbit, hsizes]

/-- An Active ring pair that is disabled drains: it reads no more, and its streams stop (02 R53). -/
theorem State.writeRingCfg_drains {s : State} {r : Fin 16} {v : Word} (hst : (s.rings.at r).st = .active) (hon : v.getLsbD 0 = false) :
    ∃ u : State, u.rings = s.rings ∧ s.writeRingCfg .host r v =
      (((((u.onRing r (fun x => { x with enable := false, irqEn := v.getLsbD 17 })).dropReads r).onRing r
        (fun x => { x with st := .draining })).stopRingStreams r).refreshEligible) := by
  refine ⟨if (s.rings.at r).lockedDiffers v then s.viewError .host .ringCfg 0x0C20 else s, ?_, ?_⟩
  · split <;> rfl
  · simp only [State.writeRingCfg, hst, hon]
    rfl

theorem State.writeRingCfg_discards {s : State} {r : Fin 16} {v : Word} (hst : (s.rings.at r).st = .error) (hon : v.getLsbD 0 = false) :
    ∃ u : State, u.rings = s.rings ∧ ∃ inFlight, s.writeRingCfg .host r v =
      ((u.onRing r (fun x => { x with enable := false, irqEn := v.getLsbD 17 })).onRing r
        (fun x => { x with st := .draining, discard := true, trough := x.trough.filter inFlight })).stopRingStreams r := by
  refine ⟨if (s.rings.at r).lockedDiffers v then s.viewError .host .ringCfg 0x0C20 else s, ?_, ?_⟩
  · split <;> rfl
  · exact ⟨_, by simp only [State.writeRingCfg, hst, hon]; rfl⟩

-- Streams that end (02 R84).

/-- What the end of a stream leaves of every ring pair: its trough and eligibility alone change. -/
theorem State.endStream_ring_at (s : State) (x : StreamS) (status : BitVec 8) (n : Nat) (b : Bool) (q : Fin 16) :
    (s.endStream x status n b).rings.at q = { s.rings.at q with
      trough := ((s.endStream x status n b).rings.at q).trough, eligibleAt := ((s.endStream x status n b).rings.at q).eligibleAt } := by
  unfold State.endStream
  dsimp only
  split
  · rfl
  · rw [State.refreshEligible_at]
    dsimp only
    rw [State.post_ring_at]
    rfl

theorem State.post_streams (s : State) (c : Cmd) (op x : BitVec 8) (res : BitVec 128) (final gap : Bool) :
    (s.post c op x res final gap).hif.streams = s.hif.streams := by
  unfold State.post
  dsimp only
  split <;> rfl

theorem State.endStream_streams (s : State) (x : StreamS) (status : BitVec 8) (n : Nat) (b : Bool) :
    (s.endStream x status n b).hif.streams = dropStream s.hif.streams x.cmd.stamp := by
  unfold State.endStream
  dsimp only
  split
  · rfl
  · simp only [State.refreshEligible_frame, Hif.recordFinal, State.post_streams]
    rfl

/-- Streams that stop, one after the other. -/
theorem State.foldl_stopStream_effect (r : Fin 16) : ∀ (l : List StreamS) (s : State),
    (∀ x ∈ (l.foldl (fun s x => s.stopStream x) s).hif.streams, x ∈ s.hif.streams ∧ ∀ y ∈ l, x.cmd.stamp ≠ y.cmd.stamp) ∧
    (l.foldl (fun s x => s.stopStream x) s).rings.at r = { s.rings.at r with
      trough := ((l.foldl (fun s x => s.stopStream x) s).rings.at r).trough
      eligibleAt := ((l.foldl (fun s x => s.stopStream x) s).rings.at r).eligibleAt }
  | [], s => ⟨fun x hx => ⟨hx, fun _ h => absurd h List.not_mem_nil⟩, rfl⟩
  | y :: l, s => by
    obtain ⟨hstreams, hring⟩ := State.foldl_stopStream_effect r l (s.stopStream y)
    refine ⟨fun x hx => ?_, ?_⟩
    · obtain ⟨hmem, hne⟩ := hstreams x hx
      rw [State.stopStream, State.endStream_streams, dropStream, List.mem_filter] at hmem
      exact ⟨hmem.1, List.forall_mem_cons.mpr ⟨by simpa using hmem.2, hne⟩⟩
    · rw [List.foldl_cons, hring, State.stopStream, State.endStream_ring_at]

/-- The streams of a ring pair that stop are gone, and the pair keeps everything but its trough and eligibility. -/
theorem State.stopRingStreams_effect (s : State) (r : Fin 16) : (∀ x ∈ (s.stopRingStreams r).hif.streams, x.cmd.ring ≠ r) ∧
    (s.stopRingStreams r).rings.at r = { s.rings.at r with
      trough := ((s.stopRingStreams r).rings.at r).trough, eligibleAt := ((s.stopRingStreams r).rings.at r).eligibleAt } := by
  obtain ⟨hstreams, hring⟩ := State.foldl_stopStream_effect r (s.hif.streams.filter (fun x => x.cmd.ring == r)) s
  refine ⟨fun x hx hr => ?_, hring⟩
  obtain ⟨hmem, hne⟩ := hstreams x hx
  exact hne x (List.mem_filter.mpr ⟨hmem, by simp [hr]⟩) rfl

/-- A ring pair that goes to Error, with the bit of its cause (02 R53). -/
theorem State.ringError_effect (s : State) (r : Fin 16) (n : Nat) :
    ((s.ringError r n).rings.at r).st = .error ∧ (s.ringError r n).evt = { s.evt with ring := s.evt.ring.upd r (fun b => setBit b n) } ∧
    ∀ q, q ≠ r → (s.ringError r n).rings.at q = { s.rings.at q with eligibleAt := ((s.ringError r n).rings.at q).eligibleAt } := by
  unfold State.ringError
  dsimp only
  refine ⟨?_, by simp [State.ringEvent, State.dropReads, State.onRing], fun q hq => ?_⟩
  · rw [State.refreshEligible_at]
    simp [State.ringEvent, State.dropReads, State.onRing]
  · rw [State.refreshEligible_at]
    simp [State.ringEvent, State.dropReads, State.onRing, Bank.at_upd_of_ne _ _ (Ne.symm hq)]

theorem sizesValid_iff (x : Ring) : x.sizesValid = true ↔
    4 ≤ x.sqLog2.toNat ∧ x.sqLog2.toNat ≤ 12 ∧ 4 ≤ x.cqLog2.toNat ∧ x.cqLog2.toNat ≤ 12 := by
  simp only [Ring.sizesValid, Bool.and_eq_true, decide_eq_true_eq, and_assoc]

/-- Settles O10: the transitions of the ring states, by the value written to RING_CFG. -/
theorem ringPairStates : Obligations.RingPairStates := by
  unfold Obligations.RingPairStates
  refine ⟨fun r v s hst h1 h2 h3 h4 => ?_, fun r v s hst hsize => ?_, fun r v s hst => ?_, fun r v s hst => ?_,
    fun r kind s hst => ?_, fun r s hst hflights htrough => ?_⟩
  case refine_1 =>
    obtain ⟨hon, hfields⟩ := or_one_fields v
    have hsizes : ((s.rings.at r).withCfg (v ||| 1)).sizesValid = true := by
      rw [sizesValid_iff]
      simp only [Ring.withCfg, hfields 4 4 (by decide), hfields 8 4 (by decide)]
      exact ⟨h1, h2, h3, h4⟩
    have hexec : exec (.ringEnable r v) s = answer s _ := congrArg (answer s) (State.writeRingCfg_enables .host hst hon hsizes)
    have hat : ((s.onRing r (fun _ => ((s.rings.at r).withCfg (v ||| 1)).enabled)).refreshEligible).rings.at r =
        { ((s.rings.at r).withCfg (v ||| 1)).enabled with eligibleAt :=
          (((s.onRing r (fun _ => ((s.rings.at r).withCfg (v ||| 1)).enabled)).refreshEligible).rings.at r).eligibleAt } := by
      rw [State.refreshEligible_at]
      simp [State.onRing]
    refine answers_of_exec_of_evt_eq hexec (by simp) ⟨?_, ?_, ?_, ?_, ?_, ?_, ?_, fun q hq => ?_, ?_⟩
    case refine_8 =>
      rw [State.refreshEligible_at]
      simp [State.onRing, Bank.at_upd_of_ne _ _ (Ne.symm hq)]
    case refine_9 => rfl
    all_goals
      rw [hat]
      simp only [Ring.enabled, Ring.withCfg, hfields 1 2 (by decide), hfields 24 8 (by decide)]
  case refine_2 =>
    obtain ⟨hon, hfields⟩ := or_one_fields v
    have hsizes : ((s.rings.at r).withCfg (v ||| 1)).sizesValid = false := by
      refine Bool.eq_false_iff.mpr fun h => ?_
      have h4 := ((sizesValid_iff _).mp h).1
      simp only [Ring.withCfg, hfields 4 4 (by decide)] at h4
      exact absurd h4 (Nat.not_le.mpr hsize)
    have hexec : exec (.ringEnable r v) s = answer s _ := congrArg (answer s) (State.writeRingCfg_cfgErr .host hst hon hsizes)
    refine answers_of_exec_up_to_interrupt hexec fun t _ hevt _ ht => ?_
    have hrings : t.rings = s.rings.upd r (fun _ => { (s.rings.at r).withCfg (v ||| 1) with enable := false }) := congrArg State.rings ht
    refine ⟨?_, ?_, ?_, fun q hq => ?_, ?_⟩
    · rw [hrings, Bank.at_upd_self]
      exact hst
    · rw [hrings, Bank.at_upd_self]
    · rw [hevt]
      simp only [State.ringEvent, State.onRing, Bank.at_upd_self]
      exact setBit_getLsbD_self _ (by decide)
    · rw [hrings, Bank.at_upd_of_ne _ _ (Ne.symm hq)]
    · rw [hevt, hrings]
      exact ht
  case refine_3 =>
    obtain ⟨u, hu, hw⟩ := State.writeRingCfg_drains hst (and_not_one v)
    have hexec : exec (.ringDisable r v) s = answer s _ := congrArg (answer s) hw
    refine answers_of_exec hexec ?_
    generalize hp : ((u.onRing r (fun x => { x with enable := false, irqEn := (v &&& 0xFFFFFFFE).getLsbD 17 })).dropReads r).onRing r
      (fun x => { x with st := .draining }) = p
    have hpr : (p.rings.at r).st = .draining ∧ (p.rings.at r).enable = false ∧ (p.rings.at r).reading = 0 := by
      rw [← hp]
      simp [State.onRing, State.dropReads]
    obtain ⟨hstreams, hring⟩ := p.stopRingStreams_effect r
    simp only [eventInterrupt_frame, State.refreshEligible_frame]
    rw [State.refreshEligible_at, hring]
    exact ⟨hpr.1, hpr.2.1, hpr.2.2, hstreams⟩
  case refine_4 =>
    obtain ⟨u, hu, inFlight, hw⟩ := State.writeRingCfg_discards hst (and_not_one v)
    have hexec : exec (.ringDisable r v) s = answer s _ := congrArg (answer s) hw
    refine answers_of_exec hexec ?_
    obtain ⟨-, hring⟩ := State.stopRingStreams_effect
      ((u.onRing r (fun x => { x with enable := false, irqEn := (v &&& 0xFFFFFFFE).getLsbD 17 })).onRing r
        (fun x => { x with st := .draining, discard := true, trough := x.trough.filter inFlight })) r
    simp only [eventInterrupt_frame]
    rw [hring]
    simp [State.onRing]
  case refine_5 =>
    have hexec : exec (.dmaErrorCompletion r kind) s = answer s (s.ringError r 3) := by
      change execDmaErrorCompletion r kind s = _
      rcases hst with h | h <;> simp only [execDmaErrorCompletion, h]
    obtain ⟨herr, hevt, hother⟩ := s.ringError_effect r 3
    refine answers_of_exec hexec ?_
    simp only [eventInterrupt_frame, hevt]
    refine ⟨herr, ?_, fun q hq => Bank.at_upd_of_ne _ _ (Ne.symm hq), hother⟩
    rw [Bank.at_upd_self]
    exact setBit_getLsbD_self _ (by decide)
  case refine_6 =>
    have hexec : exec (.drainComplete r) s = answer s _ := congrArg (answer s) (if_pos ⟨hst, hflights, htrough⟩)
    refine answers_of_exec_up_to_interrupt hexec fun t _ hevt _ ht => ?_
    have hrings : t.rings = s.rings.upd r (fun x => { x with st := .disabled, enable := false, discard := false }) := congrArg State.rings ht
    refine ⟨?_, ?_, ?_, fun q hq => ?_, ?_⟩
    · rw [hrings, Bank.at_upd_self]
    · rw [hrings, Bank.at_upd_self]
    · rw [hevt]
      simp only [State.ringEvent, State.onRing, Bank.at_upd_self]
      exact setBit_getLsbD_self _ (by decide)
    · rw [hrings, Bank.at_upd_of_ne _ _ (Ne.symm hq)]
    · rw [hevt, hrings]
      exact ht

end Sys2Proof.Machine
end

section
/-! SUPPORT. The reset of the host interface, Bus Master Enable and the poll (02 R44, R45, R50, R56 to R59). -/

namespace Sys2Proof.Machine

-- The host-interface reset (02 R45).

theorem Hif.foldl_recordFinal (l : List Flight) (x : BitVec 8) (h : Hif) :
    (l.foldl (fun h f => h.recordFinal f.cmd.stamp x (isStreamOp f.opcode)) h).issued = h.issued ∧
    (l.foldl (fun h f => h.recordFinal f.cmd.stamp x (isStreamOp f.opcode)) h).streams = h.streams ∧
    (h.flights = [] → (l.foldl (fun h f => h.recordFinal f.cmd.stamp x (isStreamOp f.opcode)) h).flights = []) := by
  induction l generalizing h with
  | nil => exact ⟨rfl, rfl, id⟩
  | cons f l ih =>
    obtain ⟨hi, hs, hf⟩ := ih (h.recordFinal f.cmd.stamp x (isStreamOp f.opcode))
    exact ⟨hi, hs, fun h0 => hf (by simp [Hif.recordFinal, h0])⟩

theorem hostReset_hif (s : State) : (hostReset s).hif.flights = [] ∧ (hostReset s).hif.streams = [] ∧
    (hostReset s).hif.issued = s.hif.issued ∧ (hostReset s).hif.pollEn = false ∧ (hostReset s).hif.evtVec = 0 ∧
    (hostReset s).hif.dbBase = 0 := by
  unfold hostReset State.pruneTroughs
  extract_lets gone _ h
  obtain ⟨hi, hs, hf⟩ := Hif.foldl_recordFinal gone stCancelled { s.hif with flights := [], streams := [] }
  change h.issued = _ at hi
  change h.streams = _ at hs
  replace hf : h.flights = [] := hf rfl
  clear_value h
  exact ⟨hf, hs, hi, rfl, rfl, rfl⟩

theorem hostReset_eq_with (s : State) : hostReset s = { s with
    hif := (hostReset s).hif, rings := Bank.fill 16 {}, msix := Bank.fill 32 {}, misc := (hostReset s).misc
    evt := { s.evt with dbErr := false, ring := Bank.fill 16 0 }, troughs := (hostReset s).troughs } := rfl

/-- Clearing DB_ERR and the bits of the ring pairs lets no source of `EVT_SUM` rise. -/
theorem Evts.noRise_hostReset (e : Evts) : e.NoRise { e with dbErr := false, ring := Bank.fill 16 0 } := by
  have h : (Bank.fill 16 (0#4)).any (fun r => r != 0#4) = false := by simp [Bank.fill]
  exact Evts.noRise_of_fall (by simp [Evts.sources, h])

theorem Evts.noRise_dbErr (e : Evts) : e.NoRise { e with dbErr := false } :=
  Evts.noRise_of_fall (by simp [Evts.sources])

-- Bus Master Enable (02 R44).

theorem State.sendVector_eq_with (s : State) (v : Fin 32) :
    s.sendVector v = { s with msix := (s.sendVector v).msix, out := (s.sendVector v).out } := by
  apply State.ext_fields <;> simp

theorem State.sendPending_eq_with (s : State) : ∃ m o, s.sendPending = { s with msix := m, out := o } := by
  refine ⟨s.sendPending.msix, s.sendPending.out, ?_⟩
  refine List.foldlRecOn (places 32) _ (motive := fun t : State => t = { s with msix := t.msix, out := t.out }) rfl fun t ht v _ => ?_
  obtain ⟨m, o, rfl⟩ : ∃ m o, t = { s with msix := m, out := o } := ⟨_, _, ht⟩
  dsimp only
  split
  · exact State.sendVector_eq_with _ v
  · rfl

theorem exec_busMasterEnable {s : State} (h : s.hif.busMaster = false) : exec (.busMasterEnableChange true) s = answer s
    (State.sendPending { s with hif := { s.hif with
      busMaster := true, pollGap := 0, activeAt := s.now, outstanding := false, dueAt := s.now + 128 } }) := by
  change execBusMasterEnableChange true s = _
  unfold execBusMasterEnableChange
  simp only [h]
  rfl

-- The poll of the doorbells (02 R56 to R59).

theorem takeSlot_of_disabled {slots : Bank 16 DbSlot} {acc : State × Bool} {r : Fin 16} (h : (acc.1.rings.at r).st = .disabled) :
    takeSlot slots acc r = acc := by
  simp [takeSlot, Ring.checkSlot, h]

/-- What taking a slot leaves of the other ring pairs and of the rest (02 R56). -/
theorem takeSlot_of_ne (slots : Bank 16 DbSlot) (acc : State × Bool) {r q : Fin 16} (h : q ≠ r) :
    (takeSlot slots acc r).1.rings.at q = { acc.1.rings.at q with eligibleAt := ((takeSlot slots acc r).1.rings.at q).eligibleAt } ∧
    (takeSlot slots acc r).1.evt.ring.at q = acc.1.evt.ring.at q := by
  unfold takeSlot
  split
  · exact ⟨rfl, rfl⟩
  · obtain ⟨-, hevt, hring⟩ := acc.1.ringError_effect r 2
    exact ⟨hring q h, by rw [hevt]; exact Bank.at_upd_of_ne _ _ (Ne.symm h)⟩
  · simp [State.onRing, Bank.at_upd_of_ne _ _ (Ne.symm h)]

theorem takeSlot_of_bad {slots : Bank 16 DbSlot} {acc : State × Bool} {r : Fin 16}
    (h : (acc.1.rings.at r).checkSlot (slots.at r) = .bad) :
    ((takeSlot slots acc r).1.rings.at r).st = .error ∧ ((takeSlot slots acc r).1.evt.ring.at r).getLsbD 2 = true := by
  obtain ⟨hst, hevt, -⟩ := acc.1.ringError_effect r 2
  simp only [takeSlot, h]
  refine ⟨hst, ?_⟩
  rw [hevt, Bank.at_upd_self]
  exact setBit_getLsbD_self _ (by decide)

theorem checkSlot_of_outside {x : Ring} {d : DbSlot} (hst : x.st = .active) (h : 2 ^ x.sqLog2.toNat ≤ d.sqPi.toNat) :
    x.checkSlot d = .bad := by
  simp [Ring.checkSlot, hst, h]

/-- The gap that follows a poll, and when the next is due (02 R57). -/
def State.afterPoll (s : State) (changed : Bool) (t : State) : State :=
  let gap := nextGap s.hif s.now changed
  let from_ := if s.hif.early then (if changed then s.now else s.hif.dueAt) else s.hif.dueAt
  let next := if s.hif.early && !changed then s.hif.dueAt else from_ + gapTicks gap
  State.refreshEligible { t with
    hif := { t.hif with
      outstanding := false, dbFails := 0, pollGap := gap, dueAt := next, activeAt := if changed then s.now else t.hif.activeAt }
    pwr := { t.pwr with hostWake := false } }

theorem State.afterPoll_effect (s : State) (changed : Bool) (t : State) (r : Fin 16) :
    ((s.afterPoll changed t).rings.at r).st = (t.rings.at r).st ∧ (s.afterPoll changed t).evt = t.evt := by
  unfold State.afterPoll
  refine ⟨?_, by simp only [State.refreshEligible_frame]⟩
  rw [State.refreshEligible_at]

theorem exec_doorbellReadComplete {s : State} (slots : Bank 16 DbSlot) (h : s.hif.outstanding = true) :
    exec (.doorbellReadComplete (some slots)) s = answer s (s.afterPoll ((places 16).foldl (takeSlot slots) (s, false)).2
      ((places 16).foldl (takeSlot slots) (s, false)).1) := by
  change execDoorbellReadComplete (some slots) s = _
  unfold execDoorbellReadComplete State.afterPoll
  simp only [h]
  rfl

theorem exec_doorbellReadComplete_failed {s : State} (h : s.hif.outstanding = true) :
    exec (.doorbellReadComplete none) s = answer s { s with
      hif := { s.hif with
        outstanding := false, dbFails := s.hif.dbFails + 1
        dueAt := if s.hif.early then s.hif.dueAt else s.hif.dueAt + gapTicks s.hif.pollGap }
      evt := { s.evt with dbErr := s.evt.dbErr || decide (3 ≤ s.hif.dbFails + 1) } } := by
  change execDoorbellReadComplete none s = _
  unfold execDoorbellReadComplete
  simp only [h]
  rfl

/-- A poll that finds every ring pair Disabled takes no slot. -/
theorem foldl_takeSlot_of_disabled (slots : Bank 16 DbSlot) {s : State} (h : ∀ r, (s.rings.at r).st = .disabled) (l : List (Fin 16)) :
    l.foldl (takeSlot slots) (s, false) = (s, false) :=
  List.foldlRecOn l (takeSlot slots) (motive := fun acc => acc = (s, false)) rfl fun acc hacc r _ => by
    rw [hacc, takeSlot_of_disabled (h r)]

/-- A poll that finds an index out of range puts the ring pair in Error (02 R56). -/
theorem foldl_takeSlot_of_outside {slots : Bank 16 DbSlot} {r : Fin 16} {s : State} (hst : (s.rings.at r).st = .active)
    (hout : 2 ^ (s.rings.at r).sqLog2.toNat ≤ (slots.at r).sqPi.toNat) {l : List (Fin 16)} (hr : r ∈ l) (hl : l.Nodup) :
    (((l.foldl (takeSlot slots) (s, false)).1.rings.at r).st = .error) ∧
    ((l.foldl (takeSlot slots) (s, false)).1.evt.ring.at r).getLsbD 2 = true := by
  obtain ⟨acc, hacc, hfold⟩ := foldl_of_single
    (fun acc : State × Bool => ((acc.1.rings.at r).st, (acc.1.rings.at r).sqLog2, acc.1.evt.ring.at r)) (takeSlot slots) r
    (fun acc q hq => by
      obtain ⟨hring, hevt⟩ := takeSlot_of_ne slots acc (Ne.symm hq)
      exact Prod.ext (congrArg Ring.st hring :) (Prod.ext (congrArg Ring.sqLog2 hring :) hevt)) hr hl (s, false)
  simp only [Prod.mk.injEq] at hacc hfold
  obtain ⟨hst', hlog, -⟩ := hacc
  have hbad := checkSlot_of_outside (d := slots.at r) (hst'.trans hst) (hlog ▸ hout)
  rw [hfold.1, hfold.2.2]
  exact takeSlot_of_bad hbad

/-- Settles O9: a reset of the host interface, Bus Master Enable, and the poll of the doorbells by what the read brings. -/
theorem hostInterfaceResetAndPolling : Obligations.HostInterfaceResetAndPolling := by
  unfold Obligations.HostInterfaceResetAndPolling
  refine ⟨fun kind s => ?_, fun s => ?_, fun s hoff => ?_, fun s hpoll herr hout hdue => ?_, fun s herr => ?_, fun v s hrun hpoll => ?_,
    fun s hout => ?_, fun slots s hout hdis hearly hlate => ?_, fun slots r s hout hst hbad => ?_, fun s => ?_, fun hi v s hpoll => ?_,
    fun v s hpoll => ?_⟩
  case refine_1 =>
    obtain ⟨hflights, hstreams, hissued, hpoll, hvec, hbase⟩ := hostReset_hif s
    exact answers_of_exec_noRise (u := hostReset s) rfl (Evts.noRise_hostReset s.evt)
      ⟨rfl, rfl, hflights, hstreams, hissued, hpoll, hvec, hbase, rfl, rfl, hostReset_eq_with s⟩
  case refine_2 => exact answers_of_exec_of_evt_eq (u := { s with hif := { s.hif with busMaster := false } }) rfl rfl rfl
  case refine_3 =>
    obtain ⟨m, o, h⟩ := State.sendPending_eq_with { s with hif := { s.hif with
      busMaster := true, pollGap := 0, activeAt := s.now, outstanding := false, dueAt := s.now + 128 } }
    refine answers_of_exec_of_evt_eq (exec_busMasterEnable hoff) (by rw [h]) ?_
    rw [h]
    exact ⟨rfl, rfl, rfl, rfl, rfl⟩
  case refine_4 =>
    have hcond : (s.polling && !s.evt.dbErr && !s.hif.outstanding && (decide (s.hif.dueAt ≤ s.now) || s.hif.nudge)) = true := by
      rcases hdue with h | h <;> simp [hpoll, herr, hout, h]
    exact answers_of_exec_of_evt_eq (congrArg (answer s) (if_pos hcond)) rfl ⟨rfl, rfl, rfl, rfl, rfl⟩
  case refine_5 =>
    exact answers_of_exec_of_evt_eq (u := s) (congrArg (answer s) (if_neg (by simp [herr]))) rfl rfl
  case refine_6 =>
    have hnudge : s.nudge = { s with hif := { s.hif with nudge := true } } := by
      simp [State.nudge, hrun, hpoll]
    exact answers_of_exec_of_evt_eq (congrArg (answer s) hnudge) rfl rfl
  case refine_7 =>
    refine answers_of_exec (exec_doorbellReadComplete_failed hout) ?_
    simp only [eventInterrupt_frame, and_self]
  case refine_8 =>
    have hexec := exec_doorbellReadComplete slots hout
    rw [foldl_takeSlot_of_disabled slots hdis] at hexec
    have hgap : nextGap s.hif s.now false = min 9 (s.hif.pollGap + 1) := by
      have : ¬ s.now < s.hif.activeAt + ticksPerMs := Nat.not_lt.mpr hlate
      simp only [nextGap, hearly, this, Bool.false_eq_true, if_false]
      split <;> omega
    refine answers_of_exec_of_evt_eq hexec (by simp [State.afterPoll]) ?_
    simp only [State.afterPoll, State.refreshEligible_frame, hgap, hearly, Bool.false_eq_true, if_false, Bool.false_and, and_self]
  case refine_9 =>
    obtain ⟨hst', hevt⟩ := foldl_takeSlot_of_outside (l := places 16) hst hbad (List.mem_finRange r) (List.nodup_finRange 16)
    refine answers_of_exec (exec_doorbellReadComplete slots hout) ?_
    obtain ⟨hst2, hevt2⟩ := s.afterPoll_effect ((places 16).foldl (takeSlot slots) (s, false)).2
      ((places 16).foldl (takeSlot slots) (s, false)).1 r
    simp only [eventInterrupt_frame]
    rw [hst2, hevt2]
    exact ⟨hst', hevt⟩
  case refine_10 => exact answers_of_exec_noRise (u := s.clearDbErr) rfl (Evts.noRise_dbErr s.evt) rfl
  case refine_11 =>
    have hw : s.writeDbBase .host hi v = s.accError .dbBase (if hi then 0x0C08 else 0x0C04) := if_pos hpoll
    refine answers_of_exec (u := s.accError .dbBase (if hi then 0x0C08 else 0x0C04)) (congrArg (answer s) hw) ?_
    simp only [eventInterrupt_frame]
    refine ⟨rfl, rfl, rfl, ?_⟩
    cases hi <;> rfl
  case refine_12 =>
    have hw : s.writeDbBase .host true v = { s with hif := { s.hif with dbBase := v ++ s.hif.dbBase.extractLsb' 0 32 } } :=
      if_neg (by simp [hpoll])
    exact answers_of_exec_of_evt_eq (congrArg (answer s) hw) rfl rfl

end Sys2Proof.Machine
end

section
/-! SUPPORT. Rounds of the yard and slots of the MRAM write wheel (11 R326 to R328, R340, R341). -/

namespace Sys2Proof.Machine

-- Grants of the yard (11 R326 to R328).

theorem Arbiter.mem_after {a : Arbiter} {g : Option (Fin 25)} {r : YardReq} (hr : r ∈ a.reqs) (hg : some r.id ≠ g) :
    { r with wait := r.wait + 1 } ∈ (a.after g).reqs :=
  List.mem_map.mpr ⟨r, List.mem_filter.mpr ⟨hr, by simpa using hg⟩, rfl⟩

/-- After a round a requester waits if it did and was not granted. -/
theorem Arbiter.waiting_after (a : Arbiter) (g : Option (Fin 25)) (i : Fin 25) :
    (a.after g).waiting i = (a.waiting i && some i != g) := by
  rw [Bool.eq_iff_iff]
  simp only [Arbiter.waiting, Arbiter.after, List.any_map, List.any_filter, List.any_eq_true, Function.comp_apply, Bool.and_eq_true,
    beq_iff_eq, bne_iff_ne, ne_eq]
  constructor
  · rintro ⟨r, hr, hg, rfl⟩
    exact ⟨⟨r, hr, rfl⟩, hg⟩
  · rintro ⟨⟨r, hr, rfl⟩, hg⟩
    exact ⟨r, hr, hg, rfl⟩

/-- The state after the decision `g` of a target's arbiter that stands at `a`. -/
def State.granted (s : State) (target : Fin 12) (a : Arbiter) (g : Option (Fin 25)) (aged : Bool) : State :=
  let wait := ((g.bind (fun i => a.reqs.find? (fun r => r.id == i))).map YardReq.wait).getD 0
  let y := match g with | some i => s.yard.record target i wait aged | none => s.yard
  { s with yard := { y with arb := y.arb.put target (a.after g) } }

theorem Yard.record_arb (y : Yard) (target : Fin 12) (i : Fin 25) (wait : Nat) (aged : Bool) :
    (y.record target i wait aged).arb = y.arb ∧
    (y.record target i wait aged).agedCnt = if aged then satAdd 0x7FFF y.agedCnt 1 else y.agedCnt := by
  unfold Yard.record
  dsimp only
  split <;> split <;> exact ⟨rfl, rfl⟩

theorem State.granted_arb (s : State) (target : Fin 12) (a : Arbiter) (g : Option (Fin 25)) (aged : Bool) :
    ((s.granted target a g aged).yard.arb.at target = a.after g) ∧
    (∀ x, x ≠ target → (s.granted target a g aged).yard.arb.at x = s.yard.arb.at x) := by
  have harb : (s.granted target a g aged).yard.arb = s.yard.arb.put target (a.after g) := by
    cases g with
    | none => rfl
    | some i => exact congrArg (fun b => Bank.put b target (a.after (some i))) (Yard.record_arb _ _ _ _ _).1
  rw [harb]
  exact ⟨Bank.at_put_self _ _ _, fun x hx => Bank.at_put_of_ne _ _ (Ne.symm hx)⟩

/-- The arbiter of a target with the requests that arrive taken in. -/
def State.asked (s : State) (target : Fin 12) (arriving : BitVec 25) : Arbiter :=
  (s.yard.arb.at target).arrive (fun i => arriving.getLsbD i.val && s.requester i)

/-- A reserved round (11 R326). -/
theorem exec_reservedRound {s : State} (target : Fin 12) (arriving : BitVec 25) (h : (s.yard.arb.at target).round % 8 = 0) :
    ∃ y : Yard, y.arb = (s.granted target (match (s.asked target arriving).reserved with
        | some i => { s.asked target arriving with lastProt := i == 24 } | none => s.asked target arriving)
      (s.asked target arriving).reserved false).yard.arb ∧
    exec (.yardArbitrationRound target arriving) s = answer s { s with yard := y } := by
  let u := s.granted target (match (s.asked target arriving).reserved with
        | some i => { s.asked target arriving with lastProt := i == 24 } | none => s.asked target arriving)
      (s.asked target arriving).reserved false
  refine ⟨if target = 0 then u.yard.countReserved u.nowMs (s.asked target arriving).reserved.isSome else u.yard, ?_, ?_⟩
  · split
    · unfold Yard.countReserved
      dsimp only
      split <;> split <;> rfl
    · rfl
  · refine (congrArg (answer s) (if_pos h)).trans (congrArg (answer s) ?_)
    split <;> rfl

/-- A round with one oldest aged request (11 R328). -/
theorem exec_agedRound {s : State} {target : Fin 12} {arriving : BitVec 25} {i : Fin 25} (h : (s.yard.arb.at target).round % 8 ≠ 0)
    (haged : (s.asked target arriving).oldestAged s.ageLimit = [i]) : exec (.yardArbitrationRound target arriving) s =
      answer s (s.granted target (s.asked target arriving) (some i) true) := by
  refine (congrArg (answer s) (if_neg h)).trans ?_
  change answer s (match (s.asked target arriving).oldestAged s.ageLimit with | [] => _ | [i] => _ | i :: rest => _) = _
  rw [haged]
  rfl

theorem Arbiter.roundRobin_of_credit (y : Yard) (fuel : Nat) {a : Arbiter} (hptr : a.waiting a.ptr = true)
    (hcredit : 1 ≤ a.credit.at a.ptr) :
    Arbiter.roundRobin y (fuel + 1) a = ({ a with credit := a.credit.upd a.ptr (· - 1) }, some a.ptr) := by
  simp [Arbiter.roundRobin, hptr, hcredit]

theorem Arbiter.reqs_ne_nil {a : Arbiter} {i : Fin 25} (h : a.waiting i = true) : a.reqs.isEmpty = false := by
  cases hr : a.reqs with
  | nil => simp [Arbiter.waiting, hr] at h
  | cons => rfl

/-- A round whose pointer stands at a request with credit (11 R327). -/
theorem exec_pointedRound {s : State} {target : Fin 12} {arriving : BitVec 25} (h : (s.yard.arb.at target).round % 8 ≠ 0)
    (haged : (s.asked target arriving).oldestAged s.ageLimit = []) (hptr : (s.asked target arriving).waiting (s.yard.arb.at target).ptr = true)
    (hcredit : 1 ≤ (s.yard.arb.at target).credit.at (s.yard.arb.at target).ptr) : exec (.yardArbitrationRound target arriving) s =
      answer s (s.granted target { s.asked target arriving with
        credit := (s.yard.arb.at target).credit.upd (s.yard.arb.at target).ptr (· - 1) } (some (s.yard.arb.at target).ptr) false) := by
  refine (congrArg (answer s) (if_neg h)).trans ?_
  change answer s (match (s.asked target arriving).oldestAged s.ageLimit with | [] => _ | [i] => _ | i :: rest => _) = _
  rw [haged]
  change answer s (if (s.asked target arriving).reqs.isEmpty then _ else
    s.granted target (Arbiter.roundRobin s.yard 26 (s.asked target arriving)).1
      (Arbiter.roundRobin s.yard 26 (s.asked target arriving)).2 false) = _
  rw [Arbiter.reqs_ne_nil hptr, Arbiter.roundRobin_of_credit (a := s.asked target arriving) s.yard 25 hptr hcredit]
  rfl

/-- The requester that a reserved round grants (11 R326). -/
theorem Arbiter.reserved_eq (a : Arbiter) : a.reserved =
    if a.waiting 0 = true then (if a.waiting 24 = true then some (if a.lastProt then 0 else 24) else some 0)
    else if a.waiting 24 = true then some 24 else none := by
  unfold Arbiter.reserved
  cases a.waiting 0 <;> cases a.waiting 24 <;> rfl

/-- A reserved round grants no other requester. -/
theorem Arbiter.ne_reserved {a : Arbiter} {i : Fin 25} (h0 : i ≠ 0) (h24 : i ≠ 24) : some i ≠ a.reserved := by
  rw [Arbiter.reserved_eq]
  repeat' split
  all_goals simp [h0, h24]

/-- What a reserved round leaves of the arbiter of its target (11 R326). -/
theorem answers_reservedRound {target : Fin 12} {arriving : BitVec 25} {s : State} (h : (s.yard.arb.at target).round % 8 = 0) :
    Answers (.yardArbitrationRound target arriving) s fun t =>
      let a := s.asked target arriving
      (t.yard.arb.at target).round = (s.yard.arb.at target).round + 1 ∧
      (t.yard.arb.at target).credit = (s.yard.arb.at target).credit ∧ (t.yard.arb.at target).ptr = (s.yard.arb.at target).ptr ∧
      (∀ r ∈ a.reqs, r.id ≠ 0 → r.id ≠ 24 → { r with wait := r.wait + 1 } ∈ (t.yard.arb.at target).reqs) ∧
      (a.waiting 0 = true → a.waiting 24 = false → (t.yard.arb.at target).waiting 0 = false) ∧
      (a.waiting 24 = true → a.waiting 0 = false → (t.yard.arb.at target).waiting 24 = false) ∧
      (a.waiting 0 = true → a.waiting 24 = true →
        (t.yard.arb.at target).waiting 0 = !a.lastProt ∧ (t.yard.arb.at target).waiting 24 = a.lastProt ∧
        (t.yard.arb.at target).lastProt = !a.lastProt) ∧
      (∀ x, x ≠ target → t.yard.arb.at x = s.yard.arb.at x) ∧ t = { s with yard := t.yard } := by
  obtain ⟨y, hy, hexec⟩ := exec_reservedRound target arriving h
  refine answers_of_exec_of_evt_eq hexec rfl ?_
  obtain ⟨hat, hother⟩ := s.granted_arb target (match (s.asked target arriving).reserved with
        | some i => { s.asked target arriving with lastProt := i == 24 } | none => s.asked target arriving)
      (s.asked target arriving).reserved false
  rw [← hy] at hat hother
  intro a
  have hfields : (y.arb.at target).round = a.round + 1 ∧ (y.arb.at target).credit = a.credit ∧ (y.arb.at target).ptr = a.ptr ∧
      (y.arb.at target).reqs = (a.after a.reserved).reqs ∧ (∀ i, a.reserved = some i → (y.arb.at target).lastProt = (i == 24)) := by
    rw [hat]
    change _ ∧ _ ∧ _ ∧ _ ∧ (∀ i, (s.asked target arriving).reserved = some i → _)
    cases hr : (s.asked target arriving).reserved with
    | none => exact ⟨rfl, rfl, rfl, rfl, fun i hi => absurd hi (by simp)⟩
    | some i => exact ⟨rfl, rfl, rfl, rfl, fun j hj => by cases hj; rfl⟩
  obtain ⟨hround, hcredit, hptr, hreqs, hlast⟩ := hfields
  have hwait (i : Fin 25) : (y.arb.at target).waiting i = (a.waiting i && some i != a.reserved) := by
    rw [← a.waiting_after a.reserved i]
    simp only [Arbiter.waiting, hreqs]
  refine ⟨hround, hcredit, hptr, fun r hr h0 h24 => ?_, fun h0 h24 => ?_, fun h24 h0 => ?_, fun h0 h24 => ?_, hother, rfl⟩
  · change _ ∈ (y.arb.at target).reqs
    rw [hreqs]
    exact Arbiter.mem_after hr (Arbiter.ne_reserved h0 h24)
  · exact (hwait 0).trans (by simp [Arbiter.reserved_eq, h0, h24])
  · exact (hwait 24).trans (by simp [Arbiter.reserved_eq, h0, h24])
  · have hr : a.reserved = some (if a.lastProt then 0 else 24) := by simp [Arbiter.reserved_eq, h0, h24]
    refine ⟨(hwait 0).trans ?_, (hwait 24).trans ?_, (hlast _ hr).trans ?_⟩
    · rw [hr, h0]
      cases a.lastProt <;> decide
    · rw [hr, h24]
      cases a.lastProt <;> decide
    · cases a.lastProt <;> decide

-- The MRAM write port (11 R340, R341).

/-- What a queued store leaves of the memory when its lane is not the Weighbridge's: MRAM, the wheel, its latency and that lane. -/
def Mem.port (m : Mem) : List Host.Cell × Fin 10 × Nat × List Codeword := (m.mram, m.queue.slot, m.queue.maxUs, m.queue.wb)

theorem Mem.store_port (m : Mem) (now off : Nat) {addr : Nat} (bytes : List Byte) (h : laneOf (regionOf addr) ≠ .wb) :
    (m.store now addr off bytes).port = m.port := by
  unfold Mem.store
  dsimp only
  split
  · rfl
  · cases hl : laneOf (regionOf addr) with
    | wb => exact absurd hl h
    | sb => rfl
    | cal => rfl
    | cr => rfl

theorem laneOf_studbook {a : Nat} (h : 0x1800000 ≤ a) : laneOf (regionOf a) = .sb := by
  unfold regionOf
  repeat rw [if_neg (by omega)]
  rfl

/-- A byte string stored in the studbook's region. -/
theorem Mem.storeAll_port (now : Nat) : ∀ (fuel : Nat) (m : Mem) {addr : Nat} (bytes : List Byte), 0x1800000 ≤ addr →
    (Mem.storeAll fuel m now addr bytes).port = m.port
  | 0, _, _, _, _ => rfl
  | fuel + 1, m, addr, bytes, h => by
    have hregion : laneOf (regionOf (addr - addr % 16)) ≠ .wb := by
      rw [laneOf_studbook (by omega)]
      decide
    unfold Mem.storeAll
    split
    · rfl
    · rw [Mem.storeAll_port now fuel _ _ (by omega), Mem.store_port _ _ _ _ hregion]

theorem State.passRecords_port : ∀ (fuel : Nat) (s : State), (State.passRecords fuel s).mem.port = s.mem.port
  | 0, _ => rfl
  | fuel + 1, s => by
    unfold State.passRecords
    split
    · rfl
    · split
      · rfl
      · dsimp only
        rw [State.passRecords_port fuel]
        exact Mem.storeAll_port s.now _ s.mem _ (Nat.le_add_right _ _)

theorem refusedBlock_length (gen refused : Nat) : (refusedBlock gen refused).length = 16 := by
  simp [refusedBlock, withCrc32c, bvBytes, Laws.leBytes_length]

theorem laneOf_refusedCell (n : Fin 3) : laneOf (regionOf (faultCell n + 0x800)) ≠ .wb ∧ (faultCell n + 0x800) % 16 = 0 := by
  rcases fin_three_cases n with rfl | rfl | rfl <;> decide

theorem State.writeRefused_port (s : State) : s.writeRefused.mem.port = s.mem.port := by
  unfold State.writeRefused
  extract_lets b s1
  have h1 : s1.mem.port = s.mem.port := by
    refine List.foldlRecOn (places 3) _ (motive := fun t : State => t.mem.port = s.mem.port) rfl fun t ht n _ => ?_
    obtain ⟨hlane, hmod⟩ := laneOf_refusedCell n
    rw [← ht, State.mramStore]
    dsimp only
    rw [Mem.storeBytes_codeword _ _ hmod (refusedBlock_length _ _), Mem.store_port _ _ _ _ hlane]
  clear_value s1
  exact h1

theorem State.finishClear_port (s : State) : s.finishClear.mem.port = s.mem.port := by
  unfold State.finishClear
  repeat' split
  · rfl
  · rfl
  · dsimp only
    split
    · rfl
    · rw [State.ok, (State.complete_frame _ _ _ _).2.2.2.1]
      simp only [State.stbEvent]
      exact State.writeRefused_port _

theorem State.settleDevice_mem (s : State) : s.settleDevice.mem = s.mem := by
  unfold State.settleDevice
  split
  · split <;> simp
  · rfl

theorem State.settleWaits_mem (s : State) : s.settleWaits.mem = s.mem := by
  unfold State.settleWaits
  dsimp only
  refine List.foldlRecOn _ _ (motive := fun t : State => t.mem = s.mem) rfl fun t ht w _ => ?_
  simp [ht]

/-- What follows a write of MRAM: records pass on, and what waited completes. None of it writes MRAM or uses the Weighbridge's lane. -/
theorem State.afterWrite_port (s : State) :
    (((State.passRecords 32 s).finishClear).settleDevice).settleWaits.mem.port = s.mem.port := by
  rw [State.settleWaits_mem, State.settleDevice_mem, State.finishClear_port, State.passRecords_port]

theorem State.writeCodeword_verified (s : State) (lane : Lane) (w : Codeword) :
    (s.writeCodeword lane w true).mem = { s.mem with
      mram := Memory.writeBytes s.mem.mram w.addr w.bytes
      queue := { s.mem.queue.setLane lane (popLane s.now (s.mem.queue.lane lane)) with
        slot := idx 10 (by decide) (s.mem.queue.slot.val + 1)
        maxUs := max s.mem.queue.maxUs (min 0xFFFF ((s.now - w.at_) / ticksPerUs))
        maxLane := if s.mem.queue.maxUs < min 0xFFFF ((s.now - w.at_) / ticksPerUs) then lane.code else s.mem.queue.maxLane } } := rfl

/-- A lane offered a slot of its own writes in it. -/
theorem MramQueue.chosen_of_owner {q : MramQueue} {w : Codeword} {rest : List Codeword} (h : q.lane (wheelOwner q.slot) = w :: rest) :
    q.chosen = some (wheelOwner q.slot) := by
  unfold MramQueue.chosen
  have hhead : ∃ l, wheelOrder (wheelOwner q.slot) = wheelOwner q.slot :: l := by
    cases wheelOwner q.slot <;> exact ⟨_, rfl⟩
  obtain ⟨l, hl⟩ := hhead
  rw [hl, List.find?_cons_of_pos (by simp [h])]

theorem MramQueue.chosen_of_empty {q : MramQueue} (h : q.all = []) : q.chosen = none := by
  simp only [MramQueue.all, List.append_eq_nil_iff] at h
  obtain ⟨⟨⟨hwb, hsb⟩, hcal⟩, hcr⟩ := h
  refine List.find?_eq_none.mpr fun l _ => ?_
  cases l <;> simp [MramQueue.lane, hwb, hsb, hcal, hcr]

/-- A write of the owner of a slot (11 R340). -/
theorem exec_mramWriteSlot {s : State} {w : Codeword} {rest : List Codeword} (hmem : s.isl.mem = true)
    (hlane : s.mem.queue.lane (wheelOwner s.mem.queue.slot) = w :: rest) :
    ∃ u : State, u.mem.port = (s.writeCodeword (wheelOwner s.mem.queue.slot) w true).mem.port ∧ exec (.mramWriteSlot true) s = answer s u := by
  refine ⟨(((State.passRecords 32 (if (regionOf w.addr == .studbook) && true && w.addr % 256 == 240
      then (s.writeCodeword (wheelOwner s.mem.queue.slot) w true).stbEvent 0
      else s.writeCodeword (wheelOwner s.mem.queue.slot) w true)).finishClear).settleDevice).settleWaits, ?_, ?_⟩
  · rw [State.afterWrite_port]
    split <;> rfl
  · change execMramWriteSlot true s = _
    unfold execMramWriteSlot
    simp only [hmem, MramQueue.chosen_of_owner hlane, hlane, Bool.not_true, Bool.and_false, Bool.false_eq_true, if_false]

/-- Settles O42: what each kind of round grants, and what the slots of the write wheel write. -/
theorem yardGrantsAndWriteSlots : Obligations.YardGrantsAndWriteSlots := by
  unfold Obligations.YardGrantsAndWriteSlots
  refine ⟨fun target arriving s hround => answers_reservedRound hround, fun target arriving i s hround haged => ?_,
    fun target arriving s hround haged hptr hcredit => ?_, fun s => ?_, fun s => ?_, fun w rest s hmem hlane => ?_,
    fun w rest s hmem hslot hwb hlen => ?_, fun s hmem hall ok => ?_, fun ok s hmem => ?_⟩
  case refine_1 =>
    obtain ⟨hat, hother⟩ := s.granted_arb target (s.asked target arriving) (some i) true
    refine answers_of_exec_of_evt_eq (exec_agedRound hround haged) rfl ⟨?_, ?_, fun r hr hne => ?_, ?_, ?_, ?_, hother, rfl⟩
    · rw [hat, Arbiter.waiting_after]
      simp
    · rw [hat]
      rfl
    · rw [hat]
      exact Arbiter.mem_after hr fun e => hne (Option.some.inj e)
    · rw [hat]
      rfl
    · rw [hat]
      rfl
    · exact (Yard.record_arb _ _ _ _ _).2
  case refine_2 =>
    obtain ⟨hat, hother⟩ := s.granted_arb target { s.asked target arriving with
      credit := (s.yard.arb.at target).credit.upd (s.yard.arb.at target).ptr (· - 1) } (some (s.yard.arb.at target).ptr) false
    refine answers_of_exec_of_evt_eq (exec_pointedRound hround haged hptr hcredit) rfl
      ⟨?_, ?_, fun r hr hne => ?_, fun i => ?_, hother, rfl⟩
    · rw [hat, Arbiter.waiting_after]
      simp
    · rw [hat]
      rfl
    · rw [hat]
      exact Arbiter.mem_after hr fun e => hne (Option.some.inj e)
    · rw [hat]
      change ((s.yard.arb.at target).credit.upd (s.yard.arb.at target).ptr (· - 1)).at i = (s.yard.arb.at target).credit.at i -
        if i = (s.yard.arb.at target).ptr then 1 else 0
      rw [Bank.at_upd]
      by_cases e : i = (s.yard.arb.at target).ptr
      · simp [e]
      · simp [e, Ne.symm e]
  case refine_3 => exact answers_of_exec_of_evt_eq (u := s.clearMaxwait) rfl rfl rfl
  case refine_4 => exact answers_of_exec_of_evt_eq (u := s.clearMaxlat) rfl rfl rfl
  case refine_5 =>
    obtain ⟨u, hu, hexec⟩ := exec_mramWriteSlot hmem hlane
    rw [State.writeCodeword_verified] at hu
    simp only [Mem.port, Prod.mk.injEq] at hu
    obtain ⟨hmram, hslot, hmax, -⟩ := hu
    refine answers_of_exec hexec ?_
    simp only [eventInterrupt_frame]
    exact ⟨hmram, by rw [hslot]; rfl, hmax⟩
  case refine_6 =>
    have howner : wheelOwner s.mem.queue.slot = .wb := by rw [hslot]; rfl
    have hlane : s.mem.queue.lane (wheelOwner s.mem.queue.slot) = w :: rest := by rw [howner]; exact hwb
    obtain ⟨u, hu, hexec⟩ := exec_mramWriteSlot hmem hlane
    rw [State.writeCodeword_verified, howner] at hu
    simp only [Mem.port, Prod.mk.injEq] at hu
    obtain ⟨hmram, -, -, hrest⟩ := hu
    refine answers_of_exec hexec ?_
    simp only [eventInterrupt_frame]
    refine ⟨hrest.trans ?_, hmram⟩
    simp only [MramQueue.setLane, MramQueue.lane, hwb, popLane, List.drop_succ_cons, List.drop_zero]
    exact List.modify_eq_self (by omega)
  case refine_7 =>
    have hexec : exec (.mramWriteSlot ok) s = answer s { s with mem := { s.mem with queue := { s.mem.queue with
        slot := idx 10 (by decide) (s.mem.queue.slot.val + 1) } } } := by
      change execMramWriteSlot ok s = _
      unfold execMramWriteSlot
      simp only [hmem, MramQueue.chosen_of_empty hall]
      rfl
    exact answers_of_exec_of_evt_eq hexec rfl ⟨rfl, rfl, rfl⟩
  case refine_8 =>
    exact answers_of_exec_of_evt_eq (u := s) (congrArg (answer s) (if_pos (by simp [hmem]))) rfl rfl

end Sys2Proof.Machine
end

section
/-! SUPPORT. What the frame edge of the contactors and of the Weighbridge leaves of the trip limits (04, 10). -/

namespace Sys2Proof.Machine

@[simp] theorem State.foldl_trips {α : Type} (l : List α) (f : State → α → State) (h : ∀ t a, (f t a).trips = t.trips)
    (s : State) : (l.foldl f s).trips = s.trips :=
  List.foldlRecOn l f (motive := fun t => t.trips = s.trips) rfl fun _ ht a _ => (h _ a).trans ht

@[simp] theorem State.writeSense_trips (s : State) (ch : Fin 24) (tag : Nat) : (s.writeSense ch tag).trips = s.trips := by
  simp [State.writeSense]

@[simp] theorem State.takeSample_trips (s : State) (ch : Fin 24) (ma : Nat) (sat settling : Bool) (tag : Nat) :
    (s.takeSample ch ma sat settling tag).trips = s.trips := by
  simp [State.takeSample]

@[simp] theorem State.sampleContactors_trips (s : State) (mv : Bank 12 Nat) : (s.sampleContactors mv).trips = s.trips := by
  simp [State.sampleContactors]

@[simp] theorem State.dropDetail_trips (s : State) (d : Detail) (w : Nat) : (s.dropDetail d w).trips = s.trips := by
  simp [State.dropDetail]

@[simp] theorem State.onWb_trips (s : State) (str : Fin 4) (f : WbStr → WbStr) : (s.onWb str f).trips = s.trips := by
  simp [State.onWb]

@[simp] theorem State.wbEvent_trips (s : State) (n : Nat) : (s.wbEvent n).trips = s.trips := by
  simp [State.wbEvent]

@[simp] theorem State.writeCounters_trips (s : State) (str : Fin 4) : (s.writeCounters str).trips = s.trips := by
  simp [State.writeCounters]

@[simp] theorem State.wbFrame_trips (s : State) (str : Fin 4) (f : Nat) : (s.wbFrame str f).trips = s.trips := by
  unfold State.wbFrame
  dsimp only
  repeat' split
  all_goals simp

@[simp] theorem State.applyTariff_trips (s : State) (p : TariffPend) : (s.applyTariff p).trips = s.trips := by
  simp [State.applyTariff, apply_ite State.trips]

@[simp] theorem State.applyWb_trips (s : State) : s.applyWb.trips = s.trips := by
  unfold State.applyWb
  extract_lets q _ s1 s2
  have h : s2.trips = s.trips := by simp [s2, s1]
  clear_value s2
  split
  · exact h
  · refine (State.foldl_trips _ _ (fun t i => ?_) _).trans h
    split <;> simp

@[simp] theorem State.snapshot_trips (s : State) (x : Stmt) : (s.snapshot x).trips = s.trips := by
  unfold State.snapshot
  dsimp only
  repeat' split
  all_goals simp

@[simp] theorem State.stmtEdge_trips (s : State) : s.stmtEdge.trips = s.trips := by
  unfold State.stmtEdge
  dsimp only
  repeat' split
  all_goals simp

@[simp] theorem State.wbEdge_trips (s : State) : s.wbEdge.trips = s.trips := by
  unfold State.wbEdge
  dsimp only
  split <;> simp

end Sys2Proof.Machine
end

section
/-! SUPPORT. The trip kinds of a string and its limits (04 R144 to R147). -/

namespace Sys2Proof.Machine

theorem setBit_getLsbD {w : Nat} (x : BitVec w) {n : Nat} (hn : n < w) (k : Nat) :
    (setBit x n).getLsbD k = (decide (k = n) || x.getLsbD k) := by
  have h := putBit_getLsbD x n k true hn
  simp only [putBit, if_true] at h
  rw [h]
  by_cases e : k = n <;> simp [e]

theorem kindPlace_lt (k : TripKind) : kindPlace k < 4 := by cases k <;> decide

/-- A kind that is due and enabled becomes Tripped (04 R144, R145). -/
theorem exec_tripRequest {s : State} {str : Fin 4} {k : TripKind} (hdue : (s.trips.due.at str).getLsbD (kindPlace k) = true)
    (hon : (s.trips.lim.at str).on k = true) : ∃ p, exec (.tripRequest str k) s = answer s { s with
      strs := s.strs.upd str (fun x => { x with tripped := setBit x.tripped (kindPlace k) })
      trips := { s.trips with
        due := s.trips.due.upd str (fun m => putBit m (kindPlace k) false), cnt := satAdd 0xFFFF s.trips.cnt 1 }
      evt := { s.evt with trip := setBit s.evt.trip (4 * str.val + kindPlace k) }
      cross := { s.cross with portToHalter := s.cross.portToHalter.upd p (fun q => q ++ [.trip k str]) } } :=
  ⟨_, congrArg (answer s) (if_pos ⟨hdue, hon⟩)⟩

/-- The operands of TRIP_LIMITS that are taken to wait for the frame edge (04 R147). -/
theorem exec_tripLimits {s : State} {c : Cmd} {f : Flight} (h : Executing s c f) {str : Fin 4} (hstr : opByte c 0 = str.val)
    (henable : opByte c 1 ≤ 15) (hrange : (tripOperands c).inRange = true) :
    exec (.tripLimits c) s = answer s (
      if s.strHeld str && ((((s.trips.pend.at str).getLast?).map Prod.fst).getD (s.trips.lim.at str)).relaxes (tripOperands c)
      then (s.executing c).refuse c 0x0402
      else { s.executing c with trips := { s.trips with pend := s.trips.pend.upd str (fun l => l ++ [(tripOperands c, c)]) } }) := by
  refine (exec_of_run h rfl).trans (congrArg (answer s) ?_)
  have hlt : opByte c 0 < 4 := hstr ▸ str.isLt
  have hfin : (⟨opByte c 0, hlt⟩ : Fin 4) = str := Fin.ext hstr
  rw [dif_pos hlt, hfin]
  dsimp only
  rw [if_neg (by simp [hrange, henable])]
  rfl

-- Trip limits at a frame edge (04 R147).

/-- One accepted set of limits for a string. -/
def State.applyLimits (s : State) (str : Fin 4) (p : TripLimits × Cmd) : State :=
  let s := { s with trips := { s.trips with lim := s.trips.lim.put str p.1 } }
  let gone := (s.strs.at str).tripped &&& ~~~ p.1.enable
  let s := s.onStr str (fun x => { x with tripped := x.tripped &&& p.1.enable })
  let s := [TripKind.ov, .uv, .ot, .oc].foldl (fun s k =>
    if gone.getLsbD (kindPlace k) then s.dropDetail (tripDetail k) str.val else s) s
  s.ok p.2

/-- The limits that wait for a string. -/
def State.applyStringTrips (s : State) (str : Fin 4) : State :=
  (s.trips.pend.at str).foldl (fun s p => s.applyLimits str p)
    { s with trips := { s.trips with pend := s.trips.pend.put str [] } }

theorem State.applyTrips_eq (s : State) : s.applyTrips = (places 4).foldl State.applyStringTrips s := rfl

theorem State.applyLimits_trips (s : State) (str : Fin 4) (p : TripLimits × Cmd) :
    (s.applyLimits str p).trips = { s.trips with lim := s.trips.lim.put str p.1 } := by
  unfold State.applyLimits
  extract_lets _ s1 gone s2 s3
  have h3 : s3.trips = s1.trips := (State.foldl_trips _ _ (fun t k => by split <;> simp) s2).trans (by simp [s2])
  clear_value s3
  simp [h3, s1]

theorem State.foldl_applyLimits_pend (str : Fin 4) (l : List (TripLimits × Cmd)) (s : State) :
    (l.foldl (fun s p => s.applyLimits str p) s).trips.pend = s.trips.pend :=
  List.foldlRecOn l _ (motive := fun t : State => t.trips.pend = s.trips.pend) rfl fun t ht p _ => by
    rw [t.applyLimits_trips]
    exact ht

theorem State.foldl_applyLimits_lim {str j : Fin 4} (h : str ≠ j) (l : List (TripLimits × Cmd)) (s : State) :
    (l.foldl (fun s p => s.applyLimits str p) s).trips.lim.at j = s.trips.lim.at j :=
  List.foldlRecOn l _ (motive := fun t : State => t.trips.lim.at j = s.trips.lim.at j) rfl fun t ht p _ => by
    rw [t.applyLimits_trips]
    exact (Bank.at_put_of_ne _ _ h).trans ht

/-- The frame edge of one string leaves the limits of the others. -/
theorem State.applyStringTrips_of_ne (s : State) {str j : Fin 4} (h : str ≠ j) :
    (s.applyStringTrips str).trips.lim.at j = s.trips.lim.at j ∧ (s.applyStringTrips str).trips.pend.at j = s.trips.pend.at j := by
  unfold State.applyStringTrips
  rw [State.foldl_applyLimits_lim h, State.foldl_applyLimits_pend]
  exact ⟨rfl, Bank.at_put_of_ne _ _ h⟩

theorem State.applyStringTrips_of_one {s : State} {str : Fin 4} {new : TripLimits} {c : Cmd} (h : s.trips.pend.at str = [(new, c)]) :
    (s.applyStringTrips str).trips.lim.at str = new ∧ (s.applyStringTrips str).trips.pend.at str = [] := by
  unfold State.applyStringTrips
  rw [h, List.foldl_cons, List.foldl_nil, State.applyLimits_trips]
  exact ⟨Bank.at_put_self _ _ _, Bank.at_put_self _ _ _⟩

/-- Limits that wait alone for a string take effect at the frame edge (04 R147). -/
theorem State.foldl_applyStringTrips {s : State} {str : Fin 4} {new : TripLimits} {c : Cmd} (h : s.trips.pend.at str = [(new, c)])
    {l : List (Fin 4)} (hmem : str ∈ l) (hl : l.Nodup) :
    (l.foldl State.applyStringTrips s).trips.lim.at str = new ∧ (l.foldl State.applyStringTrips s).trips.pend.at str = [] := by
  obtain ⟨t, ht, hf⟩ := foldl_of_single (fun t : State => (t.trips.lim.at str, t.trips.pend.at str)) State.applyStringTrips str
    (fun t j hj => Prod.ext (t.applyStringTrips_of_ne hj).1 (t.applyStringTrips_of_ne hj).2) hmem hl s
  obtain ⟨hlim, hpend⟩ := State.applyStringTrips_of_one ((congrArg Prod.snd ht : t.trips.pend.at str = _).trans h)
  exact ⟨(congrArg Prod.fst hf : (l.foldl State.applyStringTrips s).trips.lim.at str = _).trans hlim,
    (congrArg Prod.snd hf : (l.foldl State.applyStringTrips s).trips.pend.at str = _).trans hpend⟩

theorem State.trips_of_besidesQueues {s t : State} (h : t.besidesQueues = s.besidesQueues) : t.trips = s.trips := by
  simpa only [State.besidesQueues] using congrArg State.trips h

theorem State.stallEdges_trips (l : List (Fin 32)) (s : State) : (l.foldl (fun s i => s.stallEdge i) s).trips = s.trips :=
  State.foldl_trips l (fun s i => s.stallEdge i) (fun t i => (congrArg State.trips (t.stallEdge_besidesStall i) :)) s

/-- The rest of a frame edge leaves the trip limits. -/
theorem State.atFrameEdge_trips (s : State) (sense : Bank 12 Nat) : (s.atFrameEdge sense).trips = s.applyTrips.trips := by
  unfold State.atFrameEdge
  extract_lets s1 s2 s3
  have h2 : s2.trips = s1.trips := State.trips_of_besidesQueues (State.foldl_besidesQueues _ _ (fun t str => t.sendRates_besidesQueues str) s1)
  have h3 : s3.trips = s2.trips := State.stallEdges_trips _ s2
  clear_value s3
  rw [s3.wbEdge_trips, h3, h2]
  exact State.sampleContactors_trips _ _

/-- Settles O22: a kind of a string trips and clears, and its limits change at a frame edge. -/
theorem tripKindsAndLimits : Obligations.TripKindsAndLimits := by
  unfold Obligations.TripKindsAndLimits
  refine ⟨fun str k s hdue hon => ?_, fun str k s hnot => ?_, fun str k s htripped hclear => ?_, fun str k s hnot => ?_, fun u s => ?_,
    fun c f str s h hstr henable hrange hheld => ?_, fun c f str s h hstr henable hrange hheld hpend hrelax => ?_,
    fun c f s h hbad => ?_, fun sense str new c s htb hpend => ?_⟩
  case refine_1 =>
    obtain ⟨p, hexec⟩ := exec_tripRequest hdue hon
    refine answers_of_exec_up_to_interrupt hexec fun t _ hevt _ ht => ?_
    have hstrs : t.strs = s.strs.upd str (fun x => { x with tripped := setBit x.tripped (kindPlace k) }) := congrArg State.strs ht
    have htrips : t.trips = { s.trips with
        due := s.trips.due.upd str (fun m => putBit m (kindPlace k) false), cnt := satAdd 0xFFFF s.trips.cnt 1 } := congrArg State.trips ht
    have hcross : t.cross = _ := congrArg State.cross ht
    refine ⟨fun n => ?_, fun j hj => ?_, ?_, fun n => ?_, ?_, ⟨p, hcross⟩, ?_, ?_⟩
    · rw [hstrs, Bank.at_upd_self]
      exact setBit_getLsbD _ (kindPlace_lt k) n
    · rw [hstrs, Bank.at_upd_of_ne _ _ (Ne.symm hj)]
    · rw [htrips]
    · rw [htrips, Bank.at_upd_self, putBit_getLsbD _ _ _ _ (kindPlace_lt k)]
      by_cases e : n = kindPlace k <;> simp [e]
    · rw [hevt]
      have := kindPlace_lt k
      exact setBit_getLsbD_self _ (by omega)
    · rw [htrips]
    · rw [hstrs, htrips, hevt, hcross]
      exact ht
  case refine_2 =>
    refine answers_of_exec_of_evt_eq (u := s) (congrArg (answer s) (if_neg fun h => ?_)) rfl rfl
    rcases hnot with h' | h'
    · exact absurd h.1 (by simp [h'])
    · exact absurd h.2 (by simp [h'])
  case refine_3 =>
    refine answers_of_exec_of_evt_eq (congrArg (answer s) (if_pos ⟨htripped, hclear⟩)) rfl ⟨fun n => ?_, fun j hj => ?_, rfl⟩
    · change ((s.strs.upd str (fun x => { x with tripped := putBit x.tripped (kindPlace k) false })).at str).tripped.getLsbD n = _
      rw [Bank.at_upd_self, putBit_getLsbD _ _ _ _ (kindPlace_lt k)]
      by_cases e : n = kindPlace k <;> simp [e]
    · exact Bank.at_upd_of_ne _ _ (Ne.symm hj)
  case refine_4 =>
    refine answers_of_exec_of_evt_eq (u := s) (congrArg (answer s) (if_neg fun h => ?_)) rfl rfl
    rcases hnot with h' | ⟨hrel, hon⟩
    · exact absurd h.1 (by simp [h'])
    · exact absurd h.2 (by simp [hrel, hon])
  case refine_5 => exact answers_of_exec_of_evt_eq (u := s.clearAlign u) rfl rfl rfl
  case refine_6 =>
    have hexec := exec_tripLimits h hstr henable hrange
    rw [hheld, Bool.false_and, if_neg Bool.false_ne_true] at hexec
    refine answers_of_exec_of_evt_eq hexec rfl ⟨?_, fun j hj => ?_, rfl, rfl, rfl, executing_flight_same h, rfl⟩
    · exact Bank.at_upd_self _ _ _
    · exact Bank.at_upd_of_ne _ _ (Ne.symm hj)
  case refine_7 =>
    have hexec := exec_tripLimits h hstr henable hrange
    rw [hheld, hpend, List.getLast?_nil, Option.map_none, Option.getD_none, hrelax, if_pos (by decide), State.refuse,
      dwords_one (by decide)] at hexec
    exact answers_only_complete h hexec
  case refine_8 =>
    refine answers_badOperand h ((exec_of_run h rfl).trans (congrArg (answer s) ?_))
    by_cases hlt : opByte c 0 < 4
    · rw [dif_pos hlt]
      dsimp only
      rw [if_pos (hbad.resolve_left (by omega))]
    · rw [dif_neg hlt]
  case refine_9 =>
    have hexec : exec (.frameEdge sense) s = answer s ((s.advance (ticksPerFrame - s.now % ticksPerFrame)).atFrameEdge sense) :=
      congrArg (answer s) (if_pos htb)
    refine answers_of_exec hexec ?_
    simp only [eventInterrupt_frame, State.atFrameEdge_trips, State.applyTrips_eq]
    exact State.foldl_applyStringTrips (s := s.advance _) hpend (List.mem_finRange str) (List.nodup_finRange 4)

end Sys2Proof.Machine
end

section
/-! SUPPORT. The sweep commands and the sample read (04 R140, R148 to R150). -/

namespace Sys2Proof.Machine

/-- A sample record has 128 bytes (04 R140). -/
theorem sampleBytes_length (u : Fin 128) (avg : Bool) (imgSeq : Nat) (r : SampleRec) : (sampleBytes u avg imgSeq r).length = 128 := by
  have hall : r.all.length = 24 := by simp [SampleRec.all]
  have hbytes (l : List Sample) (g : Sample → Nat) : (l.flatMap (fun v => leBytes 4 (g v))).length = 4 * l.length := by
    induction l with
    | nil => rfl
    | cons a l ih =>
      simp only [List.flatMap_cons, List.length_append, Laws.leBytes_length, ih, List.length_cons]
      omega
  unfold sampleBytes
  simp only [List.length_append, Laws.leBytes_length, hbytes, hall]

/-- What SWEEP_CONFIG does by its FUNC (04 R148). -/
theorem exec_sweepConfig {s : State} {c : Cmd} {f : Flight} (h : Executing s c f) : exec (.sweepConfig c) s = answer s (
    if opByte c 0 = 0 then sweepRate c (s.executing c)
    else if opByte c 0 = 1 then sweepList c (s.executing c)
    else if opByte c 0 = 2 then sweepAverage c (s.executing c)
    else if opByte c 0 = 3 then sweepSleep c (s.executing c)
    else (s.executing c).badOperand c) :=
  exec_of_run (body := fun s =>
    if opByte c 0 = 0 then sweepRate c s
    else if opByte c 0 = 1 then sweepList c s
    else if opByte c 0 = 2 then sweepAverage c s
    else if opByte c 0 = 3 then sweepSleep c s
    else s.badOperand c) h rfl

theorem sweepRate_eq {s : State} {c : Cmd} {str : Fin 4} (hstr : opByte c 1 = str.val) (hrate : opByte c 3 ≤ 3) :
    sweepRate c s = if s.strHeld str then s.refuse c 0x0401
      else s.onStr str (fun x => { x with ratePend := x.ratePend ++ [(BitVec.ofNat 2 (opByte c 3), (s.frame + 15) / 8 * 8, c)] }) := by
  have hlt : opByte c 1 < 4 := hstr ▸ str.isLt
  have hfin : (⟨opByte c 1, hlt⟩ : Fin 4) = str := Fin.ext hstr
  unfold sweepRate
  rw [dif_pos hlt, hfin]
  dsimp only
  rw [if_neg (by omega)]
  rfl

/-- A slot list that is taken is configured and staged; what waits for the stall changes with it (04 R125, R149). -/
theorem sweepList_effect {s : State} {c : Cmd} {i : Fin 32} {k str : Fin 4} (hi : opByte c 1 = i.val) (hk : opByte c 2 = k.val)
    (hstr : (s.stalls.at i).str = some str) (hmc : s.isMc16 (unitPos i k) = true)
    (hlist : slotListOk (opByte c 3) ((List.range 24).map (fun n => BitVec.ofNat 8 (opByte c (4 + n)))) = true)
    (hheld : s.strHeld str = false) (hoos : (s.stalls.at i).oos = false) :
    ∃ stalls : Bank 32 Stall, sweepList c s = { s with
      stalls := stalls
      uswp := s.uswp.upd (unitPos i k) (fun w => { w with
        cfgList := ((List.range 24).map (fun n => BitVec.ofNat 8 (opByte c (4 + n)))).take (opByte c 3)
        staged := some {
          codes := ((List.range 24).map (fun n => BitVec.ofNat 8 (opByte c (4 + n)))).take (opByte c 3), frame := none
          cmds := ((w.staged.map StagedList.cmds).getD []) ++ [c] } }) } := by
  have hlt : opByte c 1 < 32 ∧ opByte c 2 < 4 := ⟨hi ▸ i.isLt, hk ▸ k.isLt⟩
  have hfi : (⟨opByte c 1, hlt.1⟩ : Fin 32) = i := Fin.ext hi
  have hfk : (⟨opByte c 2, hlt.2⟩ : Fin 4) = k := Fin.ext hk
  unfold sweepList
  rw [dif_pos hlt]
  simp only [hfi, hfk, hstr, hmc, hlist, hheld, hoos, Bool.true_eq_false, Bool.false_eq_true, or_self, if_false]
  split <;> exact ⟨_, rfl⟩

theorem sweepAverage_eq {s : State} {c : Cmd} {i : Fin 32} (hi : opByte c 1 = i.val) (hstr : (s.stalls.at i).str ≠ none)
    (hmode : opByte c 3 = 0) (hlo : 1 ≤ opField c 4 2) (hhi : opField c 4 2 ≤ 1024) (hstream : opByte c 6 ≤ 1)
    (hoos : (s.stalls.at i).oos = false) : sweepAverage c s = s.onStall i (fun x => { x with
      avgPend := x.avgPend ++ [⟨false, opField c 4 2, opByte c 6 == 1, BitVec.ofNat 32 (opField c 8 4), c⟩] }) := by
  have hlt : opByte c 1 < 32 := hi ▸ i.isLt
  have hfi : (⟨opByte c 1, hlt⟩ : Fin 32) = i := Fin.ext hi
  unfold sweepAverage
  dsimp only
  rw [dif_pos hlt, hfi, if_neg, hoos, if_neg Bool.false_ne_true, hmode]
  · rfl
  · rintro (h | h | h | h | h | h)
    · exact hstr h
    all_goals omega

theorem sweepSleep_eq {s : State} {c : Cmd} (hmask : ∀ i : Fin 32, (opField c 4 4).testBit i.val = true → (s.stalls.at i).str ≠ none)
    (hinterval : opField c 8 2 ≤ 3600) (hup : opField c 10 2 ≤ 1023) (hlo : opField c 12 2 < opField c 10 2)
    (hn : 1 ≤ opByte c 14) (hn' : opByte c 14 ≤ 64) : sweepSleep c s = State.ok { s with sleep := { s.sleep with
      mask := BitVec.ofNat 32 (opField c 4 4), interval := opField c 8 2, upper := opField c 10 2, lower := opField c 12 2
      sweeps := opByte c 14 } } c := by
  have hany : (places 32).any (fun i => (opField c 4 4).testBit i.val && (s.stalls.at i).str == none) = false := by
    rw [List.any_eq_false]
    intro i _ h
    simp only [Bool.and_eq_true, beq_iff_eq] at h
    exact hmask i h.1 h.2
  unfold sweepSleep
  dsimp only
  rw [hany, if_neg]
  rintro (h | h | h | h | h | h | h)
  · exact Bool.false_ne_true h
  all_goals omega

theorem exec_sampleRead {s : State} {c : Cmd} {f : Flight} (h : Executing s c f) {i : Fin 32} {k : Fin 4} (hi : opByte c 0 = i.val)
    (hk : opByte c 1 = k.val) (havg : opByte c 2 ≤ 1) (hstr : (s.stalls.at i).str ≠ none)
    (htype : s.isMc16 (unitPos i k) = true ∨ s.isMp4 (unitPos i k) = true) (haddr : opField c 8 8 % 16 = 0) :
    exec (.sampleRead c) s = answer s (
      let avg := opByte c 2 == 0
      let r := if avg then (s.uswp.at (unitPos i k)).averaged else (s.uswp.at (unitPos i k)).aligned
      ((s.executing c).toHost (opField c 8 8) (sampleBytes (unitPos i k) avg 0 r)).ok c (dwords 128 (s.frame - r.start) 0 0)) := by
  refine (exec_of_run h rfl).trans (congrArg (answer s) ?_)
  have hlt : opByte c 0 < 32 ∧ opByte c 1 < 4 := ⟨hi ▸ i.isLt, hk ▸ k.isLt⟩
  have hfi : (⟨opByte c 0, hlt.1⟩ : Fin 32) = i := Fin.ext hi
  have hfk : (⟨opByte c 1, hlt.2⟩ : Fin 4) = k := Fin.ext hk
  have htype' : ¬ (s.isMc16 (unitPos i k) = false ∧ s.isMp4 (unitPos i k) = false) := by
    rintro ⟨h1, h2⟩
    simp [h1, h2] at htype
  dsimp only
  rw [dif_pos hlt, hfi, hfk, if_neg]
  · rfl
  · rintro (h1 | h1 | h1 | h1)
    · exact hstr h1
    · exact htype' h1
    · omega
    · simp [aligned16, haddr] at h1

/-- Settles O23: the FUNCs of SWEEP_CONFIG and the record that SAMPLE_READ writes. -/
theorem sweepConfigAndSampleRead : Obligations.SweepConfigAndSampleRead := by
  unfold Obligations.SweepConfigAndSampleRead
  refine ⟨fun c f str s h hfunc hstr hrate hheld => ?_, fun c f str s h hfunc hstr hrate hheld => ?_,
    fun c f i k str s h hfunc hi hk hstr hmc hlist hheld hoos => ?_, fun c f i s h hfunc hi hstr hmode hlo hhi hstream hoos => ?_,
    fun c f s h hfunc hmask hinterval hup hlo hn hn' => ?_, fun c f i k s h hi hk havg hstr htype haddr => ?_⟩
  case refine_1 =>
    have hexec := exec_sweepConfig h
    have hheld' : (s.executing c).strHeld str = false := hheld
    rw [if_pos hfunc, sweepRate_eq hstr hrate, hheld', if_neg Bool.false_ne_true] at hexec
    exact answers_of_exec_of_evt_eq hexec rfl ⟨congrArg Str.ratePend (Bank.at_upd_self _ _ _),
      (congrArg Str.rate (Bank.at_upd_self _ _ _)).trans rfl,
      fun j hj => Bank.at_upd_of_ne _ _ (Ne.symm hj), executing_flight_same h, rfl⟩
  case refine_2 =>
    have hexec := exec_sweepConfig h
    rw [if_pos hfunc, sweepRate_eq hstr hrate, if_pos (show (s.executing c).strHeld str = true from hheld), State.refuse,
      dwords_one (by decide)] at hexec
    exact answers_only_complete h hexec
  case refine_3 =>
    have hexec := exec_sweepConfig h
    obtain ⟨stalls, hw⟩ := sweepList_effect (s := s.executing c) hi hk hstr hmc hlist hheld hoos
    rw [if_neg (by omega), if_pos hfunc, hw] at hexec
    refine answers_of_exec_of_evt_eq hexec rfl ⟨?_, ?_, fun u hu => Bank.at_upd_of_ne _ _ (Ne.symm hu), executing_flight_same h, rfl⟩
    · exact congrArg UnitSweep.cfgList (Bank.at_upd_self _ _ _)
    · exact (congrArg UnitSweep.codes (Bank.at_upd_self _ _ _)).trans rfl
  case refine_4 =>
    have hexec := exec_sweepConfig h
    rw [if_neg (by omega), if_neg (by omega), if_pos hfunc, sweepAverage_eq (s := s.executing c) hi hstr hmode hlo hhi hstream hoos] at hexec
    exact answers_of_exec_of_evt_eq hexec rfl
      ⟨congrArg Stall.avgPend (Bank.at_upd_self _ _ _), fun j hj => Bank.at_upd_of_ne _ _ (Ne.symm hj), rfl⟩
  case refine_5 =>
    have hexec := exec_sweepConfig h
    rw [if_neg (by omega), if_neg (by omega), if_neg (by omega), if_pos hfunc,
      sweepSleep_eq (s := s.executing c) hmask hinterval hup hlo hn hn'] at hexec
    refine answers_of_complete hexec (h.ending.of_eq rfl rfl rfl) rfl fun t hc ht => ⟨hc, ?_, ?_⟩
    · rw [ht]
      rfl
    · rw [ht]
      rfl
  case refine_6 =>
    refine answers_of_complete (exec_sampleRead h hi hk havg hstr htype haddr) (h.ending.of_eq rfl rfl rfl) rfl fun t hc ht =>
      ⟨hc, sampleBytes_length _ _ _ _, ?_, ?_⟩
    · rw [ht]
      rfl
    · rw [ht]
      rfl

end Sys2Proof.Machine
end

section
/-! SUPPORT. What the integrity checks and the first steps of an opening leave of the strings (05, 07). -/

namespace Sys2Proof.Machine

@[simp] theorem State.foldl_strs {α : Type} (l : List α) (f : State → α → State) (h : ∀ t a, (f t a).strs = t.strs)
    (s : State) : (l.foldl f s).strs = s.strs :=
  List.foldlRecOn l f (motive := fun t => t.strs = s.strs) rfl fun _ ht a _ => (h _ a).trans ht

@[simp] theorem State.settleMask_strs (s : State) (u : Fin 128) : (s.settleMask u).strs = s.strs := by
  unfold State.settleMask
  dsimp only
  split <;> simp

@[simp] theorem State.turnOn_strs (s : State) (ch : Fin 24) : (s.turnOn ch).strs = s.strs := by
  unfold State.turnOn
  dsimp only
  repeat' split
  all_goals simp

@[simp] theorem State.turnOff_strs (s : State) (ch : Fin 24) : (s.turnOff ch).strs = s.strs := by
  simp [State.turnOff]

@[simp] theorem State.settleOut_strs (s : State) (ch : Fin 24) : (s.settleOut ch).strs = s.strs := by
  unfold State.settleOut
  dsimp only
  repeat' split
  all_goals simp

@[simp] theorem State.command_strs (s : State) (ch : Fin 24) (on : Bool) : (s.command ch on).strs = s.strs := by
  simp [State.command]

@[simp] theorem State.strEvent_strs (s : State) (base : Nat) (str : Fin 4) : (s.strEvent base str).strs = s.strs := by
  simp [State.strEvent]

@[simp] theorem State.abortShunt_strs (s : State) (str : Fin 4) : (s.abortShunt str).strs = s.strs := by
  unfold State.abortShunt
  dsimp only
  split
  · rfl
  · rw [State.foldl_strs _ _ (fun t c => by simp)]
    split <;> simp

@[simp] theorem State.stopExcitation_strs (s : State) (str : Fin 4) : (s.stopExcitation str).strs = s.strs := by
  unfold State.stopExcitation
  split <;> simp

@[simp] theorem State.integEvent_strs (s : State) (u : Fin 128) : (s.integEvent u).strs = s.strs := by
  simp [State.integEvent]

@[simp] theorem State.changeInvalid_strs (s : State) (u : Fin 128) (f : UnitInteg → UnitInteg) : (s.changeInvalid u f).strs = s.strs := by
  simp [State.changeInvalid]

@[simp] theorem State.onWire_strs (s : State) (u : Fin 128) (w : Fin 16) (f : WireHist → WireHist) : (s.onWire u w f).strs = s.strs := by
  simp [State.onWire]

@[simp] theorem State.wireRecord_strs (s : State) (u : Fin 128) (w : Fin 16) (outcome sw : Nat) : (s.wireRecord u w outcome sw).strs = s.strs := by
  simp [State.wireRecord]

@[simp] theorem State.confirmWire_strs (s : State) (u : Fin 128) (w : Fin 16) (outcome sw : Nat) :
    (s.confirmWire u w outcome sw).strs = s.strs := by
  simp [State.confirmWire]

@[simp] theorem State.queueProbe_strs (s : State) (u : Fin 128) (p : Probe) : (s.queueProbe u p).strs = s.strs := by
  simp [State.queueProbe]

@[simp] theorem State.suspectWire_strs (s : State) (u : Fin 128) (w : Fin 16) : (s.suspectWire u w).strs = s.strs := by
  unfold State.suspectWire
  dsimp only
  split <;> simp

@[simp] theorem State.pairSum_strs (s : State) (u : Fin 128) : (s.pairSum u).strs = s.strs := by
  unfold State.pairSum
  dsimp only
  repeat' split
  all_goals simp [apply_ite State.strs]

@[simp] theorem State.plausRecord_strs (s : State) (p : PlausId) (on : Bool) : (s.plausRecord p on).strs = s.strs := by
  unfold State.plausRecord
  split <;> simp

end Sys2Proof.Machine
end

section
/-! SUPPORT. The plausibility conditions of a unit and of a string (05 R160). -/

namespace Sys2Proof.Machine

-- A request of level B on a closed string (07 R229).

theorem State.closeRefused_at (s : State) (str : Fin 4) (code d3 : Nat) : ∃ last seq,
    (s.closeRefused str code d3).strs.at str = { s.strs.at str with lastRefuse := last, seq := seq } := by
  unfold State.closeRefused
  split
  · exact ⟨_, _, rfl⟩
  · simp only [State.complete_frame, State.onStr, Bank.at_upd_self]
    exact ⟨_, _, rfl⟩

theorem State.cmdContactor_at (s : State) (str : Fin 4) (k : Fin 3) (on : Bool) : ∃ at_,
    (s.cmdContactor str k on).strs.at str = { s.strs.at str with cmdAt := at_ } := by
  unfold State.cmdContactor
  extract_lets ch
  clear_value ch
  split
  · split
    · exact ⟨_, rfl⟩
    · exact ⟨_, congrArg (fun b => Bank.at b str) (s.command_strs ch on)⟩
  · simp only [State.onStr, Bank.at_upd_self, State.command_strs]
    exact ⟨_, rfl⟩

/-- A state other than Open that a string enters. -/
theorem State.enterStr_at (s : State) (str : Fin 4) {new : StrState} (hnew : new ≠ .opened) (cause : Nat) (stamp : BitVec 32) :
    (s.enterStr str new cause stamp).strs.at str = { s.strs.at str with st := new } := by
  unfold State.enterStr
  extract_lets old s1 s2 s3 s4 s5
  have h1 : s1.strs.at str = { s.strs.at str with st := new } := by simp [s1, State.onStr]
  have h3 : s3.strs = s1.strs := by
    unfold s3
    split <;> simp [s2]
  have h4 : s4.strs = s3.strs := by
    unfold s4
    split <;> simp
  have h5 : s5.strs = s4.strs := by
    unfold s5
    split <;> simp
  clear_value s5
  rw [if_neg hnew, h5, h4, h3, h1]

/-- A closed string that is asked to open does (07 R229). -/
theorem State.requestB_of_closed {s : State} {str : Fin 4} (h : s.strSt str = .closed) (cause : Nat) :
    ∃ last seq at_, (s.requestB str cause).strs.at str = { s.strs.at str with
      st := .opening, lastCause := BitVec.ofNat 8 cause, lastRefuse := last, seq := seq, cmdAt := at_ } := by
  have he : s.requestB str cause = ((s.strEvent 4 str).closeRefused str 0x0708 cause).startOpening str cause 0 := by
    simp only [State.requestB, h]
  obtain ⟨last, seq, hrefused⟩ := State.closeRefused_at (s.strEvent 4 str) str 0x0708 cause
  rw [he, State.startOpening]
  obtain ⟨at_, hat⟩ := State.cmdContactor_at (State.enterStr (((s.strEvent 4 str).closeRefused str 0x0708 cause).onStr str (fun x => { x with
    lastCause := BitVec.ofNat 8 cause
    seq := { x.seq with openingAt := ((s.strEvent 4 str).closeRefused str 0x0708 cause).now, releaseAt := none, lowRun := 0, iRelease := none } }))
      str .opening cause 0) str 2 false
  rw [hat, State.enterStr_at _ _ (by decide)]
  simp only [State.onStr, Bank.at_upd_self, hrefused, State.strEvent_strs]
  exact ⟨_, _, _, rfl⟩

-- What the checks of one unit change (05 R160, R161).

/-- From `s` to `t` the integrity part of other units than `u` stays, and `u`'s conditions do. -/
def State.SameConditions (s t : State) (u : Fin 128) : Prop :=
  (∀ v, v ≠ u → t.uint.at v = s.uint.at v) ∧ (t.uint.at u).warn = (s.uint.at u).warn ∧ (t.uint.at u).fail = (s.uint.at u).fail

theorem State.SameConditions.refl (s : State) (u : Fin 128) : s.SameConditions s u := ⟨fun _ _ => rfl, rfl, rfl⟩

theorem State.SameConditions.trans {s t w : State} {u : Fin 128} (h : s.SameConditions t u) (h' : t.SameConditions w u) :
    s.SameConditions w u :=
  ⟨fun v hv => (h'.1 v hv).trans (h.1 v hv), h'.2.1.trans h.2.1, h'.2.2.trans h.2.2⟩

theorem State.SameConditions.of_uint {s t : State} (h : t.uint = s.uint) (u : Fin 128) : s.SameConditions t u :=
  ⟨fun v _ => by rw [h], by rw [h], by rw [h]⟩

theorem State.onInteg_of_ne (s : State) {u v : Fin 128} (h : v ≠ u) (f : UnitInteg → UnitInteg) : (s.onInteg u f).uint.at v = s.uint.at v :=
  Bank.at_upd_of_ne _ _ (Ne.symm h)

theorem State.sameConditions_onInteg (s : State) (u : Fin 128) (f : UnitInteg → UnitInteg)
    (h : ∀ i, (f i).warn = i.warn ∧ (f i).fail = i.fail) : s.SameConditions (s.onInteg u f) u := by
  refine ⟨fun v hv => s.onInteg_of_ne hv f, ?_, ?_⟩ <;> simp [State.onInteg, h]

theorem State.swept_onInteg (s : State) (u v : Fin 128) (f : UnitInteg → UnitInteg) : (s.onInteg u f).swept v = s.swept v := rfl

theorem State.sameConditions_changeInvalid (s : State) (u : Fin 128) (f : UnitInteg → UnitInteg)
    (h : ∀ i, (f i).warn = i.warn ∧ (f i).fail = i.fail) : s.SameConditions (s.changeInvalid u f) u := by
  unfold State.changeInvalid
  exact s.sameConditions_onInteg u _ fun i => h i

theorem State.sameConditions_confirmWire (s : State) (u : Fin 128) (w : Fin 16) (outcome sw : Nat) :
    s.SameConditions (s.confirmWire u w outcome sw) u := by
  unfold State.confirmWire
  extract_lets s1
  have h1 : s.SameConditions s1 u := s.sameConditions_changeInvalid u
    (fun i => { i with broken := setBit i.broken (w.val - 1), invWire := cellsOfWires (setBit i.broken (w.val - 1))
                       suspW := putBit i.suspW (w.val - 1) false }) fun i => ⟨rfl, rfl⟩
  clear_value s1
  refine (h1.trans (s1.sameConditions_onInteg u (fun i => { i with wires := i.wires.upd w (fun h =>
    { h with inconcl := 0, retryAt := none }) }) fun i => ⟨rfl, rfl⟩)).trans (State.SameConditions.of_uint ?_ u)
  simp [State.wireRecord, State.integEvent, State.onWire]

theorem State.sameConditions_suspectWire (s : State) (u : Fin 128) (w : Fin 16) : s.SameConditions (s.suspectWire u w) u := by
  have h : s.SameConditions (s.onInteg u (fun i => { i with suspW := setBit i.suspW (w.val - 1) })) u :=
    s.sameConditions_onInteg u _ fun i => ⟨rfl, rfl⟩
  have h' : s.SameConditions ((s.onInteg u (fun i => { i with suspW := setBit i.suspW (w.val - 1) })).integEvent u) u :=
    h.trans (State.SameConditions.of_uint rfl u)
  unfold State.suspectWire
  dsimp only
  split
  · exact h'.trans (State.sameConditions_confirmWire _ _ _ _ _)
  · exact h'.trans (State.SameConditions.of_uint rfl u)

theorem State.sameConditions_pairSum (s : State) (u : Fin 128) : s.SameConditions (s.pairSum u) u := by
  unfold State.pairSum
  extract_lets vals old settled agrees s1
  have h1 : s.SameConditions s1 u :=
    s.sameConditions_onInteg u (fun i => { i with evals := ((s.now, vals) :: i.evals).take 102 }) fun i => ⟨rfl, rfl⟩
  cases old with
  | none => exact h1
  | some e =>
    dsimp only
    split
    · refine h1.trans (List.foldlRecOn _ _ (motive := fun t => s1.SameConditions t u) (State.SameConditions.refl s1 u) fun t ht w _ => ?_)
      split
      · exact ht.trans (t.sameConditions_suspectWire u w)
      · exact ht
    · exact h1

/-- The condition of a unit that is swept, evaluated (05 R160). -/
theorem answers_evaluation {u : Fin 128} {d : Nat} {s : State} (hoos : s.outOfService u = false) (hmc : s.isMc16 u = true)
    (hswept : s.swept u = true) (hdiff : s.stackDiff u = some d) : Answers (.plausibilityEvaluation u) s fun t =>
      (t.uint.at u).warn = (s.uint.at u).warn.evaluate s.now (some (decide (8000 < d))) ∧
      (t.uint.at u).fail = (s.uint.at u).fail.evaluate s.now (some (decide (1000 * s.integ.stackFail < d))) ∧
      (∀ v, v ≠ u → t.uint.at v = s.uint.at v) ∧ t.strs = s.strs := by
  have hexec : exec (.plausibilityEvaluation u) s = answer s ((s.onInteg u (fun i => { i with
      warn := i.warn.evaluate s.now (some (decide (8000 < d)))
      fail := i.fail.evaluate s.now (some (decide (1000 * s.integ.stackFail < d))) })).pairSum u) := by
    change execPlausibilityEvaluation u s = _
    unfold execPlausibilityEvaluation
    simp only [hoos, hmc, State.swept_onInteg, hswept, hdiff, Bool.false_eq_true, if_false, if_true, Option.map_some]
  obtain ⟨hother, hwarn, hfail⟩ := State.sameConditions_pairSum (s.onInteg u (fun i => { i with
      warn := i.warn.evaluate s.now (some (decide (8000 < d)))
      fail := i.fail.evaluate s.now (some (decide (1000 * s.integ.stackFail < d))) })) u
  refine answers_of_exec hexec ?_
  simp only [eventInterrupt_frame, State.pairSum_strs]
  refine ⟨hwarn.trans ?_, hfail.trans ?_, fun v hv => (hother v hv).trans (s.onInteg_of_ne hv _), rfl⟩
  · simp [State.onInteg]
  · simp [State.onInteg]

/-- The cells of a unit after what is Invalid in it has changed (05 R169). -/
theorem State.changeInvalid_at (s : State) (u : Fin 128) (f : UnitInteg → UnitInteg) :
    ∃ acc from_, (s.changeInvalid u f).uint.at u = { f (s.uint.at u) with invAcc := acc, invFrom := from_ } ∧
      ∀ c : Fin 16, (f (s.uint.at u)).invalid.getLsbD c.val = true → s.cellInvalid u c.val = false → s.unitService u = false →
        acc.at c = 0 ∧ from_.at c = some s.now := by
  unfold State.changeInvalid
  simp only [State.onInteg, Bank.at_upd_self]
  refine ⟨_, _, rfl, fun c hnew hold hsvc => ?_⟩
  have hfresh : ¬ ((f (s.uint.at u)).invalid.getLsbD c.val && (s.uint.at u).invalid.getLsbD c.val) = true := by
    rw [show (s.uint.at u).invalid.getLsbD c.val = false from hold, Bool.and_false]
    exact Bool.false_ne_true
  refine ⟨(Bank.at_each _ _ c).trans (if_neg hfresh), (Bank.at_each _ _ c).trans ((if_neg hfresh).trans (if_pos ?_))⟩
  rw [hnew, hsvc]
  rfl

theorem State.plausRecord_stack (s : State) (u : Fin 128) (on : Bool) :
    (s.plausRecord (.stackFail u) on).uint = s.uint ∧ (s.plausRecord (.stackFail u) on).stalls = s.stalls ∧
    (s.plausRecord (.stackFail u) on).strs = s.strs ∧ (s.plausRecord (.stackFail u) on).clk = s.clk := by
  simp [State.plausRecord, State.plausUnit, State.integEvent]

@[simp] theorem State.studbook_evt_integ (s : State) (t : BitVec 6) (n : Nat) (d : List Byte) :
    (s.studbook t n d).evt.integ = s.evt.integ := by
  unfold State.studbook State.recorderTakes
  dsimp only
  repeat' split
  all_goals rfl

theorem State.plausRecord_stack_evt (s : State) (u : Fin 128) (on : Bool) :
    (s.plausRecord (.stackFail u) on).evt.integ.getLsbD (stallOf u).val = true := by
  unfold State.plausRecord State.plausUnit
  dsimp only
  rw [State.studbook_evt_integ]
  exact setBit_getLsbD_self _ (stallOf u).isLt

/-- What a condition does that takes effect: a string opens on CURRENT_PAIR (05 R160). -/
def State.plausTakes (s : State) : PlausId → State
  | .currentPair str => ((s.plausRecord (.currentPair str) true).setPlaus (.currentPair str) true).requestB str 0x16
  | p => (s.plausRecord p true).setPlaus p true

/-- A condition that has held for its persistence takes effect (05 R160). -/
theorem exec_plausibilitySet {p : PlausId} {since : Nat} {s : State} (hsince : (s.plausCond p).since = some since)
    (hoff : (s.plausCond p).on = false) (hlate : since + plausPersist p * ticksPerMs ≤ s.now) :
    exec (.plausibilitySet p) s = answer s (s.plausTakes p) := by
  change execPlausibilitySet p s = _
  unfold execPlausibilitySet
  simp only [hsince, hoff, hlate, and_self, if_true]
  cases p <;> rfl

theorem exec_plausibilityClear {p : PlausId} {gone : Nat} {s : State} (hgone : (s.plausCond p).absent = some gone)
    (hon : (s.plausCond p).on = true) (hlate : gone + 10 * ticksPerS ≤ s.now) :
    exec (.plausibilityClear p) s = answer s ((s.plausRecord p false).setPlaus p false) := by
  change execPlausibilityClear p s = _
  unfold execPlausibilityClear
  simp only [hgone, hon, hlate, and_self, if_true]

/-- Settles O25: the evaluation of a unit, and its conditions set and clear. -/
theorem plausibilityConditions : Obligations.PlausibilityConditions := by
  unfold Obligations.PlausibilityConditions
  refine ⟨fun u d s hoos hmc hswept hdiff => answers_evaluation hoos hmc hswept hdiff, fun u s hoos hmc hswept => ?_,
    fun u since s hsince hoff hlate => ?_, fun str since s hsince hoff hlate hclosed => ?_, fun u gone s hgone hon hlate => ?_, fun p s hnone => ?_⟩
  case refine_1 =>
    have hexec : exec (.plausibilityEvaluation u) s = answer s (s.onInteg u (fun i => { i with
        warn := i.warn.evaluate s.now none, fail := i.fail.evaluate s.now none })) := by
      change execPlausibilityEvaluation u s = _
      unfold execPlausibilityEvaluation
      simp only [hoos, hmc, State.swept_onInteg, hswept, Bool.false_eq_true, if_false, if_true, Option.map_none]
    exact answers_of_exec_of_evt_eq hexec rfl ⟨Bank.at_upd_self _ _ _, fun v hv => s.onInteg_of_ne hv _, rfl⟩
  case refine_2 =>
    obtain ⟨huint, hstalls, hstrs, hclk⟩ := s.plausRecord_stack u true
    obtain ⟨acc, from_, hat, hcell⟩ := (s.plausRecord (.stackFail u) true).changeInvalid_at u
      (fun i => { i with fail := { i.fail with on := true }, invStack := 0xFFFF })
    have hinvalid (c : Fin 16) (i : BitVec 16) : (i ||| 0xFFFF).getLsbD c.val = true := by
      have h : (0xFFFF : BitVec 16).getLsbD c.val = true := by revert c; decide
      rw [BitVec.getLsbD_or, h, Bool.or_true]
    refine answers_of_exec (exec_plausibilitySet (p := .stackFail u) hsince hoff hlate) ?_
    simp only [eventInterrupt_frame, State.cellInvalid]
    change (((s.plausRecord (.stackFail u) true).changeInvalid u _).uint.at u).fail.on = true ∧ _
    refine ⟨?_, ?_, fun c => ?_, fun c hc hsvc => ?_, s.plausRecord_stack_evt u true, fun v hv => ?_⟩
    · exact (congrArg (fun i => i.fail.on) hat).trans rfl
    · exact (congrArg (fun i => i.invStack) hat).trans rfl
    · exact (congrArg (fun i => i.invalid.getLsbD c.val) hat).trans (hinvalid c _)
    · have hold : (s.plausRecord (.stackFail u) true).cellInvalid u c.val = false := by
        rw [State.cellInvalid, huint]
        exact hc
      have hservice : (s.plausRecord (.stackFail u) true).unitService u = false := by
        rw [State.unitService, State.strOf, hstalls, hstrs]
        exact hsvc
      obtain ⟨hacc, hfrom⟩ := hcell c (hinvalid c _) hold hservice
      refine ⟨(congrArg (fun i => i.invAcc.at c) hat).trans hacc, (congrArg (fun i => i.invFrom.at c) hat).trans (hfrom.trans ?_)⟩
      rw [State.now, hclk]
      rfl
    · exact (State.onInteg_of_ne _ hv _).trans (by rw [huint])
  case refine_3 =>
    have hset : ((s.plausRecord (.currentPair str) true).setPlaus (.currentPair str) true).strs.at str =
        { s.strs.at str with pairCond := { (s.strs.at str).pairCond with on := true } } := by
      simp [State.setPlaus, State.onStr]
    obtain ⟨last, seq, at_, hat⟩ := State.requestB_of_closed
      (s := (s.plausRecord (.currentPair str) true).setPlaus (.currentPair str) true) (str := str)
      (by rw [State.strSt, hset]; exact hclosed) 0x16
    refine answers_of_exec (exec_plausibilitySet (p := .currentPair str) hsince hoff hlate) ?_
    simp only [eventInterrupt_frame, State.strSt, State.plausTakes, hat, hset]
    exact ⟨trivial, trivial, rfl⟩
  case refine_4 =>
    obtain ⟨huint, -, -, -⟩ := s.plausRecord_stack u false
    obtain ⟨acc, from_, hat, -⟩ := (s.plausRecord (.stackFail u) false).changeInvalid_at u
      (fun i => { i with fail := { i.fail with on := false }, invStack := 0 })
    rw [huint] at hat
    refine answers_of_exec (exec_plausibilityClear (p := .stackFail u) hgone hon hlate) ?_
    simp only [eventInterrupt_frame, State.cellInvalid]
    change (((s.plausRecord (.stackFail u) false).changeInvalid u _).uint.at u).fail.on = false ∧ _
    refine ⟨?_, ?_, ?_, fun c => ?_, fun v hv => ?_⟩
    · exact (congrArg (fun i => i.fail.on) hat).trans rfl
    · exact (congrArg (fun i => i.invStack) hat).trans rfl
    · exact (congrArg (fun i => i.invWire) hat).trans rfl
    · refine (congrArg (fun i => i.invalid.getLsbD c.val) hat).trans ?_
      simp [UnitInteg.invalid]
    · exact (State.onInteg_of_ne _ hv _).trans (by rw [huint])
  case refine_5 =>
    have hexec : exec (.plausibilitySet p) s = answer s s := by
      change execPlausibilitySet p s = _
      unfold execPlausibilitySet
      simp only [hnone]
    exact answers_of_exec_of_evt_eq hexec rfl rfl

end Sys2Proof.Machine
end

section
/-! SUPPORT. The open-wire probes (05 R163 to R167, R176). -/

namespace Sys2Proof.Machine

-- Masks that a probe sets (05 R163; 03 R89).

/-- A mask that is sent for a probe or a test (03 R89). -/
theorem State.driveMask_effect (s : State) (u : Fin 128) (m arg : BitVec 16) :
    ((s.driveMask u m arg).ulink.at u).applied = m ∧
    OutEvent.link (stallOf u) s.frame ⟨false, unitOf u, 0x07, arg ++ m⟩ ∈ (s.driveMask u m arg).out ∧
    s.driveMask u m arg = { s with ulink := (s.driveMask u m arg).ulink, out := (s.driveMask u m arg).out } := by
  unfold State.driveMask State.sendBalance
  refine ⟨?_, List.mem_append_right _ (List.mem_singleton.mpr ?_), rfl⟩
  · simp [State.sendLink, State.emit, State.onLink]
  · simp only [State.onLink, Bank.at_upd_self]
    rfl

/-- A balancing test that goes on leaves everything but the test of its unit and the mask (05 R171). -/
theorem State.resumeTest_effect (s : State) (u : Fin 128) : (s.resumeTest u).hif = s.hif ∧ (s.resumeTest u).rings = s.rings ∧
    (s.resumeTest u).evt = s.evt ∧ (s.resumeTest u).clk = s.clk ∧ (∀ v, v ≠ u → (s.resumeTest u).uint.at v = s.uint.at v) ∧
    ∃ test, (s.resumeTest u).uint.at u = { s.uint.at u with test := test } := by
  have hsame : s.hif = s.hif ∧ s.rings = s.rings ∧ s.evt = s.evt ∧ s.clk = s.clk ∧ (∀ v, v ≠ u → s.uint.at v = s.uint.at v) ∧
    ∃ test, s.uint.at u = { s.uint.at u with test := test } := ⟨rfl, rfl, rfl, rfl, fun _ _ => rfl, _, rfl⟩
  unfold State.resumeTest
  split
  · split
    · split
      · exact hsame
      · dsimp only
        rw [(State.driveMask_effect _ u _ _).2.2]
        exact ⟨rfl, rfl, rfl, rfl, fun v hv => State.onInteg_of_ne s hv _, _, Bank.at_upd_self _ _ _⟩
    · exact hsame
  · exact hsame

/-- A confirmed wire: its bit, the cells of its pair, and the event of its stall (05 R167). -/
theorem State.confirmWire_effect (s : State) (u : Fin 128) (w : Fin 16) (outcome sw : Nat) :
    (s.confirmWire u w outcome sw).hif = s.hif ∧ (s.confirmWire u w outcome sw).rings = s.rings ∧
    (s.confirmWire u w outcome sw).clk = s.clk ∧ (∀ v, v ≠ u → (s.confirmWire u w outcome sw).uint.at v = s.uint.at v) ∧
    ((s.confirmWire u w outcome sw).uint.at u).broken = setBit (s.uint.at u).broken (w.val - 1) ∧
    ((s.confirmWire u w outcome sw).uint.at u).invWire = cellsOfWires (setBit (s.uint.at u).broken (w.val - 1)) ∧
    ((s.confirmWire u w outcome sw).uint.at u).probe = (s.uint.at u).probe ∧
    (s.confirmWire u w outcome sw).evt.integ.getLsbD (stallOf u).val = true := by
  unfold State.confirmWire
  extract_lets s1
  obtain ⟨acc, from_, hat, -⟩ := s.changeInvalid_at u (fun i => { i with
    broken := setBit i.broken (w.val - 1), invWire := cellsOfWires (setBit i.broken (w.val - 1)), suspW := putBit i.suspW (w.val - 1) false })
  have h1 : s1.hif = s.hif ∧ s1.rings = s.rings ∧ s1.clk = s.clk ∧ (∀ v, v ≠ u → s1.uint.at v = s.uint.at v) ∧
      s1.uint.at u = _ := ⟨rfl, rfl, rfl, fun v hv => s.onInteg_of_ne hv _, hat⟩
  obtain ⟨hhif, hrings, hclk, hother, hat1⟩ := h1
  clear_value s1
  have hu : ((s1.onWire u w (fun h => { h with inconcl := 0, retryAt := none })).wireRecord u w outcome sw).uint =
      (s1.onWire u w (fun h => { h with inconcl := 0, retryAt := none })).uint := by
    simp [State.wireRecord, State.integEvent]
  have hw : (s1.onWire u w (fun h => { h with inconcl := 0, retryAt := none })).uint.at u =
      { s1.uint.at u with wires := (s1.uint.at u).wires.upd w (fun h => { h with inconcl := 0, retryAt := none }) } :=
    Bank.at_upd_self _ _ _
  rw [hu, hw, hat1]
  refine ⟨by simp [State.wireRecord, State.integEvent, State.onWire, hhif], by simp [State.wireRecord, State.integEvent, State.onWire, hrings],
    by simp [State.wireRecord, State.integEvent, State.onWire, hclk], fun v hv => (State.onInteg_of_ne s1 hv _).trans (hother v hv),
    rfl, rfl, rfl, ?_⟩
  unfold State.wireRecord
  rw [State.studbook_evt_integ]
  exact setBit_getLsbD_self _ (stallOf u).isLt

/-- The cells of a broken wire (05 R167). -/
theorem cellsOfWires_getLsbD (b : BitVec 15) {n : Nat} (hn : n < 15) (h : b.getLsbD n = true) :
    (cellsOfWires b).getLsbD n = true ∧ (cellsOfWires b).getLsbD (n + 1) = true := by
  unfold cellsOfWires
  constructor
  · simp only [BitVec.getLsbD_or, BitVec.getLsbD_setWidth, h, show n < 16 by omega, decide_true, Bool.true_and, Bool.true_or]
  · simp [BitVec.getLsbD_or, BitVec.getLsbD_setWidth, BitVec.getLsbD_shiftLeft, h, show n + 1 < 16 by omega, show n < 16 by omega]

/-- A probe of one wire whose last value has arrived is decided (05 R164). -/
theorem exec_probeDecision {s : State} {u : Fin 128} {w : Fin 16} {q : Probe} {p : Nat} (hq : (s.uint.at u).probe = some q)
    (hp : q.p = some p) (hwires : q.wires = [w]) (hended : q.ended = true)
    (hlate : p + 31 < ((s.uswp.at u).alHist.headD (0, [])).1 + framesOf (s.rateNow u)) :
    exec (.probeDecision u) s = answer s (s.endProbe u q [(w, (s.uswp.at u).probeOutcome q.mask p w)] false) := by
  change execProbeDecision u s = _
  unfold execProbeDecision
  simp only [hq, hp, hwires, hended, hlate, and_self, if_true]
  rfl

/-- A unit whose probe ends, before the outcomes of its wires are taken. -/
def State.probeOver (s : State) (u : Fin 128) : State := ((s.onInteg u (fun i => { i with probe := none })).releaseMask u).integEvent u

theorem State.probeOver_effect (s : State) (u : Fin 128) : (s.probeOver u).hif = s.hif ∧ (s.probeOver u).rings = s.rings ∧
    (s.probeOver u).clk = s.clk ∧ (∀ v, v ≠ u → (s.probeOver u).uint.at v = s.uint.at v) ∧
    (s.probeOver u).uint.at u = { s.uint.at u with probe := none } ∧
    (s.probeOver u).evt.integ.getLsbD (stallOf u).val = true :=
  ⟨rfl, rfl, rfl, fun _ hv => s.onInteg_of_ne hv _, Bank.at_upd_self _ _ _, setBit_getLsbD_self _ (stallOf u).isLt⟩

theorem State.endProbe_of_suspect {s : State} {u : Fin 128} {q : Probe} {p : Nat} (hq : (s.uint.at u).probe = some q)
    (hp : q.p = some p) (hwhy : q.why = .suspect) (w : Fin 16) (out sw : Nat) :
    s.endProbe u q [(w, out, sw)] false = ((s.probeOver u).wireOutcome u w out sw).resumeTest u := by
  simp only [State.endProbe, hq, hp, hwhy, Option.isSome_some, Bool.and_self, if_true]
  rfl

theorem State.endProbe_of_command {s : State} {u : Fin 128} {q : Probe} {p : Nat} {c : Cmd} (hq : (s.uint.at u).probe = some q)
    (hp : q.p = some p) (hwhy : q.why = .command 0 c) (w : Fin 16) (out sw : Nat) :
    s.endProbe u q [(w, out, sw)] false =
      (((s.probeOver u).commandOutcome u 0 w out sw).ok c (dwords out sw 0 0)).resumeTest u := by
  simp only [State.endProbe, hq, hp, hwhy, Option.isSome_some, Bool.and_self, if_true]
  rfl

/-- A confirmed outcome leaves both cells of the pair Invalid and the wire broken (05 R164, R167). -/
theorem State.wireOutcome_confirmed (s : State) (u : Fin 128) {w : Fin 16} (hw : w ≠ 0) (sw : Nat) :
    let t := s.wireOutcome u w 1 sw
    (t.uint.at u).probe = (s.uint.at u).probe ∧ (t.uint.at u).broken.getLsbD (w.val - 1) = true ∧
    t.cellInvalid u (w.val - 1) = true ∧ t.cellInvalid u w.val = true ∧ t.evt.integ.getLsbD (stallOf u).val = true ∧
    ∀ v, v ≠ u → t.uint.at v = s.uint.at v := by
  obtain ⟨-, -, -, hother, hbroken, hinv, hprobe, hevt⟩ := s.confirmWire_effect u w 1 sw
  have hpos : 0 < w.val := Nat.pos_of_ne_zero fun e => hw (Fin.ext e)
  have hlt : w.val - 1 < 15 := by omega
  have hat : (s.wireOutcome u w 1 sw).uint.at u =
      ({ (s.confirmWire u w 1 sw).uint.at u with chkPend := putBit ((s.confirmWire u w 1 sw).uint.at u).chkPend w.val false }
        : UnitInteg).settleCheck := Bank.at_upd_self _ _ _
  have hsettle (i : UnitInteg) : i.settleCheck.probe = i.probe ∧ i.settleCheck.broken = i.broken ∧ i.settleCheck.invalid = i.invalid := by
    unfold UnitInteg.settleCheck
    split <;> exact ⟨rfl, rfl, rfl⟩
  obtain ⟨hcell, hcell'⟩ := cellsOfWires_getLsbD _ hlt (setBit_getLsbD_self (s.uint.at u).broken hlt)
  have hsucc : w.val - 1 + 1 = w.val := by omega
  have hinvalid (n : Nat) (h : (cellsOfWires (setBit (s.uint.at u).broken (w.val - 1))).getLsbD n = true) :
      (s.wireOutcome u w 1 sw).cellInvalid u n = true := by
    rw [State.cellInvalid, hat, (hsettle _).2.2]
    change (((s.confirmWire u w 1 sw).uint.at u).invWire ||| ((s.confirmWire u w 1 sw).uint.at u).invStack).getLsbD n = true
    rw [hinv, BitVec.getLsbD_or, h, Bool.true_or]
  refine ⟨?_, ?_, hinvalid _ hcell, hinvalid _ (hsucc ▸ hcell'), hevt, fun v hv => (State.onInteg_of_ne _ hv _).trans (hother v hv)⟩
  · rw [hat, (hsettle _).1]
    exact hprobe
  · rw [hat, (hsettle _).2.1]
    change ((s.confirmWire u w 1 sw).uint.at u).broken.getLsbD _ = true
    rw [hbroken]
    exact setBit_getLsbD_self _ hlt

theorem State.clearWire_effect (s : State) (u : Fin 128) (w : Fin 16) : (s.clearWire u w).hif = s.hif ∧
    (s.clearWire u w).rings = s.rings ∧ (s.clearWire u w).clk = s.clk ∧ ((s.clearWire u w).uint.at u).probe = (s.uint.at u).probe := by
  unfold State.clearWire State.onWire
  dsimp only
  split <;> exact ⟨rfl, rfl, rfl, by simp [State.onInteg]⟩

/-- The outcome of a command's probe leaves what its completion needs (05 R176). -/
theorem State.commandOutcome_effect (s : State) (u : Fin 128) (w : Fin 16) (out sw : Nat) :
    (s.commandOutcome u 0 w out sw).hif = s.hif ∧ (s.commandOutcome u 0 w out sw).rings = s.rings ∧
    (s.commandOutcome u 0 w out sw).clk = s.clk ∧ ((s.commandOutcome u 0 w out sw).uint.at u).probe = (s.uint.at u).probe := by
  unfold State.commandOutcome
  split
  · obtain ⟨hhif, hrings, hclk, -, -, -, hprobe, -⟩ := s.confirmWire_effect u w 1 sw
    exact ⟨hhif, hrings, hclk, hprobe⟩
  · split
    · exact s.clearWire_effect u w
    · exact ⟨rfl, rfl, rfl, rfl⟩

/-- OPEN_WIRE_PROBE of a unit that is named (05 R176). -/
theorem exec_openWireProbe {s : State} {c : Cmd} {f : Flight} (h : Executing s c f) {u : Fin 128}
    (hu : s.namedMc16 (opByte c 0) (opByte c 1) = some u) (hmode : opByte c 2 ≤ 1) (hw : opByte c 2 = 0 → 1 ≤ opByte c 3 ∧ opByte c 3 ≤ 15)
    (hoos : s.outOfService u = false) : exec (.openWireProbe c) s = answer s (
      if s.swept u = false then (s.executing c).refuse c 0x0502
      else if s.commandProbe u then (s.executing c).busy c
      else (s.executing c).queueProbe u (if opByte c 2 = 1 then fullProbe (.command (BitVec.ofNat 8 (opByte c 2)) c)
        else singleProbe (.command (BitVec.ofNat 8 (opByte c 2)) c) (idx 16 (by decide) (opByte c 3)))) := by
  refine (exec_of_run h rfl).trans (congrArg (answer s) ?_)
  have hu' : (s.executing c).namedMc16 (opByte c 0) (opByte c 1) = some u := hu
  have hoos' : (s.executing c).outOfService u = false := hoos
  simp only [hu']
  rw [if_neg, hoos', if_neg Bool.false_ne_true, if_neg (by omega)]
  · rfl
  · rintro (h1 | h1 | h1)
    · omega
    · obtain ⟨hne, hrange⟩ := h1
      have := hw (by omega)
      omega
    · omega

/-- Settles O26: the probe goes out, pauses, decides and is asked again. -/
theorem openWireProbes : Obligations.OpenWireProbes := by
  unfold Obligations.OpenWireProbes
  refine ⟨fun q s hfind => ?_, fun u q p s hq hp hended hlate => ?_, fun u q p s hq hp hearly => ?_,
    fun u w q p n m s hw hq hp hwhy hwires hended hlate hout hn => ?_, fun u w t0 s hw hretry hdue hswept => ?_,
    fun c f u w s h hu hmode hwire hw hoos hswept hfree => ?_, fun c f u w q p s h hw hq hp hwhy hwires hended hlate => ?_,
    fun c f u s h hu hmode hoos hswept => ?_⟩
  case refine_1 =>
    have hexec : exec .openWireProbeStart s = answer s (State.driveMask (State.onInteg
        { s with integ := { s.integ with probeQ := s.integ.probeQ.erase q } } q.unit
        (fun i => { i with probe := some { q.probe with p := some s.frame, ended := false } })) q.unit q.probe.mask 0) := by
      change execOpenWireProbeStart s = _
      unfold execOpenWireProbeStart
      simp only [hfind]
      rfl
    obtain ⟨happlied, hout, hwith⟩ := State.driveMask_effect (State.onInteg
        { s with integ := { s.integ with probeQ := s.integ.probeQ.erase q } } q.unit
        (fun i => { i with probe := some { q.probe with p := some s.frame, ended := false } })) q.unit q.probe.mask 0
    refine answers_of_exec_of_evt_eq hexec (by rw [hwith]; rfl) ⟨?_, happlied, ?_, hout, ?_⟩
    · rw [hwith]
      exact congrArg UnitInteg.probe (Bank.at_upd_self _ _ _)
    · rw [hwith]
      rfl
    · rw [hwith]
      rfl
  case refine_2 =>
    have hexec : exec (.probePulseEnd u) s =
        answer s ((s.onInteg u (fun i => { i with probe := some { q with ended := true } })).driveMask u 0 0) := by
      change execProbePulseEnd u s = _
      unfold execProbePulseEnd
      simp only [hq, hp, hended, hlate, and_self, if_true]
    obtain ⟨happlied, -, hwith⟩ :=
      (s.onInteg u (fun i => { i with probe := some { q with ended := true } })).driveMask_effect u 0 0
    refine answers_of_exec_of_evt_eq hexec (by rw [hwith]; rfl) ⟨?_, happlied, ?_⟩
    · rw [hwith]
      exact congrArg UnitInteg.probe (Bank.at_upd_self _ _ _)
    · rw [hwith]
      rfl
  case refine_3 =>
    have hexec : exec (.probePulseEnd u) s = answer s s := by
      change execProbePulseEnd u s = _
      unfold execProbePulseEnd
      simp only [hq, hp, Nat.not_le.mpr hearly, false_and, if_false]
    exact answers_of_exec_of_evt_eq hexec rfl rfl
  case refine_4 =>
    subst hn
    have hexec := exec_probeDecision hq hp hwires hended hlate
    rw [hout, State.endProbe_of_suspect hq hp hwhy] at hexec
    obtain ⟨-, -, -, hover, hat, -⟩ := s.probeOver_effect u
    obtain ⟨hprobe, hbroken, hcell, hcell', hevt, hother⟩ := (s.probeOver u).wireOutcome_confirmed u hw m
    obtain ⟨-, -, hevt2, -, hother2, test, hat2⟩ := ((s.probeOver u).wireOutcome u w 1 m).resumeTest_effect u
    refine answers_of_exec hexec ?_
    simp only [eventInterrupt_frame, State.cellInvalid, hat2, hevt2]
    refine ⟨?_, hbroken, hcell, hcell', hevt, fun v hv => (hother2 v hv).trans ((hother v hv).trans (hover v hv))⟩
    exact hprobe.trans (congrArg UnitInteg.probe hat)
  case refine_5 =>
    have hexec : exec (.probeRetry u w) s =
        answer s ((s.onWire u w (fun h => { h with retryAt := none })).queueProbe u (singleProbe .suspect w)) := by
      change execProbeRetry u w s = _
      unfold execProbeRetry
      simp only [hretry, hdue, hswept, hw, ne_eq, not_false_eq_true, and_self, if_true]
    refine answers_of_exec_of_evt_eq hexec rfl ⟨rfl, ?_, rfl⟩
    change (((s.uint.upd u _).at u).wires.at w).retryAt = none
    rw [Bank.at_upd_self, Bank.at_upd_self]
  case refine_6 =>
    have hpos : 1 ≤ w.val := Nat.pos_of_ne_zero fun e => hw (Fin.ext e)
    have hexec := exec_openWireProbe h hu (by omega) (fun _ => by omega) hoos
    have hwfin : idx 16 (by decide) w.val = w := Fin.ext (Nat.mod_eq_of_lt w.isLt)
    rw [if_neg (by simp [hswept]), hfree, if_neg Bool.false_ne_true, hmode, if_neg (by decide), hwire, hwfin] at hexec
    exact answers_of_exec_of_evt_eq hexec rfl ⟨rfl, executing_flight_same h, rfl⟩
  case refine_7 =>
    generalize hout : (s.uswp.at u).probeOutcome q.mask p w = out
    obtain ⟨o, sw⟩ := out
    have hexec := exec_probeDecision hq hp hwires hended hlate
    rw [hout, State.endProbe_of_command hq hp hwhy] at hexec
    obtain ⟨hhif, hrings, hclk, -, hat, -⟩ := s.probeOver_effect u
    obtain ⟨hhif2, hrings2, hclk2, hprobe⟩ := (s.probeOver u).commandOutcome_effect u w o sw
    obtain ⟨hhif3, hrings3, -, -, -, test, hat3⟩ :=
      (((s.probeOver u).commandOutcome u 0 w o sw).ok c (dwords o sw 0 0)).resumeTest_effect u
    have hending := (ending_of_flight h.flight h.same h.enabled h.kept h.tracked).of_eq (hhif2.trans hhif) (hrings2.trans hrings)
      (congrArg Clk.ytime (hclk2.trans hclk))
    have hc : Completes s ((((s.probeOver u).commandOutcome u 0 w o sw).ok c (dwords o sw 0 0)).resumeTest u) c f 0x00
        (dwords o sw 0 0) := by
      have := hending.completes stSuccess (dwords o sw 0 0)
      rw [Completes, hhif3, hrings3]
      exact this
    refine answers_of_exec hexec ⟨?_, hc.eventInterrupt s⟩
    simp only [eventInterrupt_frame, hat3, State.ok_frame]
    exact hprobe.trans (congrArg UnitInteg.probe hat)
  case refine_8 =>
    have hexec := exec_openWireProbe h hu (by omega) (by omega) hoos
    rw [if_pos hswept, State.refuse, dwords_one (by decide)] at hexec
    exact answers_only_complete h hexec

end Sys2Proof.Machine
end

section
/-! SUPPORT. What the estimator leaves of the strings, the channels, the halter, the stalls and the Weighbridge (06 R179). -/

namespace Sys2Proof.Machine

/-- `t` has the strings, the channels, the halter, the stalls, the Weighbridge and the keys of `s`. -/
def State.SameYard (t s : State) : Prop :=
  t.strs = s.strs ∧ t.swc = s.swc ∧ t.halter = s.halter ∧
    t.stalls = s.stalls ∧ t.wb = s.wb ∧ t.sec = s.sec

theorem State.SameYard.refl (s : State) : s.SameYard s := ⟨rfl, rfl, rfl, rfl, rfl, rfl⟩

theorem State.SameYard.trans {u t s : State} (hu : u.SameYard t) (ht : t.SameYard s) : u.SameYard s :=
  have ⟨k0, k1, k2, k3, k4, k5⟩ := hu
  have ⟨h0, h1, h2, h3, h4, h5⟩ := ht
  ⟨k0.trans h0, k1.trans h1, k2.trans h2, k3.trans h3, k4.trans h4, k5.trans h5⟩

theorem State.SameYard.foldl {α : Type} (l : List α) (f : State → α → State) (h : ∀ t a, (f t a).SameYard t) (s : State) :
    (l.foldl f s).SameYard s :=
  List.foldlRecOn l f (motive := fun t => t.SameYard s) (.refl s) fun t ht a _ => (h t a).trans ht

@[simp] theorem State.foldl_swc {α : Type} (l : List α) (f : State → α → State) (h : ∀ t a, (f t a).swc = t.swc)
    (s : State) : (l.foldl f s).swc = s.swc :=
  List.foldlRecOn l f (motive := fun t => t.swc = s.swc) rfl fun _ ht a _ => (h _ a).trans ht

@[simp] theorem State.foldl_halter {α : Type} (l : List α) (f : State → α → State) (h : ∀ t a, (f t a).halter = t.halter)
    (s : State) : (l.foldl f s).halter = s.halter :=
  List.foldlRecOn l f (motive := fun t => t.halter = s.halter) rfl fun _ ht a _ => (h _ a).trans ht

@[simp] theorem State.foldl_wb {α : Type} (l : List α) (f : State → α → State) (h : ∀ t a, (f t a).wb = t.wb)
    (s : State) : (l.foldl f s).wb = s.wb :=
  List.foldlRecOn l f (motive := fun t => t.wb = s.wb) rfl fun _ ht a _ => (h _ a).trans ht

@[simp] theorem State.foldl_sec {α : Type} (l : List α) (f : State → α → State) (h : ∀ t a, (f t a).sec = t.sec)
    (s : State) : (l.foldl f s).sec = s.sec :=
  List.foldlRecOn l f (motive := fun t => t.sec = s.sec) rfl fun _ ht a _ => (h _ a).trans ht

@[simp] theorem State.settleMask_fixed (s : State) (u : Fin 128) :
    (s.settleMask u).strs = s.strs ∧
    (s.settleMask u).swc = s.swc ∧
    (s.settleMask u).halter = s.halter ∧
    (s.settleMask u).stalls = s.stalls ∧
    (s.settleMask u).wb = s.wb ∧
    (s.settleMask u).sec = s.sec := by
  unfold State.settleMask
  dsimp only
  split <;> simp

@[simp] theorem State.stopExcitation_fixed (s : State) (str : Fin 4) :
    (s.stopExcitation str).strs = s.strs ∧
    (s.stopExcitation str).swc = s.swc ∧
    (s.stopExcitation str).halter = s.halter ∧
    (s.stopExcitation str).stalls = s.stalls ∧
    (s.stopExcitation str).wb = s.wb ∧
    (s.stopExcitation str).sec = s.sec := by
  unfold State.stopExcitation
  split <;> simp

@[simp] theorem State.writeUnitRecord_fixed (s : State) (u : Fin 128) :
    (s.writeUnitRecord u).strs = s.strs ∧
    (s.writeUnitRecord u).swc = s.swc ∧
    (s.writeUnitRecord u).halter = s.halter ∧
    (s.writeUnitRecord u).stalls = s.stalls ∧
    (s.writeUnitRecord u).wb = s.wb ∧
    (s.writeUnitRecord u).sec = s.sec := by
  simp [State.writeUnitRecord]

@[simp] theorem State.writeStringRecord_fixed (s : State) (str : Fin 4) :
    (s.writeStringRecord str).strs = s.strs ∧
    (s.writeStringRecord str).swc = s.swc ∧
    (s.writeStringRecord str).halter = s.halter ∧
    (s.writeStringRecord str).stalls = s.stalls ∧
    (s.writeStringRecord str).wb = s.wb ∧
    (s.writeStringRecord str).sec = s.sec := by
  simp [State.writeStringRecord]

@[simp] theorem State.writeYardRecord_fixed (s : State) :
    s.writeYardRecord.strs = s.strs ∧
    s.writeYardRecord.swc = s.swc ∧
    s.writeYardRecord.halter = s.halter ∧
    s.writeYardRecord.stalls = s.stalls ∧
    s.writeYardRecord.wb = s.wb ∧
    s.writeYardRecord.sec = s.sec := by
  unfold State.writeYardRecord
  simp

@[simp] theorem State.publish_fixed (s : State) :
    s.publish.strs = s.strs ∧
    s.publish.swc = s.swc ∧
    s.publish.halter = s.halter ∧
    s.publish.stalls = s.stalls ∧
    s.publish.wb = s.wb ∧
    s.publish.sec = s.sec := by
  unfold State.publish
  dsimp only
  repeat' split
  all_goals simp

@[simp] theorem State.onCells_fixed (s : State) (u : Fin 128) (f : EstCell → EstCell) :
    (s.onCells u f).strs = s.strs ∧
    (s.onCells u f).swc = s.swc ∧
    (s.onCells u f).halter = s.halter ∧
    (s.onCells u f).stalls = s.stalls ∧
    (s.onCells u f).wb = s.wb ∧
    (s.onCells u f).sec = s.sec := by
  simp [State.onCells]

@[simp] theorem State.unitStep_fixed (s : State) (str : Fin 4) (u : Fin 128) :
    (s.unitStep str u).strs = s.strs ∧
    (s.unitStep str u).swc = s.swc ∧
    (s.unitStep str u).halter = s.halter ∧
    (s.unitStep str u).stalls = s.stalls ∧
    (s.unitStep str u).wb = s.wb ∧
    (s.unitStep str u).sec = s.sec := by
  unfold State.unitStep
  repeat' split
  all_goals simp

@[simp] theorem State.batch_fixed (s : State) (i : Fin 32) :
    (s.batch i).strs = s.strs ∧
    (s.batch i).swc = s.swc ∧
    (s.batch i).halter = s.halter ∧
    (s.batch i).stalls = s.stalls ∧
    (s.batch i).wb = s.wb ∧
    (s.batch i).sec = s.sec := by
  unfold State.batch
  split <;> simp

@[simp] theorem State.learnStall_fixed (s : State) (i : Fin 32) :
    (s.learnStall i).strs = s.strs ∧
    (s.learnStall i).swc = s.swc ∧
    (s.learnStall i).halter = s.halter ∧
    (s.learnStall i).stalls = s.stalls ∧
    (s.learnStall i).wb = s.wb ∧
    (s.learnStall i).sec = s.sec := by
  unfold State.learnStall
  split
  · exact ⟨rfl, rfl, rfl, rfl, rfl, rfl⟩
  · exact State.SameYard.foldl _ _ (fun t u => by split <;> simp [State.SameYard]) s

@[simp] theorem State.batches_fixed (s : State) (n : Nat) (limits : Bool) :
    (s.batches n limits).strs = s.strs ∧
    (s.batches n limits).swc = s.swc ∧
    (s.batches n limits).halter = s.halter ∧
    (s.batches n limits).stalls = s.stalls ∧
    (s.batches n limits).wb = s.wb ∧
    (s.batches n limits).sec = s.sec := by
  simp [State.batches]

@[simp] theorem State.resumeEst_fixed (s : State) :
    s.resumeEst.strs = s.strs ∧
    s.resumeEst.swc = s.swc ∧
    s.resumeEst.halter = s.halter ∧
    s.resumeEst.stalls = s.stalls ∧
    s.resumeEst.wb = s.wb ∧
    s.resumeEst.sec = s.sec := by
  unfold State.resumeEst
  split
  · exact ⟨rfl, rfl, rfl, rfl, rfl, rfl⟩
  · dsimp only
    split
    · exact ⟨rfl, rfl, rfl, rfl, rfl, rfl⟩
    · refine State.SameYard.foldl _ _ (fun t u => ?_) _
      repeat' split
      all_goals simp [State.SameYard]

@[simp] theorem State.stringLimits_fixed (s : State) (str : Fin 4) :
    (s.stringLimits str).strs = s.strs ∧
    (s.stringLimits str).swc = s.swc ∧
    (s.stringLimits str).halter = s.halter ∧
    (s.stringLimits str).stalls = s.stalls ∧
    (s.stringLimits str).wb = s.wb ∧
    (s.stringLimits str).sec = s.sec := by
  unfold State.stringLimits
  dsimp only
  split <;> simp

@[simp] theorem State.measureShares_fixed (s : State) :
    s.measureShares.strs = s.strs ∧
    s.measureShares.swc = s.swc ∧
    s.measureShares.halter = s.halter ∧
    s.measureShares.stalls = s.stalls ∧
    s.measureShares.wb = s.wb ∧
    s.measureShares.sec = s.sec := by
  unfold State.measureShares
  dsimp only
  split <;> simp

@[simp] theorem State.yardLimits_fixed (s : State) :
    s.yardLimits.strs = s.strs ∧
    s.yardLimits.swc = s.swc ∧
    s.yardLimits.halter = s.halter ∧
    s.yardLimits.stalls = s.stalls ∧
    s.yardLimits.wb = s.wb ∧
    s.yardLimits.sec = s.sec := by
  simp [State.yardLimits]

@[simp] theorem State.computeLimits_fixed (s : State) :
    s.computeLimits.strs = s.strs ∧
    s.computeLimits.swc = s.swc ∧
    s.computeLimits.halter = s.halter ∧
    s.computeLimits.stalls = s.stalls ∧
    s.computeLimits.wb = s.wb ∧
    s.computeLimits.sec = s.sec := by
  simp [State.computeLimits]

@[simp] theorem State.limitsLate_fixed (s : State) (n : Nat) :
    (s.limitsLate n).strs = s.strs ∧
    (s.limitsLate n).swc = s.swc ∧
    (s.limitsLate n).halter = s.halter ∧
    (s.limitsLate n).stalls = s.stalls ∧
    (s.limitsLate n).wb = s.wb ∧
    (s.limitsLate n).sec = s.sec := by
  unfold State.limitsLate
  dsimp only
  repeat' split
  all_goals simp

@[simp] theorem State.runProjection_fixed (s : State) (c : Cmd) :
    (s.runProjection c).strs = s.strs ∧
    (s.runProjection c).swc = s.swc ∧
    (s.runProjection c).halter = s.halter ∧
    (s.runProjection c).stalls = s.stalls ∧
    (s.runProjection c).wb = s.wb ∧
    (s.runProjection c).sec = s.sec := by
  simp [State.runProjection]

@[simp] theorem State.queryWork_fixed (s : State) :
    s.queryWork.strs = s.strs ∧
    s.queryWork.swc = s.swc ∧
    s.queryWork.halter = s.halter ∧
    s.queryWork.stalls = s.stalls ∧
    s.queryWork.wb = s.wb ∧
    s.queryWork.sec = s.sec := by
  simp [State.queryWork]

@[simp] theorem State.applyDescriptor_fixed (s : State) (d : Descriptor) :
    (s.applyDescriptor d).strs = s.strs ∧
    (s.applyDescriptor d).swc = s.swc ∧
    (s.applyDescriptor d).halter = s.halter ∧
    (s.applyDescriptor d).stalls = s.stalls ∧
    (s.applyDescriptor d).wb = s.wb ∧
    (s.applyDescriptor d).sec = s.sec := by
  cases d with
  | chem k x => exact (State.SameYard.foldl _ _ (fun t a => by split <;> simp [State.SameYard]) _)
  | group k x => exact (State.SameYard.foldl _ _ (fun t a => by split <;> simp [State.SameYard]) _)
  | filter x => exact ⟨rfl, rfl, rfl, rfl, rfl, rfl⟩
  | limits k x => exact ⟨rfl, rfl, rfl, rfl, rfl, rfl⟩
  | lockin k x => simp [State.applyDescriptor]
  | output x => exact ⟨rfl, rfl, rfl, rfl, rfl, rfl⟩

@[simp] theorem State.applyConfigs_fixed (s : State) :
    s.applyConfigs.strs = s.strs ∧
    s.applyConfigs.swc = s.swc ∧
    s.applyConfigs.halter = s.halter ∧
    s.applyConfigs.stalls = s.stalls ∧
    s.applyConfigs.wb = s.wb ∧
    s.applyConfigs.sec = s.sec := by
  unfold State.applyConfigs
  exact State.SameYard.foldl _ _ (fun t w => by cases w <;> simp [State.SameYard]) _

@[simp] theorem State.loads_fixed (s : State) (n : Nat) :
    (s.loads n).strs = s.strs ∧
    (s.loads n).swc = s.swc ∧
    (s.loads n).halter = s.halter ∧
    (s.loads n).stalls = s.stalls ∧
    (s.loads n).wb = s.wb ∧
    (s.loads n).sec = s.sec := by
  unfold State.loads
  split <;> simp

end Sys2Proof.Machine
end

section
/-! SUPPORT. What the estimator leaves of the flow of its commands (06 R179). -/

namespace Sys2Proof.Machine

/-- The estimator's last step, its waiting packages and its filter, the commands in flight, the ring pairs and the clock of `t` are those of `s`. -/
def State.SameFlow (t s : State) : Prop :=
  t.est.lastStep = s.est.lastStep ∧ t.est.running = s.est.running ∧ t.est.work = s.est.work ∧ t.est.filter = s.est.filter ∧
    t.hif = s.hif ∧ t.rings = s.rings ∧ t.clk = s.clk

theorem State.SameFlow.refl (s : State) : s.SameFlow s := ⟨rfl, rfl, rfl, rfl, rfl, rfl, rfl⟩

theorem State.SameFlow.trans {u t s : State} (hu : u.SameFlow t) (ht : t.SameFlow s) : u.SameFlow s :=
  have ⟨k0, k1, k2, k3, k4, k5, k6⟩ := hu
  have ⟨h0, h1, h2, h3, h4, h5, h6⟩ := ht
  ⟨k0.trans h0, k1.trans h1, k2.trans h2, k3.trans h3, k4.trans h4, k5.trans h5, k6.trans h6⟩

theorem State.SameFlow.foldl {α : Type} (l : List α) (f : State → α → State) (h : ∀ t a, (f t a).SameFlow t) (s : State) :
    (l.foldl f s).SameFlow s :=
  List.foldlRecOn l f (motive := fun t => t.SameFlow s) (.refl s) fun t ht a _ => (h t a).trans ht

@[simp] theorem State.foldl_est_lastStep {α : Type} (l : List α) (f : State → α → State) (h : ∀ t a, (f t a).est.lastStep = t.est.lastStep)
    (s : State) : (l.foldl f s).est.lastStep = s.est.lastStep :=
  List.foldlRecOn l f (motive := fun t => t.est.lastStep = s.est.lastStep) rfl fun _ ht a _ => (h _ a).trans ht

@[simp] theorem State.foldl_est_running {α : Type} (l : List α) (f : State → α → State) (h : ∀ t a, (f t a).est.running = t.est.running)
    (s : State) : (l.foldl f s).est.running = s.est.running :=
  List.foldlRecOn l f (motive := fun t => t.est.running = s.est.running) rfl fun _ ht a _ => (h _ a).trans ht

@[simp] theorem State.foldl_est_work {α : Type} (l : List α) (f : State → α → State) (h : ∀ t a, (f t a).est.work = t.est.work)
    (s : State) : (l.foldl f s).est.work = s.est.work :=
  List.foldlRecOn l f (motive := fun t => t.est.work = s.est.work) rfl fun _ ht a _ => (h _ a).trans ht

@[simp] theorem State.foldl_est_filter {α : Type} (l : List α) (f : State → α → State) (h : ∀ t a, (f t a).est.filter = t.est.filter)
    (s : State) : (l.foldl f s).est.filter = s.est.filter :=
  List.foldlRecOn l f (motive := fun t => t.est.filter = s.est.filter) rfl fun _ ht a _ => (h _ a).trans ht

@[simp] theorem State.foldl_hif {α : Type} (l : List α) (f : State → α → State) (h : ∀ t a, (f t a).hif = t.hif)
    (s : State) : (l.foldl f s).hif = s.hif :=
  List.foldlRecOn l f (motive := fun t => t.hif = s.hif) rfl fun _ ht a _ => (h _ a).trans ht

@[simp] theorem State.foldl_rings {α : Type} (l : List α) (f : State → α → State) (h : ∀ t a, (f t a).rings = t.rings)
    (s : State) : (l.foldl f s).rings = s.rings :=
  List.foldlRecOn l f (motive := fun t => t.rings = s.rings) rfl fun _ ht a _ => (h _ a).trans ht

@[simp] theorem State.writeUnitRecord_pass (s : State) (u : Fin 128) :
    (s.writeUnitRecord u).est.lastStep = s.est.lastStep ∧
    (s.writeUnitRecord u).est.running = s.est.running ∧
    (s.writeUnitRecord u).est.work = s.est.work ∧
    (s.writeUnitRecord u).est.filter = s.est.filter ∧
    (s.writeUnitRecord u).hif = s.hif ∧
    (s.writeUnitRecord u).rings = s.rings ∧
    (s.writeUnitRecord u).clk = s.clk := by
  simp [State.writeUnitRecord]

@[simp] theorem State.writeStringRecord_pass (s : State) (str : Fin 4) :
    (s.writeStringRecord str).est.lastStep = s.est.lastStep ∧
    (s.writeStringRecord str).est.running = s.est.running ∧
    (s.writeStringRecord str).est.work = s.est.work ∧
    (s.writeStringRecord str).est.filter = s.est.filter ∧
    (s.writeStringRecord str).hif = s.hif ∧
    (s.writeStringRecord str).rings = s.rings ∧
    (s.writeStringRecord str).clk = s.clk := by
  simp [State.writeStringRecord]

@[simp] theorem State.writeYardRecord_pass (s : State) :
    s.writeYardRecord.est.lastStep = s.est.lastStep ∧
    s.writeYardRecord.est.running = s.est.running ∧
    s.writeYardRecord.est.work = s.est.work ∧
    s.writeYardRecord.est.filter = s.est.filter ∧
    s.writeYardRecord.hif = s.hif ∧
    s.writeYardRecord.rings = s.rings ∧
    s.writeYardRecord.clk = s.clk := by
  simp [State.writeYardRecord]

@[simp] theorem State.publish_pass (s : State) :
    s.publish.est.lastStep = s.est.lastStep ∧
    s.publish.est.running = s.est.running ∧
    s.publish.est.work = s.est.work ∧
    s.publish.est.filter = s.est.filter ∧
    s.publish.hif = s.hif ∧
    s.publish.rings = s.rings ∧
    s.publish.clk = s.clk := by
  unfold State.publish
  dsimp only
  repeat' split
  all_goals simp

@[simp] theorem State.unitStep_pass (s : State) (str : Fin 4) (u : Fin 128) :
    (s.unitStep str u).est.lastStep = s.est.lastStep ∧
    (s.unitStep str u).est.running = s.est.running ∧
    (s.unitStep str u).est.work = s.est.work ∧
    (s.unitStep str u).est.filter = s.est.filter ∧
    (s.unitStep str u).hif = s.hif ∧
    (s.unitStep str u).rings = s.rings ∧
    (s.unitStep str u).clk = s.clk := by
  unfold State.unitStep
  repeat' split
  all_goals simp

@[simp] theorem State.batch_pass (s : State) (i : Fin 32) :
    (s.batch i).est.lastStep = s.est.lastStep ∧
    (s.batch i).est.running = s.est.running ∧
    (s.batch i).est.work = s.est.work ∧
    (s.batch i).est.filter = s.est.filter ∧
    (s.batch i).hif = s.hif ∧
    (s.batch i).rings = s.rings ∧
    (s.batch i).clk = s.clk := by
  unfold State.batch
  split
  · exact ⟨rfl, rfl, rfl, rfl, rfl, rfl, rfl⟩
  · exact State.SameFlow.foldl _ _ (fun t u => t.unitStep_pass _ u) s

@[simp] theorem State.learnStall_pass (s : State) (i : Fin 32) :
    (s.learnStall i).est.lastStep = s.est.lastStep ∧
    (s.learnStall i).est.running = s.est.running ∧
    (s.learnStall i).est.work = s.est.work ∧
    (s.learnStall i).est.filter = s.est.filter ∧
    (s.learnStall i).hif = s.hif ∧
    (s.learnStall i).rings = s.rings ∧
    (s.learnStall i).clk = s.clk := by
  unfold State.learnStall
  split
  · exact ⟨rfl, rfl, rfl, rfl, rfl, rfl, rfl⟩
  · refine State.SameFlow.foldl _ _ (fun t u => ?_) s
    split <;> simp [State.SameFlow]

@[simp] theorem State.batches_pass (s : State) (n : Nat) (limits : Bool) :
    (s.batches n limits).est.lastStep = s.est.lastStep ∧
    (s.batches n limits).est.running = s.est.running ∧
    (s.batches n limits).est.work = s.est.work ∧
    (s.batches n limits).est.filter = s.est.filter ∧
    (s.batches n limits).hif = s.hif ∧
    (s.batches n limits).rings = s.rings ∧
    (s.batches n limits).clk = s.clk := by
  unfold State.batches
  dsimp only
  exact State.SameFlow.foldl _ (fun s (q : Fin 32 × Nat) => s.batch q.1) (fun t q => t.batch_pass q.1) s

@[simp] theorem State.stringLimits_pass (s : State) (str : Fin 4) :
    (s.stringLimits str).est.lastStep = s.est.lastStep ∧
    (s.stringLimits str).est.running = s.est.running ∧
    (s.stringLimits str).est.work = s.est.work ∧
    (s.stringLimits str).est.filter = s.est.filter ∧
    (s.stringLimits str).hif = s.hif ∧
    (s.stringLimits str).rings = s.rings ∧
    (s.stringLimits str).clk = s.clk := by
  unfold State.stringLimits
  dsimp only
  split <;> simp

@[simp] theorem State.measureShares_pass (s : State) :
    s.measureShares.est.lastStep = s.est.lastStep ∧
    s.measureShares.est.running = s.est.running ∧
    s.measureShares.est.work = s.est.work ∧
    s.measureShares.est.filter = s.est.filter ∧
    s.measureShares.hif = s.hif ∧
    s.measureShares.rings = s.rings ∧
    s.measureShares.clk = s.clk := by
  unfold State.measureShares
  dsimp only
  split
  · exact State.SameFlow.foldl _ _ (fun t u => by simp [State.SameFlow]) s
  · exact ⟨rfl, rfl, rfl, rfl, rfl, rfl, rfl⟩

@[simp] theorem State.yardLimits_pass (s : State) :
    s.yardLimits.est.lastStep = s.est.lastStep ∧
    s.yardLimits.est.running = s.est.running ∧
    s.yardLimits.est.work = s.est.work ∧
    s.yardLimits.est.filter = s.est.filter ∧
    s.yardLimits.hif = s.hif ∧
    s.yardLimits.rings = s.rings ∧
    s.yardLimits.clk = s.clk := by
  simp [State.yardLimits]

@[simp] theorem State.computeLimits_pass (s : State) :
    s.computeLimits.est.lastStep = s.est.lastStep ∧
    s.computeLimits.est.running = s.est.running ∧
    s.computeLimits.est.work = s.est.work ∧
    s.computeLimits.est.filter = s.est.filter ∧
    s.computeLimits.hif = s.hif ∧
    s.computeLimits.rings = s.rings ∧
    s.computeLimits.clk = s.clk := by
  have h1 := State.SameFlow.foldl (places 4) (fun s i => s.stringLimits i) (fun t i => t.stringLimits_pass i) s
  have h2 : State.SameFlow _ _ := State.yardLimits_pass ((places 4).foldl (fun s i => s.stringLimits i) s)
  have h3 := State.SameFlow.foldl (places 4) (fun s i => s.writeStringRecord i) (fun t i => t.writeStringRecord_pass i)
    ((places 4).foldl (fun s i => s.stringLimits i) s).yardLimits
  have h4 : State.SameFlow _ _ := State.writeYardRecord_pass ((places 4).foldl (fun s i => s.writeStringRecord i)
    ((places 4).foldl (fun s i => s.stringLimits i) s).yardLimits)
  have h5 : State.SameFlow _ _ := State.publish_pass ((places 4).foldl (fun s i => s.writeStringRecord i)
    ((places 4).foldl (fun s i => s.stringLimits i) s).yardLimits).writeYardRecord
  have h : State.SameFlow _ s := h5.trans (h4.trans (h3.trans (h2.trans h1)))
  exact h

@[simp] theorem State.limitsLate_pass (s : State) (n : Nat) :
    (s.limitsLate n).est.lastStep = s.est.lastStep ∧
    (s.limitsLate n).est.running = s.est.running ∧
    (s.limitsLate n).est.work = s.est.work ∧
    (s.limitsLate n).est.filter = s.est.filter ∧
    (s.limitsLate n).hif = s.hif ∧
    (s.limitsLate n).rings = s.rings ∧
    (s.limitsLate n).clk = s.clk := by
  unfold State.limitsLate
  dsimp only
  repeat' split
  all_goals simp

@[simp] theorem State.loads_pass (s : State) (n : Nat) :
    (s.loads n).est.lastStep = s.est.lastStep ∧
    (s.loads n).est.running = s.est.running ∧
    (s.loads n).est.work = s.est.work ∧
    (s.loads n).est.filter = s.est.filter ∧
    (s.loads n).hif = s.hif ∧
    (s.loads n).rings = s.rings ∧
    (s.loads n).clk = s.clk := by
  unfold State.loads
  split <;> simp

end Sys2Proof.Machine
end

section
/-! SUPPORT. The parts of an estimator step (06 R179, R192). -/

namespace Sys2Proof.Machine

/-- The first part of an estimator step: late limits are counted and a start resumes the cells (06 R179, R205). -/
def State.estOpens (s : State) (n : Nat) : State := (if s.est.running then s.limitsLate n else s).resumeEst

/-- The middle of an estimator step, once the packages are applied: limits, batches, learning and queries (06 R179). -/
def State.estSlices (s : State) (n : Nat) : State :=
  let limits := decide (n % 10 = 0)
  let s := if limits then s.computeLimits else s
  let s := if s.est.rateHalf ∧ n % 2 = 1 then s else s.batches n limits
  let s := if h : n % 1000 < 32 then
      let i : Fin 32 := ⟨n % 1000, h⟩
      let s := s.learnStall i
      { s with est := { s.est with cycArray := s.est.cycArray + 400 } }
    else s
  s.queryWork

/-- The end of an estimator step: the load is counted (06 R179). -/
def State.estLoads (s : State) (n : Nat) : State :=
  let s := s.loads n
  { s with est := { s.est with rateHalf := s.est.rateHalf || (s.pwr.level == 3 && 10 ≤ s.est.skips.length) } }

/-- String `i` remembers its charge counters (06 R192). -/
def State.rememberCharge (s : State) (i : Fin 4) : State :=
  s.onEstr i (fun e => { e with qDisAt := (s.wb.str.at i).qDis, qChgAt := (s.wb.str.at i).qChg })

/-- Each string remembers its charge counters. -/
def State.rememberCharges (s : State) : State := (places 4).foldl (fun s i => s.rememberCharge i) s

/-- The state with the step of millisecond `n` counted, which ran `ran` ticks after the one before. -/
def State.estMarked (s : State) (n ran : Nat) : State :=
  { s with est := { s.est with lastStep := some n, ranTicks := s.est.ranTicks + ran } }

theorem State.estStep_parts (s : State) (n : Nat) : ∃ ran,
    s.estStep n = (((((s.estOpens n).applyConfigs).estMarked n ran).estSlices n).estLoads n).rememberCharges :=
  ⟨_, rfl⟩

theorem State.SameFlow.ite {p : Prop} [Decidable p] {a b s : State} (ha : a.SameFlow s) (hb : b.SameFlow s) :
    (if p then a else b).SameFlow s := by
  split
  · exact ha
  · exact hb

theorem State.SameYard.ite {p : Prop} [Decidable p] {a b s : State} (ha : a.SameYard s) (hb : b.SameYard s) :
    (if p then a else b).SameYard s := by
  split
  · exact ha
  · exact hb

theorem State.estLoads_flow (s : State) (n : Nat) : (s.estLoads n).SameFlow s := by
  have h : (s.loads n).SameFlow s := s.loads_pass n
  exact h

theorem State.estLoads_yard (s : State) (n : Nat) : (s.estLoads n).SameYard s := by
  have h : (s.loads n).SameYard s := s.loads_fixed n
  exact h

theorem State.rememberCharges_flow (s : State) : s.rememberCharges.SameFlow s :=
  State.SameFlow.foldl (places 4) (fun s i => s.rememberCharge i) (fun t _ => .refl t) s

theorem State.rememberCharges_yard (s : State) : s.rememberCharges.SameYard s :=
  State.SameYard.foldl (places 4) (fun s i => s.rememberCharge i) (fun t _ => .refl t) s

/-- String `i` remembers the charge counters of the Weighbridge as they are. -/
def State.Remembered (t : State) (i : Fin 4) : Prop :=
  (t.estr.at i).qDisAt = (t.wb.str.at i).qDis ∧ (t.estr.at i).qChgAt = (t.wb.str.at i).qChg

theorem State.rememberCharge_remembered (s : State) {i j : Fin 4} (h : i = j ∨ s.Remembered i) : (s.rememberCharge j).Remembered i := by
  by_cases e : i = j
  · subst e
    exact ⟨by simp [rememberCharge, onEstr], by simp [rememberCharge, onEstr]⟩
  · obtain ⟨hd, hc⟩ := h.resolve_left e
    exact ⟨by simpa [rememberCharge, onEstr, Bank.at_upd, Ne.symm e] using hd, by simpa [rememberCharge, onEstr, Bank.at_upd, Ne.symm e] using hc⟩

theorem State.foldl_rememberCharge_remembered {i : Fin 4} : ∀ (l : List (Fin 4)) (s : State), i ∈ l ∨ s.Remembered i →
    (l.foldl (fun s i => s.rememberCharge i) s).Remembered i
  | [], _, h => h.resolve_left List.not_mem_nil
  | j :: l, s, h => by
    refine foldl_rememberCharge_remembered l _ ?_
    rcases h with h | h
    · rcases List.mem_cons.mp h with e | h
      · exact .inr (s.rememberCharge_remembered (.inl e))
      · exact .inl h
    · exact .inr (s.rememberCharge_remembered (.inr h))

theorem State.rememberCharges_remembered (s : State) (i : Fin 4) : s.rememberCharges.Remembered i :=
  foldl_rememberCharge_remembered (places 4) s (.inl (List.mem_finRange i))

/-- What the slices do before the queries. -/
theorem State.estSlices_parts (s : State) (n : Nat) : ∃ u : State, s.estSlices n = u.queryWork ∧ u.SameFlow s ∧ u.SameYard s := by
  unfold State.estSlices
  extract_lets limits s1 s2 i
  have h1 : s1.SameFlow s ∧ s1.SameYard s := by
    unfold s1
    split
    · exact ⟨s.computeLimits_pass, s.computeLimits_fixed⟩
    · exact ⟨.refl s, .refl s⟩
  clear_value s1
  have h2 : s2.SameFlow s1 ∧ s2.SameYard s1 := by
    unfold s2
    split
    · exact ⟨.refl s1, .refl s1⟩
    · exact ⟨s1.batches_pass n limits, s1.batches_fixed n limits⟩
  clear_value s2
  refine ⟨i, rfl, ?_⟩
  unfold i
  split
  · next h =>
    have hf : (s2.learnStall ⟨n % 1000, h⟩).SameFlow s2 := s2.learnStall_pass ⟨n % 1000, h⟩
    have hy : (s2.learnStall ⟨n % 1000, h⟩).SameYard s2 := s2.learnStall_fixed ⟨n % 1000, h⟩
    have hf' : State.SameFlow _ s := hf.trans (h2.1.trans h1.1)
    have hy' : State.SameYard _ s := hy.trans (h2.2.trans h1.2)
    exact ⟨hf', hy'⟩
  · exact ⟨h2.1.trans h1.1, h2.2.trans h1.2⟩

end Sys2Proof.Machine
end

section
/-! SUPPORT. The packages and the queries of an estimator step (06 R205, R208). -/

namespace Sys2Proof.Machine

/-- The start of the estimator leaves all of the flow but the flag that it runs (06 R179, R192). -/
theorem State.resumeEst_flow (s : State) : ∃ u : State, s.resumeEst = { u with est := { u.est with running := true } } ∧ u.SameFlow s := by
  unfold State.resumeEst
  split
  · next h => exact ⟨s, by rw [← h], .refl s⟩
  · refine ⟨_, rfl, ?_⟩
    split
    · exact .refl s
    · refine State.SameFlow.foldl _ _ (fun t u => ?_) s
      repeat' split
      all_goals exact ⟨rfl, rfl, rfl, rfl, rfl, rfl, rfl⟩

theorem State.estOpens_flow (s : State) (n : Nat) :
    ∃ u : State, s.estOpens n = { u with est := { u.est with running := true } } ∧ u.SameFlow s := by
  have h : (if s.est.running then s.limitsLate n else s).SameFlow s := .ite (s.limitsLate_pass n) (.refl s)
  obtain ⟨u, hu, hf⟩ := (if s.est.running then s.limitsLate n else s).resumeEst_flow
  exact ⟨u, hu, hf.trans h⟩

theorem State.estOpens_yard (s : State) (n : Nat) : (s.estOpens n).SameYard s :=
  have h : (if s.est.running then s.limitsLate n else s).SameYard s := .ite (s.limitsLate_fixed n) (.refl s)
  State.SameYard.trans (State.resumeEst_fixed _) h

/-- A package leaves the packages that wait and the flag that the estimator runs. -/
def State.SameWork (t s : State) : Prop := t.est.work = s.est.work ∧ t.est.running = s.est.running

theorem State.SameWork.foldl {α : Type} (l : List α) (f : State → α → State) (h : ∀ t a, (f t a).SameWork t) (s : State) :
    (l.foldl f s).SameWork s :=
  List.foldlRecOn l f (motive := fun t => t.SameWork s) ⟨rfl, rfl⟩ fun t ⟨hw, hr⟩ a _ =>
    have ⟨hw', hr'⟩ := h t a
    ⟨hw'.trans hw, hr'.trans hr⟩

@[simp] theorem State.settleMask_est (s : State) (u : Fin 128) : (s.settleMask u).est = s.est := by
  unfold State.settleMask
  dsimp only
  split <;> rfl

@[simp] theorem State.stopExcitation_est (s : State) (str : Fin 4) : (s.stopExcitation str).est = s.est := by
  unfold State.stopExcitation
  split
  · exact List.foldlRecOn _ _ (motive := fun t : State => t.est = s.est) rfl fun t ht u _ => (State.settleMask_est _ u).trans ht
  · rfl

theorem State.SameWork.trans {u t s : State} (hu : u.SameWork t) (ht : t.SameWork s) : u.SameWork s :=
  ⟨hu.1.trans ht.1, hu.2.trans ht.2⟩

theorem State.applyDescriptor_work (s : State) (d : Descriptor) : (s.applyDescriptor d).SameWork s := by
  cases d with
  | chem k x =>
    unfold State.applyDescriptor
    exact (State.SameWork.foldl _ _ (fun t a => by split <;> exact ⟨rfl, rfl⟩) _).trans ⟨rfl, rfl⟩
  | group k x =>
    unfold State.applyDescriptor
    exact (State.SameWork.foldl _ _ (fun t a => by split <;> exact ⟨rfl, rfl⟩) _).trans ⟨rfl, rfl⟩
  | filter x => exact ⟨rfl, rfl⟩
  | limits k x => exact ⟨rfl, rfl⟩
  | lockin k x => simp [State.applyDescriptor, State.SameWork]
  | output x => exact ⟨rfl, rfl⟩

def EstWork.isQuery : EstWork → Bool
  | .config _ _ => false
  | .project _ => true

/-- Every package that waits is applied and leaves; the queries stay (06 R208). -/
theorem State.applyConfigs_work (s : State) :
    s.applyConfigs.est.work = s.est.work.filter EstWork.isQuery ∧ s.applyConfigs.est.running = s.est.running := by
  have h (t : State) (w : EstWork) : State.SameWork (match w with
      | .config c ds => (ds.foldl (fun s d => s.applyDescriptor d) t).ok c (dwords ds.length 0 0 0)
      | .project _ => t) t := by
    cases w with
    | config c ds =>
      have hd := State.SameWork.foldl ds (fun s d => s.applyDescriptor d) (fun t d => t.applyDescriptor_work d) t
      simpa [State.SameWork] using hd
    | project c => exact ⟨rfl, rfl⟩
  have hp : (fun w : EstWork => match w with | .config _ _ => false | .project _ => true) = EstWork.isQuery := by
    funext w
    cases w <;> rfl
  obtain ⟨hw, hr⟩ := State.SameWork.foldl s.est.work _ h
    { s with est := { s.est with work := s.est.work.filter (fun w => match w with | .config _ _ => false | .project _ => true) } }
  exact ⟨hw.trans (congrArg (s.est.work.filter ·) hp), hr⟩

/-- A projection answers its command and leaves what waits. -/
theorem State.runProjection_work (s : State) (c : Cmd) : (s.runProjection c).SameWork s ∧
    (s.runProjection c).est.lastStep = s.est.lastStep := by
  simp [State.runProjection, State.SameWork]

/-- The query slice takes queries only: no package waits that did not wait before (06 R205, 11 R338). -/
theorem State.queryWork_work (s : State) (h : ∀ w ∈ s.est.work, w.isQuery) : (∀ w ∈ s.queryWork.est.work, w.isQuery) ∧
    s.queryWork.est.lastStep = s.est.lastStep ∧ s.queryWork.est.running = s.est.running := by
  have hf (l : List Cmd) (u : State) : (l.foldl (fun s c => s.runProjection c) u).SameWork u ∧
      (l.foldl (fun s c => s.runProjection c) u).est.lastStep = u.est.lastStep :=
    ⟨State.SameWork.foldl l _ (fun t c => (t.runProjection_work c).1) u,
      List.foldlRecOn l _ (motive := fun t : State => t.est.lastStep = u.est.lastStep) rfl fun t ht c _ => (t.runProjection_work c).2.trans ht⟩
  unfold State.queryWork
  extract_lets now _ s1
  obtain ⟨⟨hw, hr⟩, hl⟩ := hf now s1
  refine ⟨fun w hmem => ?_, hl, hr⟩
  rw [hw] at hmem
  exact h w (List.mem_filter.mp hmem).1

/-- With nothing that waits there is nothing to do in the query slice. -/
theorem State.queryWork_of_empty {s : State} (h : s.est.work = []) : s.queryWork = s := by
  have hq : s.queries = [] := by simp [State.queries, h]
  unfold State.queryWork
  rw [hq, h]
  exact congrArg (fun w => { s with est := { s.est with work := w } }) h.symm

end Sys2Proof.Machine
end

section
/-! SUPPORT. Estimator steps, checkpoints and stale limits (06 R179, R192, R205, R208). -/

namespace Sys2Proof.Machine

/-- An estimator step that is due and possible: the run, the mark, the packages and the charge counters (06 R179, R205, R208). -/
theorem State.estStep_effect (s : State) (n : Nat) :
    ((s.estStep n).est.lastStep = some n ∧ (s.estStep n).est.running = true ∧ ∀ w ∈ (s.estStep n).est.work, w.isQuery) ∧
    (∀ i, (s.estStep n).Remembered i) ∧ (s.estStep n).SameYard s := by
  obtain ⟨ran, h⟩ := s.estStep_parts n
  rw [h]
  obtain ⟨u, hu, -⟩ := s.estOpens_flow n
  have hopen := s.estOpens_yard n
  have hrun : (s.estOpens n).est.running = true := by rw [hu]
  obtain ⟨hwork, hrun'⟩ := (s.estOpens n).applyConfigs_work
  have hcfg : (s.estOpens n).applyConfigs.SameYard s := State.SameYard.trans (State.applyConfigs_fixed _) hopen
  generalize (s.estOpens n).applyConfigs = v at *
  have hmark : (v.estMarked n ran).SameYard s := hcfg
  have hq : ∀ w ∈ (v.estMarked n ran).est.work, w.isQuery := by
    intro w hw
    exact (List.mem_filter.mp (hwork ▸ hw : w ∈ (s.estOpens n).est.work.filter EstWork.isQuery)).2
  have hlast : (v.estMarked n ran).est.lastStep = some n := rfl
  have hrun2 : (v.estMarked n ran).est.running = true := hrun'.trans hrun
  generalize v.estMarked n ran = v at *
  obtain ⟨x, hx, ⟨hxl, hxr, hxw, -⟩, hxy⟩ := v.estSlices_parts n
  rw [hx]
  obtain ⟨hzq, hzl, hzr⟩ := x.queryWork_work (by rwa [hxw])
  have hzy : x.queryWork.SameYard s := State.SameYard.trans x.queryWork_fixed (hxy.trans hmark)
  generalize x.queryWork = z at *
  obtain ⟨hll, hlr, hlw, -⟩ := z.estLoads_flow n
  have hly := (z.estLoads_yard n).trans hzy
  generalize z.estLoads n = y at *
  obtain ⟨hl, hr, hw, -⟩ := y.rememberCharges_flow
  refine ⟨⟨?_, ?_, ?_⟩, y.rememberCharges_remembered, y.rememberCharges_yard.trans hly⟩
  · rw [hl, hll, hzl, hxl, hlast]
  · rw [hr, hlr, hzr, hxr, hrun2]
  · rw [hw, hlw]
    exact hzq

/-- A package of one filter is applied at the step and its command ends (06 R208). -/
theorem State.estStep_of_filter {s : State} {c : Cmd} {f : Flight} {x : Filter} {n : Nat} (h : Executing s c f)
    (hwork : s.est.work = [.config c [.filter x]]) :
    (s.estStep n).est.filter = x ∧ (s.estStep n).est.work = [] ∧ Ended (s.estStep n) c 0x00 := by
  obtain ⟨ran, hstep⟩ := s.estStep_parts n
  rw [hstep]
  obtain ⟨u, hu, ⟨-, -, huw, -, huh, hur, huc⟩⟩ := s.estOpens_flow n
  have hcfg : (s.estOpens n).applyConfigs =
      State.ok { u with est := { u.est with running := true, work := [], filter := x } } c (dwords 1 0 0 0) := by
    simp [State.applyConfigs, hu, huw, hwork, State.applyDescriptor]
  have hend : Ending s { u with est := { u.est with running := true, work := [], filter := x } } c f :=
    (ending_of_flight h.flight h.same h.enabled h.kept h.tracked).of_eq huh hur (congrArg Clk.ytime huc)
  have hdone : Ended (s.estOpens n).applyConfigs c 0x00 := by
    rw [hcfg]
    exact (hend.completes 0x00 _).ended
  have hfil : (s.estOpens n).applyConfigs.est.filter = x ∧ (s.estOpens n).applyConfigs.est.work = [] := by
    rw [hcfg]
    simp
  generalize (s.estOpens n).applyConfigs = v at *
  have hmark : Ended (v.estMarked n ran) c 0x00 ∧ (v.estMarked n ran).est.filter = x ∧ (v.estMarked n ran).est.work = [] := ⟨hdone, hfil⟩
  generalize v.estMarked n ran = v at *
  obtain ⟨z, hz, hzf, -⟩ := v.estSlices_parts n
  obtain ⟨-, -, hzw, -⟩ := id hzf
  rw [hz, State.queryWork_of_empty (hzw.trans hmark.2.2)]
  obtain ⟨-, -, hw, hx, hh, -⟩ := (z.estLoads n).rememberCharges_flow.trans ((z.estLoads_flow n).trans hzf)
  obtain ⟨⟨hfl, hfin⟩, hv, hvw⟩ := hmark
  exact ⟨hx.trans hv, hw.trans hvw, by rw [hh]; exact hfl, by rw [hh]; exact hfin⟩

theorem exec_estimatorStep (s : State) : exec .estimatorStep s =
    answer s (if s.estReady = false ∨ s.est.lastStep = some s.nowMs then s else s.estStep s.nowMs) := rfl

theorem exec_limitStaleTimeout (str : Fin 4) (s : State) : exec (.limitStaleTimeout str) s =
    answer s (if (s.estr.at str).limAt + 50 * ticksPerMs ≤ s.now ∧ (s.estr.at str).stale = false then
      (s.onEstr str (fun e => { e with lim := {}, stale := true })).writeStringRecord str else s) := rfl

theorem answers_estimatorStep {s : State} {P : State → Prop} (hready : s.estReady = true) (hlast : s.est.lastStep ≠ some s.nowMs)
    (h : P (eventInterrupt s (s.estStep s.nowMs))) : Answers .estimatorStep s P :=
  ⟨_, (exec_estimatorStep s).trans (by rw [if_neg (by simp [hready, hlast])]; rfl), h⟩

/-- A store to SRAM changes the memory and what is left to restore. -/
theorem State.sramStore_eq_with (s : State) (key : Nat) (bytes : List Byte) : ∃ mem ret, s.sramStore key bytes = { s with mem := mem, ret := ret } := by
  have hr (u : State) (b : Nat) : ∃ mem ret, u.restoreBlock b = { u with mem := mem, ret := ret } := by
    unfold State.restoreBlock
    split
    · exact ⟨_, _, rfl⟩
    · exact ⟨u.mem, u.ret, rfl⟩
  obtain ⟨m, r, h⟩ := hr s (key / blockSize)
  obtain ⟨m', r', h'⟩ := hr { s with mem := m, ret := r } ((key + bytes.length - 1) / blockSize)
  unfold State.sramStore
  rw [h, h']
  exact ⟨_, _, rfl⟩

/-- The record of a string is written to SRAM and its sequence moves on (06 R212). -/
theorem State.writeStringRecord_effect (s : State) (str : Fin 4) :
    ((s.writeStringRecord str).estr = s.estr.upd str (fun e => { e with seq := (e.seq + 2) % 2 ^ 32 })) ∧
    s.writeStringRecord str =
      { s with estr := (s.writeStringRecord str).estr, mem := (s.writeStringRecord str).mem, ret := (s.writeStringRecord str).ret } := by
  obtain ⟨mem, ret, h⟩ : ∃ mem ret, s.writeStringRecord str =
      { s with estr := s.estr.upd str (fun e => { e with seq := (e.seq + 2) % 2 ^ 32 }), mem := mem, ret := ret } :=
    State.sramStore_eq_with (s.onEstr str (fun e => { e with seq := (e.seq + 2) % 2 ^ 32 })) _ _
  rw [h]
  exact ⟨rfl, rfl⟩

/-- A fold that changes the estimator's units changes nothing else. -/
theorem State.foldl_onCells_eq_with {l : List (Fin 128)} {f : EstCell → EstCell} (s : State) :
    l.foldl (fun s u => s.onCells u f) s = { s with uest := (l.foldl (fun s u => s.onCells u f) s).uest } :=
  List.foldlRecOn l _ (motive := fun t : State => t = { s with uest := t.uest }) rfl fun t ht u _ => by
    rw [ht]
    rfl

theorem exec_estimatorCheckpoint_early {s : State} (ok : Bool) (h : s.est.ranTicks < 600 * ticksPerS) :
    exec (.estimatorCheckpoint ok) s = answer s s :=
  congrArg (answer s) (if_pos h)

/-- A checkpoint that cannot be verified writes nothing (06 R192). -/
theorem exec_estimatorCheckpoint_fail {s : State} (h : 600 * ticksPerS ≤ s.est.ranTicks) :
    exec (.estimatorCheckpoint false) s = answer s { s with
      est := { s.est with ranTicks := s.est.ranTicks - 600 * ticksPerS }, evt := { s.evt with est := setBit s.evt.est 2 } } :=
  congrArg (answer s) (if_neg (Nat.not_lt.mpr h))

theorem Est.ckptGen_with (e : Est) (left : Nat) : ({ e with ranTicks := left } : Est).ckptGen = e.ckptGen := rfl

/-- The state `s` with a checkpoint of generation `gen` counted, `left` ticks of running left, in the memory `mem`. -/
def State.checkpointed (s : State) (left gen : Nat) (mem : Mem) (uest : Bank 128 EstUnit) : State :=
  { s with
    mem := mem, uest := uest
    est := { s.est with
      ranTicks := left, ckptGen := gen, ckptCopy := !s.est.ckptCopy, ckptAt := some s.now, ckptCnt := (s.est.ckptCnt + 1) % 65536 } }

theorem State.checkpointed_eq {s u : State} {left gen : Nat} {mem : Mem} {uest : Bank 128 EstUnit}
    (h : u = { s with est := { s.est with ranTicks := left }, mem := mem, uest := uest }) :
    { u with est := { u.est with
        ckptGen := gen, ckptCopy := !u.est.ckptCopy, ckptAt := some u.now, ckptCnt := (u.est.ckptCnt + 1) % 65536 } } =
      s.checkpointed left gen mem uest := by
  subst h
  rfl

/-- A checkpoint is written to the copy whose turn it is, and counted (06 R192). -/
theorem exec_estimatorCheckpoint_ok {s : State} (h : 600 * ticksPerS ≤ s.est.ranTicks) : ∃ (mem : Mem) (uest : Bank 128 EstUnit),
    exec (.estimatorCheckpoint true) s =
      answer s (s.checkpointed (s.est.ranTicks - 600 * ticksPerS) ((s.est.ckptGen + 1) % 2 ^ 32) mem uest) := by
  have hx : exec (.estimatorCheckpoint true) s = execEstimatorCheckpoint true s := rfl
  rw [hx]
  unfold execEstimatorCheckpoint
  rw [if_neg (Nat.not_lt.mpr h)]
  generalize s.est.ranTicks - 600 * ticksPerS = left
  extract_lets _ s1 _ base gen body head s2 s3
  rw [if_neg (by decide)]
  have hgen : gen = (s.est.ckptGen + 1) % 2 ^ 32 := congrArg (fun g => (g + 1) % 2 ^ 32) (s.est.ckptGen_with left)
  obtain ⟨mem, h2⟩ : ∃ mem, s2 = { s1 with mem := mem } := ⟨_, rfl⟩
  obtain ⟨uest, h3⟩ : ∃ uest, s3 = { s2 with uest := uest } := ⟨_, State.foldl_onCells_eq_with s2⟩
  clear_value s3 s2 gen head body base
  subst h2
  refine ⟨mem, uest, congrArg (answer s) ?_⟩
  rw [← hgen]
  exact State.checkpointed_eq h3

/-- Settles O28: an estimator step is its parts in order, and each keeps what the statement names. -/
theorem estimatorStepsCheckpointsAndLimits : Obligations.EstimatorStepsCheckpointsAndLimits := by
  unfold Obligations.EstimatorStepsCheckpointsAndLimits
  refine ⟨fun s hready hlast => ?_, fun s hidle => ?_, fun c f x s hexec hready hlast hwork => ?_, fun str s hlate hfresh => ?_, 
    fun str s hearly => ?_,
    fun s hran => ?_, fun s hran => ?_, fun ok s hran => ?_⟩
  · obtain ⟨⟨hl, hr, hw⟩, hrem, hyard⟩ := s.estStep_effect s.nowMs
    obtain ⟨hstrs, hswc, hhalter, hstalls, hwb, -⟩ := hyard
    refine answers_estimatorStep hready hlast ?_
    simp only [eventInterrupt_frame]
    refine ⟨hl, hr, fun i => ?_, fun c ds hmem => ?_, hstrs, hswc, hhalter, hstalls⟩
    · rw [← hwb]
      exact hrem i
    · exact absurd (hw _ hmem) (by simp [EstWork.isQuery])
  · exact answers_of_exec_of_evt_eq ((exec_estimatorStep s).trans (congrArg (answer s) (if_pos hidle))) rfl rfl
  · obtain ⟨hfilter, hnone, hfl, hfin⟩ := State.estStep_of_filter (n := s.nowMs) hexec hwork
    refine answers_estimatorStep hready hlast ?_
    simp only [Ended, eventInterrupt_frame]
    exact ⟨hfilter, hnone, hfl, hfin⟩
  · obtain ⟨hestr, hrest⟩ := (s.onEstr str (fun e => { e with lim := {}, stale := true })).writeStringRecord_effect str
    refine answers_of_exec_of_evt_eq ((exec_limitStaleTimeout str s).trans (congrArg (answer s) (if_pos ⟨hlate, hfresh⟩))) (by rw [hrest]; rfl) ?_
    refine ⟨?_, ?_, fun j hj => ?_, hrest⟩
    · rw [hestr]
      simp [State.onEstr]
    · rw [hestr]
      simp [State.onEstr]
    · rw [hestr]
      simp [State.onEstr, Bank.at_upd, Ne.symm hj]
  · exact answers_of_exec_of_evt_eq ((exec_limitStaleTimeout str s).trans (congrArg (answer s) (if_neg (by omega)))) rfl rfl
  · obtain ⟨mem, uest, h⟩ := exec_estimatorCheckpoint_ok hran
    exact answers_of_exec_of_evt_eq h rfl ⟨rfl, rfl, rfl, rfl, rfl, rfl⟩
  · refine answers_of_exec (exec_estimatorCheckpoint_fail hran) ?_
    simp only [eventInterrupt_frame]
    exact ⟨trivial, setBit_getLsbD_self _ (by decide), trivial⟩
  · exact answers_of_exec_of_evt_eq (exec_estimatorCheckpoint_early ok hran) rfl rfl

end Sys2Proof.Machine
end

section
/-! SUPPORT. What the lock-in bank and the excitation leave of the estimator's strings (06 R198, R200). -/

namespace Sys2Proof.Machine

/-- `t` has the strings of the estimator, its parameters and the strings of `s`. -/
def State.SameLockin (t s : State) : Prop := t.estr = s.estr ∧ t.est = s.est ∧ t.strs = s.strs

theorem State.SameLockin.refl (s : State) : s.SameLockin s := ⟨rfl, rfl, rfl⟩

theorem State.SameLockin.trans {u t s : State} (hu : u.SameLockin t) (ht : t.SameLockin s) : u.SameLockin s :=
  have ⟨k0, k1, k2⟩ := hu
  have ⟨h0, h1, h2⟩ := ht
  ⟨k0.trans h0, k1.trans h1, k2.trans h2⟩

theorem State.SameLockin.foldl {α : Type} (l : List α) (f : State → α → State) (h : ∀ t a, (f t a).SameLockin t) (s : State) :
    (l.foldl f s).SameLockin s :=
  List.foldlRecOn l f (motive := fun t => t.SameLockin s) (.refl s) fun t ht a _ => (h t a).trans ht

@[simp] theorem State.foldl_estr {α : Type} (l : List α) (f : State → α → State) (h : ∀ t a, (f t a).estr = t.estr)
    (s : State) : (l.foldl f s).estr = s.estr :=
  List.foldlRecOn l f (motive := fun t => t.estr = s.estr) rfl fun _ ht a _ => (h _ a).trans ht

@[simp] theorem State.foldl_est {α : Type} (l : List α) (f : State → α → State) (h : ∀ t a, (f t a).est = t.est)
    (s : State) : (l.foldl f s).est = s.est :=
  List.foldlRecOn l f (motive := fun t => t.est = s.est) rfl fun _ ht a _ => (h _ a).trans ht

@[simp] theorem State.settleMask_lockin (s : State) (u : Fin 128) :
    (s.settleMask u).estr = s.estr ∧ (s.settleMask u).est = s.est ∧ (s.settleMask u).strs = s.strs := by
  unfold State.settleMask
  dsimp only
  split <;> simp

@[simp] theorem State.troughTakes_lockin (s : State) (src : Source) (words : List (BitVec 32)) (mask : BitVec 32) :
    (s.troughTakes src words mask).estr = s.estr ∧ (s.troughTakes src words mask).est = s.est ∧ (s.troughTakes src words mask).strs = s.strs := by
  unfold State.troughTakes
  dsimp only
  split <;> simp

@[simp] theorem State.sendLink_lockin (s : State) (i : Fin 32) (k : LinkSlot) :
    (s.sendLink i k).estr = s.estr ∧ (s.sendLink i k).est = s.est ∧ (s.sendLink i k).strs = s.strs := by
  simp [State.sendLink]

@[simp] theorem State.sendBalance_lockin (s : State) (u : Fin 128) :
    (s.sendBalance u).estr = s.estr ∧ (s.sendBalance u).est = s.est ∧ (s.sendBalance u).strs = s.strs := by
  simp [State.sendBalance]

@[simp] theorem State.writeImpedance_lockin (s : State) (u : Fin 128) (c : Fin 16) :
    (s.writeImpedance u c).estr = s.estr ∧ (s.writeImpedance u c).est = s.est ∧ (s.writeImpedance u c).strs = s.strs := by
  simp [State.writeImpedance]

@[simp] theorem State.streamImpedance_lockin (s : State) (u : Fin 128) (c : Fin 16) :
    (s.streamImpedance u c).estr = s.estr ∧ (s.streamImpedance u c).est = s.est ∧ (s.streamImpedance u c).strs = s.strs := by
  unfold State.streamImpedance
  dsimp only
  split <;> simp

@[simp] theorem State.takeBlock_lockin (s : State) (str : Fin 4) (i : Fin 32) (starts : List Nat) (f : Rat) (exc : Bool) :
    (s.takeBlock str i starts f exc).estr = s.estr ∧
    (s.takeBlock str i starts f exc).est = s.est ∧
    (s.takeBlock str i starts f exc).strs = s.strs := by
  unfold State.takeBlock
  refine State.SameLockin.foldl _ _ (fun t u => State.SameLockin.foldl _ _ (fun t c => ?_) t) s
  split
  · exact .refl t
  · simp [State.SameLockin]

@[simp] theorem State.setExcitation_lockin (s : State) (str : Fin 4) :
    (s.setExcitation str).estr = s.estr ∧ (s.setExcitation str).est = s.est ∧ (s.setExcitation str).strs = s.strs := by
  unfold State.setExcitation
  refine State.SameLockin.foldl _ _ (fun t u => ?_) s
  extract_lets old t1
  have h1 : t1.SameLockin t := State.settleMask_lockin _ u
  clear_value t1
  split
  · exact h1
  · exact State.SameLockin.trans (t1.sendBalance_lockin u) h1

end Sys2Proof.Machine
end

section
/-! SUPPORT. The lock-in bank, excitation and health updates (06 R198, R200, R202). -/

namespace Sys2Proof.Machine

/-- A block that is over gives its results and the next one begins where it ended (06 R198). -/
theorem exec_lockinBlockEnd_block {str : Fin 4} {bin : Fin 32} {b : Nat} {s : State} (hready : s.estReady = true)
    (hdone : (s.estr.at str).excDone = []) (hb : (s.estr.at str).blockFrom.at bin = some b)
    (hover : b + blockLen (s.est.lockin.at str).cycles (s.strFrames str) bin * s.strFrames str + 32 ≤ s.frame) :
    ∃ u : State, u.SameLockin s ∧ exec (.lockinBlockEnd str bin) s = answer s (u.onEstr str (fun e => { e with
      blockFrom := e.blockFrom.put bin (some (b + blockLen (s.est.lockin.at str).cycles (s.strFrames str) bin * s.strFrames str)) })) := by
  have hx : exec (.lockinBlockEnd str bin) s = execLockinBlockEnd str bin s := rfl
  rw [hx]
  unfold execLockinBlockEnd
  rw [if_neg (by simp [hready])]
  simp only [hdone, List.find?_nil, hb]
  rw [if_neg (Nat.not_lt.mpr hover)]
  exact ⟨_, State.takeBlock_lockin _ _ _ _ _ _, rfl⟩

theorem exec_lockinBlockEnd_idle {str : Fin 4} {bin : Fin 32} {s : State} (hdone : (s.estr.at str).excDone = [])
    (hb : (s.estr.at str).blockFrom.at bin = none) : exec (.lockinBlockEnd str bin) s = answer s s := by
  have hx : exec (.lockinBlockEnd str bin) s = execLockinBlockEnd str bin s := rfl
  rw [hx]
  unfold execLockinBlockEnd
  split
  · rfl
  · simp [hdone, hb]

theorem exec_excitationStart (str : Fin 4) (s : State) : exec (.excitationStart str) s = execExcitationStart str s := rfl

theorem exec_excitationToggle (str : Fin 4) (s : State) : exec (.excitationToggle str) s = execExcitationToggle str s := rfl

/-- Excitation starts on an open string at rest (06 R200). -/
theorem exec_excitationStart_run {str : Fin 4} {b : Fin 32} {s : State} (hready : s.estReady = true) (hused : s.usedStr str = true)
    (hidle : (s.estr.at str).excState ≠ .running) (hdue : s.excDue str = true) (hopen : s.strSt str = .opened)
    (hrest : (s.estr.at str).openSince + (s.est.lockin.at str).restS * ticksPerS ≤ s.now)
    (hb : nextBin (s.est.lockin.at str).excMask 0 = some b) :
    exec (.excitationStart str) s = answer s ((s.onEstr str (fun e => { e with
      excState := .running, blockFrom := Bank.fill 32 none })).excPhaseStart str b false) := by
  rw [exec_excitationStart]
  unfold execExcitationStart
  dsimp only
  rw [if_neg (by simp [hready, hused, hidle, hdue]), if_pos ⟨hopen, hrest⟩, hb]

theorem exec_excitationStart_wait {str : Fin 4} {s : State} (hready : s.estReady = true) (hused : s.usedStr str = true)
    (hidle : (s.estr.at str).excState = .idle) (hdue : s.excDue str = true) (hopen : s.strSt str ≠ .opened) :
    exec (.excitationStart str) s = answer s (s.onEstr str (fun e => { e with excState := .waiting })) := by
  rw [exec_excitationStart]
  unfold execExcitationStart
  dsimp only
  rw [if_neg (by simp [hready, hused, hidle, hdue]), if_neg (fun h => hopen h.1), if_pos hidle]

theorem State.excPhaseStart_estr (s : State) (str : Fin 4) (bin : Fin 32) (phase : Bool) :
    (s.excPhaseStart str bin phase).estr = s.estr.upd str (fun e => { e with
      excBin := BitVec.ofNat 5 bin.val, excPhase := phase, excHigh := true, excFrom := s.frame, excToggle := s.frame }) ∧
    (s.excPhaseStart str bin phase).strs = s.strs := by
  unfold State.excPhaseStart
  obtain ⟨he, -, hs⟩ := State.setExcitation_lockin (s.onEstr str (fun e => { e with
    excBin := BitVec.ofNat 5 bin.val, excPhase := phase, excHigh := true, excFrom := s.frame, excToggle := s.frame })) str
  exact ⟨he, hs⟩

theorem exec_excitationToggle_wave {str : Fin 4} {s : State} (hready : s.estReady = true) (hrun : (s.estr.at str).excState = .running)
    (hhalf : (s.estr.at str).excToggle + halfPeriod ⟨(s.estr.at str).excBin.toNat, (s.estr.at str).excBin.isLt⟩ ≤ s.frame)
    (hend : s.frame < (s.estr.at str).excFrom + 2 * halfPeriod ⟨(s.estr.at str).excBin.toNat, (s.estr.at str).excBin.isLt⟩ *
      ((s.est.lockin.at str).cycles + 1)) :
    exec (.excitationToggle str) s = answer s ((s.onEstr str (fun e => { e with
      excHigh := !e.excHigh
      excToggle := e.excToggle + halfPeriod ⟨(s.estr.at str).excBin.toNat, (s.estr.at str).excBin.isLt⟩ })).setExcitation str) := by
  rw [exec_excitationToggle]
  unfold execExcitationToggle
  dsimp only
  rw [if_neg (not_or.mpr ⟨by simp [hready], not_or.mpr ⟨fun h => h hrun, Nat.not_lt.mpr hhalf⟩⟩), if_neg (Nat.not_le.mpr hend)]

theorem exec_excitationToggle_idle {str : Fin 4} {s : State} (hidle : (s.estr.at str).excState ≠ .running) :
    exec (.excitationToggle str) s = answer s s := by
  rw [exec_excitationToggle]
  unfold execExcitationToggle
  dsimp only
  rw [if_pos (.inr (.inl hidle))]

theorem stallOf_of_mem_unitsOf {i : Fin 32} {u : Fin 128} (h : u ∈ unitsOf i) : stallOf u = i := by
  obtain ⟨k, rfl⟩ : ∃ k, u = unitPos i k := by simpa [unitsOf, Fin.exists_fin_succ] using h
  exact stallOf_unitPos i k

/-- The positions of a string come once each. -/
theorem State.unitsOfStr_nodup (s : State) (str : Fin 4) : (s.unitsOfStr str).Nodup := by
  unfold State.unitsOfStr
  refine List.pairwise_flatMap.mpr ⟨fun i _ => ?_, ?_⟩
  · simp [unitsOf, unitPos, show ((3 : Fin 4) : Nat) = 3 from rfl]
  · refine ((List.nodup_finRange 32).filter _).imp fun {i j} hij u hi v hj huv => hij ?_
    rw [← stallOf_of_mem_unitsOf hi, ← stallOf_of_mem_unitsOf hj, huv]

theorem State.mc16sOf_nodup (s : State) (str : Fin 4) : (s.mc16sOf str).Nodup := (s.unitsOfStr_nodup str).filter _

/-- The rejections of the second that has ended. -/
def EstCell.countSecond (x : EstCell) : EstCell := { x with rejSec := x.rejAcc, rejAcc := 0 }

theorem State.foldl_onCells_at {f : EstCell → EstCell} {u : Fin 128} (c : Fin 16) : ∀ {l : List (Fin 128)}, l.Nodup → u ∈ l → ∀ s : State,
    ((l.foldl (fun s v => s.onCells v f) s).uest.at u).cells.at c = f (((s.uest.at u).cells.at c)) := by
  intro l hl hu s
  obtain ⟨t, ht, h⟩ := foldl_of_single (fun t : State => ((t.uest.at u).cells.at c)) (fun s v => s.onCells v f) u
    (fun t j hj => by simp [State.onCells, State.onEst, Bank.at_upd, hj]) hu hl s
  rw [h, ← ht]
  simp [State.onCells, State.onEst]

theorem State.writeUnitRecord_cells (s : State) (u v : Fin 128) : ((s.writeUnitRecord u).uest.at v).cells = (s.uest.at v).cells := by
  by_cases h : u = v <;> simp [State.writeUnitRecord, State.onEst, Bank.at_upd, h]

/-- A cell takes its score (06 R203). -/
def State.scoreCell (s : State) (q : (Fin 128 × Fin 16) × Nat × Nat) : State :=
  s.onEst q.1.1 (fun e => { e with cells := e.cells.upd q.1.2 (fun x => { x with score := q.2.1, zScore := q.2.2 }) })

theorem State.scoreCell_rejAcc (s : State) (q : (Fin 128 × Fin 16) × Nat × Nat) (u : Fin 128) (c : Fin 16) :
    (((s.scoreCell q).uest.at u).cells.at c).rejAcc = ((s.uest.at u).cells.at c).rejAcc := by
  by_cases hu : q.1.1 = u
  · by_cases hc : q.1.2 = c <;> simp [State.scoreCell, State.onEst, Bank.at_upd, hu, hc]
  · simp [State.scoreCell, State.onEst, Bank.at_upd, hu]

/-- The scores of the cells leave the rejections that are counted. -/
theorem State.foldl_scoreCell_effect (l : List ((Fin 128 × Fin 16) × Nat × Nat)) (s : State) : ∃ uest,
    l.foldl (fun s q => s.scoreCell q) s = { s with uest := uest } ∧
      ∀ u c, ((uest.at u).cells.at c).rejAcc = ((s.uest.at u).cells.at c).rejAcc := by
  refine List.foldlRecOn l _ (motive := fun t : State => ∃ uest, t = { s with uest := uest } ∧
    ∀ u c, ((uest.at u).cells.at c).rejAcc = ((s.uest.at u).cells.at c).rejAcc) ⟨s.uest, rfl, fun _ _ => rfl⟩ ?_
  rintro t ⟨uest, rfl, h⟩ q -
  exact ⟨_, rfl, fun u c => (State.scoreCell_rejAcc { s with uest := uest } q u c).trans (h u c)⟩

/-- The records of the units of a string leave the rest of the state, and the cells. -/
theorem State.foldl_writeUnitRecord_effect (l : List (Fin 128)) (s : State) :
    (l.foldl (fun s u => s.writeUnitRecord u) s).SameLockin s ∧ (l.foldl (fun s u => s.writeUnitRecord u) s).uint = s.uint ∧
    ∀ u, ((l.foldl (fun s u => s.writeUnitRecord u) s).uest.at u).cells = (s.uest.at u).cells := by
  refine List.foldlRecOn l _ (motive := fun t : State => t.SameLockin s ∧ t.uint = s.uint ∧ ∀ u, (t.uest.at u).cells = (s.uest.at u).cells)
    ⟨.refl s, rfl, fun _ => rfl⟩ fun t ⟨h, hu, hc⟩ v _ => ⟨State.SameLockin.trans ?_ h, ?_, fun u => (t.writeUnitRecord_cells v u).trans (hc u)⟩
  · simp [State.SameLockin, State.writeUnitRecord]
  · simp [State.writeUnitRecord, hu]

/-- What the health update of a string keeps (06 R202). -/
theorem exec_healthUpdate {str : Fin 4} {s : State} (hready : s.estReady = true) : ∃ t : State,
    exec (.healthUpdate str) s = answer s t ∧ (t.strs = s.strs ∧ t.est = s.est ∧ t.uint = s.uint) ∧
    (∀ u ∈ s.mc16sOf str, ∀ c, ((t.uest.at u).cells.at c).rejSec = ((s.uest.at u).cells.at c).rejAcc ∧ ((t.uest.at u).cells.at c).rejAcc = 0) ∧
    (s.limCells str = [] → (t.estr.at str).sohCap = (s.estr.at str).sohCap ∧ (t.estr.at str).sohRes = (s.estr.at str).sohRes) := by
  have hx : exec (.healthUpdate str) s = execHealthUpdate str s := rfl
  rw [hx]
  unfold execHealthUpdate
  rw [if_neg (by simp [hready])]
  extract_lets cells of_ caps res sR sQ sZ sAbs scored s1 s2 s3
  have h1 : s1 = { s with estr := s1.estr } := rfl
  have hempty : s.limCells str = [] → (s1.estr.at str).sohCap = (s.estr.at str).sohCap ∧ (s1.estr.at str).sohRes = (s.estr.at str).sohRes := by
    intro h
    have hc : caps = [] := by simp [caps, cells, h]
    have hr : res = [] := by simp [res, cells, h]
    clear_value caps res
    subst hc hr
    exact ⟨by simp [s1, State.onEstr], by simp [s1, State.onEstr]⟩
  obtain ⟨uest, h2, hrej⟩ : ∃ uest, s2 = { s1 with uest := uest } ∧ ∀ u c, ((uest.at u).cells.at c).rejAcc = ((s1.uest.at u).cells.at c).rejAcc :=
    State.foldl_scoreCell_effect scored s1
  clear_value s1 s2
  have hmc : s2.mc16sOf str = s.mc16sOf str := by
    rw [h2, h1]
    rfl
  have h3 : s3 = { s2 with uest := s3.uest } := State.foldl_onCells_eq_with s2
  have hcells : ∀ u ∈ s.mc16sOf str, ∀ c, (s3.uest.at u).cells.at c = ((s2.uest.at u).cells.at c).countSecond := fun u hu c =>
    State.foldl_onCells_at (f := EstCell.countSecond) c (s2.mc16sOf_nodup str) (hmc.symm ▸ hu) s2
  clear_value s3
  have hbase : (s3.strs = s.strs ∧ s3.est = s.est ∧ s3.uint = s.uint) ∧ s3.estr = s1.estr := by
    rw [h3, h2, h1]
    exact ⟨⟨rfl, rfl, rfl⟩, rfl⟩
  obtain ⟨⟨hstrs, hest, huint⟩, hestr⟩ := hbase
  have hs1 : s1.uest = s.uest := by rw [h1]
  have hs2 : s2.uest = uest := by rw [h2]
  obtain ⟨hseq, hrec⟩ := s3.writeStringRecord_effect str
  obtain ⟨⟨hestr', hest', hstrs'⟩, huint', hc⟩ := State.foldl_writeUnitRecord_effect (s3.mc16sOf str) (s3.writeStringRecord str)
  refine ⟨_, rfl, ⟨?_, ?_, ?_⟩, fun u hu c => ?_, fun h => ?_⟩
  · rw [hstrs', hrec, hstrs]
  · rw [hest', hrec, hest]
  · rw [huint', hrec, huint]
  · rw [hc, hrec, hcells u hu, hs2]
    exact ⟨(hrej u c).trans (by rw [hs1]), rfl⟩
  · rw [hestr', hseq, hestr]
    simpa using hempty h

/-- Settles O29. -/
theorem lockInExcitationAndHealth : Obligations.LockInExcitationAndHealth := by
  unfold Obligations.LockInExcitationAndHealth
  refine ⟨fun str bin b s hready hdone hb hover => ?_, fun str bin s hdone hb => ?_, fun str b s hready hused hrun hdue hopen hrest hb => ?_,
    fun str s hready hused hidle hdue hopen => ?_, fun str s hready hrun hhalf hend => ?_, fun str s hidle => ?_,
    fun str u c s hready hu => ?_, fun str s hready hcells => ?_⟩
  · obtain ⟨u, ⟨hestr, hest, hstrs⟩, hexec⟩ := exec_lockinBlockEnd_block hready hdone hb hover
    refine answers_of_exec hexec ?_
    simp only [eventInterrupt_frame, State.onEstr, hestr, hest, hstrs]
    exact ⟨by simp, fun j hj => by simp [Bank.at_put, Ne.symm hj], fun j hj => by simp [Bank.at_upd, Ne.symm hj], trivial, trivial⟩
  · exact answers_of_exec_of_evt_eq (exec_lockinBlockEnd_idle hdone hb) rfl rfl
  · obtain ⟨hestr, hstrs⟩ := (s.onEstr str (fun e => { e with excState := .running, blockFrom := Bank.fill 32 none })).excPhaseStart_estr str b false
    refine answers_of_exec (exec_excitationStart_run hready hused hrun hdue hopen hrest hb) ?_
    simp only [eventInterrupt_frame, hestr, hstrs]
    exact ⟨by simp [State.onEstr], by simp [State.onEstr], by simp [State.onEstr], by simp [State.onEstr], by simp [State.onEstr]; rfl,
      by simp [State.onEstr]; rfl, fun j => by simp [State.onEstr], fun j hj => by simp [State.onEstr, Bank.at_upd, Ne.symm hj], rfl⟩
  · exact answers_of_exec_of_evt_eq (exec_excitationStart_wait hready hused hidle hdue hopen) rfl rfl
  · obtain ⟨hestr, -, hstrs⟩ := State.setExcitation_lockin (s.onEstr str (fun e => { e with
      excHigh := !e.excHigh
      excToggle := e.excToggle + halfPeriod ⟨(s.estr.at str).excBin.toNat, (s.estr.at str).excBin.isLt⟩ })) str
    refine answers_of_exec (exec_excitationToggle_wave hready hrun hhalf hend) ?_
    simp only [eventInterrupt_frame, hestr, hstrs]
    exact ⟨by simp [State.onEstr], by simp [State.onEstr, hrun], by simp [State.onEstr], rfl⟩
  · exact answers_of_exec_of_evt_eq (exec_excitationToggle_idle hidle) rfl rfl
  · obtain ⟨t, hexec, hkept, hrej, -⟩ := exec_healthUpdate (str := str) hready
    refine answers_of_exec hexec ?_
    simp only [eventInterrupt_frame]
    obtain ⟨hstrs, hest, huint⟩ := hkept
    exact ⟨hrej u hu c, hstrs, hest, huint⟩
  · obtain ⟨t, hexec, -, -, hsoh⟩ := exec_healthUpdate (str := str) hready
    refine answers_of_exec hexec ?_
    simp only [eventInterrupt_frame]
    exact hsoh hcells

end Sys2Proof.Machine
end

section
/-! SUPPORT. Safety inputs, the heartbeat and the pulses of the contactors (08 R252 to R256, R265). -/

namespace Sys2Proof.Machine

theorem detailPlace_injective {d e : Detail} (h : detailPlace d = detailPlace e) : d = e := by
  revert e
  cases d <;> intro e <;> cases e <;> simp [detailPlace]

theorem Halter.has_of_present {h k : Halter} (e : h.present.put 4 0 = k.present.put 4 0) {d : Detail} (hd : d ≠ .isoFault) (w : Nat) :
    h.has d w = k.has d w := by
  have hp : (4 : Fin 20) ≠ detailPlace d := fun hp => hd (detailPlace_injective (hp.symm : detailPlace d = detailPlace .isoFault))
  have := congrArg (fun b : Bank 20 (BitVec 16) => (b.at (detailPlace d)).getLsbD w) e
  simpa [Halter.has, Bank.at_put, hp] using this

theorem Halter.has_mark_self (h : Halter) (d : Detail) (w : Fin 16) (v : Bool) : (h.mark d w.val v).has d w.val = v := by
  unfold Halter.has Halter.mark
  rw [Bank.at_upd_self, putBit_getLsbD _ _ _ _ w.isLt, if_pos rfl]

theorem Halter.has_mark_of_ne (h : Halter) {d e : Detail} (hd : d ≠ e) (w v : Nat) (x : Bool) : (h.mark d w x).has e v = h.has e v := by
  have hp : detailPlace d ≠ detailPlace e := fun hp => hd (detailPlace_injective hp)
  simp [Halter.has, Halter.mark, Bank.at_upd, hp]

/-- A detail that arises and is not momentary is present, and locks the halter out (08 R248, R250). -/
theorem State.raiseDetail_has (s : State) {d : Detail} (w : Fin 16) (hd : detailMomentary d = false) (hiso : d ≠ .isoFault) :
    (s.raiseDetail d w).halter.has d w.val = true ∧ (s.raiseDetail d w).halter.lockout = true ∧
    (s.raiseDetail d w).halter.besidesLock = s.halter.besidesLock := by
  obtain ⟨hlock, hpresent, hbesides⟩ := s.raiseDetail_locks w hd
  exact ⟨(Halter.has_of_present hpresent hiso _).trans (s.halter.has_mark_self d w true), hlock, hbesides⟩

/-- A detail that arises leaves the other details but isolation faults. -/
theorem State.raiseDetail_has_of_ne (s : State) {d e : Detail} (w : Fin 16) (hd : detailMomentary d = false) (hne : d ≠ e) (he : e ≠ .isoFault)
    (v : Nat) : (s.raiseDetail d w).halter.has e v = s.halter.has e v :=
  (Halter.has_of_present (s.raiseDetail_locks w hd).2.1 he v).trans (s.halter.has_mark_of_ne hne _ _ _)

theorem Halter.sin_of_besidesLock {h k : Halter} (e : h.besidesLock = k.besidesLock) : h.sin = k.sin := (congrArg Halter.sin e :)
theorem Halter.cfg_of_besidesLock {h k : Halter} (e : h.besidesLock = k.besidesLock) : h.cfg = k.cfg := (congrArg Halter.cfg e :)
theorem Halter.pulse_of_besidesLock {h k : Halter} (e : h.besidesLock = k.besidesLock) : h.pulse = k.pulse := (congrArg Halter.pulse e :)

/-- An EMERGENCY input with an open channel demands, unless it did before (08 R252). -/
theorem State.sinEval_of_open {s : State} {n : Fin 8} (hrole : (s.halter.cfg.sin.at n).role = 1) (hopen : (s.halter.sin.at n).a.closed = false)
    (hdemand : (s.halter.sin.at n).demand = false) :
    s.sinEval n = (s.onHalter (fun h => { h with sin := h.sin.upd n (fun x => { x with demand := true }) })).raiseDetail .sinDemand ⟨n.val, by omega⟩ := by
  have hok : s.halter.sinOk n = false := by simp [Halter.sinOk, hrole, hopen]
  unfold State.sinEval
  simp only [hok, hrole, hopen, hdemand]
  rfl

/-- What the evaluation of an input keeps: the channels and the guard's proof of every input, the demand of every other, the details but its
own demand and isolation faults, and a lock-out (08 R252, R254). -/
theorem State.sinEval_effect (s : State) (n : Fin 8) :
    (∀ m, ((s.sinEval n).halter.sin.at m).a = (s.halter.sin.at m).a ∧ ((s.sinEval n).halter.sin.at m).b = (s.halter.sin.at m).b) ∧
    (∀ m, m ≠ n → (s.sinEval n).halter.sin.at m = s.halter.sin.at m) ∧ (s.sinEval n).halter.cfg = s.halter.cfg ∧
    (∀ d v, d ≠ .sinDemand → d ≠ .isoFault → (s.sinEval n).halter.has d v = s.halter.has d v) ∧
    (s.halter.lockout = true → (s.sinEval n).halter.lockout = true) := by
  unfold State.sinEval
  extract_lets h c x w wanted
  split
  · refine ⟨fun m => ?_, fun m hm => ?_, rfl, fun d v hd _ => ?_, id⟩
    · by_cases e : n = m <;> simp [State.dropDetail, State.onHalter, Halter.mark, Bank.at_upd, e]
    · simp [State.dropDetail, State.onHalter, Halter.mark, Bank.at_upd, Ne.symm hm]
    · exact s.halter.has_mark_of_ne (Ne.symm hd) _ _ _
  · split
    · obtain ⟨-, hlock, hb⟩ := (s.onHalter (fun h => { h with
        sin := h.sin.upd n (fun x => { x with demand := true }) })).raiseDetail_has (d := .sinDemand) w rfl (by decide)
      refine ⟨fun m => ?_, fun m hm => ?_, (Halter.cfg_of_besidesLock hb :), fun d v hd hi => ?_, fun _ => hlock⟩
      · rw [Halter.sin_of_besidesLock hb]
        by_cases e : n = m <;> simp [State.onHalter, Bank.at_upd, e]
      · rw [Halter.sin_of_besidesLock hb]
        simp [State.onHalter, Bank.at_upd, Ne.symm hm]
      · exact State.raiseDetail_has_of_ne _ w rfl (Ne.symm hd) hi v
    · exact ⟨fun _ => ⟨rfl, rfl⟩, fun _ _ => rfl, rfl, fun _ _ _ _ => rfl, id⟩

theorem exec_safetyInputChange (n : Fin 8) (b v : Bool) (s : State) : exec (.safetyInputChange n b v) s = execSafetyInputChange n b v s := rfl

/-- Channel A of an input opens: its input is evaluated with that channel open (08 R252). -/
theorem exec_safetyInputChange_open {n : Fin 8} {s : State} (hclosed : (s.halter.sin.at n).a.closed = true) : ∃ u : State,
    exec (.safetyInputChange n false false) s = answer s (u.sinEval n) ∧
    (u.halter.sin.at n).a = { (s.halter.sin.at n).a with closed := false, openedAt := s.now } ∧
    (u.halter.sin.at n).demand = (s.halter.sin.at n).demand ∧ (∀ m, m ≠ n → u.halter.sin.at m = s.halter.sin.at m) ∧
    u.halter.cfg = s.halter.cfg := by
  rw [exec_safetyInputChange]
  unfold execSafetyInputChange
  dsimp only
  rw [if_neg (by simp [hclosed])]
  refine ⟨_, rfl, ?_⟩
  cases hb : (s.halter.sin.at n).b.closed
  · refine ⟨?_, ?_, fun m hm => ?_, ?_⟩
    · simp [State.onSin, State.onHalter, SinChan.turn, hb]
    · simp [State.onSin, State.onHalter, SinChan.turn, hb]
    · simp [State.onSin, State.onHalter, SinChan.turn, hb, Bank.at_upd, Ne.symm hm]
    · simp [State.onSin, State.onHalter, SinChan.turn, hb]
  · refine ⟨?_, ?_, fun m hm => ?_, ?_⟩
    · simp [State.onSin, State.onHalter, SinChan.turn, hb]
    · simp [State.onSin, State.onHalter, SinChan.turn, hb]
    · simp [State.onSin, State.onHalter, SinChan.turn, hb, Bank.at_upd, Ne.symm hm]
    · simp [State.onSin, State.onHalter, SinChan.turn, hb]

theorem exec_safetyInputChange_same {n : Fin 8} {b v : Bool} {s : State}
    (h : (if b then (s.halter.sin.at n).b.closed else (s.halter.sin.at n).a.closed) = v) :
    exec (.safetyInputChange n b v) s = answer s s := by
  rw [exec_safetyInputChange]
  unfold execSafetyInputChange
  dsimp only
  rw [if_pos h]

/-- A pulse of output `TPOk` remembers which of its channels read closed (08 R253). -/
theorem exec_sinTestPulse (k : Fin 4) (s : State) : exec (.sinTestPulse k) s = answer s ((s.emit (.tpo k)).onHalter (fun h => { h with
    sin := h.sin.each (fun n x =>
      if (h.cfg.sin.at n).pulsed then
        { x with
          a := if (h.cfg.sin.at n).tpoA.toNat = k.val then { x.a with wasClosed := x.a.closed } else x.a
          b := if (h.cfg.sin.at n).tpoB.toNat = k.val then { x.b with wasClosed := x.b.closed } else x.b }
      else x) })) := rfl

theorem exec_sinTestPulseJudge (k : Fin 4) (read : Bank 16 PulseReading) (s : State) :
    exec (.sinTestPulseJudge k read) s = answer s ((places 8).foldl (fun s n => s.judgeSin k read n) s) := rfl

theorem State.judgeSin_of_unpulsed {s : State} {k : Fin 4} {read : Bank 16 PulseReading} {m : Fin 8}
    (h : (s.halter.cfg.sin.at m).pulsed = false) : s.judgeSin k read m = s := by
  unfold State.judgeSin
  simp [h]

/-- Where one input alone is pulsed, the judgement is its own. -/
theorem State.foldl_judgeSin_of_single {k : Fin 4} {read : Bank 16 PulseReading} {n : Fin 8} {l : List (Fin 8)} {s : State}
    (hmem : n ∈ l) (hnodup : l.Nodup) (hpulsed : ∀ m, m ≠ n → (s.halter.cfg.sin.at m).pulsed = false)
    (hcfg : (s.judgeSin k read n).halter.cfg = s.halter.cfg) :
    l.foldl (fun s n => s.judgeSin k read n) s = s.judgeSin k read n := by
  induction l with
  | nil => exact absurd hmem List.not_mem_nil
  | cons m l ih =>
    obtain ⟨hm, hl⟩ := List.nodup_cons.mp hnodup
    rw [List.foldl_cons]
    by_cases e : m = n
    · subst e
      refine List.foldlRecOn l _ (motive := fun t => t = s.judgeSin k read m) rfl fun t ht j hj => ?_
      subst ht
      exact State.judgeSin_of_unpulsed (by rw [hcfg]; exact hpulsed j fun e => hm (e ▸ hj))
    · rw [State.judgeSin_of_unpulsed (hpulsed m e)]
      exact ih ((List.mem_cons.mp hmem).resolve_left (Ne.symm e)) hl

/-- The judgement of an input whose channel A the output feeds: the channel is judged, the other inputs stay, a bad channel makes SIN_TP present,
and the input is evaluated (08 R253). -/
theorem State.judgeSin_effect {s : State} {k : Fin 4} {read : Bank 16 PulseReading} {n : Fin 8}
    (hpulsed : (s.halter.cfg.sin.at n).pulsed = true) (hk : (s.halter.cfg.sin.at n).tpoA.toNat = k.val) : ∃ u : State,
    s.judgeSin k read n = u.sinEval n ∧ u.halter.cfg = s.halter.cfg ∧
    (u.halter.sin.at n).a = (s.halter.sin.at n).a.judged (s.halter.sin.at n).demand (read.at ⟨2 * n.val, by omega⟩) ∧
    (∀ m, m ≠ n → u.halter.sin.at m = s.halter.sin.at m) ∧
    ((u.halter.sin.at n).a.tpBad = true → u.halter.has .sinTp n.val = true) := by
  unfold State.judgeSin
  extract_lets c s1 x w s2
  rw [if_pos hpulsed]
  have hcfg1 : s1.halter.cfg = s.halter.cfg := rfl
  have ha1 : (s1.halter.sin.at n).a = (s.halter.sin.at n).a.judged (s.halter.sin.at n).demand (read.at ⟨2 * n.val, by omega⟩) := by
    simp [s1, State.onSin, State.onHalter, c, hk]
  have hm1 : ∀ m, m ≠ n → s1.halter.sin.at m = s.halter.sin.at m := fun m hm => by
    simp [s1, State.onSin, State.onHalter, Bank.at_upd, Ne.symm hm]
  clear_value s1
  have h2 : s2.halter.sin = s1.halter.sin ∧ s2.halter.cfg = s1.halter.cfg ∧ ((s1.halter.sin.at n).a.tpBad = true → s2.halter.has .sinTp n.val = true) := by
    unfold s2
    split
    · split
      · next hhas => exact ⟨rfl, rfl, fun _ => hhas⟩
      · obtain ⟨hhas, -, hb⟩ := s1.raiseDetail_has (d := .sinTp) w rfl (by decide)
        exact ⟨Halter.sin_of_besidesLock hb, Halter.cfg_of_besidesLock hb, fun _ => hhas⟩
    · next hbad => exact ⟨rfl, rfl, fun h => absurd (by simp [x, h]) hbad⟩
  obtain ⟨hsin, hcfg, hhas⟩ := h2
  exact ⟨s2, rfl, hcfg.trans hcfg1, by rw [hsin, ha1], fun m hm => by rw [hsin, hm1 m hm], by rw [hsin]; exact hhas⟩

/-- The judgement of a pulse that one input alone takes part in. -/
theorem exec_sinTestPulseJudge_single {k : Fin 4} {n : Fin 8} {read : Bank 16 PulseReading} {s : State}
    (hothers : ∀ m, m ≠ n → (s.halter.cfg.sin.at m).pulsed = false) (hpulsed : (s.halter.cfg.sin.at n).pulsed = true)
    (hk : (s.halter.cfg.sin.at n).tpoA.toNat = k.val) : ∃ t : State, exec (.sinTestPulseJudge k read) s = answer s t ∧
    (t.halter.sin.at n).a = (s.halter.sin.at n).a.judged (s.halter.sin.at n).demand (read.at ⟨2 * n.val, by omega⟩) ∧
    (∀ m, m ≠ n → t.halter.sin.at m = s.halter.sin.at m) ∧ t.halter.cfg = s.halter.cfg ∧
    ((t.halter.sin.at n).a.tpBad = true → t.halter.has .sinTp n.val = true) := by
  obtain ⟨u, hu, hcfg, ha, hm, hhas⟩ := State.judgeSin_effect (read := read) hpulsed hk
  obtain ⟨hab, hne, hcfg', hd, -⟩ := u.sinEval_effect n
  refine ⟨u.sinEval n, ?_, by rw [(hab n).1, ha], fun m h => by rw [hne m h, hm m h], hcfg'.trans hcfg, fun h => ?_⟩
  · rw [exec_sinTestPulseJudge, State.foldl_judgeSin_of_single (l := places 8) (List.mem_finRange n) (List.nodup_finRange 8) hothers (by rw [hu, hcfg', hcfg]), hu]
  · rw [hd .sinTp n.val (by decide) (by decide)]
    exact hhas (by rwa [(hab n).1] at h)

theorem Halter.sinOk_of_tp {h : Halter} {n : Fin 8} (hrole : (h.cfg.sin.at n).role ≠ 0) (htp : h.has .sinTp n.val = true) :
    h.sinOk n = false := by
  simpa [Halter.sinOk, htp] using hrole

theorem exec_sinDiscrepancy {n : Fin 8} {s : State} (hrole : (s.halter.cfg.sin.at n).role ≠ 0)
    (hdiff : (s.halter.sin.at n).a.closed ≠ (s.halter.sin.at n).b.closed) (hnone : s.halter.has .sinDisc n.val = false)
    (hlate : max (s.halter.sin.at n).a.changedAt (s.halter.sin.at n).b.changedAt + 50 * ticksPerMs < s.now) :
    exec (.sinDiscrepancy n) s = answer s ((s.raiseDetail .sinDisc ⟨n.val, by omega⟩).sinEval n) :=
  congrArg (answer s) (if_pos ⟨hrole, hdiff, hnone, hlate⟩)

theorem exec_guardProofExpiry {n : Fin 8} {s : State} (hproven : (s.halter.sin.at n).proven = true) (hh : (s.halter.cfg.sin.at n).proofH ≠ 0)
    (hlate : (s.halter.sin.at n).provenAt + (s.halter.cfg.sin.at n).proofH * 3600000 ≤ s.oph) :
    exec (.guardProofExpiry n) s = answer s ((s.onSin n (fun x => { x with proven := false })).hltEvent 6) :=
  congrArg (answer s) (if_pos ⟨hproven, hh, hlate⟩)

theorem exec_heartbeatWrite (x : View) (v : Word) (s : State) : exec (.heartbeatWrite x v) s = answer s (s.writeHeartbeat x v) := rfl

/-- A valid heartbeat (08 R256). -/
theorem State.writeHeartbeat_of_valid {x : View} {v : Word} {s : State} (h : s.mayBeat x ∧ v.setWidth 8 = s.halter.hb + 1) :
    ∃ t : State, s.writeHeartbeat x v = t ∧ t.halter.hb = s.halter.hb + 1 ∧ t.halter.hbArmed = true ∧ t.halter.hbAt = s.now ∧
    t.halter.hbLate = false ∧ t.halter.badHb = s.halter.badHb ∧ t.halter.lockout = s.halter.lockout ∧ t = { s with halter := t.halter } := by
  unfold State.writeHeartbeat
  dsimp only
  rw [if_pos h]
  split <;> exact ⟨_, rfl, h.2, rfl, rfl, rfl, rfl, rfl, rfl⟩

/-- A write that is no valid heartbeat is counted (08 R256). -/
theorem State.writeHeartbeat_of_invalid {x : View} {v : Word} {s : State} (h : s.mayBeat x = false ∨ v.setWidth 8 ≠ s.halter.hb + 1) :
    (s.writeHeartbeat x v).halter = { s.halter with badHb := satAdd 0xFF s.halter.badHb 1 } := by
  unfold State.writeHeartbeat
  dsimp only
  rw [if_neg (by rintro ⟨hmay, hv⟩; rcases h with h | h <;> simp_all)]
  cases x with
  | host => rfl
  | core c => rfl

theorem exec_heartbeatLate {s : State} (harmed : s.halter.hbArmed = true) (hlate : s.halter.hbAt + 10 * ticksPerMs < s.now) :
    exec .heartbeatLate s = answer s { s with halter := { s.halter with hbLate := true } } :=
  congrArg (answer s) (if_pos ⟨harmed, hlate⟩)

theorem exec_heartbeatLoss {s : State} (harmed : s.halter.hbArmed = true) (hlate : s.halter.hbAt + 60 * ticksPerMs < s.now)
    (hnone : s.halter.has .hbLoss 0 = false) :
    exec .heartbeatLoss s = answer s ((s.onHalter (fun h => { h with hbLate := true, hbRun := 0 })).raiseDetail .hbLoss 0) :=
  congrArg (answer s) (if_pos ⟨harmed, hlate, hnone⟩)

/-- A contactor channel's test pulse (08 R265). -/
theorem exec_contactorTestPulse {j : Fin 12} {s : State} (hen : s.halter.enables ≠ 0) (hbusy : (s.halter.pulse.at j).busy = false)
    (hold : (s.swc.at (conCh j)).cmd = .off ∨ (s.swc.at (conCh j)).onAt + 150 * ticksPerMs ≤ s.now) :
    exec (.contactorTestPulse j) s = answer s ((s.onPulse j (fun p => { p with busy := true, discard := false })).onSwc (conCh j)
      (fun c => { c with pulse := true, pulseDrop := false, out := false })) := by
  refine congrArg (answer s) (if_neg ?_)
  rintro (h | h | h)
  · exact hen h
  · simp [hbusy] at h
  · rcases hold with hold | hold
    · simp [hold] at h
    · simp at h
      omega

theorem State.mayConduct_of_off {s : State} {ch : Fin 24} (h : (s.swc.at ch).cmd = .off) : s.mayConduct ch = false := by
  simp [State.mayConduct, h]

/-- The end of a pulse of a channel that is off: its result is the echo's (08 R265). -/
theorem exec_contactorTestPulseEnd {j : Fin 12} {echo a b : Bool} {s : State} (hbusy : (s.halter.pulse.at j).busy = true)
    (hoff : (s.swc.at (conCh j)).cmd = .off) (hphase : (s.swc.at (conCh j)).phase = .off) (hdrop : (s.swc.at (conCh j)).pulseDrop = false)
    (hen : s.halter.enables ≠ 0) : exec (.contactorTestPulseEnd j echo a b) s =
      answer s (((s.onPulse j (fun p => { p with busy := false })).onSwc (conCh j)
        (fun c => { c with pulse := false, pulseDrop := false })).contactorResult j echo) := by
  have hx : exec (.contactorTestPulseEnd j echo a b) s = execContactorTestPulseEnd j echo a b s := rfl
  rw [hx]
  unfold execContactorTestPulseEnd
  extract_lets ch c wasOn dropped s1 s2
  have hwas : wasOn = false := by simp [wasOn, c, ch, hphase]
  have hd : dropped = false := by simpa [dropped, c, ch, hdrop] using hen
  have hmay : s1.mayConduct ch = false := State.mayConduct_of_off (by simp [s1, State.onPulse, State.onHalter, State.onSwc, ch, hoff])
  have h2 : s2 = s1 := by simp [s2, hmay, hwas]
  rw [if_pos hbusy, if_neg (by simp [hd]), h2, hwas]
  simp [s1, ch]

/-- The second failed pulse in a row makes SWC_TP present (08 R265). -/
theorem State.contactorResult_of_second {s : State} {j : Fin 12} (hrun : (s.halter.pulse.at j).failRun = 1) :
    ((s.contactorResult j false).halter.pulse.at j).failed = true ∧
    (s.contactorResult j false).halter.tpFailCnt = satAdd 0xFFFF s.halter.tpFailCnt 1 ∧
    (s.contactorResult j false).halter.has .swcTp (j.val / 3) = true := by
  unfold State.contactorResult
  rw [if_neg (by decide)]
  extract_lets s1 s2 w
  have hp : (s2.halter.pulse.at j).failed = true ∧ (s2.halter.pulse.at j).failRun = 2 := by
    simp [s2, s1, State.onPulse, State.onHalter, hrun]
  have hcnt : s2.halter.tpFailCnt = satAdd 0xFFFF s.halter.tpFailCnt 1 := rfl
  clear_value s2
  split
  · obtain ⟨hhas, -, hb⟩ := s2.raiseDetail_has (d := .swcTp) w rfl (by decide)
    exact ⟨by rw [Halter.pulse_of_besidesLock hb, hp.1], (congrArg Halter.tpFailCnt hb : _).trans hcnt, hhas⟩
  · next h => exact ⟨hp.1, hcnt, by simpa [hp.2] using h⟩

/-- Settles O35: each safety input, the heartbeat and each pulse in turn. -/
theorem safetyInputsHeartbeatAndPulses : Obligations.SafetyInputsHeartbeatAndPulses := by
  unfold Obligations.SafetyInputsHeartbeatAndPulses
  refine ⟨fun n s hrole hclosed hdemand => ?_, fun n b s => ?_, fun k n s hrole htp hk => ?_, fun k n read s hothers hpulsed hk hwas hread => ?_,
    fun k n read s hothers hpulsed hk hwas hdemand hfail hread => ?_, fun n s hrole hdiff hnone hlate => ?_, fun n s hproven hh hlate => ?_,
    fun v s hv => ?_, fun x v s hbad => ?_, fun s harmed hlate => ?_, fun s harmed hlate hnone => ?_, fun j s hen hbusy hold => ?_,
    fun j a b s hbusy hoff hphase hdrop hen => ?_, fun j a b s hbusy hoff hphase hdrop hen hrun => ?_⟩
  case refine_1 =>
    obtain ⟨u, hexec, ha, hd, hm, hcfg⟩ := exec_safetyInputChange_open hclosed
    rw [State.sinEval_of_open (by rw [hcfg, hrole]) (by rw [ha]) (by rw [hd, hdemand])] at hexec
    obtain ⟨hhas, hlock, hb⟩ := (u.onHalter (fun h => { h with
      sin := h.sin.upd n (fun x => { x with demand := true }) })).raiseDetail_has (d := .sinDemand) ⟨n.val, by omega⟩ rfl (by decide)
    refine answers_of_exec hexec ?_
    simp only [eventInterrupt_frame]
    rw [Halter.sin_of_besidesLock hb]
    refine ⟨?_, ?_, ?_, hhas, hlock, fun m hne => ?_⟩
    · simp [State.onHalter, ha]
    · simp [State.onHalter, ha]
    · simp [State.onHalter]
    · simp [State.onHalter, Bank.at_upd, Ne.symm hne, hm m hne]
  case refine_2 =>
    exact answers_of_exec_of_evt_eq (exec_safetyInputChange_same (by cases b <;> rfl)) rfl rfl
  case refine_3 =>
    have hp : (s.halter.cfg.sin.at n).pulsed = true := by simpa [SinRec.pulsed, htp] using hrole
    exact answers_of_exec_of_evt_eq (exec_sinTestPulse k s) rfl
      ⟨by simp [State.onHalter, State.emit, hp, hk], rfl, rfl⟩
  case refine_4 =>
    obtain ⟨t, hexec, ha, hm, -, -⟩ := exec_sinTestPulseJudge_single (read := read) hothers hpulsed hk
    refine answers_of_exec hexec ?_
    simp only [eventInterrupt_frame]
    rw [ha, hread]
    simp only [SinChan.judged, hwas]
    simp
    exact hm
  case refine_5 =>
    obtain ⟨t, hexec, ha, -, hcfg, htp⟩ := exec_sinTestPulseJudge_single (read := read) hothers hpulsed hk
    have hj : (s.halter.sin.at n).a.judged (s.halter.sin.at n).demand (read.at ⟨2 * n.val, by omega⟩) =
        { (s.halter.sin.at n).a with wasClosed := false, passRun := 0, failRun := 2, tpBad := true } := by
      rw [hread]
      simp [SinChan.judged, hwas, hdemand, hfail]
    have hhas := htp (by rw [ha, hj])
    refine answers_of_exec hexec ?_
    simp only [eventInterrupt_frame]
    refine ⟨by rw [ha, hj], hhas, Halter.sinOk_of_tp (fun h => ?_) hhas⟩
    rw [hcfg] at h
    simp [SinRec.pulsed, h] at hpulsed
  case refine_6 =>
    obtain ⟨hhas, hlock, hb⟩ := s.raiseDetail_has (d := .sinDisc) ⟨n.val, by omega⟩ rfl (by decide)
    obtain ⟨-, -, hcfg, hd, hl⟩ := (s.raiseDetail .sinDisc ⟨n.val, by omega⟩).sinEval_effect n
    have hdisc := (hd .sinDisc n.val (by decide) (by decide)).trans hhas
    refine answers_of_exec (exec_sinDiscrepancy hrole hdiff hnone hlate) ?_
    simp only [eventInterrupt_frame]
    refine ⟨hdisc, hl hlock, ?_⟩
    simpa [Halter.sinOk, hdisc, hcfg, Halter.cfg_of_besidesLock hb] using hrole
  case refine_7 =>
    refine answers_of_exec (exec_guardProofExpiry hproven hh hlate) ?_
    simp only [eventInterrupt_frame]
    exact ⟨by simp [State.hltEvent, State.onSin, State.onHalter], setBit_getLsbD_self _ (by decide), rfl, rfl⟩
  case refine_8 =>
    obtain ⟨t, ht, hrest⟩ := State.writeHeartbeat_of_valid (x := .core 0) (v := v) (s := s) ⟨rfl, hv⟩
    obtain ⟨hhb, harm, hat_, hl, hbad, hlock, hwith⟩ := hrest
    exact answers_of_exec_of_evt_eq ((exec_heartbeatWrite (.core 0) v s).trans (congrArg (answer s) ht)) (by rw [hwith])
      ⟨hhb, harm, hat_, hl, hbad, hlock, hwith⟩
  case refine_9 =>
    refine answers_of_exec (exec_heartbeatWrite x v s) ?_
    simp only [eventInterrupt_frame]
    exact State.writeHeartbeat_of_invalid hbad
  case refine_10 => exact answers_of_exec_of_evt_eq (exec_heartbeatLate harmed hlate) rfl rfl
  case refine_11 =>
    obtain ⟨hhas, hlock, hb⟩ := (s.onHalter (fun h => { h with hbLate := true, hbRun := 0 })).raiseDetail_has (d := .hbLoss) 0 rfl (by decide)
    refine answers_of_exec (exec_heartbeatLoss harmed hlate hnone) ?_
    simp only [eventInterrupt_frame]
    exact ⟨hhas, (congrArg Halter.hbLate hb :), hlock⟩
  case refine_12 =>
    exact answers_of_exec_of_evt_eq (exec_contactorTestPulse hen hbusy hold) rfl
      ⟨by simp [State.onPulse, State.onHalter, State.onSwc], by simp [State.onPulse, State.onHalter, State.onSwc],
        by simp [State.onPulse, State.onHalter, State.onSwc], by simp [State.onPulse, State.onHalter, State.onSwc],
        fun c hc => by simp [State.onPulse, State.onHalter, State.onSwc, Bank.at_upd, Ne.symm hc], rfl⟩
  case refine_13 =>
    exact answers_of_exec_of_evt_eq (exec_contactorTestPulseEnd hbusy hoff hphase hdrop hen) rfl
      ⟨by simp [State.contactorResult, State.onPulse, State.onHalter, State.onSwc],
        by simp [State.contactorResult, State.onPulse, State.onHalter, State.onSwc],
        by simp [State.contactorResult, State.onPulse, State.onHalter, State.onSwc],
        by simp [State.contactorResult, State.onPulse, State.onHalter, State.onSwc], rfl⟩
  case refine_14 =>
    refine answers_of_exec (exec_contactorTestPulseEnd hbusy hoff hphase hdrop hen) ?_
    simp only [eventInterrupt_frame]
    exact State.contactorResult_of_second (by simp [State.onPulse, State.onHalter, State.onSwc, hrun])

end Sys2Proof.Machine
end

section
/-! SUPPORT. What a detail that arises leaves of the halter's event bits (08 R248). -/

namespace Sys2Proof.Machine

@[simp] theorem State.foldl_evt_hlt {α : Type} (l : List α) (f : State → α → State) (h : ∀ t a, (f t a).evt.hlt = t.evt.hlt)
    (s : State) : (l.foldl f s).evt.hlt = s.evt.hlt :=
  List.foldlRecOn l f (motive := fun t => t.evt.hlt = s.evt.hlt) rfl fun _ ht a _ => (h _ a).trans ht

@[simp] theorem State.recorderTakes_hlt (s : State) (q : StbReq) : (s.recorderTakes q).evt.hlt = s.evt.hlt := by
  unfold State.recorderTakes
  repeat' split
  all_goals simp

@[simp] theorem State.studbook_hlt (s : State) (trigger : BitVec 6) (subject : Nat) (detail : List Byte) :
    (s.studbook trigger subject detail).evt.hlt = s.evt.hlt := by
  unfold State.studbook
  split <;> simp

@[simp] theorem State.settleMask_hlt (s : State) (u : Fin 128) : (s.settleMask u).evt.hlt = s.evt.hlt := by
  unfold State.settleMask
  dsimp only
  split <;> simp

@[simp] theorem State.turnOn_hlt (s : State) (ch : Fin 24) : (s.turnOn ch).evt.hlt = s.evt.hlt := by
  unfold State.turnOn
  dsimp only
  repeat' split
  all_goals simp

@[simp] theorem State.turnOff_hlt (s : State) (ch : Fin 24) : (s.turnOff ch).evt.hlt = s.evt.hlt := by
  simp [State.turnOff]

@[simp] theorem State.settleOut_hlt (s : State) (ch : Fin 24) : (s.settleOut ch).evt.hlt = s.evt.hlt := by
  unfold State.settleOut
  dsimp only
  repeat' split
  all_goals simp

@[simp] theorem State.command_hlt (s : State) (ch : Fin 24) (on : Bool) : (s.command ch on).evt.hlt = s.evt.hlt := by
  simp [State.command]

@[simp] theorem State.strEvent_hlt (s : State) (base : Nat) (str : Fin 4) : (s.strEvent base str).evt.hlt = s.evt.hlt := by
  simp [State.strEvent]

@[simp] theorem State.abortShunt_hlt (s : State) (str : Fin 4) : (s.abortShunt str).evt.hlt = s.evt.hlt := by
  unfold State.abortShunt
  dsimp only
  split
  · rfl
  · rw [State.foldl_evt_hlt _ _ (fun t c => by simp)]
    split <;> simp

@[simp] theorem State.stopExcitation_hlt (s : State) (str : Fin 4) : (s.stopExcitation str).evt.hlt = s.evt.hlt := by
  unfold State.stopExcitation
  split
  · exact (State.foldl_evt_hlt _ _ (fun t u => by simp) _).trans (by simp)
  · rfl

@[simp] theorem State.enterStr_hlt (s : State) (str : Fin 4) (new : StrState) (cause : Nat) (stamp : BitVec 32) :
    (s.enterStr str new cause stamp).evt.hlt = s.evt.hlt := by
  unfold State.enterStr
  extract_lets old s1 s2 s3 s4 s5 s6 s7 s8
  have h3 : s3.evt.hlt = s.evt.hlt := by
    unfold s3
    split <;> simp [s2, s1]
  have h4 : s4.evt.hlt = s.evt.hlt := by
    unfold s4
    split <;> simp [h3]
  have h5 : s5.evt.hlt = s.evt.hlt := by
    unfold s5
    split <;> simp [h4]
  have h8 : s8.evt.hlt = s.evt.hlt := by simp [s8, s7, s6, h5]
  split
  · exact h8
  · exact h5

@[simp] theorem State.cmdContactor_hlt (s : State) (str : Fin 4) (k : Fin 3) (on : Bool) : (s.cmdContactor str k on).evt.hlt = s.evt.hlt := by
  unfold State.cmdContactor
  dsimp only
  repeat' split
  all_goals simp

@[simp] theorem State.withdraw_hlt (s : State) (str : Fin 4) : (s.withdraw str).evt.hlt = s.evt.hlt := by
  simp [State.withdraw]

@[simp] theorem State.closeRefused_hlt (s : State) (str : Fin 4) (code d3 : Nat) : (s.closeRefused str code d3).evt.hlt = s.evt.hlt := by
  unfold State.closeRefused
  split <;> simp

@[simp] theorem State.abortPrecharge_hlt (s : State) (str : Fin 4) : (s.abortPrecharge str).evt.hlt = s.evt.hlt := by
  unfold State.abortPrecharge
  split <;> simp

@[simp] theorem State.countBreak_hlt (s : State) (str : Fin 4) (i : Option Nat) : (s.countBreak str i).evt.hlt = s.evt.hlt := by
  unfold State.countBreak
  dsimp only
  repeat' split
  all_goals simp

@[simp] theorem State.openDone_hlt (s : State) (str : Fin 4) (welded : Bool) : (s.openDone str welded).evt.hlt = s.evt.hlt := by
  unfold State.openDone
  exact (State.foldl_evt_hlt _ _ (fun t (p : Cmd × Bool) => by simp) _).trans (by simp)

@[simp] theorem State.weldEval_hlt (s : State) (str : Fin 4) : (s.weldEval str).evt.hlt = s.evt.hlt := by
  unfold State.weldEval
  dsimp only
  repeat' split
  all_goals simp

@[simp] theorem State.weldedEval_hlt (s : State) (str : Fin 4) : (s.weldedEval str).evt.hlt = s.evt.hlt := by
  unfold State.weldedEval
  split <;> simp

@[simp] theorem State.startWeldCheck_hlt (s : State) (str : Fin 4) (cause : Nat) (stamp : BitVec 32) :
    (s.startWeldCheck str cause stamp).evt.hlt = s.evt.hlt := by
  simp [State.startWeldCheck]

@[simp] theorem State.weldPeers_hlt (s : State) : s.weldPeers.evt.hlt = s.evt.hlt := by
  unfold State.weldPeers
  simp

@[simp] theorem State.breakNow_hlt (s : State) (str : Fin 4) (cause : Nat) (i : Option Nat) : (s.breakNow str cause i).evt.hlt = s.evt.hlt := by
  unfold State.breakNow
  dsimp only
  repeat' split
  all_goals simp

@[simp] theorem State.openAllA_hlt (s : State) (cause : Nat) : (s.openAllA cause).evt.hlt = s.evt.hlt := by
  unfold State.openAllA
  exact State.foldl_evt_hlt _ _ (fun t str => by split <;> simp) s

@[simp] theorem State.sendEnables_hlt (s : State) : s.sendEnables.evt.hlt = s.evt.hlt := by
  simp [State.sendEnables]

@[simp] theorem State.sendStatus_hlt (s : State) (sent0 sent1 : Bool) : (s.sendStatus sent0 sent1).evt.hlt = s.evt.hlt := by
  unfold State.sendStatus
  repeat' split
  all_goals simp

end Sys2Proof.Machine
end

section
/-! SUPPORT. The safety telegrams (08 R257 to R262). -/

namespace Sys2Proof.Machine

theorem State.lockOut_hlt (s : State) (d : Detail) (w : Fin 16) : (s.lockOut d w).evt.hlt = setBit s.evt.hlt 0 := by
  simp [State.lockOut, State.hltEvent]

/-- A detail that arises clears no event bit of the halter. -/
theorem State.raiseDetail_hlt {s : State} {i : Nat} (d : Detail) (w : Fin 16) (h : s.evt.hlt.getLsbD i = true) :
    (s.raiseDetail d w).evt.hlt.getLsbD i = true := by
  unfold State.raiseDetail
  extract_lets stood locked s1 s2
  have h1 : s1.evt.hlt.getLsbD i = true := h
  clear_value s1
  have h2 : s2.evt.hlt.getLsbD i = true := by
    unfold s2
    split
    · rw [State.lockOut_hlt, setBit_getLsbD _ (by decide), h1]
      simp
    · split
      · exact h1
      · simpa using h1
  split
  · exact h2
  · exact h2

theorem exec_telegramReceived (n : Fin 2) (b : BitVec 128) (s : State) : exec (.telegramReceived n b) s = execTelegramReceived n b s := rfl

theorem exec_telegramReceived_ignored {n : Fin 2} {b : BitVec 128} {s : State} (h : s.supervises = false ∨ s.tgGood b = false) :
    exec (.telegramReceived n b) s = answer s s :=
  congrArg (answer s) (if_pos (by rcases h with h | h <;> simp [h]))

/-- The other of the two networks. -/
def otherNet (n : Fin 2) : Fin 2 := if n = 0 then 1 else 0

theorem otherNet_eq {n m : Fin 2} (h : m ≠ n) : otherNet n = m := by
  revert n m
  decide

/-- A copy that has no partner yet waits (08 R259). -/
theorem exec_telegramReceived_first {n : Fin 2} {b : BitVec 128} {s : State} (hsup : s.supervises = true) (hgood : s.tgGood b = true)
    (hwait : ∀ m, s.halter.net.wait.at m = none) : exec (.telegramReceived n b) s =
      answer s (s.onNet (fun k => { k with wait := k.wait.put n (some ⟨b, s.now⟩) })) := by
  rw [exec_telegramReceived]
  unfold execTelegramReceived
  rw [if_neg (by simp [hsup, hgood])]
  have hl (m : Fin 2) : s.loneCopy m = s := by simp [State.loneCopy, hwait]
  simp only [hl, hwait]
  simp

/-- A copy whose equal partner waits is an accepted pair (08 R259). -/
theorem exec_telegramReceived_pair {n m : Fin 2} {b : BitVec 128} {at_ : Nat} {s : State} (hm : m ≠ n) (hsup : s.supervises = true)
    (hgood : s.tgGood b = true) (hwait : s.halter.net.wait.at m = some ⟨b, at_⟩) (hat : s.now ≤ at_ + 10 * ticksPerMs) :
    exec (.telegramReceived n b) s = answer s ((s.onNet (fun k => { k with wait := k.wait.put m none })).acceptPair b) := by
  rw [exec_telegramReceived]
  unfold execTelegramReceived
  rw [if_neg (by simp [hsup, hgood])]
  have ho : (if n = 0 then (1 : Fin 2) else 0) = m := otherNet_eq hm
  have hl : s.loneCopy m = s := by
    simp only [State.loneCopy, hwait]
    exact if_neg (Nat.not_lt.mpr hat)
  simp only [ho, hl, hwait]
  simp

/-- The first accepted pair starts the supervision; its details that clear are gone (08 R259 to R261). -/
theorem State.acceptPair_of_first {s : State} (b : BitVec 128) (hstart : s.halter.net.started = false) : ∃ u : State,
    s.acceptPair b = (if (tgByte b 4).getLsbD 0 then u.clearDetail .netDemand
      else if u.halter.has .netDemand 0 then u else u.raiseDetail .netDemand 0).armPermits ((tgByte b 5).setWidth 4) ∧
    u.halter.net = { s.halter.net with
      started := true, lastSeq := b.extractLsb' 16 16, acceptedAt := s.now, run := (tgByte b 4).getLsbD 0, okRun := s.halter.net.okRun + 1 } ∧
    u.halter.lockout = s.halter.lockout ∧ u.halter.has .netDemand 0 = s.halter.has .netDemand 0 ∧ u = { s with halter := u.halter } := by
  unfold State.acceptPair
  rw [if_neg (by simp [hstart])]
  extract_lets struck run s1 s2 s3 s4 _
  have hs : struck = false := by simp [struck, hstart]
  have h2 : s2 = s1.onNet (fun n => { n with okRun := n.okRun + 1 }) := by simp [s2, hs]
  refine ⟨s3, rfl, ?_⟩
  have hk : s3.halter.net = s2.halter.net ∧ s3.halter.lockout = s2.halter.lockout ∧ s3.halter.has .netDemand 0 = s2.halter.has .netDemand 0 ∧
      s3 = { s2 with halter := s3.halter } := by
    unfold s3
    split
    · refine ⟨rfl, rfl, ?_, rfl⟩
      simp [State.clearDetail, State.onHalter, Halter.has, detailPlace, Bank.at_put]
    · exact ⟨rfl, rfl, rfl, rfl⟩
  clear_value s3
  obtain ⟨hnet, hlock, hhas, hrest⟩ := hk
  rw [hnet, hlock, hhas, hrest, h2]
  exact ⟨rfl, rfl, rfl, rfl⟩

theorem State.armPermits_effect (s : State) (bits : BitVec 4) :
    (s.armPermits bits).halter.net = { s.halter.net with permitRef := some bits, permit := (s.armPermits bits).halter.net.permit } ∧
    s.armPermits bits = { s with halter := { s.halter with net := (s.armPermits bits).halter.net } } := by
  unfold State.armPermits
  split <;> exact ⟨rfl, rfl⟩

/-- A strike is counted and shown; before the supervision starts it is not judged (08 R259). -/
theorem State.strike_effect (s : State) :
    s.strike.halter.net.strikes = satAdd 0xFFFF s.halter.net.strikes 1 ∧ s.strike.halter.net.wait = s.halter.net.wait ∧
    s.strike.evt.hlt.getLsbD 5 = true ∧ (s.halter.net.started = false → s.strike.halter.lockout = s.halter.lockout) := by
  unfold State.strike
  extract_lets s1 s2
  have h1 : s1.evt.hlt.getLsbD 5 = true := setBit_getLsbD_self _ (by decide)
  have hs : s1.halter.net.started = s.halter.net.started := rfl
  split
  · next hstart =>
    have h2 : s2.halter.net.strikes = satAdd 0xFFFF s.halter.net.strikes 1 ∧ s2.halter.net.wait = s.halter.net.wait ∧
        s2.evt.hlt.getLsbD 5 = true := ⟨rfl, rfl, h1⟩
    clear_value s2
    have hno : ¬s.halter.net.started = false := by simp [← hs, hstart]
    obtain ⟨hstrikes, hwait, hevt⟩ := h2
    split
    · obtain ⟨-, -, hb⟩ := s2.raiseDetail_has (d := .netStrikes) 0 rfl (by decide)
      have hk : (s2.raiseDetail .netStrikes 0).halter.net.strikes = s2.halter.net.strikes := (congrArg (fun h : Halter => h.net.strikes) hb :)
      have hw : (s2.raiseDetail .netStrikes 0).halter.net.wait = s2.halter.net.wait := (congrArg (fun h : Halter => h.net.wait) hb :)
      exact ⟨hk.trans hstrikes, hw.trans hwait, State.raiseDetail_hlt _ _ hevt, fun h => absurd h hno⟩
    · exact ⟨hstrikes, hwait, hevt, fun h => absurd h hno⟩
  · exact ⟨rfl, rfl, h1, fun _ => rfl⟩

theorem exec_telegramPairTimeout_late {n : Fin 2} {w : TgCopy} {s : State} (hw : s.halter.net.wait.at n = some w)
    (hlate : w.at_ + 10 * ticksPerMs < s.now) :
    exec (.telegramPairTimeout n) s = answer s (s.onNet (fun k => { k with wait := k.wait.put n none })).strike := by
  have hx : exec (.telegramPairTimeout n) s = answer s (s.loneCopy n) := rfl
  rw [hx, State.loneCopy, hw]
  exact congrArg (answer s) (if_pos hlate)

theorem exec_telegramPairTimeout_none {n : Fin 2} {s : State} (hw : s.halter.net.wait.at n = none) :
    exec (.telegramPairTimeout n) s = answer s s := by
  have hx : exec (.telegramPairTimeout n) s = answer s (s.loneCopy n) := rfl
  rw [hx, State.loneCopy, hw]

theorem exec_netLoss {s : State} (hsup : s.supervises = true) (hstart : s.halter.net.started = true)
    (hlate : s.halter.net.acceptedAt + 50 * ticksPerMs ≤ s.now) (hnone : s.halter.has .netLoss 0 = false) :
    exec .netLoss s = answer s ((s.onNet (fun n => { n with okRun := 0 })).raiseDetail .netLoss 0) :=
  congrArg (answer s) (if_pos ⟨hsup, hstart, hlate, hnone⟩)

theorem exec_statusTelegram {s : State} {a b : Bool} (hisl : s.isl.halter = true) (hquiet : s.halter.quiet = false) :
    exec (.statusTelegram a b) s = answer s (s.sendStatus a b) :=
  congrArg (answer s) (if_pos (by simp [hisl, hquiet]))

theorem exec_closePermitExpiry {str : Fin 4} {u : Nat} {s : State} (hp : s.halter.net.permit.at str = some u) (hu : u ≤ s.now) :
    exec (.closePermitExpiry str) s = answer s (s.onNet (fun n => { n with permit := n.permit.put str none })) := by
  have hx : exec (.closePermitExpiry str) s = execClosePermitExpiry str s := rfl
  rw [hx, execClosePermitExpiry, hp]
  exact congrArg (answer s) (if_pos hu)

theorem bvBytes_length (n : Nat) {w : Nat} (v : BitVec w) : (bvBytes n v).length = n := Laws.leBytes_length n _

/-- A status telegram has 16 bytes (08 R258). -/
theorem telegramBytes_statusPayload_length (s : State) (tg seq : BitVec 16) (ytime : Nat) :
    (telegramBytes tg seq s.statusPayload ytime).length = 16 := by
  simp [telegramBytes, withCrc32c, State.statusPayload, bvBytes_length, Laws.leBytes_length]

/-- Settles O36: what each copy of a telegram, its timeout and the status telegram do. -/
theorem safetyTelegrams : Obligations.SafetyTelegrams := by
  unfold Obligations.SafetyTelegrams
  refine ⟨fun n b s hsup hgood hwait => ?_, fun n b s h => ?_, fun n m b at_ s hm hsup hgood hwait hat hstart hrun => ?_,
    fun n m b at_ s hm hsup hgood hwait hat hstart hrun => ?_, fun n w s hw hlate => ?_, fun n s hw => ?_,
    fun s hsup hstart hlate hnone => ?_, fun s hisl hquiet => ?_, fun str u s hp hu => ?_⟩
  case refine_1 =>
    exact answers_of_exec_of_evt_eq (exec_telegramReceived_first hsup hgood hwait) rfl ⟨by simp [State.onNet, State.onHalter], rfl, rfl⟩
  case refine_2 => exact answers_of_exec_of_evt_eq (exec_telegramReceived_ignored h) rfl rfl
  case refine_3 =>
    have hexec := exec_telegramReceived_pair hm hsup hgood hwait hat
    obtain ⟨u, hu, hnet, hlock, hhas, hrest⟩ :=
      (s.onNet (fun k => { k with wait := k.wait.put m none })).acceptPair_of_first b hstart
    rw [if_pos hrun] at hu
    obtain ⟨hpnet, hprest⟩ := (u.clearDetail .netDemand).armPermits_effect ((tgByte b 5).setWidth 4)
    rw [← hu] at hpnet hprest
    refine answers_of_exec_of_evt_eq hexec ?_ ?_
    · rw [hprest, State.clearDetail, hrest]
      rfl
    · have hn : (u.clearDetail .netDemand).halter.net = u.halter.net := rfl
      rw [hn, hnet] at hpnet
      rw [hpnet]
      refine ⟨rfl, hrun, rfl, rfl, ?_, rfl, ?_, rfl, ?_, ?_⟩
      · simp [State.onNet, State.onHalter]
      · rw [hprest]
        simp [State.clearDetail, State.onHalter, Halter.has]
      · rw [hprest]
        exact hlock
      · rw [hprest, State.clearDetail, hrest]
        rfl
  case refine_4 =>
    have hexec := exec_telegramReceived_pair hm hsup hgood hwait hat
    obtain ⟨u, hu, hnet, hlock, hhas, hrest⟩ :=
      (s.onNet (fun k => { k with wait := k.wait.put m none })).acceptPair_of_first b hstart
    rw [if_neg (by rw [hrun]; decide)] at hu
    have hv : ∃ v : State, (if u.halter.has .netDemand 0 then u else u.raiseDetail .netDemand 0) = v ∧ v.halter.net.run = false ∧
        v.halter.has .netDemand 0 = true ∧ (s.halter.has .netDemand 0 = false → v.halter.lockout = true) := by
      have hr : u.halter.net.run = false := by rw [hnet, ← hrun]
      split
      · next h => exact ⟨u, rfl, hr, h, fun h' => absurd ((hhas.symm.trans h : s.halter.has .netDemand 0 = true).symm.trans h') (by decide)⟩
      · obtain ⟨hd, hl, hb⟩ := u.raiseDetail_has (d := .netDemand) 0 rfl (by decide)
        exact ⟨_, rfl, (congrArg (fun h : Halter => h.net.run) hb :).trans hr, hd, fun _ => hl⟩
    obtain ⟨v, hv, hvrun, hvhas, hvlock⟩ := hv
    rw [hv] at hu
    obtain ⟨hpnet, hprest⟩ := v.armPermits_effect ((tgByte b 5).setWidth 4)
    rw [← hu] at hpnet hprest
    refine answers_of_exec hexec ?_
    simp only [eventInterrupt_frame]
    refine ⟨by rw [hpnet]; exact hvrun, ?_, fun h => ?_⟩
    · rw [hprest]
      exact hvhas
    · rw [hprest]
      exact hvlock h
  case refine_5 =>
    obtain ⟨hstrikes, hwait, hevt, hlock⟩ := (s.onNet (fun k => { k with wait := k.wait.put n none })).strike_effect
    refine answers_of_exec (exec_telegramPairTimeout_late hw hlate) ?_
    simp only [eventInterrupt_frame]
    exact ⟨by rw [hwait]; simp [State.onNet, State.onHalter], hstrikes, hevt, hlock⟩
  case refine_6 => exact answers_of_exec_of_evt_eq (exec_telegramPairTimeout_none hw) rfl rfl
  case refine_7 =>
    obtain ⟨hhas, hlock, -⟩ := (s.onNet (fun n => { n with okRun := 0 })).raiseDetail_has (d := .netLoss) 0 rfl (by decide)
    refine answers_of_exec (exec_netLoss hsup hstart hlate hnone) ?_
    simp only [eventInterrupt_frame]
    exact ⟨hhas, hlock⟩
  case refine_8 =>
    refine answers_of_exec_of_evt_eq (exec_statusTelegram hisl hquiet) rfl
      ⟨rfl, rfl, ⟨_, rfl, telegramBytes_statusPayload_length s _ _ _, ?_⟩, rfl⟩
    simp [State.sendStatus, State.emit, State.onHalter]
  case refine_9 =>
    exact answers_of_exec_of_evt_eq (exec_closePermitExpiry hp hu) rfl
      ⟨by simp [State.onNet, State.onHalter], fun j hj => by simp [State.onNet, State.onHalter, Bank.at_put, Ne.symm hj], rfl⟩

end Sys2Proof.Machine
end

section
/-! SUPPORT. The reset key and the way out of lock-out (08 R267 to R270). -/

namespace Sys2Proof.Machine

/-- Completions change the flights and the ring pairs only (02 R65). -/
theorem State.completeAll_eq_with (s : State) (cs : List Cmd) (x : BitVec 8) (r : BitVec 128) :
    ∃ hif rings, s.completeAll cs x r = { s with hif := hif, rings := rings } := by
  refine List.foldlRecOn cs _ (motive := fun t : State => ∃ hif rings, t = { s with hif := hif, rings := rings }) ⟨s.hif, s.rings, rfl⟩ ?_
  rintro t ⟨hif, rings, rfl⟩ c -
  exact ⟨_, _, State.complete_eq_with _ c x r⟩

/-- The commands of a press that is refused complete; they leave the press (08 R268, R270). -/
theorem State.pressRefused_eq_with (s : State) (code d3 : Nat) : ∃ hif rings, s.pressRefused code d3 =
    { s with hif := hif, rings := rings, halter := { s.halter with key := { s.halter.key with reqs := [] } } } :=
  State.completeAll_eq_with (s.onKey (fun k => { k with reqs := [] })) _ _ _

/-- The key after a press that ends as invalid. -/
def Rstk.invalid (k : Rstk) (why : Nat) : Rstk :=
  { k with press := none, seen := 0, reqs := [], shortCnt := if why = 1 then satAdd 0xFFFF k.shortCnt 1 else k.shortCnt }

theorem State.pressInvalid_short (s : State) : s.pressInvalid 1 =
    ((s.onKey (fun k => { k with press := none, seen := 0 })).onKey (fun k => { k with shortCnt := satAdd 0xFFFF k.shortCnt 1 })).pressRefused
      0x0805 1 := rfl

theorem State.pressInvalid_logged (s : State) {why : Nat} (h : why ≠ 1) : s.pressInvalid why =
    (((s.onKey (fun k => { k with press := none, seen := 0 })).hltEvent (if why = 2 then 2 else 3)).studbook 0x13 0
      [if why = 2 then 1 else 2]).pressRefused 0x0805 why := by
  unfold State.pressInvalid
  dsimp only
  rw [if_neg h]

/-- A press that ends as invalid changes the key, and nothing else of the halter (08 R268). -/
theorem State.pressInvalid_effect (s : State) (why : Nat) :
    (s.pressInvalid why).halter = { s.halter with key := s.halter.key.invalid why } ∧ (s.pressInvalid why).strs = s.strs ∧
    (why ≠ 1 → (s.pressInvalid why).evt.hlt.getLsbD (if why = 2 then 2 else 3) = true) := by
  by_cases hw : why = 1
  · subst hw
    obtain ⟨hif, rings, h⟩ := ((s.onKey (fun k => { k with press := none, seen := 0 })).onKey
      (fun k => { k with shortCnt := satAdd 0xFFFF k.shortCnt 1 })).pressRefused_eq_with 0x0805 1
    rw [State.pressInvalid_short, h]
    exact ⟨rfl, rfl, fun h => absurd rfl h⟩
  · obtain ⟨hif, rings, h⟩ := (((s.onKey (fun k => { k with press := none, seen := 0 })).hltEvent (if why = 2 then 2 else 3)).studbook 0x13 0
      [if why = 2 then 1 else 2]).pressRefused_eq_with 0x0805 why
    rw [State.pressInvalid_logged s hw, h]
    refine ⟨?_, ?_, fun _ => ?_⟩
    · rw [State.studbook_halter]
      simp [State.onKey, State.onHalter, Rstk.invalid, hw, State.hltEvent]
    · simp [State.onKey, State.onHalter, State.hltEvent]
    · simp only [State.studbook_hlt, State.hltEvent]
      split <;> exact setBit_getLsbD_self _ (by decide)

/-- What the end of a press does first (08 R267). -/
def State.keyOpened (s : State) : State :=
  s.onKey (fun k => { k with a := false, b := false, changedAt := s.now, held := false, bothOpenAt := some s.now })

theorem exec_resetKeyPressEnd {b : Bool} {t0 : Nat} {s : State} (hp : s.halter.key.press = some t0) :
    exec (.resetKeyPressEnd b) s = answer s (
      if 5 * ticksPerS ≤ s.now - t0 then s.keyOpened.pressInvalid 2
      else if !b then s.keyOpened.pressInvalid 3
      else if s.now - t0 < 500 * ticksPerMs then s.keyOpened.pressInvalid 1
      else s.keyOpened.pressValid ((s.now - t0) / ticksPerMs)) := by
  have hx : exec (.resetKeyPressEnd b) s = execResetKeyPressEnd b s := rfl
  rw [hx]
  unfold execResetKeyPressEnd
  dsimp only
  rw [hp]
  rfl

/-- A valid press may leave lock-out (08 R269). -/
def Halter.leaves (h : Halter) : Bool :=
  h.lockout && !h.key.disabled && (h.presentWord == 0 && h.key.seen == 0) && (!h.cfg.rstHost || !h.key.reqs.isEmpty)

theorem State.pressValid_leave {s : State} (ms : Nat) (h : s.halter.leaves = true) : s.pressValid ms =
    (((s.onKey (fun k => { k with press := none, seen := 0 })).onKey (fun k => { k with reqs := [] })).lockExit ms).completeAll
      s.halter.key.reqs stSuccess (dwords 1 0 0 0) := by
  unfold State.pressValid
  exact if_pos h

theorem State.pressValid_stay {s : State} (ms : Nat) (h : s.halter.leaves = false) : ∃ code d3, s.pressValid ms =
    ((s.onKey (fun k => { k with press := none, seen := 0 })).hltEvent 4).pressRefused code d3 := by
  unfold State.pressValid
  extract_lets h0 reqs clean leave s1 s2
  have hl : leave = false := h
  rw [if_neg (by simp [hl])]
  split
  · exact ⟨_, _, rfl⟩
  · split <;> exact ⟨_, _, rfl⟩

/-- The halter when lock-out is left (08 R269). -/
def Halter.left (h : Halter) : Halter :=
  Halter.settle { h with lockout := false, aonWord := { h.aonWord with lockout := false }, copyDue := true }

theorem Halter.left_faultA (h : Halter) : h.left.faultA = !h.startupOk := by
  simp [Halter.left, Halter.settle, Halter.safe]

theorem Halter.left_enables (h : Halter) : h.left.enables = if h.startupOk then 0xFFF else 0 := by
  cases hs : h.startupOk <;> simp [Halter.left, Halter.settle, Halter.safe, hs]

theorem State.lockExit_effect (s : State) (ms : Nat) :
    (s.lockExit ms).halter = s.halter.left ∧ (s.lockExit ms).evt.hlt.getLsbD 1 = true ∧ (s.lockExit ms).strs = s.strs ∧
    (s.lockExit ms).swc = s.swc ∧ (s.lockExit ms).hif = s.hif ∧ (s.lockExit ms).rings = s.rings ∧ (s.lockExit ms).clk = s.clk := by
  unfold State.lockExit
  refine ⟨?_, ?_, ?_, ?_, ?_, ?_, ?_⟩
  · rw [State.studbook_halter]
    rfl
  · rw [State.studbook_hlt]
    exact setBit_getLsbD_self _ (by decide)
  · simp [State.hltEvent, State.sendEnables, State.onHalter]
  · simp [State.hltEvent, State.sendEnables, State.onHalter]
  · simp [State.hltEvent, State.sendEnables, State.onHalter]
  · simp [State.hltEvent, State.sendEnables, State.onHalter]
  · simp [State.hltEvent, State.sendEnables, State.onHalter]

theorem exec_resetKeyPressStart {s : State} (hp : s.halter.key.press = none) (hh : s.halter.key.held = false) :
    exec .resetKeyPressStart s = answer s (s.onKey (fun k => { k with
      a := true, b := true, changedAt := s.now, press := some s.now, seen := s.halter.presentWord, disc := false
      reqs := [], bothOpenAt := none })) :=
  congrArg (answer s) (if_neg (by simp [hp, hh]))

theorem exec_rstkHeld {t0 : Nat} {s : State} (hp : s.halter.key.press = some t0) (hlate : t0 + 5 * ticksPerS ≤ s.now) :
    exec .rstkHeld s = answer s ((s.pressInvalid 2).onKey (fun k => { k with held := true })) := by
  have hx : exec .rstkHeld s = execRstkHeld s := rfl
  rw [hx, execRstkHeld, hp]
  exact congrArg (answer s) (if_pos hlate)

theorem exec_rstkDisc (s : State) : exec .rstkDisc s = answer s ((s.pressInvalid 3).onKey (fun k => { k with disc := true })) := rfl

theorem exec_resetEnable {t0 : Nat} {s : State} (hdis : s.halter.key.disabled = true) (hp : s.halter.key.press = none)
    (hopen : s.halter.key.bothOpenAt = some t0) (hlate : t0 + ticksPerS ≤ s.now) : exec .resetEnable s = answer s
      ((s.onKey (fun k => { k with disabled := false, a := false, b := false, held := false, disc := false })).clearDetail .rstkStuck) := by
  have hx : exec .resetEnable s = execResetEnable s := rfl
  rw [hx, execResetEnable]
  dsimp only
  rw [hopen, if_pos (by simp [hdis, hp, hlate])]

/-- What HALTER_RESET_REQ does once it executes (08 R270). -/
theorem exec_halterResetReq {s : State} {c : Cmd} {f : Flight} (h : Executing s c f) : exec (.halterResetReq c) s = answer s (
    if !s.halter.lockout then (s.executing c).refuse c 0x0801
    else if s.halter.key.press.isNone then (s.executing c).refuse c 0x0802
    else if s.halter.presentWord ≠ 0 then (s.executing c).complete c stRefused (dwords 0x0803 (lowestDetail s.halter.presentWord) 0 0)
    else if s.halter.key.disabled then (s.executing c).refuse c 0x0804
    else (s.executing c).onKey (fun k => { k with reqs := k.reqs ++ [c] })) := by
  refine (exec_of_run h rfl).trans (congrArg (answer s) ?_)
  rfl

theorem answers_halterResetReq_refused {s : State} {c : Cmd} {f : Flight} {code : Nat} (h : Executing s c f) (hcode : code < 2 ^ 32)
    (hi : exec (.halterResetReq c) s = answer s ((s.executing c).refuse c code)) :
    Answers (.halterResetReq c) s fun t =>
      Completes s t c f 0x31 (BitVec.ofNat 128 code) ∧ t = { s with hif := t.hif, rings := t.rings } := by
  rw [State.refuse, dwords_one hcode] at hi
  exact answers_only_complete h hi

/-- The press was refused: the command that joined it completes (08 R268). -/
theorem State.pressInvalid_short_completes {s u : State} {c : Cmd} {f : Flight} (hreqs : u.halter.key.reqs = [c])
    (hhif : u.hif = s.hif) (hrings : u.rings = s.rings) (hclk : u.clk = s.clk) (h : Executing s c f) :
    Completes s (u.pressInvalid 1) c f 0x31 (dwords 0x0805 1 0 0) := by
  have he : Ending s u c f :=
    (ending_of_flight h.flight h.same h.enabled h.kept h.tracked).of_eq hhif hrings (congrArg Clk.ytime hclk)
  rw [State.pressInvalid_short, State.pressRefused]
  simp only [State.onKey, State.onHalter, hreqs, State.completeAll, List.foldl_cons, List.foldl_nil]
  refine Ending.completes ?_ _ _
  exact he.of_eq rfl rfl rfl

/-- A press that ends without leaving lock-out keeps it, the enables and the strings (08 R268 to R270). -/
theorem State.pressValid_keeps {s : State} (ms : Nat) (h : s.halter.leaves = false) :
    (s.pressValid ms).halter = { s.halter with key := { s.halter.key with press := none, seen := 0, reqs := [] } } ∧
    (s.pressValid ms).strs = s.strs := by
  obtain ⟨code, d3, hp⟩ := s.pressValid_stay ms h
  obtain ⟨hif, rings, hr⟩ := ((s.onKey (fun k => { k with press := none, seen := 0 })).hltEvent 4).pressRefused_eq_with code d3
  rw [hp, hr]
  exact ⟨rfl, rfl⟩

/-- Why a press does not leave lock-out (08 R268, R269). -/
theorem Halter.leaves_of_fault {h : Halter} (hwhy : h.key.disabled = true ∨ h.presentWord ≠ 0 ∨ h.key.seen ≠ 0 ∨
    (h.cfg.rstHost = true ∧ h.key.reqs = [])) : h.leaves = false := by
  rcases hwhy with hw | hw | hw | ⟨hw, hr⟩
  · simp [Halter.leaves, hw]
  · have hw' : (h.presentWord == 0) = false := by simpa using hw
    rw [Halter.leaves, hw']
    simp
  · have hw' : (h.key.seen == 0) = false := by simpa using hw
    rw [Halter.leaves, hw']
    simp
  · simp [Halter.leaves, hw, hr]

theorem State.keyOpened_leaves {s : State} (hlock : s.halter.lockout = true) (hen : s.halter.key.disabled = false)
    (hpres : s.halter.presentWord = 0) (hseen : s.halter.key.seen = 0) (hreqs : s.halter.key.reqs ≠ []) :
    s.keyOpened.halter.leaves = true := by
  have hword : s.keyOpened.halter.presentWord = s.halter.presentWord := rfl
  simp [Halter.leaves, hword, hpres]
  simp [State.keyOpened, State.onKey, State.onHalter, hlock, hen, hseen, hreqs]

/-- The key after a press that was judged: nothing of the press stands (08 R267). -/
def State.keyTaken (s : State) : State := (s.onKey (fun k => { k with press := none, seen := 0 })).onKey (fun k => { k with reqs := [] })

theorem State.onKey_frame (s : State) (f : Rstk → Rstk) : (s.onKey f).strs = s.strs ∧ (s.onKey f).swc = s.swc ∧ (s.onKey f).hif = s.hif ∧
    (s.onKey f).rings = s.rings ∧ (s.onKey f).clk = s.clk := ⟨rfl, rfl, rfl, rfl, rfl⟩

theorem State.keyTaken_frame (s : State) : s.keyOpened.keyTaken.strs = s.strs ∧ s.keyOpened.keyTaken.swc = s.swc ∧
    s.keyOpened.keyTaken.hif = s.hif ∧ s.keyOpened.keyTaken.rings = s.rings ∧ s.keyOpened.keyTaken.clk = s.clk := by
  simp only [State.keyTaken, State.keyOpened, State.onKey_frame, and_self]

theorem State.keyTaken_startupOk (s : State) : s.keyOpened.keyTaken.halter.startupOk = s.halter.startupOk := rfl

/-- The halter as the way out of lock-out leaves it (08 R268). -/
theorem State.keyTaken_left (s : State) :
    s.keyOpened.keyTaken.halter.left.lockout = false ∧ s.keyOpened.keyTaken.halter.left.aonWord.lockout = false ∧
    s.keyOpened.keyTaken.halter.left.copyDue = true ∧ s.keyOpened.keyTaken.halter.left.faultA = !s.halter.startupOk ∧
    s.keyOpened.keyTaken.halter.left.enables = (if s.halter.startupOk then 0xFFF else 0) ∧
    s.keyOpened.keyTaken.halter.left.key.press = none := by
  rw [Halter.left_faultA, Halter.left_enables, State.keyTaken_startupOk]
  exact ⟨rfl, rfl, rfl, rfl, rfl, rfl⟩

/-- A press of the right length leaves lock-out and ends the command that joined it (08 R268, R270). -/
theorem exec_resetKeyPressEnd_leave {c : Cmd} {t0 : Nat} {s : State} (hp : s.halter.key.press = some t0)
    (hlong : t0 + 500 * ticksPerMs ≤ s.now) (hshort : s.now < t0 + 5 * ticksPerS) (hl : s.keyOpened.halter.leaves = true)
    (hreqs : s.halter.key.reqs = [c]) : exec (.resetKeyPressEnd true) s =
      answer s ((s.keyOpened.keyTaken.lockExit ((s.now - t0) / ticksPerMs)).complete c stSuccess (dwords 1 0 0 0)) := by
  have hlist : s.keyOpened.halter.key.reqs = [c] := hreqs
  rw [exec_resetKeyPressEnd hp, if_neg (by omega), if_neg (by decide), if_neg (by omega), State.pressValid_leave _ hl, hlist]
  rfl

/-- Settles O37: what each end of a press, its timeouts and the command that joins it do. -/
theorem lockOutExit : Obligations.LockOutExit := by
  unfold Obligations.LockOutExit
  refine ⟨fun s hp hh => ?_, fun c f t0 s hexec hp hlong hshort hlock hen hpres hseen hreqs => ?_, fun b t0 s hp hwhy => ?_,
    fun c f t0 s hexec hp hshort hreqs => ?_, fun t0 s hp hlate => ?_, fun s => ?_, fun t0 s hdis hp hopen hlate => ?_,
    fun c f t0 s hexec hlock hp hpres hen => ?_, fun c f s hexec => ⟨fun hlock => ?_, fun hlock hp => ?_⟩⟩
  case refine_1 => exact answers_of_exec_of_evt_eq (exec_resetKeyPressStart hp hh) rfl ⟨rfl, rfl, rfl, rfl, rfl, rfl⟩
  case refine_2 =>
    have hl : s.keyOpened.halter.leaves = true := State.keyOpened_leaves hlock hen hpres hseen (by simp [hreqs])
    have hx := exec_resetKeyPressEnd_leave hp hlong hshort hl hreqs
    generalize (s.now - t0) / ticksPerMs = ms at hx
    obtain ⟨hh, hevt, hstrs, hswc, hhif, hrings, hclk⟩ := s.keyOpened.keyTaken.lockExit_effect ms
    obtain ⟨hstrs', hswc', hhif', hrings', hclk'⟩ := s.keyTaken_frame
    have he : Ending s _ c f := (ending_of_flight hexec.flight hexec.same hexec.enabled hexec.kept hexec.tracked).of_eq
      (hhif.trans hhif') (hrings.trans hrings') (congrArg Clk.ytime (hclk.trans hclk'))
    refine answers_of_exec hx ?_
    have hc := (he.completes stSuccess (dwords 1 0 0 0)).eventInterrupt s
    simp only [eventInterrupt_frame, State.complete_frame, hh, hstrs, hswc]
    obtain ⟨hlockout, hmirror, hcopy, hfault, henables, hpress⟩ := s.keyTaken_left
    exact ⟨hlockout, hmirror, hcopy, hevt, hfault, henables, hpress, hc, hstrs', hswc'⟩
  case refine_3 =>
    refine answers_of_exec (exec_resetKeyPressEnd hp) ?_
    have hinv (why : Nat) : (s.keyOpened.pressInvalid why).halter =
        { s.keyOpened.halter with key := s.keyOpened.halter.key.invalid why } ∧ (s.keyOpened.pressInvalid why).strs = s.strs :=
      ⟨(s.keyOpened.pressInvalid_effect why).1, (s.keyOpened.pressInvalid_effect why).2.1⟩
    simp only [eventInterrupt_frame]
    split
    · rw [(hinv 2).1, (hinv 2).2]
      exact ⟨rfl, rfl, rfl, rfl, rfl, rfl⟩
    · next hlong =>
      split
      · rw [(hinv 3).1, (hinv 3).2]
        exact ⟨rfl, rfl, rfl, rfl, rfl, rfl⟩
      · next hb =>
        split
        · rw [(hinv 1).1, (hinv 1).2]
          exact ⟨rfl, rfl, rfl, rfl, rfl, rfl⟩
        · next hshort =>
          have hl : s.keyOpened.halter.leaves = false := by
            have hpos : 0 < 500 * ticksPerMs ∧ 0 < 5 * ticksPerS := by decide
            rcases hwhy with hw | hw | hw | hw
            · omega
            · omega
            · simp [hw] at hb
            · exact Halter.leaves_of_fault hw
          obtain ⟨hh, hstrs⟩ := State.pressValid_keeps ((s.now - t0) / ticksPerMs) hl
          rw [hh, hstrs]
          exact ⟨rfl, rfl, rfl, rfl, rfl, rfl⟩
  case refine_4 =>
    have hx := exec_resetKeyPressEnd (b := true) hp
    have hd : s.now - t0 < 500 * ticksPerMs := by
      have : 0 < 500 * ticksPerMs := by decide
      omega
    rw [if_neg (by have : 500 * ticksPerMs < 5 * ticksPerS := by decide
                   omega), if_neg (by decide), if_pos hd] at hx
    refine answers_of_exec hx ?_
    have hc := State.pressInvalid_short_completes (s := s) (u := s.keyOpened) hreqs rfl rfl rfl hexec
    obtain ⟨hh, -, -⟩ := s.keyOpened.pressInvalid_effect 1
    exact ⟨by simp only [eventInterrupt_frame, hh]; rfl, hc.eventInterrupt s⟩
  case refine_5 =>
    obtain ⟨hh, -, hevt⟩ := s.pressInvalid_effect 2
    refine answers_of_exec (exec_rstkHeld hp hlate) ?_
    simp only [eventInterrupt_frame, State.onKey, State.onHalter, hh]
    exact ⟨rfl, trivial, hevt (by decide), trivial⟩
  case refine_6 =>
    obtain ⟨hh, -, hevt⟩ := s.pressInvalid_effect 3
    refine answers_of_exec (exec_rstkDisc s) ?_
    simp only [eventInterrupt_frame, State.onKey, State.onHalter, hh]
    exact ⟨rfl, trivial, hevt (by decide), trivial, rfl⟩
  case refine_7 =>
    refine answers_of_exec_of_evt_eq (exec_resetEnable hdis hp hopen hlate) rfl ⟨rfl, ?_, rfl, rfl⟩
    simp [State.clearDetail, State.onKey, State.onHalter, Halter.has]
  case refine_8 =>
    have hx := exec_halterResetReq hexec
    rw [if_neg (by simp [hlock]), if_neg (by simp [hp]), if_neg (by simp [hpres]), if_neg (by simp [hen])] at hx
    exact answers_of_exec_of_evt_eq hx rfl ⟨rfl, executing_flight_same hexec, hlock, rfl⟩
  case refine_9 =>
    have hx := exec_halterResetReq hexec
    rw [if_pos (by simp [hlock])] at hx
    exact answers_halterResetReq_refused hexec (by decide) hx
  case refine_10 =>
    have hx := exec_halterResetReq hexec
    rw [if_neg (by simp [hlock]), if_pos (by simp [hp])] at hx
    exact answers_halterResetReq_refused hexec (by decide) hx

end Sys2Proof.Machine
end

section
/-! SUPPORT. The commands of the switch channels and the test pulses of the general ones (09 R295, R297, R298, R305, R306). -/

namespace Sys2Proof.Machine

/-- Two states that differ in the channel `ch` alone, of the whole state (09). -/
def State.SwcOnly (t s : State) (ch : Fin 24) : Prop :=
  (∀ x, x ≠ ch → t.swc.at x = s.swc.at x) ∧ t = { s with swc := t.swc }

theorem State.SwcOnly.refl (s : State) (ch : Fin 24) : s.SwcOnly s ch := ⟨fun _ _ => rfl, rfl⟩

theorem State.SwcOnly.trans {u t s : State} {ch : Fin 24} (hu : u.SwcOnly t ch) (ht : t.SwcOnly s ch) : u.SwcOnly s ch :=
  ⟨fun x hx => (hu.1 x hx).trans (ht.1 x hx), by rw [hu.2, ht.2]⟩

theorem State.onSwc_only (s : State) (ch : Fin 24) (f : Swc → Swc) : (s.onSwc ch f).SwcOnly s ch :=
  ⟨fun x hx => by simp [State.onSwc, Bank.at_upd, Ne.symm hx], rfl⟩

theorem State.onSwc_at (s : State) (ch : Fin 24) (f : Swc → Swc) : (s.onSwc ch f).swc.at ch = f (s.swc.at ch) := by
  simp [State.onSwc]

@[simp] theorem isCon_genCh (ch : Fin 12) : isCon (genCh ch) = false :=
  decide_eq_false (Nat.not_le.mpr ch.isLt)

@[simp] theorem isCon_conCh (j : Fin 12) : isCon (conCh j) = true := by
  simp [isCon, conCh]

/-- A general channel turns on: its output, its time and its duty (09 R284, R285). -/
theorem State.turnOn_genCh (s : State) (ch : Fin 12) : s.turnOn (genCh ch) = s.onSwc (genCh ch) (fun c => { c with
    out := true, onAt := s.now
    duty := if c.cmd = .constPower then constDuty c.cfg.law c.dRef (s.vbat (genCh ch)) else 255 }) := by
  simp [State.turnOn]

/-- Whether a general channel may conduct, from its own state and its die's dip. -/
theorem State.mayConduct_genCh (s : State) (ch : Fin 12) : s.mayConduct (genCh ch) =
    ((s.swc.at (genCh ch)).cmd != .off && !(s.swc.at (genCh ch)).latched && !(s.swc.at (genCh ch)).wait && !s.dipHeld (genCh ch)) := by
  simp [State.mayConduct]

/-- The output of a general channel follows its command (09 R284): what else the channel holds stays, but the phase, the duty, the limit and the
time it turned on. -/
theorem State.settleOut_genCh (s : State) (ch : Fin 12) :
    (s.settleOut (genCh ch)).SwcOnly s (genCh ch) ∧
    (s.mayConduct (genCh ch) = false → ((s.settleOut (genCh ch)).swc.at (genCh ch)).out = false) ∧
    (s.mayConduct (genCh ch) = true → (s.swc.at (genCh ch)).out = false → (s.swc.at (genCh ch)).pulse = false →
      ((s.settleOut (genCh ch)).swc.at (genCh ch)).out = true) ∧
    ∃ phase duty limit holdLow onAt out, (s.settleOut (genCh ch)).swc.at (genCh ch) =
      { s.swc.at (genCh ch) with phase := phase, duty := duty, limit := limit, holdLow := holdLow, onAt := onAt, out := out } := by
  unfold State.settleOut
  extract_lets c
  split
  · next hmay =>
    split
    · next h =>
      refine ⟨.refl s _, fun h' => ?_, fun _ ho hp => ?_, _, _, _, _, _, _, rfl⟩
      · rw [hmay] at h'
        exact absurd h' (by decide)
      · simp [c, ho, hp] at h
    · rw [State.turnOn_genCh]
      refine ⟨State.onSwc_only _ _ _, fun h' => ?_, fun _ _ _ => by rw [State.onSwc_at], ?_⟩
      · rw [hmay] at h'
        exact absurd h' (by decide)
      · rw [State.onSwc_at]
        exact ⟨_, _, _, _, _, _, rfl⟩
  · next hmay =>
    split
    · refine ⟨State.onSwc_only _ _ _, fun _ => by rw [State.turnOff, State.onSwc_at], fun h => absurd h hmay, ?_⟩
      rw [State.turnOff, State.onSwc_at]
      exact ⟨_, _, _, _, _, _, rfl⟩
    · next ho => exact ⟨.refl s _, fun _ => by simpa [c] using ho, fun h => absurd h hmay, _, _, _, _, _, _, rfl⟩

/-- The mode that SWC_SET asks for (09 R305). -/
def swcMode (mode : Nat) : SwcMode := if mode = 0 then .off else if mode = 1 then .on else .constPower

/-- The duty that a channel takes from its command when it is on. -/
def State.setDuty (s : State) (ch : Fin 24) : State :=
  s.onSwc ch (fun x => if x.out then { x with duty := if x.cmd = .constPower then constDuty x.cfg.law x.dRef (s.vbat ch) else 255 } else x)

/-- What an accepted SWC_SET makes of a general channel (09 R305). -/
def State.commandedSwc (s : State) (ch : Fin 12) (mode dRef : Nat) : State :=
  (((s.onSwc (genCh ch) (fun x => x.commanded (swcMode mode) dRef)).settleOut (genCh ch))).setDuty (genCh ch)

theorem genCh_of_opByte {v : Nat} {ch : Fin 12} (h : v = ch.val) (hlt : v < 12) : genCh ⟨v, hlt⟩ = genCh ch :=
  congrArg genCh (Fin.ext h)

theorem exec_swcSet {s : State} {c : Cmd} {f : Flight} {ch : Fin 12} (h : Executing s c f) (hch : opByte c 0 = ch.val)
    (hmode : opByte c 1 ≤ 2) (href : opByte c 1 = 2 → 1 ≤ opField c 2 2 ∧ opField c 2 2 ≤ 1000) :
    exec (.swcSet c) s = answer s (
      if opByte c 1 ≠ 0 ∧ 150 ≤ (s.swc.at (genCh ch)).tj then (s.executing c).refuse c 0x0902
      else
        let u := (s.executing c).commandedSwc ch (opByte c 1) (opField c 2 2)
        u.ok c (dwords (u.swcStat (genCh ch)).toNat 0 0 0)) := by
  refine (exec_of_run h (body := swcSet c) rfl).trans (congrArg (answer s) ?_)
  unfold swcSet
  dsimp only
  rw [dif_pos (show opByte c 0 < 12 by omega), if_neg (by omega), genCh_of_opByte hch]
  rfl

theorem exec_swcSet_bad {s : State} {c : Cmd} {f : Flight} (h : Executing s c f) (hbad : 12 ≤ opByte c 0 ∨ 2 < opByte c 1) :
    exec (.swcSet c) s = answer s ((s.executing c).badOperand c) := by
  refine (exec_of_run h (body := swcSet c) rfl).trans (congrArg (answer s) ?_)
  unfold swcSet
  dsimp only
  by_cases hc : opByte c 0 < 12
  · rw [dif_pos hc, if_pos (by omega)]
  · rw [dif_neg hc]

theorem State.setDuty_effect (s : State) (ch : Fin 24) : (s.setDuty ch).SwcOnly s ch ∧
    ∃ duty, (s.setDuty ch).swc.at ch = { s.swc.at ch with duty := duty } := by
  refine ⟨State.onSwc_only _ _ _, ?_⟩
  rw [State.setDuty, State.onSwc_at]
  split
  · exact ⟨_, rfl⟩
  · exact ⟨_, rfl⟩

/-- What an accepted SWC_SET leaves and sets of a general channel. -/
theorem State.commandedSwc_effect (s : State) (ch : Fin 12) (mode dRef : Nat) :
    (s.commandedSwc ch mode dRef).SwcOnly s (genCh ch) ∧
    (((s.commandedSwc ch mode dRef).swc.at (genCh ch)).cmd = swcMode mode ∧
      ((s.commandedSwc ch mode dRef).swc.at (genCh ch)).latched = false ∧
      ((s.commandedSwc ch mode dRef).swc.at (genCh ch)).restarts = (if swcMode mode = .off then (s.swc.at (genCh ch)).restarts else []) ∧
      ((s.commandedSwc ch mode dRef).swc.at (genCh ch)).stuckOn = (s.swc.at (genCh ch)).stuckOn) ∧
    (swcMode mode = .off → ((s.commandedSwc ch mode dRef).swc.at (genCh ch)).out = false ∧
      ((s.commandedSwc ch mode dRef).swc.at (genCh ch)).wait = false) := by
  unfold State.commandedSwc
  have h1 := s.onSwc_only (genCh ch) (fun x => x.commanded (swcMode mode) dRef)
  have ha := s.onSwc_at (genCh ch) (fun x => x.commanded (swcMode mode) dRef)
  generalize s.onSwc (genCh ch) (fun x => x.commanded (swcMode mode) dRef) = t at *
  obtain ⟨h2, hoff, -, phase, duty, limit, holdLow, onAt, out, he⟩ := t.settleOut_genCh ch
  obtain ⟨h3, duty', hd⟩ := (t.settleOut (genCh ch)).setDuty_effect (genCh ch)
  refine ⟨h3.trans (h2.trans h1), ?_, fun hm => ⟨?_, ?_⟩⟩
  · rw [hd, he, ha]
    exact ⟨rfl, rfl, rfl, rfl⟩
  · rw [hd]
    exact hoff (by rw [State.mayConduct_genCh, ha]; simp [Swc.commanded, hm])
  · rw [hd, he, ha]
    simp [Swc.commanded, hm]

theorem swcMode_eq_off {mode : Nat} : swcMode mode = .off ↔ mode = 0 := by
  unfold swcMode
  by_cases h0 : mode = 0
  · simp [h0]
  · by_cases h1 : mode = 1 <;> simp [h0, h1]

theorem exec_swcConfig {s : State} {c : Cmd} {f : Flight} {pkg : List Byte} (h : Executing s c f) : exec (.swcConfig c pkg) s = answer s (
    if opByte c 1 = 0 then swcConfig0 c (s.executing c)
    else if opByte c 1 = 1 then swcConfig1 c (s.executing c)
    else if opByte c 1 = 2 then swcConfig2 c pkg (s.executing c)
    else (s.executing c).badOperand c) := by
  refine (exec_of_run h rfl).trans (congrArg (answer s) ?_)
  rfl

/-- The settings of a general channel are stored (09 R306). -/
theorem swcConfig0_eq {s : State} {c : Cmd} {ch : Fin 12} (hch : opByte c 0 = ch.val) (hretry : opByte c 2 ≤ 15)
    (hwin : 1 ≤ opByte c 3 ∧ opByte c 3 ≤ 60) (hlim : 1 ≤ opByte c 4 ∧ opByte c 4 ≤ 100) (hpwm : opByte c 5 ≤ 3) (hlaw : opByte c 6 ≤ 1)
    (hrst : 10 ≤ opField c 8 2 ∧ opField c 8 2 ≤ 1000 ∧ opField c 8 2 % 10 = 0) : swcConfig0 c s =
      (s.onSwc (genCh ch) (fun x => { x with cfg := { x.cfg with
        retryMax := opByte c 2, retryWinS := opByte c 3, limTmoMs := opByte c 4, pwmHz := BitVec.ofNat 2 (opByte c 5)
        law := opByte c 6 == 1, restartMs := opField c 8 2 } })).ok c := by
  unfold swcConfig0
  dsimp only
  rw [dif_pos (show opByte c 0 < 12 by omega), if_neg (by omega), genCh_of_opByte hch]

/-- The settings of a contactor channel are stored, unless its string is held (09 R306). -/
theorem swcConfig1_eq {s : State} {c : Cmd} {j : Fin 12} (hch : opByte c 0 = 12 + j.val) (hecon : opByte c 2 ≤ 1)
    (hma : 500 ≤ opField c 4 2 ∧ opField c 4 2 ≤ 4000) (hms : 20 ≤ opField c 6 2 ∧ opField c 6 2 ≤ 500)
    (hmw : 1000 ≤ opField c 8 2 ∧ opField c 8 2 ≤ 20000) : swcConfig1 c s =
      if s.strHeld (strOfCon j) then s.refuse c 0x0901
      else (s.onSwc (conCh j) (fun x => { x with cfg := { x.cfg with
        econ := opByte c 2 == 1, pullMa := opField c 4 2, pullMs := opField c 6 2, holdMw := opField c 8 2 } })).ok c := by
  have hj : (⟨opByte c 0 - 12, by omega⟩ : Fin 12) = j := Fin.ext (by simp [hch])
  unfold swcConfig1
  dsimp only
  rw [dif_pos (show 12 ≤ opByte c 0 ∧ opByte c 0 < 24 by omega), if_neg (by omega)]
  simp only [hj]
  rfl

/-- A package sets or removes the bypass of channel `ch` (09 R298). -/
def State.bypassOne (s : State) (mask act : Nat) (ch : Fin 12) : State :=
  if mask.testBit ch.val then
    (s.onSwc (genCh ch) (fun x => { x with cfg := { x.cfg with bypass := act == 0 } })).swcEvent (genCh ch)
  else s

theorem genCh_injective {a b : Fin 12} (h : genCh a = genCh b) : a = b := Fin.ext (congrArg (fun x : Fin 24 => x.val) h)

theorem State.bypassOne_bypass (s : State) (mask act : Nat) (ch j : Fin 12) : ((s.bypassOne mask act j).swc.at (genCh ch)).cfg.bypass =
    if mask.testBit ch.val = true ∧ j = ch then act == 0 else (s.swc.at (genCh ch)).cfg.bypass := by
  unfold State.bypassOne
  by_cases e : j = ch
  · subst e
    split <;> simp [State.swcEvent, State.onSwc, *]
  · have hne : genCh j ≠ genCh ch := fun h => e (genCh_injective h)
    split <;> simp [State.swcEvent, State.onSwc, Bank.at_upd, hne, e]

/-- What the package leaves: the flow of the commands, and the bypass of every channel that the mask does not name. -/
theorem State.foldl_bypassOne_effect (mask act : Nat) (l : List (Fin 12)) (s : State) :
    (∃ evt swc, l.foldl (fun s ch => s.bypassOne mask act ch) s = { s with evt := evt, swc := swc }) ∧
    ∀ ch, ((l.foldl (fun s ch => s.bypassOne mask act ch) s).swc.at (genCh ch)).cfg.bypass =
      if mask.testBit ch.val = true ∧ ch ∈ l then act == 0 else (s.swc.at (genCh ch)).cfg.bypass := by
  induction l generalizing s with
  | nil => exact ⟨⟨s.evt, s.swc, rfl⟩, fun ch => by simp⟩
  | cons j l ih =>
    obtain ⟨⟨evt, swc, h⟩, hb⟩ := ih (s.bypassOne mask act j)
    refine ⟨?_, fun ch => ?_⟩
    · rw [List.foldl_cons, h, State.bypassOne]
      split
      · exact ⟨_, _, rfl⟩
      · exact ⟨_, _, rfl⟩
    · rw [List.foldl_cons, hb ch, State.bypassOne_bypass]
      by_cases e : j = ch
      · subst e
        by_cases hm : mask.testBit j.val = true <;> simp [hm]
      · by_cases hm : mask.testBit ch.val = true <;> simp [hm, e, Ne.symm e]

/-- An owner-signed package that is in order changes the bypasses (09 R298, R306). -/
theorem swcConfig2_eq {s : State} {c : Cmd} {pkg : List Byte} (hlen : opField c 0x10 4 = 96) (hpkg : pkg.length = 96)
    (hhead : packageHead 0x4402 pkg = true) (hmask : field pkg 0x10 2 ≠ 0) (hmask' : field pkg 0x10 2 < 4096) (hact : field pkg 0x12 1 ≤ 1)
    (hzero : zeroBytes pkg 0x13 0x20 = true) (hsigned : packageSigned s.sec.owner pkg = true) (hseq : s.swctl.seq.toNat < field pkg 4 4) :
    ∃ u : State, swcConfig2 c pkg s = u.ok c (dwords u.bypassMask 0 0 0) ∧ u.hif = s.hif ∧ u.rings = s.rings ∧ u.clk = s.clk ∧
      u.swctl.seq = BitVec.ofNat 32 (field pkg 4 4) ∧ ∀ ch : Fin 12, (u.swc.at (genCh ch)).cfg.bypass =
        if (field pkg 0x10 2).testBit ch.val then field pkg 0x12 1 == 0 else (s.swc.at (genCh ch)).cfg.bypass := by
  unfold swcConfig2
  extract_lets mask act seq _ s1 s2 s3
  rw [if_neg (by simp [hlen, hpkg, hhead, hmask, hzero, mask, act]; omega), if_neg (by simp [hsigned]), if_neg (Nat.not_le.mpr hseq)]
  have h2 : s2 = (places 12).foldl (fun s ch => s.bypassOne mask act ch) s1 := rfl
  have hmem (ch : Fin 12) : ch ∈ places 12 := List.mem_finRange ch
  generalize places 12 = l at h2 hmem
  obtain ⟨⟨evt, swc, hw⟩, hb⟩ := State.foldl_bypassOne_effect mask act l s1
  rw [← h2] at hw hb
  refine ⟨s3, rfl, ?_, ?_, ?_, ?_, fun ch => ?_⟩
  · simp [s3, hw, s1]
  · simp [s3, hw, s1]
  · simp [s3, hw, s1]
  · simp [s3, hw, s1, seq]
  · have hs : s3.swc = s2.swc := by simp [s3]
    rw [hs, hb ch]
    simp [hmem, mask, act, s1]

theorem exec_generalTestPulse (ch : Fin 12) (s : State) : exec (.generalTestPulse ch) s = answer s (if s.pulseDue ch then
    s.onSwc (genCh ch) (fun c => { c with pulse := true, pulseDrop := false, out := false }) else s) := rfl

/-- A pulse of a channel that may conduct ends and is judged (09 R297). -/
theorem exec_generalTestPulseEnd {ch : Fin 12} {fell : Bool} {s : State} (hp : (s.swc.at (genCh ch)).pulse = true)
    (hdrop : (s.swc.at (genCh ch)).pulseDrop = false) (hmay : s.mayConduct (genCh ch) = true) :
    exec (.generalTestPulseEnd ch fell) s = answer s ((s.onSwc (genCh ch) (fun c => { c with
      pulse := false, out := true, pulseDrop := false })).pulseResult ch fell) := by
  have hx : exec (.generalTestPulseEnd ch fell) s = execGeneralTestPulseEnd ch fell s := rfl
  have hm : (s.onSwc (genCh ch) (fun c => { c with pulse := false, out := true, pulseDrop := false })).mayConduct (genCh ch) = true := by
    rw [State.mayConduct_genCh, State.onSwc_at]
    rwa [State.mayConduct_genCh] at hmay
  rw [hx]
  unfold execGeneralTestPulseEnd
  dsimp only
  rw [if_pos hp]
  simp only [hmay, hdrop, hm]
  simp

theorem State.pulseResult_fell {s : State} {ch : Fin 12} (hb : (s.swc.at (genCh ch)).cfg.bypass = false) : s.pulseResult ch true =
    s.onSwc (genCh ch) (fun c => { c with failRun := 0, stuckOn := c.stuckOn && !c.stuckNew, stuckNew := false }) := by
  unfold State.pulseResult
  dsimp only
  rw [if_neg (by simp [hb]), if_pos rfl]

@[simp] theorem State.studbook_evt_swc (s : State) (t : BitVec 6) (n : Nat) (d : List Byte) : (s.studbook t n d).evt.swc = s.evt.swc := by
  unfold State.studbook State.recorderTakes
  dsimp only
  repeat' split
  all_goals rfl

/-- The second failure in a row sets STUCK_ON and commands the channel OFF (09 R297). -/
theorem State.pulseResult_stuck {s : State} {ch : Fin 12} (hb : (s.swc.at (genCh ch)).cfg.bypass = false)
    (hrun : (s.swc.at (genCh ch)).failRun = 1) :
    ((s.pulseResult ch false).swc.at (genCh ch)).stuckOn = true ∧ ((s.pulseResult ch false).swc.at (genCh ch)).cmd = .off ∧
    ((s.pulseResult ch false).swc.at (genCh ch)).out = false ∧ (s.pulseResult ch false).evt.swc.getLsbD ch.val = true ∧
    ∀ x, x ≠ genCh ch → (s.pulseResult ch false).swc.at x = s.swc.at x := by
  unfold State.pulseResult
  extract_lets g s1 s2
  rw [if_neg (by simp [hb, g]), if_neg (by decide), if_neg (by simp [s1, g, State.onSwc_at, hrun])]
  have h2 : s2.SwcOnly s g := (State.onSwc_only _ _ _).trans (State.onSwc_only _ _ _)
  have ha : (s2.swc.at g).stuckOn = true ∧ (s2.swc.at g).cmd = .off := by
    simp only [s2, State.onSwc_at, and_self]
  clear_value s2
  obtain ⟨h4, hoff, -, phase, duty, limit, holdLow, onAt, out, he⟩ := s2.settleOut_genCh ch
  have hswc : (((s2.settleOut g).swcEvent g).studbook 0x22 ch.val []).swc = (s2.settleOut g).swc := by simp [State.swcEvent]
  rw [hswc]
  refine ⟨?_, ?_, hoff ?_, ?_, fun x hx => (h4.trans h2).1 x hx⟩
  · rw [he]
    exact ha.1
  · rw [he]
    exact ha.2
  · rw [State.mayConduct_genCh, ha.2]
    rfl
  · rw [State.studbook_evt_swc]
    exact setBit_getLsbD_self _ (by have := ch.isLt; omega)

/-- Settles O38. -/
theorem switchCommandsAndTestPulses : Obligations.SwitchCommandsAndTestPulses := by
  unfold Obligations.SwitchCommandsAndTestPulses
  refine ⟨fun c f ch s hexec hch hmode href hcool => ?_, fun c f ch s hexec hch hmode hhot => ?_, fun c f s hexec hbad => ?_,
    fun c f pkg ch s hexec hfunc hch h2 h3 h3' h4 h4' h5 h6 h8 h8' h10 => ?_,
    fun c f pkg j s hexec hfunc hch h2 hma hma' hms hms' hmw hmw' => ?_,
    fun c f pkg s hexec hfunc hlen hpkg hhead hmask hmask' hact hzero hsigned hseq => ?_, fun ch s hdue => ?_, fun ch s hdue => ?_,
    fun ch s hp hdrop hmay hb => ?_, fun ch s hp hdrop hmay hb hrun => ?_⟩
  case refine_1 =>
    have hx := exec_swcSet hexec hch hmode href
    rw [if_neg (by omega)] at hx
    obtain ⟨⟨hothers, hwith⟩, ⟨hcmd, hlatch, hrestarts, hstuck⟩, hoff⟩ :=
      (s.executing c).commandedSwc_effect ch (opByte c 1) (opField c 2 2)
    dsimp only at hx
    generalize (s.executing c).commandedSwc ch (opByte c 1) (opField c 2 2) = u at *
    have he : Ending s u c f := hexec.ending.of_eq (by rw [hwith]) (by rw [hwith]) (by rw [hwith])
    refine answers_of_complete hx he (by rw [hwith]; rfl) fun t hc ht => ?_
    have hswc : t.swc = u.swc := by rw [ht]
    have hstat : t.swcStat (genCh ch) = u.swcStat (genCh ch) := by
      rw [ht]
      rfl
    rw [hstat, hswc]
    refine ⟨hc, hcmd, hlatch, fun h0 => hoff (swcMode_eq_off.mpr h0), ?_, hstuck, hothers, ?_⟩
    · simpa [swcMode_eq_off] using hrestarts
    · rw [ht, hwith]
      rfl
  case refine_2 =>
    have hx := exec_swcSet hexec hch (by omega) (fun h => by omega)
    rw [if_pos ⟨by omega, hhot⟩, State.refuse, dwords_one (by decide)] at hx
    exact answers_only_complete hexec hx
  case refine_3 => exact answers_badOperand hexec (exec_swcSet_bad hexec hbad)
  case refine_4 =>
    have hx := exec_swcConfig (pkg := pkg) hexec
    rw [if_pos hfunc, swcConfig0_eq hch h2 ⟨h3, h3'⟩ ⟨h4, h4'⟩ h5 h6 ⟨h8, h8', h10⟩] at hx
    refine answers_of_complete hx (hexec.ending.of_eq rfl rfl rfl) rfl fun t hc ht => ?_
    have hswc := congrArg State.swc ht
    dsimp only at hswc
    rw [hswc]
    refine ⟨hc, by rw [State.onSwc_at]; rfl, (State.onSwc_only _ _ _).1, ?_⟩
    rw [ht]
    rfl
  case refine_5 =>
    have hx := exec_swcConfig (pkg := pkg) hexec
    rw [if_neg (by omega), if_pos hfunc, swcConfig1_eq hch h2 ⟨hma, hma'⟩ ⟨hms, hms'⟩ ⟨hmw, hmw'⟩] at hx
    cases hheld : s.strHeld (strOfCon j)
    · rw [if_neg (by rw [show (s.executing c).strHeld (strOfCon j) = s.strHeld (strOfCon j) from rfl, hheld]; decide)] at hx
      refine answers_of_complete hx (hexec.ending.of_eq rfl rfl rfl) rfl fun t hc ht => ⟨fun h => absurd h (by decide), fun _ => ?_⟩
      have hswc := congrArg State.swc ht
      dsimp only at hswc
      rw [hswc]
      exact ⟨hc, by rw [State.onSwc_at]; rfl, (State.onSwc_only _ _ _).1⟩
    · rw [if_pos (show (s.executing c).strHeld (strOfCon j) = true from hheld), State.refuse, dwords_one (by decide)] at hx
      refine answers_of_complete hx hexec.ending rfl fun t hc ht => ⟨fun _ => ⟨hc, by rw [ht]; rfl⟩, fun h => absurd h (by decide)⟩
  case refine_6 =>
    have hx := exec_swcConfig (pkg := pkg) hexec
    obtain ⟨u, hu, hhif, hrings, hclk, hs, hb⟩ :=
      swcConfig2_eq (s := s.executing c) hlen hpkg hhead hmask hmask' hact hzero hsigned hseq
    rw [if_neg (by omega), if_neg (by omega), if_pos hfunc, hu] at hx
    have he : Ending s u c f := hexec.ending.of_eq hhif hrings (congrArg Clk.ytime hclk)
    refine answers_of_exec hx ?_
    have hc := (he.completes stSuccess (dwords u.bypassMask 0 0 0)).eventInterrupt s
    have hmask : (eventInterrupt s (u.ok c (dwords u.bypassMask 0 0 0))).bypassMask = u.bypassMask := by
      simp only [State.bypassMask, eventInterrupt_frame, State.ok, State.complete_frame]
    simp only [hmask]
    simp only [eventInterrupt_frame, State.ok, State.complete_frame]
    exact ⟨hc, hs, hb⟩
  case refine_7 =>
    refine answers_of_exec_of_evt_eq ((exec_generalTestPulse ch s).trans (congrArg (answer s) (if_pos hdue))) rfl
      ⟨by rw [State.onSwc_at], by rw [State.onSwc_at], (State.onSwc_only _ _ _).1, rfl⟩
  case refine_8 =>
    exact answers_of_exec_of_evt_eq ((exec_generalTestPulse ch s).trans (congrArg (answer s) (if_neg (by simp [hdue])))) rfl rfl
  case refine_9 =>
    have hx := exec_generalTestPulseEnd (fell := true) hp hdrop hmay
    rw [State.pulseResult_fell (by rw [State.onSwc_at]; exact hb)] at hx
    exact answers_of_exec_of_evt_eq hx rfl ⟨by simp only [State.onSwc_at], by simp only [State.onSwc_at], by simp only [State.onSwc_at], rfl⟩
  case refine_10 =>
    obtain ⟨h1, h2, h3, h4, h5⟩ := State.pulseResult_stuck (s := s.onSwc (genCh ch) (fun c => { c with pulse := false, out := true, pulseDrop := false }))
      (by rw [State.onSwc_at]; exact hb) (by rw [State.onSwc_at]; exact hrun)
    refine answers_of_exec (exec_generalTestPulseEnd hp hdrop hmay) ?_
    simp only [eventInterrupt_frame]
    exact ⟨h1, h2, h3, h4, fun x hx => (h5 x hx).trans ((State.onSwc_only _ _ _).1 x hx)⟩

end Sys2Proof.Machine
end

section
/-! SUPPORT. Trips, latches and restarts of the switch channels (09 R294, R295). -/

namespace Sys2Proof.Machine

/-- Among the channels `t` differs from `s` at `ch` alone, which holds `v`. -/
def State.SwcAt (t s : State) (ch : Fin 24) (v : Swc) : Prop := t.swc.at ch = v ∧ ∀ x, x ≠ ch → t.swc.at x = s.swc.at x

theorem State.SwcAt.onSwc {t s : State} {ch : Fin 24} {v : Swc} (h : t.SwcAt s ch v) (f : Swc → Swc) : (t.onSwc ch f).SwcAt s ch (f v) :=
  ⟨by rw [State.onSwc_at, h.1], fun x hx => ((State.onSwc_only t ch f).1 x hx).trans (h.2 x hx)⟩

theorem State.SwcAt.of_eq {u t s : State} {ch : Fin 24} {v : Swc} (h : t.SwcAt s ch v) (e : u.swc = t.swc) : u.SwcAt s ch v := by
  rw [State.SwcAt, e]
  exact h

theorem State.SwcAt.self (s : State) (ch : Fin 24) : s.SwcAt s ch (s.swc.at ch) := ⟨rfl, fun _ _ => rfl⟩

/-- A channel turned off (09 R284). -/
def Swc.off (c : Swc) : Swc := { c with out := false, phase := .off, duty := 0, limit := false, holdLow := false }

theorem State.SwcAt.turnOff {t s : State} {ch : Fin 24} {v : Swc} (h : t.SwcAt s ch v) : (t.turnOff ch).SwcAt s ch v.off := h.onSwc Swc.off

/-- A channel after it latched off (09 R295, R300). -/
def Swc.latchedFor (c : Swc) (con : Bool) (cause : LatchCause) : Swc :=
  { c with latched := true, cause := cause, wait := false, latchCnt := satAdd 0xFF c.latchCnt 1, cmd := if con then c.cmd else .off }

/-- A latch changes its channel, and shows its event (09 R295). -/
theorem State.SwcAt.latch {t s : State} {ch : Fin 24} {v : Swc} (h : t.SwcAt s ch v) (cause : LatchCause) :
    (t.latch ch cause).SwcAt s ch (v.latchedFor (isCon ch) cause) :=
  (h.onSwc (fun c => c.latchedFor (isCon ch) cause)).of_eq (by simp only [State.latch, State.studbook_frame]; rfl)

theorem State.latch_evt (s : State) (ch : Fin 24) (cause : LatchCause) : (s.latch ch cause).evt.swc.getLsbD ch.val = true := by
  unfold State.latch
  rw [State.studbook_evt_swc]
  exact setBit_getLsbD_self _ (by have := ch.isLt; omega)

theorem State.latch_strs (s : State) (ch : Fin 24) (cause : LatchCause) : (s.latch ch cause).strs = s.strs := by
  simp [State.latch, State.swcEvent, State.onSwc]

/-- A channel after a trip, before it waits or latches (09 R295). -/
def Swc.tripped (c : Swc) (now : Nat) : Swc :=
  { c.off with restarts := c.off.recent now, tripCnt := satAdd 0xFF c.tripCnt 1 }

theorem State.trip_eq (s : State) (ch : Fin 24) (cause : LatchCause) : ∃ u : State, u.SwcAt s ch ((s.swc.at ch).tripped s.now) ∧
    u.evt.swc.getLsbD ch.val = true ∧ s.trip ch cause =
      if isCon ch || ((s.swc.at ch).cfg.retryMax ≤ ((s.swc.at ch).recent s.now).length : Bool) then u.latch ch cause
      else u.onSwc ch (fun c => { c with wait := true, waitCause := cause, tripAt := s.now }) := by
  unfold State.trip
  extract_lets s1 s2 s3 c
  have h3 : s3.SwcAt s ch ((s.swc.at ch).tripped s.now) :=
    (((State.SwcAt.self s ch).turnOff).onSwc (fun c => { c with restarts := c.recent s.now, tripCnt := satAdd 0xFF c.tripCnt 1 })).of_eq rfl
  have hc : c = (s.swc.at ch).tripped s.now := h3.1
  have he : s3.evt.swc.getLsbD ch.val = true := setBit_getLsbD_self _ (by have := ch.isLt; omega)
  have hnow : s3.now = s.now := rfl
  refine ⟨s3, h3, he, ?_⟩
  rw [hc, hnow]
  rfl

/-- A trip that latches its channel (09 R295). -/
theorem State.trip_latches {s : State} {ch : Fin 24} (cause : LatchCause)
    (h : isCon ch = true ∨ (s.swc.at ch).cfg.retryMax ≤ ((s.swc.at ch).recent s.now).length) :
    (s.trip ch cause).SwcAt s ch (((s.swc.at ch).tripped s.now).latchedFor (isCon ch) cause) ∧
    (s.trip ch cause).evt.swc.getLsbD ch.val = true := by
  obtain ⟨u, hu, -, ht⟩ := s.trip_eq ch cause
  rw [ht, if_pos (by simpa using h)]
  exact ⟨hu.latch cause, u.latch_evt ch cause⟩

/-- A trip after which its channel waits to restart (09 R295). -/
theorem State.trip_waits {s : State} {ch : Fin 12} (cause : LatchCause)
    (h : ((s.swc.at (genCh ch)).recent s.now).length < (s.swc.at (genCh ch)).cfg.retryMax) :
    (s.trip (genCh ch) cause).SwcAt s (genCh ch)
      { (s.swc.at (genCh ch)).tripped s.now with wait := true, waitCause := cause, tripAt := s.now } ∧
    (s.trip (genCh ch) cause).evt.swc.getLsbD ch.val = true := by
  obtain ⟨u, hu, he, ht⟩ := s.trip_eq (genCh ch) cause
  rw [ht, if_neg (by simp [h])]
  exact ⟨hu.onSwc _, he⟩

theorem exec_limitTimeout (ch : Fin 12) (s : State) : exec (.limitTimeout ch) s = answer s (
    if (s.swc.at (genCh ch)).out ∧ (s.swc.at (genCh ch)).limit ∧
      (s.swc.at (genCh ch)).limitAt + (s.swc.at (genCh ch)).cfg.limTmoMs * ticksPerMs ≤ s.now then s.trip (genCh ch) .limTmo else s) := rfl

theorem exec_contactorOvercurrent {j : Fin 12} {s : State} (h : (s.swc.at (conCh j)).out = true) :
    exec (.contactorOvercurrent j) s = answer s ((s.turnOff (conCh j)).latch (conCh j) .overcurrent) :=
  congrArg (answer s) (if_pos h)

theorem exec_thermalTrip {ch : Fin 24} {s : State} (h : (s.swc.at ch).out = true) :
    exec (.thermalTrip ch) s = answer s ((s.onSwc ch (fun c => { c with tj := max 175 c.tj })).trip ch .thermal) :=
  congrArg (answer s) (if_pos (by simp [h]))

theorem exec_currentLimitChange {ch : Fin 12} {b : Bool} {s : State} (h : (s.swc.at (genCh ch)).out = true) :
    exec (.currentLimitChange ch b) s = answer s (s.onSwc (genCh ch) (fun c => { c with
      limit := b, limitAt := if b && !c.limit then s.now else c.limitAt })) :=
  congrArg (answer s) (if_pos h)

theorem exec_channelRestart_none {ch : Fin 12} {s : State} (h : (s.swc.at (genCh ch)).wait = false) :
    exec (.channelRestart ch) s = answer s s :=
  congrArg (answer s) (if_neg (by simp [h]))

/-- The state in which a channel that may restart is told to (09 R295): its wait is over, its junction below 150 °C, and the restart counts. -/
theorem exec_channelRestart {ch : Fin 12} {s : State} (hwait : (s.swc.at (genCh ch)).wait = true)
    (hdue : (s.swc.at (genCh ch)).waitCause ≠ .limTmo ∨
      (s.swc.at (genCh ch)).tripAt + (s.swc.at (genCh ch)).cfg.restartMs * ticksPerMs ≤ s.now)
    (hcmd : (s.swc.at (genCh ch)).cmd ≠ .off) (hlatch : (s.swc.at (genCh ch)).latched = false) (hdip : s.dipHeld (genCh ch) = false) :
    ∃ (cool : Int) (u : State), cool < 150 ∧ exec (.channelRestart ch) s = answer s (u.settleOut (genCh ch)) ∧
      u.SwcAt s (genCh ch) { s.swc.at (genCh ch) with
        wait := false, waitCause := .none, tj := min (s.swc.at (genCh ch)).tj cool
        restarts := s.now :: (s.swc.at (genCh ch)).recent s.now } ∧ u = { s with swc := u.swc, free := u.free } := by
  have hx : exec (.channelRestart ch) s = execChannelRestart ch s := rfl
  rw [hx]
  unfold execChannelRestart
  dsimp only [State.draw]
  rw [if_pos ⟨hwait, hdue⟩]
  have hcool : (149 - (Config.freeNat s.free % 200 : Nat) : Int) < 150 := by omega
  generalize (149 - (Config.freeNat s.free % 200 : Nat) : Int) = cool at *
  have hu := (State.SwcAt.of_eq (u := { s with free := s.free + 1 }) (State.SwcAt.self s (genCh ch)) rfl).onSwc (fun c => { c with
    wait := false, waitCause := .none, tj := min c.tj cool })
  have hw : State.onSwc { s with free := s.free + 1 } (genCh ch) (fun c => { c with wait := false, waitCause := .none, tj := min c.tj cool }) =
      { s with
        swc := (State.onSwc { s with free := s.free + 1 } (genCh ch) (fun c => { c with
          wait := false, waitCause := .none, tj := min c.tj cool })).swc
        free := s.free + 1 } := rfl
  generalize State.onSwc { s with free := s.free + 1 } (genCh ch) (fun c => { c with
    wait := false, waitCause := .none, tj := min c.tj cool }) = u at *
  have hmay : u.mayConduct (genCh ch) = true := by
    have hd : u.dipHeld (genCh ch) = s.dipHeld (genCh ch) := by
      rw [hw]
      rfl
    rw [State.mayConduct_genCh, hu.1, hd, hdip]
    simp [hcmd, hlatch]
  have hnow : u.now = s.now := by rw [hw]; rfl
  rw [if_pos hmay, hnow]
  refine ⟨cool, _, hcool, rfl, hu.onSwc _, ?_⟩
  rw [hw]
  rfl

/-- Settles O39: a trip's two ends, the contactors' trips, the restart and the current limit. -/
theorem tripsLatchesAndRestarts : Obligations.TripsLatchesAndRestarts := by
  unfold Obligations.TripsLatchesAndRestarts
  refine ⟨fun ch s hout hlimit hlate => ?_, fun ch s hidle => ?_, fun j s hout => ?_, fun j s hout => ?_,
    fun ch s hwait hdue hcmd hlatch hdip hout hpulse => ?_, fun ch s hwait => ?_, fun ch s hout hlimit => ?_, fun ch s hout => ?_⟩
  case refine_1 =>
    have hx := (exec_limitTimeout ch s).trans (congrArg (answer s) (if_pos ⟨hout, hlimit, hlate⟩))
    by_cases hretry : ((s.swc.at (genCh ch)).recent s.now).length < (s.swc.at (genCh ch)).cfg.retryMax
    · obtain ⟨⟨hat_, hothers⟩, hevt⟩ := State.trip_waits .limTmo hretry
      refine answers_of_exec hx ?_
      simp only [eventInterrupt_frame]
      rw [hat_]
      exact ⟨rfl, rfl, hevt, hothers, fun _ => ⟨rfl, rfl, rfl, rfl⟩, fun h => absurd hretry (Nat.not_lt.mpr h)⟩
    · obtain ⟨⟨hat_, hothers⟩, hevt⟩ := State.trip_latches (s := s) (ch := genCh ch) .limTmo (.inr (Nat.not_lt.mp hretry))
      refine answers_of_exec hx ?_
      simp only [eventInterrupt_frame]
      rw [hat_, isCon_genCh]
      exact ⟨rfl, rfl, hevt, hothers, fun h => absurd h hretry, fun _ => ⟨rfl, rfl, rfl⟩⟩
  case refine_2 =>
    refine answers_of_exec_of_evt_eq ((exec_limitTimeout ch s).trans (congrArg (answer s) (if_neg ?_))) rfl rfl
    rintro ⟨ho, hl, -⟩
    rcases hidle with h | h <;> simp_all
  case refine_3 =>
    obtain ⟨hat_, hothers⟩ := ((State.SwcAt.self s (conCh j)).turnOff).latch .overcurrent
    refine answers_of_exec (exec_contactorOvercurrent hout) ?_
    simp only [eventInterrupt_frame]
    rw [hat_, isCon_conCh, State.latch_strs]
    exact ⟨rfl, rfl, rfl, rfl, State.latch_evt _ _ _, rfl, hothers⟩
  case refine_4 =>
    obtain ⟨⟨hat_, hothers⟩, -⟩ := State.trip_latches (s := s.onSwc (conCh j) (fun c => { c with tj := max 175 c.tj })) (ch := conCh j)
      .thermal (.inl (isCon_conCh j))
    refine answers_of_exec (exec_thermalTrip hout) ?_
    simp only [eventInterrupt_frame]
    rw [hat_, isCon_conCh]
    exact ⟨rfl, rfl, rfl, fun x hx => (hothers x hx).trans ((State.onSwc_only _ _ _).1 x hx)⟩
  case refine_5 =>
    obtain ⟨cool, u, hcool, hx, ⟨hat_, hothers⟩, hwith⟩ := exec_channelRestart hwait hdue hcmd hlatch hdip
    obtain ⟨⟨hothers', hwith'⟩, -, hon, phase, duty, limit, holdLow, onAt, out, he⟩ := u.settleOut_genCh ch
    have hmay : u.mayConduct (genCh ch) = true := by
      have hd : u.dipHeld (genCh ch) = s.dipHeld (genCh ch) := by
        rw [hwith]
        rfl
      rw [State.mayConduct_genCh, hat_, hd, hdip]
      simp [hcmd, hlatch]
    refine answers_of_exec_of_evt_eq hx (by rw [hwith', hwith]) ⟨hon hmay (by rw [hat_]; exact hout) (by rw [hat_]; exact hpulse), ?_, ?_, ?_,
      fun x hx => (hothers' x hx).trans (hothers x hx), ?_⟩
    · rw [he, hat_]
    · rw [he, hat_]
      exact Int.lt_of_le_of_lt (Int.min_le_right _ _) hcool
    · rw [he, hat_]
    · rw [hwith', hwith]
  case refine_6 => exact answers_of_exec_of_evt_eq (exec_channelRestart_none hwait) rfl rfl
  case refine_7 =>
    refine answers_of_exec_of_evt_eq (exec_currentLimitChange (b := true) hout) rfl
      ⟨by rw [State.onSwc_at], by rw [State.onSwc_at]; simp [hlimit], (State.onSwc_only _ _ _).1, rfl⟩
  case refine_8 =>
    exact answers_of_exec_of_evt_eq (exec_currentLimitChange (b := false) hout) rfl ⟨by rw [State.onSwc_at], rfl⟩

end Sys2Proof.Machine
end

section
/-! SUPPORT. The Weighbridge: tariffs, counter slots, exposure and statements (10 R312, R314, R315, R318, R320). -/

namespace Sys2Proof.Machine

/-- A store to one codeword leaves the bytes of every other (01 R31). -/
theorem Mem.mramByte_store_of_ne (m : Mem) (now off : Nat) {addr a : Nat} (bytes : List Byte) (h : a / 16 * 16 ≠ addr) :
    (m.store now addr off bytes).mramByte a = m.mramByte a := by
  unfold Mem.store
  dsimp only
  split
  · rfl
  · have hn (word : Codeword) (hw : word.addr = addr) :
        (m.queue.setLane (laneOf (regionOf addr)) (m.queue.lane (laneOf (regionOf addr)) ++ [word])).newest (a / 16 * 16) =
          m.queue.newest (a / 16 * 16) := by
      unfold MramQueue.newest
      by_cases hl : laneOf (regionOf addr) = laneOf (regionOf (a / 16 * 16))
      · have hne : (word.addr == a / 16 * 16) = false := by
          rw [hw]
          exact beq_false_of_ne (Ne.symm h)
        rw [← hl, MramQueue.lane_setLane_self, List.filter_append, List.filter_cons_of_neg (by simp [hne]), List.filter_nil, List.append_nil]
      · rw [MramQueue.lane_setLane_of_ne _ _ (Ne.symm hl)]
    unfold Mem.mramByte
    simp only [hn]

/-- Whole codewords stored outside the reserved regions read back, and no other byte changes (01 R28, R29, R31). -/
theorem Mem.mramByte_storeAll (now : Nat) : ∀ (fuel : Nat) (m : Mem) {addr : Nat} {bytes : List Byte}, addr % 16 = 0 → bytes.length % 16 = 0 →
    bytes.length ≤ 16 * fuel → (∀ a, addr ≤ a → a < addr + bytes.length → regionOf a ≠ .reserved) → ∀ a,
    (Mem.storeAll fuel m now addr bytes).mramByte a =
      if addr ≤ a ∧ a < addr + bytes.length then bytes.getD (a - addr) 0 else m.mramByte a := by
  intro fuel
  induction fuel with
  | zero =>
    intro m addr bytes _ _ hfuel _ a
    rw [if_neg (by omega)]
    rfl
  | succ fuel ih =>
    intro m addr bytes haddr hlen hfuel hregion a
    by_cases hnil : bytes = []
    · subst hnil
      rw [if_neg (by simp)]
      rfl
    have hpos : 16 ≤ bytes.length := by
      have := List.length_pos_iff.mpr hnil
      omega
    have htake : (bytes.take 16).length = 16 := by simp [hpos]
    have hdrop : (bytes.drop 16).length = bytes.length - 16 := by simp
    unfold Mem.storeAll
    rw [if_neg (by simpa using hnil)]
    dsimp only
    rw [haddr, Nat.sub_zero, Nat.sub_zero, ih _ (by omega) (by omega) (by omega)
      (fun a h1 h2 => hregion a (by omega) (by omega)) a, hdrop]
    by_cases hrest : addr + 16 ≤ a ∧ a < addr + 16 + (bytes.length - 16)
    · rw [if_pos hrest, if_pos (by omega)]
      simp [List.getD_eq_getElem?_getD, show 16 + (a - (addr + 16)) = a - addr by omega]
    · rw [if_neg hrest]
      by_cases hword : a / 16 * 16 = addr
      · rw [if_pos (by omega), Mem.mramByte_store hword (hregion addr (by omega) (by omega)) (hregion a (by omega) (by omega)),
          padTo_splice_whole htake]
        simp [List.getD_eq_getElem?_getD, List.getElem?_take, show a % 16 = a - addr by omega, show a - addr < 16 by omega]
      · rw [if_neg (by omega), Mem.mramByte_store_of_ne _ _ _ _ hword]

theorem Mem.mramByte_storeBytes (m : Mem) (now : Nat) {addr : Nat} {bytes : List Byte} (haddr : addr % 16 = 0) (hlen : bytes.length % 16 = 0)
    (hregion : ∀ a, addr ≤ a → a < addr + bytes.length → regionOf a ≠ .reserved) (a : Nat) :
    (m.storeBytes now addr bytes).mramByte a = if addr ≤ a ∧ a < addr + bytes.length then bytes.getD (a - addr) 0 else m.mramByte a :=
  Mem.mramByte_storeAll now _ m haddr hlen (by omega) hregion a

/-- Whole codewords read back as they were stored. -/
theorem Mem.mramBytes_storeBytes (m : Mem) (now : Nat) {addr : Nat} {bytes : List Byte} (haddr : addr % 16 = 0) (hlen : bytes.length % 16 = 0)
    (hregion : ∀ a, addr ≤ a → a < addr + bytes.length → regionOf a ≠ .reserved) :
    (m.storeBytes now addr bytes).mramBytes addr bytes.length = bytes := by
  refine List.ext_getElem (by simp) fun i hi hib => ?_
  rw [Mem.mramBytes_getElem, Mem.mramByte_storeBytes m now haddr hlen hregion, if_pos (by omega), Nat.add_sub_cancel_left]
  simp [hib]

theorem regionOf_weighbridge {a : Nat} (hlo : 0x1680000 ≤ a) (hhi : a < 0x1690000) : regionOf a ≠ .reserved := by
  unfold regionOf
  repeat' split
  all_goals simp
  all_goals omega

/-- A slot of the Weighbridge that is stored reads back, and no other byte of MRAM changes (10 R314, R315). -/
theorem State.mramStore_slot (s : State) {addr n : Nat} {bytes : List Byte} (hn : bytes.length = n) (haddr : addr % 16 = 0) (hlen : n % 16 = 0)
    (hlo : 0x1680000 ≤ addr) (hhi : addr + n ≤ 0x1690000) : (s.mramStore addr bytes).mramRead addr n = bytes ∧
    ∀ a, (a < addr ∨ addr + n ≤ a) → (s.mramStore addr bytes).mem.mramByte a = s.mem.mramByte a := by
  subst hn
  have hregion : ∀ a, addr ≤ a → a < addr + bytes.length → regionOf a ≠ .reserved := fun _ h1 h2 =>
    regionOf_weighbridge (by omega) (by omega)
  exact ⟨Mem.mramBytes_storeBytes s.mem s.now haddr hlen hregion,
    fun a ha => (Mem.mramByte_storeBytes s.mem s.now haddr hlen hregion a).trans (if_neg (by omega))⟩

theorem flatMap_length_const {α β : Type} {l : List α} {f : α → List β} {n : Nat} (h : ∀ a ∈ l, (f a).length = n) :
    (l.flatMap f).length = n * l.length := by
  induction l with
  | nil => simp
  | cons a l ih =>
    have ha := h a List.mem_cons_self
    have hl := ih fun b hb => h b (List.mem_cons_of_mem _ hb)
    simp [List.flatMap_cons, ha, hl, Nat.mul_add, Nat.add_comm]

/-- A counter slot has 192 bytes (10 R314). -/
theorem counterSlot_length (str : Fin 4) (w : WbStr) (oph : Nat) : (counterSlot str w oph).length = 192 := by
  unfold counterSlot
  simp only [List.length_append, Laws.leBytes_length, bvBytes_length]
  rw [flatMap_length_const (n := 16) (fun b _ => by simp [Laws.leBytes_length])]
  simp [places]

/-- An exposure slot has 320 bytes (10 R314). -/
theorem exposureSlot_length (w : Wb) (seq : Nat) : (exposureSlot w seq).length = 320 := by
  unfold exposureSlot
  simp only [List.length_append, Laws.leBytes_length, bvBytes_length]
  rw [flatMap_length_const (n := 76) (fun i _ => by
    rw [List.length_append, List.length_append, flatMap_length_const (n := 4) (fun _ _ => Laws.leBytes_length 4 _)]
    simp [Laws.leBytes_length])]
  simp [places]

theorem counterSlotAt_range (str : Fin 4) (k : Nat) :
    counterSlotAt str k % 16 = 0 ∧ 0x1680000 ≤ counterSlotAt str k ∧ counterSlotAt str k + 192 ≤ 0x1690000 := by
  unfold counterSlotAt wbBase
  omega

theorem exposureSlotAt_range (k : Nat) : (wbBase + 0xEC00 + 320 * (k % 16)) % 16 = 0 ∧ 0x1680000 ≤ wbBase + 0xEC00 + 320 * (k % 16) ∧
    wbBase + 0xEC00 + 320 * (k % 16) + 320 ≤ 0x1690000 := by
  unfold wbBase
  omega

theorem exec_counterSlotWrite {str : Fin 4} {s : State} (h : s.isl.mem = true) :
    exec (.counterSlotWrite str) s = answer s (s.writeCounters str) := congrArg (answer s) (if_pos h)

theorem exec_counterSlotWrite_off {str : Fin 4} {s : State} (h : s.isl.mem = false) : exec (.counterSlotWrite str) s = answer s s :=
  congrArg (answer s) (if_neg (by simp [h]))

theorem exec_exposureSlotWrite {s : State} (h : s.isl.mem = true) : exec .exposureSlotWrite s = answer s s.writeExposure :=
  congrArg (answer s) (if_pos h)

/-- The tick of a string counts in the band of its hottest sensor, or as not measured (10 R320). -/
theorem exec_exposureTick_measured {str : Fin 4} {x : Int} {s : State} (hst : s.pwr.st ≠ .stabled) (hx : s.hottest str = some x) :
    exec (.exposureTick str) s = answer s (s.onWb str (fun w => { w with
      exposure := w.exposure.upd (tempBand x) (fun n => (n + 1) % 2 ^ 32) })) := by
  have he : exec (.exposureTick str) s = execExposureTick str s := rfl
  rw [he, execExposureTick]
  dsimp only
  rw [if_neg hst, hx]

theorem exec_exposureTick_unmeasured {str : Fin 4} {s : State} (h : s.pwr.st = .stabled ∨ s.hottest str = none) :
    exec (.exposureTick str) s = answer s (s.onWb str (fun w => { w with unmeas := (w.unmeas + 1) % 2 ^ 32 })) := by
  have he : exec (.exposureTick str) s = execExposureTick str s := rfl
  have hn : (if s.pwr.st = .stabled then none else s.hottest str) = none := by
    rcases h with h | h
    · exact if_pos h
    · split
      · rfl
      · exact h
  rw [he, execExposureTick]
  dsimp only
  rw [hn]

/-- The band of a temperature (10 R320). -/
theorem tempBand_eq_iff (x : Int) (band : Fin 16) : tempBand x = band ↔
    (x < -10000 ∧ band.val = 0) ∨ (60000 ≤ x ∧ band.val = 15) ∨
      (1 ≤ band.val ∧ band.val ≤ 14 ∧ -15000 + 5000 * (band.val : Int) ≤ x ∧ x < -10000 + 5000 * (band.val : Int)) := by
  have hb := band.isLt
  rw [Fin.ext_iff]
  simp only [tempBand, idx, clampInt]
  split <;> omega

/-- What the Weighbridge makes of a tariff command that executes (10 R312). -/
theorem exec_tariffTag {s : State} {c : Cmd} {f : Flight} (h : Executing s c f) : ∃ body : State → State,
    exec (.tariffTag c) s = answer s (body (s.executing c)) ∧ ∀ u : State, body u =
      if hb : opByte c 0 < 8 then
        if 16 ≤ opByte c 1 ∨ BitVec.ofNat 4 (opByte c 1) = 0 ∨
            ((places 4).any (fun i => (BitVec.ofNat 4 (opByte c 1)).getLsbD i.val && !u.usedStr i)) = true then u.badOperand c
        else if u.wb.moves (BitVec.ofNat 4 (opByte c 1)) ⟨opByte c 0, hb⟩ ∧
            ((match u.wb.loggedAt with | some t => decide (u.now < t + ticksPerS) | none => false) = true ∨
              (u.wb.tariff.any (fun p => u.wb.moves p.mask p.bin)) = true) then u.refuse c 0x0A01
        else { u with wb := { u.wb with tariff := u.wb.tariff ++ [⟨c, BitVec.ofNat 4 (opByte c 1), ⟨opByte c 0, hb⟩⟩] } }
      else u.badOperand c :=
  ⟨_, exec_of_run h rfl, fun _ => rfl⟩

theorem exec_meterStatement {s : State} {c : Cmd} {f : Flight} (h : Executing s c f) : exec (.meterStatement c) s = answer s (
    if !aligned16 (opField c 0 8) then (s.executing c).badOperand c
    else if opField c 8 4 < 800 then (s.executing c).complete c stBadOperand (dwords 0 800 0 0)
    else (s.executing c).queueStmt c false) := by
  refine (exec_of_run h rfl).trans (congrArg (answer s) ?_)
  rfl

theorem exec_healthStatement {s : State} {c : Cmd} {f : Flight} (h : Executing s c f) : exec (.healthStatement c) s = answer s (
    if !aligned16 (opField c 0 8) then (s.executing c).badOperand c else (s.executing c).queueStmt c true) := by
  refine (exec_of_run h rfl).trans (congrArg (answer s) ?_)
  rfl

/-- The operand mask of four strings. -/
theorem mask_getLsbD {v : Nat} (i : Fin 4) : (BitVec.ofNat 4 v).getLsbD i.val = v.testBit i.val := by
  rw [BitVec.getLsbD_ofNat, decide_eq_true i.isLt, Bool.true_and]

theorem mask_ne_zero {v : Nat} (h1 : 1 ≤ v) (h2 : v ≤ 15) : BitVec.ofNat 4 v ≠ 0 := by
  intro h
  have := congrArg BitVec.toNat h
  simp at this
  omega

theorem all_used {s : State} {v : Nat} (h : ∀ i : Fin 4, v.testBit i.val = true → s.usedStr i = true) :
    ((places 4).any (fun i => (BitVec.ofNat 4 v).getLsbD i.val && !s.usedStr i)) = false := by
  rw [List.any_eq_false]
  intro i _
  rw [mask_getLsbD]
  cases hv : v.testBit i.val
  · simp
  · simp [h i hv]

/-- The statement that is released: what leaves and what changes (10 R318). -/
theorem exec_statementRelease {x : Stmt} {s : State} (hs : s.wb.stmts = [x]) (hstage : x.stage = .flushing)
    (hqueue : ∀ w ∈ s.mem.queue.all, w.addr ∉ x.addrs) : exec .statementRelease s = answer s
      ((({ s with wb := { s.wb with stmts := [], releasedAt := some s.now, stmtRel := field x.bytes 8 8 } }.toHost (opField x.cmd 0 8)
        (x.bytes ++ deviceSign x.bytes)).wbEvent 1).ok x.cmd (dwords (x.bytes ++ deviceSign x.bytes).length 0 0 0)) := by
  have he : exec .statementRelease s = execStatementRelease s := rfl
  have hany : s.mem.queue.all.any (fun w => x.addrs.contains w.addr) = false := by
    rw [List.any_eq_false]
    intro w hw
    simpa using hqueue w hw
  rw [he, execStatementRelease, hs]
  simp only [List.find?_cons, hstage, beq_self_eq_true, hany]
  simp [Wb.setStmt, hs]

theorem exec_statementRelease_wait {x : Stmt} {w : Codeword} {s : State} (hs : s.wb.stmts = [x]) (hw : w ∈ s.mem.queue.all)
    (hx : w.addr ∈ x.addrs) : exec .statementRelease s = answer s s := by
  have he : exec .statementRelease s = execStatementRelease s := rfl
  have hany : s.mem.queue.all.any (fun w => x.addrs.contains w.addr) = true := List.any_eq_true.mpr ⟨w, hw, by simpa using hx⟩
  rw [he, execStatementRelease, hs]
  cases hstage : (x.stage == .flushing)
  · simp [hstage]
  · simp only [List.find?_cons, hstage, hany]
    simp

/-- Settles O41: the tariff commands, the two slots, the exposure tick and the statements. -/
theorem weighbridgeTariffsSlotsAndStatements : Obligations.WeighbridgeTariffsSlotsAndStatements := by
  unfold Obligations.WeighbridgeTariffsSlotsAndStatements
  refine ⟨fun c f bin s hexec hbin hlo hhi hused hlog htariff => ?_, fun c f bin i last s hexec hbin hhi hbit hused hmoves hlog hsoon => ?_,
    fun c f s hexec hbad => ?_, fun str s hmem => ?_, fun str s hmem => ?_, fun s hmem => ?_, fun str x s hst hx => ?_,
    fun str s hnone => ?_, fun c f s hexec halign hlen => ?_, fun c f s hexec halign hlen => ?_, fun c f s hexec halign => ?_,
    fun c f s hexec halign => ⟨?_, ?_⟩, fun x f s hs hstage hexec hqueue => ?_, fun x w s hs hw hx => ?_⟩
  case refine_1 =>
    obtain ⟨body, hx, hbody⟩ := exec_tariffTag hexec
    rw [hbody, dif_pos (show opByte c 0 < 8 by omega), if_neg, if_neg] at hx
    · have hb : (⟨opByte c 0, by omega⟩ : Fin 8) = bin := Fin.ext hbin
      rw [hb, show (s.executing c).wb.tariff = [] from htariff, List.nil_append] at hx
      exact answers_of_exec_of_evt_eq hx rfl ⟨rfl, executing_flight_same hexec, rfl⟩
    · rintro ⟨-, h⟩
      rw [show (s.executing c).wb.loggedAt = none from hlog, show (s.executing c).wb.tariff = [] from htariff] at h
      simp at h
    · rintro (h | h | h)
      · omega
      · exact mask_ne_zero hlo hhi h
      · rw [all_used (s := s.executing c) hused] at h
        exact absurd h (by decide)
  case refine_2 =>
    obtain ⟨body, hx, hbody⟩ := exec_tariffTag hexec
    have hpos : 1 ≤ opByte c 1 := by
      rcases Nat.eq_zero_or_pos (opByte c 1) with h | h
      · rw [h] at hbit
        simp at hbit
      · exact h
    rw [hbody, dif_pos (show opByte c 0 < 8 by omega), if_neg, if_pos, State.refuse, dwords_one (by decide)] at hx
    · exact answers_only_complete hexec hx
    · refine ⟨?_, .inl ?_⟩
      · have hb : (⟨opByte c 0, by omega⟩ : Fin 8) = bin := Fin.ext hbin
        rw [hb, Wb.moves]
        refine List.any_eq_true.mpr ⟨i, List.mem_finRange i, ?_⟩
        rw [mask_getLsbD, hbit]
        simpa using hmoves
      · rw [show (s.executing c).wb.loggedAt = some last from hlog]
        exact decide_eq_true hsoon
    · rintro (h | h | h)
      · omega
      · exact mask_ne_zero hpos hhi h
      · rw [all_used (s := s.executing c) hused] at h
        exact absurd h (by decide)
  case refine_3 =>
    obtain ⟨body, hx, hbody⟩ := exec_tariffTag hexec
    refine answers_badOperand hexec (hx.trans (congrArg (answer s) ?_))
    rw [hbody]
    by_cases hb : opByte c 0 < 8
    · rw [dif_pos hb, if_pos]
      rcases hbad with h | h | h
      · omega
      · exact .inr (.inl (by rw [h]; rfl))
      · exact .inl h
    · rw [dif_neg hb]
  case refine_4 =>
    obtain ⟨hmod, hlo, hhi⟩ := counterSlotAt_range str ((s.wb.str.at str).slotSeq + 1)
    have hw : (s.onWb str (fun w => { w with slotSeq := w.slotSeq + 1 })).wb.str.at str =
        { s.wb.str.at str with slotSeq := (s.wb.str.at str).slotSeq + 1 } := by simp [State.onWb]
    obtain ⟨hread, hbyte⟩ := (s.onWb str (fun w => { w with slotSeq := w.slotSeq + 1 })).mramStore_slot
      (counterSlot_length str { s.wb.str.at str with slotSeq := (s.wb.str.at str).slotSeq + 1 } s.oph) hmod (by decide) hlo hhi
    have hx := exec_counterSlotWrite (str := str) hmem
    unfold State.writeCounters at hx
    dsimp only at hx
    rw [hw] at hx
    refine answers_of_exec_of_evt_eq hx rfl ⟨hw, fun j hj => ?_, ?_, hbyte, rfl⟩
    · simp [State.onWb, Bank.at_upd, Ne.symm hj]
    · refine hread.trans (congrArg (fun w => counterSlot str w s.oph) ?_)
      exact hw.symm
  case refine_5 => exact answers_of_exec_of_evt_eq (exec_counterSlotWrite_off hmem) rfl rfl
  case refine_6 =>
    obtain ⟨hmod, hlo, hhi⟩ := exposureSlotAt_range (s.wb.expSeq + 1)
    obtain ⟨hread, hbyte⟩ := State.mramStore_slot { s with wb := { s.wb with expSeq := s.wb.expSeq + 1 } }
      (exposureSlot_length { s.wb with expSeq := s.wb.expSeq + 1 } (s.wb.expSeq + 1)) hmod (by decide) hlo hhi
    exact answers_of_exec_of_evt_eq (exec_exposureSlotWrite hmem) rfl ⟨rfl, hread, hbyte, rfl⟩
  case refine_7 =>
    refine answers_of_exec_of_evt_eq (exec_exposureTick_measured hst hx) rfl ⟨fun band => ?_, ?_, fun j hj => ?_, rfl⟩
    · rw [ite_congr (propext (tempBand_eq_iff x band).symm) (fun _ => rfl) (fun _ => rfl)]
      by_cases e : tempBand x = band <;> simp [State.onWb, Bank.at_upd, e]
    · simp [State.onWb]
    · simp [State.onWb, Bank.at_upd, Ne.symm hj]
  case refine_8 =>
    exact answers_of_exec_of_evt_eq (exec_exposureTick_unmeasured hnone) rfl
      ⟨by simp [State.onWb], fun j hj => by simp [State.onWb, Bank.at_upd, Ne.symm hj], rfl⟩
  case refine_9 =>
    have hx := exec_meterStatement hexec
    rw [if_neg (by simp [aligned16, halign]), if_neg (Nat.not_lt.mpr hlen)] at hx
    exact answers_of_exec_of_evt_eq hx rfl ⟨executing_flight_same hexec, rfl, rfl⟩
  case refine_10 =>
    have hx := exec_meterStatement hexec
    rw [if_neg (by simp [aligned16, halign]), if_pos hlen] at hx
    exact answers_only_complete hexec hx
  case refine_11 =>
    have hx := exec_healthStatement hexec
    rw [if_neg (by simp [aligned16, halign])] at hx
    exact answers_of_exec_of_evt_eq hx rfl ⟨executing_flight_same hexec, rfl, rfl⟩
  case refine_12 =>
    have hx := exec_meterStatement hexec
    rw [if_pos (by simp [aligned16, halign])] at hx
    exact answers_badOperand hexec hx
  case refine_13 =>
    have hx := exec_healthStatement hexec
    rw [if_pos (by simp [aligned16, halign])] at hx
    exact answers_badOperand hexec hx
  case refine_14 =>
    refine answers_of_exec (exec_statementRelease hs hstage hqueue) ?_
    have he : Ending s ((({ s with wb := { s.wb with stmts := [], releasedAt := some s.now, stmtRel := field x.bytes 8 8 } }.toHost
        (opField x.cmd 0 8) (x.bytes ++ deviceSign x.bytes)).wbEvent 1)) x.cmd f :=
      (ending_of_flight hexec.flight hexec.same hexec.enabled hexec.kept hexec.tracked).of_eq rfl rfl rfl
    have hc := (he.completes stSuccess (dwords (x.bytes ++ deviceSign x.bytes).length 0 0 0)).eventInterrupt s
    refine ⟨hc, (out_prefix_eventInterrupt _ _).subset ?_, ?_, ?_, ?_⟩
    · simp [State.ok, State.wbEvent, State.toHost, State.emit]
    · simp only [eventInterrupt_frame, State.ok, State.complete_frame]
      exact setBit_getLsbD_self _ (by decide)
    · simp only [eventInterrupt_frame, State.ok, State.complete_frame]
      rfl
    · simp only [eventInterrupt_frame, State.ok, State.complete_frame]
      rfl
  case refine_15 => exact answers_of_exec_of_evt_eq (exec_statementRelease_wait hs hw hx) rfl rfl

end Sys2Proof.Machine
end

section
/-! SUPPORT. Live runs, generations and drift of the calibration (12 R351, R353 to R357, R360). -/

namespace Sys2Proof.Machine

open Sys2Proof Sys2Proof.Machine

theorem State.sendRouting_eq (s : State) (u : Fin 128) (c : Nat) : s.sendRouting u (some c) = { s with out := s.out ++ [.link (stallOf u) s.frame
    { bcast := false, addr := unitOf u, cmd := 8, arg := BitVec.ofNat 32 (1 + 16 * c) }] } := rfl

theorem State.stopRouting_eq_with (s : State) (u : Fin 128) : ∃ w o, s.stopRouting u = { s with uswp := w, out := o } := by
  unfold State.stopRouting
  split
  · split
    · exact ⟨_, _, rfl⟩
    · exact ⟨s.uswp, s.out, rfl⟩
  · exact ⟨s.uswp, s.out, rfl⟩

theorem State.resumeTest_eq_with (s : State) (u : Fin 128) : ∃ i l o, s.resumeTest u = { s with uint := i, ulink := l, out := o } := by
  have hsame : ∃ i l o, s = { s with uint := i, ulink := l, out := o } := ⟨s.uint, s.ulink, s.out, rfl⟩
  unfold State.resumeTest
  split
  · split
    · split
      · exact hsame
      · exact ⟨_, _, _, rfl⟩
    · exact hsame
  · exact hsame

/-- A changed entry waits for its sweep start at the end of the unit's queue. -/
theorem State.writeEntry_effect (s : State) (u : Fin 128) (body : List Byte) (source : Nat) (cmds : List Cmd) (result : BitVec 4)
    (write : Bool) : ∃ q seq m, s.writeEntry u body source cmds result write = { s with mem := m, ucal := s.ucal.upd u (fun x => { x with
      switchQ := x.switchQ ++ [q], writtenAt := some s.now }) } ∧ q.cmds = cmds ∧ q.write = write ∧
      q.entry = sealUnit (splice body 5 [BitVec.ofNat 8 source, (s.ucal.at u).nextGen]) seq := by
  unfold State.writeEntry
  generalize s.unitCopies u = copies
  obtain ⟨c0, c1⟩ := copies
  dsimp only
  generalize copyToWrite (unitEntryOk c0) (unitEntryOk c1) (field c0 0x10 4) (field c1 0x10 4) = copy
  obtain ⟨c, seq⟩ := copy
  dsimp only
  generalize hentry : sealUnit (splice body 5 [BitVec.ofNat 8 source, (s.ucal.at u).nextGen]) seq = entry
  exact ⟨_, seq, _, rfl, rfl, rfl, hentry.symm⟩

/-- The result of a run is applied: its entry waits for its sweep start (12 R355). -/
theorem State.applyRun_effect (s : State) (u : Fin 128) (body : List Byte) (cmds : List Cmd) : ∃ q seq,
    ((s.applyRun u body cmds).ucal.at u) = { s.ucal.at u with
      result := 1, appliedAt := some s.now, deferred := none, switchQ := (s.ucal.at u).switchQ ++ [q], writtenAt := some s.now } ∧
    (s.applyRun u body cmds).evt = { s.evt with cal := setBit s.evt.cal 0 } ∧ q.cmds = cmds ∧
    q.entry = sealUnit (splice body 5 [2, (s.ucal.at u).nextGen]) seq := by
  unfold State.applyRun
  dsimp only
  obtain ⟨q, seq, m, ht, hcmds, -, hentry⟩ := State.writeEntry_effect { s.onCal u (fun x => { x with
    result := 1, appliedAt := some s.now, deferred := none }) with evt := { s.evt with cal := setBit s.evt.cal 0 } } u body 2 cmds 1 false
  refine ⟨q, seq, ?_, ?_, hcmds, ?_⟩
  · refine (congrArg (fun t : State => t.ucal.at u) ht).trans ?_
    simp [State.onCal]
    rfl
  · exact congrArg State.evt ht
  · rw [hentry]
    simp [State.onCal, UnitCal.nextGen]

theorem State.resumeTest_ucal (s : State) (u : Fin 128) : (s.resumeTest u).ucal = s.ucal ∧ (s.resumeTest u).evt = s.evt := by
  obtain ⟨i, l, o, h⟩ := State.resumeTest_eq_with s u
  rw [h]
  exact ⟨rfl, rfl⟩

theorem State.recentUnit_congr {s t : State} {u : Fin 128} (hnow : t.now = s.now) (hw : (t.ucal.at u).writtenAt = (s.ucal.at u).writtenAt) :
    t.recentUnit u = s.recentUnit u := by
  unfold State.recentUnit
  rw [hnow, hw]

/-- The evaluation of a run that changes values applies them, unless the unit's section was written a moment ago (12 R355, R360). -/
theorem State.evaluateRun_applies {s : State} {u : Fin 128} {r : LiveRun} {e : List Byte} {chans : List RunChannel}
    (hnew : (s.ucal.at u).newest = some e) (hrec : s.recentUnit u = false)
    (hch : r.done.zipIdx.map (fun p => runChannel e p.2 p.1 ((r.tempSum : Rat) / ((r.tempN : Nat) : Rat))) = chans)
    (hout : runOutcome r.len r.done chans = 1) : ∃ x : State,
      x.ucal.at u = { s.ucal.at u with run := none, lastRunAt := some s.now } ∧ x.now = s.now ∧ x.evt = s.evt ∧
      s.evaluateRun u r = (x.applyRun u (runEntry e chans) r.cmds).resumeTest u := by
  obtain ⟨w, o, hstop⟩ := State.stopRouting_eq_with s u
  refine ⟨State.onCal { s with uswp := w, out := o } u (fun x => { x with run := none, lastRunAt := some s.now }),
    by simp [State.onCal], rfl, rfl, ?_⟩
  unfold State.evaluateRun
  rw [hnew]
  dsimp only
  rw [hch, hout, if_neg (fun h => h rfl), hstop, if_neg]
  · rfl
  · have hsame : State.recentUnit (State.onCal { s with uswp := w, out := o } u (fun x => { x with run := none, lastRunAt := some s.now })) u =
        s.recentUnit u := State.recentUnit_congr rfl (by simp [State.onCal])
    exact fun h => by simp [hsame.symm.trans h] at hrec

theorem State.evaluateRun_ends {s : State} {u : Fin 128} {r : LiveRun} {e : List Byte} {chans : List RunChannel}
    (hnew : (s.ucal.at u).newest = some e)
    (hch : r.done.zipIdx.map (fun p => runChannel e p.2 p.1 ((r.tempSum : Rat) / ((r.tempN : Nat) : Rat))) = chans)
    (hout : runOutcome r.len r.done chans ≠ 1) : s.evaluateRun u r = s.endRun u (runOutcome r.len r.done chans) := by
  unfold State.evaluateRun
  rw [hnew]
  dsimp only
  rw [hch, if_pos hout]

theorem State.evaluateRun_applied {s : State} {u : Fin 128} {r : LiveRun} {e : List Byte} {chans : List RunChannel}
    (hnew : (s.ucal.at u).newest = some e) (hrec : s.recentUnit u = false)
    (hch : r.done.zipIdx.map (fun p => runChannel e p.2 p.1 ((r.tempSum : Rat) / ((r.tempN : Nat) : Rat))) = chans)
    (hout : runOutcome r.len r.done chans = 1) : ∃ q seq,
    ((s.evaluateRun u r).ucal.at u) = { s.ucal.at u with
      run := none, lastRunAt := some s.now, result := 1, appliedAt := some s.now, deferred := none
      switchQ := (s.ucal.at u).switchQ ++ [q], writtenAt := some s.now } ∧
    (s.evaluateRun u r).evt = { s.evt with cal := setBit s.evt.cal 0 } ∧ q.cmds = r.cmds ∧
    q.entry = sealUnit (splice (runEntry e chans) 5 [2, (s.ucal.at u).nextGen]) seq := by
  obtain ⟨x, hcal0, hnow, hevt0, hx⟩ := State.evaluateRun_applies hnew hrec hch hout
  obtain ⟨q, seq, hcal, hevt, hcmds, hentry⟩ := State.applyRun_effect x u (runEntry e chans) r.cmds
  obtain ⟨hucal, hev⟩ := State.resumeTest_ucal (x.applyRun u (runEntry e chans) r.cmds) u
  refine ⟨q, seq, ?_, ?_, hcmds, ?_⟩
  · rw [hx, hucal, hcal, hcal0, hnow]
  · rw [hx, hev, hevt, hevt0]
  · rw [hentry, hcal0]
    simp only [UnitCal.nextGen]

@[simp] theorem State.studbook_evt_cal (s : State) (t : BitVec 6) (n : Nat) (d : List Byte) : (s.studbook t n d).evt.cal = s.evt.cal := by
  unfold State.studbook State.recorderTakes
  dsimp only
  repeat' split
  all_goals rfl

theorem State.studbook_eq_with (s : State) (t : BitVec 6) (n : Nat) (d : List Byte) :
    ∃ b e x, s.studbook t n d = { s with stb := b, evt := e, cross := x } := by
  unfold State.studbook State.recorderTakes
  dsimp only
  repeat' split
  all_goals exact ⟨_, _, _, rfl⟩

theorem State.studbook_cal (s : State) (t : BitVec 6) (n : Nat) (d : List Byte) : (s.studbook t n d).cal = s.cal := by
  obtain ⟨b, e, x, h⟩ := State.studbook_eq_with s t n d
  rw [h]

theorem runOutcome_ne_cancelled (len : Nat) (done : List (ChanStat × ChanStat)) (chans : List RunChannel) :
    runOutcome len done chans ≠ 5 := by
  unfold runOutcome
  split
  · decide
  · split
    · decide
    · split <;> decide

/-- A run that does not apply ends its command as REFUSED (12 R355, R360). -/
theorem State.endRun_refuses {s : State} {u : Fin 128} {r : LiveRun} {c : Cmd} {code : BitVec 4} (hrun : (s.ucal.at u).run = some r)
    (hcmds : r.cmds = [c]) (hdef : (s.ucal.at u).deferred = none) (hcode : code ≠ 5) :
    ∃ (x : State) (res : BitVec 128),
      x.hif = s.hif ∧ x.rings = s.rings ∧ x.clk = s.clk ∧ x.evt.cal = setBit s.evt.cal 0 ∧
      x.ucal.at u = { s.ucal.at u with run := none, deferred := none, result := code, lastRunAt := some s.now } ∧
      s.endRun u code = x.complete c stRefused res := by
  obtain ⟨w, o, hstop⟩ := State.stopRouting_eq_with s u
  have hres := fun t : State => State.resumeTest_eq_with t u
  unfold State.endRun
  extract_lets x0 cmds s1 s2 v s3 y
  have h3 : s3 = { s.onCal u (fun x => { x with run := none, deferred := none, result := code, lastRunAt := some s.now }) with
      uswp := w, out := o, evt := { s.evt with cal := setBit s.evt.cal 0 } } := by
    simp only [s3, v, s2, s1]
    rw [hstop]
    rfl
  have hlist : cmds = [c] := by simp [cmds, x0, hrun, hdef, hcmds]
  obtain ⟨b, e, x, hstud⟩ := State.studbook_eq_with s3 0x0C u.val [2, code.setWidth 8, (s.ucal.at u).gen]
  have hcal := State.studbook_evt_cal s3 0x0C u.val [2, code.setWidth 8, (s.ucal.at u).gen]
  obtain ⟨i, l, o', hr⟩ := State.resumeTest_eq_with (s3.studbook 0x0C u.val [2, code.setWidth 8, (s.ucal.at u).gen]) u
  have hy : y = (s3.studbook 0x0C u.val [2, code.setWidth 8, (s.ucal.at u).gen]).resumeTest u := rfl
  rw [hr] at hy
  refine ⟨y, dwords 0x0C05 code.toNat 0 0, ?_, ?_, ?_, ?_, ?_, ?_⟩
  · rw [hy, hstud, h3]; rfl
  · rw [hy, hstud, h3]; rfl
  · rw [hy, hstud, h3]; rfl
  · rw [hy]
    exact hcal.trans (by rw [h3])
  · rw [hy, hstud, h3]
    simp [State.onCal, x0]
  · rw [if_neg hcode, hlist]
    rfl

theorem State.calWaits_iff (s : State) (base len : Nat) :
    s.calWaits base len = true ↔ ∃ w ∈ s.mem.queue.cal, base ≤ w.addr ∧ w.addr < base + len := by
  simp [State.calWaits]

/-- A written entry that is in MRAM takes force at the next sweep start, and the command that wrote it ends (12 R353). -/
theorem exec_calGenerationSwitch_write {u : Fin 128} {p : PendEntry} {rest : List PendEntry} {c : Cmd} {s : State}
    (hq : (s.ucal.at u).switchQ = p :: rest) (hin : s.calWaits p.base 1024 = false) (hentry : (s.ucal.at u).entry.isSome = true)
    (hwrite : p.write = true) (hcmds : p.cmds = [c]) : ∃ x : State,
      x.hif = s.hif ∧ x.rings = s.rings ∧ x.clk = s.clk ∧ x.evt.cal = setBit s.evt.cal 3 ∧
      x.ucal = s.ucal.upd u (fun y => { y with
        switchQ := rest, olds := (({ from_ := y.genFrom, gen := y.gen, entry := y.entry } : OldGen) :: y.olds).take 5
        genFrom := (s.frame + framesOf (s.rateNow u) - 1) / framesOf (s.rateNow u) * framesOf (s.rateNow u)
        gen := p.entry.getD 6 0, entry := some p.entry }) ∧
      exec (.calGenerationSwitch u) s = answer s (x.complete c stSuccess (dwords (p.entry.getD 6 0).toNat 0 0 0)) := by
  have hfirst : (s.ucal.at u).entry.isNone = false := by simpa using hentry
  have hx : exec (.calGenerationSwitch u) s = execCalGenerationSwitch u s := rfl
  rw [hx]
  unfold execCalGenerationSwitch
  rw [hq]
  dsimp only
  rw [if_neg (by simp [hin]), if_neg (by simp [hfirst]), hwrite, if_pos rfl, if_pos rfl, hcmds, hfirst, if_neg (by decide)]
  refine ⟨_, ?_, ?_, ?_, ?_, ?_, rfl⟩
  all_goals simp [State.onCal, State.restartWindow, State.onSweep]

theorem exec_calGenerationSwitch_waits {u : Fin 128} {p : PendEntry} {rest : List PendEntry} {s : State}
    (hq : (s.ucal.at u).switchQ = p :: rest) (hin : s.calWaits p.base 1024 = true) : exec (.calGenerationSwitch u) s = answer s s := by
  have hx : exec (.calGenerationSwitch u) s = execCalGenerationSwitch u s := rfl
  rw [hx]
  unfold execCalGenerationSwitch
  rw [hq]
  dsimp only
  rw [if_pos hin]

/-- The unit's counts of a second begin anew (12 R351). -/
def UnitCal.secondDone (x : UnitCal) : UnitCal := { x with secA := 0, secB := 0, cntA := 0, cntB := 0, cntAll := 0 }

/-- Fewer good sweeps than half of the second's: the second is not evaluated (12 R351). -/
theorem exec_driftEvaluation_skipped {u : Fin 128} {s : State}
    (hfew : 2 * (s.ucal.at u).cntA < (s.ucal.at u).cntAll ∨ 2 * (s.ucal.at u).cntB < (s.ucal.at u).cntAll) :
    exec (.driftEvaluation u) s = answer s (s.onCal u UnitCal.secondDone) := by
  have hx : exec (.driftEvaluation u) s = execDriftEvaluation u s := rfl
  rw [hx]
  unfold execDriftEvaluation
  dsimp only
  split
  · rw [if_pos (.inr (.inr (.inr (.inr hfew))))]
    rfl
  · rfl

/-- A second's error is above DRIFT_UV on one side (12 R351). -/
def driftHigh (uv ea eb : Rat) : Bool := decide (uv < ratAbs ea) || decide (uv < ratAbs eb)

/-- A second's error is within 0.75 of DRIFT_UV on both sides (12 R351). -/
def driftLow (uv ea eb : Rat) : Bool := decide (ratAbs ea ≤ 3 / 4 * uv) && decide (ratAbs eb ≤ 3 / 4 * uv)

/-- A unit after the evaluation of a second whose errors are `ea` and `eb` (12 R351). -/
def UnitCal.evaluated (x : UnitCal) (uv ea eb : Rat) : UnitCal :=
  let n := if driftHigh uv ea eb then x.driftRun + 1 else 0
  let m := if driftLow uv ea eb then x.clearRun + 1 else 0
  let rise := !x.drift && decide (3 ≤ n)
  { x.secondDone with
    errA := clampInt (-32768) 32767 (roundFree ea), errB := clampInt (-32768) 32767 (roundFree eb), driftRun := n, clearRun := m
    drift := if rise then true else if x.drift && decide (10 ≤ m) then false else x.drift }

/-- DRIFT rises with this second (12 R351). -/
def UnitCal.driftRises (x : UnitCal) (uv ea eb : Rat) : Bool :=
  !x.drift && decide (3 ≤ if driftHigh uv ea eb then x.driftRun + 1 else 0)

section
variable {u : Fin 128} {e : List Byte} {tu ea eb : Rat} {s : State}

/-- The unit was swept often enough in the second, and these are its errors (12 R351). -/
structure DriftSecond (s : State) (u : Fin 128) (e : List Byte) (tu ea eb : Rat) : Prop where
  entry : (s.ucal.at u).entry = some e
  swept : s.swept u = true
  mc16  : s.isMc16 u = true
  someA : 1 ≤ (s.ucal.at u).cntA
  someB : 1 ≤ (s.ucal.at u).cntB
  mostA : (s.ucal.at u).cntAll ≤ 2 * (s.ucal.at u).cntA
  mostB : (s.ucal.at u).cntAll ≤ 2 * (s.ucal.at u).cntB
  temp  : tu = (s.tempOf u : Rat)
  errA  : ea = ((s.ucal.at u).secA : Rat) / (((s.ucal.at u).cntA : Nat) : Rat) - vRef e 0x104 tu
  errB  : eb = ((s.ucal.at u).secB : Rat) / (((s.ucal.at u).cntB : Nat) : Rat) - vRef e 0x108 tu

theorem State.swept_onCal_secondDone (s : State) (u : Fin 128) : (s.onCal u UnitCal.secondDone).swept u = s.swept u := by
  have hentry : ((s.onCal u UnitCal.secondDone).ucal.at u).entry = (s.ucal.at u).entry := by simp [State.onCal, UnitCal.secondDone]
  unfold State.swept State.sweepable
  rw [hentry]
  rfl

/-- The evaluation of a second, while a rise of DRIFT starts no run (12 R351). -/
theorem exec_driftEvaluation (h : DriftSecond s u e tu ea eb)
    (hauto : (s.ucal.at u).driftRises s.cal.driftUv ea eb = true → s.cal.driftAuto = false) :
    ∃ b n d, b.ucal.at u = (s.ucal.at u).evaluated s.cal.driftUv ea eb ∧ b.evt = s.evt ∧ exec (.driftEvaluation u) s = answer s
      (if (s.ucal.at u).driftRises s.cal.driftUv ea eb then
        State.studbook { b with evt := { b.evt with cal := setBit b.evt.cal 1 } } 0x25 n d else b) := by
  obtain ⟨hentry, hswept, hmc16, hsomeA, hsomeB, hmostA, hmostB, htu, hea, heb⟩ := h
  have hx : exec (.driftEvaluation u) s = execDriftEvaluation u s := rfl
  rw [hx]
  unfold execDriftEvaluation
  extract_lets x s1 tu' uv
  have hgo : ¬ (s1.swept u = false ∨ s1.isMc16 u = false ∨ x.cntA = 0 ∨ x.cntB = 0 ∨ 2 * x.cntA < x.cntAll ∨ 2 * x.cntB < x.cntAll) := by
    have hswept1 : s1.swept u = s.swept u := State.swept_onCal_secondDone s u
    have hmc1 : s1.isMc16 u = s.isMc16 u := rfl
    rw [hswept1, hmc1, hswept, hmc16]
    have hcounts : 1 ≤ x.cntA ∧ 1 ≤ x.cntB ∧ x.cntAll ≤ 2 * x.cntA ∧ x.cntAll ≤ 2 * x.cntB := ⟨hsomeA, hsomeB, hmostA, hmostB⟩
    simp only [Bool.true_eq_false, false_or]
    omega
  have hx1 : x.entry = some e := hentry
  rw [hx1]
  dsimp -zeta only
  rw [if_neg hgo]
  extract_lets ea' eb' high low n m rise s2 v s3
  have hea' : ea' = ea := by rw [hea, htu]; rfl
  have heb' : eb' = eb := by rw [heb, htu]; rfl
  have hhigh : high = driftHigh s.cal.driftUv ea eb := by rw [← hea', ← heb']; rfl
  have hlow : low = driftLow s.cal.driftUv ea eb := by rw [← hea', ← heb']; rfl
  have hrise : rise = (s.ucal.at u).driftRises s.cal.driftUv ea eb := by
    unfold UnitCal.driftRises
    rw [← hhigh]
  have hcal : s2.ucal.at u = (s.ucal.at u).evaluated s.cal.driftUv ea eb := by
    unfold UnitCal.evaluated
    rw [← hhigh, ← hlow, ← hea', ← heb']
    simp only [s2, s1, State.onCal, Bank.at_upd_self]
    rfl
  have hevt : s2.evt = s.evt := rfl
  have hauto3 : s3.cal = s.cal := State.studbook_cal _ _ _ _
  refine ⟨s2, u.val, driftBytes (clampInt (-32768) 32767 (roundFree ea')) (clampInt (-32768) 32767 (roundFree eb')), hcal, hevt, congrArg (answer s) ?_⟩
  rw [← hrise]
  by_cases h : rise = true
  · rw [if_pos h, if_pos h, if_pos (Or.inl ?_)]
    exact (congrArg CalDev.driftAuto hauto3).trans (hauto (hrise ▸ h))
  · rw [if_neg h, if_neg h]

end

theorem State.startRun_routes {s : State} {u : Fin 128} (cmds : List Cmd) (htest : (s.uint.at u).test = none) :
    ((s.startRun u cmds).ucal.at u) = { s.ucal.at u with
      run := some ⟨0, 2, s.cal.runSweeps, {}, {}, [], 0, 0, cmds, some s.frame⟩, runDue := false } ∧ (s.startRun u cmds).evt = s.evt := by
  unfold State.startRun
  extract_lets run s1
  have hcal : (s1.ucal.at u) = { s.ucal.at u with run := some run, runDue := false } := by simp [s1, State.onCal]
  have htest1 : (s1.uint.at u).test = none := htest
  have hrun : (s1.ucal.at u).run = some run := by rw [hcal]
  rw [htest1]
  dsimp only
  unfold State.routeRun
  rw [hrun]
  dsimp only
  constructor
  · simp only [State.sendRouting, State.sendLink, State.emit, State.onCal, Bank.at_upd_self, hcal]
    rfl
  · rfl

theorem exec_driftRunDeferredStart {u : Fin 128} {s : State} (hdue : (s.ucal.at u).runDue = true) (hearly : s.runEarly u = false)
    (hholds : s.runHolds u = false) (hswept : s.swept u = true) : exec (.driftRunDeferredStart u) s = answer s (s.startRun u []) :=
  congrArg (answer s) (if_pos ⟨hdue, hearly, hholds, hswept⟩)

theorem exec_driftRunDeferredStart_not {u : Fin 128} {s : State} (h : (s.ucal.at u).runDue = false ∨ s.runEarly u = true) :
    exec (.driftRunDeferredStart u) s = answer s s :=
  congrArg (answer s) (if_neg fun ⟨hdue, hearly, _⟩ => by cases h <;> simp_all)

theorem exec_calDeferredWrite {u : Fin 128} {p : PendEntry} {s : State} (hdef : (s.ucal.at u).deferred = some p)
    (hrec : s.recentUnit u = false) : exec (.calDeferredWrite u) s = answer s (s.applyRun u p.entry p.cmds) := by
  have hx : exec (.calDeferredWrite u) s = execCalDeferredWrite u s := rfl
  rw [hx]
  unfold execCalDeferredWrite
  rw [if_neg (by simp [hrec]), hdef]

theorem exec_calDeferredWrite_recent {u : Fin 128} {s : State} (hrec : s.recentUnit u = true) : exec (.calDeferredWrite u) s = answer s s :=
  congrArg (answer s) (if_pos hrec)

theorem exec_calRoutingRenew {u : Fin 128} {r : LiveRun} {f : Nat} {s : State} (hrun : (s.ucal.at u).run = some r)
    (hroute : r.routeAt = some f) : exec (.calRoutingRenew u) s = answer s (s.sendRouting u (some r.ch)) := by
  have hx : exec (.calRoutingRenew u) s = execCalRoutingRenew u s := rfl
  rw [hx]
  unfold execCalRoutingRenew
  rw [hrun]
  dsimp only
  rw [if_pos (by simp [hroute])]

theorem exec_calRoutingRenew_idle {u : Fin 128} {s : State} (hrun : (s.ucal.at u).run = none) :
    exec (.calRoutingRenew u) s = answer s s := by
  have hx : exec (.calRoutingRenew u) s = execCalRoutingRenew u s := rfl
  rw [hx]
  unfold execCalRoutingRenew
  rw [hrun]

/-- A channel of a live run that has its sweeps gives way to the next, and the last one is evaluated (12 R355). -/
theorem exec_liveRunChannelDone {u : Fin 128} {r : LiveRun} {s : State} (hrun : (s.ucal.at u).run = some r) :
    exec (.liveRunChannelDone u) s = answer s (if r.skip = 0 ∧ r.a.n + r.a.lost = r.len then
      (if r.ch = 0x12 then s.evaluateRun u { r with done := r.done ++ [(r.a, r.b)] }
       else (s.onCal u (fun x => { x with run := some { r with
         done := r.done ++ [(r.a, r.b)], ch := r.ch + 1, skip := 2, a := {}, b := {} } })).sendRouting u (some (r.ch + 1))) else s) := by
  have hx : exec (.liveRunChannelDone u) s = execLiveRunChannelDone u s := rfl
  rw [hx]
  unfold execLiveRunChannelDone
  rw [hrun]

/-- Settles O43. -/
theorem liveRunsGenerationsAndDrift : Obligations.LiveRunsGenerationsAndDrift := by
  unfold Obligations.LiveRunsGenerationsAndDrift
  refine ⟨fun u r f s hrun hroute => ?_, fun u s hrun => ?_, fun u r s hrun hskip hlen hch => ?_, fun u r s hrun hnot => ?_,
    fun u r e s hrun hskip hlen hch hnew hrec hout => ?_, fun u r e c f s hrun hskip hlen hch hnew hcmds hdef hexec hout => ?_,
    fun u p rest c f s hq hmem hentry hwrite hcmds hexec => ?_, fun u p rest w s hq hw hlo hhi => ?_,
    fun u e tu ea eb s hentry hswept hmc16 hsomeA hsomeB hmostA hmostB htu hea heb => ?_, fun u s hfew => ?_,
    fun u s hdue hearly hholds hswept htest => ?_, fun u s h => ?_, fun u p s hdef hrec => ?_, fun u s hrec => ?_⟩
  case refine_1 => exact answers_of_exec_of_evt_eq (exec_calRoutingRenew hrun hroute) rfl rfl
  case refine_2 => exact answers_of_exec_of_evt_eq (exec_calRoutingRenew_idle hrun) rfl rfl
  case refine_3 =>
    have hx := exec_liveRunChannelDone hrun
    rw [if_pos ⟨hskip, hlen⟩, if_neg hch] at hx
    refine answers_of_exec_of_evt_eq hx rfl ⟨?_, fun x hx => ?_, rfl⟩
    · simp [State.sendRouting_eq, State.onCal]
    · simp [State.sendRouting_eq, State.onCal, Bank.at_upd, Ne.symm hx]
  case refine_4 =>
    have hx := exec_liveRunChannelDone hrun
    rw [if_neg fun ⟨h1, h2⟩ => hnot.elim (· h1) (· h2)] at hx
    exact answers_of_exec_of_evt_eq hx rfl rfl
  case refine_5 =>
    have hx := exec_liveRunChannelDone hrun
    rw [if_pos ⟨hskip, hlen⟩, if_pos hch] at hx
    obtain ⟨q, seq, hcal, hevt, hcmds, hentry⟩ :=
      State.evaluateRun_applied (r := { r with done := r.done ++ [(r.a, r.b)] }) hnew hrec rfl hout
    refine answers_of_exec hx ?_
    simp only [eventInterrupt_frame, hcal, hevt]
    exact ⟨trivial, trivial, trivial, trivial, trivial, setBit_getLsbD_self _ (by decide), q, seq, rfl, hcmds, hentry⟩
  case refine_6 =>
    have hx := exec_liveRunChannelDone hrun
    rw [if_pos ⟨hskip, hlen⟩, if_pos hch, State.evaluateRun_ends (r := { r with done := r.done ++ [(r.a, r.b)] }) hnew rfl hout] at hx
    obtain ⟨x, res, hhif, hrings, hclk, hevt, hcal, hend⟩ := State.endRun_refuses hrun hcmds hdef (runOutcome_ne_cancelled r.len
      (r.done ++ [(r.a, r.b)]) ((r.done ++ [(r.a, r.b)]).zipIdx.map (fun p =>
        runChannel e p.2 p.1 ((r.tempSum : Rat) / ((r.tempN : Nat) : Rat)))))
    have hending := ending_of_flight hexec.flight hexec.same hexec.enabled hexec.kept hexec.tracked
    refine answers_of_exec (hx.trans (congrArg (answer s) hend)) ?_
    have hc := ((hending.of_eq hhif hrings (congrArg _ hclk)).completes stRefused res).eventInterrupt s
    simp only [eventInterrupt_frame, State.complete_frame, hcal, hevt]
    exact ⟨trivial, trivial, trivial, trivial, hc.ended, setBit_getLsbD_self _ (by decide)⟩
  case refine_7 =>
    have hin : s.calWaits p.base 1024 = false := by
      rw [← Bool.not_eq_true, State.calWaits_iff]
      rintro ⟨w, hw, hlo, hhi⟩
      have := hmem w hw
      omega
    obtain ⟨x, hhif, hrings, hclk, hevt, hucal, hx⟩ := exec_calGenerationSwitch_write hq hin hentry hwrite hcmds
    have hending := ending_of_flight hexec.flight hexec.same hexec.enabled hexec.kept hexec.tracked
    have hc := ((hending.of_eq hhif hrings (congrArg _ hclk)).completes stSuccess (dwords (p.entry.getD 6 0).toNat 0 0 0)).eventInterrupt s
    refine answers_of_exec hx ?_
    simp only [eventInterrupt_frame, State.complete_frame, hucal, hevt, Bank.at_upd_self]
    exact ⟨trivial, trivial, trivial, trivial, trivial, hc, setBit_getLsbD_self _ (by decide), fun y hy => Bank.at_upd_of_ne _ _ (Ne.symm hy)⟩
  case refine_8 =>
    exact answers_of_exec_of_evt_eq (exec_calGenerationSwitch_waits hq ((State.calWaits_iff _ _ _).mpr ⟨w, hw, hlo, hhi⟩)) rfl rfl
  case refine_9 =>
    have hsec : DriftSecond s u e tu ea eb := ⟨hentry, hswept, hmc16, hsomeA, hsomeB, hmostA, hmostB, htu, hea, heb⟩
    refine ⟨fun hhigh hrun hoff hauto => ?_, fun hhigh hrun hoff => ?_, fun hlowA hlowB hon => ?_⟩
    · obtain ⟨b, n, d, hcal, hevt, hx⟩ := exec_driftEvaluation hsec (fun _ => hauto)
      have hh : driftHigh s.cal.driftUv ea eb = true := by simpa [driftHigh] using hhigh
      rw [if_pos (by simp [UnitCal.driftRises, hh, hrun, hoff])] at hx
      refine answers_of_exec hx ?_
      simp only [eventInterrupt_frame, State.studbook_frame, State.studbook_evt_cal, hcal]
      exact ⟨by simp [UnitCal.evaluated, hh, hrun, hoff], setBit_getLsbD_self _ (by decide), rfl, rfl⟩
    · have hh : driftHigh s.cal.driftUv ea eb = true := by simpa [driftHigh] using hhigh
      have hquiet : (s.ucal.at u).driftRises s.cal.driftUv ea eb = false := by
        simp [UnitCal.driftRises, hh, hoff]
        omega
      obtain ⟨b, n, d, hcal, hevt, hx⟩ := exec_driftEvaluation hsec (fun h => by simp [hquiet] at h)
      rw [if_neg (by simp [hquiet])] at hx
      refine answers_of_exec_of_evt_eq hx hevt ⟨?_, ?_, hevt⟩
      · rw [hcal]
        simp [UnitCal.evaluated, hh, hoff]
        omega
      · rw [hcal]
        simp [UnitCal.evaluated, hh]
    · have hl : driftLow s.cal.driftUv ea eb = true := by simp [driftLow, hlowA, hlowB]
      have hquiet : (s.ucal.at u).driftRises s.cal.driftUv ea eb = false := by simp [UnitCal.driftRises, hon]
      obtain ⟨b, n, d, hcal, hevt, hx⟩ := exec_driftEvaluation hsec (fun h => by simp [hquiet] at h)
      rw [if_neg (by simp [hquiet])] at hx
      refine answers_of_exec_of_evt_eq hx hevt ⟨?_, ?_, hevt⟩
      · rw [hcal]
        simp [UnitCal.evaluated, hl]
      · rw [hcal]
        by_cases hn : (s.ucal.at u).clearRun < 9
        · simp [UnitCal.evaluated, hl, hon, hn]
        · simp [UnitCal.evaluated, hl, hon, hn]
          omega
  case refine_10 =>
    refine answers_of_exec_of_evt_eq (exec_driftEvaluation_skipped hfew) rfl ⟨?_, rfl⟩
    simp [State.onCal, UnitCal.secondDone]
  case refine_11 =>
    obtain ⟨hcal, hevt⟩ := State.startRun_routes [] htest
    exact answers_of_exec_of_evt_eq (exec_driftRunDeferredStart hdue hearly hholds hswept) hevt ⟨by rw [hcal], by rw [hcal]⟩
  case refine_12 => exact answers_of_exec_of_evt_eq (exec_driftRunDeferredStart_not h) rfl rfl
  case refine_13 =>
    obtain ⟨q, seq, hcal, hevt, hcmds, hentry⟩ := State.applyRun_effect s u p.entry p.cmds
    refine answers_of_exec (exec_calDeferredWrite hdef hrec) ?_
    simp only [eventInterrupt_frame, hcal, hevt]
    exact ⟨trivial, trivial, trivial, trivial, setBit_getLsbD_self _ (by decide), q, seq, rfl, hcmds, hentry⟩
  case refine_14 => exact answers_of_exec_of_evt_eq (exec_calDeferredWrite_recent hrec) rfl rfl

end Sys2Proof.Machine
end

section
/-! SUPPORT. What loading the persistent state leaves of the selectors and the event enables. -/

namespace Sys2Proof.Machine

/-- The selectors and the event enables of `t` are those of `s`. -/
def State.SameEnables (t s : State) : Prop := t.misc = s.misc ∧ t.evt.en = s.evt.en

theorem State.SameEnables.trans {u t s : State} (hu : u.SameEnables t) (ht : t.SameEnables s) : u.SameEnables s :=
  ⟨hu.1.trans ht.1, hu.2.trans ht.2⟩

theorem State.SameEnables.foldl {α : Type} (l : List α) (f : State → α → State) (h : ∀ t a, (f t a).SameEnables t) (s : State) :
    (l.foldl f s).SameEnables s :=
  List.foldlRecOn l f (motive := fun t => t.SameEnables s) ⟨rfl, rfl⟩ fun t ht a _ => (h t a).trans ht

@[simp] theorem State.foldl_misc {α : Type} (l : List α) (f : State → α → State) (h : ∀ t a, (f t a).misc = t.misc)
    (s : State) : (l.foldl f s).misc = s.misc :=
  List.foldlRecOn l f (motive := fun t => t.misc = s.misc) rfl fun _ ht a _ => (h _ a).trans ht

@[simp] theorem State.foldl_evt_en {α : Type} (l : List α) (f : State → α → State) (h : ∀ t a, (f t a).evt.en = t.evt.en)
    (s : State) : (l.foldl f s).evt.en = s.evt.en :=
  List.foldlRecOn l f (motive := fun t => t.evt.en = s.evt.en) rfl fun _ ht a _ => (h _ a).trans ht

@[simp] theorem State.recorderTakes_evtEn (s : State) (q : StbReq) : (s.recorderTakes q).misc = s.misc ∧ (s.recorderTakes q).evt.en = s.evt.en := by
  unfold State.recorderTakes
  repeat' split
  all_goals simp

@[simp] theorem State.studbook_evtEn (s : State) (trigger : BitVec 6) (subject : Nat) (detail : List Byte) :
    (s.studbook trigger subject detail).misc = s.misc ∧ (s.studbook trigger subject detail).evt.en = s.evt.en := by
  unfold State.studbook
  split <;> simp

@[simp] theorem State.loadCalibration_evtEn (s : State) : s.loadCalibration.misc = s.misc ∧ s.loadCalibration.evt.en = s.evt.en := by
  unfold State.loadCalibration
  dsimp only
  refine State.SameEnables.trans (State.SameEnables.foldl _ _ (fun t u => ?_) _) ?_
  · split
    · simp [State.SameEnables]
    · split <;> simp [State.SameEnables]
  · split <;> simp [State.SameEnables]

@[simp] theorem State.onWb_evtEn (s : State) (str : Fin 4) (f : WbStr → WbStr) :
    (s.onWb str f).misc = s.misc ∧ (s.onWb str f).evt.en = s.evt.en := by
  simp [State.onWb]

@[simp] theorem State.wbEvent_evtEn (s : State) (n : Nat) : (s.wbEvent n).misc = s.misc ∧ (s.wbEvent n).evt.en = s.evt.en := by
  simp [State.wbEvent]

@[simp] theorem State.loadWeighbridge_evtEn (s : State) : s.loadWeighbridge.misc = s.misc ∧ s.loadWeighbridge.evt.en = s.evt.en := by
  unfold State.loadWeighbridge
  split
  split
  split
  refine State.SameEnables.trans (State.SameEnables.foldl _ _ (fun t i => ?_) _) ?_
  · dsimp only
    repeat' split
    all_goals simp [State.SameEnables]
  · split <;> split <;> simp [State.SameEnables]

@[simp] theorem State.stbEvent_evtEn (s : State) (n : Nat) : (s.stbEvent n).misc = s.misc ∧ (s.stbEvent n).evt.en = s.evt.en := by
  simp [State.stbEvent]

@[simp] theorem State.cancelClear_evtEn (s : State) : s.cancelClear.misc = s.misc ∧ s.cancelClear.evt.en = s.evt.en := by
  unfold State.cancelClear
  split <;> simp

@[simp] theorem State.recorderFault_evtEn (s : State) (kind : BitVec 8) (slot : Nat) :
    (s.recorderFault kind slot).misc = s.misc ∧ (s.recorderFault kind slot).evt.en = s.evt.en := by
  unfold State.recorderFault
  dsimp only
  split <;> simp

@[simp] theorem State.loadStudbook_evtEn (s : State) : s.loadStudbook.misc = s.misc ∧ s.loadStudbook.evt.en = s.evt.en := by
  have hscan : s.scanStudbook.1.SameEnables s := by
    unfold State.scanStudbook
    dsimp only
    split
    · exact State.recorderFault_evtEn _ _ _
    · exact ⟨rfl, rfl⟩
  unfold State.loadStudbook
  split
  next t hs => simpa only [hs, State.SameEnables] using hscan
  next t torn n hs => exact State.SameEnables.trans (State.studbook_evtEn _ _ _ _) (by simpa only [hs] using hscan)

@[simp] theorem State.writeHours_evtEn (s : State) : s.writeHours.misc = s.misc ∧ s.writeHours.evt.en = s.evt.en := by
  simp [State.writeHours]

@[simp] theorem State.restoreHours_evtEn (s : State) : s.restoreHours.misc = s.misc ∧ s.restoreHours.evt.en = s.evt.en := by
  simp [State.restoreHours]

@[simp] theorem State.loadCheckpoint_evtEn (s : State) : s.loadCheckpoint.misc = s.misc ∧ s.loadCheckpoint.evt.en = s.evt.en := by
  unfold State.loadCheckpoint
  split <;> simp

@[simp] theorem State.loadPersistent_evtEn (s : State) : s.loadPersistent.misc = s.misc ∧ s.loadPersistent.evt.en = s.evt.en := by
  simp [State.loadPersistent]

end Sys2Proof.Machine
end

section
/-! SUPPORT. The AON supply, IDENTIFY and the status of the networks (01 R14; 17 R446; 19 R471, R472, R480). -/

namespace Sys2Proof.Machine

open Sys2Proof Sys2Proof.Machine

/-- What one command answers, it answers in one state only. -/
theorem Answers.and {i : Instr} {s : State} {P Q : State → Prop} (hP : Answers i s P) (hQ : Answers i s Q) :
    Answers i s fun t => P t ∧ Q t := by
  obtain ⟨t, ht, hp⟩ := hP
  obtain ⟨t', ht', hq⟩ := hQ
  have he : t' = t := Host.Outcome.next.inj (ht'.symm.trans ht)
  exact ⟨t, ht, hp, he ▸ hq⟩

/-- Asking the regulator at a power-on changes what is asked, and what leaves the device (15 R420). -/
theorem State.ask_powerOn (s : State) :
    ∃ o, s.ask .powerOn = { s with pwr := { s.pwr with pmbus := some .powerOn, retries := 0 }, out := o } := ⟨_, rfl⟩

/-- What a power-on leaves behind it: MRAM's state is loaded, the sense input strapped, and the regulator asked (01 R14; 17 R446). -/
theorem exec_aonPowerOn (ext a b : Bool) (s : State) : ∃ u : State, exec (.aonPowerOn ext a b) s = answer s u ∧
    u.swctl.snsExt = ext ∧ u.misc = s.atPowerOn.loadPersistent.misc ∧ u.evt = s.atPowerOn.loadPersistent.evt ∧
    u.sec = s.atPowerOn.loadPersistent.sec ∧ u.isl.mem = false ∧ u.pwr.pmbus = some .powerOn := by
  have hx : exec (.aonPowerOn ext a b) s = execAonPowerOn ext a b s := rfl
  rw [hx]
  unfold execAonPowerOn
  extract_lets s1 _ s2 w i s3 s4
  have h2 : s2 = s.atPowerOn.loadPersistent := rfl
  obtain ⟨o, hask⟩ := (s4.onPwr (fun p => { p with
    wake := some { step := 1, src := 9, check := false, boot := true, loud := false, since := s4.clk.rtcTicks } })).ask_powerOn
  rw [hask]
  have hown : s4.swctl.snsExt = ext ∧ s4.misc = s2.misc ∧ s4.evt = s2.evt ∧ s4.sec = s2.sec ∧ s4.isl.mem = false := by
    simp [s4, s3, w, i]
  obtain ⟨hext, hmisc, hevt, hsec, hisl⟩ := hown
  clear_value s4 s3 w i s2
  exact ⟨_, rfl, hext, hmisc.trans (congrArg _ h2), hevt.trans (congrArg _ h2), hsec.trans (congrArg _ h2), hisl, rfl⟩

theorem State.atPowerOn_reset (s : State) :
    s.atPowerOn.misc.sel = {} ∧ s.atPowerOn.misc.coreSel = Bank.fill 16 {} ∧ s.atPowerOn.evt.en = 0 := by
  unfold State.atPowerOn State.powerOff State.reset
  simp only
  exact ⟨trivial, trivial, trivial⟩

/-- The eight identity registers as bytes (19 R472). -/
theorem identityRegs_length (sh : Shadows) : ((List.range 8).flatMap (fun k => bvBytes 4 (regIdentity sh (4 * k)))).length = 32 := by
  simp only [List.length_flatMap, bvBytes_length]
  rfl

theorem deviceKey_length : deviceKey.length = 32 := Laws.leBytes_length _ _

theorem exec_identify {c : Cmd} {f : Flight} {s : State} (h : Executing s c f) :
    exec (.identify c) s = answer s (if aligned16 (opField c 8 8) then
      ((s.executing c).toHost (opField c 8 8) ((List.range 8).flatMap (fun k =>
        bvBytes 4 (regIdentity { serial := hi32 Config.serial.toNat } (4 * k))) ++ deviceKey)).ok c (dwords 64 0 0 0)
      else (s.executing c).badOperand c) := by
  have hx : exec (.identify c) s = execIdentify c s := rfl
  rw [hx]
  unfold execIdentify
  rw [run_executing h]

theorem exec_canBusOffRecovery {ctl : Fin 4} {s : State} (h : (s.net.can.at ctl).st = 2) : exec (.canBusOffRecovery ctl) s = answer s
    { s with net := { s.net with can := s.net.can.upd ctl (fun c => { c with st := 0, tec := 0, rec_ := 0 }) } } :=
  congrArg (answer s) (if_pos h)

theorem exec_ethLinkChange {m : Fin 2} {link : Bool} {speed : BitVec 2} {s : State} (hboot : s.sec.booted = true) (hisl : s.isl.net = true)
    (hspeed : link = true → speed ≠ 3) : exec (.ethLinkChange m link speed) s = answer s
    { s with net := { s.net with eth := s.net.eth.upd m (fun x => { x with link := link, speed := if link then speed else 3 }) } } :=
  congrArg (answer s) (if_pos (by cases link <;> simp_all))

/-- Settles O8. -/
theorem suppliesIdentifyAndNetworks : Obligations.SuppliesIdentifyAndNetworks := by
  unfold Obligations.SuppliesIdentifyAndNetworks
  refine ⟨fun s => ?_, fun ext a b s => ?_, fun c f s hexec halign => ?_, fun c f s hexec halign => ?_, fun ctl s hoff => ?_,
    fun m speed s hboot hisl hspeed => ?_, fun m speed s hboot hisl => ?_⟩
  case refine_1 =>
    refine answers_of_exec rfl ?_
    simp only [eventInterrupt_frame]
    exact ⟨rfl, rfl, rfl, rfl, rfl, rfl, rfl, rfl, rfl, rfl⟩
  case refine_2 =>
    obtain ⟨u, hx, hext, hmisc, hevt, hsec, hmem, hask⟩ := exec_aonPowerOn ext a b s
    have hstate : Answers (.aonPowerOn ext a b) s fun t => t.swctl.snsExt = ext ∧ t.misc.sel = {} ∧ t.misc.coreSel = Bank.fill 16 {} ∧
        t.evt.en = 0 ∧ t.sec.owner = s.sec.owner ∧ t.sec.rbCount = s.sec.rbCount ∧ t.isl.mem = false ∧ t.pwr.pmbus = some .powerOn := by
      refine answers_of_exec hx ?_
      obtain ⟨howner, -, -, hrb, -⟩ := s.atPowerOn_tack
      obtain ⟨hsel, hcore, hen⟩ := s.atPowerOn_reset
      obtain ⟨hmisc0, hen0⟩ := s.atPowerOn.loadPersistent_evtEn
      simp only [eventInterrupt_frame, hmisc, hevt, hsec, hmisc0, hen0]
      exact ⟨hext, hsel, hcore, hen, howner, hrb, hmem, hask⟩
    refine (hstate.and (answers_aonPowerOn_above ext a b s)).imp fun t ht => ?_
    obtain ⟨⟨hx, h1, h2, h3, h4, h5, h6, h7⟩, habove⟩ := ht
    exact ⟨hx, h1, h2, h3, h4, h5, h6, h7, fun copy p hp => (habove copy p hp).symm⟩
  case refine_3 =>
    have hx := exec_identify hexec
    rw [if_pos (by simp [aligned16, halign])] at hx
    generalize hregs : (List.range 8).flatMap (fun k => bvBytes 4 (regIdentity { serial := hi32 Config.serial.toNat } (4 * k))) = regs at hx
    have hlen : regs.length = 32 := hregs ▸ identityRegs_length _
    have hid : regs.take 4 = [0x09, 0x00, 0x58, 0x4D] := by
      rw [← hregs]
      rfl
    have hc := (hexec.ending.of_eq (v := (s.executing c).toHost (opField c 8 8) (regs ++ deviceKey)) rfl rfl rfl).completes
      stSuccess (dwords 64 0 0 0)
    refine answers_of_exec_of_evt_eq hx ?_ ⟨hc, regs ++ deviceKey, ?_, ?_, ?_, ?_⟩
    · simp [State.ok, State.toHost, State.emit]
    · simp [hlen, deviceKey_length]
    · rw [List.take_append_of_le_length (by omega), hid]
    · rw [List.drop_append_of_le_length (by omega), ← hlen, List.drop_length, List.nil_append]
    · simp [State.ok, State.toHost, State.emit]
  case refine_4 =>
    have hx := exec_identify hexec
    rw [if_neg (by simp [aligned16, halign])] at hx
    exact (answers_badOperand hexec hx).imp fun t ⟨hc, ht⟩ => ⟨hc, by rw [ht]⟩
  case refine_5 =>
    refine answers_of_exec_of_evt_eq (exec_canBusOffRecovery hoff) rfl ⟨by simp, fun k hk => ?_, rfl⟩
    exact Bank.at_upd_of_ne _ _ (Ne.symm hk)
  case refine_6 => exact answers_of_exec_of_evt_eq (exec_ethLinkChange hboot hisl (fun _ => hspeed)) rfl (by simp)
  case refine_7 => exact answers_of_exec_of_evt_eq (exec_ethLinkChange hboot hisl nofun) rfl (by simp)

end Sys2Proof.Machine
end

section
/-! SUPPORT. The studbook: requests, the record queue and captures (13 R367, R368, R370). -/

namespace Sys2Proof.Machine

open Sys2Proof Sys2Proof.Machine

theorem leNat_leBytes (n : Nat) : ∀ v, leNat (leBytes n v) = v % 256 ^ n := by
  induction n with
  | zero => intro v; simp [leBytes, leNat, Nat.mod_one]
  | succ n ih =>
    intro v
    have hb : (BitVec.ofNat 8 v).toNat = v % 256 := BitVec.toNat_ofNat v 8
    rw [leBytes, leNat, ih, hb, Nat.pow_succ', Nat.mod_mul]

theorem ofNat_leNat_bvBytes {w n : Nat} (v : BitVec w) (h : 2 ^ w ≤ 256 ^ n) : BitVec.ofNat w (leNat (bvBytes n v)) = v := by
  rw [bvBytes, leNat_leBytes, Nat.mod_eq_of_lt (by have := v.isLt; omega)]
  simp

/-- A request with 16 detail bytes reaches the recorder at once while the MEM island is ready and nothing waits (13 R367, R369). -/
theorem State.studbook_ready {s : State} {trigger : BitVec 6} {subject : BitVec 8} {detail : BitVec 128} (hmem : s.isl.mem = true)
    (hcross : s.cross.toRecorder = []) : s.studbook trigger subject.toNat (bvBytes 16 detail) =
      s.recorderTakes { trigger := trigger, subject := subject, detail := detail, time := s.now, occur := 1 } := by
  have hd : BitVec.ofNat 128 (leNat ((bvBytes 16 detail).take 16)) = detail := by
    rw [List.take_of_length_le (Nat.le_of_eq (bvBytes_length _ _))]
    exact ofNat_leNat_bvBytes detail (by decide)
  unfold State.studbook
  rw [hd]
  simp [hmem, hcross]

theorem exec_studbookRequest {trigger : BitVec 6} {subject : BitVec 8} {detail : BitVec 128} {s : State} (h0 : trigger ≠ 0)
    (hhi : trigger.toNat < 0x26) (h1 : trigger.toNat < 0x0D ∨ 0x0F < trigger.toNat) (h2 : trigger.toNat < 0x1C ∨ 0x1F < trigger.toNat)
    (hmem : s.isl.mem = true) (hcross : s.cross.toRecorder = []) : exec (.studbookRequest trigger subject detail) s =
      answer s (s.recorderTakes { trigger := trigger, subject := subject, detail := detail, time := s.now, occur := 1 }) := by
  have h0' : trigger.toNat ≠ 0 := fun h => h0 (BitVec.eq_of_toNat_eq h)
  refine (congrArg (answer s) (if_neg ?_)).trans (congrArg (answer s) (State.studbook_ready hmem hcross))
  simp
  omega

/-- The identifiers that no event requests (13 R373). -/
theorem exec_studbookRequest_never {trigger : BitVec 6} {subject : BitVec 8} {detail : BitVec 128} {s : State}
    (h : trigger = 0 ∨ 0x26 ≤ trigger.toNat) : exec (.studbookRequest trigger subject detail) s = answer s s := by
  refine congrArg (answer s) (if_pos ?_)
  rcases h with h | h <;> simp [h]

theorem State.recorderTakes_disabled {s : State} {q : StbReq} (h : s.stb.cfg.enabled q.trigger = false) : s.recorderTakes q = s := by
  simp [State.recorderTakes, h]

theorem State.recorderTakes_refuses {s : State} {q : StbReq} (hen : s.stb.cfg.enabled q.trigger = true)
    (h : s.stb.stopped = true ∨ s.stb.full = true) :
    s.recorderTakes q = { s with stb := { s.stb with refused := satAdd 0xFFFFFFFF s.stb.refused 1 } } := by
  unfold State.recorderTakes
  rw [if_neg (by simp [hen]), if_pos (by simpa using h)]

theorem State.recorderTakes_enters {s : State} {q : StbReq} (hen : s.stb.cfg.enabled q.trigger = true)
    (hst : s.stb.stopped = false) (hfull : s.stb.full = false) (hl : s.stb.loses q = false) :
    s.recorderTakes q = { s with stb := s.stb.enter q } := by
  unfold State.recorderTakes
  rw [if_neg (by simp [hen]), if_neg (by simp [hst, hfull]), if_neg (by simp [hl])]

theorem State.recorderTakes_loses {s : State} {q : StbReq} (hen : s.stb.cfg.enabled q.trigger = true)
    (hst : s.stb.stopped = false) (hfull : s.stb.full = false) (hl : s.stb.loses q = true) :
    s.recorderTakes q = { s with stb := s.stb.enter q, evt := { s.evt with stb := setBit s.evt.stb 4 } } := by
  unfold State.recorderTakes
  rw [if_neg (by simp [hen]), if_neg (by simp [hst, hfull]), if_pos hl]

theorem Stb.enter_merges {b : Stb} {q : StbReq} (hlen : 256 ≤ b.fifo.length)
    (h : ∃ e ∈ b.fifo, e.trigger = q.trigger ∧ e.subject = q.subject) : ∃ i, b.enter q = { b with
      fifo := b.fifo.modify i (fun e => { e with occur := satAdd 65535 e.occur q.occur }), merged := satAdd 0xFFFF b.merged 1 } := by
  unfold Stb.enter
  rw [if_neg (by omega)]
  split
  · exact ⟨_, rfl⟩
  · next hnone =>
    obtain ⟨e, he, htrig, hsub⟩ := h
    have := List.findIdx?_eq_none_iff.mp hnone e he
    simp [htrig, hsub] at this

theorem Stb.enter_loses {b : Stb} {q : StbReq} (hlen : 256 ≤ b.fifo.length)
    (h : ∀ e ∈ b.fifo, e.trigger ≠ q.trigger ∨ e.subject ≠ q.subject) :
    b.enter q = { b with lostReq := satAdd 0xFFFF b.lostReq 1, lostSince := satAdd 0xFFFF b.lostSince 1 } := by
  have hnone : b.fifo.findIdx? (fun e => e.trigger == q.trigger && e.subject == q.subject) = none :=
    List.findIdx?_eq_none_iff.mpr fun e he => by
    rcases h e he with h | h <;> simp [h]
  unfold Stb.enter
  rw [if_neg (by omega), hnone]

theorem Stb.loses_iff (b : Stb) (q : StbReq) : b.loses q = true ↔
    256 ≤ b.fifo.length ∧ ∀ e ∈ b.fifo, e.trigger ≠ q.trigger ∨ e.subject ≠ q.subject := by
  simp only [Stb.loses, Bool.and_eq_true, decide_eq_true_eq, Bool.not_eq_true', List.any_eq_false, Bool.and_eq_true, beq_iff_eq,
    Decidable.not_and_iff_not_or_not, ne_eq]

/-- The fields of a record that the recorder itself reads back (13 R370). -/
theorem State.recordBytes_fields (s : State) (seq gen : Nat) (r : RecordParts) :
    (s.recordBytes seq gen r).length = 256 ∧ field (s.recordBytes seq gen r) 4 4 = seq % 2 ^ 32 ∧
    field (s.recordBytes seq gen r) 8 4 = gen % 2 ^ 32 := by
  have hsplit : ∃ rest, rest.length = 244 ∧
      s.recordBytes seq gen r = leBytes 4 0x53544231 ++ (leBytes 4 seq ++ (leBytes 4 gen ++ rest)) := by
    unfold State.recordBytes withCrc32c
    generalize crc32c _ = crc
    simp only [List.append_assoc]
    exact ⟨_, by simp [Laws.leBytes_length, bvBytes_length, padTo_length], rfl⟩
  obtain ⟨rest, hlen, hs⟩ := hsplit
  rw [hs]
  refine ⟨by simp [Laws.leBytes_length, hlen], ?_, ?_⟩
  · exact leNat_leBytes 4 seq
  · exact leNat_leBytes 4 gen

theorem State.recordBytes_stb (s : State) (b : Stb) (h : b.cfg = s.stb.cfg) (seq gen : Nat) (r : RecordParts) :
    State.recordBytes { s with stb := b } seq gen r = s.recordBytes seq gen r := by
  unfold State.recordBytes State.wallValid
  dsimp only
  rw [h]
  rfl

/-- The record queue empties into the SB lane and counts the records of the current log; nothing else changes (13 R368). -/
theorem State.passRecords_eq_with : ∀ (fuel : Nat) (s : State),
    ∃ m q n, State.passRecords fuel s = { s with mem := m, stb := { s.stb with queue := q, records := n } } := by
  intro fuel
  induction fuel with
  | zero => exact fun s => ⟨s.mem, s.stb.queue, s.stb.records, rfl⟩
  | succ fuel ih =>
    intro s
    unfold State.passRecords
    split
    · exact ⟨s.mem, s.stb.queue, s.stb.records, rfl⟩
    · split
      · exact ⟨s.mem, s.stb.queue, s.stb.records, rfl⟩
      · obtain ⟨m, q, n, h⟩ := ih _
        exact ⟨m, q, n, h⟩

theorem State.passRecords_nil {s : State} (fuel : Nat) (h : s.stb.queue = []) : State.passRecords fuel s = s := by
  cases fuel with
  | zero => rfl
  | succ fuel => unfold State.passRecords; rw [h]

theorem State.passRecords_one {s : State} {r : List Byte} (fuel : Nat) (hq : s.stb.queue = [r]) (hroom : s.mem.queue.sb.length + 16 ≤ 512)
    (hgen : field r 8 4 = s.stb.logGen.toNat) : State.passRecords (fuel + 1) s =
      { s.mramStore (slotAddr (field r 4 4)) r with stb := { s.stb with queue := [], records := field r 4 4 + 1 } } := by
  unfold State.passRecords
  rw [hq]
  dsimp only
  rw [if_neg (by omega), State.passRecords_nil _ rfl, if_pos (by simp [hgen])]
  rfl

theorem State.startLog_idle {s : State} (h : s.stb.clearing = none) : s.startLog = s := by
  unfold State.startLog
  rw [h]

theorem Stb.takeOne_of_cons {b : Stb} {q : StbReq} {rest : List StbReq} (hfifo : b.fifo = q :: rest) (hclear : b.clearing = none) :
    b.takeOne = { b with fifo := rest } := by
  simp [Stb.takeOne, hfifo, hclear]

theorem State.recorder_goes {s : State} (hruns : s.recorderRuns = true) (hroom : s.stb.queue.length < 32) :
    ¬ (!s.recorderRuns || decide (32 ≤ s.stb.queue.length)) = true := by
  simp [hruns, hroom]

/-- The oldest request becomes the next record (13 R368). -/
theorem exec_recordCapture_record {us : Nat} {q : StbReq} {rest : List StbReq} {s : State} (hruns : s.recorderRuns = true)
    (hclear : s.stb.clearing = none) (hfull : s.stb.full = false) (hmade : s.stb.made ≠ 32767) (hfifo : s.stb.fifo = q :: rest)
    (hroom : s.stb.queue.length < 32) : exec (.recordCapture us) s = answer s (State.startLog
      (State.captureRecord { s with stb := { s.stb with fifo := rest } } q (bvBytes 16 q.detail) (min 200 us))) := by
  have hx : exec (.recordCapture us) s = execRecordCapture us s := rfl
  rw [hx]
  unfold execRecordCapture
  rw [if_neg (State.recorder_goes hruns hroom), if_neg (by simp [hclear]), hfifo, Stb.takeOne_of_cons hfifo hclear]
  dsimp only
  rw [if_neg (by simp [hfull]), if_neg hmade]

/-- The last slot takes LOG_FULL, and the request is refused (13 R371, R375). -/
theorem exec_recordCapture_last {us : Nat} {q : StbReq} {rest : List StbReq} {s : State} (hruns : s.recorderRuns = true)
    (hclear : s.stb.clearing = none) (hfull : s.stb.full = false) (hmade : s.stb.made = 32767) (hfifo : s.stb.fifo = q :: rest)
    (hroom : s.stb.queue.length < 32) : ∃ x : State,
      x = State.captureRecord { s with stb := { s.stb with fifo := rest } }
        { trigger := 0x3F, subject := 0, detail := 0, time := q.time, occur := 1 } [q.trigger.setWidth 8] (min 200 us) ∧
      exec (.recordCapture us) s = answer s (State.startLog { x.stbEvent 1 with stb := { x.stb with
        full := true, refused := satAdd 0xFFFFFFFF x.stb.refused q.occur } }) := by
  refine ⟨_, rfl, ?_⟩
  have hx : exec (.recordCapture us) s = execRecordCapture us s := rfl
  rw [hx]
  unfold execRecordCapture
  rw [if_neg (State.recorder_goes hruns hroom), if_neg (by simp [hclear]), hfifo, Stb.takeOne_of_cons hfifo hclear]
  dsimp only
  rw [if_neg (by simp [hfull]), if_pos hmade]

/-- A full log refuses the oldest request (13 R375). -/
theorem exec_recordCapture_full {us : Nat} {q : StbReq} {rest : List StbReq} {s : State} (hruns : s.recorderRuns = true)
    (hclear : s.stb.clearing = none) (hfull : s.stb.full = true) (hfifo : s.stb.fifo = q :: rest) (hroom : s.stb.queue.length < 32) :
    exec (.recordCapture us) s =
      answer s { s with stb := { s.stb with fifo := rest, refused := satAdd 0xFFFFFFFF s.stb.refused q.occur } } := by
  have hx : exec (.recordCapture us) s = execRecordCapture us s := rfl
  rw [hx]
  unfold execRecordCapture
  rw [if_neg (State.recorder_goes hruns hroom), if_neg (by simp [hclear]), hfifo, Stb.takeOne_of_cons hfifo hclear]
  dsimp only
  rw [if_pos hfull]
  exact congrArg (answer s) (State.startLog_idle hclear)

theorem exec_recordCapture_rests {us : Nat} {s : State} (h : s.recorderRuns = false ∨ 32 ≤ s.stb.queue.length) :
    exec (.recordCapture us) s = answer s s :=
  congrArg (answer s) (if_pos (by simpa using h))

/-- What a record says of its request; the snapshot is the rest (13 R370). -/
structure RecordParts.Says (r : RecordParts) (q : StbReq) (detail : List Byte) (capUs : Nat) (prev : List Byte) (lost : Nat) : Prop where
  trigger : r.trigger = q.trigger
  subject : r.subject = q.subject
  time    : r.time = q.time
  occur   : r.occur = q.occur
  detail  : r.detail = detail
  capUs   : r.capUs = capUs
  prev    : r.prev = prev
  lost    : r.lost = lost

/-- A captured record joins the record queue, chained to the head, and passes on from there (13 R368, R370). -/
theorem State.captureRecord_eq (s : State) (q : StbReq) (detail : List Byte) (us : Nat) : ∃ (r : RecordParts) (sh : Shadows),
    r.Says q detail ((s.now - q.time) / ticksPerUs + us) (s.stb.head.take 16) s.stb.lostSince ∧
    s.captureRecord q detail us = State.passRecords 32 { s with stb := { s.stb with
      sh := sh, queue := s.stb.queue ++ [s.recordBytes s.stb.made s.stb.logGen.toNat r], made := s.stb.made + 1
      head := sha512 (s.recordBytes s.stb.made s.stb.logGen.toNat r), lostSince := 0 } } := by
  unfold State.captureRecord
  unfold State.addRecord
  dsimp only
  have hbytes (sh : Shadows) (seq gen : Nat) (r : RecordParts) :
      State.recordBytes { s with stb := { s.stb with sh := sh } } seq gen r = s.recordBytes seq gen r := State.recordBytes_stb s _ rfl seq gen r
  rw [hbytes]
  exact ⟨_, _, ⟨rfl, rfl, rfl, rfl, rfl, rfl, rfl, rfl⟩, rfl⟩

/-- A captured record changes the log, and what of it has reached the SB lane (13 R368). -/
theorem State.captureRecord_eq_with (s : State) (q : StbReq) (detail : List Byte) (us : Nat) : ∃ m b,
    s.captureRecord q detail us = { s with mem := m, stb := b } ∧ b.made = s.stb.made + 1 ∧ b.refused = s.stb.refused ∧
    b.fifo = s.stb.fifo ∧ b.clearing = s.stb.clearing := by
  obtain ⟨r, sh, -, hr⟩ := s.captureRecord_eq q detail us
  rw [hr]
  generalize s.recordBytes s.stb.made s.stb.logGen.toNat r = bytes
  obtain ⟨m, k, n, hpass⟩ := State.passRecords_eq_with 32 { s with stb := { s.stb with
    sh := sh, queue := s.stb.queue ++ [bytes], made := s.stb.made + 1, head := sha512 bytes, lostSince := 0 } }
  exact ⟨m, _, hpass, rfl, rfl, rfl, rfl⟩

theorem regionOf_studbook {a : Nat} (h : 0x1800000 ≤ a) : regionOf a ≠ .reserved := by
  unfold regionOf
  repeat rw [if_neg (by omega)]
  decide

theorem slotAddr_aligned (n : Nat) : slotAddr n % 16 = 0 := by
  unfold slotAddr
  omega

/-- A record that is stored in its slot reads back (13 R365). -/
theorem State.mramStore_slotAddr (s : State) (n : Nat) {bytes : List Byte} (hlen : bytes.length = 256) :
    (s.mramStore (slotAddr n) bytes).mramRead (slotAddr n) 256 = bytes := by
  have h := Mem.mramBytes_storeBytes s.mem s.now (slotAddr_aligned n) (bytes := bytes) (by omega) fun a ha _ =>
    regionOf_studbook (by unfold slotAddr at ha; omega)
  rw [hlen] at h
  exact h

/-- A record that finds the record queue empty and room in the SB lane is stored at once (13 R368). -/
theorem State.captureRecord_alone {s : State} (q : StbReq) (detail : List Byte) (us : Nat) (hqueue : s.stb.queue = [])
    (hroom : s.mem.queue.sb.length + 16 ≤ 512) (hmade : s.stb.made < 2 ^ 32) : ∃ (r : RecordParts) (sh : Shadows) (m : Mem),
    r.Says q detail ((s.now - q.time) / ticksPerUs + us) (s.stb.head.take 16) s.stb.lostSince ∧
    m.mramBytes (slotAddr s.stb.made) 256 = s.recordBytes s.stb.made s.stb.logGen.toNat r ∧
    s.captureRecord q detail us = { s with mem := m, stb := { s.stb with
      sh := sh, queue := [], records := s.stb.made + 1, made := s.stb.made + 1
      head := sha512 (s.recordBytes s.stb.made s.stb.logGen.toNat r), lostSince := 0 } } := by
  obtain ⟨r, sh, hsays, hr⟩ := s.captureRecord_eq q detail us
  obtain ⟨hlen, hseq, hgen⟩ := s.recordBytes_fields s.stb.made s.stb.logGen.toNat r
  rw [Nat.mod_eq_of_lt hmade] at hseq
  rw [Nat.mod_eq_of_lt s.stb.logGen.isLt] at hgen
  have hread := s.mramStore_slotAddr s.stb.made hlen
  refine ⟨r, sh, (s.mramStore (slotAddr s.stb.made) (s.recordBytes s.stb.made s.stb.logGen.toNat r)).mem, hsays, hread, ?_⟩
  rw [hr, hqueue]
  generalize s.recordBytes s.stb.made s.stb.logGen.toNat r = bytes at hseq hgen
  refine (State.passRecords_one (s := { s with stb := { s.stb with
    sh := sh, queue := [bytes], made := s.stb.made + 1, head := sha512 bytes, lostSince := 0 } }) 31 rfl hroom hgen).trans ?_
  rw [hseq]
  rfl

end Sys2Proof.Machine
end

section
/-! SUPPORT. The studbook: the fault cells, and the end of a clear (13 R374, R375, R379). -/

namespace Sys2Proof.Machine

open Sys2Proof Sys2Proof.Machine

/-- What a store of whole codewords leaves of the bytes elsewhere. -/
theorem Mem.mramBytes_storeBytes_of_disjoint (m : Mem) (now : Nat) {addr a n : Nat} {bytes : List Byte} (haddr : addr % 16 = 0)
    (hlen : bytes.length % 16 = 0) (hregion : ∀ a, addr ≤ a → a < addr + bytes.length → regionOf a ≠ .reserved)
    (hdis : a + n ≤ addr ∨ addr + bytes.length ≤ a) : (m.storeBytes now addr bytes).mramBytes a n = m.mramBytes a n := by
  refine List.ext_getElem (by simp) fun i hi _ => ?_
  have hi' : i < n := by simpa using hi
  rw [Mem.mramBytes_getElem, Mem.mramBytes_getElem, Mem.mramByte_storeBytes m now haddr hlen hregion, if_neg (by omega)]

theorem regionOf_faultCell {n : Fin 3} {a : Nat} (hlo : faultCell n ≤ a) (hhi : a < faultCell n + 0x1000) : regionOf a ≠ .reserved := by
  have hcell : (0x700000 ≤ a ∧ a < 0x701000) ∨ (0xF00000 ≤ a ∧ a < 0xF01000) ∨ (0x1700000 ≤ a ∧ a < 0x1701000) := by
    unfold faultCell at hlo hhi
    split at hlo
    · simp_all
    · split at hlo <;> simp_all
  unfold regionOf
  rcases hcell with h | h | h
  · rw [if_neg (by omega), if_neg (by omega), if_pos (by omega)]
    decide
  · repeat rw [if_neg (by omega)]
    rw [if_pos (by omega)]
    decide
  · repeat rw [if_neg (by omega)]
    rw [if_pos (by omega)]
    decide

theorem faultCells_apart (n k : Fin 3) (h : n ≠ k) : faultCell n + 0x1000 ≤ faultCell k ∨ faultCell k + 0x1000 ≤ faultCell n := by
  revert n k
  decide

/-- The same bytes stored in all three fault cells read back in each (01 R27). -/
theorem State.storeCells (s : State) {off : Nat} {bytes : List Byte} (hoff : off % 16 = 0) (hlen : bytes.length % 16 = 0)
    (hfit : off + bytes.length ≤ 0x1000) : ∃ m, (places 3).foldl (fun s n => s.mramStore (faultCell n + off) bytes) s = { s with mem := m } ∧
      ∀ n, m.mramBytes (faultCell n + off) bytes.length = bytes := by
  have hcell (n : Fin 3) : (faultCell n + off) % 16 = 0 := by
    have : faultCell n % 16 = 0 := by revert n; decide
    omega
  have hregion (n : Fin 3) (a : Nat) (h1 : faultCell n + off ≤ a) (h2 : a < faultCell n + off + bytes.length) : regionOf a ≠ .reserved :=
    regionOf_faultCell (n := n) (by omega) (by omega)
  have hkeep (m : Mem) (n k : Fin 3) (hne : n ≠ k) (h : m.mramBytes (faultCell n + off) bytes.length = bytes) :
      (m.storeBytes s.now (faultCell k + off) bytes).mramBytes (faultCell n + off) bytes.length = bytes := by
    rw [Mem.mramBytes_storeBytes_of_disjoint m s.now (hcell k) hlen (hregion k) (by have := faultCells_apart n k hne; omega), h]
  have hread (m : Mem) (n : Fin 3) := Mem.mramBytes_storeBytes m s.now (hcell n) hlen (hregion n)
  refine ⟨((s.mem.storeBytes s.now (faultCell 0 + off) bytes).storeBytes s.now (faultCell 1 + off) bytes).storeBytes s.now
    (faultCell 2 + off) bytes, rfl, fun n => ?_⟩
  match n with
  | 0 => exact hkeep _ 0 2 (by decide) (hkeep _ 0 1 (by decide) (hread _ 0))
  | 1 => exact hkeep _ 1 2 (by decide) (hread _ 1)
  | 2 => exact hread _ 2

theorem FaultWord.bytes_length (w : FaultWord) : w.bytes.length = 32 := by
  simp [FaultWord.bytes, withCrc32c, Laws.leBytes_length, bvBytes_length]

/-- The fault word that damage leaves (13 R379). -/
def FaultWord.Tells (w : FaultWord) (s : State) (kind : BitVec 8) (slot : Nat) : Prop :=
  w.kind = kind ∧ w.slot = slot ∧ w.bank = (if slot < 16384 then 6 else 7) ∧ w.gen = s.stb.logGen.toNat ∧ w.oph = s.oph

/-- The recorder finds damage: a fault word in every cell while there is room, and it stops (13 R379). -/
theorem State.recorderFault_eq {s : State} (kind : BitVec 8) (slot : Nat) (hclear : s.stb.clearing = none) : ∃ m ws,
    s.recorderFault kind slot = { s with
      mem := m, evt := { s.evt with stb := setBit s.evt.stb 2 }
      stb := { s.stb with faults := ws, stopped := true, fifo := [], queue := [] } } ∧
    (s.stb.faults.length < 16 → ∃ w : FaultWord, w.Tells s kind slot ∧ ws = s.stb.faults ++ [w] ∧
      ∀ n, m.mramBytes (faultCell n + 32 * s.stb.faults.length) 32 = w.bytes) := by
  unfold State.recorderFault
  extract_lets hit f k s1 _ s2 v s3
  have h2 : ∃ m ws, s2 = { s with mem := m, stb := { s.stb with faults := ws } } ∧ (k < 16 → ∃ w : FaultWord, w.Tells s kind slot ∧
      ws = s.stb.faults ++ [w] ∧ ∀ n, m.mramBytes (faultCell n + 32 * k) 32 = w.bytes) := by
    by_cases hk : k < 16
    · obtain ⟨m, hm, hread⟩ := s.storeCells (off := 32 * k) (bytes := f.bytes) (by omega) (by rw [f.bytes_length])
        (by rw [f.bytes_length]; omega)
      have h1 : s1 = { s with mem := m } := hm
      refine ⟨m, s.stb.faults ++ [f], ?_, fun _ => ⟨f, ⟨rfl, rfl, rfl, rfl, rfl⟩, rfl, fun n => ?_⟩⟩
      · unfold s2
        rw [if_pos hk, h1]
        rfl
      · have := hread n
        rwa [f.bytes_length] at this
    · refine ⟨s.mem, s.stb.faults, ?_, fun h => absurd h hk⟩
      unfold s2
      rw [if_neg hk]
  obtain ⟨m, ws, h2, hw⟩ := h2
  have h3 : s3 = { s with mem := m, stb := { s.stb with faults := ws, stopped := true, fifo := [], queue := [] } } := by
    simp only [s3, v, h2]
  refine ⟨m, ws, ?_, hw⟩
  rw [h3]
  unfold State.cancelClear State.stbEvent
  dsimp only
  rw [hclear]

theorem exec_recorderFault {kind : BitVec 8} {slot : BitVec 15} {s : State} (h1 : 1 ≤ kind.toNat) (h4 : kind.toNat ≤ 4) :
    exec (.recorderFault kind (decide (16384 ≤ slot.toNat)) slot) s = answer s (s.recorderFault kind slot.toNat) := by
  refine congrArg (answer s) (if_neg ?_)
  rintro (h | h | h)
  · rw [h] at h1
    exact absurd h1 (by decide)
  · omega
  · exact h rfl

/-- The refused count stands in every cell once it is written (13 R375). -/
theorem State.writeRefused_eq (s : State) : ∃ m, s.writeRefused =
      { s with mem := m, stb := { s.stb with refWritten := s.stb.refused, refAt := some s.now } } ∧
    ∀ n, m.mramBytes (faultCell n + 0x800) 16 = refusedBlock s.stb.logGen.toNat s.stb.refused := by
  obtain ⟨m, hm, hread⟩ := s.storeCells (off := 0x800) (bytes := refusedBlock s.stb.logGen.toNat s.stb.refused) (by decide)
    (by rw [refusedBlock_length]) (by rw [refusedBlock_length]; decide)
  refine ⟨m, ?_, fun n => ?_⟩
  · unfold State.writeRefused
    dsimp only
    rw [hm]
    rfl
  · have := hread n
    rwa [refusedBlock_length] at this

theorem exec_refusedCountWrite {s : State} (hne : s.stb.refused ≠ s.stb.refWritten)
    (hdue : ∀ at_, s.stb.refAt = some at_ → at_ + 60 * ticksPerS ≤ s.now) (hmem : s.isl.mem = true) :
    exec .refusedCountWrite s = answer s s.writeRefused := by
  refine congrArg (answer s) (if_pos ⟨hne, ?_, hmem⟩)
  split
  · next at_ h => simpa using hdue at_ h
  · rfl

theorem exec_refusedCountWrite_same {s : State} (h : s.stb.refused = s.stb.refWritten) : exec .refusedCountWrite s = answer s s :=
  congrArg (answer s) (if_neg fun hh => hh.1 h)

theorem Hif.finalOf_recordFinal_of_ne {h : Hif} {stamp other : BitVec 32} (x : BitVec 8) (stream : Bool) (hne : other ≠ stamp)
    (htr : h.tracked stamp = true) : (h.recordFinal other x stream).finalOf stamp = h.finalOf stamp := by
  have hkept : (h.finals.filter (fun f => h.tracked f.stamp && f.stamp != other)).find? (fun f => f.stamp == stamp) =
      h.finals.find? (fun f => f.stamp == stamp) := by
    rw [List.find?_filter]
    congr 1
    funext f
    by_cases hf : f.stamp = stamp
    · simp [hf, htr, Ne.symm hne]
    · simp [hf]
  unfold Hif.recordFinal Hif.finalOf
  dsimp only
  split
  · rw [List.find?_cons_of_neg (by simpa using hne), hkept]
  · exact hkept

theorem Hif.finalOf_recordFinal_self {h : Hif} {stamp : BitVec 32} (x : BitVec 8) (stream : Bool) (htr : h.tracked stamp = true) :
    (h.recordFinal stamp x stream).finalOf stamp = some ⟨stamp, x, stream⟩ := by
  unfold Hif.recordFinal Hif.finalOf
  simp [htr]

/-- A command has ended with a status, and its stamp is among those whose status is kept (02 R65). -/
def State.KeptEnd (t : State) (c : Cmd) (x : BitVec 8) : Prop := Ended t c x ∧ t.hif.tracked c.stamp = true

theorem Hif.flight_recordFinal_none {h : Hif} {stamp other : BitVec 32} {x : BitVec 8} {stream : Bool} (hnone : h.flight stamp = none) :
    (h.recordFinal other x stream).flight stamp = none := by
  have := Hif.find_map_flights h.flights stamp (fun f => { f with deps := f.deps.map (Dep.told other x) }) fun _ => rfl
  unfold Hif.recordFinal Hif.flight
  dsimp only
  rw [this]
  exact Option.map_eq_none_iff.mpr hnone

/-- The record of a final status keeps another command's end, or repeats it (02 R65). -/
theorem Hif.ended_recordFinal {h : Hif} {stamp other : BitVec 32} {x : BitVec 8} {stream : Bool} (hnone : h.flight stamp = none)
    (hfin : (h.finalOf stamp).map Final.status = some x) (htr : h.tracked stamp = true) :
    (h.recordFinal other x stream).flight stamp = none ∧ ((h.recordFinal other x stream).finalOf stamp).map Final.status = some x := by
  refine ⟨Hif.flight_recordFinal_none hnone, ?_⟩
  by_cases hne : other = stamp
  · rw [hne, Hif.finalOf_recordFinal_self x stream htr]
    rfl
  · rw [Hif.finalOf_recordFinal_of_ne x stream hne htr]
    exact hfin

theorem State.post_finals (s : State) (c : Cmd) (op x : BitVec 8) (r : BitVec 128) (final gap : Bool) :
    (s.post c op x r final gap).hif.finals = s.hif.finals := by
  unfold State.post
  dsimp only
  split <;> rfl

/-- A completion with the same status leaves an end as it is, whichever command it ends. -/
theorem State.KeptEnd.complete {t : State} {c : Cmd} {x : BitVec 8} (h : t.KeptEnd c x) (d : Cmd) (r : BitVec 128) :
    (t.complete d x r).KeptEnd c x := by
  obtain ⟨⟨hnone, hfin⟩, htr⟩ := h
  refine ⟨?_, (Hif.tracked_of_issued (State.complete_issued t d x r) _).trans htr⟩
  unfold State.complete
  split
  · exact Hif.ended_recordFinal hnone hfin htr
  · next f hf =>
    obtain ⟨hissued, hflights⟩ := State.post_hif_kept t f.cmd f.opcode x r true false
    have hfinals := State.post_finals t f.cmd f.opcode x r true false
    refine Hif.ended_recordFinal ?_ ?_ ((Hif.tracked_of_issued (k := t.hif) hissued _).trans htr)
    · unfold Hif.flight at hnone ⊢
      dsimp only
      rw [hflights]
      exact List.find?_eq_none.mpr fun g hg => List.find?_eq_none.mp hnone g (List.mem_filter.mp hg).1
    · unfold Hif.finalOf at hfin ⊢
      dsimp only
      rw [hfinals]
      exact hfin

theorem State.KeptEnd.foldl {α : Type} {c : Cmd} {x : BitVec 8} (l : List α) (f : State → α → State)
    (h : ∀ t a, t.KeptEnd c x → (f t a).KeptEnd c x) {s : State} (hs : s.KeptEnd c x) : (l.foldl f s).KeptEnd c x :=
  List.foldlRecOn l f (motive := fun t => t.KeptEnd c x) hs fun t ht a _ => h t a ht

theorem State.KeptEnd.of_hif {s t : State} {c : Cmd} {x : BitVec 8} (h : s.KeptEnd c x) (hhif : t.hif = s.hif) : t.KeptEnd c x := by
  unfold State.KeptEnd Ended at h ⊢
  rwa [hhif]

theorem State.KeptEnd.completeAll {t : State} {c : Cmd} {x : BitVec 8} (h : t.KeptEnd c x) (cs : List Cmd) (r : BitVec 128) :
    (t.completeAll cs x r).KeptEnd c x :=
  State.KeptEnd.foldl cs _ (fun _ d ht => ht.complete d r) h

theorem State.KeptEnd.settleWaits {t : State} {c : Cmd} (h : t.KeptEnd c stSuccess) : t.settleWaits.KeptEnd c stSuccess := by
  unfold State.settleWaits
  exact State.KeptEnd.foldl _ _ (fun _ w ht => ht.complete w.cmd w.result) (h.of_hif rfl)

theorem State.KeptEnd.settleDevice {t : State} {c : Cmd} (h : t.KeptEnd c stSuccess) : t.settleDevice.KeptEnd c stSuccess := by
  unfold State.settleDevice
  split
  · split
    · exact h
    · exact State.KeptEnd.completeAll (h.of_hif (by simp)) _ _
  · exact h

/-- A request that reaches a recorder that runs changes its FIFO and what it counts, and no event falls (13 R367). -/
theorem State.studbook_log {s : State} (t : BitVec 6) (n : Nat) (d : List Byte) (hst : s.stb.stopped = false) (hfull : s.stb.full = false) :
    (∃ fifo merged lost since, (s.studbook t n d).stb =
      { s.stb with fifo := fifo, merged := merged, lostReq := lost, lostSince := since }) ∧
    ∀ i, s.evt.stb.getLsbD i = true → (s.studbook t n d).evt.stb.getLsbD i = true := by
  have henter (q : StbReq) : ∃ fifo merged lost since, s.stb.enter q =
      { s.stb with fifo := fifo, merged := merged, lostReq := lost, lostSince := since } := by
    unfold Stb.enter
    split
    · exact ⟨_, _, _, _, rfl⟩
    · split <;> exact ⟨_, _, _, _, rfl⟩
  have hsame : ∃ fifo merged lost since, s.stb = { s.stb with fifo := fifo, merged := merged, lostReq := lost, lostSince := since } :=
    ⟨_, _, _, _, rfl⟩
  unfold State.studbook
  dsimp only
  split
  · unfold State.recorderTakes
    split
    · exact ⟨hsame, fun _ h => h⟩
    · rw [if_neg (by simp [hst, hfull])]
      split
      · exact ⟨henter _, fun i h => setBit_getLsbD_of_set 4 h⟩
      · exact ⟨henter _, fun _ h => h⟩
  · exact ⟨hsame, fun _ h => h⟩

/-- What ends when a codeword is written leaves a recorder that runs as it is, but for its FIFO and what that counts. -/
theorem State.settle_log {s : State} (hst : s.stb.stopped = false) (hfull : s.stb.full = false) :
    (∃ fifo merged lost since, s.settleDevice.settleWaits.stb =
      { s.stb with fifo := fifo, merged := merged, lostReq := lost, lostSince := since }) ∧
    ∀ i, s.evt.stb.getLsbD i = true → s.settleDevice.settleWaits.evt.stb.getLsbD i = true := by
  have hwaits (t : State) : t.settleWaits.stb = t.stb ∧ t.settleWaits.evt = t.evt := by
    unfold State.settleWaits
    dsimp only
    refine List.foldlRecOn (motive := fun u : State => u.stb = t.stb ∧ u.evt = t.evt) _ _ ⟨rfl, rfl⟩ fun u hu w _ => ?_
    exact ⟨by simpa [State.ok] using hu.1, by simpa [State.ok] using hu.2⟩
  rw [(hwaits _).1, (hwaits _).2]
  have hsame : ∃ fifo merged lost since, s.stb = { s.stb with fifo := fifo, merged := merged, lostReq := lost, lostSince := since } :=
    ⟨_, _, _, _, rfl⟩
  unfold State.settleDevice
  split
  · split
    · exact ⟨hsame, fun _ h => h⟩
    · next p _ _ =>
      obtain ⟨hlog, hevt⟩ := State.studbook_log (s := { s with
        cal := ({ s.cal with device := some p.entry, devQ := none, devBad := false, devSeq := leNat (s.mramRead (p.base + 4) 4) }).judge
        evt := { s.evt with cal := setBit s.evt.cal 3 } }) 0x0C 0xFF [3, 1, 0] hst hfull
      simp only [State.completeAll_frame]
      exact ⟨hlog, hevt⟩
  · exact ⟨hsame, fun _ h => h⟩

/-- The last codeword of record 0 is in MRAM: the clear takes place (13 R374). -/
theorem State.finishClear_eq {s : State} {x : Clearing} {bytes : List Byte} (hclear : s.stb.clearing = some x) (hfirst : x.first = some bytes)
    (hqueue : s.stb.queue = []) (hlane : s.mem.queue.sb = []) : ∃ y : State, ∃ res,
      s.finishClear = y.complete x.cmd stSuccess res ∧ y.hif = s.hif ∧ y.rings = s.rings ∧ y.clk = s.clk ∧
      y.evt = { s.evt with stb := setBit s.evt.stb 3 } ∧ y.stb = { s.stb with
        logGen := s.stb.logGen + 1, clearSeq := x.seq, made := 1, records := 1, head := sha512 bytes, refused := 0, full := false
        stopped := false, clearing := none, clearedAt := some s.now, refWritten := 0, refAt := some s.now } := by
  unfold State.finishClear
  rw [hclear]
  dsimp only
  rw [hfirst]
  dsimp only
  rw [if_neg (by simp [hqueue, hlane])]
  obtain ⟨z, hz⟩ : ∃ z, { s with stb := { s.stb with
    logGen := s.stb.logGen + 1, clearSeq := x.seq, made := 1, records := 1, head := sha512 bytes, refused := 0, full := false
    stopped := false, clearing := none, clearedAt := some s.now } } = z := ⟨_, rfl⟩
  rw [hz]
  obtain ⟨m, hm, -⟩ := z.writeRefused_eq
  rw [hm]
  subst hz
  exact ⟨_, _, rfl, rfl, rfl, rfl, rfl, rfl⟩

theorem State.writeCodeword_pops (s : State) (lane : Lane) (w : Codeword) : ∃ m, s.writeCodeword lane w true = { s with mem := m } ∧
    m.queue.lane lane = popLane s.now (s.mem.queue.lane lane) := by
  refine ⟨_, rfl, ?_⟩
  cases lane <;> rfl

/-- The slot that writes the last codeword of record 0 (11 R340; 13 R374). -/
theorem exec_mramWriteSlot_record {w : Codeword} {s : State} (hmem : s.isl.mem = true) (hslot : s.mem.queue.slot = 1)
    (hlane : s.mem.queue.sb = [w]) (hw : w.addr = slotAddr 0 + 240) (hqueue : s.stb.queue = []) : ∃ m, m.queue.sb = [] ∧
      exec (.mramWriteSlot true) s = answer s ((State.finishClear { s with
        mem := m, evt := { s.evt with stb := setBit s.evt.stb 0 } }).settleDevice.settleWaits) := by
  have hx : exec (.mramWriteSlot true) s = execMramWriteSlot true s := rfl
  have hchosen : s.mem.queue.chosen = some .sb := by
    simp [MramQueue.chosen, hslot, wheelOwner, wheelOrder, MramQueue.lane, hlane]
  have hl : s.mem.queue.lane .sb = [w] := hlane
  obtain ⟨m, hm, hpop⟩ := s.writeCodeword_pops .sb w
  have hrecord : (regionOf w.addr == .studbook) = true := by
    rw [hw]
    decide
  have hlast : (w.addr % 256 == 240) = true := by
    rw [hw]
    decide
  refine ⟨m, ?_, ?_⟩
  · rw [hl] at hpop
    exact hpop.trans (by simp [popLane])
  rw [hx]
  unfold execMramWriteSlot
  rw [if_neg (by simp [hmem]), hchosen]
  dsimp only
  rw [hl]
  dsimp only
  rw [hrecord, hlast, hm]
  exact congrArg (fun t : State => answer s t.finishClear.settleDevice.settleWaits) (State.passRecords_nil 32 hqueue)

end Sys2Proof.Machine
end

section
/-! SUPPORT. The studbook keeps its log (13 R367, R368, R371, R374, R375, R379, R382). -/

namespace Sys2Proof.Machine

open Sys2Proof Sys2Proof.Machine

theorem exec_studbookClear {c : Cmd} {f : Flight} {pkg : List Byte} {s : State} (h : Executing s c f) :
    exec (.studbookClear c pkg) s = answer s (studbookClear c pkg (s.executing c)) := by
  have hx : exec (.studbookClear c pkg) s = execStudbookClear c pkg s := rfl
  rw [hx]
  unfold execStudbookClear
  rw [run_executing h]

section
variable {c : Cmd} {pkg : List Byte} {s : State}

theorem studbookClear_length (h : opField c 8 4 ≠ 96) : studbookClear c pkg s = s.badOperand c := if_pos (Or.inl h)

/-- The package of a STUDBOOK_CLEAR that verifies (13 R374). -/
structure ClearPackage (c : Cmd) (pkg : List Byte) (s : State) : Prop where
  operand : opField c 8 4 = 96
  length  : pkg.length = 96
  head    : packageHead 0x1101 pkg = true
  signed  : packageSigned s.sec.owner pkg = true

theorem studbookClear_old (h : ClearPackage c pkg s) (hseq : field pkg 4 4 ≤ s.stb.clearSeq.toNat) :
    studbookClear c pkg s = s.refuse c 0x0B01 := by
  obtain ⟨hop, hlen, hhead, hsigned⟩ := h
  unfold studbookClear
  dsimp only
  rw [if_neg (by simp [hop, hlen, hhead]), if_neg (by simp [hsigned]), if_pos hseq]

/-- A package that names no head, sent to a log that no clear began (13 R374). -/
theorem studbookClear_any (h : ClearPackage c pkg s) (hseq : s.stb.clearSeq.toNat < field pkg 4 4) (hnever : s.stb.clearedAt = none)
    (hzero : (pkg.drop 0x10).take 16 = List.replicate 16 0) : studbookClear c pkg s =
      if 16 ≤ s.stb.faults.length then s.refuse c 0x0B04
      else if s.stb.clearing.isSome then s.busy c
      else State.startLog { s with stb := { s.stb with
        clearing := some { cmd := c, seq := BitVec.ofNat 32 (field pkg 4 4), left := s.stb.fifo.length } } } := by
  obtain ⟨hop, hlen, hhead, hsigned⟩ := h
  unfold studbookClear
  rw [hnever, hzero]
  dsimp only
  rw [if_neg (by simp [hop, hlen, hhead]), if_neg (by simp [hsigned]), if_neg (by omega), if_neg (by decide), if_neg (by simp)]

theorem State.startLog_waits {x : Clearing} (h : s.stb.clearing = some x) (hleft : x.left ≠ 0) : s.startLog = s := by
  unfold State.startLog
  rw [h]
  exact if_neg fun hh => hleft hh.1

theorem exec_studbookRead {bad : Option Nat} {f : Flight} (h : Executing s c f) :
    exec (.studbookRead c bad) s = answer s (studbookRead c bad (s.executing c)) := by
  have hx : exec (.studbookRead c bad) s = execStudbookRead c bad s := rfl
  rw [hx]
  unfold execStudbookRead
  rw [run_executing h]

theorem studbookRead_faults {bad : Option Nat} (halign : opField c 8 8 % 16 = 0) (hfunc : opByte c 0x10 = 1) : studbookRead c bad s =
    (s.toHost (opField c 8 8) ((List.range 16).flatMap (fun k => padTo 32 ((s.faultAt k).getD [])))).ok c (dwords 0 s.recordsInMram 0 0) := by
  unfold studbookRead
  dsimp only
  rw [if_neg (by simp [hfunc, aligned16, halign]), if_pos hfunc]

theorem studbookRead_records (halign : opField c 8 8 % 16 = 0) (hfunc : opByte c 0x10 = 0) (hfirst : opField c 0 4 < s.recordsInMram)
    (hpos : 1 ≤ opField c 4 4) (hmax : opField c 4 4 ≤ 4096) : studbookRead c none s =
      (s.toHost (opField c 8 8) (s.mramRead (slotAddr (opField c 0 4))
        (256 * min (opField c 4 4) (s.recordsInMram - opField c 0 4)))).ok c
        (dwords (min (opField c 4 4) (s.recordsInMram - opField c 0 4)) s.recordsInMram 0 0) := by
  unfold studbookRead
  dsimp only
  rw [if_neg (by simp [hfunc, aligned16, halign]), if_neg (by simp [hfunc]), if_neg (by omega), if_neg (by omega)]

theorem studbookRead_bad (h : opField c 8 8 % 16 ≠ 0 ∨ 2 ≤ opByte c 0x10 ∨ (opByte c 0x10 = 0 ∧
    (s.recordsInMram < opField c 0 4 ∨ opField c 4 4 = 0 ∨ 4096 < opField c 4 4))) : studbookRead c none s = s.badOperand c := by
  unfold studbookRead
  dsimp only
  split
  · rfl
  · next hok =>
    have hok' : opByte c 0x10 ≤ 1 ∧ opField c 8 8 % 16 = 0 := by simpa [aligned16] using hok
    rw [if_neg (by omega), if_pos (by omega)]

/-- The copy that STUDBOOK_READ makes before the record that cannot be read (13 R382). -/
def State.readBefore (s : State) (c : Cmd) (bad : Nat) : State :=
  if bad - opField c 0 4 = 0 then s
  else s.toHost (opField c 8 8) (s.mramRead (slotAddr (opField c 0 4)) (256 * (bad - opField c 0 4)))

theorem studbookRead_uncorrectable {bad : Nat} (halign : opField c 8 8 % 16 = 0) (hfunc : opByte c 0x10 = 0) (hfirst : opField c 0 4 ≤ bad)
    (hlast : bad < opField c 0 4 + opField c 4 4) (hin : bad < s.recordsInMram) (hmax : opField c 4 4 ≤ 4096) :
    studbookRead c (some bad) s = (((s.readBefore c bad).memoryError .dmaRead ⟨(30 + bad / 16384) % 32, by omega⟩
      (256 * bad % 0x400000)).recorderFault 3 bad).complete c stMemUe (dwords (bad - opField c 0 4) 0 0 0) := by
  unfold studbookRead
  dsimp only
  rw [if_neg (by simp [hfunc, aligned16, halign]), if_neg (by simp [hfunc]), if_neg (by omega), if_pos (by omega)]
  rfl

end

theorem State.studbook_clearing (s : State) (t : BitVec 6) (n : Nat) (d : List Byte) :
    (s.studbook t n d).stb.clearing = s.stb.clearing := by
  have henter (q : StbReq) : (s.stb.enter q).clearing = s.stb.clearing := by
    unfold Stb.enter
    split
    · rfl
    · split <;> rfl
  unfold State.studbook State.recorderTakes
  dsimp only
  repeat' split
  all_goals simp [henter]

/-- An error in memory leaves the log's clear (01 R34). -/
theorem State.memoryError_clearing (s : State) (src : UeSrc) (bank : Fin 32) (off : Nat) :
    (s.memoryError src bank off).stb.clearing = s.stb.clearing := by
  unfold State.memoryError
  dsimp only
  repeat' split
  all_goals simp [State.studbook_clearing]

theorem map_modify_of_eq {α β : Type} {f : α → α} {g : α → β} (h : ∀ a, g (f a) = g a) (i : Nat) (l : List α) :
    (l.modify i f).map g = l.map g := by
  refine List.ext_getElem (by simp) fun k hk _ => ?_
  simp only [List.getElem_map, List.getElem_modify]
  split
  · exact h _
  · rfl

theorem exec_studbookRequest_disabled {trigger : BitVec 6} {subject : BitVec 8} {detail : BitVec 128} {s : State} (hmem : s.isl.mem = true)
    (hcross : s.cross.toRecorder = []) (hoff : s.stb.cfg.enabled trigger = false) :
    exec (.studbookRequest trigger subject detail) s = answer s s := by
  have hx : exec (.studbookRequest trigger subject detail) s = execStudbookRequest trigger subject detail s := rfl
  rw [hx]
  unfold execStudbookRequest
  dsimp only
  split
  · rfl
  · rw [State.studbook_ready hmem hcross, State.recorderTakes_disabled hoff]

theorem State.readBefore_eq (s : State) (c : Cmd) (bad : Nat) : (s.readBefore c bad).hif = s.hif ∧ (s.readBefore c bad).rings = s.rings ∧
    (s.readBefore c bad).clk = s.clk ∧ (s.readBefore c bad).stb = s.stb ∧ (opField c 0 4 < bad → (s.readBefore c bad).out = s.out ++
      [.hostWrite (BitVec.ofNat 64 (opField c 8 8)) (s.mramRead (slotAddr (opField c 0 4)) (256 * (bad - opField c 0 4)))]) := by
  unfold State.readBefore
  split
  · exact ⟨rfl, rfl, rfl, rfl, fun h => by omega⟩
  · exact ⟨rfl, rfl, rfl, rfl, fun _ => rfl⟩

theorem State.complete_stb (s : State) (c : Cmd) (x : BitVec 8) (r : BitVec 128) : (s.complete c x r).stb = s.stb := by simp

theorem State.complete_evt (s : State) (c : Cmd) (x : BitVec 8) (r : BitVec 128) : (s.complete c x r).evt = s.evt := by simp

/-- A command that writes bytes to the host and ends does nothing more. -/
theorem answers_of_hostWrite {i : Instr} {s : State} {c : Cmd} {f : Flight} {addr : Nat} {bytes : List Byte} {r : BitVec 128}
    (h : Executing s c f) (hx : exec i s = answer s (((s.executing c).toHost addr bytes).ok c r)) : Answers i s fun t =>
      OutEvent.hostWrite (BitVec.ofNat 64 addr) bytes ∈ t.out ∧ Completes s t c f 0x00 r ∧
      t = { s with hif := t.hif, rings := t.rings, out := t.out } := by
  refine answers_of_complete hx (h.ending.of_eq rfl rfl rfl) rfl fun t hc ht => ⟨?_, hc, ?_⟩
  · rw [ht]
    exact List.mem_append_right _ (List.mem_singleton.mpr rfl)
  · rw [ht]
    rfl

/-- The oldest request becomes the next record, which is stored at once (13 R368, R370). -/
theorem exec_recordCapture_alone {us : Nat} {q : StbReq} {rest : List StbReq} {s : State} (hruns : s.recorderRuns = true)
    (hclear : s.stb.clearing = none) (hfull : s.stb.full = false) (hmade : s.stb.made < 32767) (hfifo : s.stb.fifo = q :: rest)
    (hqueue : s.stb.queue = []) (hroom : s.mem.queue.sb.length ≤ 496) : ∃ (t : State) (r : RecordParts) (sh : Shadows),
    exec (.recordCapture us) s = answer s t ∧ t.evt = s.evt ∧
    r.Says q (bvBytes 16 q.detail) ((s.now - q.time) / ticksPerUs + min 200 us) (s.stb.head.take 16) s.stb.lostSince ∧
    t.stb = { s.stb with
      fifo := rest, sh := sh, queue := [], records := s.stb.made + 1, made := s.stb.made + 1
      head := sha512 (s.recordBytes s.stb.made s.stb.logGen.toNat r), lostSince := 0 } ∧
    t.mramRead (slotAddr s.stb.made) 256 = s.recordBytes s.stb.made s.stb.logGen.toNat r := by
  have hx := exec_recordCapture_record (us := us) hruns hclear hfull (by omega) hfifo (by simp [hqueue])
  obtain ⟨r, sh, m, hsays, hread, hr⟩ := State.captureRecord_alone (s := { s with stb := { s.stb with fifo := rest } }) q (bvBytes 16 q.detail)
    (min 200 us) hqueue (Nat.add_le_add_right hroom 16) (Nat.lt_of_lt_of_le hmade (by decide))
  have hbytes := State.recordBytes_stb s { s.stb with fifo := rest } rfl s.stb.made s.stb.logGen.toNat r
  rw [hr] at hx
  exact ⟨_, r, sh, hx.trans (congrArg (answer s) (State.startLog_idle hclear)), rfl, hsays, by rw [← hbytes], hread.trans hbytes⟩

/-- Settles O46. -/
theorem studbookKeepsItsLog : Obligations.StudbookKeepsItsLog := by
  unfold Obligations.StudbookKeepsItsLog
  refine ⟨fun trigger subject detail s h0 hhi h1 h2 hmem hcross hen hst hfull => ⟨fun hlen => ?_, fun hlen hlike => ?_, fun hlen hlike => ?_⟩,
    fun trigger subject detail s h => ?_, fun us q rest s hruns hclear hfull hmade hfifo hqueue hroom => ?_,
    fun us q rest s hruns hclear hfull hmade hfifo hroom => ?_, fun us q rest s hruns hclear hfull hfifo hroom => ?_, fun us s h => ?_,
    fun kind slot s h1 h4 hlen hclear => ?_, fun trigger subject detail s h0 hhi hmem hcross h => ?_, fun s hne hdue hmem => ?_,
    fun s h => ?_, fun c f pkg s hexec hop hlen hhead hsigned => ⟨fun hseq => ?_, fun hseq hnever hzero => ⟨fun hfaults => ?_, fun hfaults hclear hfifo => ?_⟩⟩,
    fun c f pkg s hexec hop => ?_, fun x f bytes w s hmem hclear hfirst hqueue hexec hslot hlane hw => ?_, fun c f s hexec halign hfunc => ?_,
    fun c f n s hexec halign hfunc hfirst hpos hmax hn => ?_, fun c f s hexec h => ?_,
    fun c f bad s hexec halign hfunc hfirst hlast hin hmax hclear => ?_⟩
  case refine_1 =>
    have hnot : s.stb.loses ⟨trigger, subject, detail, s.now, 1⟩ = false := by
      rw [← Bool.not_eq_true, Stb.loses_iff]
      omega
    have hx := exec_studbookRequest (subject := subject) (detail := detail) h0 hhi h1 h2 hmem hcross
    rw [State.recorderTakes_enters hen hst hfull hnot] at hx
    exact answers_of_exec_of_evt_eq hx rfl ⟨if_pos hlen, rfl⟩
  case refine_2 =>
    have hnot : s.stb.loses ⟨trigger, subject, detail, s.now, 1⟩ = false := by
      obtain ⟨e, he, htrig, hsub⟩ := hlike
      rw [← Bool.not_eq_true, Stb.loses_iff]
      rintro ⟨-, hall⟩
      exact (hall e he).elim (· htrig) (· hsub)
    have hx := exec_studbookRequest (subject := subject) (detail := detail) h0 hhi h1 h2 hmem hcross
    rw [State.recorderTakes_enters hen hst hfull hnot] at hx
    obtain ⟨i, hi⟩ := Stb.enter_merges (q := ⟨trigger, subject, detail, s.now, 1⟩) hlen hlike
    rw [hi] at hx
    refine answers_of_exec_of_evt_eq hx rfl ⟨by simp, ?_, rfl, rfl, rfl⟩
    exact map_modify_of_eq (f := fun e => { e with occur := satAdd 65535 e.occur 1 }) (g := StbReq.detail) (fun _ => rfl) i s.stb.fifo
  case refine_3 =>
    have hloses : s.stb.loses ⟨trigger, subject, detail, s.now, 1⟩ = true := (Stb.loses_iff _ _).mpr ⟨hlen, hlike⟩
    have hx := exec_studbookRequest (subject := subject) (detail := detail) h0 hhi h1 h2 hmem hcross
    rw [State.recorderTakes_loses hen hst hfull hloses, Stb.enter_loses hlen hlike] at hx
    refine answers_of_exec hx ?_
    simp only [eventInterrupt_frame]
    exact ⟨trivial, setBit_getLsbD_self _ (by decide), trivial, trivial, trivial⟩
  case refine_4 =>
    by_cases hnever : trigger = 0 ∨ 0x26 ≤ trigger.toNat
    · exact answers_of_exec_of_evt_eq (exec_studbookRequest_never hnever) rfl rfl
    · obtain ⟨hmem, hcross, hoff⟩ : s.isl.mem = true ∧ s.cross.toRecorder = [] ∧ s.stb.cfg.enabled trigger = false := by
        rcases h with h | h | h
        · exact absurd (Or.inl h) hnever
        · exact absurd (Or.inr h) hnever
        · exact h
      exact answers_of_exec_of_evt_eq (exec_studbookRequest_disabled hmem hcross hoff) rfl rfl
  case refine_5 =>
    obtain ⟨t, r, sh, hx, hevt, hsays, hstb, hread⟩ := exec_recordCapture_alone (us := us) hruns hclear hfull hmade hfifo hqueue hroom
    obtain ⟨htrig, hsub, htime, hocc, hdet, hcap, hprev, hlost⟩ := hsays
    refine answers_of_exec_of_evt_eq hx hevt ?_
    rw [hstb]
    exact ⟨rfl, rfl, rfl, rfl, rfl, hfull, r, htrig, hsub, htime, hocc, hdet, hprev, hlost, hcap, hread, rfl⟩
  case refine_6 =>
    obtain ⟨x, hxr, hx⟩ := exec_recordCapture_last (us := us) hruns hclear hfull hmade hfifo hroom
    obtain ⟨m, b, hcap, hb, href, hf, hc⟩ := State.captureRecord_eq_with { s with stb := { s.stb with fifo := rest } }
      { trigger := 0x3F, subject := 0, detail := 0, time := q.time, occur := 1 } [q.trigger.setWidth 8] (min 200 us)
    rw [hcap] at hxr
    subst hxr
    refine answers_of_exec (hx.trans (congrArg (answer s) (State.startLog_idle (hc.trans hclear)))) ?_
    simp only [eventInterrupt_frame]
    exact ⟨trivial, hb.trans (by rw [hmade]), by rw [href], hf, setBit_getLsbD_self _ (by decide)⟩
  case refine_7 => exact answers_of_exec_of_evt_eq (exec_recordCapture_full hruns hclear hfull hfifo hroom) rfl ⟨rfl, rfl⟩
  case refine_8 => exact answers_of_exec_of_evt_eq (exec_recordCapture_rests h) rfl rfl
  case refine_9 =>
    obtain ⟨m, ws, heq, hw⟩ := State.recorderFault_eq kind slot.toNat hclear
    obtain ⟨w, ⟨hkind, hslot, hbank, hgen, hoph⟩, hws, hread⟩ := hw hlen
    have hx := exec_recorderFault (slot := slot) (s := s) h1 h4
    rw [heq] at hx
    refine answers_of_exec hx ?_
    simp only [eventInterrupt_frame]
    refine ⟨trivial, trivial, trivial, setBit_getLsbD_self _ (by decide), trivial, trivial, trivial, w, hkind, hslot, hbank, hgen, hoph, hws, fun n => ?_⟩
    simp only [State.mramRead, eventInterrupt_frame]
    exact hread n
  case refine_10 =>
    have hhi' : trigger.toNat < 0x26 := by omega
    have hx := exec_studbookRequest (subject := subject) (detail := detail) h0 hhi' (Or.inl hhi) (Or.inl (by omega)) hmem hcross
    have hen : s.stb.cfg.enabled trigger = true := by
      simp only [StbRec.enabled, Bool.or_eq_true, decide_eq_true_eq]
      omega
    rw [State.recorderTakes_refuses hen h] at hx
    exact answers_of_exec_of_evt_eq hx rfl rfl
  case refine_11 =>
    obtain ⟨m, hm, hread⟩ := s.writeRefused_eq
    have hx := exec_refusedCountWrite hne hdue hmem
    rw [hm] at hx
    exact answers_of_exec_of_evt_eq hx rfl ⟨rfl, hread, rfl⟩
  case refine_12 => exact answers_of_exec_of_evt_eq (exec_refusedCountWrite_same h) rfl rfl
  case refine_13 =>
    have hx := exec_studbookClear (pkg := pkg) hexec
    rw [studbookClear_old (s := s.executing c) ⟨hop, hlen, hhead, hsigned⟩ hseq] at hx
    exact (answers_only_complete hexec hx).imp fun t ⟨hc, ht⟩ => ⟨hc, by rw [ht]⟩
  case refine_14 =>
    have hx := exec_studbookClear (pkg := pkg) hexec
    rw [studbookClear_any (s := s.executing c) ⟨hop, hlen, hhead, hsigned⟩ hseq hnever hzero, if_pos (show 16 ≤ (s.executing c).stb.faults.length from hfaults)] at hx
    exact (answers_only_complete hexec hx).imp fun t ⟨hc, ht⟩ => ⟨hc, by rw [ht]⟩
  case refine_15 =>
    have hx := exec_studbookClear (pkg := pkg) hexec
    have hnone : (s.executing c).stb.clearing.isSome = false := congrArg Option.isSome hclear
    rw [studbookClear_any (s := s.executing c) ⟨hop, hlen, hhead, hsigned⟩ hseq hnever hzero,
      if_neg (show ¬ 16 ≤ (s.executing c).stb.faults.length from Nat.not_le.mpr hfaults), if_neg (by rw [hnone]; decide),
      State.startLog_waits rfl (by simpa using hfifo)] at hx
    exact answers_of_exec_of_evt_eq hx rfl ⟨executing_flight_same hexec, rfl, rfl⟩
  case refine_16 =>
    have hx := exec_studbookClear (pkg := pkg) hexec
    rw [studbookClear_length hop] at hx
    exact answers_badOperand hexec hx
  case refine_17 =>
    obtain ⟨m, hm, hx⟩ := exec_mramWriteSlot_record hmem hslot hlane hw hqueue
    obtain ⟨y, res, hfin, hhif, hrings, hclk, hevt, hstb⟩ := State.finishClear_eq
      (s := { s with mem := m, evt := { s.evt with stb := setBit s.evt.stb 0 } }) hclear hfirst hqueue hm
    rw [hfin] at hx
    have he : Ending s y x.cmd f := (ending_of_flight hexec.flight hexec.same hexec.enabled hexec.kept hexec.tracked).of_eq
      hhif hrings (congrArg Clk.ytime hclk)
    have hkept : (y.complete x.cmd stSuccess res).KeptEnd x.cmd stSuccess :=
      ⟨(he.completes stSuccess res).ended, (Hif.tracked_of_issued (State.complete_issued _ _ _ _) _).trans he.tracked⟩
    have hend := hkept.settleDevice.settleWaits
    obtain ⟨⟨fifo, merged, lost, since, hlog⟩, hbits⟩ := State.settle_log (s := y.complete x.cmd stSuccess res)
      (by rw [State.complete_stb, hstb]) (by rw [State.complete_stb, hstb])
    refine answers_of_exec hx ?_
    have h3 := hbits 3 (by rw [State.complete_evt, hevt]; exact setBit_getLsbD_self _ (by decide))
    simp only [Ended, eventInterrupt_frame, hlog, State.complete_frame, hstb]
    exact ⟨trivial, trivial, trivial, trivial, trivial, trivial, trivial, trivial, trivial, h3, hend.1⟩
  case refine_18 =>
    have hx := exec_studbookRead (bad := none) hexec
    rw [studbookRead_faults (s := s.executing c) halign hfunc] at hx
    exact answers_of_hostWrite hexec hx
  case refine_19 =>
    have hx := exec_studbookRead (bad := none) hexec
    rw [studbookRead_records (s := s.executing c) halign hfunc hfirst hpos hmax] at hx
    have hn' : min (opField c 4 4) ((s.executing c).recordsInMram - opField c 0 4) = n := hn.symm
    rw [hn'] at hx
    exact answers_of_hostWrite hexec hx
  case refine_20 =>
    have hx := exec_studbookRead (bad := none) hexec
    rw [studbookRead_bad (s := s.executing c) h] at hx
    exact answers_badOperand hexec hx
  case refine_21 =>
    have hx := exec_studbookRead (bad := some bad) hexec
    rw [studbookRead_uncorrectable (s := s.executing c) halign hfunc hfirst hlast hin hmax] at hx
    obtain ⟨hhif0, hrings0, hclk0, hstb0, hout0⟩ := (s.executing c).readBefore_eq c bad
    generalize (s.executing c).readBefore c bad = a at hx hhif0 hrings0 hclk0 hstb0 hout0
    have hnone : (a.memoryError .dmaRead ⟨(30 + bad / 16384) % 32, by omega⟩ (256 * bad % 0x400000)).stb.clearing = none := by
      rw [State.memoryError_clearing, hstb0]
      exact hclear
    obtain ⟨m, ws, heq, -⟩ := State.recorderFault_eq 3 bad hnone
    generalize State.recorderFault _ 3 bad = z at hx heq
    have hz : z.hif = a.hif ∧ z.rings = a.rings ∧ z.clk = a.clk ∧ z.out = a.out ∧ z.stb.stopped = true ∧ z.evt.stb.getLsbD 2 = true := by
      rw [heq]
      simp only [State.memoryError_frame]
      exact ⟨trivial, trivial, trivial, trivial, trivial, setBit_getLsbD_self _ (by decide)⟩
    obtain ⟨hhif, hrings, hclk, hout, hstop, hevent⟩ := hz
    have he : Ending s z c f := hexec.ending.of_eq (hhif.trans hhif0) (hrings.trans hrings0) (congrArg Clk.ytime (hclk.trans hclk0))
    have hc := (he.completes stMemUe (dwords (bad - opField c 0 4) 0 0 0)).eventInterrupt s
    refine answers_of_exec hx ⟨hc.ended, ?_, ?_, fun hlt => (out_prefix_eventInterrupt _ _).subset ?_⟩
    · simp only [eventInterrupt_frame, State.complete_frame, hstop]
    · simp only [eventInterrupt_frame, State.complete_frame, hevent]
    · simp only [State.complete_frame, hout, hout0 hlt]
      exact List.mem_append_right _ (List.mem_singleton.mpr rfl)

end Sys2Proof.Machine
end

section
/-! SUPPORT. What a halter detail and an opening of a string leave of the core pairs (14 R387). -/

namespace Sys2Proof.Machine

/-- The pairs, their control, their events, the issued stamps and the memories of `t` are those of `s`. -/
def State.SamePairs (t s : State) : Prop :=
  t.pairs = s.pairs ∧ t.pctl = s.pctl ∧ t.evt.pair = s.evt.pair ∧ t.hif.issued = s.hif.issued ∧ t.mem = s.mem

theorem State.SamePairs.refl (s : State) : s.SamePairs s := ⟨rfl, rfl, rfl, rfl, rfl⟩

theorem State.SamePairs.trans {u t s : State} (hu : u.SamePairs t) (ht : t.SamePairs s) : u.SamePairs s :=
  have ⟨k0, k1, k2, k3, k4⟩ := hu
  have ⟨h0, h1, h2, h3, h4⟩ := ht
  ⟨k0.trans h0, k1.trans h1, k2.trans h2, k3.trans h3, k4.trans h4⟩

theorem State.SamePairs.foldl {α : Type} (l : List α) (f : State → α → State) (h : ∀ t a, (f t a).SamePairs t) (s : State) :
    (l.foldl f s).SamePairs s :=
  List.foldlRecOn l f (motive := fun t => t.SamePairs s) (.refl s) fun t ht a _ => (h t a).trans ht

@[simp] theorem State.foldl_pairs {α : Type} (l : List α) (f : State → α → State) (h : ∀ t a, (f t a).pairs = t.pairs)
    (s : State) : (l.foldl f s).pairs = s.pairs :=
  List.foldlRecOn l f (motive := fun t => t.pairs = s.pairs) rfl fun _ ht a _ => (h _ a).trans ht

@[simp] theorem State.foldl_pctl {α : Type} (l : List α) (f : State → α → State) (h : ∀ t a, (f t a).pctl = t.pctl)
    (s : State) : (l.foldl f s).pctl = s.pctl :=
  List.foldlRecOn l f (motive := fun t => t.pctl = s.pctl) rfl fun _ ht a _ => (h _ a).trans ht

@[simp] theorem State.foldl_evt_pair {α : Type} (l : List α) (f : State → α → State) (h : ∀ t a, (f t a).evt.pair = t.evt.pair)
    (s : State) : (l.foldl f s).evt.pair = s.evt.pair :=
  List.foldlRecOn l f (motive := fun t => t.evt.pair = s.evt.pair) rfl fun _ ht a _ => (h _ a).trans ht

@[simp] theorem State.foldl_hif_issued {α : Type} (l : List α) (f : State → α → State) (h : ∀ t a, (f t a).hif.issued = t.hif.issued)
    (s : State) : (l.foldl f s).hif.issued = s.hif.issued :=
  List.foldlRecOn l f (motive := fun t => t.hif.issued = s.hif.issued) rfl fun _ ht a _ => (h _ a).trans ht

@[simp] theorem State.foldl_mem {α : Type} (l : List α) (f : State → α → State) (h : ∀ t a, (f t a).mem = t.mem)
    (s : State) : (l.foldl f s).mem = s.mem :=
  List.foldlRecOn l f (motive := fun t => t.mem = s.mem) rfl fun _ ht a _ => (h _ a).trans ht

@[simp] theorem State.recorderTakes_pairs (s : State) (q : StbReq) :
    (s.recorderTakes q).pairs = s.pairs ∧
    (s.recorderTakes q).pctl = s.pctl ∧
    (s.recorderTakes q).evt.pair = s.evt.pair ∧
    (s.recorderTakes q).hif.issued = s.hif.issued ∧
    (s.recorderTakes q).mem = s.mem := by
  unfold State.recorderTakes
  repeat' split
  all_goals simp

@[simp] theorem State.studbook_pairs (s : State) (trigger : BitVec 6) (subject : Nat) (detail : List Byte) :
    (s.studbook trigger subject detail).pairs = s.pairs ∧
    (s.studbook trigger subject detail).pctl = s.pctl ∧
    (s.studbook trigger subject detail).evt.pair = s.evt.pair ∧
    (s.studbook trigger subject detail).hif.issued = s.hif.issued ∧
    (s.studbook trigger subject detail).mem = s.mem := by
  unfold State.studbook
  split <;> simp

@[simp] theorem State.complete_pairs (s : State) (c : Cmd) (status : BitVec 8) (result : BitVec 128) :
    (s.complete c status result).pairs = s.pairs ∧
    (s.complete c status result).pctl = s.pctl ∧
    (s.complete c status result).evt.pair = s.evt.pair ∧
    (s.complete c status result).hif.issued = s.hif.issued ∧
    (s.complete c status result).mem = s.mem := by
  refine ⟨by simp, by simp, by simp, State.complete_issued s c status result, by simp⟩

@[simp] theorem State.ok_pairs (s : State) (c : Cmd) (result : BitVec 128) :
    (s.ok c result).pairs = s.pairs ∧
    (s.ok c result).pctl = s.pctl ∧
    (s.ok c result).evt.pair = s.evt.pair ∧
    (s.ok c result).hif.issued = s.hif.issued ∧
    (s.ok c result).mem = s.mem := by
  simp [State.ok]

@[simp] theorem State.settleMask_pairs (s : State) (u : Fin 128) :
    (s.settleMask u).pairs = s.pairs ∧
    (s.settleMask u).pctl = s.pctl ∧
    (s.settleMask u).evt.pair = s.evt.pair ∧
    (s.settleMask u).hif.issued = s.hif.issued ∧
    (s.settleMask u).mem = s.mem := by
  unfold State.settleMask
  dsimp only
  split <;> simp

@[simp] theorem State.turnOn_pairs (s : State) (ch : Fin 24) :
    (s.turnOn ch).pairs = s.pairs ∧
    (s.turnOn ch).pctl = s.pctl ∧
    (s.turnOn ch).evt.pair = s.evt.pair ∧
    (s.turnOn ch).hif.issued = s.hif.issued ∧
    (s.turnOn ch).mem = s.mem := by
  unfold State.turnOn
  dsimp only
  repeat' split
  all_goals simp

@[simp] theorem State.turnOff_pairs (s : State) (ch : Fin 24) :
    (s.turnOff ch).pairs = s.pairs ∧
    (s.turnOff ch).pctl = s.pctl ∧
    (s.turnOff ch).evt.pair = s.evt.pair ∧
    (s.turnOff ch).hif.issued = s.hif.issued ∧
    (s.turnOff ch).mem = s.mem := by
  simp [State.turnOff]

@[simp] theorem State.settleOut_pairs (s : State) (ch : Fin 24) :
    (s.settleOut ch).pairs = s.pairs ∧
    (s.settleOut ch).pctl = s.pctl ∧
    (s.settleOut ch).evt.pair = s.evt.pair ∧
    (s.settleOut ch).hif.issued = s.hif.issued ∧
    (s.settleOut ch).mem = s.mem := by
  unfold State.settleOut
  dsimp only
  repeat' split
  all_goals simp

@[simp] theorem State.command_pairs (s : State) (ch : Fin 24) (on : Bool) :
    (s.command ch on).pairs = s.pairs ∧
    (s.command ch on).pctl = s.pctl ∧
    (s.command ch on).evt.pair = s.evt.pair ∧
    (s.command ch on).hif.issued = s.hif.issued ∧
    (s.command ch on).mem = s.mem := by
  simp [State.command]

@[simp] theorem State.strEvent_pairs (s : State) (base : Nat) (str : Fin 4) :
    (s.strEvent base str).pairs = s.pairs ∧
    (s.strEvent base str).pctl = s.pctl ∧
    (s.strEvent base str).evt.pair = s.evt.pair ∧
    (s.strEvent base str).hif.issued = s.hif.issued ∧
    (s.strEvent base str).mem = s.mem := by
  simp [State.strEvent]

@[simp] theorem State.abortShunt_pairs (s : State) (str : Fin 4) :
    (s.abortShunt str).pairs = s.pairs ∧
    (s.abortShunt str).pctl = s.pctl ∧
    (s.abortShunt str).evt.pair = s.evt.pair ∧
    (s.abortShunt str).hif.issued = s.hif.issued ∧
    (s.abortShunt str).mem = s.mem := by
  unfold State.abortShunt
  dsimp only
  split
  · exact State.SamePairs.refl s
  · refine State.SamePairs.trans (State.SamePairs.foldl _ _ (fun t c => State.complete_pairs t c _ _) _) ?_
    split <;> simp [State.SamePairs]

@[simp] theorem State.stopExcitation_pairs (s : State) (str : Fin 4) :
    (s.stopExcitation str).pairs = s.pairs ∧
    (s.stopExcitation str).pctl = s.pctl ∧
    (s.stopExcitation str).evt.pair = s.evt.pair ∧
    (s.stopExcitation str).hif.issued = s.hif.issued ∧
    (s.stopExcitation str).mem = s.mem := by
  unfold State.stopExcitation
  split
  · exact (State.SamePairs.foldl _ _ (fun t u => by simp [State.SamePairs]) _).trans (by simp [State.SamePairs])
  · exact State.SamePairs.refl s

@[simp] theorem State.enterStr_pairs (s : State) (str : Fin 4) (new : StrState) (cause : Nat) (stamp : BitVec 32) :
    (s.enterStr str new cause stamp).pairs = s.pairs ∧
    (s.enterStr str new cause stamp).pctl = s.pctl ∧
    (s.enterStr str new cause stamp).evt.pair = s.evt.pair ∧
    (s.enterStr str new cause stamp).hif.issued = s.hif.issued ∧
    (s.enterStr str new cause stamp).mem = s.mem := by
  unfold State.enterStr
  extract_lets old s1 s2 s3 s4 s5 s6 s7 s8
  have h3 : s3.SamePairs s := by
    unfold s3
    split <;> simp [s2, s1, State.SamePairs]
  have h4 : s4.SamePairs s := by
    refine State.SamePairs.trans ?_ h3
    unfold s4
    split <;> simp [State.SamePairs]
  have h5 : s5.SamePairs s := by
    refine State.SamePairs.trans ?_ h4
    unfold s5
    split <;> simp [State.SamePairs]
  have h8 : s8.SamePairs s := State.SamePairs.trans (by simp [s8, s7, s6, State.SamePairs]) h5
  split
  · exact h8
  · exact h5

@[simp] theorem State.cmdContactor_pairs (s : State) (str : Fin 4) (k : Fin 3) (on : Bool) :
    (s.cmdContactor str k on).pairs = s.pairs ∧
    (s.cmdContactor str k on).pctl = s.pctl ∧
    (s.cmdContactor str k on).evt.pair = s.evt.pair ∧
    (s.cmdContactor str k on).hif.issued = s.hif.issued ∧
    (s.cmdContactor str k on).mem = s.mem := by
  unfold State.cmdContactor
  dsimp only
  repeat' split
  all_goals simp

@[simp] theorem State.withdraw_pairs (s : State) (str : Fin 4) :
    (s.withdraw str).pairs = s.pairs ∧
    (s.withdraw str).pctl = s.pctl ∧
    (s.withdraw str).evt.pair = s.evt.pair ∧
    (s.withdraw str).hif.issued = s.hif.issued ∧
    (s.withdraw str).mem = s.mem := by
  simp [State.withdraw]

@[simp] theorem State.closeRefused_pairs (s : State) (str : Fin 4) (code d3 : Nat) :
    (s.closeRefused str code d3).pairs = s.pairs ∧
    (s.closeRefused str code d3).pctl = s.pctl ∧
    (s.closeRefused str code d3).evt.pair = s.evt.pair ∧
    (s.closeRefused str code d3).hif.issued = s.hif.issued ∧
    (s.closeRefused str code d3).mem = s.mem := by
  unfold State.closeRefused
  split <;> simp

@[simp] theorem State.abortPrecharge_pairs (s : State) (str : Fin 4) :
    (s.abortPrecharge str).pairs = s.pairs ∧
    (s.abortPrecharge str).pctl = s.pctl ∧
    (s.abortPrecharge str).evt.pair = s.evt.pair ∧
    (s.abortPrecharge str).hif.issued = s.hif.issued ∧
    (s.abortPrecharge str).mem = s.mem := by
  unfold State.abortPrecharge
  split <;> simp

@[simp] theorem State.countBreak_pairs (s : State) (str : Fin 4) (i : Option Nat) :
    (s.countBreak str i).pairs = s.pairs ∧
    (s.countBreak str i).pctl = s.pctl ∧
    (s.countBreak str i).evt.pair = s.evt.pair ∧
    (s.countBreak str i).hif.issued = s.hif.issued ∧
    (s.countBreak str i).mem = s.mem := by
  unfold State.countBreak
  dsimp only
  repeat' split
  all_goals simp

@[simp] theorem State.openDone_pairs (s : State) (str : Fin 4) (welded : Bool) :
    (s.openDone str welded).pairs = s.pairs ∧
    (s.openDone str welded).pctl = s.pctl ∧
    (s.openDone str welded).evt.pair = s.evt.pair ∧
    (s.openDone str welded).hif.issued = s.hif.issued ∧
    (s.openDone str welded).mem = s.mem := by
  unfold State.openDone
  exact (State.SamePairs.foldl _ _ (fun t (p : Cmd × Bool) => by simp [State.SamePairs]) _).trans (by simp [State.SamePairs])

@[simp] theorem State.weldEval_pairs (s : State) (str : Fin 4) :
    (s.weldEval str).pairs = s.pairs ∧
    (s.weldEval str).pctl = s.pctl ∧
    (s.weldEval str).evt.pair = s.evt.pair ∧
    (s.weldEval str).hif.issued = s.hif.issued ∧
    (s.weldEval str).mem = s.mem := by
  unfold State.weldEval
  dsimp only
  repeat' split
  all_goals simp

@[simp] theorem State.weldedEval_pairs (s : State) (str : Fin 4) :
    (s.weldedEval str).pairs = s.pairs ∧
    (s.weldedEval str).pctl = s.pctl ∧
    (s.weldedEval str).evt.pair = s.evt.pair ∧
    (s.weldedEval str).hif.issued = s.hif.issued ∧
    (s.weldedEval str).mem = s.mem := by
  unfold State.weldedEval
  split <;> simp

@[simp] theorem State.startWeldCheck_pairs (s : State) (str : Fin 4) (cause : Nat) (stamp : BitVec 32) :
    (s.startWeldCheck str cause stamp).pairs = s.pairs ∧
    (s.startWeldCheck str cause stamp).pctl = s.pctl ∧
    (s.startWeldCheck str cause stamp).evt.pair = s.evt.pair ∧
    (s.startWeldCheck str cause stamp).hif.issued = s.hif.issued ∧
    (s.startWeldCheck str cause stamp).mem = s.mem := by
  simp [State.startWeldCheck]

@[simp] theorem State.weldPeers_pairs (s : State) :
    s.weldPeers.pairs = s.pairs ∧
    s.weldPeers.pctl = s.pctl ∧
    s.weldPeers.evt.pair = s.evt.pair ∧
    s.weldPeers.hif.issued = s.hif.issued ∧
    s.weldPeers.mem = s.mem := by
  unfold State.weldPeers
  exact State.SamePairs.foldl _ _ (fun t i => by simp [State.SamePairs]) s

@[simp] theorem State.startOpening_pairs (s : State) (str : Fin 4) (cause : Nat) (stamp : BitVec 32) :
    (s.startOpening str cause stamp).pairs = s.pairs ∧
    (s.startOpening str cause stamp).pctl = s.pctl ∧
    (s.startOpening str cause stamp).evt.pair = s.evt.pair ∧
    (s.startOpening str cause stamp).hif.issued = s.hif.issued ∧
    (s.startOpening str cause stamp).mem = s.mem := by
  simp [State.startOpening]

@[simp] theorem State.breakNow_pairs (s : State) (str : Fin 4) (cause : Nat) (i : Option Nat) :
    (s.breakNow str cause i).pairs = s.pairs ∧
    (s.breakNow str cause i).pctl = s.pctl ∧
    (s.breakNow str cause i).evt.pair = s.evt.pair ∧
    (s.breakNow str cause i).hif.issued = s.hif.issued ∧
    (s.breakNow str cause i).mem = s.mem := by
  unfold State.breakNow
  dsimp only
  repeat' split
  all_goals simp

@[simp] theorem State.requestB_pairs (s : State) (str : Fin 4) (cause : Nat) :
    (s.requestB str cause).pairs = s.pairs ∧
    (s.requestB str cause).pctl = s.pctl ∧
    (s.requestB str cause).evt.pair = s.evt.pair ∧
    (s.requestB str cause).hif.issued = s.hif.issued ∧
    (s.requestB str cause).mem = s.mem := by
  unfold State.requestB
  split <;> simp

@[simp] theorem State.openAllA_pairs (s : State) (cause : Nat) :
    (s.openAllA cause).pairs = s.pairs ∧
    (s.openAllA cause).pctl = s.pctl ∧
    (s.openAllA cause).evt.pair = s.evt.pair ∧
    (s.openAllA cause).hif.issued = s.hif.issued ∧
    (s.openAllA cause).mem = s.mem := by
  unfold State.openAllA
  exact State.SamePairs.foldl _ _ (fun t str => by split <;> simp [State.SamePairs]) s

@[simp] theorem State.sendEnables_pairs (s : State) :
    s.sendEnables.pairs = s.pairs ∧
    s.sendEnables.pctl = s.pctl ∧
    s.sendEnables.evt.pair = s.evt.pair ∧
    s.sendEnables.hif.issued = s.hif.issued ∧
    s.sendEnables.mem = s.mem := by
  simp [State.sendEnables]

@[simp] theorem State.sendStatus_pairs (s : State) (sent0 sent1 : Bool) :
    (s.sendStatus sent0 sent1).pairs = s.pairs ∧
    (s.sendStatus sent0 sent1).pctl = s.pctl ∧
    (s.sendStatus sent0 sent1).evt.pair = s.evt.pair ∧
    (s.sendStatus sent0 sent1).hif.issued = s.hif.issued ∧
    (s.sendStatus sent0 sent1).mem = s.mem := by
  unfold State.sendStatus
  repeat' split
  all_goals simp

@[simp] theorem State.hltEvent_pairs (s : State) (n : Nat) :
    (s.hltEvent n).pairs = s.pairs ∧
    (s.hltEvent n).pctl = s.pctl ∧
    (s.hltEvent n).evt.pair = s.evt.pair ∧
    (s.hltEvent n).hif.issued = s.hif.issued ∧
    (s.hltEvent n).mem = s.mem := by
  simp [State.hltEvent]

@[simp] theorem State.lockOut_pairs (s : State) (d : Detail) (w : Fin 16) :
    (s.lockOut d w).pairs = s.pairs ∧
    (s.lockOut d w).pctl = s.pctl ∧
    (s.lockOut d w).evt.pair = s.evt.pair ∧
    (s.lockOut d w).hif.issued = s.hif.issued ∧
    (s.lockOut d w).mem = s.mem := by
  simp [State.lockOut]

@[simp] theorem State.raiseDetail_pairs (s : State) (d : Detail) (w : Fin 16) :
    (s.raiseDetail d w).pairs = s.pairs ∧
    (s.raiseDetail d w).pctl = s.pctl ∧
    (s.raiseDetail d w).evt.pair = s.evt.pair ∧
    (s.raiseDetail d w).hif.issued = s.hif.issued ∧
    (s.raiseDetail d w).mem = s.mem := by
  unfold State.raiseDetail
  dsimp only
  repeat' split
  all_goals simp

end Sys2Proof.Machine
end

section
/-! SUPPORT. Core pairs compare and test themselves (14 R385 to R390, R394). -/

namespace Sys2Proof.Machine

open Sys2Proof Sys2Proof.Machine

/-- The consequences of a pair's cause: it stands, and no other pair changes (14 R387). -/
theorem State.pairConsequence_effect (s : State) (p : Fin 8) :
    (s.pairConsequence p).SamePairs (s.onPair p (fun x => { x with cause := true })) ∧
    (p = 0 → (s.pairConsequence p).halter.lockout = true) ∧
    (p ≠ 0 → (s.pairs.at p).cfg.escal ≠ 2 → s.pairConsequence p = s.onPair p (fun x => { x with cause := true })) := by
  have hcfg : ((s.onPair p (fun x => { x with cause := true })).pairs.at p).cfg = (s.pairs.at p).cfg := by simp [State.onPair]
  unfold State.pairConsequence
  dsimp only
  rw [hcfg]
  split
  · next h0 => exact ⟨State.raiseDetail_pairs _ _ _, fun _ => (State.raiseDetail_has _ _ rfl (by decide)).2.1, fun h => absurd h0 h⟩
  · next h0 =>
    split
    · next h2 =>
      refine ⟨State.SamePairs.foldl _ _ (fun t i => ?_) _, fun h => absurd h h0, fun _ h => absurd h2 h⟩
      split
      · exact State.requestB_pairs t i 0x18
      · exact State.SamePairs.refl t
    · exact ⟨State.SamePairs.refl _, fun h => absurd h h0, fun _ _ => rfl⟩

theorem exec_lockstepMismatch {p : Fin 8} {lane : BitVec 2} {group : BitVec 4} {pc : BitVec 32} {s : State} (hcmp : s.compared p = true)
    (hg : group.toNat < laneGroups lane) : ∃ n d, exec (.lockstepMismatch p lane group pc) s = answer s
      ((State.studbook ((s.onPair p (fun x => { x with
        st := .fault, mmLane := lane, mmGroup := group, mmValid := true, mmPc := pc.extractLsb' 2 24
        mmCnt := satAdd 0xFF x.mmCnt 1 })).pairEvent p.val) 0x07 n d).pairConsequence p) :=
  ⟨_, _, congrArg (answer s) (if_pos (by simp [hcmp, hg]))⟩

theorem exec_lockstepMismatch_idle {p : Fin 8} {lane : BitVec 2} {group : BitVec 4} {pc : BitVec 32} {s : State}
    (hcmp : s.compared p = false) : exec (.lockstepMismatch p lane group pc) s = answer s s :=
  congrArg (answer s) (if_neg (by simp [hcmp]))

theorem State.compared_run {s : State} {p : Fin 8} (hsplit : s.pctl.split = false) (hrun : (s.pairs.at p).st = .run) :
    s.compared p = true := by
  simp [State.compared, hsplit, hrun]

theorem State.testRuns_iff (s : State) : s.testRuns = true ↔ (∃ q, (s.pairs.at q).st = .selftest) ∨ ∃ w ∈ s.pctl.waits, w.mode1 = true := by
  simp [State.testRuns, places]

theorem exec_pairSelftestStart {p : Fin 8} {s : State} (hruns : (s.pairs.at p).st.runs = true) (htest : s.testRuns = false)
    (hdue : s.testDue p = true) : exec (.pairSelftestStart p) s = answer s
      { s.onPair p (fun x => { x with prev := x.st, st := .selftest }) with pctl := { s.pctl with
        waits := s.pctl.waits.map (fun w => if w.pair == p then { w with began := true } else w) } } :=
  congrArg (answer s) (if_pos (by simp [hruns, htest, hdue]))

theorem exec_pairSelftestStart_busy {p : Fin 8} {s : State} (htest : s.testRuns = true) : exec (.pairSelftestStart p) s = answer s s :=
  congrArg (answer s) (if_neg (by simp [htest]))

theorem exec_pairSelftestEnd_live {p : Fin 8} {r : BitVec 4} {core : Bool} {s : State} (hok : s.resultOk r = true)
    (hst : (s.pairs.at p).st = .selftest) : exec (.pairSelftestEnd p r core) s = answer s (s.liveTestEnd p r core) :=
  (congrArg (answer s) (if_neg (by simp [hok]))).trans (congrArg (answer s) (if_pos hst))

theorem exec_pairSelftestEnd_recovery {p : Fin 8} {r : BitVec 4} {core : Bool} {s : State} (hok : s.resultOk r = true)
    (hst : (s.pairs.at p).st ≠ .selftest) (hwait : s.pctl.waits.any (fun w => w.pair == p && w.mode1) = true) :
    exec (.pairSelftestEnd p r core) s = answer s (s.recoveryEnd p r) :=
  (congrArg (answer s) (if_neg (by simp [hok]))).trans ((congrArg (answer s) (if_neg hst)).trans (congrArg (answer s) (if_pos hwait)))

theorem State.resultOk_of_fail {s : State} {r : BitVec 4} (hsplit : s.pctl.split = false) (hlo : 2 ≤ r.toNat) (hhi : r.toNat ≤ 5) :
    s.resultOk r = true := by
  have h5 : r = 5 ↔ r.toNat = 5 := ⟨fun h => by simp [h], fun h => BitVec.eq_of_toNat_eq h⟩
  simp only [State.resultOk, hsplit, Bool.or_eq_true, beq_iff_eq, h5, Bool.and_eq_true, decide_eq_true_eq, Bool.not_false, true_and]
  omega

/-- The one command that waits for a test that ends completes with its result (14 R394). -/
theorem State.testDone_one {s : State} {p : Fin 8} {r : BitVec 4} {c : Cmd} {mode1 : Bool} {since : Nat}
    (hw : s.pctl.waits = [⟨c, p, mode1, since, true⟩]) : s.testDone p r =
      State.complete { s with pctl := { s.pctl with waits := [] } } c (if r = 1 then stSuccess else stRefused)
        (if r = 1 then dwords 1 0 0 0 else dwords 0x0E05 r.toNat 0 0) := by
  have hcs : s.testWaiters p = [c] := by simp [State.testWaiters, hw]
  have hrest : s.pctl.waits.filter (fun w => !(w.pair == p && w.began)) = [] := by simp [hw]
  unfold State.testDone
  dsimp only
  rw [hcs, hrest]
  by_cases h : r = 1
  · rw [if_pos h, if_pos h, if_pos h]
    rfl
  · rw [if_neg h, if_neg h, if_neg h]
    rfl

theorem Memory.read_filter (m : List Host.Cell) (keep : Nat → Bool) (a : Nat) :
    Memory.read (m.filter (fun c => keep c.1)) a = if keep a then Memory.read m a else Memory.blank := by
  induction m with
  | nil => simp [Memory.read]
  | cons c m ih =>
    obtain ⟨k, b⟩ := c
    by_cases hk : keep k = true
    · rw [List.filter_cons_of_pos (p := fun c : Host.Cell => keep c.1) hk]
      by_cases e : k = a
      · simp [Memory.read, e, e ▸ hk]
      · simp [Memory.read, e, ih]
    · rw [List.filter_cons_of_neg (p := fun c : Host.Cell => keep c.1) hk, ih]
      by_cases e : k = a
      · simp [e ▸ hk]
      · simp [Memory.read, e]

/-- Whatever ended a command, a further completion of it leaves it ended, with that status (02 R65). -/
theorem State.complete_keptEnd {s : State} {c : Cmd} (htr : s.hif.tracked c.stamp = true) (x : BitVec 8) (r : BitVec 128) :
    (s.complete c x r).KeptEnd c x := by
  refine ⟨?_, (Hif.tracked_of_issued (State.complete_issued s c x r) _).trans htr⟩
  unfold State.complete
  split
  · next hnone =>
    refine ⟨Hif.flight_recordFinal_none hnone, ?_⟩
    rw [Hif.finalOf_recordFinal_self x false htr]
    rfl
  · next f hf =>
    obtain ⟨hissued, -⟩ := State.post_hif_kept s f.cmd f.opcode x r true false
    refine ⟨Hif.flight_recordFinal_none (List.find?_eq_none.mpr fun g hg => ?_), ?_⟩
    · simpa using (List.mem_filter.mp hg).2
    · refine congrArg (Option.map Final.status) (Hif.finalOf_recordFinal_self x (isStreamOp f.opcode) ?_)
      exact (Hif.tracked_of_issued (k := s.hif) hissued _).trans htr

theorem exec_pairSelftest {c : Cmd} {f : Flight} {p : Fin 8} {s : State} (h : Executing s c f) (hp : opByte c 0 = p.val) (h1 : opByte c 1 ≤ 1) :
    exec (.pairSelftest c) s = answer s (
      if s.testRuns then (s.executing c).busy c
      else if !(opByte c 1 == 1) && p == 0 && !s.pctl.split then (s.executing c).refuse c 0x0E01
      else if (if (opByte c 1 == 1) = true then !((s.pairs.at p).st == .fault || (s.pairs.at p).st == .failed) else !(s.pairs.at p).st.runs)
        then (s.executing c).refuse c 0x0E02
      else if (opByte c 1 == 1) && decide (3 ≤ (s.pairs.at p).mmCnt) then (s.executing c).refuse c 0x0E04
      else { s.executing c with pctl := { s.pctl with waits := s.pctl.waits ++
        [{ cmd := c, pair := p, mode1 := opByte c 1 == 1, since := s.now, began := opByte c 1 == 1 }] } }) := by
  have hlt : opByte c 0 < 8 := hp ▸ p.isLt
  have hpp : (⟨opByte c 0, hlt⟩ : Fin 8) = p := Fin.ext hp
  have hx : exec (.pairSelftest c) s = execPairSelftest c s := rfl
  rw [hx]
  unfold execPairSelftest
  rw [run_executing h]
  dsimp only
  rw [dif_pos hlt, hpp, if_neg (by omega)]
  rfl

theorem exec_pairSelftestIdleTimeout {c : Cmd} {p : Fin 8} {since : Nat} {s : State} (hw : s.pctl.waits = [⟨c, p, false, since, false⟩])
    (hlate : since + ticksPerS ≤ s.now) : exec .pairSelftestIdleTimeout s = answer s
      (State.complete { s with pctl := { s.pctl with waits := [] } } c stRefused (dwords 0x0E03 0 0 0)) := by
  have hx : exec .pairSelftestIdleTimeout s = execPairSelftestIdleTimeout s := rfl
  rw [hx]
  unfold execPairSelftestIdleTimeout
  simp [hw, hlate, State.completeAll]

theorem exec_pairSelftestIdleTimeout_none {s : State} (h : ∀ w ∈ s.pctl.waits, w.began = true ∨ s.now < w.since + ticksPerS) :
    exec .pairSelftestIdleTimeout s = answer s s := by
  have hnone : s.pctl.waits.filter (fun w => !w.began && decide (w.since + ticksPerS ≤ s.now)) = [] :=
    List.filter_eq_nil_iff.mpr fun w hw => by
      rcases h w hw with hb | hb
      · simp [hb]
      · simp [Nat.not_le.mpr hb]
  have hall : s.pctl.waits.filter (fun w => !(!w.began && decide (w.since + ticksPerS ≤ s.now))) = s.pctl.waits :=
    List.filter_eq_self.mpr fun w hw => by
      rcases h w hw with hb | hb
      · simp [hb]
      · simp [Nat.not_le.mpr hb]
  have hx : exec .pairSelftestIdleTimeout s = execPairSelftestIdleTimeout s := rfl
  rw [hx]
  unfold execPairSelftestIdleTimeout
  dsimp only
  rw [hnone, hall]
  rfl

theorem State.liveTestEnd_pass (s : State) (p : Fin 8) (core : Bool) : s.liveTestEnd p 1 core =
    ((s.onPair p (fun x => { x with
      st := if x.stopPend then .off else x.prev, stopPend := false, lastSt := 1
      passCnt := satAdd 0xFFFF x.passCnt 1, testedAt := s.now })).pairEvent (16 + p.val)).testDone p 1 := if_pos rfl

theorem State.liveTestEnd_fail {s : State} {p : Fin 8} {r : BitVec 4} {core : Bool} (hsplit : s.pctl.split = false) (hr : r ≠ 1) :
    ∃ n d, s.liveTestEnd p r core = (State.pairConsequence (State.studbook ((s.onPair p (fun x => { x with
      st := .failed, stopPend := false, lastSt := r, failCnt := satAdd 0xFFFF x.failCnt 1, testedAt := s.now })).pairEvent (8 + p.val))
      0x07 n d) p).testDone p r := by
  unfold State.liveTestEnd
  rw [if_neg hr, hsplit]
  exact ⟨_, _, rfl⟩

theorem State.recoveryEnd_fail (s : State) (p : Fin 8) {r : BitVec 4} (hr : r ≠ 1) : s.recoveryEnd p r =
    ((s.onPair p (fun x => { x with
      st := .failed, lastSt := r, failCnt := satAdd 0xFFFF x.failCnt 1, testedAt := s.now })).pairEvent (8 + p.val)).testDone p r :=
  if_neg hr

/-- A pair but pair 0 that passes its recovery test is OFF, with its TCMs at 0 (14 R388). -/
theorem State.recoveryEnd_pass (s : State) {p : Fin 8} (hp : p ≠ 0) : ∃ n d, s.recoveryEnd p 1 =
    (State.onPair (State.studbook (((s.onPair p (fun x => { x with
      st := .off, done := false, splitFail := 0, lastSt := 1, passCnt := satAdd 0xFFFF x.passCnt 1, testedAt := s.now
      stopPend := false })).clearTcm p).pairEvent (16 + p.val)) 0x07 n d) p (fun x => { x with cause := false })).testDone p 1 := by
  unfold State.recoveryEnd State.pairCauseGone
  dsimp only
  rw [if_pos rfl, if_neg hp, if_neg hp]
  exact ⟨_, _, rfl⟩

/-- Settles O47. -/
theorem pairsCompareAndTest : Obligations.PairsCompareAndTest := by
  unfold Obligations.PairsCompareAndTest
  refine ⟨fun p lane group pc s hsplit hrun hg => ?_, fun p lane group pc s h => ?_, fun p s hsplit hp hrun hno hw hen hdue => ?_,
    fun p q s hq => ?_, fun p core c f since s hst hstop hw hexec => ?_, fun p r core c f since s hst hsplit hlo hhi hw hexec hp => ?_,
    fun p core c f since s hst hp hw hexec => ?_, fun p r core c f since s hst hsplit hlo hhi hw hexec => ?_,
    fun c f p s hexec hp h1 hno hw => ?_, fun c f q s hexec h0 h1 hq => ?_, fun c f p since s hw hlate hexec => ?_, fun s h => ?_⟩
  case refine_1 =>
    obtain ⟨n, d, hx⟩ := exec_lockstepMismatch (pc := pc) (State.compared_run hsplit hrun) hg
    obtain ⟨a, ha⟩ : ∃ a, (s.onPair p (fun x => { x with
      st := .fault, mmLane := lane, mmGroup := group, mmValid := true, mmPc := pc.extractLsb' 2 24
      mmCnt := satAdd 0xFF x.mmCnt 1 })).pairEvent p.val = a := ⟨_, rfl⟩
    rw [ha] at hx
    obtain ⟨hpa, hea, hha, hsa, hwa⟩ : a.pairs = s.pairs.upd p (fun x => { x with
        st := .fault, mmLane := lane, mmGroup := group, mmValid := true, mmPc := pc.extractLsb' 2 24, mmCnt := satAdd 0xFF x.mmCnt 1 }) ∧
        a.evt.pair = setBit s.evt.pair p.val ∧ a.halter = s.halter ∧ a.strs = s.strs ∧ a.swc = s.swc := by
      rw [← ha]
      exact ⟨rfl, rfl, rfl, rfl, rfl⟩
    obtain ⟨⟨hpairs, -, hevt, -, -⟩, hlock, hquiet⟩ := (a.studbook 0x07 n d).pairConsequence_effect p
    obtain ⟨hpb, -, heb, -, -⟩ := a.studbook_pairs 0x07 n d
    have hall : ((a.studbook 0x07 n d).pairConsequence p).pairs = a.pairs.upd p (fun x => { x with cause := true }) :=
      hpairs.trans (congrArg (fun b : Bank 8 Pair => b.upd p (fun x => { x with cause := true })) hpb)
    refine answers_of_exec hx ?_
    simp only [eventInterrupt_frame, hall, hpa]
    refine ⟨by simp, ?_, fun q hq => by simp [Bank.at_upd, Ne.symm hq], hlock, fun h0 hesc => ?_⟩
    · rw [hevt]
      refine (congrArg (fun w : BitVec 26 => w.getLsbD p.val) (heb.trans hea)).trans (setBit_getLsbD_self _ (by omega))
    · rw [hquiet h0 (by rw [hpb, hpa]; simpa using hesc)]
      simp [State.onPair, hha, hsa, hwa]
  case refine_2 =>
    have hcmp : s.compared p = false := by rcases h with h | h <;> simp [State.compared, h]
    exact answers_of_exec_of_evt_eq (exec_lockstepMismatch_idle hcmp) rfl rfl
  case refine_3 =>
    have htest : s.testRuns = false := by
      rw [← Bool.not_eq_true, State.testRuns_iff]
      simp [hw, hno]
    have hx := exec_pairSelftestStart (p := p) (s := s) (by simp [hrun, PairState.runs]) htest (by simp [State.testDue, hen, hdue, hp])
    refine answers_of_exec_of_evt_eq hx rfl ⟨?_, fun q hq => ?_, rfl, ?_⟩
    · simp [State.onPair, hrun]
    · simp [State.onPair, Bank.at_upd, Ne.symm hq]
    · simp only [hw, List.map_nil]
      rw [← hw]
  case refine_4 =>
    exact answers_of_exec_of_evt_eq (exec_pairSelftestStart_busy ((State.testRuns_iff s).mpr (Or.inl ⟨q, hq⟩))) rfl rfl
  case refine_5 =>
    have hx := exec_pairSelftestEnd_live (core := core) (r := 1) (s := s) rfl hst
    rw [State.liveTestEnd_pass] at hx
    replace hx := hx.trans (congrArg (answer s) (State.testDone_one (s := State.pairEvent _ _) (c := c) (mode1 := false) (since := since) hw))
    have he : Ending s { (s.onPair p (fun x => { x with
      st := if x.stopPend then .off else x.prev, stopPend := false, lastSt := 1
      passCnt := satAdd 0xFFFF x.passCnt 1, testedAt := s.now })).pairEvent (16 + p.val) with pctl := { s.pctl with waits := [] } } c f :=
      (ending_of_flight hexec.flight hexec.same hexec.enabled hexec.kept hexec.tracked).of_eq rfl rfl rfl
    refine answers_of_exec hx ?_
    have hc := (he.completes stSuccess (dwords 1 0 0 0)).eventInterrupt s
    simp only [eventInterrupt_frame, State.complete_frame]
    refine ⟨by simp [State.pairEvent, State.onPair, hstop], fun q hq => by simp [State.pairEvent, State.onPair, Bank.at_upd, Ne.symm hq], trivial,
      setBit_getLsbD_self _ (by omega), hc⟩
  case refine_6 =>
    have hx := exec_pairSelftestEnd_live (core := core) (State.resultOk_of_fail hsplit hlo hhi) hst
    obtain ⟨n, d, hfail⟩ := State.liveTestEnd_fail (core := core) hsplit (r := r) (p := p) (by rintro rfl; simp at hlo)
    obtain ⟨a, ha⟩ : ∃ a, (s.onPair p (fun x => { x with
      st := .failed, stopPend := false, lastSt := r
      failCnt := satAdd 0xFFFF x.failCnt 1, testedAt := s.now })).pairEvent (8 + p.val) = a := ⟨_, rfl⟩
    rw [ha] at hfail
    obtain ⟨hpa, hea, hca, hia⟩ : a.pairs = s.pairs.upd p (fun x => { x with
        st := .failed, stopPend := false, lastSt := r, failCnt := satAdd 0xFFFF x.failCnt 1, testedAt := s.now }) ∧
        a.evt.pair = setBit s.evt.pair (8 + p.val) ∧ a.pctl = s.pctl ∧ a.hif.issued = s.hif.issued := by
      rw [← ha]
      exact ⟨rfl, rfl, rfl, rfl⟩
    obtain ⟨⟨hpairs, hpctl, hevt, hissued, -⟩, -, -⟩ := (a.studbook 0x07 n d).pairConsequence_effect p
    obtain ⟨hpb, hcb, heb, hib, -⟩ := a.studbook_pairs 0x07 n d
    generalize (a.studbook 0x07 n d).pairConsequence p = b at hfail hpairs hpctl hevt hissued
    have hwb : b.pctl.waits = [⟨c, p, false, since, true⟩] := by
      rw [hpctl]
      exact (congrArg PairCtl.waits (hcb.trans hca)).trans hw
    have hr1 : r ≠ 1 := by rintro rfl; simp at hlo
    rw [hfail, State.testDone_one hwb, if_neg hr1, if_neg hr1] at hx
    have htr : b.hif.tracked c.stamp = true :=
      (Hif.tracked_of_issued (k := s.hif) (hissued.trans (hib.trans hia)) _).trans hexec.tracked
    have hend := State.complete_keptEnd (s := { b with pctl := { b.pctl with waits := [] } }) htr stRefused (dwords 0x0E05 r.toNat 0 0)
    have hall : b.pairs = a.pairs.upd p (fun x => { x with cause := true }) :=
      hpairs.trans (congrArg (fun b : Bank 8 Pair => b.upd p (fun x => { x with cause := true })) hpb)
    have hended : Ended (eventInterrupt s (State.complete { b with pctl := { b.pctl with waits := [] } } c stRefused
        (dwords 0x0E05 r.toNat 0 0))) c stRefused := by
      simpa only [Ended, eventInterrupt_frame] using hend.1
    refine answers_of_exec hx ⟨?_, ?_, ?_, ?_, ?_, hended⟩
    all_goals simp only [eventInterrupt_frame, State.complete_frame, hall, hpa, Bank.at_upd_self]
    exact (congrArg (fun w : BitVec 26 => w.getLsbD (8 + p.val)) (hevt.trans (heb.trans hea))).trans (setBit_getLsbD_self _ (by omega))
  case refine_7 =>
    have hne : (s.pairs.at p).st ≠ .selftest := by rcases hst with h | h <;> simp [h]
    have hx := exec_pairSelftestEnd_recovery (core := core) (r := 1) rfl hne (by simp [hw])
    obtain ⟨n, d, hpass⟩ := State.recoveryEnd_pass s hp
    obtain ⟨a, ha⟩ : ∃ a, ((s.onPair p (fun x => { x with
      st := .off, done := false, splitFail := 0, lastSt := 1, passCnt := satAdd 0xFFFF x.passCnt 1, testedAt := s.now
      stopPend := false })).clearTcm p).pairEvent (16 + p.val) = a := ⟨_, rfl⟩
    rw [ha] at hpass
    obtain ⟨hpa, hma, hca, hhif, hrings, hclk⟩ : a.pairs = s.pairs.upd p (fun x => { x with
        st := .off, done := false, splitFail := 0, lastSt := 1, passCnt := satAdd 0xFFFF x.passCnt 1, testedAt := s.now
        stopPend := false }) ∧ a.mem.sram = s.mem.sram.filter (fun c => !(decide (c.1 / 0x40000 = p.val))) ∧ a.pctl = s.pctl ∧
        a.hif = s.hif ∧ a.rings = s.rings ∧ a.clk = s.clk := by
      rw [← ha]
      exact ⟨rfl, rfl, rfl, rfl, rfl, rfl⟩
    obtain ⟨b, hb⟩ : ∃ b, (a.studbook 0x07 n d).onPair p (fun x => { x with cause := false }) = b := ⟨_, rfl⟩
    obtain ⟨hpb, hmb, hcb, hhifb, hringsb, hclkb⟩ : b.pairs = a.pairs.upd p (fun x => { x with cause := false }) ∧ b.mem = a.mem ∧
        b.pctl = a.pctl ∧ b.hif = a.hif ∧ b.rings = a.rings ∧ b.clk = a.clk := by
      rw [← hb]
      simp [State.onPair]
    rw [hb] at hpass
    have hwb : b.pctl.waits = [⟨c, p, true, since, true⟩] := (congrArg PairCtl.waits (hcb.trans hca)).trans hw
    rw [hpass, State.testDone_one hwb, if_pos rfl, if_pos rfl] at hx
    have he : Ending s { b with pctl := { b.pctl with waits := [] } } c f :=
      (ending_of_flight hexec.flight hexec.same hexec.enabled hexec.kept hexec.tracked).of_eq (hhifb.trans hhif) (hringsb.trans hrings)
        (congrArg Clk.ytime (hclkb.trans hclk))
    have hc := (he.completes stSuccess (dwords 1 0 0 0)).eventInterrupt s
    refine answers_of_exec hx ⟨?_, ?_, ?_, fun k => ?_, fun q hq => ?_, hc⟩
    · simp [hpb, hpa]
    · simp [hpb, hpa]
    · simp [hpb, hpa]
    · simp only [eventInterrupt_frame, State.complete_frame, hmb, hma]
      refine (Memory.read_filter s.mem.sram (fun k => !(decide (k / 0x40000 = p.val))) k).trans ?_
      by_cases hk : k / 0x40000 = p.val
      · rw [if_neg (by simp [hk]), if_pos hk]
        rfl
      · rw [if_pos (by simp [hk]), if_neg hk]
    · simp [hpb, hpa, Bank.at_upd, Ne.symm hq]
  case refine_8 =>
    have hx := exec_pairSelftestEnd_recovery (core := core) (State.resultOk_of_fail hsplit hlo hhi) (by simp [hst]) (p := p) (by simp [hw])
    have hr1 : r ≠ 1 := by rintro rfl; simp at hlo
    rw [State.recoveryEnd_fail s p hr1] at hx
    replace hx := hx.trans (congrArg (answer s) (State.testDone_one (s := State.pairEvent _ _) (c := c) (mode1 := true) (since := since) hw))
    rw [if_neg hr1, if_neg hr1] at hx
    have he : Ending s { (s.onPair p (fun x => { x with
        st := .failed, lastSt := r, failCnt := satAdd 0xFFFF x.failCnt 1, testedAt := s.now })).pairEvent (8 + p.val) with
        pctl := { s.pctl with waits := [] } } c f :=
      (ending_of_flight hexec.flight hexec.same hexec.enabled hexec.kept hexec.tracked).of_eq rfl rfl rfl
    have hc := (he.completes stRefused (dwords 0x0E05 r.toNat 0 0)).eventInterrupt s
    refine answers_of_exec hx ⟨?_, ?_, ?_, hc⟩
    all_goals simp [State.pairEvent, State.onPair]
  case refine_9 =>
    have htest : s.testRuns = false := by
      rw [← Bool.not_eq_true, State.testRuns_iff]
      simp [hw, hno]
    have hx := exec_pairSelftest hexec hp h1
    rw [if_neg (by simp [htest])] at hx
    refine ⟨fun hf h0 hsplit => ?_, fun hf h0 hrun hsp => ?_, fun hf h0 hrun => ?_, fun hf hst hcnt => ?_, fun hf hst hcnt => ?_⟩
    · rw [if_pos (by simp [hf, h0, hsplit])] at hx
      exact (answers_only_complete hexec hx).imp fun t ⟨hc, ht⟩ => ⟨hc, by rw [ht]⟩
    · have hnot : (s.pairs.at p).st.runs = false := by
        cases hs : (s.pairs.at p).st <;> simp_all [PairState.runs]
      rw [if_neg (by simp [h0]), if_pos (by simp [hf, hnot])] at hx
      exact (answers_only_complete hexec hx).imp fun t ⟨hc, ht⟩ => ⟨hc, by rw [ht]⟩
    · rw [if_neg (by simp [h0]), if_neg (by simp [hf, hrun, PairState.runs]), if_neg (by simp [hf])] at hx
      exact answers_of_exec_of_evt_eq hx rfl ⟨executing_flight_same hexec, by simp [hw, hf], rfl⟩
    · rw [if_neg (by simp [hf]), if_neg (by simp [hf, hst]), if_neg (by simp [hf, hcnt])] at hx
      exact answers_of_exec_of_evt_eq hx rfl ⟨executing_flight_same hexec, by simp [hw, hf], rfl⟩
    · rw [if_neg (by simp [hf]), if_neg (by simp [hf, hst]), if_pos (by simp [hf, hcnt])] at hx
      exact (answers_only_complete hexec hx).imp fun t ⟨hc, ht⟩ => ⟨hc, by rw [ht]⟩
  case refine_10 =>
    have hx := exec_pairSelftest (p := ⟨opByte c 0, by omega⟩) hexec rfl h1
    rw [if_pos ((State.testRuns_iff s).mpr (Or.inl ⟨q, hq⟩))] at hx
    exact answers_only_complete hexec hx
  case refine_11 =>
    have he : Ending s { s with pctl := { s.pctl with waits := [] } } c f :=
      (ending_of_flight hexec.flight hexec.same hexec.enabled hexec.kept hexec.tracked).of_eq rfl rfl rfl
    refine answers_of_complete (exec_pairSelftestIdleTimeout hw hlate) he rfl fun t hc ht => ⟨?_, hc, ?_⟩
    · rw [ht]
    · rw [ht]
  case refine_12 => exact answers_of_exec_of_evt_eq (exec_pairSelftestIdleTimeout_none h) rfl rfl

end Sys2Proof.Machine
end

section
/-! SUPPORT. Core pairs start, stop and are debugged (14 R388, R393 to R397). -/

namespace Sys2Proof.Machine

open Sys2Proof Sys2Proof.Machine

theorem exec_pairStart {p : Fin 8} {s : State} (hp : p ≠ 0) (hst : (s.pairs.at p).st = .off) : exec (.pairStart 0 p) s =
    answer s (s.onPair p (fun x => { x with st := if s.pctl.split then .split else .run, done := false })) :=
  congrArg (answer s) (if_pos ⟨rfl, hp, hst⟩)

theorem exec_pairStop {p : Fin 8} {s : State} (hp : p ≠ 0)
    (hst : (s.pairs.at p).st = .run ∨ (s.pairs.at p).st = .split ∨ (s.pairs.at p).st = .dbgHalt) :
    exec (.pairStop 0 p) s = answer s (s.onPair p (fun x => { x with st := .off })) := by
  refine congrArg (answer s) ((if_pos ⟨rfl, hp⟩).trans ?_)
  rcases hst with h | h | h <;> rw [h]

/-- START and STOP of another core, of pair 0, or of a pair that is out of service do nothing (14 R388). -/
theorem exec_pairStart_idle {w : Fin 16} {p : Fin 8} {s : State} (h : w ≠ 0 ∨ p = 0 ∨ (s.pairs.at p).st ≠ .off) :
    exec (.pairStart w p) s = answer s s :=
  congrArg (answer s) (if_neg fun ⟨hw, hp, hst⟩ => h.elim (· hw) (·.elim hp (· hst)))

theorem exec_pairStop_idle {w : Fin 16} {p : Fin 8} {s : State}
    (h : w ≠ 0 ∨ p = 0 ∨ (s.pairs.at p).st = .fault ∨ (s.pairs.at p).st = .failed) : exec (.pairStop w p) s = answer s s := by
  refine congrArg (answer s) ?_
  unfold State.stopPair
  split
  · next hwp =>
    obtain ⟨hw, hp⟩ := hwp
    rcases h with h | h | h | h
    · exact absurd hw h
    · exact absurd h hp
    · rw [h]
    · rw [h]
  · rfl

theorem exec_pairDone {w : Fin 16} {s : State} (hst : (s.pairs.at (pairOf w)).st.runs = true) :
    exec (.pairDone w) s = answer s (s.onPair (pairOf w) (fun x => { x with done := true })) :=
  congrArg (answer s) (if_pos hst)

theorem State.debugs_iff (s : State) (p : Fin 8) :
    s.debugs p = true ↔ s.pctl.attached = true ∧ s.pctl.unlocked.getLsbD p.val = true := by
  simp [State.debugs]

theorem exec_debugHalt {p : Fin 8} {s : State} (hd : s.debugs p = true) (hst : (s.pairs.at p).st.runs = true) :
    exec (.debugHalt p) s = answer s (s.onPair p (fun x => { x with prev := x.st, st := .dbgHalt })) :=
  congrArg (answer s) (if_pos (by simp [hd, hst]))

theorem exec_debugResume {p : Fin 8} {s : State} (hd : s.debugs p = true) (hst : (s.pairs.at p).st = .dbgHalt)
    (hbuf : (s.pairs.at p).replay = []) :
    exec (.debugResume p) s = answer s (s.onPair p (fun x => { x with st := x.prev, replay := [], full := false })) := by
  have hx : exec (.debugResume p) s = execDebugResume p s := rfl
  rw [hx]
  unfold execDebugResume
  rw [if_pos (by simp [hd, hst]), hbuf]
  rfl

/-- Without an unlock that covers the pair a debugger does nothing (14 R395). -/
theorem exec_debug_locked {p : Fin 8} {second : Bool} {w : DbgWrite} {s : State} (hd : s.debugs p = false) :
    exec (.debugWrite p second w) s = answer s s ∧ exec (.debugHalt p) s = answer s s ∧ exec (.debugResume p) s = answer s s :=
  ⟨congrArg (answer s) (if_pos (by simp [hd])), congrArg (answer s) (if_neg (by simp [hd])), congrArg (answer s) (if_neg (by simp [hd]))⟩

/-- A write to the TCM of a pair halted in inspect mode reaches the main core, and the replay buffer while it has room (14 R396). -/
theorem exec_debugWrite_inspect {p : Fin 8} {addr : BitVec 17} {v : BitVec 32} {s : State} (hd : s.debugs p = true)
    (hst : (s.pairs.at p).st = .dbgHalt) (hsplit : s.pctl.split = false) (hins : s.inspect p = true) :
    exec (.debugWrite p false (.tcm addr v)) s = answer s (
      if 4096 ≤ (s.pairs.at p).replay.length then (s.onPair p (fun x => { x with full := true })).pairEvent 25
      else (s.sramStore (tcmKey (2 * p.val) addr) (bvBytes 4 v)).onPair p (fun x => { x with replay := x.replay ++ [.tcm addr v] })) := by
  have hx : exec (.debugWrite p false (.tcm addr v)) s = execDebugWrite p false (.tcm addr v) s := rfl
  rw [hx]
  unfold execDebugWrite
  dsimp only
  rw [if_neg (by simp [hd]), if_pos (by simp [hst])]
  unfold State.debugLocal
  dsimp only
  rw [if_neg (by simp [hsplit]), if_neg (by simp [hins])]

theorem State.restoreBlock_full {s : State} (b : Nat) (h : s.ret.pending = false) : s.restoreBlock b = s :=
  if_neg (by simp [h])

/-- Once SRAM is back, a store writes it and nothing else (15 R418). -/
theorem State.sramStore_full {s : State} (key : Nat) (bytes : List Byte) (h : s.ret.pending = false) :
    s.sramStore key bytes = { s with mem := { s.mem with sram := Memory.writeBytes s.mem.sram key bytes } } := by
  unfold State.sramStore
  rw [State.restoreBlock_full _ h, State.restoreBlock_full _ h]

theorem exec_jtagExtest (s : State) : exec .jtagExtest s =
    answer s { s with pctl := { s.pctl with extest := decide (∀ i, (s.strs.at i).st = .opened) } } := by
  have hopen : s.allOpen = decide (∀ i, (s.strs.at i).st = .opened) := by
    rw [Bool.eq_iff_iff]
    simp [State.allOpen, State.strSt, places]
  rw [← hopen]
  rfl

/-- The unlock ends, or another takes its place (14 R395). -/
theorem State.setUnlock_eq_with (s : State) (mask : BitVec 8) (expires : Nat) : ∃ e,
    s.setUnlock mask expires = { s with evt := e, pctl := { s.pctl with
      unlocked := mask, expires := expires, attached := s.pctl.attached && mask != 0 } } ∧
    (s.pctl.unlocked ≠ 0 → e.pair.getLsbD 24 = true) := by
  unfold State.setUnlock
  split
  · next h => exact ⟨s.evt, rfl, fun hne => absurd h.1 hne⟩
  · exact ⟨_, rfl, fun _ => setBit_getLsbD_self _ (by decide)⟩

/-- The package of a DEBUG_UNLOCK that verifies (14 R395). -/
structure UnlockPackage (c : Cmd) (pkg : List Byte) (s : State) : Prop where
  operand : opField c 8 4 = 96
  length  : pkg.length = 96
  head    : packageHead 0x0B01 pkg = true
  zero1   : zeroBytes pkg 0x11 0x12 = true
  some_   : 1 ≤ field pkg 0x12 2
  most    : field pkg 0x12 2 ≤ 720
  zero2   : zeroBytes pkg 0x14 0x20 = true
  signed  : packageSigned s.sec.owner pkg = true

theorem exec_debugUnlock {c : Cmd} {f : Flight} {pkg : List Byte} {s : State} (h : Executing s c f) (hp : UnlockPackage c pkg s) :
    ∃ n d, exec (.debugUnlock c pkg) s = answer s (
      if field pkg 4 4 ≤ s.pctl.dbgSeq.toNat then (s.executing c).refuse c 0x0E06
      else (State.studbook { (s.executing c).setUnlock (pkg.getD 0x10 0) (s.oph + field pkg 0x12 2 * 3600000) with
        pctl := { ((s.executing c).setUnlock (pkg.getD 0x10 0) (s.oph + field pkg 0x12 2 * 3600000)).pctl with
          dbgSeq := BitVec.ofNat 32 (field pkg 4 4) } } 0x05 n d).ok c (dwords (pkg.getD 0x10 0).toNat 0 0 0)) := by
  obtain ⟨hop, hlen, hhead, hzero, hsome, hmost, hzero2, hsigned⟩ := hp
  have hx : exec (.debugUnlock c pkg) s = execDebugUnlock c pkg s := rfl
  refine ⟨0x0B, [1, 0, 0, 0] ++ leBytes 4 (field pkg 4 4), ?_⟩
  rw [hx]
  unfold execDebugUnlock
  rw [run_executing h]
  unfold debugUnlock
  dsimp only
  rw [if_neg (by simp [hop, hlen, hhead, hzero, hzero2]; omega), if_neg (by simp [State.executing, hsigned])]
  rfl

theorem exec_debugUnlockExpiry {s : State} (hun : s.pctl.unlocked ≠ 0) (hend : s.pctl.expires ≤ s.oph) :
    exec .debugUnlockExpiry s = answer s (s.setUnlock 0 0) :=
  congrArg (answer s) (if_pos ⟨hun, hend⟩)

theorem exec_debugUnlockExpiry_not {s : State} (h : s.pctl.unlocked = 0 ∨ s.oph < s.pctl.expires) :
    exec .debugUnlockExpiry s = answer s s :=
  congrArg (answer s) (if_neg fun ⟨hun, hend⟩ => h.elim hun (fun hlt => absurd hend (Nat.not_le.mpr hlt)))

/-- What changes one pair only. -/
theorem State.onPair_at (s : State) (p : Fin 8) (f : Pair → Pair) : (s.onPair p f).pairs.at p = f (s.pairs.at p) ∧
    (∀ q, q ≠ p → (s.onPair p f).pairs.at q = s.pairs.at q) ∧ s.onPair p f = { s with pairs := (s.onPair p f).pairs } := by
  refine ⟨by simp [State.onPair], fun q hq => ?_, rfl⟩
  exact Bank.at_upd_of_ne _ _ (Ne.symm hq)

/-- Settles O48. -/
theorem pairsStartStopAndDebug : Obligations.PairsStartStopAndDebug := by
  unfold Obligations.PairsStartStopAndDebug
  refine ⟨fun p s hp hst => ?_, fun p s hp hst => ?_, fun w p s h => ⟨?_, ?_⟩, fun w s hst => ?_, fun p s hat hun hst => ?_,
    fun p s hat hun hst hbuf => ?_, fun p addr v s hat hun hst hsplit hmode hdone hret => ⟨fun hroom => ?_, fun hfull => ?_⟩,
    fun p second w s h => ?_, fun on s => ?_, fun s => ?_, fun c f pkg s hexec hop hlen hhead hzero hsome hmost hzero2 hsigned => ?_,
    fun s hun hend => ?_, fun s h => ?_⟩
  case refine_1 => exact answers_of_exec_of_evt_eq (exec_pairStart hp hst) rfl (s.onPair_at p _)
  case refine_2 => exact answers_of_exec_of_evt_eq (exec_pairStop hp hst) rfl (s.onPair_at p _)
  case refine_3 =>
    refine answers_of_exec_of_evt_eq (exec_pairStart_idle ?_) rfl rfl
    rcases h with h | h | h | h
    · exact Or.inl h
    · exact Or.inr (Or.inl h)
    · exact Or.inr (Or.inr (by simp [h]))
    · exact Or.inr (Or.inr (by simp [h]))
  case refine_4 => exact answers_of_exec_of_evt_eq (exec_pairStop_idle h) rfl rfl
  case refine_5 => exact answers_of_exec_of_evt_eq (exec_pairDone (by simp [hst, PairState.runs])) rfl (s.onPair_at _ _)
  case refine_6 =>
    have hruns : (s.pairs.at p).st.runs = true := by rcases hst with h | h <;> simp [h, PairState.runs]
    exact answers_of_exec_of_evt_eq (exec_debugHalt ((s.debugs_iff p).mpr ⟨hat, hun⟩) hruns) rfl (s.onPair_at p _)
  case refine_7 =>
    obtain ⟨hself, hothers, honly⟩ := s.onPair_at p (fun x => { x with st := x.prev, replay := [], full := false })
    refine answers_of_exec_of_evt_eq (exec_debugResume ((s.debugs_iff p).mpr ⟨hat, hun⟩) hst hbuf) rfl ⟨?_, hothers, honly⟩
    rw [hself, ← hbuf]
  case refine_8 =>
    have hx := exec_debugWrite_inspect (addr := addr) (v := v) ((s.debugs_iff p).mpr ⟨hat, hun⟩) hst hsplit
      (by simp [State.inspect, hst, hdone])
    rw [if_neg (by omega), State.sramStore_full _ _ hret] at hx
    have hkey : tcmKey (2 * p.val) addr = 0x40000 * p.val + addr.toNat := by
      unfold tcmKey
      omega
    refine answers_of_exec_of_evt_eq hx rfl ⟨by simp [State.onPair], ?_⟩
    rw [hkey]
    rfl
  case refine_9 =>
    have hx := exec_debugWrite_inspect (addr := addr) (v := v) ((s.debugs_iff p).mpr ⟨hat, hun⟩) hst hsplit
      (by simp [State.inspect, hst, hdone])
    rw [if_pos hfull] at hx
    refine answers_of_exec hx ?_
    simp only [eventInterrupt_frame]
    exact ⟨(s.onPair_at p _).1, setBit_getLsbD_self _ (by decide), rfl⟩
  case refine_10 =>
    have hd : s.debugs p = false := by
      rw [← Bool.not_eq_true, State.debugs_iff]
      rintro ⟨hat, hun⟩
      exact h.elim (fun h => Bool.noConfusion (hat.symm.trans h)) (fun h => Bool.noConfusion (hun.symm.trans h))
    obtain ⟨hwrite, hhalt, hresume⟩ := exec_debug_locked (second := second) (w := w) hd
    exact ⟨answers_of_exec_of_evt_eq hwrite rfl rfl, answers_of_exec_of_evt_eq hhalt rfl rfl, answers_of_exec_of_evt_eq hresume rfl rfl⟩
  case refine_11 => exact answers_of_exec_of_evt_eq rfl rfl rfl
  case refine_12 => exact answers_of_exec_of_evt_eq (exec_jtagExtest s) rfl rfl
  case refine_13 =>
    obtain ⟨n, d, hx⟩ := exec_debugUnlock hexec ⟨hop, hlen, hhead, hzero, hsome, hmost, hzero2, hsigned⟩
    refine ⟨fun hseq => ?_, fun hseq => ?_⟩
    · rw [if_neg (by omega)] at hx
      obtain ⟨e, hset, -⟩ := (s.executing c).setUnlock_eq_with (pkg.getD 0x10 0) (s.oph + field pkg 0x12 2 * 3600000)
      rw [hset] at hx
      obtain ⟨a, ha⟩ : ∃ a, { s.executing c with evt := e, pctl := { s.pctl with
        unlocked := pkg.getD 0x10 0, expires := s.oph + field pkg 0x12 2 * 3600000, attached := s.pctl.attached && pkg.getD 0x10 0 != 0
        dbgSeq := BitVec.ofNat 32 (field pkg 4 4) } } = a := ⟨_, rfl⟩
      replace hx := hx.trans (congrArg (fun a : State => answer s ((a.studbook 0x05 n d).ok c (dwords (pkg.getD 0x10 0).toNat 0 0 0))) ha)
      have he : Ending s (a.studbook 0x05 n d) c f := hexec.ending.of_eq (by rw [← ha]; simp) (by rw [← ha]; simp) (by rw [← ha]; simp)
      have hc := (he.completes stSuccess (dwords (pkg.getD 0x10 0).toNat 0 0 0)).eventInterrupt s
      refine answers_of_exec hx ⟨?_, hc⟩
      simp only [eventInterrupt_frame, State.ok, State.complete_frame, State.studbook_frame]
      rw [← ha]
    · rw [if_pos hseq] at hx
      exact (answers_only_complete hexec hx).imp fun t ⟨hc, ht⟩ => ⟨hc, by rw [ht]⟩
  case refine_14 =>
    obtain ⟨e, hset, hbit⟩ := s.setUnlock_eq_with 0 0
    have hx := exec_debugUnlockExpiry hun hend
    rw [hset] at hx
    refine answers_of_exec hx ?_
    simp only [eventInterrupt_frame]
    exact ⟨trivial, by simp, hbit hun, trivial⟩
  case refine_15 => exact answers_of_exec_of_evt_eq (exec_debugUnlockExpiry_not h) rfl rfl

end Sys2Proof.Machine
end

section
/-! SUPPORT. Power requests, run levels and the regulator (15 R401 to R406, R426). -/

namespace Sys2Proof.Machine

open Sys2Proof Sys2Proof.Machine

/-- Run and Idle are the states in which a request acts at once, while no change is in progress (15 R406). -/
structure Settled (s : State) : Prop where
  phase : s.pwr.phase = 0
  level : s.pwr.levelBusy = false
  wake  : s.pwr.wake = none
  awake : s.pwr.st = .run ∨ s.pwr.st = .idle

theorem Settled.not_changing {s : State} (h : Settled s) : s.pwr.changing = false := by
  simp [Pwr.changing, h.phase, h.level, h.wake]

theorem Settled.request {s : State} (h : Settled s) (q : PwrReq) : s.request q = s.applyRequest q := by
  have hst : ¬ (s.pwr.st = .rest ∨ s.pwr.st = .stabled) := by rcases h.awake with h | h <;> simp [h]
  unfold State.request
  rw [if_neg (by simp [h.not_changing]), if_neg hst]

theorem Settled.executing {s : State} (h : Settled s) (c : Cmd) : Settled (s.executing c) :=
  ⟨h.phase, h.level, h.wake, h.awake⟩

/-- The power block once Run or Idle has been asked for (15 R406). -/
def Pwr.shallow (p : Pwr) (val : BitVec 2) (wakeEn : BitVec 7) : Pwr :=
  { p with st := pwrStateOf val, wakeEn := if wakeEn = 0 then p.wakeEn else wakeEn ||| 0x60 }

theorem State.applyRequest_shallow (s : State) {q : PwrReq} (hlevel : q.level = false) (hval : q.val.toNat < 2) :
    s.applyRequest q = (match q.cmd with
      | some c => State.ok { s with pwr := s.pwr.shallow q.val q.wakeEn } c
      | none => { s with pwr := s.pwr.shallow q.val q.wakeEn }) := by
  unfold State.applyRequest
  dsimp only
  rw [if_neg (by simp [hlevel]), if_pos hval]
  rfl

theorem exec_setPowerState_shallow {c : Cmd} {f : Flight} {s : State} (h : Executing s c f) (hset : Settled s) (hval : opByte c 0 ≤ 1) :
    exec (.setPowerState c) s = answer s (State.ok
      { s.executing c with pwr := s.pwr.shallow (BitVec.ofNat 2 (opByte c 0)) (BitVec.ofNat 7 (opByte c 4)) } c) := by
  have hx : exec (.setPowerState c) s = execSetPowerState c s := rfl
  rw [hx]
  unfold execSetPowerState
  rw [run_executing h, if_neg (by omega), (hset.executing c).request, State.applyRequest_shallow _ rfl (by simp; omega)]
  rfl

theorem exec_setPowerState_badOperand {c : Cmd} {f : Flight} {s : State} (h : Executing s c f) (hval : 3 < opByte c 0) :
    exec (.setPowerState c) s = answer s ((s.executing c).badOperand c) := by
  have hx : exec (.setPowerState c) s = execSetPowerState c s := rfl
  rw [hx]
  unfold execSetPowerState
  rw [run_executing h, if_pos hval]

theorem exec_setRunLevel_badOperand {c : Cmd} {f : Flight} {s : State} (h : Executing s c f) (hval : 3 < opByte c 0) :
    exec (.setRunLevel c) s = answer s ((s.executing c).badOperand c) := by
  have hx : exec (.setRunLevel c) s = execSetRunLevel c s := rfl
  rw [hx]
  unfold execSetRunLevel
  rw [run_executing h, if_pos hval]

theorem exec_setRunLevel {c : Cmd} {f : Flight} {s : State} (h : Executing s c f) (hset : Settled s) (hval : opByte c 0 ≤ 3) :
    exec (.setRunLevel c) s = answer s ((s.executing c).startLevel (BitVec.ofNat 2 (opByte c 0)) (some c)) := by
  have hx : exec (.setRunLevel c) s = execSetRunLevel c s := rfl
  rw [hx]
  unfold execSetRunLevel
  rw [run_executing h, if_neg (by omega), (hset.executing c).request]
  rfl

theorem exec_setHostVeto {c : Cmd} {f : Flight} {s : State} (h : Executing s c f) (hval : opByte c 0 ≤ 1) :
    exec (.setHostVeto c) s =
      answer s (State.ok { s.executing c with pwr := { s.pwr with veto := opByte c 0 == 1 } } c (dwords (bit s.pwr.veto) 0 0 0)) := by
  have hx : exec (.setHostVeto c) s = execSetHostVeto c s := rfl
  rw [hx]
  unfold execSetHostVeto
  rw [run_executing h, if_neg (by omega)]
  rfl

-- A change of run level (15 R401): the voltage first upwards, the clock first downwards.

theorem State.startLevel_same (s : State) (c : Cmd) :
    s.startLevel s.pwr.level (some c) = s.ok c (dwords s.pwr.level.toNat 0 0 0) :=
  if_pos rfl

theorem State.startLevel_up (s : State) {l : BitVec 2} (c : Option Cmd) (h : l.toNat < s.pwr.level.toNat) :
    s.startLevel l c = { s with
      pwr := { s.pwr with levelBusy := true, levelCmd := c, retries := 0, pmbus := some (.levelUp l) }
      out := s.out ++ [.pmbus s.pwr.cfg.pmbAddr 0x21 (voutCommand l.toNat s.pwr.cfg.voutExp)] } := by
  have hne : l ≠ s.pwr.level := fun he => by simp [he] at h
  unfold State.startLevel
  simp only [if_neg hne, State.onPwr]
  exact if_pos h

theorem State.startLevel_down (s : State) {l : BitVec 2} (c : Option Cmd) (h : s.pwr.level.toNat < l.toNat) :
    s.startLevel l c = { s with
      pwr := { s.pwr with levelBusy := true, levelCmd := c, clkLevel := l, retries := 0, pmbus := some (.levelDown l) }
      out := s.out ++ [.pmbus s.pwr.cfg.pmbAddr 0x21 (voutCommand l.toNat s.pwr.cfg.voutExp)] } := by
  have hne : l ≠ s.pwr.level := fun he => by simp [he] at h
  unfold State.startLevel
  simp only [if_neg hne, State.onPwr]
  exact if_neg (Nat.not_lt.mpr (Nat.le_of_lt h))

-- The regulator's answers (15 R402, R403).

theorem exec_pmbusAck {w : BitVec 16} {why : PmbusWhy} {s : State} (hp : s.pwr.pmbus = some why) (hw : w &&& 0xE87E = 0) :
    exec (.pmbusAck w) s = answer s (State.acknowledged { s with pwr := { s.pwr with lastStatus := w } } why) := by
  have hx : exec (.pmbusAck w) s = execPmbusAck w s := rfl
  rw [hx]
  unfold execPmbusAck
  rw [hp]
  dsimp only
  rw [if_pos (show statusClean w = true from beq_iff_eq.mpr hw)]
  rfl

theorem exec_pmbusAck_idle {w : BitVec 16} {s : State} (h : s.pwr.pmbus = none ∨ w &&& 0xE87E ≠ 0) :
    exec (.pmbusAck w) s = answer s s := by
  refine congrArg (answer s) ?_
  split
  · rfl
  · next why hp =>
    refine if_neg ?_
    simpa [hp, statusClean] using h

theorem State.applyPending_none {s : State} (h : s.pwr.pend = none) : s.applyPending = s := by
  unfold State.applyPending
  rw [h]

theorem State.setLevel_eq_with (s : State) (l : BitVec 2) :
    s.setLevel l = { s with
      pwr := { s.pwr with level := l, clkLevel := l }
      est := { s.est with rateHalf := s.est.rateHalf && l == 3 } } := by
  unfold State.setLevel
  dsimp only
  split
  · next h => simp [h, State.onPwr]
  · next h =>
    have hl : (l == 3) = false := beq_eq_false_iff_ne.mpr h
    simp only [hl, Bool.and_false]
    rfl

/-- The end of a level change for a command: the bit, and the command's completion (15 R401, R406). -/
theorem State.levelEnd_some {s : State} {c : Cmd} (h : s.pwr.levelCmd = some c) :
    s.levelEnd false = State.ok { s with
      pwr := { s.pwr with levelBusy := false, levelCmd := none }
      evt := { s.evt with pwr := setBit s.evt.pwr 4 } } c (dwords s.pwr.level.toNat 0 0 0) := by
  unfold State.levelEnd
  dsimp only
  rw [h]
  rfl

/-- The voltage of a higher level is there: the level is in force (15 R401, R405). -/
theorem State.acknowledged_levelUp {s : State} {c : Cmd} (l : BitVec 2) (hcmd : s.pwr.levelCmd = some c) (hpend : s.pwr.pend = none) :
    s.acknowledged (.levelUp l) = State.ok { s with
      pwr := { s.pwr with pmbus := none, pgood := true, level := l, clkLevel := l, levelBusy := false, levelCmd := none }
      est := { s.est with rateHalf := s.est.rateHalf && l == 3 }
      evt := { s.evt with pwr := setBit s.evt.pwr 4 } } c (dwords l.toNat 0 0 0) := by
  unfold State.acknowledged
  dsimp only
  rw [State.setLevel_eq_with, State.levelEnd_some (by exact hcmd), State.applyPending_none]
  · rfl
  · simp only [State.ok, State.complete_frame]
    exact hpend

theorem exec_pmbusAttemptFail_again {l : BitVec 2} {w : BitVec 16} {s : State} (hp : s.pwr.pmbus = some (.levelUp l))
    (hr : s.pwr.retries < 2) : exec (.pmbusAttemptFail (some w)) s = answer s { s with
      pwr := { s.pwr with lastStatus := w, retries := s.pwr.retries + 1 }
      out := s.out ++ [.pmbus s.pwr.cfg.pmbAddr 0x03 0, .pmbus s.pwr.cfg.pmbAddr 0x21 (voutCommand l.toNat s.pwr.cfg.voutExp)] } := by
  have hx : exec (.pmbusAttemptFail (some w)) s = execPmbusAttemptFail (some w) s := rfl
  rw [hx]
  unfold execPmbusAttemptFail
  rw [hp]
  dsimp only
  have hnot : ¬ (PmbusWhy.levelUp l = .revert ∨ 2 ≤ s.pwr.retries) := by simp; omega
  simp only [State.onPwr, if_neg hnot, State.emit, State.sendRequest, State.sendVout, pmbClearFaults, pmbVout, List.append_assoc, List.cons_append,
    List.nil_append, Option.getD_some]

theorem exec_pmbusAttemptFail_last {why : PmbusWhy} {w : BitVec 16} {s : State} (hp : s.pwr.pmbus = some why) (hr : s.pwr.retries = 2) :
    exec (.pmbusAttemptFail (some w)) s = answer s (State.faulted { s with pwr := { s.pwr with lastStatus := w } } why) := by
  have hx : exec (.pmbusAttemptFail (some w)) s = execPmbusAttemptFail (some w) s := rfl
  rw [hx]
  unfold execPmbusAttemptFail
  rw [hp]
  exact congrArg (answer s) (if_pos (Or.inr (Nat.le_of_eq hr.symm)))

@[simp] theorem State.studbook_evt_pwr (s : State) (t : BitVec 6) (n : Nat) (d : List Byte) :
    (s.studbook t n d).evt.pwr = s.evt.pwr := by
  unfold State.studbook State.recorderTakes
  dsimp only
  repeat' split
  all_goals rfl

/-- A power fault counts, sets its event bit, and asks for a record (15 R402). -/
theorem State.powerFault_eq_with (s : State) (where_ : Option Nat) (cmd : Option (BitVec 8)) : ∃ b e x n,
    s.powerFault where_ cmd =
      { s with pwr := { s.pwr with faultCnt := satAdd 15 s.pwr.faultCnt 1 }, stb := b, evt := e, cross := x, free := n } ∧
    e.pwr.getLsbD 3 = true := by
  obtain ⟨b, e, x, h⟩ := (State.studbook_eq_with
    { s with pwr := { s.pwr with faultCnt := satAdd 15 s.pwr.faultCnt 1 }, evt := { s.evt with pwr := setBit s.evt.pwr 3 }, free := s.free + 1 + 1 }
    0x09 0 ([(match where_ with | some n => BitVec.ofNat 8 n | none => Config.freeByte s.free), cmd.getD (Config.freeByte (s.free + 1))] ++
      bvBytes 2 s.pwr.lastStatus))
  refine ⟨b, e, x, s.free + 1 + 1, h, ?_⟩
  have hp := congrArg (fun t : State => t.evt.pwr) h
  simp only [State.studbook_evt_pwr] at hp
  exact hp ▸ setBit_getLsbD_self _ (by decide)

/-- The third failed attempt at a higher level: a power fault, the command's refusal, and the request for the old voltage (15 R402, R403). -/
theorem State.faulted_levelUp {s : State} {c : Cmd} (l : BitVec 2) (hcmd : s.pwr.levelCmd = some c) : ∃ b e x n,
    s.faulted (.levelUp l) = (State.refuse { s with
      pwr := { s.pwr with pmbus := none, faultCnt := satAdd 15 s.pwr.faultCnt 1, levelCmd := none }
      stb := b, evt := e, cross := x, free := n } c 0x0F08).ask .revert ∧ e.pwr.getLsbD 3 = true := by
  obtain ⟨b, e, x, n, h, hbit⟩ := State.powerFault_eq_with { s with pwr := { s.pwr with pmbus := none } } none (some pmbVout)
  refine ⟨b, e, x, n, ?_, hbit⟩
  unfold State.faulted
  dsimp only
  have hreq : s.requestCommand (.levelUp l) = pmbVout := rfl
  rw [hreq, show s.onPwr (fun p => { p with pmbus := none }) = { s with pwr := { s.pwr with pmbus := none } } from rfl, h]
  dsimp only
  rw [hcmd]
  rfl

-- The requests of the cores (15 R426).

theorem State.writePwrReq_ignored {s : State} {core : Fin 16} {v : Word} (h : v.extractLsb' 24 8 ≠ 0x5A ∨ 2 ≤ core.val) :
    s.writePwrReq core v = s := by
  refine if_pos ?_
  rcases h with h | h
  · exact Bool.or_eq_true_iff.mpr (Or.inr (bne_iff_ne.mpr h))
  · have h0 : core ≠ 0 := fun he => by simp [he] at h
    have h1 : core ≠ 1 := fun he => by simp [he] at h
    simp [State.mayBeat, h0, h1]

theorem State.writePwrReq_zero {s : State} {v : Word} (hkey : v.extractLsb' 24 8 = 0x5A) :
    s.writePwrReq 0 v = s.request
      { level := v.getLsbD 8, val := if v.getLsbD 8 then v.extractLsb' 4 2 else v.extractLsb' 0 2, wakeEn := 0, cmd := none } :=
  if_neg (by simp [State.mayBeat, hkey])

theorem exec_pwrReqState_idle {v : Word} {s : State} (hkey : v.extractLsb' 24 8 = 0x5A) (hset : Settled s) (hkind : v.getLsbD 8 = false)
    (hval : v.extractLsb' 0 2 = 1) : exec (.pwrReqState 0 v) s = answer s { s with pwr := { s.pwr with st := .idle } } := by
  refine congrArg (answer s) ((if_neg (Bool.eq_false_iff.mp hkind)).trans ?_)
  rw [State.writePwrReq_zero hkey, hset.request, if_neg (Bool.eq_false_iff.mp hkind), hval,
    State.applyRequest_shallow _ hkind (show (1 : BitVec 2).toNat < 2 by decide)]
  rfl

theorem exec_pwrReqLevel_up {v : Word} {s : State} (hkey : v.extractLsb' 24 8 = 0x5A) (hset : Settled s) (hkind : v.getLsbD 8 = true) :
    exec (.pwrReqLevel 0 v) s = answer s (s.startLevel (v.extractLsb' 4 2) none) := by
  refine congrArg (answer s) ((if_pos hkind).trans ?_)
  rw [State.writePwrReq_zero hkey, hset.request]
  unfold State.applyRequest
  simp [hkind]

-- The loss and the recovery of PGOOD (15 R404).

/-- PGOOD is watched in Run and Idle, while no wake is in progress and the islands are up. -/
def State.watchesPgood (s : State) : Prop :=
  (s.pwr.st = .run ∨ s.pwr.st = .idle) ∧ s.pwr.wake = none ∧ s.pwr.held = false ∧ s.isl.coreA = true

theorem exec_pgoodLoss {s : State} (h : s.watchesPgood) : ∃ u : State, ∃ b e x n, exec .pgoodLoss s = answer s
    { u with
      pwr := { s.pwr with pgood := false, held := true, faultCnt := satAdd 15 s.pwr.faultCnt 1 }, stb := b, evt := e, cross := x, free := n } ∧
    u.isl = { s.isl with coreA := false, coreB := false, est := false } ∧ u.swc = s.swc ∧ u.halter = s.halter ∧
    e.pwr.getLsbD 3 = true := by
  have hx : exec .pgoodLoss s = execPgoodLoss s := rfl
  replace hx := hx.trans (congrArg (answer s) (if_pos h))
  obtain ⟨u, hu⟩ : ∃ u, {
    s.onPwr (fun p => { p with pgood := false, held := true }) with
    isl := { s.isl with coreA := false, coreB := false, est := false }, est := { s.est with running := false }
    pairs := s.pairs.each (fun _ x => match x.st with
      | .fault | .failed | .off => x
      | _ => { x with st := .off, done := false, stopPend := false }) } = u := ⟨_, rfl⟩
  obtain ⟨b, e, x, n, hf, hbit⟩ := u.powerFault_eq_with none none
  replace hx := hx.trans (congrArg (fun u : State => answer s (u.powerFault none none)) hu)
  have hpwr : u.pwr = { s.pwr with pgood := false, held := true } := by rw [← hu]; rfl
  refine ⟨u, b, e, x, n, ?_, by rw [← hu], by rw [← hu]; rfl, by rw [← hu]; rfl, hbit⟩
  rw [hx, hf, hpwr]

theorem exec_pgoodLoss_idle {s : State} (h : ¬ s.watchesPgood) : exec .pgoodLoss s = answer s s :=
  congrArg (answer s) (if_neg h)

theorem exec_pgoodRecovery {s : State} (h : s.pwr.held = true) : exec .pgoodRecovery s = answer s { s with
      pwr := { s.pwr with pgood := true, held := false }
      isl := { s.isl with coreA := true, coreB := true, est := true }
      sec := { s.sec with bootDue := true } } :=
  congrArg (answer s) (if_pos h)

theorem ofNat_two_toNat {n : Nat} (h : n ≤ 3) : (BitVec.ofNat 2 n).toNat = n := by
  rw [BitVec.toNat_ofNat]
  omega

/-- Settles O49. -/
theorem powerRequestsAndRunLevels : Obligations.PowerRequestsAndRunLevels := by
  unfold Obligations.PowerRequestsAndRunLevels
  refine ⟨fun c f s hexec hval hphase hbusy hwake hst => ?_, fun c f s hexec hval => ⟨?_, ?_⟩,
    fun c f s hexec hval hphase hbusy hwake hst => ⟨fun hl => ?_, fun hl => ?_, fun hl => ?_⟩, fun c f l w s hp hw hcmd hpend hexec => ?_,
    fun w s h => ?_, fun l w s hp hr => ?_, fun c f l w s hp hr hcmd hexec => ?_, fun c f s hexec hval => ?_,
    fun v s hkey hphase hbusy hwake hst => ⟨fun hkind hval => ?_, fun hkind hl => ?_⟩, fun core v s h => ⟨?_, ?_⟩,
    fun s hst hwake hheld hcore => ?_, fun s hheld => ?_, fun s h => ?_⟩
  case refine_1 =>
    have hx := exec_setPowerState_shallow hexec ⟨hphase, hbusy, hwake, hst⟩ hval
    refine answers_of_complete hx (hexec.ending.of_eq rfl rfl rfl) rfl fun t hc ht => ⟨hc, ?_, by rw [ht]; rfl⟩
    rw [ht]
    have hst : pwrStateOf (BitVec.ofNat 2 (opByte c 0)) = if opByte c 0 = 0 then .run else .idle := by
      rcases Nat.le_one_iff_eq_zero_or_eq_one.mp hval with h | h <;> rw [h] <;> rfl
    have hen : (BitVec.ofNat 7 (opByte c 4) = 0) = (opByte c 4 % 128 = 0) := by
      rw [← BitVec.toNat_inj, BitVec.toNat_ofNat]
      rfl
    simp only [Pwr.shallow, hst, hen]
  case refine_2 => exact answers_badOperand hexec (exec_setPowerState_badOperand hexec (by omega))
  case refine_3 => exact answers_badOperand hexec (exec_setRunLevel_badOperand hexec (by omega))
  case refine_4 =>
    have hx := exec_setRunLevel hexec ⟨hphase, hbusy, hwake, hst⟩ hval
    have hlevel : BitVec.ofNat 2 (opByte c 0) = (s.executing c).pwr.level := by
      rw [hl]
      exact BitVec.ofNat_toNat _ _
    rw [hlevel, State.startLevel_same] at hx
    rw [hl]
    exact answers_only_complete hexec hx
  case refine_5 =>
    have hx := exec_setRunLevel hexec ⟨hphase, hbusy, hwake, hst⟩ hval
    have hn := ofNat_two_toNat hval
    rw [State.startLevel_up _ _ (by rw [hn]; exact hl), hn] at hx
    exact answers_of_exec_of_evt_eq hx rfl ⟨executing_flight_same hexec, rfl, rfl, rfl⟩
  case refine_6 =>
    have hx := exec_setRunLevel hexec ⟨hphase, hbusy, hwake, hst⟩ hval
    have hn := ofNat_two_toNat hval
    rw [State.startLevel_down _ _ (by rw [hn]; exact hl), hn] at hx
    exact answers_of_exec_of_evt_eq hx rfl ⟨executing_flight_same hexec, rfl, rfl⟩
  case refine_7 =>
    have hx := exec_pmbusAck hp hw
    rw [State.acknowledged_levelUp (c := c) l (by exact hcmd) (by exact hpend)] at hx
    refine answers_of_exec hx ?_
    have he := ending_of_flight hexec.flight hexec.same hexec.enabled hexec.kept hexec.tracked
    have hc := fun u (hu : Ending s u c f) => (hu.completes stSuccess (dwords l.toNat 0 0 0)).eventInterrupt s
    simp only [eventInterrupt_frame, State.ok, State.complete_frame]
    refine ⟨trivial, trivial, trivial, trivial, trivial, trivial, setBit_getLsbD_self _ (by decide), trivial, hc _ (he.of_eq rfl rfl rfl)⟩
  case refine_8 => exact answers_of_exec_of_evt_eq (exec_pmbusAck_idle h) rfl rfl
  case refine_9 => exact answers_of_exec_of_evt_eq (exec_pmbusAttemptFail_again hp hr) rfl ⟨rfl, rfl, rfl⟩
  case refine_10 =>
    have hx := exec_pmbusAttemptFail_last (w := w) hp hr
    obtain ⟨b, e, x, n, hf, hbit⟩ := State.faulted_levelUp (s := { s with pwr := { s.pwr with lastStatus := w } }) (c := c) l hcmd
    rw [hf] at hx
    refine answers_of_exec hx ?_
    have he := ending_of_flight hexec.flight hexec.same hexec.enabled hexec.kept hexec.tracked
    have hc := fun u (hu : Ending s u c f) => hu.completes stRefused (dwords 0x0F08 0 0 0)
    simp only [eventInterrupt_frame, State.ask_frame, State.refuse, State.complete_frame, Completes]
    exact ⟨trivial, trivial, trivial, hbit, trivial, hc _ (he.of_eq rfl rfl rfl)⟩
  case refine_11 =>
    refine answers_of_complete (exec_setHostVeto hexec hval) (hexec.ending.of_eq rfl rfl rfl) rfl fun t hc ht => ⟨hc, ?_, ?_⟩
    · rw [ht]
    · rw [ht]
      rfl
  case refine_12 =>
    exact answers_of_exec_of_evt_eq (exec_pwrReqState_idle hkey ⟨hphase, hbusy, hwake, Or.inl hst⟩ hkind hval) rfl rfl
  case refine_13 =>
    have hx := exec_pwrReqLevel_up hkey ⟨hphase, hbusy, hwake, Or.inl hst⟩ hkind
    rw [State.startLevel_up _ _ (BitVec.lt_def.mp hl)] at hx
    exact answers_of_exec_of_evt_eq hx rfl ⟨rfl, rfl, rfl, rfl⟩
  case refine_14 =>
    refine answers_of_exec_of_evt_eq (congrArg (answer s) ?_) rfl rfl
    rw [State.writePwrReq_ignored h, ite_self]
  case refine_15 =>
    refine answers_of_exec_of_evt_eq (congrArg (answer s) ?_) rfl rfl
    rw [State.writePwrReq_ignored h, ite_self]
  case refine_16 =>
    obtain ⟨u, b, e, x, n, hx, hisl, hswc, hhalter, hbit⟩ := exec_pgoodLoss ⟨hst, hwake, hheld, hcore⟩
    refine answers_of_exec hx ?_
    simp only [eventInterrupt_frame]
    exact ⟨hisl, trivial, trivial, trivial, hbit, hswc, hhalter⟩
  case refine_17 => exact answers_of_exec_of_evt_eq (exec_pgoodRecovery hheld) rfl ⟨rfl, rfl, rfl⟩
  case refine_18 =>
    refine answers_of_exec_of_evt_eq (exec_pgoodLoss_idle ?_) rfl rfl
    rintro ⟨hst, -, hheld, -⟩
    rcases h with h | h
    · exact Bool.noConfusion (hheld.symm.trans h)
    · simp [h] at hst

end Sys2Proof.Machine
end

section
/-! SUPPORT. Entries to Rest and Stabled, their refusers, and the retention account (15 R407 to R410, R413, R415, R422). -/

namespace Sys2Proof.Machine

open Sys2Proof Sys2Proof.Machine

-- The refusers (15 R407).

theorem State.refuser_strings {s : State} (h : ∃ i, (s.strs.at i).st ≠ .opened ∧ (s.strs.at i).st ≠ .welded) (b : Bool) (n : Nat) :
    s.refuser b n = some 1 := by
  refine if_pos ?_
  obtain ⟨i, hopen, hweld⟩ := h
  exact List.any_eq_true.mpr ⟨i, by simp [places], by simp [State.strSt, hopen, hweld]⟩

/-- With every string open or welded, and every submission entry fetched, what remains are the debugger, the temperature, the veto and the
retention credit, in that order. -/
theorem State.refuser_of_open {s : State} (h : ∀ i, (s.strs.at i).st = .opened ∨ (s.strs.at i).st = .welded) (hf : s.unfetched = false)
    (b : Bool) (n : Nat) : s.refuser b n =
      if s.pctl.attached then some 4
      else if s.therm.warn ∨ 420 ≤ s.therm.tMax then some 5
      else if s.pwr.veto then some 6
      else if b ∧ s.ret.credit = 0 then some 7
      else none := by
  have hstr : (places 4).any (fun i => !(s.strSt i == .opened || s.strSt i == .welded)) = false := by
    refine List.any_eq_false.mpr fun i _ => ?_
    rcases h i with h | h <;> simp [State.strSt, h]
  refine (if_neg (Bool.eq_false_iff.mp hstr)).trans (if_neg ?_)
  simp [hf]

-- A request for Rest (15 R407, R409).

theorem exec_setPowerState_rest {c : Cmd} {f : Flight} {s : State} (h : Executing s c f) (hset : Settled s) (hop : opByte c 0 = 2) :
    exec (.setPowerState c) s = answer s ((s.executing c).startEntry
      { level := false, val := 2, wakeEn := BitVec.ofNat 7 (opByte c 4), cmd := some c }) := by
  have hx : exec (.setPowerState c) s = execSetPowerState c s := rfl
  rw [hx]
  unfold execSetPowerState
  rw [run_executing h, if_neg (by omega), (hset.executing c).request, hop]
  rfl

/-- An entry to Rest that nothing refuses begins with phase 1. -/
theorem State.startEntry_rest {s : State} {q : PwrReq} (hq : q.val = 2) (h : s.refuser false 0 = none) :
    s.startEntry q = { s with
      pwr := { s.pwr with
        target := .rest, phase := 1, phaseAt := s.now, startAt := s.now, entry := some q, joined := [], latched := none
        wakeKeep := s.pwr.wakeEn, wakeEn := if q.wakeEn = 0 then s.pwr.wakeEn else q.wakeEn ||| 0x60 }
      evt := { s.evt with pwr := setBit s.evt.pwr 5 } } := by
  unfold State.startEntry
  rw [hq]
  dsimp only
  rw [show decide ((2 : BitVec 2) = 3) = false from rfl, h]
  rfl

theorem State.startEntry_refused {s : State} {q : PwrReq} {c : Cmd} {n : Nat} (hq : q.val = 2) (hc : q.cmd = some c)
    (h : s.refuser false 0 = some n) : s.startEntry q = (s.countRefusal n 2).refuse c (0x0F00 + n) := by
  unfold State.startEntry
  rw [hq, hc]
  dsimp only
  rw [show decide ((2 : BitVec 2) = 3) = false from rfl, h]

theorem State.powerRecord_eq_with (s : State) (where_ : Option Nat) (cmd : Option (BitVec 8)) : ∃ b e x n,
    s.powerRecord where_ cmd = { s with stb := b, evt := e, cross := x, free := n } ∧ e.pwr = s.evt.pwr := by
  let d : List Byte := [(match where_ with | some n => BitVec.ofNat 8 n | none => Config.freeByte s.free), cmd.getD (Config.freeByte (s.free + 1))] ++
    bvBytes 2 s.pwr.lastStatus
  obtain ⟨b, e, x, h⟩ := State.studbook_eq_with { s with free := s.free + 1 + 1 } 0x09 0 d
  exact ⟨b, e, x, s.free + 1 + 1, h, (congrArg (fun t : State => t.evt.pwr) h).symm.trans (State.studbook_evt_pwr _ _ _ _)⟩

/-- A refused entry is logged and counted, sets its event bit, and asks for a record (15 R407, R422). -/
theorem State.countRefusal_eq_with (s : State) (n : Nat) (state : BitVec 2) : ∃ b e x k, s.countRefusal n state = { s with
      pwr := { s.pwr with
        refuseCnt := satAdd 0xFFFF s.pwr.refuseCnt 1
        log := (⟨BitVec.ofNat 4 n, s.oph, state⟩ :: s.pwr.log).take 16 }
      stb := b, evt := e, cross := x, free := k } ∧ e.pwr.getLsbD 0 = true := by
  obtain ⟨b, e, x, k, h, he⟩ := State.powerRecord_eq_with { s with
    pwr := { s.pwr with
      refuseCnt := satAdd 0xFFFF s.pwr.refuseCnt 1
      log := (⟨BitVec.ofNat 4 n, s.oph, state⟩ :: s.pwr.log).take 16 }
    evt := { s.evt with pwr := setBit s.evt.pwr 0 } } (some s.pwr.phase) none
  exact ⟨b, e, x, k, h, he ▸ setBit_getLsbD_self _ (by decide)⟩

-- The ends of an entry in progress (15 R407, R409).

theorem Pwr.waiting_one {p : Pwr} {q : PwrReq} {c : Cmd} (hq : p.entry = some q) (hc : q.cmd = some c) (hj : p.joined = []) :
    p.waiting = [c] := by
  simp [Pwr.waiting, hq, hc, hj]

/-- A wake event ends an entry of one command: SUCCESS with the abort point and the source. -/
theorem State.abortEntry_one {s : State} {q : PwrReq} {c : Cmd} (point : Nat) (src : BitVec 4) (hq : s.pwr.entry = some q)
    (hc : q.cmd = some c) (hj : s.pwr.joined = []) : s.abortEntry point src =
      ((((s.account (8 + point) q.val).onPwr (fun p => { p with abortCnt := satAdd 0xFFFF p.abortCnt 1 })).pwrEvent 1).leaveEntry).complete c
        stSuccess (dwords 2 (point + 256 * src.toNat) 0 0) := by
  unfold State.abortEntry
  rw [Pwr.waiting_one hq hc hj]
  dsimp only
  rw [hq]
  rfl

theorem State.refuseEntry_one {s : State} {q : PwrReq} {c : Cmd} (n : Nat) (hq : s.pwr.entry = some q)
    (hc : q.cmd = some c) (hj : s.pwr.joined = []) :
    s.refuseEntry n = (s.countRefusal n q.val).leaveEntry.complete c stRefused (dwords (0x0F00 + n) 0 0 0) := by
  unfold State.refuseEntry
  rw [Pwr.waiting_one hq hc hj]
  dsimp only
  rw [hq]
  rfl

-- The phases (15 R409, R413).

theorem State.phaseReady_one {s : State} (h : s.pwr.phase = 1) : s.phaseReady = !s.stillExecuting :=
  if_pos h

theorem exec_entryPhaseComplete_one {s : State} (h : s.pwr.phase = 1) (hidle : s.stillExecuting = false) :
    exec .entryPhaseComplete s = answer s (s.abortPoint 1) := by
  have hx : exec .entryPhaseComplete s = execEntryPhaseComplete s := rfl
  rw [hx]
  unfold execEntryPhaseComplete
  dsimp only
  rw [State.phaseReady_one h, hidle, h]
  rfl

theorem exec_entryPhaseComplete_busy {s : State} (h : s.pwr.phase = 1) (hbusy : s.stillExecuting = true) :
    exec .entryPhaseComplete s = answer s s :=
  congrArg (answer s) (if_pos (by rw [State.phaseReady_one h, hbusy]; rfl))

theorem exec_entryPhaseComplete_four {s : State} (h : s.pwr.phase = 4) : exec .entryPhaseComplete s = answer s (s.abortPoint 4) := by
  have hready : s.phaseReady = true := by simp [State.phaseReady, h]
  have hx : exec .entryPhaseComplete s = execEntryPhaseComplete s := rfl
  rw [hx]
  unfold execEntryPhaseComplete
  dsimp only
  rw [hready, h]
  rfl

theorem Pwr.wakeFound_none {p : Pwr} (hl : p.latched = none) (hp : p.pend = none) : p.wakeFound = none := by
  simp [Pwr.wakeFound, Pwr.shallower, hl, hp]

/-- An abort point that no wake event and no refuser finds: the next phase begins, after the image at A4 of a Stabled entry. -/
theorem State.abortPoint_passed {s : State} {n : Nat} (hl : s.pwr.latched = none) (hp : s.pwr.pend = none)
    (hr : s.refuser (s.pwr.target == .stabled) n = none) : s.abortPoint n =
      (if n = 4 ∧ s.pwr.target = .stabled then s.passA4 else s).beginPhase
        ((if n = 4 ∧ s.pwr.target = .stabled then s.passA4 else s).nextPhase n) := by
  unfold State.abortPoint
  rw [Pwr.wakeFound_none hl hp]
  dsimp only
  rw [hr]

theorem State.abortPoint_woken {s : State} {n : Nat} {src : BitVec 4} (hl : s.pwr.latched = some src) :
    s.abortPoint n = (s.abortEntry n src).applyPending := by
  unfold State.abortPoint
  rw [show s.pwr.wakeFound = some src by simp [Pwr.wakeFound, hl]]

theorem Memory.read_append (m₁ m₂ : List Host.Cell) (a : Nat) (h : ∀ c ∈ m₁, c.1 ≠ a) : Memory.read (m₁ ++ m₂) a = Memory.read m₂ a := by
  induction m₁ with
  | nil => rfl
  | cons c m ih =>
    rw [List.cons_append, Memory.read, if_neg (h c (List.mem_cons_self ..))]
    exact ih fun d hd => h d (List.mem_cons_of_mem _ hd)

theorem Memory.read_absent (m : List Host.Cell) (a : Nat) (h : ∀ c ∈ m, c.1 ≠ a) : Memory.read m a = Memory.blank := by
  simpa [Memory.read] using Memory.read_append m [] a h

theorem Memory.read_shifted (m : List Host.Cell) (base a : Nat) :
    Memory.read (m.map (fun c => (base + c.1, c.2))) (base + a) = Memory.read m a := by
  induction m with
  | nil => rfl
  | cons c m ih =>
    rw [List.map_cons, Memory.read, Memory.read, ih]
    simp

/-- What a list holds at an address comes first from the part that lists it. -/
theorem Memory.read_append_left (m₁ m₂ : List Host.Cell) (a : Nat) (h : ∀ c ∈ m₂, c.1 ≠ a) : Memory.read (m₁ ++ m₂) a = Memory.read m₁ a := by
  induction m₁ with
  | nil => exact Memory.read_absent m₂ a h
  | cons c m ih => rw [List.cons_append, Memory.read, Memory.read, ih]

/-- The image in MRAM is SRAM byte for byte, and the rest of MRAM stays (15 R412, R413). -/
theorem State.copyImage_read (s : State) :
    (∀ a, a < imageSize → Memory.read s.copyImage.mem.mram (imageBase + a) = Memory.read s.mem.sram a) ∧
    ∀ a, (a < imageBase ∨ imageBase + imageSize ≤ a) → Memory.read s.copyImage.mem.mram a = Memory.read s.mem.mram a := by
  let low := s.mem.mram.filter (fun c => decide (c.1 < imageBase))
  let high := s.mem.mram.filter (fun c => decide (imageBase + imageSize ≤ c.1))
  let image := (s.mem.sram.filter (fun c => decide (c.1 < imageSize))).map (fun c => (imageBase + c.1, c.2))
  have hm : s.copyImage.mem.mram = low ++ image ++ high := rfl
  have hlow : ∀ c ∈ low, c.1 < imageBase := fun c hc => of_decide_eq_true (List.mem_filter.mp hc).2
  have hhigh : ∀ c ∈ high, imageBase + imageSize ≤ c.1 := fun c hc => of_decide_eq_true (List.mem_filter.mp hc).2
  have himage : ∀ c ∈ image, imageBase ≤ c.1 ∧ c.1 < imageBase + imageSize := by
    intro c hc
    obtain ⟨d, hd, rfl⟩ := List.mem_map.mp hc
    have := of_decide_eq_true (List.mem_filter.mp hd).2
    exact ⟨Nat.le_add_right _ _, Nat.add_lt_add_left this _⟩
  rw [hm]
  refine ⟨fun a ha => ?_, fun a ha => ?_⟩
  · rw [Memory.read_append_left _ _ _ fun c hc he => by have := hhigh c hc; omega,
      Memory.read_append _ _ _ fun c hc he => by have := hlow c hc; omega, Memory.read_shifted,
      Memory.read_filter s.mem.sram (fun k => decide (k < imageSize)), if_pos (decide_eq_true ha)]
  · rcases ha with ha | ha
    · rw [List.append_assoc, Memory.read_append_left, Memory.read_filter s.mem.mram (fun k => decide (k < imageBase)), if_pos (decide_eq_true ha)]
      intro c hc he
      rcases List.mem_append.mp hc with hc | hc
      · have := himage c hc
        omega
      · have := hhigh c hc
        omega
    · rw [Memory.read_append, Memory.read_filter s.mem.mram (fun k => decide (imageBase + imageSize ≤ k)), if_pos (decide_eq_true ha)]
      intro c hc he
      rcases List.mem_append.mp hc with hc | hc
      · have := hlow c hc
        omega
      · have := himage c hc
        omega

/-- Telling the units to sleep sends link commands, and nothing else changes. -/
theorem State.sleepUnits_eq_with (s : State) : ∃ o, s.sleepUnits = { s with out := o } := by
  have hfold : ∀ (us : List (Fin 128)) (f : State → Fin 128 → State), (∀ t u, ∃ o, f t u = { t with out := o }) →
      ∀ t, (∃ o, t = { s with out := o }) → ∃ o, us.foldl f t = { s with out := o } := by
    intro us f hf t ht
    refine List.foldlRecOn us f (motive := fun t => ∃ o, t = { s with out := o }) ht fun t ht u _ => ?_
    obtain ⟨o, rfl⟩ := ht
    exact (hf _ u).imp fun _ h => h
  refine hfold _ _ (fun t u => ⟨_, rfl⟩) _ (hfold _ _ (fun t u => ?_) _ ⟨s.out, rfl⟩)
  split
  · exact ⟨_, rfl⟩
  · exact ⟨t.out, rfl⟩

theorem State.sendStatus_eq_with (s : State) (sent0 sent1 : Bool) : ∃ n o,
    s.sendStatus sent0 sent1 = { s with out := o, halter := { s.halter with net := n } } := by
  unfold State.sendStatus
  dsimp only
  cases sent0 <;> cases sent1 <;> exact ⟨_, _, rfl⟩

/-- The beginning of phase 5: the power block, the network of the halter, and what has left; the halter's telegrams say QUIET. -/
theorem State.isolateBegins_eq_with (s : State) : ∃ n o i, s.isolateBegins =
    { s with pwr := { s.pwr with sinAt5 := i }, out := o, halter := { s.halter with net := n, quiet := s.isl.halter || s.halter.quiet } } := by
  obtain ⟨o, hsleep⟩ := s.sleepUnits_eq_with
  have h1 : ∃ o, (if s.pwr.target = .stabled then s.sleepUnits else s) = { s with out := o } := by
    split
    · exact ⟨o, hsleep⟩
    · exact ⟨s.out, rfl⟩
  obtain ⟨o, h1⟩ := h1
  unfold State.isolateBegins
  rw [h1]
  dsimp only
  by_cases hisl : s.isl.halter = true
  · obtain ⟨n, o', hsend⟩ := State.sendStatus_eq_with { s with out := o, halter := { s.halter with quiet := true } } true true
    rw [if_pos hisl, hisl, show State.onHalter { s with out := o } (fun h => { h with quiet := true }) =
      { s with out := o, halter := { s.halter with quiet := true } } from rfl, hsend]
    exact ⟨n, o', _, rfl⟩
  · rw [if_neg hisl, Bool.eq_false_iff.mpr hisl]
    exact ⟨s.halter.net, o, _, rfl⟩

theorem State.beginPhase_five (s : State) : s.beginPhase 5 =
    State.isolateBegins { s with pwr := { s.pwr with phase := 5, phaseAt := s.now } } := rfl

theorem exec_entryPhaseTimeout_command {s : State} (h : s.pwr.phase = 1) (hbusy : s.stillExecuting = true)
    (hlate : s.pwr.phaseAt + 50 * ticksPerMs ≤ s.now) :
    exec (.entryPhaseTimeout .command) s = answer s (s.refuseEntry 2).applyPending :=
  congrArg (answer s) (if_pos ⟨h, hbusy, decide_eq_true hlate⟩)

theorem exec_entryPhaseTimeout_idle {why : EntryTimeout} {s : State} (h : s.pwr.phase = 0) :
    exec (.entryPhaseTimeout why) s = answer s s := by
  cases why <;> exact congrArg (answer s) (if_neg (by simp [h]))

theorem exec_powerAccount {c : Cmd} {f : Flight} {s : State} (h : Executing s c f) (hop : opField c 8 8 % 16 = 0) :
    exec (.powerAccount c) s = answer s (((s.executing c).toHost (opField c 8 8) s.accountBytes).ok c (dwords 160 0 0 0)) := by
  have hx : exec (.powerAccount c) s = execPowerAccount c s := rfl
  rw [hx]
  unfold execPowerAccount
  rw [run_executing h, if_pos (by simp [aligned16, hop])]
  rfl

theorem exec_retCreditTick {s : State} (h : s.ret.creditAt + 8000 ≤ s.oph) : exec .retCreditTick s = answer s
    { s with ret := { s.ret with credit := satAdd 65535 s.ret.credit 1, creditAt := s.ret.creditAt + 8000 } } :=
  congrArg (answer s) (if_pos h)

theorem exec_retCreditTick_early {s : State} (h : s.oph < s.ret.creditAt + 8000) : exec .retCreditTick s = answer s s :=
  congrArg (answer s) (if_neg (Nat.not_le.mpr h))

/-- Passing A4 on the way to Stabled (15 R413, R415). -/
theorem passA4_clause {s : State} (hphase : s.pwr.phase = 4) (ht : s.pwr.target = .stabled) (hl : s.pwr.latched = none)
    (hp : s.pwr.pend = none) (hr : s.refuser true 4 = none) : Answers .entryPhaseComplete s fun t =>
      t.pwr.phase = 5 ∧ t.ret.credit = s.ret.credit - 1 ∧ t.ret.entries = (s.ret.entries + 1) % 2 ^ 32 ∧ t.ret.imgValid = true ∧
      (∀ a, a < imageSize → Memory.read t.mem.mram (imageBase + a) = Memory.read s.mem.sram a) ∧
      (∀ a, (a < imageBase ∨ imageBase + imageSize ≤ a) → Memory.read t.mem.mram a = Memory.read s.mem.mram a) ∧
      (s.isl.halter = true → t.halter.quiet = true) := by
  have hx := exec_entryPhaseComplete_four hphase
  rw [State.abortPoint_passed hl hp (by rw [ht]; exact hr), if_pos ⟨rfl, ht⟩] at hx
  have hnext : s.passA4.nextPhase 4 = 5 := rfl
  rw [hnext, State.beginPhase_five] at hx
  obtain ⟨n, o, i, h5⟩ := State.isolateBegins_eq_with { s.passA4 with pwr := { s.passA4.pwr with phase := 5, phaseAt := s.passA4.now } }
  rw [h5] at hx
  obtain ⟨himage, hrest⟩ := s.copyImage_read
  exact answers_of_exec_of_evt_eq hx rfl ⟨rfl, rfl, rfl, rfl, himage, hrest, fun h => by
    show (s.isl.halter || s.halter.quiet) = true
    rw [h]
    rfl⟩

/-- Settles O50. -/
theorem entriesRefusersAndAccounting : Obligations.EntriesRefusersAndAccounting := by
  unfold Obligations.EntriesRefusersAndAccounting
  refine ⟨fun c f s hexec hop hphase hbusy hwake hst => ⟨fun hr => ?_, fun n hr => ?_⟩,
    fun s => ⟨s.refuser_strings, fun hstr hf => ⟨fun hat b n => ?_, fun hat ht b n => ?_, fun hat hw ht hv b n => ?_, fun hat hw ht hv b n => ?_⟩⟩,
    fun s hphase hidle hl hp hr => ?_, fun c f q src s hphase hidle hl hq hc hj hp hexec => ?_, fun s hphase hbusy => ?_,
    fun s hphase ht hl hp hr => passA4_clause hphase ht hl hp hr, fun c f q s hphase hbusy hlate hq hc hj hp hexec => ?_,
    fun why s hphase => ?_, fun c f s hexec hop => ?_, fun s h => ?_, fun s h => ?_⟩
  case refine_1 =>
    have hx := exec_setPowerState_rest hexec ⟨hphase, hbusy, hwake, hst⟩ hop
    rw [State.startEntry_rest rfl (by exact hr)] at hx
    refine answers_of_exec hx ?_
    simp only [eventInterrupt_frame]
    exact ⟨executing_flight_same hexec, trivial, trivial, rfl, rfl, setBit_getLsbD_self _ (by decide), rfl, rfl, rfl, rfl, rfl⟩
  case refine_2 =>
    have hx := exec_setPowerState_rest hexec ⟨hphase, hbusy, hwake, hst⟩ hop
    rw [State.startEntry_refused rfl rfl (by exact hr)] at hx
    obtain ⟨b, e, x, k, hcount, hbit⟩ := (s.executing c).countRefusal_eq_with n 2
    rw [hcount] at hx
    refine answers_of_exec hx ?_
    have hc := fun u (hu : Ending s u c f) => (hu.completes stRefused (dwords (0x0F00 + n) 0 0 0)).eventInterrupt s
    refine ⟨hc _ (hexec.ending.of_eq rfl rfl rfl), ?_⟩
    simp only [eventInterrupt_frame, State.refuse, State.complete_frame]
    exact ⟨rfl, hbit⟩
  case refine_3 => rw [State.refuser_of_open hstr hf, if_pos hat]
  case refine_4 => rw [State.refuser_of_open hstr hf, if_neg (by simp [hat]), if_pos ht]
  case refine_5 => rw [State.refuser_of_open hstr hf, if_neg (by simp [hat]), if_neg (by simp [hw, ht]), if_pos hv]
  case refine_6 => rw [State.refuser_of_open hstr hf, if_neg (by simp [hat]), if_neg (by simp [hw, ht]), if_neg (by simp [hv])]
  case refine_7 =>
    have hx := exec_entryPhaseComplete_one hphase hidle
    rw [State.abortPoint_passed hl hp hr, if_neg (by simp)] at hx
    exact answers_of_exec_of_evt_eq hx rfl rfl
  case refine_8 =>
    have hx := exec_entryPhaseComplete_one hphase hidle
    rw [State.abortPoint_woken hl, State.abortEntry_one 1 src hq hc hj, State.applyPending_none (by simp only [State.complete_frame]; exact hp)] at hx
    refine answers_of_exec hx ?_
    have he := ending_of_flight hexec.flight hexec.same hexec.enabled hexec.kept hexec.tracked
    have hcomp := fun u (hu : Ending s u c f) => (hu.completes stSuccess (dwords 2 (1 + 256 * src.toNat) 0 0)).eventInterrupt s
    refine ⟨hcomp _ (he.of_eq rfl rfl rfl), ?_⟩
    simp only [eventInterrupt_frame, State.complete_frame]
    exact ⟨rfl, rfl, rfl, rfl, rfl, setBit_getLsbD_self _ (by decide)⟩
  case refine_9 => exact answers_of_exec_of_evt_eq (exec_entryPhaseComplete_busy hphase hbusy) rfl rfl
  case refine_10 =>
    have hx := exec_entryPhaseTimeout_command hphase hbusy hlate
    obtain ⟨b, e, x, k, hcount, hbit⟩ := s.countRefusal_eq_with 2 q.val
    rw [State.refuseEntry_one 2 hq hc hj, hcount, State.applyPending_none (by simp only [State.complete_frame]; exact hp)] at hx
    refine answers_of_exec hx ?_
    have he := ending_of_flight hexec.flight hexec.same hexec.enabled hexec.kept hexec.tracked
    have hcomp := fun u (hu : Ending s u c f) => (hu.completes stRefused (dwords 0x0F02 0 0 0)).eventInterrupt s
    refine ⟨hcomp _ (he.of_eq rfl rfl rfl), ?_⟩
    simp only [eventInterrupt_frame, State.complete_frame]
    exact ⟨rfl, rfl, hbit⟩
  case refine_11 => exact answers_of_exec_of_evt_eq (exec_entryPhaseTimeout_idle hphase) rfl rfl
  case refine_12 =>
    refine answers_of_complete (exec_powerAccount hexec hop) (hexec.ending.of_eq rfl rfl rfl) rfl fun t hc ht => ⟨?_, hc, ?_⟩
    · rw [ht]
      exact List.mem_append_right _ (List.mem_singleton_self _)
    · rw [ht]
      rfl
  case refine_13 => exact answers_of_exec_of_evt_eq (exec_retCreditTick h) rfl ⟨rfl, rfl⟩
  case refine_14 => exact answers_of_exec_of_evt_eq (exec_retCreditTick_early h) rfl rfl

end Sys2Proof.Machine
end

section
/-! SUPPORT. What a halter detail, an opening of a string, an enumeration and the loads of a start leave of the power block (15). -/

namespace Sys2Proof.Machine

/-- The power block, the retention account, the islands and the power events of `t` are those of `s`. -/
def State.SamePower (t s : State) : Prop :=
  t.pwr = s.pwr ∧ t.ret = s.ret ∧ t.isl = s.isl ∧ t.evt.pwr = s.evt.pwr

theorem State.SamePower.refl (s : State) : s.SamePower s := ⟨rfl, rfl, rfl, rfl⟩

theorem State.SamePower.trans {u t s : State} (hu : u.SamePower t) (ht : t.SamePower s) : u.SamePower s :=
  have ⟨k0, k1, k2, k3⟩ := hu
  have ⟨h0, h1, h2, h3⟩ := ht
  ⟨k0.trans h0, k1.trans h1, k2.trans h2, k3.trans h3⟩

theorem State.SamePower.foldl {α : Type} (l : List α) (f : State → α → State) (h : ∀ t a, (f t a).SamePower t) (s : State) :
    (l.foldl f s).SamePower s :=
  List.foldlRecOn l f (motive := fun t => t.SamePower s) (.refl s) fun t ht a _ => (h t a).trans ht

@[simp] theorem State.foldl_pwr {α : Type} (l : List α) (f : State → α → State) (h : ∀ t a, (f t a).pwr = t.pwr)
    (s : State) : (l.foldl f s).pwr = s.pwr :=
  List.foldlRecOn l f (motive := fun t => t.pwr = s.pwr) rfl fun _ ht a _ => (h _ a).trans ht

@[simp] theorem State.foldl_ret {α : Type} (l : List α) (f : State → α → State) (h : ∀ t a, (f t a).ret = t.ret)
    (s : State) : (l.foldl f s).ret = s.ret :=
  List.foldlRecOn l f (motive := fun t => t.ret = s.ret) rfl fun _ ht a _ => (h _ a).trans ht

@[simp] theorem State.foldl_evt_pwr {α : Type} (l : List α) (f : State → α → State) (h : ∀ t a, (f t a).evt.pwr = t.evt.pwr)
    (s : State) : (l.foldl f s).evt.pwr = s.evt.pwr :=
  List.foldlRecOn l f (motive := fun t => t.evt.pwr = s.evt.pwr) rfl fun _ ht a _ => (h _ a).trans ht

@[simp] theorem State.settleMask_power (s : State) (u : Fin 128) :
    (s.settleMask u).pwr = s.pwr ∧ (s.settleMask u).ret = s.ret ∧ (s.settleMask u).isl = s.isl ∧ (s.settleMask u).evt.pwr = s.evt.pwr := by
  unfold State.settleMask
  dsimp only
  split <;> simp

@[simp] theorem State.turnOn_power (s : State) (ch : Fin 24) :
    (s.turnOn ch).pwr = s.pwr ∧ (s.turnOn ch).ret = s.ret ∧ (s.turnOn ch).isl = s.isl ∧ (s.turnOn ch).evt.pwr = s.evt.pwr := by
  unfold State.turnOn
  dsimp only
  repeat' split
  all_goals simp

@[simp] theorem State.turnOff_power (s : State) (ch : Fin 24) :
    (s.turnOff ch).pwr = s.pwr ∧ (s.turnOff ch).ret = s.ret ∧ (s.turnOff ch).isl = s.isl ∧ (s.turnOff ch).evt.pwr = s.evt.pwr := by
  simp [State.turnOff]

@[simp] theorem State.settleOut_power (s : State) (ch : Fin 24) :
    (s.settleOut ch).pwr = s.pwr ∧ (s.settleOut ch).ret = s.ret ∧ (s.settleOut ch).isl = s.isl ∧ (s.settleOut ch).evt.pwr = s.evt.pwr := by
  unfold State.settleOut
  dsimp only
  repeat' split
  all_goals simp

@[simp] theorem State.command_power (s : State) (ch : Fin 24) (on : Bool) :
    (s.command ch on).pwr = s.pwr ∧ (s.command ch on).ret = s.ret ∧ (s.command ch on).isl = s.isl ∧ (s.command ch on).evt.pwr = s.evt.pwr := by
  simp [State.command]

@[simp] theorem State.strEvent_power (s : State) (base : Nat) (str : Fin 4) :
    (s.strEvent base str).pwr = s.pwr ∧
    (s.strEvent base str).ret = s.ret ∧
    (s.strEvent base str).isl = s.isl ∧
    (s.strEvent base str).evt.pwr = s.evt.pwr := by
  simp [State.strEvent]

@[simp] theorem State.abortShunt_power (s : State) (str : Fin 4) :
    (s.abortShunt str).pwr = s.pwr ∧ (s.abortShunt str).ret = s.ret ∧ (s.abortShunt str).isl = s.isl ∧ (s.abortShunt str).evt.pwr = s.evt.pwr := by
  unfold State.abortShunt
  dsimp only
  split
  · exact State.SamePower.refl s
  · refine State.SamePower.trans (State.SamePower.foldl _ _ (fun t c => by simp [State.SamePower]) _) ?_
    split <;> simp [State.SamePower]

@[simp] theorem State.stopExcitation_power (s : State) (str : Fin 4) :
    (s.stopExcitation str).pwr = s.pwr ∧
    (s.stopExcitation str).ret = s.ret ∧
    (s.stopExcitation str).isl = s.isl ∧
    (s.stopExcitation str).evt.pwr = s.evt.pwr := by
  unfold State.stopExcitation
  split
  · exact (State.SamePower.foldl _ _ (fun t u => by simp [State.SamePower]) _).trans (by simp [State.SamePower])
  · exact State.SamePower.refl s

@[simp] theorem State.enterStr_power (s : State) (str : Fin 4) (new : StrState) (cause : Nat) (stamp : BitVec 32) :
    (s.enterStr str new cause stamp).pwr = s.pwr ∧
    (s.enterStr str new cause stamp).ret = s.ret ∧
    (s.enterStr str new cause stamp).isl = s.isl ∧
    (s.enterStr str new cause stamp).evt.pwr = s.evt.pwr := by
  unfold State.enterStr
  extract_lets old s1 s2 s3 s4 s5 s6 s7 s8
  have h3 : s3.SamePower s := by
    unfold s3
    split <;> simp [s2, s1, State.SamePower]
  have h4 : s4.SamePower s := by
    refine State.SamePower.trans ?_ h3
    unfold s4
    split <;> simp [State.SamePower]
  have h5 : s5.SamePower s := by
    refine State.SamePower.trans ?_ h4
    unfold s5
    split <;> simp [State.SamePower]
  have h8 : s8.SamePower s := State.SamePower.trans (by simp [s8, s7, s6, State.SamePower]) h5
  split
  · exact h8
  · exact h5

@[simp] theorem State.cmdContactor_power (s : State) (str : Fin 4) (k : Fin 3) (on : Bool) :
    (s.cmdContactor str k on).pwr = s.pwr ∧
    (s.cmdContactor str k on).ret = s.ret ∧
    (s.cmdContactor str k on).isl = s.isl ∧
    (s.cmdContactor str k on).evt.pwr = s.evt.pwr := by
  unfold State.cmdContactor
  dsimp only
  repeat' split
  all_goals simp

@[simp] theorem State.withdraw_power (s : State) (str : Fin 4) :
    (s.withdraw str).pwr = s.pwr ∧ (s.withdraw str).ret = s.ret ∧ (s.withdraw str).isl = s.isl ∧ (s.withdraw str).evt.pwr = s.evt.pwr := by
  simp [State.withdraw]

@[simp] theorem State.closeRefused_power (s : State) (str : Fin 4) (code d3 : Nat) :
    (s.closeRefused str code d3).pwr = s.pwr ∧
    (s.closeRefused str code d3).ret = s.ret ∧
    (s.closeRefused str code d3).isl = s.isl ∧
    (s.closeRefused str code d3).evt.pwr = s.evt.pwr := by
  unfold State.closeRefused
  split <;> simp

@[simp] theorem State.abortPrecharge_power (s : State) (str : Fin 4) :
    (s.abortPrecharge str).pwr = s.pwr ∧
    (s.abortPrecharge str).ret = s.ret ∧
    (s.abortPrecharge str).isl = s.isl ∧
    (s.abortPrecharge str).evt.pwr = s.evt.pwr := by
  unfold State.abortPrecharge
  split <;> simp

@[simp] theorem State.countBreak_power (s : State) (str : Fin 4) (i : Option Nat) :
    (s.countBreak str i).pwr = s.pwr ∧
    (s.countBreak str i).ret = s.ret ∧
    (s.countBreak str i).isl = s.isl ∧
    (s.countBreak str i).evt.pwr = s.evt.pwr := by
  unfold State.countBreak
  dsimp only
  repeat' split
  all_goals simp

@[simp] theorem State.openDone_power (s : State) (str : Fin 4) (welded : Bool) :
    (s.openDone str welded).pwr = s.pwr ∧
    (s.openDone str welded).ret = s.ret ∧
    (s.openDone str welded).isl = s.isl ∧
    (s.openDone str welded).evt.pwr = s.evt.pwr := by
  unfold State.openDone
  exact (State.SamePower.foldl _ _ (fun t (p : Cmd × Bool) => by simp [State.SamePower]) _).trans (by simp [State.SamePower])

@[simp] theorem State.weldEval_power (s : State) (str : Fin 4) :
    (s.weldEval str).pwr = s.pwr ∧ (s.weldEval str).ret = s.ret ∧ (s.weldEval str).isl = s.isl ∧ (s.weldEval str).evt.pwr = s.evt.pwr := by
  unfold State.weldEval
  dsimp only
  repeat' split
  all_goals simp

@[simp] theorem State.weldedEval_power (s : State) (str : Fin 4) :
    (s.weldedEval str).pwr = s.pwr ∧ (s.weldedEval str).ret = s.ret ∧ (s.weldedEval str).isl = s.isl ∧ (s.weldedEval str).evt.pwr = s.evt.pwr := by
  unfold State.weldedEval
  split <;> simp

@[simp] theorem State.startWeldCheck_power (s : State) (str : Fin 4) (cause : Nat) (stamp : BitVec 32) :
    (s.startWeldCheck str cause stamp).pwr = s.pwr ∧
    (s.startWeldCheck str cause stamp).ret = s.ret ∧
    (s.startWeldCheck str cause stamp).isl = s.isl ∧
    (s.startWeldCheck str cause stamp).evt.pwr = s.evt.pwr := by
  simp [State.startWeldCheck]

@[simp] theorem State.weldPeers_power (s : State) :
    s.weldPeers.pwr = s.pwr ∧ s.weldPeers.ret = s.ret ∧ s.weldPeers.isl = s.isl ∧ s.weldPeers.evt.pwr = s.evt.pwr := by
  unfold State.weldPeers
  exact State.SamePower.foldl _ _ (fun t i => by simp [State.SamePower]) s

@[simp] theorem State.startOpening_power (s : State) (str : Fin 4) (cause : Nat) (stamp : BitVec 32) :
    (s.startOpening str cause stamp).pwr = s.pwr ∧
    (s.startOpening str cause stamp).ret = s.ret ∧
    (s.startOpening str cause stamp).isl = s.isl ∧
    (s.startOpening str cause stamp).evt.pwr = s.evt.pwr := by
  simp [State.startOpening]

@[simp] theorem State.breakNow_power (s : State) (str : Fin 4) (cause : Nat) (i : Option Nat) :
    (s.breakNow str cause i).pwr = s.pwr ∧
    (s.breakNow str cause i).ret = s.ret ∧
    (s.breakNow str cause i).isl = s.isl ∧
    (s.breakNow str cause i).evt.pwr = s.evt.pwr := by
  unfold State.breakNow
  dsimp only
  repeat' split
  all_goals simp

@[simp] theorem State.requestB_power (s : State) (str : Fin 4) (cause : Nat) :
    (s.requestB str cause).pwr = s.pwr ∧
    (s.requestB str cause).ret = s.ret ∧
    (s.requestB str cause).isl = s.isl ∧
    (s.requestB str cause).evt.pwr = s.evt.pwr := by
  unfold State.requestB
  split <;> simp

@[simp] theorem State.openAllA_power (s : State) (cause : Nat) :
    (s.openAllA cause).pwr = s.pwr ∧ (s.openAllA cause).ret = s.ret ∧ (s.openAllA cause).isl = s.isl ∧ (s.openAllA cause).evt.pwr = s.evt.pwr := by
  unfold State.openAllA
  exact State.SamePower.foldl _ _ (fun t str => by split <;> simp [State.SamePower]) s

@[simp] theorem State.sendEnables_power (s : State) :
    s.sendEnables.pwr = s.pwr ∧ s.sendEnables.ret = s.ret ∧ s.sendEnables.isl = s.isl ∧ s.sendEnables.evt.pwr = s.evt.pwr := by
  simp [State.sendEnables]

@[simp] theorem State.sendStatus_power (s : State) (sent0 sent1 : Bool) :
    (s.sendStatus sent0 sent1).pwr = s.pwr ∧
    (s.sendStatus sent0 sent1).ret = s.ret ∧
    (s.sendStatus sent0 sent1).isl = s.isl ∧
    (s.sendStatus sent0 sent1).evt.pwr = s.evt.pwr := by
  unfold State.sendStatus
  repeat' split
  all_goals simp

@[simp] theorem State.hltEvent_power (s : State) (n : Nat) :
    (s.hltEvent n).pwr = s.pwr ∧ (s.hltEvent n).ret = s.ret ∧ (s.hltEvent n).isl = s.isl ∧ (s.hltEvent n).evt.pwr = s.evt.pwr := by
  simp [State.hltEvent]

@[simp] theorem State.lockOut_power (s : State) (d : Detail) (w : Fin 16) :
    (s.lockOut d w).pwr = s.pwr ∧ (s.lockOut d w).ret = s.ret ∧ (s.lockOut d w).isl = s.isl ∧ (s.lockOut d w).evt.pwr = s.evt.pwr := by
  simp [State.lockOut]

@[simp] theorem State.raiseDetail_power (s : State) (d : Detail) (w : Fin 16) :
    (s.raiseDetail d w).pwr = s.pwr ∧
    (s.raiseDetail d w).ret = s.ret ∧
    (s.raiseDetail d w).isl = s.isl ∧
    (s.raiseDetail d w).evt.pwr = s.evt.pwr := by
  unfold State.raiseDetail
  dsimp only
  repeat' split
  all_goals simp

@[simp] theorem State.sendLink_power (s : State) (i : Fin 32) (k : LinkSlot) :
    (s.sendLink i k).pwr = s.pwr ∧ (s.sendLink i k).ret = s.ret ∧ (s.sendLink i k).isl = s.isl ∧ (s.sendLink i k).evt.pwr = s.evt.pwr := by
  simp [State.sendLink]

@[simp] theorem State.sendBalance_power (s : State) (u : Fin 128) :
    (s.sendBalance u).pwr = s.pwr ∧ (s.sendBalance u).ret = s.ret ∧ (s.sendBalance u).isl = s.isl ∧ (s.sendBalance u).evt.pwr = s.evt.pwr := by
  simp [State.sendBalance]

@[simp] theorem State.driveMask_power (s : State) (u : Fin 128) (m testArg : BitVec 16) :
    (s.driveMask u m testArg).pwr = s.pwr ∧
    (s.driveMask u m testArg).ret = s.ret ∧
    (s.driveMask u m testArg).isl = s.isl ∧
    (s.driveMask u m testArg).evt.pwr = s.evt.pwr := by
  simp [State.driveMask]

@[simp] theorem State.releaseMask_power (s : State) (u : Fin 128) :
    (s.releaseMask u).pwr = s.pwr ∧ (s.releaseMask u).ret = s.ret ∧ (s.releaseMask u).isl = s.isl ∧ (s.releaseMask u).evt.pwr = s.evt.pwr := by
  simp [State.releaseMask]

@[simp] theorem State.sendRouting_power (s : State) (u : Fin 128) (ch : Option Nat) :
    (s.sendRouting u ch).pwr = s.pwr ∧
    (s.sendRouting u ch).ret = s.ret ∧
    (s.sendRouting u ch).isl = s.isl ∧
    (s.sendRouting u ch).evt.pwr = s.evt.pwr := by
  simp [State.sendRouting]

@[simp] theorem State.resumeTest_power (s : State) (u : Fin 128) :
    (s.resumeTest u).pwr = s.pwr ∧ (s.resumeTest u).ret = s.ret ∧ (s.resumeTest u).isl = s.isl ∧ (s.resumeTest u).evt.pwr = s.evt.pwr := by
  unfold State.resumeTest
  repeat' split
  all_goals simp

@[simp] theorem State.stopRouting_power (s : State) (u : Fin 128) :
    (s.stopRouting u).pwr = s.pwr ∧ (s.stopRouting u).ret = s.ret ∧ (s.stopRouting u).isl = s.isl ∧ (s.stopRouting u).evt.pwr = s.evt.pwr := by
  unfold State.stopRouting
  repeat' split
  all_goals simp

@[simp] theorem State.endRun_power (s : State) (u : Fin 128) (code : BitVec 4) :
    (s.endRun u code).pwr = s.pwr ∧ (s.endRun u code).ret = s.ret ∧ (s.endRun u code).isl = s.isl ∧ (s.endRun u code).evt.pwr = s.evt.pwr := by
  unfold State.endRun
  split <;> simp

@[simp] theorem State.abortRun_power (s : State) (u : Fin 128) :
    (s.abortRun u).pwr = s.pwr ∧ (s.abortRun u).ret = s.ret ∧ (s.abortRun u).isl = s.isl ∧ (s.abortRun u).evt.pwr = s.evt.pwr := by
  unfold State.abortRun
  split <;> simp

@[simp] theorem State.integEvent_power (s : State) (u : Fin 128) :
    (s.integEvent u).pwr = s.pwr ∧ (s.integEvent u).ret = s.ret ∧ (s.integEvent u).isl = s.isl ∧ (s.integEvent u).evt.pwr = s.evt.pwr := by
  simp [State.integEvent]

@[simp] theorem State.changeInvalid_power (s : State) (u : Fin 128) (f : UnitInteg → UnitInteg) :
    (s.changeInvalid u f).pwr = s.pwr ∧
    (s.changeInvalid u f).ret = s.ret ∧
    (s.changeInvalid u f).isl = s.isl ∧
    (s.changeInvalid u f).evt.pwr = s.evt.pwr := by
  simp [State.changeInvalid]

@[simp] theorem State.onWire_power (s : State) (u : Fin 128) (w : Fin 16) (f : WireHist → WireHist) :
    (s.onWire u w f).pwr = s.pwr ∧ (s.onWire u w f).ret = s.ret ∧ (s.onWire u w f).isl = s.isl ∧ (s.onWire u w f).evt.pwr = s.evt.pwr := by
  simp [State.onWire]

@[simp] theorem State.wireRecord_power (s : State) (u : Fin 128) (w : Fin 16) (outcome sw : Nat) :
    (s.wireRecord u w outcome sw).pwr = s.pwr ∧
    (s.wireRecord u w outcome sw).ret = s.ret ∧
    (s.wireRecord u w outcome sw).isl = s.isl ∧
    (s.wireRecord u w outcome sw).evt.pwr = s.evt.pwr := by
  simp [State.wireRecord]

@[simp] theorem State.confirmWire_power (s : State) (u : Fin 128) (w : Fin 16) (outcome sw : Nat) :
    (s.confirmWire u w outcome sw).pwr = s.pwr ∧
    (s.confirmWire u w outcome sw).ret = s.ret ∧
    (s.confirmWire u w outcome sw).isl = s.isl ∧
    (s.confirmWire u w outcome sw).evt.pwr = s.evt.pwr := by
  simp [State.confirmWire]

@[simp] theorem State.clearWire_power (s : State) (u : Fin 128) (w : Fin 16) :
    (s.clearWire u w).pwr = s.pwr ∧ (s.clearWire u w).ret = s.ret ∧ (s.clearWire u w).isl = s.isl ∧ (s.clearWire u w).evt.pwr = s.evt.pwr := by
  unfold State.clearWire
  dsimp only
  split <;> simp

@[simp] theorem State.wireOutcome_power (s : State) (u : Fin 128) (w : Fin 16) (out sw : Nat) :
    (s.wireOutcome u w out sw).pwr = s.pwr ∧
    (s.wireOutcome u w out sw).ret = s.ret ∧
    (s.wireOutcome u w out sw).isl = s.isl ∧
    (s.wireOutcome u w out sw).evt.pwr = s.evt.pwr := by
  unfold State.wireOutcome
  dsimp only
  repeat' split
  all_goals simp

@[simp] theorem State.mendWire_power (s : State) (u : Fin 128) (w : Fin 16) (sw : Nat) :
    (s.mendWire u w sw).pwr = s.pwr ∧
    (s.mendWire u w sw).ret = s.ret ∧
    (s.mendWire u w sw).isl = s.isl ∧
    (s.mendWire u w sw).evt.pwr = s.evt.pwr := by
  simp [State.mendWire]

@[simp] theorem State.commandOutcome_power (s : State) (u : Fin 128) (mode : BitVec 8) (w : Fin 16) (out sw : Nat) :
    (s.commandOutcome u mode w out sw).pwr = s.pwr ∧
    (s.commandOutcome u mode w out sw).ret = s.ret ∧
    (s.commandOutcome u mode w out sw).isl = s.isl ∧
    (s.commandOutcome u mode w out sw).evt.pwr = s.evt.pwr := by
  unfold State.commandOutcome
  repeat' split
  all_goals simp

@[simp] theorem State.endProbe_power (s : State) (u : Fin 128) (q : Probe) (outs : List (Fin 16 × Nat × Nat)) (stopped : Bool) :
    (s.endProbe u q outs stopped).pwr = s.pwr ∧
    (s.endProbe u q outs stopped).ret = s.ret ∧
    (s.endProbe u q outs stopped).isl = s.isl ∧
    (s.endProbe u q outs stopped).evt.pwr = s.evt.pwr := by
  unfold State.endProbe
  dsimp only
  repeat' split
  all_goals simp

@[simp] theorem State.switchResult_power (s : State) (u : Fin 128) (c : Fin 16) (out : BitVec 4) :
    (s.switchResult u c out).pwr = s.pwr ∧
    (s.switchResult u c out).ret = s.ret ∧
    (s.switchResult u c out).isl = s.isl ∧
    (s.switchResult u c out).evt.pwr = s.evt.pwr := by
  unfold State.switchResult
  dsimp only
  repeat' split
  all_goals simp

@[simp] theorem State.finishTest_power (s : State) (u : Fin 128) (t : BalTest) :
    (s.finishTest u t).pwr = s.pwr ∧ (s.finishTest u t).ret = s.ret ∧ (s.finishTest u t).isl = s.isl ∧ (s.finishTest u t).evt.pwr = s.evt.pwr := by
  unfold State.finishTest
  split <;> simp

@[simp] theorem State.loseProbes_power (s : State) (u : Fin 128) :
    (s.loseProbes u).pwr = s.pwr ∧ (s.loseProbes u).ret = s.ret ∧ (s.loseProbes u).isl = s.isl ∧ (s.loseProbes u).evt.pwr = s.evt.pwr := by
  unfold State.loseProbes
  dsimp only
  repeat' split
  all_goals simp

@[simp] theorem State.loadCalibration_power (s : State) :
    s.loadCalibration.pwr = s.pwr ∧ s.loadCalibration.ret = s.ret ∧ s.loadCalibration.isl = s.isl ∧ s.loadCalibration.evt.pwr = s.evt.pwr := by
  unfold State.loadCalibration
  dsimp only
  refine State.SamePower.trans (State.SamePower.foldl _ _ (fun t u => ?_) _) ?_
  · split
    · simp [State.SamePower]
    · split <;> simp [State.SamePower]
  · split <;> simp [State.SamePower]

@[simp] theorem State.onWb_power (s : State) (str : Fin 4) (f : WbStr → WbStr) :
    (s.onWb str f).pwr = s.pwr ∧ (s.onWb str f).ret = s.ret ∧ (s.onWb str f).isl = s.isl ∧ (s.onWb str f).evt.pwr = s.evt.pwr := by
  simp [State.onWb]

@[simp] theorem State.wbEvent_power (s : State) (n : Nat) :
    (s.wbEvent n).pwr = s.pwr ∧ (s.wbEvent n).ret = s.ret ∧ (s.wbEvent n).isl = s.isl ∧ (s.wbEvent n).evt.pwr = s.evt.pwr := by
  simp [State.wbEvent]

@[simp] theorem State.loadWeighbridge_power (s : State) :
    s.loadWeighbridge.pwr = s.pwr ∧ s.loadWeighbridge.ret = s.ret ∧ s.loadWeighbridge.isl = s.isl ∧ s.loadWeighbridge.evt.pwr = s.evt.pwr := by
  unfold State.loadWeighbridge
  split
  split
  split
  refine State.SamePower.trans (State.SamePower.foldl _ _ (fun t i => ?_) _) ?_
  · dsimp only
    repeat' split
    all_goals simp [State.SamePower]
  · split <;> split <;> simp [State.SamePower]

@[simp] theorem State.loseUnit_power (s : State) (u : Fin 128) :
    (s.loseUnit u).pwr = s.pwr ∧ (s.loseUnit u).ret = s.ret ∧ (s.loseUnit u).isl = s.isl ∧ (s.loseUnit u).evt.pwr = s.evt.pwr := by
  unfold State.loseUnit
  dsimp only
  repeat' split
  all_goals simp

@[simp] theorem State.startEnum_power (s : State) (i : Fin 32) (cause : BitVec 4) :
    (s.startEnum i cause).pwr = s.pwr ∧
    (s.startEnum i cause).ret = s.ret ∧
    (s.startEnum i cause).isl = s.isl ∧
    (s.startEnum i cause).evt.pwr = s.evt.pwr := by
  simp [State.startEnum]

@[simp] theorem State.stbEvent_power (s : State) (n : Nat) :
    (s.stbEvent n).pwr = s.pwr ∧ (s.stbEvent n).ret = s.ret ∧ (s.stbEvent n).isl = s.isl ∧ (s.stbEvent n).evt.pwr = s.evt.pwr := by
  simp [State.stbEvent]

@[simp] theorem State.cancelClear_power (s : State) :
    s.cancelClear.pwr = s.pwr ∧ s.cancelClear.ret = s.ret ∧ s.cancelClear.isl = s.isl ∧ s.cancelClear.evt.pwr = s.evt.pwr := by
  unfold State.cancelClear
  split <;> simp

@[simp] theorem State.recorderFault_power (s : State) (kind : BitVec 8) (slot : Nat) :
    (s.recorderFault kind slot).pwr = s.pwr ∧
    (s.recorderFault kind slot).ret = s.ret ∧
    (s.recorderFault kind slot).isl = s.isl ∧
    (s.recorderFault kind slot).evt.pwr = s.evt.pwr := by
  unfold State.recorderFault
  dsimp only
  split <;> simp

@[simp] theorem State.loadCheckpoint_power (s : State) :
    s.loadCheckpoint.pwr = s.pwr ∧ s.loadCheckpoint.ret = s.ret ∧ s.loadCheckpoint.isl = s.isl ∧ s.loadCheckpoint.evt.pwr = s.evt.pwr := by
  unfold State.loadCheckpoint
  split <;> simp

end Sys2Proof.Machine
end

section
/-! SUPPORT. Wakes and the restoration of SRAM (14 R391; 15 R416 to R419; 19 R469). -/

namespace Sys2Proof.Machine

open Sys2Proof Sys2Proof.Machine

-- Wake events (15 R409, R416).

theorem State.ask_eq_with (s : State) (why : PmbusWhy) : ∃ o,
    s.ask why = { s with pwr := { s.pwr with pmbus := some why, retries := 0 }, out := s.out ++ o } := by
  have hsend : ∀ (u : State), ∃ o, u.sendRequest why = { u with out := u.out ++ o } := by
    intro u
    have htwo : ∀ (level : Nat) (on : Bool), ∃ o, (u.sendVout level).sendOperation on = { u with out := u.out ++ o } := fun level on =>
      ⟨[.pmbus u.pwr.cfg.pmbAddr pmbVout (voutCommand level u.pwr.cfg.voutExp), .pmbus u.pwr.cfg.pmbAddr pmbOperation (if on then 0x80 else 0)],
        by simp [State.sendVout, State.sendOperation, State.emit]⟩
    cases why with
    | entry =>
      unfold State.sendRequest
      dsimp only
      split
      · exact ⟨_, rfl⟩
      · exact ⟨_, rfl⟩
    | powerOn => exact htwo 2 true
    | wake => exact htwo u.pwr.level.toNat true
    | check => exact htwo u.pwr.level.toNat true
    | _ => exact ⟨_, rfl⟩
  exact hsend (s.onPwr (fun p => { p with pmbus := some why, retries := 0 }))

theorem State.startWake_eq_with (s : State) (src : BitVec 4) (check loud : Bool) : ∃ o, s.startWake src check loud = { s with
      pwr := { s.pwr with
        wake := some ⟨1, src, check, false, loud, s.clk.rtcTicks⟩, latched := none
        pmbus := some (if check then .check else .wake), retries := 0 }
      out := s.out ++ o } := by
  obtain ⟨o, h⟩ := State.ask_eq_with
    (s.onPwr (fun p => { p with wake := some ⟨1, src, check, false, loud, s.clk.rtcTicks⟩, latched := none })) (if check then .check else .wake)
  exact ⟨o, h⟩

/-- The code of a wake source, where it has one of its own (15 R416). -/
def wakeNumber : WakeSrc → BitVec 4
  | .rtcAlarm => 1
  | .rtcCheck => 2
  | .wake0 => 3
  | .wake1 => 4
  | .canWake => 5
  | .safetyInput => 6
  | .pcie => 7

/-- What a wake event asks of the device besides its source's enable: a safety input in use, or the PCIe link in Rest. -/
def State.hears (s : State) : WakeSrc → Prop
  | .safetyInput => (places 8).any (fun n => (s.halter.cfg.sin.at n).role != 0) = true
  | .pcie => s.pwr.st = .rest
  | _ => True

theorem exec_wakeEvent {src : WakeSrc} {s : State} (h : s.hears src) :
    exec (.wakeEvent src) s = answer s (s.wakeSource (wakeNumber src)) := by
  cases src with
  | safetyInput => exact congrArg (answer s) (if_pos h)
  | pcie => exact congrArg (answer s) (if_pos h)
  | _ => rfl

theorem exec_wakeEvent_quiet {src : WakeSrc} {s : State} (h : s.wakeSource (wakeNumber src) = s) : exec (.wakeEvent src) s = answer s s := by
  refine congrArg (answer s) ?_
  cases src with
  | safetyInput =>
    dsimp only
    rw [show s.wakeSource 6 = s from h, ite_self]
  | pcie =>
    dsimp only
    rw [show s.wakeSource 7 = s from h, ite_self]
  | _ => exact h

theorem any_role_of {s : State} {n : Fin 8} (h : (s.halter.cfg.sin.at n).role ≠ 0) :
    (places 8).any (fun n => (s.halter.cfg.sin.at n).role != 0) = true :=
  List.any_eq_true.mpr ⟨n, List.mem_finRange n, bne_iff_ne.mpr h⟩

/-- During an entry a wake event is latched (15 R409). -/
theorem State.wakeSource_entering {s : State} {src : BitVec 4} (hshut : s.therm.shutDown = false) (hen : s.pwr.wakeEnabled src = true)
    (hwake : s.pwr.wake = none) (hphase : s.pwr.phase ≠ 0) (hl : s.pwr.latched = none) :
    s.wakeSource src = { s with pwr := { s.pwr with latched := some src } } := by
  unfold State.wakeSource
  rw [if_neg (by simp [hshut, hen]), hwake]
  dsimp only
  rw [if_pos hphase]
  simp only [State.onPwr, hl]

-- The steps of a wake (15 R413, R417, R418).

theorem exec_wakeStepReady_two {k : Wake} {ok : Bool} {code : BitVec 8} {s : State} (hk : s.pwr.wake = some k) (hstep : k.step = 2) :
    exec (.wakeStepReady ok code) s = answer s { s with pwr := { s.pwr with wake := some { k with step := 3 } } } := by
  have hx : exec (.wakeStepReady ok code) s = execWakeStepReady ok code s := rfl
  rw [hx]
  unfold execWakeStepReady
  rw [hk]
  exact congrArg (answer s) (if_pos hstep)

theorem exec_wakeStepReady_three {k : Wake} {ok : Bool} {code : BitVec 8} {s : State} (hk : s.pwr.wake = some k) (hstep : k.step = 3) :
    exec (.wakeStepReady ok code) s = answer s (s.memoryReady k ok) := by
  have hx : exec (.wakeStepReady ok code) s = execWakeStepReady ok code s := rfl
  rw [hx]
  unfold execWakeStepReady
  rw [hk]
  dsimp only
  rw [if_neg (by omega), if_pos hstep]

theorem exec_wakeStepReady_four {k : Wake} {ok : Bool} {code : BitVec 8} {s : State} (hk : s.pwr.wake = some k) (hstep : k.step = 4)
    (hboot : k.boot = false) : exec (.wakeStepReady ok code) s = answer s (s.restored k code) := by
  have hx : exec (.wakeStepReady ok code) s = execWakeStepReady ok code s := rfl
  rw [hx]
  unfold execWakeStepReady
  rw [hk]
  dsimp only
  rw [if_neg (by omega), if_neg (by omega), if_pos hstep, if_neg (by simp [hboot])]

/-- A usable image: MEM is up, and the image is no longer valid (15 R413). -/
theorem State.memoryReady_usable {s : State} {k : Wake} (hboot : k.boot = false) (hcheck : k.check = false) (hst : s.pwr.st = .stabled)
    (hvalid : s.ret.imgValid = true) : s.memoryReady k true = { s with
      pwr := { s.pwr with wake := some { k with step := 4 } }
      isl := { s.isl with mem := true }
      ret := { s.ret with imgValid := false, imgUe := false } } := by
  have hkept : (k.boot || s.pwr.st == PwrState.rest) = false := by simp [hboot, hst]
  unfold State.memoryReady
  dsimp only
  rw [hkept, hvalid, if_pos (by decide), if_neg (by simp [hcheck]), hcheck]
  rfl

@[simp] theorem Mem.storeAll_sram (fuel : Nat) (m : Mem) (now addr : Nat) (bytes : List Byte) :
    (Mem.storeAll fuel m now addr bytes).sram = m.sram := by
  induction fuel generalizing m addr bytes with
  | zero => rfl
  | succ fuel ih =>
    unfold Mem.storeAll
    dsimp only
    split
    · rfl
    · rw [ih]
      unfold Mem.store
      dsimp only
      split <;> rfl

@[simp] theorem State.mramStore_sram (s : State) (addr : Nat) (bytes : List Byte) : (s.mramStore addr bytes).mem.sram = s.mem.sram :=
  Mem.storeAll_sram _ _ _ _ _

theorem State.recorderFault_sram (s : State) (kind : BitVec 8) (slot : Nat) : (s.recorderFault kind slot).mem.sram = s.mem.sram := by
  have hcells : ∀ (off : Nat) (bytes : List Byte),
      ((places 3).foldl (fun t n => t.mramStore (faultCell n + off) bytes) s).mem.sram = s.mem.sram := fun off bytes =>
    List.foldlRecOn _ _ (motive := fun t : State => t.mem.sram = s.mem.sram) rfl fun t ht n _ => (t.mramStore_sram _ _).trans ht
  unfold State.recorderFault State.cancelClear State.stbEvent
  dsimp only
  split
  · rw [(State.complete_frame _ _ _ _).2.2.2.1]
    split
    · exact hcells _ _
    · rfl
  · split
    · exact hcells _ _
    · rfl

theorem State.scanStudbook_power (s : State) : s.scanStudbook.1.SamePower s ∧ s.scanStudbook.1.mem.sram = s.mem.sram := by
  unfold State.scanStudbook
  dsimp only
  split
  · exact ⟨State.recorderFault_power _ _ _, by rw [State.recorderFault_sram]⟩
  · exact ⟨⟨rfl, rfl, rfl, rfl⟩, rfl⟩

/-- What a start through the boot ROM loads into: the clocks go on, MEM is up, and SRAM is empty (15 R418). -/
theorem State.rebooted_loads (s : State) : ∃ u : State, s.rebooted false false = (u.loadWeighbridge.scanStudbook).1.loadCalibration.loadCheckpoint ∧
    u.isl.mem = true ∧ u.mem.sram = [] := by
  unfold State.rebooted
  extract_lets
  rename_i t _
  exact ⟨t, rfl, rfl, rfl⟩

theorem State.rebooted_effect (s : State) :
    (s.rebooted false false).isl.mem = true ∧ (s.rebooted false false).mem.sram = [] ∧ (s.rebooted false false).clk.pcc = s.clk.pcc := by
  obtain ⟨u, hu, hisl, hmem⟩ := s.rebooted_loads
  obtain ⟨⟨-, -, hscan, -⟩, hsram⟩ := u.loadWeighbridge.scanStudbook_power
  refine ⟨?_, ?_, (s.rebooted_keeps false false).2.2⟩
  · rw [hu, (State.loadCheckpoint_power _).2.2.1, (State.loadCalibration_power _).2.2.1, hscan, (State.loadWeighbridge_power _).2.2.1, hisl]
  · rw [hu, (State.loadCheckpoint_stores _).1, (State.loadCalibration_stores _).1, hsram, (State.loadWeighbridge_stores _).1, hmem]

/-- An image that cannot be used: the wake goes on as a boot (15 R418). -/
theorem State.memoryReady_unusable {s : State} {k : Wake} {ok : Bool} (hboot : k.boot = false) (hst : s.pwr.st = .stabled)
    (h : ok = false ∨ s.ret.imgValid = false) : ∃ b e x n, s.memoryReady k ok = { s.rebooted false false with
      pwr := { (s.rebooted false false).pwr with wake := some { k with step := 4, check := false, boot := true } }
      ret := { (s.rebooted false false).ret with imgValid := false, imgUe := true }
      stb := b, evt := e, cross := x, free := n } := by
  have hnot : ¬ ((k.boot || s.pwr.st == PwrState.rest) || (ok && s.ret.imgValid)) = true := by
    rcases h with h | h <;> simp [hboot, hst, h]
  unfold State.memoryReady
  dsimp only
  rw [if_neg hnot]
  generalize s.rebooted false false = u
  obtain ⟨b, e, x, n, h, -⟩ := State.powerRecord_eq_with { u with
    pwr := { u.pwr with wake := some { k with step := 4, check := false, boot := true } }
    ret := { u.ret with imgValid := false, imgUe := true } } none none
  exact ⟨b, e, x, n, h⟩

-- Step 4 (14 R391; 15 R417, R418).

/-- The start of the halter leaves the power block and the islands, and the heartbeat and the start-up tests begin anew. -/
theorem State.halterStart_effect (s : State) (a b : Bool) : (s.halterStart a b).SamePower s ∧ (s.halterStart a b).pctl = s.pctl ∧
    (s.halterStart a b).halter.startupOk = false ∧ (s.halterStart a b).halter.hbArmed = false := by
  unfold State.halterStart
  extract_lets w s1 s2
  have h2 : s2.SamePower s ∧ s2.pctl = s.pctl ∧ s2.halter.startupOk = false ∧ s2.halter.hbArmed = false :=
    ⟨⟨rfl, rfl, rfl, rfl⟩, rfl, rfl, rfl⟩
  obtain ⟨hp, hc, hok, harm⟩ := h2
  split
  · have hb := (State.raiseDetail_locks s2 (d := .rstkStuck) 0 rfl).2.2
    exact ⟨State.SamePower.trans (State.raiseDetail_power s2 _ _) hp, (State.raiseDetail_pairs s2 _ _).2.1.trans hc,
      (congrArg Halter.startupOk hb : _).trans hok, (congrArg Halter.hbArmed hb : _).trans harm⟩
  · exact ⟨hp, hc, hok, harm⟩

/-- A failed comparator test: the code is kept, STARTUP stands, and nothing else of these changes (14 R391). -/
theorem State.comparatorsFailed_effect (s : State) (code : BitVec 8) : (s.comparatorsFailed code).SamePower s ∧
    (s.comparatorsFailed code).pctl = { s.pctl with bootCode := code, stopCnt := satAdd 0xFF s.pctl.stopCnt 1 } ∧
    (s.comparatorsFailed code).halter.has .startup 0 = true ∧
    (s.comparatorsFailed code).halter.startupOk = s.halter.startupOk ∧ (s.comparatorsFailed code).halter.hbArmed = s.halter.hbArmed := by
  obtain ⟨u, hu⟩ : ∃ u, { s with pctl := { s.pctl with bootCode := code, stopCnt := satAdd 0xFF s.pctl.stopCnt 1 } } = u := ⟨_, rfl⟩
  have hpow : u.SamePower s := by rw [← hu]; exact ⟨rfl, rfl, rfl, rfl⟩
  have hpctl : u.pctl = { s.pctl with bootCode := code, stopCnt := satAdd 0xFF s.pctl.stopCnt 1 } := by rw [← hu]
  have hhalter : u.halter = s.halter := by rw [← hu]
  have hx : s.comparatorsFailed code = if u.halter.has .startup 0 then u else u.raiseDetail .startup 0 := by rw [← hu]; rfl
  rw [hx, ← hhalter]
  split
  · next h => exact ⟨hpow, hpctl, h, rfl, rfl⟩
  · obtain ⟨hhas, -, hb⟩ := State.raiseDetail_has u (d := .startup) 0 rfl (by decide)
    exact ⟨State.SamePower.trans (State.raiseDetail_power u _ _) hpow, (State.raiseDetail_pairs u _ _).2.1.trans hpctl, hhas,
      (congrArg Halter.startupOk hb :), (congrArg Halter.hbArmed hb :)⟩

theorem State.countWake_pwr_congr {s t : State} (k : Wake) (hp : t.pwr = s.pwr) (ht : t.clk.rtcTicks = s.clk.rtcTicks) (ho : t.oph = s.oph) :
    (t.countWake k).pwr = (s.countWake k).pwr := by
  unfold State.countWake State.pwrEvent State.onPwr
  rw [hp, ht, ho]

/-- Step 4 of a wake from Stabled: TB and the halter are up, SRAM waits for its blocks, and the wake counts (15 R417, R418). -/
theorem State.restored_stabled {s : State} (k : Wake) (code : BitVec 8) (hst : s.pwr.st = .stabled) : ∃ u : State,
    s.restored k code = (if code ≠ 0 then
        State.comparatorsFailed { u with pwr := { u.pwr with wake := some { k with step := 5 } } } code
      else (State.wakeComplete { u with
        isl := { u.isl with coreA := true, coreB := true }
        pctl := { u.pctl with bootCode := 0 } } k.src).applyPending) ∧
    u.pwr = (s.countWake k).pwr ∧ u.evt.pwr = setBit s.evt.pwr 2 ∧ u.isl = { s.isl with tb := true, halter := true } ∧
    u.ret = { s.ret with imgValid := false, pending := true, restored := [] } ∧ u.pctl = s.pctl ∧
    u.halter.startupOk = false ∧ u.halter.hbArmed = false := by
  have htime : (if s.isl.tb then s else s.restartTime).SamePower { s with isl := { s.isl with tb := true } } ∧
      (if s.isl.tb then s else s.restartTime).pctl = s.pctl ∧ (if s.isl.tb then s else s.restartTime).clk.rtcTicks = s.clk.rtcTicks ∧
      (if s.isl.tb then s else s.restartTime).oph = s.oph := by
    split
    · next h =>
      have htb : s.isl = { s.isl with tb := true } := congrArg (fun b => { s.isl with tb := b }) h
      exact ⟨⟨rfl, rfl, htb, rfl⟩, rfl, rfl, rfl⟩
    · unfold State.restartTime
      refine ⟨⟨rfl, rfl, rfl, rfl⟩, rfl, ?_, ?_⟩
      · unfold Clk.restart
        rfl
      · unfold State.oph Clk.restart
        rfl
  unfold State.restored
  simp only [eq_true hst, true_and, if_true]
  generalize (if s.isl.tb then s else s.restartTime) = s1 at htime ⊢
  obtain ⟨⟨hpwr, hret, hisl, hevt⟩, hpctl, hticks, hoph⟩ := htime
  obtain ⟨s2, h2⟩ : ∃ s2, { s1 with
    isl := { s1.isl with halter := true }, ret := { s1.ret with imgValid := false, pending := true, restored := [] } } = s2 := ⟨_, rfl⟩
  obtain ⟨⟨hp3, hr3, hi3, he3⟩, hc3, hok3, harm3⟩ := s2.halterStart_effect s1.halter.key.a s1.halter.key.b
  have hclk3 := (s2.halterStart_stores s1.halter.key.a s1.halter.key.b).2.2
  rw [h2]
  generalize s2.halterStart s1.halter.key.a s1.halter.key.b = s3 at hp3 hr3 hi3 he3 hc3 hok3 harm3 hclk3 ⊢
  refine ⟨(State.countWake { s3 with therm := { s3.therm with level := 0 } } k).pollAgain, rfl, ?_, ?_, ?_, ?_, ?_, hok3, harm3⟩
  · refine State.countWake_pwr_congr (t := { s3 with therm := { s3.therm with level := 0 } }) k (hp3.trans ?_) ?_ ?_
    · rw [← h2]
      exact hpwr
    · exact (congrArg Clk.rtcTicks hclk3).trans (by rw [← h2]; exact hticks)
    · exact (congrArg Clk.ophMs hclk3).trans (by rw [← h2]; exact hoph)
  · exact congrArg (setBit · 2) (he3.trans (by rw [← h2]; exact hevt))
  · refine hi3.trans ?_
    rw [← h2]
    exact congrArg (fun i : Islands => { i with halter := true }) hisl
  · refine hr3.trans ?_
    rw [← h2]
    exact congrArg (fun r : Ret => { r with imgValid := false, pending := true, restored := [] }) hret
  · exact hc3.trans (by rw [← h2]; exact hpctl)

/-- Step 4 of a wake from Rest: the poller starts anew, the cores resume, and the wake counts (15 R417). -/
theorem State.restored_rest {s : State} (k : Wake) (code : BitVec 8) (hst : s.pwr.st = .rest) : ∃ h th, s.restored k code =
    (State.wakeComplete { s with
      pwr := (s.countWake k).pwr
      evt := { s.evt with pwr := setBit s.evt.pwr 2 }
      hif := { s.hif with pollGap := 0, outstanding := false, early := false, activeAt := s.now, dueAt := s.now + 128 }
      isl := { s.isl with coreA := true, coreB := true }
      halter := h, therm := th } k.src).applyPending := by
  have hnot : ¬ s.pwr.st = .stabled := by simp [hst]
  unfold State.restored
  simp only [eq_false hnot, false_and, if_false]
  refine ⟨{ s.halter with
    quiet := false
    net := { s.halter.net with
      started := false, run := false, wait := Bank.fill 2 none, strikeAt := [], okRun := 0, permitRef := none, permit := Bank.fill 4 none } },
    { s.therm with level := 0 }, congrArg (fun t : State => (t.wakeComplete k.src).applyPending) ?_⟩
  unfold State.countWake
  rfl

/-- The end of a wake's request leaves all but its entry, the flights and the rings (15 R406). -/
theorem State.wakeComplete_effect (s : State) (src : BitVec 4) : (s.wakeComplete src).pwr = { s.pwr with entry := none, joined := [] } ∧
    (s.wakeComplete src).ret = s.ret ∧ (s.wakeComplete src).isl = s.isl ∧ (s.wakeComplete src).evt = s.evt ∧
    (s.wakeComplete src).pctl = s.pctl ∧ (s.wakeComplete src).halter = s.halter := by
  unfold State.wakeComplete
  simp only [State.completeAll_frame]
  exact ⟨rfl, rfl, rfl, rfl, rfl, rfl⟩

theorem State.wakeComplete_one {s : State} {q : PwrReq} {c : Cmd} (src : BitVec 4) (hq : s.pwr.entry = some q) (hc : q.cmd = some c)
    (hj : s.pwr.joined = []) : s.wakeComplete src = State.complete { s with pwr := { s.pwr with entry := none, joined := [] } } c stSuccess
      (dwords 1 src.toNat ((s.clk.rtcTicks - s.pwr.enteredRtc) / 32768) 0) := by
  unfold State.wakeComplete
  rw [Pwr.waiting_one hq hc hj]
  rfl

-- What follows a wake (15 R416, R418, R419; 19 R469).

theorem exec_wakeRetry_first {k : Wake} {s : State} (hk : s.pwr.wake = some k) (hstep : k.step = 0) (hfails : s.pwr.wakeFails = 1)
    (hlate : s.pwr.failAt + 32768 ≤ s.clk.rtcTicks) : exec .wakeRetry s = answer s s.retryWake := by
  have hx : exec .wakeRetry s = execWakeRetry s := rfl
  rw [hx]
  unfold execWakeRetry
  rw [hk]
  dsimp only
  rw [if_pos hfails]
  exact congrArg (answer s) (if_pos ⟨hstep, by omega, hlate⟩)

theorem State.retryWake_wake {s : State} {k : Wake} (hk : s.pwr.wake = some k) (hsrc : k.src ≠ 9) (hcheck : k.check = false) :
    s.retryWake = { s with
      pwr := { s.pwr with wake := some { k with step := 1 }, pmbus := some .wake, retries := 0 }
      out := s.out ++
        [.pmbus s.pwr.cfg.pmbAddr 0x21 (voutCommand s.pwr.level.toNat s.pwr.cfg.voutExp), .pmbus s.pwr.cfg.pmbAddr 0x01 0x80] } := by
  unfold State.retryWake
  rw [hk]
  dsimp only
  rw [if_neg hsrc, if_neg (by simp [hcheck])]
  simp only [State.ask, State.onPwr, State.sendRequest, State.sendVout, State.sendOperation, State.emit, List.append_assoc, List.cons_append,
    List.nil_append, if_true]
  rfl

theorem exec_sramBlockRestore {b : Fin 1536} {s : State} (hmem : s.isl.mem = true) (hst : s.pwr.st = .run) :
    exec (.sramBlockRestore b) s = answer s (s.restoreBlock b.val) :=
  congrArg (answer s) (if_pos ⟨hmem, hst⟩)

theorem State.restoreBlock_done {s : State} {b : Nat} (h : s.ret.pending = false ∨ b ∈ s.ret.restored) : s.restoreBlock b = s :=
  if_neg fun ⟨hp, hb, _⟩ => h.elim (fun h => Bool.noConfusion (hp.symm.trans h)) hb

theorem State.restoreBlock_of_pending {s : State} {b : Nat} (hp : s.ret.pending = true) (hb : b ∉ s.ret.restored) (hlt : b < 1536) :
    s.restoreBlock b = { s with
      mem := { s.mem with
        sram := Memory.writeBytes s.mem.sram (4096 * b) (Memory.readBytes s.mem.mram (imageBase + 4096 * b) 4096) }
      ret := if s.ret.restored.length + 1 = 1536 then { s.ret with pending := false, restored := [] }
        else { s.ret with restored := b :: s.ret.restored } } :=
  if_pos ⟨hp, hb, hlt⟩

/-- An island can wake at an access (19 R469). -/
def State.wakesIslands (s : State) : Prop :=
  (s.pwr.st = .run ∨ s.pwr.st = .idle) ∧ s.isl.mem = true ∧ s.therm.shutDown = false ∧ s.pwr.held = false

theorem exec_islandWakeOnAccess {i : Island} {s : State} (h : s.wakesIslands) : exec (.islandWakeOnAccess i) s = answer s (match i with
    | .est => { s with isl := { s.isl with est := true } }
    | .port p => if s.isl.port.at p then s else s.startPort p 0xFFFFFFFF
    | .net => { s with isl := { s.isl with net := true } }
    | .host => if s.isl.host then s else State.pollAgain { s with isl := { s.isl with host := true } }) :=
  congrArg (answer s) (if_pos h)

theorem exec_islandWakeOnAccess_not {i : Island} {s : State} (h : ¬ s.wakesIslands) : exec (.islandWakeOnAccess i) s = answer s s :=
  congrArg (answer s) (if_neg h)

theorem State.startPort_up (s : State) (p : Fin 4) (mask : BitVec 32) : (s.startPort p mask).isl.port.at p = true := by
  obtain ⟨u, hu⟩ : ∃ u, { s with isl := { s.isl with port := s.isl.port.put p true, portAt := s.isl.portAt.put p s.now } } = u := ⟨_, rfl⟩
  have hfold : (s.startPort p mask).SamePower u := by
    unfold State.startPort
    dsimp only
    rw [hu]
    refine State.SamePower.foldl _ _ (fun t i => ?_) u
    split
    · exact State.startEnum_power _ _ _
    · exact State.SamePower.refl t
  rw [hfold.2.2.1, ← hu]
  exact Bank.at_put_self _ _ _

/-- The readings of the inputs in use are those that phase 5 kept. -/
def State.sinSteady (s : State) (r : BitVec 16) : Prop :=
  ∀ n : Fin 8, (s.halter.cfg.sin.at n).role ≠ 0 → r.extractLsb' (2 * n.val) 2 = s.pwr.sinAt5.extractLsb' (2 * n.val) 2

theorem exec_stabledSinScan {r : BitVec 16} {s : State} (hst : s.pwr.st = .stabled) :
    (s.sinSteady r → exec (.stabledSinScan r) s = answer s { s with out := s.out ++ [.tpo 0, .tpo 1, .tpo 2, .tpo 3] }) ∧
    (¬ s.sinSteady r → exec (.stabledSinScan r) s = answer s (State.wakeSource { s with out := s.out ++ [.tpo 0, .tpo 1, .tpo 2, .tpo 3] } 6)) := by
  have hpulse : (places 4).foldl (fun s k => s.emit (.tpo k)) s = { s with out := s.out ++ [.tpo 0, .tpo 1, .tpo 2, .tpo 3] } := by
    simp [places, List.finRange_succ, State.emit]
  have hx : exec (.stabledSinScan r) s = execStabledSinScan r s := rfl
  unfold execStabledSinScan at hx
  rw [if_pos hst, hpulse] at hx
  dsimp only at hx
  have hany : (places 8).any (fun n => (s.halter.cfg.sin.at n).role != 0 &&
      r.extractLsb' (2 * n.val) 2 != s.pwr.sinAt5.extractLsb' (2 * n.val) 2) = true ↔ ¬ s.sinSteady r := by
    simp [State.sinSteady, places, List.any_eq_true]
  refine ⟨fun h => hx.trans (congrArg (answer s) (if_neg fun he => hany.mp he h)), fun h => hx.trans (congrArg (answer s) (if_pos (hany.mpr h)))⟩

theorem Pwr.wakeEnabled_all {p : Pwr} (h : p.wakeEn = 0x7F) {src : WakeSrc} : p.wakeEnabled (wakeNumber src) = true := by
  unfold Pwr.wakeEnabled
  rw [h]
  cases src <;> rfl

/-- Step 4 of a wake from Rest ends the request for Rest (15 R406, R417). -/
theorem restored_rest_clause {k : Wake} {c : Cmd} {f : Flight} {q : PwrReq} {s : State} (hk : s.pwr.wake = some k) (hstep : k.step = 4)
    (hboot : k.boot = false) (hst : s.pwr.st = .rest) (hq : s.pwr.entry = some q) (hc : q.cmd = some c) (hj : s.pwr.joined = [])
    (hp : s.pwr.pend = none) (hexec : Executing s c f) : Answers (.wakeStepReady true 0) s fun t =>
      t.pwr.st = .run ∧ t.pwr.wake = none ∧ t.pwr.lastSrc = k.src ∧ t.pwr.wakeCnt = satAdd 0xFFFF s.pwr.wakeCnt 1 ∧
      t.pwr.level = s.pwr.level ∧ t.isl.coreA = true ∧ t.isl.coreB = true ∧ t.evt.pwr.getLsbD 2 = true ∧ t.mem = s.mem ∧
      Completes s t c f 0x00 (dwords 1 k.src.toNat ((s.clk.rtcTicks - s.pwr.enteredRtc) / 32768) 0) := by
  have hx := exec_wakeStepReady_four (ok := true) (code := 0) hk hstep hboot
  obtain ⟨h, th, hr⟩ := State.restored_rest k 0 hst
  rw [hr, State.wakeComplete_one k.src (by exact hq) hc (by exact hj), State.applyPending_none (by simp only [State.complete_frame]; exact hp)] at hx
  have hcomp := fun u (hu : Ending s u c f) =>
    (hu.completes stSuccess (dwords 1 k.src.toNat ((s.clk.rtcTicks - s.pwr.enteredRtc) / 32768) 0)).eventInterrupt s
  refine answers_of_exec hx ?_
  simp only [eventInterrupt_frame, State.complete_frame]
  exact ⟨rfl, rfl, rfl, rfl, rfl, trivial, trivial, setBit_getLsbD_self _ (by decide), trivial,
    hcomp _ ⟨hexec.flight, hexec.same, hexec.enabled, hexec.kept, hexec.tracked, rfl, rfl⟩⟩

/-- Step 4 of a wake from Stabled resumes the cores, unless the comparator test failed (14 R391; 15 R417, R418). -/
theorem restored_stabled_clause {k : Wake} {s : State} (code : BitVec 8) (hk : s.pwr.wake = some k) (hstep : k.step = 4)
    (hboot : k.boot = false) (hst : s.pwr.st = .stabled) (hp : s.pwr.pend = none) : Answers (.wakeStepReady true code) s fun t =>
      t.ret.pending = true ∧ t.ret.imgValid = false ∧ t.isl.halter = true ∧ t.isl.tb = true ∧ t.evt.pwr.getLsbD 2 = true ∧
      t.halter.startupOk = false ∧ t.halter.hbArmed = false ∧ t.pwr.hostWake = (s.pwr.hostWake || k.loud) ∧ t.pctl.bootCode = code ∧
      (code = 0 → t.isl.coreA = true ∧ t.isl.coreB = true ∧ t.pwr.wake = none) ∧
      (code ≠ 0 → t.isl.coreA = s.isl.coreA ∧ t.halter.has .startup 0 = true ∧ t.pctl.stopCnt = satAdd 0xFF s.pctl.stopCnt 1) := by
  have hx := exec_wakeStepReady_four (ok := true) (code := code) hk hstep hboot
  obtain ⟨u, hr, hpwr, hevt, hisl, hret, hpctl, hok, harm⟩ := State.restored_stabled k code hst
  have hbit : u.evt.pwr.getLsbD 2 = true := hevt ▸ setBit_getLsbD_self _ (by decide)
  have hloud : u.pwr.hostWake = (s.pwr.hostWake || k.loud) := congrArg Pwr.hostWake hpwr
  rw [hr] at hx
  by_cases hcode : code = 0
  · rw [if_neg (not_not_intro hcode)] at hx
    obtain ⟨hpwr2, hret2, hisl2, hevt2, hpctl2, hhalter2⟩ := State.wakeComplete_effect { u with
      isl := { u.isl with coreA := true, coreB := true }, pctl := { u.pctl with bootCode := 0 } } k.src
    rw [State.applyPending_none (by rw [hpwr2]; exact (congrArg Pwr.pend hpwr).trans hp)] at hx
    refine answers_of_exec hx ?_
    simp only [eventInterrupt_frame, hpwr2, hret2, hisl2, hevt2, hpctl2, hhalter2]
    simp only [hret, hisl]
    exact ⟨trivial, trivial, trivial, trivial, hbit, hok, harm, hloud, hcode.symm, fun _ => ⟨trivial, trivial, congrArg Pwr.wake hpwr⟩,
      fun h => absurd hcode h⟩
  · rw [if_pos hcode] at hx
    obtain ⟨⟨hpwr2, hret2, hisl2, hevt2⟩, hpctl2, hhas, hok2, harm2⟩ :=
      State.comparatorsFailed_effect { u with pwr := { u.pwr with wake := some { k with step := 5 } } } code
    refine answers_of_exec hx ?_
    simp only [eventInterrupt_frame, hpwr2, hret2, hisl2, hevt2, hpctl2, hok2, harm2, hhas]
    simp only [hret, hisl, hpctl]
    exact ⟨trivial, trivial, trivial, trivial, hbit, hok, harm, hloud, trivial, fun h => absurd h hcode, fun _ => ⟨trivial, trivial, trivial⟩⟩

/-- Settles O51. -/
theorem wakesAndRestoration : Obligations.WakesAndRestoration := by
  unfold Obligations.WakesAndRestoration
  refine ⟨fun s hshut hwake hphase hst => ?_, fun src s hshut hwake hphase hst hen hpcie hsin => ?_,
    fun n s hshut hwake hphase hl hrole => ?_, fun src s hwake hphase hst => ?_, fun s hen => ?_, fun k ok code s hk hstep => ?_,
    fun k code s hk hstep hboot hcheck hst hvalid => ?_, fun k ok code s hk hstep hboot hst h => ?_,
    fun k c f q s hk hstep hboot hst hq hc hj hp hexec => restored_rest_clause hk hstep hboot hst hq hc hj hp hexec,
    fun k code s hk hstep hboot hst hp => restored_stabled_clause code hk hstep hboot hst hp,
    fun k s hk hstep hsrc hcheck hfails hlate => ?_, fun s hwake => ?_, fun b s hmem hst hp hb => ?_, fun b s h => ?_,
    fun s hst hmem hshut hheld => ⟨?_, ?_, ?_, fun p hport => ?_, fun p hport => ?_⟩, fun i s h => ?_,
    fun n r s hst hshut hwake hphase hrole hdiff => ?_, fun s hst => ?_⟩
  case refine_1 =>
    have hx := exec_wakeEvent (src := .pcie) hst
    rw [State.wakeSource_of_asleep (Or.inl hst) hshut (by rfl) hwake hphase] at hx
    obtain ⟨o, ho⟩ := s.startWake_eq_with 7 false true
    exact answers_of_exec_of_evt_eq (hx.trans (congrArg (answer s) ho)) rfl ⟨rfl, rfl, hst, rfl, rfl⟩
  case refine_2 =>
    have hhear : s.hears src := by cases src <;> trivial
    have hx := exec_wakeEvent hhear
    rw [State.wakeSource_of_asleep (Or.inr hst) hshut (Pwr.wakeEnabled_all hen) hwake hphase] at hx
    obtain ⟨o, ho⟩ := s.startWake_eq_with (wakeNumber src) (checkSource (wakeNumber src)) true
    refine answers_of_exec_of_evt_eq (hx.trans (congrArg (answer s) ho)) rfl ⟨rfl, ?_, ?_, rfl⟩
    · cases src <;> rfl
    · cases src with
      | safetyInput => exact absurd rfl hsin
      | pcie => exact absurd rfl hpcie
      | _ => rfl
  case refine_3 =>
    have hx := exec_wakeEvent (src := .safetyInput) (any_role_of hrole)
    rw [State.wakeSource_entering hshut (by rfl) hwake (by omega) hl] at hx
    exact answers_of_exec_of_evt_eq hx rfl rfl
  case refine_4 => exact answers_of_exec_of_evt_eq (exec_wakeEvent_quiet (State.wakeSource_of_awake hst hwake hphase)) rfl rfl
  case refine_5 =>
    refine answers_of_exec_of_evt_eq (exec_wakeEvent_quiet (State.wakeSource_of_disabled ?_)) rfl rfl
    simpa [wakeNumber, Pwr.wakeEnabled] using hen
  case refine_6 => exact answers_of_exec_of_evt_eq (exec_wakeStepReady_two hk hstep) rfl rfl
  case refine_7 =>
    have hx := exec_wakeStepReady_three (ok := true) (code := code) hk hstep
    rw [State.memoryReady_usable hboot hcheck hst hvalid] at hx
    exact answers_of_exec_of_evt_eq hx rfl ⟨rfl, rfl, rfl, rfl⟩
  case refine_8 =>
    have hx := exec_wakeStepReady_three (ok := ok) (code := code) hk hstep
    obtain ⟨b, e, x, n, hm⟩ := State.memoryReady_unusable hboot hst h
    obtain ⟨hisl, hmem, hpcc⟩ := s.rebooted_effect
    rw [hm] at hx
    refine answers_of_exec hx ?_
    simp only [eventInterrupt_frame]
    exact ⟨trivial, trivial, trivial, hpcc, hisl, hmem⟩
  case refine_9 =>
    have hx := exec_wakeRetry_first hk hstep hfails hlate
    rw [State.retryWake_wake hk hsrc hcheck] at hx
    exact answers_of_exec_of_evt_eq hx rfl ⟨rfl, rfl, rfl⟩
  case refine_10 => exact answers_of_exec_of_evt_eq (congrArg (answer s) (by rw [hwake])) rfl rfl
  case refine_11 =>
    have hx := exec_sramBlockRestore (b := b) hmem hst
    rw [State.restoreBlock_of_pending hp hb b.isLt] at hx
    refine answers_of_exec_of_evt_eq hx rfl ⟨rfl, fun hl => ?_, fun hl => ?_, rfl⟩
    · exact if_neg (by omega)
    · exact if_pos (by omega)
  case refine_12 =>
    refine answers_of_exec_of_evt_eq (congrArg (answer s) ?_) rfl rfl
    rw [State.restoreBlock_done h, ite_self]
  case refine_13 => exact answers_of_exec_of_evt_eq (exec_islandWakeOnAccess ⟨hst, hmem, hshut, hheld⟩) rfl rfl
  case refine_14 => exact answers_of_exec_of_evt_eq (exec_islandWakeOnAccess ⟨hst, hmem, hshut, hheld⟩) rfl rfl
  case refine_15 =>
    have hx := exec_islandWakeOnAccess (i := .host) ⟨hst, hmem, hshut, hheld⟩
    dsimp only at hx
    split at hx
    · next hhost =>
      have hself : s.isl = { s.isl with host := true } := congrArg (fun b => { s.isl with host := b }) hhost
      exact answers_of_exec_of_evt_eq hx rfl ⟨hself, rfl⟩
    · exact answers_of_exec_of_evt_eq hx rfl ⟨rfl, rfl⟩
  case refine_16 =>
    have hx := exec_islandWakeOnAccess (i := .port p) ⟨hst, hmem, hshut, hheld⟩
    dsimp only at hx
    rw [if_neg (by simp [hport])] at hx
    refine answers_of_exec hx ?_
    simp only [eventInterrupt_frame]
    exact s.startPort_up p _
  case refine_17 =>
    have hx := exec_islandWakeOnAccess (i := .port p) ⟨hst, hmem, hshut, hheld⟩
    dsimp only at hx
    rw [if_pos hport] at hx
    exact answers_of_exec_of_evt_eq hx rfl rfl
  case refine_18 =>
    refine answers_of_exec_of_evt_eq (exec_islandWakeOnAccess_not ?_) rfl rfl
    rintro ⟨hst, -, -, hheld⟩
    rcases h with h | h | h
    · simp [h] at hst
    · simp [h] at hst
    · exact Bool.noConfusion (hheld.symm.trans h)
  case refine_19 =>
    have hmoved : ¬ s.sinSteady r := fun h => hdiff (by
      have hbits := congrArg (BitVec.getLsbD · 0) (h n hrole)
      simpa using hbits)
    have hx := (exec_stabledSinScan hst).2 hmoved
    rw [State.wakeSource_of_asleep (s := { s with out := s.out ++ [.tpo 0, .tpo 1, .tpo 2, .tpo 3] }) (Or.inr hst) hshut (by rfl) hwake hphase] at hx
    obtain ⟨o, ho⟩ := State.startWake_eq_with { s with out := s.out ++ [.tpo 0, .tpo 1, .tpo 2, .tpo 3] } 6 false true
    refine answers_of_exec_of_evt_eq (hx.trans (congrArg (answer s) ho)) rfl ⟨rfl, fun k => ?_, rfl⟩
    have hk : OutEvent.tpo k ∈ [OutEvent.tpo 0, .tpo 1, .tpo 2, .tpo 3] := by
      revert k
      decide
    exact List.mem_append_left _ (List.mem_append_right _ hk)
  case refine_20 => exact answers_of_exec_of_evt_eq ((exec_stabledSinScan hst).1 fun _ _ => rfl) rfl rfl

end Sys2Proof.Machine
end

section
/-! SUPPORT. What a halter detail and the loads of a start leave of the thermal block (16). -/

namespace Sys2Proof.Machine

/-- The thermal block and its events of `t` are those of `s`. -/
def State.SameTherm (t s : State) : Prop := t.therm = s.therm ∧ t.evt.th = s.evt.th

theorem State.SameTherm.refl (s : State) : s.SameTherm s := ⟨rfl, rfl⟩

theorem State.SameTherm.trans {u t s : State} (hu : u.SameTherm t) (ht : t.SameTherm s) : u.SameTherm s :=
  ⟨hu.1.trans ht.1, hu.2.trans ht.2⟩

theorem State.SameTherm.foldl {α : Type} (l : List α) (f : State → α → State) (h : ∀ t a, (f t a).SameTherm t) (s : State) :
    (l.foldl f s).SameTherm s :=
  List.foldlRecOn l f (motive := fun t => t.SameTherm s) (.refl s) fun t ht a _ => (h t a).trans ht

@[simp] theorem State.foldl_therm {α : Type} (l : List α) (f : State → α → State) (h : ∀ t a, (f t a).therm = t.therm)
    (s : State) : (l.foldl f s).therm = s.therm :=
  List.foldlRecOn l f (motive := fun t => t.therm = s.therm) rfl fun _ ht a _ => (h _ a).trans ht

@[simp] theorem State.foldl_evt_th {α : Type} (l : List α) (f : State → α → State) (h : ∀ t a, (f t a).evt.th = t.evt.th)
    (s : State) : (l.foldl f s).evt.th = s.evt.th :=
  List.foldlRecOn l f (motive := fun t => t.evt.th = s.evt.th) rfl fun _ ht a _ => (h _ a).trans ht

@[simp] theorem State.recorderTakes_therm (s : State) (q : StbReq) : (s.recorderTakes q).therm = s.therm ∧ (s.recorderTakes q).evt.th = s.evt.th := by
  unfold State.recorderTakes
  repeat' split
  all_goals simp

@[simp] theorem State.studbook_therm (s : State) (trigger : BitVec 6) (subject : Nat) (detail : List Byte) :
    (s.studbook trigger subject detail).therm = s.therm ∧ (s.studbook trigger subject detail).evt.th = s.evt.th := by
  unfold State.studbook
  split <;> simp

@[simp] theorem State.settleMask_therm (s : State) (u : Fin 128) : (s.settleMask u).therm = s.therm ∧ (s.settleMask u).evt.th = s.evt.th := by
  unfold State.settleMask
  dsimp only
  split <;> simp

@[simp] theorem State.turnOn_therm (s : State) (ch : Fin 24) : (s.turnOn ch).therm = s.therm ∧ (s.turnOn ch).evt.th = s.evt.th := by
  unfold State.turnOn
  dsimp only
  repeat' split
  all_goals simp

@[simp] theorem State.turnOff_therm (s : State) (ch : Fin 24) : (s.turnOff ch).therm = s.therm ∧ (s.turnOff ch).evt.th = s.evt.th := by
  simp [State.turnOff]

@[simp] theorem State.settleOut_therm (s : State) (ch : Fin 24) : (s.settleOut ch).therm = s.therm ∧ (s.settleOut ch).evt.th = s.evt.th := by
  unfold State.settleOut
  dsimp only
  repeat' split
  all_goals simp

@[simp] theorem State.command_therm (s : State) (ch : Fin 24) (on : Bool) :
    (s.command ch on).therm = s.therm ∧ (s.command ch on).evt.th = s.evt.th := by
  simp [State.command]

@[simp] theorem State.strEvent_therm (s : State) (base : Nat) (str : Fin 4) :
    (s.strEvent base str).therm = s.therm ∧ (s.strEvent base str).evt.th = s.evt.th := by
  simp [State.strEvent]

@[simp] theorem State.abortShunt_therm (s : State) (str : Fin 4) : (s.abortShunt str).therm = s.therm ∧ (s.abortShunt str).evt.th = s.evt.th := by
  unfold State.abortShunt
  dsimp only
  split
  · exact State.SameTherm.refl s
  · refine State.SameTherm.trans (State.SameTherm.foldl _ _ (fun t c => by simp [State.SameTherm]) _) ?_
    split <;> simp [State.SameTherm]

@[simp] theorem State.stopExcitation_therm (s : State) (str : Fin 4) :
    (s.stopExcitation str).therm = s.therm ∧ (s.stopExcitation str).evt.th = s.evt.th := by
  unfold State.stopExcitation
  split
  · exact (State.SameTherm.foldl _ _ (fun t u => by simp [State.SameTherm]) _).trans (by simp [State.SameTherm])
  · exact State.SameTherm.refl s

@[simp] theorem State.enterStr_therm (s : State) (str : Fin 4) (new : StrState) (cause : Nat) (stamp : BitVec 32) :
    (s.enterStr str new cause stamp).therm = s.therm ∧ (s.enterStr str new cause stamp).evt.th = s.evt.th := by
  unfold State.enterStr
  extract_lets old s1 s2 s3 s4 s5 s6 s7 s8
  have h3 : s3.SameTherm s := by
    unfold s3
    split <;> simp [s2, s1, State.SameTherm]
  have h4 : s4.SameTherm s := by
    refine State.SameTherm.trans ?_ h3
    unfold s4
    split <;> simp [State.SameTherm]
  have h5 : s5.SameTherm s := by
    refine State.SameTherm.trans ?_ h4
    unfold s5
    split <;> simp [State.SameTherm]
  have h8 : s8.SameTherm s := State.SameTherm.trans (by simp [s8, s7, s6, State.SameTherm]) h5
  split
  · exact h8
  · exact h5

@[simp] theorem State.cmdContactor_therm (s : State) (str : Fin 4) (k : Fin 3) (on : Bool) :
    (s.cmdContactor str k on).therm = s.therm ∧ (s.cmdContactor str k on).evt.th = s.evt.th := by
  unfold State.cmdContactor
  dsimp only
  repeat' split
  all_goals simp

@[simp] theorem State.withdraw_therm (s : State) (str : Fin 4) : (s.withdraw str).therm = s.therm ∧ (s.withdraw str).evt.th = s.evt.th := by
  simp [State.withdraw]

@[simp] theorem State.closeRefused_therm (s : State) (str : Fin 4) (code d3 : Nat) :
    (s.closeRefused str code d3).therm = s.therm ∧ (s.closeRefused str code d3).evt.th = s.evt.th := by
  unfold State.closeRefused
  split <;> simp

@[simp] theorem State.abortPrecharge_therm (s : State) (str : Fin 4) :
    (s.abortPrecharge str).therm = s.therm ∧ (s.abortPrecharge str).evt.th = s.evt.th := by
  unfold State.abortPrecharge
  split <;> simp

@[simp] theorem State.countBreak_therm (s : State) (str : Fin 4) (i : Option Nat) :
    (s.countBreak str i).therm = s.therm ∧ (s.countBreak str i).evt.th = s.evt.th := by
  unfold State.countBreak
  dsimp only
  repeat' split
  all_goals simp

@[simp] theorem State.openDone_therm (s : State) (str : Fin 4) (welded : Bool) :
    (s.openDone str welded).therm = s.therm ∧ (s.openDone str welded).evt.th = s.evt.th := by
  unfold State.openDone
  exact (State.SameTherm.foldl _ _ (fun t (p : Cmd × Bool) => by simp [State.SameTherm]) _).trans (by simp [State.SameTherm])

@[simp] theorem State.weldEval_therm (s : State) (str : Fin 4) : (s.weldEval str).therm = s.therm ∧ (s.weldEval str).evt.th = s.evt.th := by
  unfold State.weldEval
  dsimp only
  repeat' split
  all_goals simp

@[simp] theorem State.weldedEval_therm (s : State) (str : Fin 4) : (s.weldedEval str).therm = s.therm ∧ (s.weldedEval str).evt.th = s.evt.th := by
  unfold State.weldedEval
  split <;> simp

@[simp] theorem State.startWeldCheck_therm (s : State) (str : Fin 4) (cause : Nat) (stamp : BitVec 32) :
    (s.startWeldCheck str cause stamp).therm = s.therm ∧ (s.startWeldCheck str cause stamp).evt.th = s.evt.th := by
  simp [State.startWeldCheck]

@[simp] theorem State.weldPeers_therm (s : State) : s.weldPeers.therm = s.therm ∧ s.weldPeers.evt.th = s.evt.th := by
  unfold State.weldPeers
  exact State.SameTherm.foldl _ _ (fun t i => by simp [State.SameTherm]) s

@[simp] theorem State.breakNow_therm (s : State) (str : Fin 4) (cause : Nat) (i : Option Nat) :
    (s.breakNow str cause i).therm = s.therm ∧ (s.breakNow str cause i).evt.th = s.evt.th := by
  unfold State.breakNow
  dsimp only
  repeat' split
  all_goals simp

@[simp] theorem State.openAllA_therm (s : State) (cause : Nat) : (s.openAllA cause).therm = s.therm ∧ (s.openAllA cause).evt.th = s.evt.th := by
  unfold State.openAllA
  exact State.SameTherm.foldl _ _ (fun t str => by split <;> simp [State.SameTherm]) s

@[simp] theorem State.sendEnables_therm (s : State) : s.sendEnables.therm = s.therm ∧ s.sendEnables.evt.th = s.evt.th := by
  simp [State.sendEnables]

@[simp] theorem State.sendStatus_therm (s : State) (sent0 sent1 : Bool) :
    (s.sendStatus sent0 sent1).therm = s.therm ∧ (s.sendStatus sent0 sent1).evt.th = s.evt.th := by
  unfold State.sendStatus
  repeat' split
  all_goals simp

@[simp] theorem State.hltEvent_therm (s : State) (n : Nat) : (s.hltEvent n).therm = s.therm ∧ (s.hltEvent n).evt.th = s.evt.th := by
  simp [State.hltEvent]

@[simp] theorem State.lockOut_therm (s : State) (d : Detail) (w : Fin 16) : (s.lockOut d w).therm = s.therm ∧ (s.lockOut d w).evt.th = s.evt.th := by
  simp [State.lockOut]

@[simp] theorem State.raiseDetail_therm (s : State) (d : Detail) (w : Fin 16) :
    (s.raiseDetail d w).therm = s.therm ∧ (s.raiseDetail d w).evt.th = s.evt.th := by
  unfold State.raiseDetail
  dsimp only
  repeat' split
  all_goals simp

@[simp] theorem State.loadCalibration_therm (s : State) : s.loadCalibration.therm = s.therm ∧ s.loadCalibration.evt.th = s.evt.th := by
  unfold State.loadCalibration
  dsimp only
  refine State.SameTherm.trans (State.SameTherm.foldl _ _ (fun t u => ?_) _) ?_
  · split
    · simp [State.SameTherm]
    · split <;> simp [State.SameTherm]
  · split <;> simp [State.SameTherm]

@[simp] theorem State.onWb_therm (s : State) (str : Fin 4) (f : WbStr → WbStr) :
    (s.onWb str f).therm = s.therm ∧ (s.onWb str f).evt.th = s.evt.th := by
  simp [State.onWb]

@[simp] theorem State.wbEvent_therm (s : State) (n : Nat) : (s.wbEvent n).therm = s.therm ∧ (s.wbEvent n).evt.th = s.evt.th := by
  simp [State.wbEvent]

@[simp] theorem State.loadWeighbridge_therm (s : State) : s.loadWeighbridge.therm = s.therm ∧ s.loadWeighbridge.evt.th = s.evt.th := by
  unfold State.loadWeighbridge
  split
  split
  split
  refine State.SameTherm.trans (State.SameTherm.foldl _ _ (fun t i => ?_) _) ?_
  · dsimp only
    repeat' split
    all_goals simp [State.SameTherm]
  · split <;> split <;> simp [State.SameTherm]

@[simp] theorem State.loadCheckpoint_therm (s : State) : s.loadCheckpoint.therm = s.therm ∧ s.loadCheckpoint.evt.th = s.evt.th := by
  unfold State.loadCheckpoint
  split <;> simp

end Sys2Proof.Machine
end

section
/-! SUPPORT. What the loads of a start leave of the halter, the host interface and a clear in progress. -/

namespace Sys2Proof.Machine

/-- The halter, the host interface and the clear of the log in progress are those of `s`. -/
def State.SameDuties (t s : State) : Prop := t.halter = s.halter ∧ t.hif = s.hif ∧ t.stb.clearing = s.stb.clearing

theorem State.SameDuties.trans {u t s : State} (hu : u.SameDuties t) (ht : t.SameDuties s) : u.SameDuties s :=
  have ⟨k0, k1, k2⟩ := hu
  have ⟨h0, h1, h2⟩ := ht
  ⟨k0.trans h0, k1.trans h1, k2.trans h2⟩

theorem State.SameDuties.foldl {α : Type} (l : List α) (f : State → α → State) (h : ∀ t a, (f t a).SameDuties t) (s : State) :
    (l.foldl f s).SameDuties s :=
  List.foldlRecOn l f (motive := fun t => t.SameDuties s) ⟨rfl, rfl, rfl⟩ fun t ht a _ => (h t a).trans ht

@[simp] theorem State.foldl_stb_clearing {α : Type} (l : List α) (f : State → α → State) (h : ∀ t a, (f t a).stb.clearing = t.stb.clearing)
    (s : State) : (l.foldl f s).stb.clearing = s.stb.clearing :=
  List.foldlRecOn l f (motive := fun t => t.stb.clearing = s.stb.clearing) rfl fun _ ht a _ => (h _ a).trans ht

@[simp] theorem State.studbook_duties (s : State) (trigger : BitVec 6) (subject : Nat) (detail : List Byte) :
    (s.studbook trigger subject detail).halter = s.halter ∧
    (s.studbook trigger subject detail).hif = s.hif ∧
    (s.studbook trigger subject detail).stb.clearing = s.stb.clearing :=
  ⟨by simp, by simp, State.studbook_clearing s trigger subject detail⟩

@[simp] theorem State.loadCalibration_duties (s : State) :
    s.loadCalibration.halter = s.halter ∧ s.loadCalibration.hif = s.hif ∧ s.loadCalibration.stb.clearing = s.stb.clearing := by
  unfold State.loadCalibration
  dsimp only
  refine State.SameDuties.trans (State.SameDuties.foldl _ _ (fun t u => ?_) _) ?_
  · split
    · simp [State.SameDuties]
    · split <;> simp [State.SameDuties]
  · split <;> simp [State.SameDuties]

@[simp] theorem State.onWb_duties (s : State) (str : Fin 4) (f : WbStr → WbStr) :
    (s.onWb str f).halter = s.halter ∧ (s.onWb str f).hif = s.hif ∧ (s.onWb str f).stb.clearing = s.stb.clearing := by
  simp [State.onWb]

@[simp] theorem State.wbEvent_duties (s : State) (n : Nat) :
    (s.wbEvent n).halter = s.halter ∧ (s.wbEvent n).hif = s.hif ∧ (s.wbEvent n).stb.clearing = s.stb.clearing := by
  simp [State.wbEvent]

@[simp] theorem State.loadWeighbridge_duties (s : State) :
    s.loadWeighbridge.halter = s.halter ∧ s.loadWeighbridge.hif = s.hif ∧ s.loadWeighbridge.stb.clearing = s.stb.clearing := by
  unfold State.loadWeighbridge
  split
  split
  split
  refine State.SameDuties.trans (State.SameDuties.foldl _ _ (fun t i => ?_) _) ?_
  · dsimp only
    repeat' split
    all_goals simp [State.SameDuties]
  · split <;> split <;> simp [State.SameDuties]

@[simp] theorem State.loadCheckpoint_duties (s : State) :
    s.loadCheckpoint.halter = s.halter ∧ s.loadCheckpoint.hif = s.hif ∧ s.loadCheckpoint.stb.clearing = s.stb.clearing := by
  unfold State.loadCheckpoint
  split <;> simp

end Sys2Proof.Machine
end

section
/-! SUPPORT. The readings of the sensors, their thresholds and a shut-down (16 R428, R430, R431, R435). -/

namespace Sys2Proof.Machine

open Sys2Proof Sys2Proof.Machine

theorem roundFree_int (x : Int) : roundFree (x : Rat) = x := by
  simp [roundFree]

-- The records and the thresholds (16 R431, R437).

@[simp] theorem State.studbook_evt_th (s : State) (t : BitVec 6) (n : Nat) (d : List Byte) : (s.studbook t n d).evt.th = s.evt.th :=
  (State.studbook_therm s t n d).2

/-- A THERMAL record changes the recorder, what waits for it, and the events, but not those of the thermal block. -/
theorem State.thermalRecord_eq_with (s : State) (cluster : Fin 4) (kind : Nat) (n : Option (Fin 12)) : ∃ b e x k,
    s.thermalRecord cluster kind n = { s with stb := b, evt := e, cross := x, free := k } ∧ e.th = s.evt.th := by
  have hrec : ∀ d : List Byte, ∃ b e x k, ({ s with free := s.free + 1 } : State).studbook 0x08 cluster.val d =
      { s with stb := b, evt := e, cross := x, free := k } ∧ e.th = s.evt.th := fun d => by
    obtain ⟨b, e, x, h⟩ := State.studbook_eq_with { s with free := s.free + 1 } 0x08 cluster.val d
    exact ⟨b, e, x, s.free + 1, h, (congrArg (fun t : State => t.evt.th) h).symm.trans (State.studbook_evt_th _ _ _ _)⟩
  cases n with
  | none => exact hrec _
  | some n => exact hrec _

/-- The thermal events of `s` are among those of `t`; the islands and the clocks of `t` are those of `s`. -/
def State.ThermalStep (t s : State) : Prop :=
  (∀ i, s.evt.th.getLsbD i = true → t.evt.th.getLsbD i = true) ∧ t.isl = s.isl ∧ t.clk = s.clk

theorem State.ThermalStep.trans {u t s : State} (hu : u.ThermalStep t) (ht : t.ThermalStep s) : u.ThermalStep s :=
  have ⟨k0, k1, k2⟩ := hu
  have ⟨h0, h1, h2⟩ := ht
  ⟨fun i hi => k0 i (h0 i hi), k1.trans h1, k2.trans h2⟩

/-- A threshold that is crossed: the thermal block changes, the event bit is set, and a record is asked for. -/
theorem State.crossing_effect (s : State) (f : Therm → Therm) {bit : Nat} (hbit : bit < 5) (c : Fin 4) (kind : Nat) (n : Option (Fin 12)) :
    (((s.onTherm f).thEvent bit).thermalRecord c kind n).therm = f s.therm ∧
    (((s.onTherm f).thEvent bit).thermalRecord c kind n).evt.th.getLsbD bit = true ∧
    (((s.onTherm f).thEvent bit).thermalRecord c kind n).ThermalStep s := by
  obtain ⟨b, e, x, k, h, he⟩ := ((s.onTherm f).thEvent bit).thermalRecord_eq_with c kind n
  rw [h]
  refine ⟨rfl, ?_, fun i hi => ?_, rfl, rfl⟩
  · exact he ▸ setBit_getLsbD_self _ (by omega)
  · exact he ▸ setBit_getLsbD_of_set _ hi

theorem State.ThermalStep.refl (s : State) : s.ThermalStep s := ⟨fun _ h => h, rfl, rfl⟩

/-- What the comparison with the warning threshold finds. -/
def Therm.warns (t : Therm) : Bool := if t.warn then decide (400 ≤ t.tMax) else decide (420 ≤ t.tMax)
/-- What the comparison with the throttle threshold finds. -/
def Therm.throttles (t : Therm) : Bool := if t.throttle then decide (428 ≤ t.tMax) else decide (460 ≤ t.tMax)

theorem State.judgeWarn_effect (s : State) : s.judgeWarn.therm = { s.therm with warn := s.therm.warns } ∧
    (s.therm.warns ≠ s.therm.warn → s.judgeWarn.evt.th.getLsbD 0 = true) ∧ s.judgeWarn.ThermalStep s := by
  have hx : s.judgeWarn = if s.therm.warns = s.therm.warn then s else
      ((s.onTherm (fun t => { t with warn := s.therm.warns })).thEvent 0).thermalRecord (clusterOf s.therm.hotSensor) (if s.therm.warns then 3 else 4)
        (some s.therm.hotSensor) := rfl
  rw [hx]
  split
  · next h => exact ⟨by rw [h], fun hne => absurd h hne, State.ThermalStep.refl s⟩
  · obtain ⟨ht, hbit, hstep⟩ := s.crossing_effect (fun t => { t with warn := s.therm.warns }) (bit := 0) (by decide)
      (clusterOf s.therm.hotSensor) (if s.therm.warns then 3 else 4) (some s.therm.hotSensor)
    exact ⟨ht, fun _ => hbit, hstep⟩

/-- The thermal block once the throttle comparison has found `now`. -/
def Therm.throttled (t : Therm) (now : Bool) : Therm :=
  if now = t.throttle then t
  else { t with throttle := now, level := if now then max 1 t.level else t.level, thrCnt := if now then satAdd 0xFFFF t.thrCnt 1 else t.thrCnt }

theorem State.judgeThrottle_effect (s : State) : s.judgeThrottle.therm = s.therm.throttled s.therm.throttles ∧
    (s.therm.throttles ≠ s.therm.throttle → s.judgeThrottle.evt.th.getLsbD 1 = true) ∧ s.judgeThrottle.ThermalStep s := by
  have hx : s.judgeThrottle = if s.therm.throttles = s.therm.throttle then s else
      ((s.onTherm (fun t => { t with
        throttle := s.therm.throttles, level := if s.therm.throttles then max 1 s.therm.level else s.therm.level
        thrCnt := if s.therm.throttles then satAdd 0xFFFF s.therm.thrCnt 1 else s.therm.thrCnt })).thEvent 1).thermalRecord
          (clusterOf s.therm.hotSensor) (if s.therm.throttles then 5 else 6) (some s.therm.hotSensor) := rfl
  rw [hx]
  unfold Therm.throttled
  split
  · next h => exact ⟨rfl, fun hne => absurd h hne, State.ThermalStep.refl s⟩
  · obtain ⟨ht, hbit, hstep⟩ := s.crossing_effect (fun t => { t with
        throttle := s.therm.throttles, level := if s.therm.throttles then max 1 s.therm.level else s.therm.level
        thrCnt := if s.therm.throttles then satAdd 0xFFFF s.therm.thrCnt 1 else s.therm.thrCnt }) (bit := 1) (by decide)
      (clusterOf s.therm.hotSensor) (if s.therm.throttles then 5 else 6) (some s.therm.hotSensor)
    exact ⟨ht, fun _ => hbit, hstep⟩

/-- T_MAX anew and its comparisons: the measured block with what the two comparisons find, and their events. -/
theorem State.judgeTemp_effect (s : State) : ∃ cool,
    s.judgeTemp.therm = { ({ s.therm.measure with warn := s.therm.measure.warns } : Therm).throttled s.therm.measure.throttles with coolSince := cool } ∧
    (s.therm.measure.warns ≠ s.therm.measure.warn → s.judgeTemp.evt.th.getLsbD 0 = true) ∧
    (s.therm.measure.throttles ≠ s.therm.measure.throttle → s.judgeTemp.evt.th.getLsbD 1 = true) ∧ s.judgeTemp.ThermalStep s := by
  obtain ⟨u, hu⟩ : ∃ u, s.onTherm Therm.measure = u := ⟨_, rfl⟩
  have hut : u.therm = s.therm.measure := by rw [← hu]; rfl
  have hus : u.ThermalStep s := by rw [← hu]; exact State.ThermalStep.refl s
  obtain ⟨hw, hwbit, hwstep⟩ := u.judgeWarn_effect
  obtain ⟨ht, htbit, htstep⟩ := u.judgeWarn.judgeThrottle_effect
  have hx : s.judgeTemp = u.judgeWarn.judgeThrottle.onTherm
      (fun t => { t with coolSince := if t.shutDown && decide (t.tMax < warnClear) then some (t.coolSince.getD u.judgeWarn.judgeThrottle.now) else none }) := by
    rw [← hu]
    rfl
  rw [hw] at ht htbit
  have hcool := congrArg (fun t : Therm => { t with
    coolSince := if t.shutDown && decide (t.tMax < warnClear) then some (t.coolSince.getD u.judgeWarn.judgeThrottle.now) else none }) ht
  have hstep := (htstep.trans hwstep).trans hus
  have hevt : s.judgeTemp.evt = u.judgeWarn.judgeThrottle.evt := by rw [hx]; rfl
  rw [← hut]
  refine ⟨_, (congrArg State.therm hx).trans hcool, fun h => ?_, fun h => ?_, ?_⟩
  · rw [hevt]
    exact htstep.1 0 (hwbit h)
  · rw [hevt]
    exact htbit h
  · rw [hx]
    exact hstep

-- Sensors (16 R428 to R430).

theorem Therm.failedIn_eq_zero {t : Therm} {c : Fin 4} : t.failedIn c = 0 ↔ ∀ m, clusterOf m = c → (t.sensor.at m).failed = false := by
  simp [Therm.failedIn, places, List.filter_eq_nil_iff]

/-- Every sensor is healthy, agrees, and reads `x`. -/
def Therm.Steady (t : Therm) (x : Int) : Prop :=
  ∀ n, (t.sensor.at n).failed = false ∧ (t.sensor.at n).disSince = none ∧ (t.sensor.at n).reading = x

theorem Therm.Steady.effective {t : Therm} {x : Int} (h : t.Steady x) (n : Fin 12) : t.effective n = { t.sensor.at n with eff := x } := by
  obtain ⟨hf, hd, hr⟩ := h n
  simp [Therm.effective, hf, hd, hr]

/-- Twelve equal effective readings: the maximum is theirs. -/
theorem Therm.hottest_of_eff {t : Therm} {x : Int} (h : ∀ n, (t.sensor.at n).eff = x) : t.hottest.1 = x := by
  unfold Therm.hottest
  refine List.foldlRecOn _ _ (motive := fun m : Int × Fin 12 => m.1 = x) (h 0) fun m hm n _ => ?_
  split
  · exact h n
  · exact hm

theorem Therm.at_ofFn {α : Type} {k : Nat} (f : Fin k → α) (n : Fin k) : Bank.at (Vector.ofFn f) n = f n := by
  simp [Bank.at]

/-- T_MAX of twelve healthy sensors that read the same (16 R430). -/
theorem Therm.Steady.measure {t : Therm} {x : Int} (h : t.Steady x) : t.measure.tMax = x ∧
    (∀ n, t.measure.sensor.at n = { t.sensor.at n with eff := x }) ∧ t.measure.warn = t.warn ∧ t.measure.throttle = t.throttle ∧
    t.measure.level = t.level ∧ t.measure.shutCnt = t.shutCnt := by
  obtain ⟨u, hu⟩ : ∃ u : Therm, { t with sensor := Vector.ofFn t.effective } = u := ⟨_, rfl⟩
  have hsensor : ∀ n, u.sensor.at n = { t.sensor.at n with eff := x } := fun n => by
    rw [← hu]
    exact (Therm.at_ofFn t.effective n).trans (h.effective n)
  have hfail : ∀ c, u.failedIn c = 0 := fun c => Therm.failedIn_eq_zero.mpr fun m _ => by rw [hsensor]; exact (h m).1
  have hhot : u.hottest.1 = x := Therm.hottest_of_eff fun n => by rw [hsensor]
  obtain ⟨m, n, hmn⟩ : ∃ m n, u.hottest = (m, n) := ⟨_, _, rfl⟩
  have hm : t.measure = { u with
    tMax := if (places 4).any (fun c => 3 ≤ u.failedIn c) then max shutAt m
      else if (places 4).any (fun c => 2 ≤ u.failedIn c) then max throttleAt m else m
    hot := BitVec.ofNat 4 n.val } := by
    unfold Therm.measure
    rw [hu]
    dsimp only
    rw [hmn]
  rw [hmn] at hhot
  have hnone : ∀ k, (places 4).any (fun c => decide (k + 1 ≤ u.failedIn c)) = false := fun k => by
    simp [hfail]
  rw [hm]
  refine ⟨?_, hsensor, by rw [← hu], by rw [← hu], by rw [← hu], by rw [← hu]⟩
  exact (if_neg (by simp [hnone])).trans ((if_neg (by simp [hnone])).trans hhot)

theorem Therm.disagreeing_of_equal {t : Therm} {x : Int} (h : ∀ n, (t.sensor.at n).reading = x) (c : Fin 4) : t.disagreeing c = [] := by
  unfold Therm.disagreeing
  dsimp only
  split
  · simp [h]
  · simp [h]
  · rfl

theorem Sensor.disagree_off (x : Sensor) (now : Nat) (before : Int) : x.disagree now before false = { x with disSince := none } := rfl

/-- Readings that are all equal and in range, with no sensor failed: each sensor takes its reading and agrees, and T_MAX is judged anew. -/
theorem exec_sensorReadingCheck_equal {x : Int} {s : State} (hrun : s.sensorsRun = true) (hcal : s.cal.device = none) (hlo : -220 ≤ x)
    (hhi : x ≤ 700) (hf : ∀ n, (s.therm.sensor.at n).failed = false) : ∃ u : State,
    exec (.sensorReadingCheck (Bank.fill 12 x)) s = answer s u.judgeTemp ∧ u.therm.Steady x ∧ u.ThermalStep s ∧
    u.therm.warn = s.therm.warn ∧ u.therm.throttle = s.therm.throttle ∧ u.therm.level = s.therm.level ∧ u.therm.shutCnt = s.therm.shutCnt := by
  have hofs : ∀ n, roundFree ((x : Rat) + s.cal.sensorOffset n) = x := fun n => by
    simp [CalDev.sensorOffset, hcal, Rat.add_zero, roundFree_int]
  obtain ⟨u, hu⟩ : ∃ u, s.onTherm (fun t => { t with sensor := t.sensor.each (fun n y =>
    { y with reading := roundFree (((Bank.fill 12 x).at n : Rat) + s.cal.sensorOffset n)
             vote := y.vote && decide (shutAt ≤ roundFree (((Bank.fill 12 x).at n : Rat) + s.cal.sensorOffset n)) }) }) = u := ⟨_, rfl⟩
  have hread : ∀ n, (u.therm.sensor.at n).reading = x ∧ (u.therm.sensor.at n).failed = false := fun n => by
    rw [← hu]
    simp [State.onTherm, hofs, hf]
  have hwrong : (places 12).filter (fun n => (u.therm.sensor.at n).reading < -220 ∨ 700 < (u.therm.sensor.at n).reading) = [] := by
    refine List.filter_eq_nil_iff.mpr fun n _ => ?_
    simp [(hread n).1]
    omega
  have hx : exec (.sensorReadingCheck (Bank.fill 12 x)) s = execSensorReadingCheck (Bank.fill 12 x) s := rfl
  unfold execSensorReadingCheck at hx
  rw [if_neg (by simp [hrun])] at hx
  dsimp only at hx
  rw [hu, hwrong, List.foldl_nil] at hx
  have hkeep : u.ThermalStep s ∧ u.therm.warn = s.therm.warn ∧ u.therm.throttle = s.therm.throttle ∧ u.therm.level = s.therm.level ∧
      u.therm.shutCnt = s.therm.shutCnt := by
    rw [← hu]
    exact ⟨State.ThermalStep.refl s, rfl, rfl, rfl, rfl⟩
  obtain ⟨⟨hevt, hisl, hclk⟩, hwarn, hthr, hlevel, hcnt⟩ := hkeep
  refine ⟨_, hx, fun n => ?_, ⟨hevt, hisl, hclk⟩, hwarn, hthr, hlevel, hcnt⟩
  simp [State.onTherm, Therm.disagreeing_of_equal fun m => (hread m).1, Sensor.disagree_off, hread]

@[simp] theorem Therm.throttled_sensor (t : Therm) (now : Bool) : (t.throttled now).sensor = t.sensor := by
  unfold Therm.throttled
  split <;> rfl

@[simp] theorem Therm.throttled_fields (t : Therm) (now : Bool) :
    (t.throttled now).tMax = t.tMax ∧ (t.throttled now).warn = t.warn ∧ (t.throttled now).shutCnt = t.shutCnt ∧
    (t.throttled now).throttle = now ∧
    (t.throttled now).level = if now ∧ t.throttle = false then max 1 t.level else t.level := by
  unfold Therm.throttled
  split
  · next h => simp [h]
  · next h => cases now <;> simp_all

/-- Readings that are all equal: what the sensors and the thresholds become (16 R428, R430, R431, R432). -/
theorem sensorReadingCheck_clause {x : Int} {s : State} (hrun : s.sensorsRun = true) (hcal : s.cal.device = none) (hlo : -220 ≤ x)
    (hhi : x ≤ 700) (hf : ∀ n, (s.therm.sensor.at n).failed = false) : Answers (.sensorReadingCheck (Bank.fill 12 x)) s fun t =>
      (∀ n, (t.therm.sensor.at n).reading = x ∧ (t.therm.sensor.at n).eff = x ∧ (t.therm.sensor.at n).failed = false ∧
        (t.therm.sensor.at n).disSince = none) ∧
      t.therm.tMax = x ∧ t.therm.shutCnt = s.therm.shutCnt ∧ t.isl = s.isl ∧ t.clk = s.clk ∧
      (s.therm.warn = false → (x < 420 → t.therm.warn = false) ∧ (420 ≤ x → t.therm.warn = true ∧ t.evt.th.getLsbD 0 = true)) ∧
      (s.therm.warn = true → (x < 400 → t.therm.warn = false ∧ t.evt.th.getLsbD 0 = true) ∧ (400 ≤ x → t.therm.warn = true)) ∧
      (s.therm.throttle = false → (x < 460 → t.therm.throttle = false ∧ t.therm.level = s.therm.level) ∧
        (460 ≤ x → t.therm.throttle = true ∧ t.therm.level = max 1 s.therm.level ∧ t.evt.th.getLsbD 1 = true)) ∧
      (s.therm.throttle = true → t.therm.level = s.therm.level ∧ (x < 428 → t.therm.throttle = false ∧ t.evt.th.getLsbD 1 = true) ∧
        (428 ≤ x → t.therm.throttle = true)) := by
  obtain ⟨u, hx, hsteady, ⟨-, hisl, hclk⟩, hwarn, hthr, hlevel, hcnt⟩ := exec_sensorReadingCheck_equal hrun hcal hlo hhi hf
  obtain ⟨cool, htherm, hwbit, htbit, ⟨-, hisl2, hclk2⟩⟩ := u.judgeTemp_effect
  obtain ⟨hmax, hsensor, hmwarn, hmthr, hmlevel, hmcnt⟩ := hsteady.measure
  have hwarns : u.therm.measure.warns = if s.therm.warn then decide (400 ≤ x) else decide (420 ≤ x) := by
    unfold Therm.warns
    rw [hmwarn, hwarn, hmax]
  have hthrottles : u.therm.measure.throttles = if s.therm.throttle then decide (428 ≤ x) else decide (460 ≤ x) := by
    unfold Therm.throttles
    rw [hmthr, hthr, hmax]
  rw [hwarns, hmwarn, hwarn] at hwbit
  rw [hthrottles, hmthr, hthr] at htbit
  refine answers_of_exec hx ?_
  simp only [eventInterrupt_frame, htherm, Therm.throttled_sensor, Therm.throttled_fields, hwarns, hthrottles, hmax, hmthr, hthr, hmlevel, hlevel,
    hmcnt, hcnt, hsensor]
  refine ⟨fun n => ⟨(hsteady n).2.2, trivial, (hsteady n).1, (hsteady n).2.1⟩, trivial, trivial, hisl2.trans hisl, hclk2.trans hclk,
    fun hw => ⟨fun h => ?_, fun h => ⟨?_, hwbit ?_⟩⟩, fun hw => ⟨fun h => ⟨?_, hwbit ?_⟩, fun h => ?_⟩,
    fun ht => ⟨fun h => ⟨?_, ?_⟩, fun h => ⟨?_, ?_, htbit ?_⟩⟩, fun ht => ⟨?_, fun h => ⟨?_, htbit ?_⟩, fun h => ?_⟩⟩
  case refine_8 => simp [*, Int.not_le.mpr h]
  all_goals simp [*]

/-- The sensors of `t` have failed, read and learned as those of `s`, and the thermal events of `s` stand. -/
def State.SensorsKept (t s : State) : Prop :=
  (∀ m, (t.therm.sensor.at m).failed = (s.therm.sensor.at m).failed ∧ (t.therm.sensor.at m).reading = (s.therm.sensor.at m).reading) ∧
  ∀ i, s.evt.th.getLsbD i = true → t.evt.th.getLsbD i = true

theorem State.SensorsKept.refl (s : State) : s.SensorsKept s := ⟨fun _ => ⟨rfl, rfl⟩, fun _ h => h⟩

theorem State.SensorsKept.trans {u t s : State} (hu : u.SensorsKept t) (ht : t.SensorsKept s) : u.SensorsKept s :=
  ⟨fun m => ⟨(hu.1 m).1.trans (ht.1 m).1, (hu.1 m).2.trans (ht.1 m).2⟩, fun i h => hu.2 i (ht.2 i h)⟩

theorem State.SensorsKept.of_therm {t s : State} (ht : t.therm = s.therm) (he : t.evt.th = s.evt.th) : t.SensorsKept s :=
  ⟨fun m => by rw [ht]; exact ⟨rfl, rfl⟩, fun i h => he ▸ h⟩

theorem Therm.effective_kept (t : Therm) (n : Fin 12) :
    (t.effective n).failed = (t.sensor.at n).failed ∧ (t.effective n).reading = (t.sensor.at n).reading := by
  unfold Therm.effective
  dsimp only
  repeat' split
  all_goals exact ⟨rfl, rfl⟩

theorem Therm.measure_sensor (t : Therm) (n : Fin 12) : t.measure.sensor.at n = t.effective n := by
  have h : t.measure.sensor = Vector.ofFn t.effective := rfl
  rw [h, Therm.at_ofFn]

theorem State.thEvent_kept (s : State) (n : Nat) : (s.thEvent n).SensorsKept s :=
  ⟨fun _ => ⟨rfl, rfl⟩, fun _ h => setBit_getLsbD_of_set _ h⟩

theorem State.onTherm_measure_kept (s : State) : (s.onTherm Therm.measure).SensorsKept s :=
  ⟨fun m => by
    have h : (s.onTherm Therm.measure).therm.sensor.at m = s.therm.effective m := s.therm.measure_sensor m
    rw [h]
    exact s.therm.effective_kept m, fun _ h => h⟩

theorem State.thermalRecord_kept (s : State) (c : Fin 4) (kind : Nat) (n : Option (Fin 12)) : (s.thermalRecord c kind n).SensorsKept s := by
  obtain ⟨b, e, x, k, h, he⟩ := s.thermalRecord_eq_with c kind n
  rw [h]
  exact State.SensorsKept.of_therm rfl he

theorem State.judgeTemp_kept (s : State) : s.judgeTemp.SensorsKept s := by
  obtain ⟨cool, htherm, -, -, ⟨hevt, -, -⟩⟩ := s.judgeTemp_effect
  refine ⟨fun m => ?_, hevt⟩
  rw [htherm]
  simp only [Therm.throttled_sensor, Therm.measure_sensor]
  exact s.therm.effective_kept m

/-- A shut-down: the islands lose power, an entry or a wake ends, and the halter takes the call (16 R435, R436). -/
theorem State.shutDown_effect {s : State} (n : Fin 12) (h : s.therm.shutDown = false) :
    (s.shutDown n).therm = { s.therm with shutDown := true, shutBy := n, shutCnt := satAdd 0xFF s.therm.shutCnt 1, coolSince := none } ∧
    (s.shutDown n).evt.th = s.evt.th ∧
    (s.shutDown n).isl = { ({} : Islands) with tb := s.isl.tb, halter := s.isl.halter, portAt := s.isl.portAt } ∧
    (s.shutDown n).mem.sram = [] ∧ (s.shutDown n).halter.has .thermal 0 = true ∧
    (s.shutDown n).pwr.phase = 0 ∧ (s.shutDown n).pwr.wake = none ∧ (s.shutDown n).pwr.pend = none := by
  obtain ⟨u, hu⟩ : ∃ u, {
    (s.onTherm (fun t => { t with shutDown := true, shutBy := n, shutCnt := satAdd 0xFF t.shutCnt 1, coolSince := none })).onPwr (fun p => { p with
      phase := 0, target := .run, entry := none, joined := [], pend := none, wake := none, pmbus := none, latched := none, levelBusy := false
      levelCmd := none }) with
      isl := { ({} : Islands) with tb := s.isl.tb, halter := s.isl.halter, portAt := s.isl.portAt }
      est := { s.est with running := false }, mem := { s.mem with sram := [] } } = u := ⟨_, rfl⟩
  have hfacts : u.therm = { s.therm with shutDown := true, shutBy := n, shutCnt := satAdd 0xFF s.therm.shutCnt 1, coolSince := none } ∧
      u.evt = s.evt ∧ u.isl = { ({} : Islands) with tb := s.isl.tb, halter := s.isl.halter, portAt := s.isl.portAt } ∧ u.mem.sram = [] ∧
      u.pwr.phase = 0 ∧ u.pwr.wake = none ∧ u.pwr.pend = none := by
    rw [← hu]
    exact ⟨rfl, rfl, rfl, rfl, rfl, rfl, rfl⟩
  obtain ⟨htherm, hevt, hisl, hsram, hphase, hwake, hpend⟩ := hfacts
  have hx : s.shutDown n = if u.halter.has .thermal 0 then u else u.raiseDetail .thermal 0 := by
    unfold State.shutDown
    rw [if_neg (by simp [h]), ← hu]
    rfl
  rw [hx]
  split
  · next hhas => exact ⟨htherm, congrArg Evts.th hevt, hisl, hsram, hhas, hphase, hwake, hpend⟩
  · obtain ⟨htherm2, hevt2⟩ := u.raiseDetail_therm .thermal 0
    obtain ⟨hpwr2, -, hisl2, -⟩ := u.raiseDetail_power .thermal 0
    obtain ⟨-, -, -, -, hmem2⟩ := u.raiseDetail_pairs .thermal 0
    obtain ⟨hhas, -, -⟩ := State.raiseDetail_has u (d := .thermal) 0 rfl (by decide)
    rw [htherm2, hevt2, hisl2, hmem2, hpwr2]
    exact ⟨htherm, congrArg Evts.th hevt, hisl, hsram, hhas, hphase, hwake, hpend⟩

theorem State.judgeCall_kept (s : State) (n : Fin 12) : (s.judgeCall n).SensorsKept s := by
  unfold State.judgeCall
  split
  · by_cases h : s.therm.shutDown = true
    · rw [show s.shutDown n = s from if_pos h]
      exact State.SensorsKept.refl s
    · obtain ⟨htherm, hevt, -⟩ := s.shutDown_effect n (Bool.eq_false_iff.mpr h)
      refine ⟨fun m => by rw [htherm]; exact ⟨rfl, rfl⟩, fun i hi => hevt ▸ hi⟩
  · exact State.SensorsKept.refl s

/-- A sensor that is failed; the other sensors stay (16 R428). -/
theorem State.failSensor_effect {s : State} {n : Fin 12} (h : (s.therm.sensor.at n).failed = false) :
    ((s.failSensor n).therm.sensor.at n).failed = true ∧ (s.failSensor n).evt.th.getLsbD 2 = true ∧
    ∀ m, m ≠ n → ((s.failSensor n).therm.sensor.at m).failed = (s.therm.sensor.at m).failed ∧
      ((s.failSensor n).therm.sensor.at m).reading = (s.therm.sensor.at m).reading := by
  unfold State.failSensor
  rw [if_neg (by simp [h])]
  extract_lets c s1 s2 s3 s4
  have h2 : s2.SensorsKept s1 := (State.thEvent_kept _ 2).trans s1.onTherm_measure_kept
  have hbit : s2.evt.th.getLsbD 2 = true := setBit_getLsbD_self _ (by decide)
  have h4 : s4.SensorsKept s3 := by
    unfold s4
    split
    · exact (State.thermalRecord_kept _ _ _ _).trans (State.thEvent_kept _ _)
    · exact State.SensorsKept.refl s3
  have hlast : (s4.judgeTemp.judgeCall n).SensorsKept s2 :=
    (((State.judgeCall_kept _ n).trans s4.judgeTemp_kept).trans h4).trans (State.thermalRecord_kept _ _ _ _)
  obtain ⟨hsensors, -⟩ := hlast.trans h2
  refine ⟨?_, hlast.2 2 hbit, fun m hm => ?_⟩
  · rw [(hsensors n).1]
    simp [s1, State.onSensor, State.onTherm]
  · rw [(hsensors m).1, (hsensors m).2]
    simp only [s1, State.onSensor, State.onTherm]
    rw [Bank.at_upd_of_ne _ _ (Ne.symm hm)]
    exact ⟨rfl, rfl⟩

theorem exec_sensorFail_late {n : Fin 12} {t0 : Nat} {s : State} (hrun : s.sensorsRun = true) (hd : (s.therm.sensor.at n).disSince = some t0)
    (hlate : t0 + 64000000 ≤ s.now) : exec (.sensorFail n) s = answer s (s.failSensor n) := by
  refine congrArg (answer s) (if_pos ⟨hrun, Or.inl ?_⟩)
  rw [hd]
  exact decide_eq_true hlate

theorem exec_sensorFail_sound {n : Fin 12} {s : State} (hd : (s.therm.sensor.at n).disSince = none) (hlo : -220 ≤ (s.therm.sensor.at n).reading)
    (hhi : (s.therm.sensor.at n).reading ≤ 700) : exec (.sensorFail n) s = answer s s := by
  refine congrArg (answer s) (if_neg ?_)
  rw [hd]
  rintro ⟨-, h | h | h⟩
  · exact Bool.noConfusion h
  · exact absurd h (Int.not_lt.mpr hlo)
  · exact absurd h (Int.not_lt.mpr hhi)

end Sys2Proof.Machine
end

section
/-! SUPPORT. Sensors, throttling, thermal shut-down and restart (16 R429, R432, R434, R435). -/

namespace Sys2Proof.Machine

open Sys2Proof Sys2Proof.Machine

-- Learned offsets (16 R429).

theorem rat_max_def (a b : Rat) : max a b = if a ≤ b then b else a := rfl

theorem rat_min_def (a b : Rat) : min a b = if a ≤ b then a else b := rfl

theorem learn_eq (ofs : Rat) (a b : Int) :
    learn ofs a b = max (-48) (min 48 (ofs + (((a - b : Int) : Rat) - ofs) / 64)) := by
  unfold learn
  dsimp only
  rw [rat_max_def, rat_min_def]
  grind

theorem neighbours_eq : ∀ {n lo hi : Fin 12}, lo < hi → lo ≠ n → hi ≠ n → clusterOf lo = clusterOf n → clusterOf hi = clusterOf n →
    neighbours n = [lo, hi] := by
  decide

/-- The block after OFFSET_LEARNING. -/
def Therm.learned (t : Therm) : Therm :=
  { t with sensor := t.sensor.each (fun n x =>
      let c := clusterOf n
      if t.failedIn c = 0 ∧ (sensorsOf c).all (fun m => (t.sensor.at m).disSince.isNone) then
        match neighbours n with
        | [lo, hi] => { x with
            ofsLo := learn x.ofsLo x.reading (t.sensor.at lo).reading, ofsHi := learn x.ofsHi x.reading (t.sensor.at hi).reading }
        | _ => x
      else x) }

theorem exec_offsetLearning (s : State) :
    exec .offsetLearning s = answer s (if s.sensorsRun then { s with therm := s.therm.learned } else s) := by
  have hx : exec .offsetLearning s = execOffsetLearning s := rfl
  rw [hx]
  unfold execOffsetLearning
  cases s.sensorsRun <;> rfl

theorem Therm.learned_of_healthy {t : Therm} {n lo hi : Fin 12} (hn : neighbours n = [lo, hi])
    (h : ∀ m, clusterOf m = clusterOf n → (t.sensor.at m).failed = false ∧ (t.sensor.at m).disSince = none) :
    t.learned.sensor.at n = { t.sensor.at n with
      ofsLo := learn (t.sensor.at n).ofsLo (t.sensor.at n).reading (t.sensor.at lo).reading
      ofsHi := learn (t.sensor.at n).ofsHi (t.sensor.at n).reading (t.sensor.at hi).reading } := by
  have hf : t.failedIn (clusterOf n) = 0 := Therm.failedIn_eq_zero.mpr fun m hm => (h m hm).1
  have hd : (sensorsOf (clusterOf n)).all (fun m => (t.sensor.at m).disSince.isNone) = true := by
    simp only [sensorsOf, List.all_filter, List.all_eq_true]
    intro m _
    by_cases hm : clusterOf m = clusterOf n
    · simp [(h m hm).2]
    · simp [hm]
  simp only [Therm.learned, Bank.at_each]
  rw [if_pos ⟨hf, hd⟩, hn]

theorem Therm.learned_of_failed {t : Therm} {n m : Fin 12} (hc : clusterOf m = clusterOf n) (hf : (t.sensor.at m).failed = true) :
    t.learned.sensor.at n = t.sensor.at n := by
  have hne : ¬ t.failedIn (clusterOf n) = 0 := fun h => Bool.noConfusion (hf.symm.trans (Therm.failedIn_eq_zero.mp h m hc))
  simp [Therm.learned, hne]

-- The throttle level (16 R432).

theorem exec_throttleLevelUpdate {s : State} (hrun : s.sensorsRun = true) : exec .throttleLevelUpdate s = answer s
    { s with therm := { s.therm with
      level := max (if (places 4).any (fun c => 2 ≤ s.therm.failedIn c) then 1 else 0)
        (if s.therm.throttle then (if 460 ≤ s.therm.tMax then min 11 (s.therm.level + 1) else s.therm.level) else s.therm.level - 1) } } := by
  have hx : exec .throttleLevelUpdate s = execThrottleLevelUpdate s := rfl
  rw [hx]
  unfold execThrottleLevelUpdate
  rw [hrun]
  rfl

-- Votes (16 R434).

theorem exec_comparatorVote {n : Fin 12} {s : State} (hrun : s.sensorsRun = true) (hf : (s.therm.sensor.at n).failed = false) :
    exec (.comparatorVote n) s = answer s
      (State.judgeCall { s with therm := { s.therm with sensor := s.therm.sensor.upd n (fun x => { x with vote := true }) } } n) := by
  refine congrArg (answer s) (if_neg ?_)
  simp [hrun, hf]

theorem exec_comparatorVote_failed {n : Fin 12} {s : State} (hf : (s.therm.sensor.at n).failed = true) :
    exec (.comparatorVote n) s = answer s s :=
  congrArg (answer s) (if_pos (by simp [hf]))

/-- The votes that count in a cluster. -/
def Therm.votes (t : Therm) (c : Fin 4) : List (Fin 12) := (t.healthy c).filter (fun n => (t.sensor.at n).vote)

theorem Therm.mem_votes {t : Therm} {c : Fin 4} {n : Fin 12} :
    n ∈ t.votes c ↔ clusterOf n = c ∧ (t.sensor.at n).failed = false ∧ (t.sensor.at n).vote = true := by
  simp only [Therm.votes, Therm.healthy, sensorsOf, places, List.mem_filter, List.mem_finRange, true_and, beq_iff_eq, Bool.not_eq_true', and_assoc]

theorem Therm.votes_nodup (t : Therm) (c : Fin 4) : (t.votes c).Nodup :=
  (((List.nodup_finRange 12).filter _).filter _).filter _

theorem Therm.calls_of_sound {t : Therm} {c : Fin 4} (h : t.failedIn c = 0) : t.calls c = decide (2 ≤ (t.votes c).length) := by
  unfold Therm.calls
  rw [h]
  rfl

/-- One vote does not shut down a cluster of three healthy sensors. -/
theorem Therm.calls_one {t : Therm} {n : Fin 12} (hf : t.failedIn (clusterOf n) = 0)
    (h : ∀ m, m ≠ n → clusterOf m = clusterOf n → (t.sensor.at m).vote = false) : t.calls (clusterOf n) = false := by
  rw [Therm.calls_of_sound hf]
  have hsub : t.votes (clusterOf n) ⊆ [n] := fun m hm => by
    obtain ⟨hc, -, hv⟩ := Therm.mem_votes.mp hm
    refine Decidable.byContradiction fun hne => ?_
    exact Bool.noConfusion ((h m (by simpa using hne) hc).symm.trans hv)
  have hlen := (t.votes_nodup (clusterOf n)).length_le_of_subset hsub
  simp only [List.length_singleton] at hlen
  exact decide_eq_false (by omega)

theorem Therm.calls_two {t : Therm} {n m : Fin 12} (hf : t.failedIn (clusterOf n) = 0) (hne : m ≠ n) (hc : clusterOf m = clusterOf n)
    (hn : (t.sensor.at n).vote = true) (hm : (t.sensor.at m).vote = true) : t.calls (clusterOf n) = true := by
  rw [Therm.calls_of_sound hf]
  have hsub : [n, m] ⊆ t.votes (clusterOf n) := by
    intro k hk
    rcases List.mem_cons.mp hk with rfl | hk
    · exact Therm.mem_votes.mpr ⟨rfl, Therm.failedIn_eq_zero.mp hf _ rfl, hn⟩
    · rw [List.mem_singleton] at hk
      subst hk
      exact Therm.mem_votes.mpr ⟨hc, Therm.failedIn_eq_zero.mp hf _ hc, hm⟩
  have hlen := List.Nodup.length_le_of_subset (by simp [Ne.symm hne]) hsub
  exact decide_eq_true hlen

/-- A vote changes no other sensor, and fails none. -/
theorem Therm.vote_at (t : Therm) (n m : Fin 12) :
    ((t.sensor.upd n (fun x => { x with vote := true })).at m).failed = (t.sensor.at m).failed ∧
    ((t.sensor.upd n (fun x => { x with vote := true })).at m).vote = if m = n then true else (t.sensor.at m).vote := by
  by_cases h : m = n
  · subst h
    simp
  · rw [Bank.at_upd_of_ne _ _ (Ne.symm h), if_neg h]
    exact ⟨rfl, rfl⟩

-- The restart (16 R435).

theorem exec_thermalRestart_early {t0 : Nat} {s : State} (hc : s.therm.coolSince = some t0) (h : s.now < t0 + 64000000) :
    exec .thermalRestart s = answer s s := by
  refine congrArg (answer s) (if_neg ?_)
  rw [hc]
  have : ¬ t0 + ticksPerS ≤ s.now := Nat.not_le.mpr h
  simp [this]

/-- What the boot ROM's start after a shut-down loads into: the thermal block, the halter and the clocks go on (16 R435; 18 R457). -/
theorem State.rebooted_halter (s : State) : ∃ u : State,
    s.rebooted true false = (u.loadWeighbridge.scanStudbook).1.loadCalibration.loadCheckpoint ∧
    u.therm = s.therm ∧ u.clk = s.clk ∧ u.halter = { s.halter with key := { s.halter.key with reqs := [] } } ∧ u.mem.sram = [] ∧
    u.hif.flights = [] ∧ u.stb.clearing = none := by
  unfold State.rebooted
  extract_lets
  rename_i t _
  exact ⟨t, rfl, rfl, rfl, rfl, rfl, rfl, rfl⟩

theorem State.scanStudbook_duties {s : State} (h : s.stb.clearing = none) :
    s.scanStudbook.1.halter = s.halter ∧ s.scanStudbook.1.hif = s.hif ∧ s.scanStudbook.1.therm = s.therm := by
  unfold State.scanStudbook
  dsimp only
  split
  · obtain ⟨m, ws, hr, -⟩ := State.recorderFault_eq (s := { s with stb := { s.stb with
      faults := ((List.range 16).filterMap s.faultAt).map faultOf } }) 4 0 h
    rw [hr]
    exact ⟨rfl, rfl, rfl⟩
  · exact ⟨rfl, rfl, rfl⟩

theorem State.rebooted_halter_effect (s : State) : (s.rebooted true false).therm = s.therm ∧ (s.rebooted true false).clk = s.clk ∧
    (s.rebooted true false).halter = { s.halter with key := { s.halter.key with reqs := [] } } ∧ (s.rebooted true false).mem.sram = [] ∧
    (s.rebooted true false).hif.flights = [] := by
  obtain ⟨u, hu, htherm, hclk, hhalter, hsram, hflights, hclear⟩ := s.rebooted_halter
  obtain ⟨hwh, hwf, hwc⟩ := u.loadWeighbridge_duties
  obtain ⟨hsh, hsf, hst⟩ := State.scanStudbook_duties (hwc.trans hclear)
  obtain ⟨hch, hcf, -⟩ := u.loadWeighbridge.scanStudbook.1.loadCalibration_duties
  obtain ⟨hkh, hkf, -⟩ := u.loadWeighbridge.scanStudbook.1.loadCalibration.loadCheckpoint_duties
  rw [hu]
  refine ⟨?_, ?_, ?_, ?_, ?_⟩
  · rw [(State.loadCheckpoint_therm _).1, (State.loadCalibration_therm _).1, hst, (State.loadWeighbridge_therm _).1, htherm]
  · rw [State.loadCheckpoint_clk, State.loadCalibration_clk, State.scanStudbook_clk, State.loadWeighbridge_clk, hclk]
  · rw [hkh, hch, hsh, hwh, hhalter]
  · rw [(State.loadCheckpoint_stores _).1, (State.loadCalibration_stores _).1, u.loadWeighbridge.scanStudbook_power.2,
      (State.loadWeighbridge_stores _).1, hsram]
  · rw [hkf, hcf, hsf, hwf, hflights]

/-- A shut-down that has cooled for a second: the boot ROM's start, with no vote left and the thermal detail gone (16 R435). -/
theorem exec_thermalRestart {t0 : Nat} {s : State} (hshut : s.therm.shutDown = true) (hc : s.therm.coolSince = some t0)
    (h : t0 + 64000000 ≤ s.now) : ∃ u, exec .thermalRestart s = answer s u ∧
      u.pwr.wake = some ⟨1, 10, false, true, true, s.clk.rtcTicks⟩ ∧ u.therm =
        { s.therm with shutDown := false, coolSince := none, sensor := s.therm.sensor.each (fun _ x => { x with vote := false }) } ∧
      u.evt.th.getLsbD 4 = true ∧ u.clk = s.clk ∧
      u.halter = { s.halter with
        key := { s.halter.key with reqs := [] }
        present := s.halter.present.put (detailPlace .thermal) 0 } ∧
      u.mem.sram = [] ∧ u.hif.flights = [] := by
  obtain ⟨htherm, hclk, hhalter, hsram, hflights⟩ := s.rebooted_halter_effect
  have hcool : (s.therm.shutDown && (match s.therm.coolSince with | some t => decide (t + ticksPerS ≤ s.now) | none => false)) = true := by
    have hle : t0 + ticksPerS ≤ s.now := h
    simp [hshut, hc, hle]
  have hx : exec .thermalRestart s = execThermalRestart s := rfl
  unfold execThermalRestart at hx
  dsimp only at hx
  replace hx := hx.trans (congrArg (answer s) (if_pos hcool))
  generalize s.rebooted true false = r at htherm hclk hhalter hsram hflights hx
  obtain ⟨v, hv⟩ : ∃ v, State.clearDetail ((State.onTherm { r with isl := { r.isl with mem := false } } (fun t => { t with
    shutDown := false, coolSince := none, sensor := t.sensor.each (fun _ x => { x with vote := false }) })).thEvent 4) .thermal = v := ⟨_, rfl⟩
  have hfacts : v.therm = { r.therm with
        shutDown := false, coolSince := none, sensor := r.therm.sensor.each (fun _ x => { x with vote := false }) } ∧
      v.evt.th.getLsbD 4 = true ∧ v.clk = r.clk ∧ v.halter = { r.halter with present := r.halter.present.put (detailPlace .thermal) 0 } ∧
      v.mem = r.mem ∧ v.hif = r.hif := by
    rw [← hv]
    exact ⟨rfl, setBit_getLsbD_self _ (by decide), rfl, rfl, rfl, rfl⟩
  obtain ⟨hvt, hvbit, hvclk, hvh, hvmem, hvhif⟩ := hfacts
  rw [hv] at hx
  obtain ⟨b, e, x, k, h1, he1⟩ := v.thermalRecord_eq_with (clusterOf s.therm.shutBy) 7 (some s.therm.shutBy)
  rw [h1] at hx
  obtain ⟨w, hw⟩ : ∃ w : State, { v with stb := b, evt := e, cross := x, free := k } = w := ⟨_, rfl⟩
  have hwfacts : w.therm = v.therm ∧ w.evt.th = v.evt.th ∧ w.clk = v.clk ∧ w.halter = v.halter ∧ w.mem = v.mem ∧ w.hif = v.hif := by
    rw [← hw]
    exact ⟨rfl, he1, rfl, rfl, rfl, rfl⟩
  rw [hw] at hx
  obtain ⟨hwt, hwth, hwclk, hwh, hwmem, hwhif⟩ := hwfacts
  obtain ⟨b2, e2, x2, k2, h2, he2⟩ := w.thermalRecord_eq_with (clusterOf s.therm.shutBy) 8 none
  rw [h2] at hx
  obtain ⟨o, ho⟩ := State.ask_eq_with ((State.onPwr { w with stb := b2, evt := e2, cross := x2, free := k2 } (fun p => { p with
    wake := some { step := 1, src := 10, check := false, boot := true, loud := true, since := w.clk.rtcTicks } }))) .wake
  refine ⟨_, hx.trans (congrArg (answer s) ho), ?_, hwt.trans (hvt.trans (by rw [htherm])), ?_, hwclk.trans (hvclk.trans hclk), ?_, ?_, ?_⟩
  · show some _ = some _
    rw [hwclk, hvclk, hclk]
  · show e2.th.getLsbD 4 = true
    rw [he2, hwth]
    exact hvbit
  · exact hwh.trans (hvh.trans (by rw [hhalter]))
  · exact (congrArg Mem.sram (hwmem.trans hvmem)).trans hsram
  · exact (congrArg Hif.flights (hwhif.trans hvhif)).trans hflights

theorem Halter.has_cleared (h : Halter) (d : Detail) (v : Nat) (key : Rstk) :
    ({ h with key := key, present := h.present.put (detailPlace d) 0 } : Halter).has d v = false := by
  simp [Halter.has]

/-- Settles O52. -/
theorem sensorsThrottleAndShutDown : Obligations.SensorsThrottleAndShutDown := by
  unfold Obligations.SensorsThrottleAndShutDown
  refine ⟨fun x s hrun hcal hlo hhi hf => sensorReadingCheck_clause hrun hcal hlo hhi hf, fun n t0 s hrun hf hd hlate => ?_,
    fun n s hd hlo hhi => ?_, fun n lo hi s hrun hlt hlo hhi hclo hchi h => ?_, fun n m s hc hf => ?_, fun s hrun h => ?_,
    fun c s hrun h => ?_, fun s => ?_, fun n s hrun hf => ⟨fun h => ?_, fun m hne hc hvote hshut => ?_⟩, fun n s hf => ?_,
    fun t0 s hshut hcool => ⟨fun h => ?_, fun h => ?_⟩⟩
  case refine_1 =>
    refine answers_of_exec (exec_sensorFail_late hrun hd hlate) ?_
    simp only [eventInterrupt_frame]
    exact State.failSensor_effect hf
  case refine_2 => exact answers_of_exec_of_evt_eq (exec_sensorFail_sound hd hlo hhi) rfl rfl
  case refine_3 =>
    have hx := exec_offsetLearning s
    rw [if_pos hrun] at hx
    have hn := Therm.learned_of_healthy (neighbours_eq hlt hlo hhi hclo hchi) h
    exact answers_of_exec_of_evt_eq hx rfl ⟨(congrArg Sensor.ofsLo hn).trans (learn_eq _ _ _), (congrArg Sensor.ofsHi hn).trans (learn_eq _ _ _),
      (congrArg Sensor.reading hn :), rfl, rfl⟩
  case refine_4 =>
    have hx := exec_offsetLearning s
    cases hrun : s.sensorsRun with
    | true =>
      rw [if_pos hrun] at hx
      exact answers_of_exec_of_evt_eq hx rfl (Therm.learned_of_failed hc hf)
    | false =>
      rw [if_neg (by simp [hrun])] at hx
      exact answers_of_exec_of_evt_eq hx rfl rfl
  case refine_5 =>
    have hnone : (places 4).any (fun c => decide (2 ≤ s.therm.failedIn c)) = false :=
      List.any_eq_false.mpr fun c _ => by have := h c; simp; omega
    have hx := exec_throttleLevelUpdate hrun
    rw [if_neg (by rw [hnone]; decide), Nat.zero_max] at hx
    exact answers_of_exec_of_evt_eq hx rfl rfl
  case refine_6 =>
    have hany : (places 4).any (fun c => decide (2 ≤ s.therm.failedIn c)) = true :=
      List.any_eq_true.mpr ⟨c, List.mem_finRange c, decide_eq_true h⟩
    have hx := exec_throttleLevelUpdate hrun
    rw [if_pos hany] at hx
    exact answers_of_exec_of_evt_eq hx rfl (Nat.le_max_left _ _)
  case refine_7 => exact answers_of_exec_of_evt_eq rfl rfl rfl
  case refine_8 =>
    have hx := exec_comparatorVote hrun (Therm.failedIn_eq_zero.mp hf n rfl)
    obtain ⟨u, hu⟩ : ∃ u : Therm, { s.therm with sensor := s.therm.sensor.upd n (fun x => { x with vote := true }) } = u := ⟨_, rfl⟩
    have hat := fun m => s.therm.vote_at n m
    have hcalls : u.calls (clusterOf n) = false := by
      rw [← hu]
      refine Therm.calls_one (Therm.failedIn_eq_zero.mpr fun m hm => ?_) fun m hm hc => ?_
      · rw [(hat m).1, Therm.failedIn_eq_zero.mp hf m hm]
      · rw [(hat m).2, if_neg hm, h m hm hc]
    rw [hu] at hx
    rw [hu]
    exact answers_of_exec_of_evt_eq (hx.trans (congrArg (answer s) (if_neg (by simp [hcalls])))) rfl rfl
  case refine_9 =>
    have hx := exec_comparatorVote hrun (Therm.failedIn_eq_zero.mp hf n rfl)
    obtain ⟨u, hu⟩ : ∃ u : Therm, { s.therm with sensor := s.therm.sensor.upd n (fun x => { x with vote := true }) } = u := ⟨_, rfl⟩
    have hat := fun m => s.therm.vote_at n m
    have hcalls : u.calls (clusterOf n) = true := by
      rw [← hu]
      refine Therm.calls_two (m := m) (Therm.failedIn_eq_zero.mpr fun m hm => ?_) hne hc ?_ ?_
      · rw [(hat m).1, Therm.failedIn_eq_zero.mp hf m hm]
      · rw [(hat n).2, if_pos rfl]
      · rw [(hat m).2, if_neg hne, hvote]
    have hushut : u.shutDown = false := by rw [← hu]; exact hshut
    have hucnt : u.shutCnt = s.therm.shutCnt := by rw [← hu]
    rw [hu] at hx
    obtain ⟨htherm, -, hisl, hsram, hhas, hphase, hwake, hpend⟩ := State.shutDown_effect (s := { s with therm := u }) n hushut
    refine answers_of_exec (hx.trans (congrArg (answer s) (if_pos hcalls))) ?_
    simp only [eventInterrupt_frame, htherm, hisl]
    exact ⟨trivial, trivial, by rw [hucnt], trivial, trivial, trivial, trivial, trivial, trivial, fun p => Bank.at_fill _ _, trivial, trivial, hsram,
      hhas, hphase, hwake, hpend⟩
  case refine_10 => exact answers_of_exec_of_evt_eq (exec_comparatorVote_failed hf) rfl rfl
  case refine_11 => exact answers_of_exec_of_evt_eq (exec_thermalRestart_early hcool h) rfl rfl
  case refine_12 =>
    obtain ⟨u, hx, hwake, htherm, hbit, hclk, hhalter, hsram, hflights⟩ := exec_thermalRestart hshut hcool h
    refine answers_of_exec hx ?_
    simp only [eventInterrupt_frame, hwake, htherm, hbit, hclk, hhalter, hsram, hflights]
    exact ⟨trivial, trivial, trivial, trivial, s.halter.has_cleared .thermal 0 _, trivial, trivial, trivial, fun n => by simp⟩

end Sys2Proof.Machine
end

section
/-! SUPPORT. Packages as byte strings, and a configuration package of one record (18 R453, R460, R461). -/

namespace Sys2Proof.Machine

open Sys2Proof Sys2Proof.Machine

-- Fields of byte strings (18 R453).

theorem field_append_right {a b : List Byte} {off n : Nat} (h : a.length ≤ off) : field (a ++ b) off n = field b (off - a.length) n := by
  rw [field, field, List.drop_append, List.drop_eq_nil_of_le h, List.nil_append]

theorem field_leBytes (n v : Nat) (b : List Byte) : field (leBytes n v ++ b) 0 n = v % 256 ^ n := by
  rw [field, List.drop_zero, List.take_left' (Laws.leBytes_length n v), leNat_leBytes]

/-- A package: its head, and the rest. -/
def packageOf (kind seq : Nat) (rest : List Byte) : List Byte := leBytes 4 kind ++ leBytes 4 seq ++ devDigest ++ rest

theorem headBytes_length (kind seq : Nat) : (leBytes 4 kind ++ leBytes 4 seq ++ devDigest).length = 16 := by
  simp [Laws.leBytes_length, Laws.devDigest_length]

theorem packageOf_length (kind seq : Nat) (rest : List Byte) : (packageOf kind seq rest).length = 16 + rest.length := by
  rw [packageOf, List.length_append, headBytes_length]

theorem packageOf_drop (kind seq : Nat) (rest : List Byte) (k : Nat) : (packageOf kind seq rest).drop (16 + k) = rest.drop k := by
  rw [packageOf, List.drop_append, List.drop_eq_nil_of_le (by rw [headBytes_length]; omega), headBytes_length, List.nil_append,
    Nat.add_sub_cancel_left]

theorem packageOf_field (kind seq : Nat) (rest : List Byte) (k n : Nat) : field (packageOf kind seq rest) (16 + k) n = field rest k n := by
  rw [field, packageOf_drop, field]

theorem packageOf_zero (kind seq : Nat) (rest : List Byte) (k l : Nat) :
    zeroBytes (packageOf kind seq rest) (16 + k) (16 + l) = zeroBytes rest k l := by
  rw [zeroBytes, packageOf_drop, zeroBytes, Nat.add_sub_add_left]

theorem packageOf_seq {seq : Nat} (kind : Nat) (rest : List Byte) (h : seq < 2 ^ 32) : field (packageOf kind seq rest) 4 4 = seq := by
  rw [packageOf, List.append_assoc, List.append_assoc, field_append_right (Nat.le_of_eq (Laws.leBytes_length _ _)), Laws.leBytes_length, Nat.sub_self,
    field_leBytes]
  exact Nat.mod_eq_of_lt h

theorem packageOf_kind {kind : Nat} (seq : Nat) (rest : List Byte) (h : kind < 2 ^ 32) : field (packageOf kind seq rest) 0 4 = kind := by
  rw [packageOf, List.append_assoc, List.append_assoc, field_leBytes]
  exact Nat.mod_eq_of_lt h

theorem packageOf_head {kind : Nat} (seq : Nat) (rest : List Byte) (h : kind < 2 ^ 32) : packageHead kind (packageOf kind seq rest) = true := by
  have hlen : (leBytes 4 kind ++ leBytes 4 seq).length = 8 := by simp [Laws.leBytes_length]
  rw [packageHead, packageOf_kind seq rest h, packageOf, List.append_assoc, List.drop_left' hlen, List.take_left' Laws.devDigest_length]
  simp

-- A configuration package of one record (18 R460, R461).

/-- The record of a package, with its header. -/
def oneRecord (kind : Nat) (body : List Byte) : List Byte := leBytes 1 kind ++ leBytes 3 0 ++ leBytes 4 8 ++ body

/-- What follows the head of an unsigned package of one record. -/
def oneRecordRest (kind : Nat) (body : List Byte) : List Byte := leBytes 2 1 ++ leBytes 14 0 ++ oneRecord kind body

theorem oneRecord_length (kind : Nat) {body : List Byte} (h : body.length = 8) : (oneRecord kind body).length = 16 := by
  simp [oneRecord, Laws.leBytes_length, h]

theorem parseRecords_one_reserved {kind : Nat} {body : List Byte} (hk : kind < 256) (hl : recordLength kind = 0) :
    parseRecords 1 (oneRecord kind body) = none := by
  have hkind : field (oneRecord kind body) 0 1 = kind := by
    show (BitVec.ofNat 8 kind).toNat + 256 * 0 = kind
    rw [BitVec.toNat_ofNat]
    omega
  unfold parseRecords
  dsimp only
  rw [if_pos (by rw [hkind]; exact Or.inr (Or.inl hl))]

theorem parseRecords_one {kind : Nat} {body : List Byte} (hk : kind < 256) (hb : body.length = 8) (hl : recordLength kind = 8)
    (hi : recordIndexes kind = 1) : parseRecords 1 (oneRecord kind body) = some ([⟨kind, 0, body⟩], []) := by
  have hkind : field (oneRecord kind body) 0 1 = kind := by
    show (BitVec.ofNat 8 kind).toNat + 256 * 0 = kind
    rw [BitVec.toNat_ofNat]
    omega
  have hindex : field (oneRecord kind body) 1 1 = 0 := rfl
  have hres : field (oneRecord kind body) 2 2 = 0 := rfl
  have hlen : field (oneRecord kind body) 4 4 = 8 := rfl
  have hbody : ((oneRecord kind body).drop 8).take 8 = body := (congrArg (List.take 8) rfl).trans (List.take_of_length_le (Nat.le_of_eq hb))
  have hrest : (oneRecord kind body).drop (8 + 8) = [] := List.drop_eq_nil_of_le (Nat.le_of_eq (oneRecord_length kind hb))
  unfold parseRecords
  dsimp only
  rw [hkind, hindex, hl, if_neg (by rw [hi, hres, hlen, oneRecord_length kind hb]; omega), hbody, hrest]
  rfl

/-- A package of one record passes check 1 where its record does. -/
theorem State.packageRecords_one (s : State) {kind seq : Nat} {body : List Byte} (hk : kind < 256) (hb : body.length = 8)
    (hl : recordLength kind = 8) (hi : recordIndexes kind = 1) (h1 : kind ≠ 1) :
    s.packageRecords 48 (packageOf 0x501 seq (oneRecordRest kind body)) =
      if recordBodyOk ⟨kind, 0, body⟩ then some ([⟨kind, 0, body⟩], false) else none := by
  have hlen : (packageOf 0x501 seq (oneRecordRest kind body)).length = 48 := by
    simp [packageOf_length, oneRecordRest, Laws.leBytes_length, oneRecord_length kind hb]
  have hn : field (packageOf 0x501 seq (oneRecordRest kind body)) 0x10 2 = 1 := packageOf_field 0x501 seq _ 0 2
  have hsig : field (packageOf 0x501 seq (oneRecordRest kind body)) 0x12 2 = 0 := packageOf_field 0x501 seq _ 2 2
  have hzero : zeroBytes (packageOf 0x501 seq (oneRecordRest kind body)) 0x14 0x20 = true := packageOf_zero 0x501 seq _ 4 16
  have hdrop : (packageOf 0x501 seq (oneRecordRest kind body)).drop 0x20 = oneRecord kind body := packageOf_drop 0x501 seq _ 16
  unfold State.packageRecords
  dsimp only
  rw [hlen, hn, hsig, hzero, hdrop, packageOf_head _ _ (by decide), if_neg (by decide), parseRecords_one hk hb hl hi]
  cases hok : recordBodyOk ⟨kind, 0, body⟩ <;> simp [lastCopies, hok, h1]

theorem State.packageRecords_reserved (s : State) {kind seq : Nat} {body : List Byte} (hk : kind < 256) (hl : recordLength kind = 0) :
    s.packageRecords 48 (packageOf 0x501 seq (oneRecordRest kind body)) = none := by
  have hn : field (packageOf 0x501 seq (oneRecordRest kind body)) 0x10 2 = 1 := packageOf_field 0x501 seq _ 0 2
  have hdrop : (packageOf 0x501 seq (oneRecordRest kind body)).drop 0x20 = oneRecord kind body := packageOf_drop 0x501 seq _ 16
  unfold State.packageRecords
  dsimp only
  rw [hn, hdrop, parseRecords_one_reserved hk hl]
  exact ite_self _

end Sys2Proof.Machine
end

section
/-! SUPPORT. The configuration as it is read, and CONFIG_LOAD (18 R461, R462). -/

namespace Sys2Proof.Machine

open Sys2Proof Sys2Proof.Machine

/-- Bytes stored within one codeword outside the reserved regions read back (01 R31; 11 R339). -/
theorem Mem.mramBytes_storeBytes_within (m : Mem) (now : Nat) {addr : Nat} {bytes : List Byte} (hne : bytes ≠ [])
    (hfit : addr % 16 + bytes.length ≤ 16) (hregion : ∀ a, addr / 16 * 16 ≤ a → a < addr / 16 * 16 + 16 → regionOf a ≠ .reserved) :
    (m.storeBytes now addr bytes).mramBytes addr bytes.length = bytes := by
  have hword : addr - addr % 16 = addr / 16 * 16 := by omega
  have hstore : m.storeBytes now addr bytes = m.store now (addr / 16 * 16) (addr % 16) bytes := by
    have htake : bytes.take (16 - addr % 16) = bytes := List.take_of_length_le (by omega)
    have hdrop : bytes.drop (16 - addr % 16) = [] := List.drop_eq_nil_of_le (by omega)
    simp [Mem.storeBytes, Mem.storeAll, hne, htake, hdrop, hword]
  have hlen : (m.mramBytes (addr / 16 * 16) 16).length = 16 := Mem.mramBytes_length _ _ _
  rw [hstore]
  refine List.ext_getElem (by simp) fun i hi hib => ?_
  have hmod : (addr + i) % 16 = addr % 16 + i := by omega
  rw [Mem.mramBytes_getElem, Mem.mramByte_store (addr := addr / 16 * 16) (by omega) (hregion _ (Nat.le_refl _) (by omega))
    (hregion _ (by omega) (by omega)), hmod]
  have hhead : (slice (m.mramBytes (addr / 16 * 16) 16) 0 (addr % 16)).length = addr % 16 := padTo_length _ _
  rw [padTo, slice, List.getD_eq_getElem?_getD, List.getElem?_append_left (by simp [splice, hhead]; omega), List.drop_zero, splice, List.append_assoc,
    List.getElem?_take, if_pos (by omega), List.getElem?_append_right (by omega), hhead, Nat.add_sub_cancel_left,
    List.getElem?_append_left hib, List.getElem?_eq_getElem hib]
  rfl

-- The configuration as it is read (18 R462).

theorem flatMap_length_of {α : Type} {l : List α} {f : α → List Byte} {k : Nat} (h : ∀ a ∈ l, (f a).length = k) :
    (l.flatMap f).length = l.length * k := by
  induction l with
  | nil => simp
  | cons a l ih =>
    rw [List.flatMap_cons, List.length_append, h a (List.mem_cons_self ..), ih fun b hb => h b (List.mem_cons_of_mem _ hb), List.length_cons]
    rw [Nat.succ_mul, Nat.add_comm]

theorem sBytes_length (n : Nat) (v : Int) : (sBytes n v).length = n := Laws.leBytes_length n _

theorem places_length (n : Nat) : (places n).length = n := List.length_finRange

/-- Each record in force has the length of its kind. -/
theorem State.recordBody_length {s : State} (hw : s.wb.recPend = none) {p : Nat × Nat} (hp : p ∈ recordPlaces) :
    (s.recordBody p.1 p.2).length = recordLength p.1 := by
  have hwb : (s.wb.record.flatMap (fun r => leBytes 2 r.1 ++ leBytes 2 r.2)).length = 16 := by
    rw [flatMap_length_of (k := 4) fun r _ => by simp [Laws.leBytes_length], Wb.record, hw]
    simp [places]
  have hstr (i : Fin 4) : (s.strs.at i).cfg.bytes.length = 64 := padTo_length _ _
  have hpub : s.pub.cfg.bytes.length = 8 := padTo_length _ _
  have hhalt : s.halter.cfg.bytes.length = 128 := by
    rw [HaltRec.bytes, List.length_append, padTo_length, flatMap_length_of (k := 8) fun n _ => by
      simp [SinRec.bytes, Laws.leBytes_length, bvBytes_length], places_length]
  have hsnap (l : List SnapEntry) : (snapBytes l).length = 96 := padTo_length _ _
  have hword (r : PairRec) : r.bytes.length = 4 := Laws.leBytes_length _ _
  have hstb : s.stb.cfg.bytes.length = 832 := by
    rw [StbRec.bytes, List.length_append, List.length_append, padTo_length, padTo_length,
      flatMap_length_of (k := 96) fun l _ => hsnap _, places_length]
  have hpair : ((places 8).flatMap (fun p => (s.pairs.at p).cfg.bytes)).length = 32 := by
    rw [flatMap_length_of (k := 4) fun p _ => hword _, places_length]
  have hpwr : s.pwr.cfg.bytes.length = 8 := by simp [PwrRec.bytes, Laws.leBytes_length, bvBytes_length, sBytes_length]
  have hboot : s.pctl.bootBytes.length = 8 := padTo_length _ _
  have hcan (i : Fin 4) : (s.net.can.at i).bytes.length = 16 := padTo_length _ _
  have heth (i : Fin 2) : ((s.net.eth.at i).bytes i).length = 16 := padTo_length _ _
  have hall : ∀ p ∈ recordPlaces, (s.recordBody p.1 p.2).length = recordLength p.1 := by
    simp [recordPlaces, State.recordBody, recordLength, *]
  exact hall p hp

theorem State.configBytes_length {s : State} (hw : s.wb.recPend = none) : s.configBytes.length = 1552 := by
  have hrec : s.configRecords.length = (recordPlaces.map (fun p => 8 + recordLength p.1)).sum := by
    rw [State.configRecords, List.length_flatMap]
    refine congrArg List.sum (List.map_congr_left fun p hp => ?_)
    simp [recordBytesOf, Laws.leBytes_length, State.recordBody_length hw hp]
    omega
  rw [State.configBytes, List.length_append, padTo_length, hrec]
  rfl

theorem exec_configRead {c : Cmd} {f : Flight} {s : State} (h : Executing s c f) (hop : opField c 8 8 % 16 = 0) :
    exec (.configRead c) s = answer s (((s.executing c).toHost (opField c 8 8) s.configBytes).ok c (dwords 1552 0 0 0)) := by
  have hx : exec (.configRead c) s = execConfigRead c s := rfl
  rw [hx]
  unfold execConfigRead
  rw [run_executing h, if_pos (by simp [aligned16, hop])]
  rfl

theorem exec_attest {c : Cmd} {f : Flight} {s : State} (h : Executing s c f) (hop : opField c 0 8 % 16 = 0) :
    exec (.attest c) s = answer s (((s.executing c).toHost (opField c 0 8)
      (s.quoteBody (opField c 0x10 16) ++ deviceSign (s.quoteBody (opField c 0x10 16)))).ok c (dwords 464 0 0 0)) := by
  have hx : exec (.attest c) s = execAttest c s := rfl
  rw [hx]
  unfold execAttest
  rw [run_executing h, if_pos (by simp [aligned16, hop])]
  rfl

@[simp] theorem State.studbook_evt_sec (s : State) (t : BitVec 6) (n : Nat) (d : List Byte) : (s.studbook t n d).evt.sec = s.evt.sec := by
  unfold State.studbook State.recorderTakes
  dsimp only
  repeat' split
  all_goals rfl

-- CONFIG_LOAD (18 R461).

theorem exec_configLoad {c : Cmd} {f : Flight} {s : State} (h : Executing s c f) (pkg : List Byte) :
    exec (.configLoad c pkg) s = answer s (configLoad c pkg (s.executing c)) := by
  have hx : exec (.configLoad c pkg) s = execConfigLoad c pkg s := rfl
  rw [hx]
  unfold execConfigLoad
  rw [run_executing h]

theorem configLoad_badOperand {c : Cmd} {pkg : List Byte} {s : State} (hop : opField c 0 8 % 16 = 0)
    (h : s.packageRecords (opField c 8 4) pkg = none) : configLoad c pkg s = s.badOperand c := by
  unfold configLoad
  dsimp only
  rw [if_neg (by simp [aligned16, hop]), h]

/-- An unsigned package of records that need a signature. -/
theorem configLoad_unsigned {c : Cmd} {pkg : List Byte} {s : State} {es : List CfgEntry} (hop : opField c 0 8 % 16 = 0)
    (h : s.packageRecords (opField c 8 4) pkg = some (es, false)) (hs : es.any (fun e => recordSigned e.kind) = true) :
    configLoad c pkg s = s.authFail c := by
  unfold configLoad
  dsimp only
  rw [if_neg (by simp [aligned16, hop]), h]
  dsimp only
  rw [if_pos (Or.inl ⟨hs, rfl⟩)]

/-- An old package of records that need no signature. -/
theorem configLoad_old {c : Cmd} {pkg : List Byte} {s : State} {es : List CfgEntry} (hop : opField c 0 8 % 16 = 0)
    (h : s.packageRecords (opField c 8 4) pkg = some (es, false)) (hs : es.any (fun e => recordSigned e.kind) = false)
    (hold : field pkg 4 4 ≤ s.sec.cfgSeq.toNat) : configLoad c pkg s = s.refuse c 0x0D04 := by
  unfold configLoad
  dsimp only
  rw [if_neg (by simp [aligned16, hop]), h]
  dsimp only
  rw [if_neg (by simp [hs]), if_pos hold]

/-- The power block once a power record applies. -/
def Pwr.configured (p : Pwr) (body : List Byte) : Pwr :=
  if body = p.cfg.bytes then p
  else { p with cfg := pwrRecOf body, wakeEn := (pwrRecOf body).wakeEn, wakeKeep := (pwrRecOf body).wakeEn }

theorem State.sameRecord_pwr (s : State) (body : List Byte) : s.sameRecord ⟨7, 0, body⟩ = decide (body = s.pwr.cfg.bytes) := by
  rw [Bool.eq_iff_iff]
  simp [State.sameRecord, State.recordBody]

theorem State.applyRecord_pwr (s : State) (body : List Byte) : s.applyRecord ⟨7, 0, body⟩ = { s with pwr := s.pwr.configured body } := by
  unfold State.applyRecord Pwr.configured
  rw [State.sameRecord_pwr]
  by_cases h : body = s.pwr.cfg.bytes
  · rw [if_pos (decide_eq_true h), if_pos h]
  · rw [if_neg (by simp [h]), if_neg h]
    rfl

theorem State.recordRefusal_pwr (s : State) (es : List CfgEntry) (body : List Byte) : s.recordRefusal es ⟨7, 0, body⟩ = none := by
  unfold State.recordRefusal
  exact ite_self _

/-- A new package of a power record: it is in force at once, and its command waits for the bytes in MRAM (15 R425; 18 R461). -/
theorem configLoad_pwr {c : Cmd} {pkg body : List Byte} {s : State} (hop : opField c 0 8 % 16 = 0)
    (h : s.packageRecords (opField c 8 4) pkg = some ([⟨7, 0, body⟩], false)) (hnew : s.sec.cfgSeq.toNat < field pkg 4 4) :
    ∃ b e x w, configLoad c pkg s = { s with
      pwr := s.pwr.configured body
      mem := s.mem.storeBytes s.now (recordAt 7 0) body
      sec := { s.sec with cfgSeq := BitVec.ofNat 32 (field pkg 4 4), waits := s.sec.waits ++ [w] }
      stb := b, evt := e, cross := x } ∧ e.sec.getLsbD 0 = true ∧ w.cmd = c := by
  have hnone : [(⟨7, 0, body⟩ : CfgEntry)].findSome? (fun e => s.recordRefusal [⟨7, 0, body⟩] e) = none := by
    simp [State.recordRefusal_pwr]
  unfold configLoad
  extract_lets seq
  rw [if_neg (by simp [aligned16, hop]), h]
  dsimp -zeta only
  rw [if_neg (by simp [recordSigned]), if_neg (by unfold seq; omega), hnone]
  dsimp -zeta only
  extract_lets s1 s2 _ _ s3 digest s4 addrs s5
  have h2 : s2 = { s with pwr := s.pwr.configured body } := s.applyRecord_pwr body
  have h3 : s3 = { s2 with sec := { s2.sec with cfgSeq := BitVec.ofNat 32 seq }, evt := { s2.evt with sec := setBit s2.evt.sec 0 } } := rfl
  rw [h2] at h3
  have h4 : s4 = { s3 with mem := s3.mem.storeBytes s3.now (recordAt 7 0) body } := rfl
  obtain ⟨b, e, x, hbook⟩ := s4.studbook_eq_with 0x04 7
    (leBytes 4 seq ++ leBytes 1 0 ++ leBytes 1 (bit false) ++ [0, 0] ++ digest.take 8)
  have h5 : s5 = { s4 with stb := b, evt := e, cross := x } := hbook
  have hbit : e.sec.getLsbD 0 = true := by
    have he : e.sec = s4.evt.sec := (congrArg (fun t : State => t.evt.sec) hbook).symm.trans (State.studbook_evt_sec _ _ _ _)
    rw [he, h4, h3]
    exact setBit_getLsbD_self _ (by decide)
  refine ⟨b, e, x, { cmd := c, addrs := addrs, result := dwords (field pkg 0x10 2) (field digest 0 4) 0 0 }, ?_, hbit, rfl⟩
  have hlast : (_ : State) = { s5 with sec := { s5.sec with
    waits := s5.sec.waits ++ [{ cmd := c, addrs := addrs, result := dwords (field pkg 0x10 2) (field digest 0 4) 0 0 }] } } := rfl
  refine hlast.trans ?_
  rw [h5, h4, h3]
  rfl

end Sys2Proof.Machine
end

section
/-! SUPPORT. Configuration packages, the quote and the owner key (18 R461, R462, R464, R465). -/

namespace Sys2Proof.Machine

open Sys2Proof Sys2Proof.Machine

-- OWNER_KEY (18 R464).

/-- What follows the head of an OWNER_KEY package. -/
theorem ownerPackage_key (kind seq : Nat) (key : BitVec 256) (sig : List Byte) :
    BitVec.ofNat 256 (field (packageOf kind seq (leBytes 32 key.toNat ++ sig)) 0x10 32) = key := by
  have h : field (packageOf kind seq (leBytes 32 key.toNat ++ sig)) 0x10 32 = key.toNat :=
    (packageOf_field kind seq _ 0 32).trans ((field_leBytes _ _ _).trans (Nat.mod_eq_of_lt (by have := key.isLt; omega)))
  rw [h]
  exact BitVec.ofNat_toNat _ _

theorem ownerPackage_length (kind seq : Nat) (key : BitVec 256) {sig : List Byte} (h : sig.length = 64) :
    (packageOf kind seq (leBytes 32 key.toNat ++ sig)).length = 112 := by
  simp [packageOf_length, Laws.leBytes_length, h]

theorem exec_ownerKey {c : Cmd} {f : Flight} {s : State} (h : Executing s c f) (pkg : List Byte) :
    exec (.ownerKey c pkg) s = answer s (ownerKey c pkg (s.executing c)) := by
  have hx : exec (.ownerKey c pkg) s = execOwnerKey c pkg s := rfl
  rw [hx]
  unfold execOwnerKey
  rw [run_executing h]

/-- An OWNER_KEY package whose form is right: its KIND, its sequence and its key. -/
structure OwnerPackage (c : Cmd) (pkg : List Byte) (kind seq : Nat) (key : BitVec 256) : Prop where
  operand : opField c 8 4 = 112
  length  : pkg.length = 112
  aligned : opField c 0 8 % 16 = 0
  kind_   : field pkg 0 4 = kind
  range   : 0xA01 ≤ kind ∧ kind ≤ 0xA04
  head    : packageHead kind pkg = true
  seq_    : field pkg 4 4 = seq
  key_    : BitVec.ofNat 256 (field pkg 0x10 32) = key
  some_   : kind = 0xA04 ∨ key ≠ 0

/-- The checks of an OWNER_KEY package of right form, in their order, and what an accepted one does. -/
theorem ownerKey_checks {c : Cmd} {pkg : List Byte} {kind seq : Nat} {key : BitVec 256} (h : OwnerPackage c pkg kind seq key) (s : State) :
    ∃ d, ownerKey c pkg s =
      if kind = 0xA03 ∧ s.sec.service = none then s.refuse c 0x0D05
      else if packageSigned (s.ownerVerifier kind key) pkg = false then s.authFail c
      else if seq ≤ s.sec.ownerSeq.toNat then s.refuse c 0x0D04
      else if kind = 0xA01 ∧ s.sec.owner.isSome then s.refuse c 0x0D05
      else if kind = 0xA01 ∧ s.halter.key.press.isNone then s.refuse c 0x0D06
      else State.ok (State.studbook { s with
        sec := if kind = 0xA04 then { s.sec with service := if key = 0 then none else some key, ownerSeq := BitVec.ofNat 32 seq }
          else { s.sec with owner := some key, ownerSeq := BitVec.ofNat 32 seq }
        evt := { s.evt with sec := setBit s.evt.sec 1 } } 0x05 0x0A d) c (dwords seq 0 0 0) := by
  obtain ⟨hop, hlen, hal, hkind, hrange, hhead, hseq, hkey, hsome⟩ := h
  have hform : ¬ (opField c 8 4 ≠ 112 ∨ pkg.length ≠ 112 ∨ aligned16 (opField c 0 8) = false ∨ within 0xA01 0xA04 kind = false ∨
      packageHead kind pkg = false ∨ (kind ≠ 0xA04 ∧ key = 0)) := by
    simp only [hop, hlen, hhead, aligned16, hal, within, hrange, ne_eq, not_true_eq_false, false_or, Bool.true_eq_false, beq_self_eq_true,
      and_self, decide_true]
    rintro ⟨hne, hzero⟩
    exact hsome.elim hne (fun h => h hzero)
  refine ⟨leBytes 1 (kind % 256) ++ [0, 0, 0] ++ leBytes 4 seq ++
    (if key = 0 then List.replicate 8 0 else (sha512 (leBytes 32 key.toNat)).take 8), ?_⟩
  unfold ownerKey
  rw [hkind, hseq, hkey]
  exact if_neg hform

theorem ownerKey_zero {c : Cmd} {pkg : List Byte} {s : State} (hk : field pkg 0 4 ≠ 0xA04) (hkey : BitVec.ofNat 256 (field pkg 0x10 32) = 0) :
    ownerKey c pkg s = s.badOperand c := by
  unfold ownerKey
  rw [hkey]
  exact if_pos (Or.inr (Or.inr (Or.inr (Or.inr (Or.inr ⟨hk, rfl⟩)))))

/-- An unsigned or wrongly signed package ends AUTH_FAIL (18 R453). -/
theorem answers_authFail {i : Instr} {s : State} {c : Cmd} {f : Flight} (h : Executing s c f) (hi : exec i s = answer s ((s.executing c).authFail c)) :
    Answers i s fun t => Completes s t c f 0x30 0 ∧ t.evt.sec.getLsbD 2 = true ∧ t.pctl = s.pctl ∧ t.sec = s.sec := by
  refine answers_of_exec hi ?_
  have he : Ending s { s.executing c with evt := { s.evt with sec := setBit s.evt.sec 2 } } c f := h.ending.of_eq rfl rfl rfl
  refine ⟨(he.completes stAuthFail 0).eventInterrupt s, ?_⟩
  unfold State.authFail
  simp only [eventInterrupt_frame, State.complete_frame]
  exact ⟨setBit_getLsbD_self _ (by decide), rfl, rfl⟩

/-- A package that is accepted: the key is in force, the event is set, and the command ends with the sequence (18 R464). -/
theorem answers_ownerKey_taken {c : Cmd} {f : Flight} {pkg d : List Byte} {seq : Nat} {key : BitVec 256} {s : State} (h : Executing s c f)
    (hi : exec (.ownerKey c pkg) s = answer s (State.ok (State.studbook { s.executing c with
      sec := { s.sec with owner := some key, ownerSeq := BitVec.ofNat 32 seq }
      evt := { s.evt with sec := setBit s.evt.sec 1 } } 0x05 0x0A d) c (dwords seq 0 0 0))) :
    Answers (.ownerKey c pkg) s fun t => t.sec = { s.sec with owner := some key, ownerSeq := BitVec.ofNat 32 seq } ∧
      t.evt.sec.getLsbD 1 = true ∧ Completes s t c f 0x00 (dwords seq 0 0 0) := by
  obtain ⟨u, hu⟩ : ∃ u, { s.executing c with
      sec := { s.sec with owner := some key, ownerSeq := BitVec.ofNat 32 seq }
      evt := { s.evt with sec := setBit s.evt.sec 1 } } = u := ⟨_, rfl⟩
  have hfacts : u.sec = { s.sec with owner := some key, ownerSeq := BitVec.ofNat 32 seq } ∧ u.evt.sec = setBit s.evt.sec 1 ∧
      u.hif = (s.executing c).hif ∧ u.rings = (s.executing c).rings ∧ u.clk = s.clk := by
    rw [← hu]
    exact ⟨rfl, rfl, rfl, rfl, rfl⟩
  obtain ⟨hsec, hevt, hhif, hrings, hclk⟩ := hfacts
  rw [hu] at hi
  refine answers_of_exec hi ?_
  have he : Ending s (u.studbook 0x05 0x0A d) c f :=
    h.ending.of_eq (by simp only [State.studbook_frame]; exact hhif) (by simp only [State.studbook_frame]; exact hrings)
      (by simp only [State.studbook_frame]; exact congrArg Clk.ytime hclk)
  refine ⟨?_, ?_, (he.completes stSuccess (dwords seq 0 0 0)).eventInterrupt s⟩
  · simp only [eventInterrupt_frame, State.ok, State.complete_frame, State.studbook_frame, hsec]
  · simp only [eventInterrupt_frame, State.ok, State.complete_frame, State.studbook_evt_sec, hevt]
    exact setBit_getLsbD_self _ (by decide)

/-- A new package with a power record whose fields lie in their ranges (15 R425; 18 R461). -/
theorem configLoad_pwr_clause {c : Cmd} {f : Flight} {pkg body : List Byte} {seq : Nat} {s : State} (hexec : Executing s c f)
    (hop : opField c 0 8 % 16 = 0) (h : s.packageRecords (opField c 8 4) pkg = some ([⟨7, 0, body⟩], false)) (hseq : field pkg 4 4 = seq)
    (hbody : body.length = 8) (hnew : s.sec.cfgSeq.toNat < seq) : Answers (.configLoad c pkg) s fun t =>
      t.sec.cfgSeq = BitVec.ofNat 32 seq ∧ t.evt.sec.getLsbD 0 = true ∧ t.hif.flight c.stamp = some f ∧ t.rings = s.rings ∧
      t.sec.waits.map MramWait.cmd = s.sec.waits.map MramWait.cmd ++ [c] ∧ t.mramRead (recordAt 7 0) 8 = body ∧ t.strs = s.strs ∧
      t.halter = s.halter ∧
      (body ≠ s.pwr.cfg.bytes → t.pwr.cfg = pwrRecOf body ∧ t.pwr.wakeEn = (pwrRecOf body).wakeEn) ∧
      (body = s.pwr.cfg.bytes → t.pwr = s.pwr) := by
  have hx := exec_configLoad hexec pkg
  obtain ⟨b, e, x, w, hload, hbit, hw⟩ := configLoad_pwr (s := s.executing c) hop h (by rw [hseq]; exact hnew)
  rw [hload] at hx
  have hmem : (s.mem.storeBytes s.now (recordAt 7 0) body).mramBytes (recordAt 7 0) 8 = body := by
    have hat : recordAt 7 0 = 0x600568 := by decide
    have hread := Mem.mramBytes_storeBytes_within s.mem s.now (addr := recordAt 7 0) (bytes := body) (by rintro rfl; simp at hbody)
      (by omega) (fun a hlo hhi => by
        rw [hat] at hlo hhi
        rw [regionOf_config (by omega) (by omega)]
        exact Region.noConfusion)
    rwa [hbody] at hread
  refine answers_of_exec hx ?_
  simp only [eventInterrupt_frame]
  refine ⟨by rw [hseq], hbit, executing_flight_same hexec, rfl, ?_, ?_, rfl, rfl, fun hne => ?_, fun heq => ?_⟩
  · rw [List.map_append, List.map_singleton, hw]
    rfl
  · unfold State.mramRead
    simp only [eventInterrupt_frame]
    exact hmem
  · have hconf : (s.executing c).pwr.configured body = { s.pwr with
        cfg := pwrRecOf body, wakeEn := (pwrRecOf body).wakeEn, wakeKeep := (pwrRecOf body).wakeEn } := if_neg hne
    rw [hconf]
    exact ⟨rfl, rfl⟩
  · exact if_pos heq

/-- Settles O54. -/
theorem configurationQuoteAndOwnerKey : Obligations.ConfigurationQuoteAndOwnerKey := by
  unfold Obligations.ConfigurationQuoteAndOwnerKey
  refine ⟨fun c f s hexec hop => ?_, fun c f pkg body seq kind s hexec hop hlen hseq hbody hpkg => ?config, fun c f s hexec hop => ?_,
    fun c f pkg sig kind seq key s hexec hop hlen hseq hsig hpkg => ?owner⟩
  case refine_1 =>
    refine answers_of_complete (exec_configRead hexec hop) (hexec.ending.of_eq rfl rfl rfl) rfl fun t hc ht =>
      ⟨?_, fun hw => s.configBytes_length hw, hc, ?_⟩
    · rw [ht]
      rfl
    · rw [ht]
      rfl
  case config =>
    have hp : pkg = packageOf 0x501 seq (oneRecordRest kind body) := by
      rw [hpkg]
      simp only [packageOf, oneRecordRest, oneRecord, List.append_assoc]
    have hfield : field pkg 4 4 = seq := by rw [hp, packageOf_seq _ _ hseq]
    have hone : ∀ t : State, kind < 256 → recordLength kind = 8 → recordIndexes kind = 1 → kind ≠ 1 → t.packageRecords (opField c 8 4) pkg =
        if recordBodyOk ⟨kind, 0, body⟩ then some ([⟨kind, 0, body⟩], false) else none := fun t hk hl hi h1 => by
      rw [hlen, hp, t.packageRecords_one hk hbody hl hi h1]
    refine ⟨fun hk hok hnew => ?_, fun hk hok hold => ?_, fun hk hbad => ?_, fun hk => ?_, fun hk hb => ?_⟩
    · subst hk
      have hrec := (hone s (by decide) rfl rfl (by decide)).trans (if_pos hok)
      exact configLoad_pwr_clause hexec hop hrec hfield hbody hnew
    · subst hk
      have hrec := (hone (s.executing c) (by decide) rfl rfl (by decide)).trans (if_pos hok)
      have hx := exec_configLoad hexec pkg
      rw [configLoad_old hop hrec rfl (by rw [hfield]; exact hold)] at hx
      exact answers_only_complete hexec hx
    · subst hk
      have hrec := (hone (s.executing c) (by decide) rfl rfl (by decide)).trans (if_neg (by
        show ¬ pwrBodyOk body = true
        simp [hbad]))
      have hx := exec_configLoad hexec pkg
      rw [configLoad_badOperand hop hrec] at hx
      exact answers_badOperand hexec hx
    · have hk256 : kind < 256 := by omega
      have hl : recordLength kind = 0 := by
        unfold recordLength
        repeat rw [if_neg (by omega)]
      have hx := exec_configLoad hexec pkg
      rw [configLoad_badOperand hop (by rw [hlen, hp]; exact (s.executing c).packageRecords_reserved hk256 hl)] at hx
      exact answers_badOperand hexec hx
    · subst hk hb
      have hrec := (hone (s.executing c) (by decide) rfl rfl (by decide)).trans (if_pos (by decide))
      have hx := exec_configLoad hexec pkg
      rw [configLoad_unsigned hop hrec rfl] at hx
      exact answers_authFail hexec hx
  case refine_2 =>
    refine answers_of_complete (exec_attest hexec hop) (hexec.ending.of_eq rfl rfl rfl) rfl fun t hc ht => ⟨?_, hc, ?_⟩
    · rw [ht]
      rfl
    · rw [ht]
      rfl
  case owner =>
    have hp : pkg = packageOf kind seq (leBytes 32 key.toNat ++ sig) := by
      rw [hpkg]
      simp only [packageOf, List.append_assoc]
    have hkey : BitVec.ofNat 256 (field pkg 0x10 32) = key := by rw [hp, ownerPackage_key]
    have hx := exec_ownerKey hexec pkg
    have hlate : s.sec.ownerSeq.toNat < seq → ¬ seq ≤ (s.executing c).sec.ownerSeq.toNat := Nat.not_le.mpr
    have hform : 0xA01 ≤ kind → kind ≤ 0xA04 → (kind = 0xA04 ∨ key ≠ 0) → OwnerPackage c pkg kind seq key := fun hlo hhi hsome => by
      have hlt : kind < 2 ^ 32 := by omega
      exact ⟨hlen, by rw [hp, ownerPackage_length _ _ _ hsig], hop, by rw [hp, packageOf_kind _ _ hlt], ⟨hlo, hhi⟩,
        by rw [hp]; exact packageOf_head _ _ hlt, by rw [hp, packageOf_seq _ _ hseq], hkey, hsome⟩
    refine ⟨fun hk hne hsigned hnew => ⟨fun hown hpress => ?_, fun hown hpress => ?_, fun hown => ?_⟩, fun hk hne hsigned hnew => ?_,
      fun hk hne hunsigned => ?_, fun hk hne hservice => ?_, fun hk hlt hzero => ?_⟩
    · subst hk
      have hkeyed : (s.executing c).halter.key.press.isNone = false := Option.isNone_eq_false_iff.mpr hpress
      obtain ⟨d, hd⟩ := ownerKey_checks (hform (by decide) (by decide) (Or.inr hne)) (s.executing c)
      rw [hd, if_neg (fun h => absurd h.1 (by decide)), if_neg (fun h => Bool.noConfusion (h.symm.trans hsigned)), if_neg (hlate hnew),
        if_neg (fun h => by simp [State.executing, hown] at h), if_neg (fun h => Bool.noConfusion (hkeyed.symm.trans h.2)), if_neg (by decide)] at hx
      exact answers_ownerKey_taken hexec hx
    · subst hk
      obtain ⟨d, hd⟩ := ownerKey_checks (hform (by decide) (by decide) (Or.inr hne)) (s.executing c)
      rw [hd, if_neg (fun h => absurd h.1 (by decide)), if_neg (fun h => Bool.noConfusion (h.symm.trans hsigned)), if_neg (hlate hnew),
        if_neg (fun h => by simp [State.executing, hown] at h), if_pos (by simp [State.executing, hpress])] at hx
      exact answers_only_complete hexec hx
    · subst hk
      obtain ⟨d, hd⟩ := ownerKey_checks (hform (by decide) (by decide) (Or.inr hne)) (s.executing c)
      rw [hd, if_neg (fun h => absurd h.1 (by decide)), if_neg (fun h => Bool.noConfusion (h.symm.trans hsigned)), if_neg (hlate hnew), if_pos ⟨rfl, hown⟩] at hx
      exact answers_only_complete hexec hx
    · subst hk
      obtain ⟨d, hd⟩ := ownerKey_checks (hform (by decide) (by decide) (Or.inr hne)) (s.executing c)
      rw [hd, if_neg (fun h => absurd h.1 (by decide)), if_neg (fun h => Bool.noConfusion (h.symm.trans hsigned)), if_neg (hlate hnew),
        if_neg (fun h => absurd h.1 (by decide)), if_neg (fun h => absurd h.1 (by decide)), if_neg (by decide)] at hx
      exact answers_ownerKey_taken hexec hx
    · subst hk
      obtain ⟨d, hd⟩ := ownerKey_checks (hform (by decide) (by decide) (Or.inr hne)) (s.executing c)
      have hbad : packageSigned ((s.executing c).ownerVerifier 0xA02 key) pkg = false := hunsigned
      rw [hd, if_neg (fun h => absurd h.1 (by decide)), if_pos hbad] at hx
      exact (answers_authFail hexec hx).imp fun t ⟨hc, hevt, _, hsec⟩ => ⟨hsec, hevt, hc⟩
    · subst hk
      obtain ⟨d, hd⟩ := ownerKey_checks (hform (by decide) (by decide) (Or.inr hne)) (s.executing c)
      rw [hd, if_pos ⟨rfl, hservice⟩] at hx
      exact answers_only_complete hexec hx
    · rw [ownerKey_zero (by rw [hp, packageOf_kind _ _ hlt]; exact hk) (hkey.trans hzero)] at hx
      exact answers_badOperand hexec hx

end Sys2Proof.Machine
end

section
/-! SUPPORT. What a halter detail and an enumeration leave of the flights. -/

namespace Sys2Proof.Machine

theorem State.foldl_flights {α : Type} (l : List α) (f : State → α → State) (h : ∀ t a, t.hif.flights = [] → (f t a).hif.flights = [])
    {s : State} (hs : s.hif.flights = []) : (l.foldl f s).hif.flights = [] :=
  List.foldlRecOn l f (motive := fun t => t.hif.flights = []) hs fun t ht a _ => h t a ht

/-- What ends while nothing is in flight begins nothing. -/
@[simp] theorem State.complete_flights (s : State) (c : Cmd) (status : BitVec 8) (result : BitVec 128) (h : s.hif.flights = []) :
    (s.complete c status result).hif.flights = [] := by
  have hnone : s.hif.flight c.stamp = none := by simp [Hif.flight, h]
  unfold State.complete
  rw [hnone]
  simp [Hif.recordFinal, h]

@[simp] theorem State.ok_flights (s : State) (c : Cmd) (result : BitVec 128) (h : s.hif.flights = []) : (s.ok c result).hif.flights = [] := by
  simp [State.ok, h]

@[simp] theorem State.completeAll_flights (s : State) (cs : List Cmd) (status : BitVec 8) (result : BitVec 128) (h : s.hif.flights = []) :
    (s.completeAll cs status result).hif.flights = [] := by
  unfold State.completeAll
  exact State.foldl_flights _ _ (fun t a ht => by simp [ht]) h

@[simp] theorem State.settleMask_flights (s : State) (u : Fin 128) : (s.settleMask u).hif = s.hif := by
  unfold State.settleMask
  dsimp only
  split <;> simp

@[simp] theorem State.turnOn_flights (s : State) (ch : Fin 24) : (s.turnOn ch).hif = s.hif := by
  unfold State.turnOn
  dsimp only
  repeat' split
  all_goals simp

@[simp] theorem State.turnOff_flights (s : State) (ch : Fin 24) : (s.turnOff ch).hif = s.hif := by
  simp [State.turnOff]

@[simp] theorem State.settleOut_flights (s : State) (ch : Fin 24) : (s.settleOut ch).hif = s.hif := by
  unfold State.settleOut
  dsimp only
  repeat' split
  all_goals simp

@[simp] theorem State.command_flights (s : State) (ch : Fin 24) (on : Bool) : (s.command ch on).hif = s.hif := by
  simp [State.command]

@[simp] theorem State.strEvent_flights (s : State) (base : Nat) (str : Fin 4) : (s.strEvent base str).hif = s.hif := by
  simp [State.strEvent]

@[simp] theorem State.abortShunt_flights (s : State) (str : Fin 4) (h : s.hif.flights = []) : (s.abortShunt str).hif.flights = [] := by
  unfold State.abortShunt
  dsimp only
  split
  · exact h
  · refine State.foldl_flights _ _ (fun t c ht => State.complete_flights t c _ _ ht) ?_
    split <;> simp [h]

@[simp] theorem State.stopExcitation_flights (s : State) (str : Fin 4) : (s.stopExcitation str).hif = s.hif := by
  unfold State.stopExcitation
  split
  · refine (State.foldl_hif _ _ (fun t u => ?_) _).trans rfl
    rw [State.settleMask_flights]
    rfl
  · rfl

@[simp] theorem State.enterStr_flights (s : State) (str : Fin 4) (new : StrState) (cause : Nat) (stamp : BitVec 32) (h : s.hif.flights = []) :
    (s.enterStr str new cause stamp).hif.flights = [] := by
  unfold State.enterStr
  extract_lets old s1 s2 s3 s4 s5 s6 s7 s8
  have h3 : s3.hif.flights = [] := by
    unfold s3
    split <;> simpa [s2, s1] using h
  have h4 : s4.hif.flights = [] := by
    unfold s4
    split <;> simp [h3]
  have h5 : s5.hif.flights = [] := by
    unfold s5
    split <;> simp [h4]
  split
  · simpa [s8, s7, s6] using h5
  · exact h5

@[simp] theorem State.cmdContactor_flights (s : State) (str : Fin 4) (k : Fin 3) (on : Bool) : (s.cmdContactor str k on).hif = s.hif := by
  unfold State.cmdContactor
  dsimp only
  repeat' split
  all_goals simp

@[simp] theorem State.withdraw_flights (s : State) (str : Fin 4) : (s.withdraw str).hif = s.hif := by
  simp [State.withdraw]

@[simp] theorem State.closeRefused_flights (s : State) (str : Fin 4) (code d3 : Nat) (h : s.hif.flights = []) :
    (s.closeRefused str code d3).hif.flights = [] := by
  unfold State.closeRefused
  split <;> simp [h]

@[simp] theorem State.abortPrecharge_flights (s : State) (str : Fin 4) : (s.abortPrecharge str).hif = s.hif := by
  unfold State.abortPrecharge
  split <;> simp

@[simp] theorem State.countBreak_flights (s : State) (str : Fin 4) (i : Option Nat) : (s.countBreak str i).hif = s.hif := by
  unfold State.countBreak
  dsimp only
  repeat' split
  all_goals simp

@[simp] theorem State.openDone_flights (s : State) (str : Fin 4) (welded : Bool) (h : s.hif.flights = []) :
    (s.openDone str welded).hif.flights = [] := by
  unfold State.openDone
  exact State.foldl_flights _ _ (fun t (p : Cmd × Bool) ht => by simp [ht]) (by simp [h])

@[simp] theorem State.weldEval_flights (s : State) (str : Fin 4) (h : s.hif.flights = []) : (s.weldEval str).hif.flights = [] := by
  unfold State.weldEval
  dsimp only
  repeat' split
  all_goals simp [h]

@[simp] theorem State.weldedEval_flights (s : State) (str : Fin 4) : (s.weldedEval str).hif = s.hif := by
  unfold State.weldedEval
  split <;> simp

@[simp] theorem State.startWeldCheck_flights (s : State) (str : Fin 4) (cause : Nat) (stamp : BitVec 32) (h : s.hif.flights = []) :
    (s.startWeldCheck str cause stamp).hif.flights = [] := by
  simp [State.startWeldCheck, h]

@[simp] theorem State.weldPeers_flights (s : State) (h : s.hif.flights = []) : s.weldPeers.hif.flights = [] := by
  unfold State.weldPeers
  exact State.foldl_flights _ _ (fun t i ht => by simp [ht]) h

@[simp] theorem State.startOpening_flights (s : State) (str : Fin 4) (cause : Nat) (stamp : BitVec 32) (h : s.hif.flights = []) :
    (s.startOpening str cause stamp).hif.flights = [] := by
  simp [State.startOpening, h]

@[simp] theorem State.breakNow_flights (s : State) (str : Fin 4) (cause : Nat) (i : Option Nat) (h : s.hif.flights = []) :
    (s.breakNow str cause i).hif.flights = [] := by
  unfold State.breakNow
  extract_lets x released s1 s2 s3 s4 s5
  have h1 : s1.hif.flights = [] := by simp [s1, h]
  have h2 : s2.hif.flights = [] := by
    unfold s2
    repeat' split
    all_goals simp [h1]
  have h3 : s3.hif.flights = [] := by
    unfold s3
    split
    · exact h1
    · exact h2
  have h5 : s5.hif.flights = [] := by
    refine State.closeRefused_flights _ _ _ _ ?_
    exact h3
  exact State.weldPeers_flights _ (State.startWeldCheck_flights _ _ _ _ h5)

@[simp] theorem State.requestB_flights (s : State) (str : Fin 4) (cause : Nat) (h : s.hif.flights = []) :
    (s.requestB str cause).hif.flights = [] := by
  unfold State.requestB
  split <;> simp [h]

@[simp] theorem State.openAllA_flights (s : State) (cause : Nat) (h : s.hif.flights = []) : (s.openAllA cause).hif.flights = [] := by
  unfold State.openAllA
  exact State.foldl_flights _ _ (fun t str ht => by split <;> simp [ht]) h

@[simp] theorem State.sendEnables_flights (s : State) : s.sendEnables.hif = s.hif := by
  simp [State.sendEnables]

@[simp] theorem State.sendStatus_flights (s : State) (sent0 sent1 : Bool) : (s.sendStatus sent0 sent1).hif = s.hif := by
  unfold State.sendStatus
  repeat' split
  all_goals simp

@[simp] theorem State.hltEvent_flights (s : State) (n : Nat) : (s.hltEvent n).hif = s.hif := by
  simp [State.hltEvent]

@[simp] theorem State.lockOut_flights (s : State) (d : Detail) (w : Fin 16) (h : s.hif.flights = []) : (s.lockOut d w).hif.flights = [] := by
  simp [State.lockOut, h]

@[simp] theorem State.raiseDetail_flights (s : State) (d : Detail) (w : Fin 16) (h : s.hif.flights = []) :
    (s.raiseDetail d w).hif.flights = [] := by
  unfold State.raiseDetail
  dsimp only
  repeat' split
  all_goals simp [h]

@[simp] theorem State.sendLink_flights (s : State) (i : Fin 32) (k : LinkSlot) : (s.sendLink i k).hif = s.hif := by
  simp [State.sendLink]

@[simp] theorem State.sendBalance_flights (s : State) (u : Fin 128) : (s.sendBalance u).hif = s.hif := by
  simp [State.sendBalance]

@[simp] theorem State.driveMask_flights (s : State) (u : Fin 128) (m testArg : BitVec 16) : (s.driveMask u m testArg).hif = s.hif := by
  simp [State.driveMask]

@[simp] theorem State.releaseMask_flights (s : State) (u : Fin 128) : (s.releaseMask u).hif = s.hif := by
  simp [State.releaseMask]

@[simp] theorem State.sendRouting_flights (s : State) (u : Fin 128) (ch : Option Nat) : (s.sendRouting u ch).hif = s.hif := by
  simp [State.sendRouting]

@[simp] theorem State.resumeTest_flights (s : State) (u : Fin 128) : (s.resumeTest u).hif = s.hif := by
  unfold State.resumeTest
  repeat' split
  all_goals simp

@[simp] theorem State.stopRouting_flights (s : State) (u : Fin 128) : (s.stopRouting u).hif = s.hif := by
  unfold State.stopRouting
  repeat' split
  all_goals simp

@[simp] theorem State.endRun_flights (s : State) (u : Fin 128) (code : BitVec 4) (h : s.hif.flights = []) : (s.endRun u code).hif.flights = [] := by
  unfold State.endRun
  split <;> simp [h]

@[simp] theorem State.abortRun_flights (s : State) (u : Fin 128) (h : s.hif.flights = []) : (s.abortRun u).hif.flights = [] := by
  unfold State.abortRun
  split <;> simp [h]

@[simp] theorem State.integEvent_flights (s : State) (u : Fin 128) : (s.integEvent u).hif = s.hif := by
  simp [State.integEvent]

@[simp] theorem State.changeInvalid_flights (s : State) (u : Fin 128) (f : UnitInteg → UnitInteg) : (s.changeInvalid u f).hif = s.hif := by
  simp [State.changeInvalid]

@[simp] theorem State.onWire_flights (s : State) (u : Fin 128) (w : Fin 16) (f : WireHist → WireHist) : (s.onWire u w f).hif = s.hif := by
  simp [State.onWire]

@[simp] theorem State.wireRecord_flights (s : State) (u : Fin 128) (w : Fin 16) (outcome sw : Nat) : (s.wireRecord u w outcome sw).hif = s.hif := by
  simp [State.wireRecord]

@[simp] theorem State.confirmWire_flights (s : State) (u : Fin 128) (w : Fin 16) (outcome sw : Nat) :
    (s.confirmWire u w outcome sw).hif = s.hif := by
  simp [State.confirmWire]

@[simp] theorem State.clearWire_flights (s : State) (u : Fin 128) (w : Fin 16) : (s.clearWire u w).hif = s.hif := by
  unfold State.clearWire
  dsimp only
  split <;> simp

@[simp] theorem State.wireOutcome_flights (s : State) (u : Fin 128) (w : Fin 16) (out sw : Nat) : (s.wireOutcome u w out sw).hif = s.hif := by
  unfold State.wireOutcome
  dsimp only
  repeat' split
  all_goals simp

@[simp] theorem State.mendWire_flights (s : State) (u : Fin 128) (w : Fin 16) (sw : Nat) : (s.mendWire u w sw).hif = s.hif := by
  simp [State.mendWire]

@[simp] theorem State.commandOutcome_flights (s : State) (u : Fin 128) (mode : BitVec 8) (w : Fin 16) (out sw : Nat) :
    (s.commandOutcome u mode w out sw).hif = s.hif := by
  unfold State.commandOutcome
  repeat' split
  all_goals simp

@[simp] theorem State.endProbe_flights (s : State) (u : Fin 128) (q : Probe) (outs : List (Fin 16 × Nat × Nat)) (stopped : Bool)
    (h : s.hif.flights = []) : (s.endProbe u q outs stopped).hif.flights = [] := by
  unfold State.endProbe
  dsimp only
  repeat' split
  all_goals simp [h]

@[simp] theorem State.switchResult_flights (s : State) (u : Fin 128) (c : Fin 16) (out : BitVec 4) (h : s.hif.flights = []) :
    (s.switchResult u c out).hif.flights = [] := by
  unfold State.switchResult
  dsimp only
  repeat' split
  all_goals simp [h]

@[simp] theorem State.finishTest_flights (s : State) (u : Fin 128) (t : BalTest) (h : s.hif.flights = []) :
    (s.finishTest u t).hif.flights = [] := by
  unfold State.finishTest
  split <;> simp [h]

@[simp] theorem State.loseProbes_flights (s : State) (u : Fin 128) (h : s.hif.flights = []) : (s.loseProbes u).hif.flights = [] := by
  unfold State.loseProbes
  extract_lets none_ isCmd waiting _ s1 s2 s3
  have h1 : s1.hif.flights = [] := h
  have h2 : s2.hif.flights = [] := by
    unfold s2
    split
    next t _ =>
      have hfold := State.foldl_flights t.todo (fun s c => s.switchResult u c 5) (fun t c ht => by simp [ht]) h1
      dsimp only
      split
      · exact State.finishTest_flights _ _ _ hfold
      · exact State.finishTest_flights _ _ _ hfold
    · exact h1
  have h3 : s3.hif.flights = [] := by
    unfold s3
    split
    · simp [h2]
    · exact h2
  exact State.foldl_flights _ _ (fun t q ht => by simp [ht]) h3

@[simp] theorem State.loseUnit_flights (s : State) (u : Fin 128) (h : s.hif.flights = []) : (s.loseUnit u).hif.flights = [] := by
  unfold State.loseUnit
  dsimp only
  repeat' split
  all_goals simp [h]

@[simp] theorem State.startEnum_flights (s : State) (i : Fin 32) (cause : BitVec 4) (h : s.hif.flights = []) :
    (s.startEnum i cause).hif.flights = [] := by
  unfold State.startEnum
  dsimp only
  generalize hl : (unitsOf i).foldl (fun s u => (s.loseUnit u).onLink u (fun l => { l with
    foundType := 0, foundId := 0, segDelay := 0, delay := 0 })) s = r
  have hr : r.hif.flights = [] := by
    rw [← hl]
    refine State.foldl_flights _ _ (fun t u ht => ?_) h
    have hlose := State.loseUnit_flights t u ht
    generalize t.loseUnit u = v at hlose
    exact hlose
  exact hr

end Sys2Proof.Machine
end

section
/-! SUPPORT. Images, activation and the boot ROM (14 R391; 18 R456 to R459). -/

namespace Sys2Proof.Machine

open Sys2Proof Sys2Proof.Machine

-- IMAGE_WRITE (18 R459).

/-- The operands of an IMAGE_WRITE lie in their ranges. -/
structure ImageWriteForm (c : Cmd) (n : Bool) : Prop where
  image  : opByte c 0 = if n then 1 else 0
  offset : opField c 4 4 % 16 = 0
  least  : 16 ≤ opField c 0x10 4
  most   : opField c 0x10 4 ≤ 65536
  whole  : opField c 0x10 4 % 16 = 0
  fits   : opField c 4 4 + opField c 0x10 4 ≤ 0x600000

theorem exec_imageWrite {c : Cmd} {f : Flight} {s : State} (h : Executing s c f) (data : List Byte) :
    exec (.imageWrite c data) s = answer s (imageWrite c data (s.executing c)) := by
  have hx : exec (.imageWrite c data) s = execImageWrite c data s := rfl
  rw [hx]
  unfold execImageWrite
  rw [run_executing h]

theorem opByte_one_iff {c : Cmd} {n : Bool} (h : opByte c 0 = if n then 1 else 0) : (opByte c 0 == 1) = n := by
  rw [h]
  cases n <;> rfl

theorem imageWrite_form {c : Cmd} {n : Bool} (h : ImageWriteForm c n) (data : List Byte) (s : State) : imageWrite c data s =
    if s.runs n then s.refuse c 0x0D01 else { s with
      mem := s.mem.storeBytes s.now (codeBase n + opField c 4 4) (padTo (opField c 0x10 4) data)
      sec := { s.sec with
        img := s.sec.img.upd (imgPlace n) (fun i => { i with st := 0, digest := 0 })
        waits := s.sec.waits ++ [{ cmd := c, addrs := codewordsOf (codeBase n + opField c 4 4) (opField c 0x10 4), result := 0 }] } } := by
  obtain ⟨himage, hoff, hleast, hmost, hwhole, hfits⟩ := h
  have hform : ¬ (1 < opByte c 0 ∨ opField c 4 4 % 16 ≠ 0 ∨ within 16 65536 (opField c 0x10 4) = false ∨ opField c 0x10 4 % 16 ≠ 0 ∨
      0x600000 < opField c 4 4 + opField c 0x10 4) := by
    have hwithin : within 16 65536 (opField c 0x10 4) = true := decide_eq_true ⟨hleast, hmost⟩
    have hle : opByte c 0 ≤ 1 := by rw [himage]; split <;> omega
    rw [hwithin]
    simp only [Bool.true_eq_false, false_or]
    omega
  unfold imageWrite
  rw [opByte_one_iff himage]
  exact if_neg hform

theorem imageWrite_badOperand {c : Cmd} {data : List Byte} {s : State}
    (h : 2 ≤ opByte c 0 ∨ opField c 4 4 % 16 ≠ 0 ∨ 65536 < opField c 0x10 4) : imageWrite c data s = s.badOperand c := by
  refine if_pos ?_
  rcases h with h | h | h
  · exact Or.inl h
  · exact Or.inr (Or.inl h)
  · exact Or.inr (Or.inr (Or.inl (decide_eq_false (by omega))))

@[simp] theorem Mem.storeAll_mram (fuel : Nat) (m : Mem) (now addr : Nat) (bytes : List Byte) :
    (Mem.storeAll fuel m now addr bytes).mram = m.mram := by
  induction fuel generalizing m addr bytes with
  | zero => rfl
  | succ fuel ih =>
    unfold Mem.storeAll
    dsimp only
    split
    · rfl
    · rw [ih]
      unfold Mem.store
      dsimp only
      split <;> rfl

theorem padTo_self {bs : List Byte} {n : Nat} (h : bs.length = n) : padTo n bs = bs := by
  simp [padTo, slice, h, List.take_of_length_le (Nat.le_of_eq h)]

/-- The regions of the images are not reserved (01 R27). -/
theorem regionOf_code (n : Bool) {a : Nat} (hlo : codeBase n ≤ a) (hhi : a < codeBase n + 0x600000) : regionOf a ≠ .reserved := by
  cases n with
  | false =>
    have ha : a < 0x600000 := by simpa [codeBase] using hhi
    rw [regionOf, if_pos ha]
    exact Region.noConfusion
  | true =>
    have hlo' : 0x800000 ≤ a := hlo
    have hhi' : a < 0xE00000 := hhi
    rw [regionOf, if_neg (by omega), if_neg (by omega), if_neg (by omega), if_neg (by omega), if_pos hhi']
    exact Region.noConfusion

theorem codeBase_aligned (n : Bool) : codeBase n % 16 = 0 := by
  cases n <;> rfl

/-- The bytes of an IMAGE_WRITE read back. -/
theorem imageWrite_read {c : Cmd} {n : Bool} (h : ImageWriteForm c n) {data : List Byte} (hlen : data.length = opField c 0x10 4) (m : Mem)
    (now : Nat) : (m.storeBytes now (codeBase n + opField c 4 4) (padTo (opField c 0x10 4) data)).mramBytes (codeBase n + opField c 4 4)
      (opField c 0x10 4) = data := by
  obtain ⟨-, hoff, -, -, hwhole, hfits⟩ := h
  have halign := codeBase_aligned n
  rw [padTo_self hlen, ← hlen]
  refine Mem.mramBytes_storeBytes m now (by omega) (by rw [hlen]; exact hwhole) fun a hlo hhi => regionOf_code n (by omega) ?_
  rw [hlen] at hhi
  omega

-- IMAGE_ACTIVATE (18 R456, R459).

theorem exec_imageActivate {c : Cmd} {f : Flight} {s : State} (h : Executing s c f) (u v : Option (Fin 0x600000)) :
    exec (.imageActivate c u v) s = answer s (imageActivate c u v (s.executing c)) := by
  have hx : exec (.imageActivate c u v) s = execImageActivate c u v s := rfl
  rw [hx]
  unfold execImageActivate
  rw [run_executing h]

theorem imageHeadOk_of_magic {h : List Byte} (hm : field h 0 4 ≠ 0x4D58494D) : imageHeadOk h = false := by
  simp [imageHeadOk, hm]

theorem State.drawBytes_eq_with (n : Nat) (s : State) : ∃ bs k, State.drawBytes n s = (bs, { s with free := k }) := by
  induction n generalizing s with
  | zero => exact ⟨[], s.free, rfl⟩
  | succ n ih =>
    obtain ⟨bs, k, h⟩ := ih { s with free := s.free + 1 }
    refine ⟨Config.freeByte s.free :: bs, k, ?_⟩
    unfold State.drawBytes State.draw
    dsimp only
    rw [h]

/-- An image with a bad header fails its verification with reason 1 (18 R456). -/
theorem State.verifyImage_bad {s : State} {n : Bool} (hm : field (s.imageHead n) 0 4 ≠ 0x4D58494D) : ∃ img k,
    s.verifyImage n none = ({ s with sec := { s.sec with img := s.sec.img.put (imgPlace n) img }, free := k }, 1) ∧ img.st = 2 ∧ img.reason = 1 := by
  have hbad := imageHeadOk_of_magic hm
  have hreason : ∀ ue, s.imageReason n ue = 1 := fun ue => if_pos (by rw [hbad]; rfl)
  obtain ⟨bs, k, hdraw⟩ := State.drawBytes_eq_with 64 s
  refine ⟨{ st := 2, reason := 1, rbLevel := BitVec.ofNat 7 (field (s.imageHead n) 8 1)
            version := BitVec.ofNat 32 (field (s.imageHead n) 0x18 4), digest := BitVec.ofNat 512 (leNat bs) }, k, ?_, rfl, rfl⟩
  unfold State.verifyImage
  dsimp only
  rw [hreason, hbad, if_neg (by decide), hdraw]
  rfl

theorem imageActivate_badOperand {c : Cmd} {u v : Option (Fin 0x600000)} {s : State} (h : 4 ≤ opByte c 1) :
    imageActivate c u v s = s.badOperand c :=
  if_pos (Or.inl h)

/-- FUNC 0 and 1 on an image that fails its verification. -/
theorem imageActivate_unverified {c : Cmd} {n : Bool} {s t : State} {r : Nat} (hn : opByte c 0 = if n then 1 else 0) (hf : opByte c 1 ≤ 1)
    (hv : s.verifyImage n none = (t, r)) (hr : r ≠ 0) : imageActivate c none none s = t.complete c stRefused (dwords 0x0D02 r 0 0) := by
  have hle : opByte c 0 ≤ 1 := by rw [hn]; split <;> omega
  have hform : ¬ (3 < opByte c 1 ∨ (opByte c 1 ≠ 2 ∧ 1 < opByte c 0)) := by omega
  have hue : (fun n : Bool => if n = true then (none : Option (Fin 0x600000)) else none) n = none := ite_self _
  unfold imageActivate
  rw [if_neg hform, if_pos hf, opByte_one_iff hn]
  simp only [hue, hv, if_pos hr]

theorem State.activateRecord_frame (s : State) (func : Nat) : (s.activateRecord func).sec = s.sec ∧ (s.activateRecord func).mem = s.mem ∧
    (s.activateRecord func).hif = s.hif ∧ (s.activateRecord func).rings = s.rings ∧ (s.activateRecord func).clk = s.clk := by
  unfold State.activateRecord
  simp only [State.studbook_frame, and_self]

theorem imageActivate_raise {c : Cmd} {u v : Option (Fin 0x600000)} {s : State} (hf : opByte c 1 = 2) (hrec : s.sec.recovery = false) :
    imageActivate c u v s =
      if (s.sec.img.at (imgPlace s.sec.running)).rbLevel.toNat ≤ s.sec.rbCount.toNat then s.refuse c 0x0D08
      else
        let r := (State.activateRecord { s with sec := { s.sec with rbCount := (s.sec.img.at (imgPlace s.sec.running)).rbLevel } } 2).verifyImage
          (!s.sec.running) (if !s.sec.running then v else u)
        r.1.ok c (dwords (s.sec.img.at (imgPlace s.sec.running)).rbLevel.toNat (bit (r.2 != 0)) 0 0) := by
  unfold imageActivate
  dsimp only
  have hrun : (State.activateRecord { s with sec := { s.sec with rbCount := (s.sec.img.at (imgPlace s.sec.running)).rbLevel } } 2).sec.running =
      s.sec.running := by
    rw [(State.activateRecord_frame _ 2).1]
  rw [hf, if_neg (by omega), if_neg (by decide), if_pos rfl, if_neg (by simp [hrec]), hrun]

theorem imageActivate_recovery {c : Cmd} {u v : Option (Fin 0x600000)} {s : State} (hf : opByte c 1 = 2) (hrec : s.sec.recovery = true) :
    imageActivate c u v s = s.refuse c 0x0D09 := by
  unfold imageActivate
  dsimp only
  rw [hf, if_neg (by omega), if_neg (by decide), if_pos rfl, if_pos hrec]

theorem State.allOpen_iff (s : State) : s.allOpen = true ↔ ∀ i, (s.strs.at i).st = .opened := by
  simp [State.allOpen, State.strSt, places]

theorem imageActivate_restart {c : Cmd} {u v : Option (Fin 0x600000)} {s : State} (hf : opByte c 1 = 3) (hn : opByte c 0 ≤ 1) :
    imageActivate c u v s = if s.allOpen = false then s.refuse c 0x0D03 else (s.activateRecord 3).restart := by
  unfold imageActivate
  dsimp only
  rw [hf, if_neg (by omega), if_neg (by decide), if_neg (by decide)]

-- The restart (18 R457, R459).

/-- A restart through the boot ROM begins with nothing in flight, and keeps what AON and the tack store hold. -/
theorem State.rebooted_restart (s : State) : (s.rebooted true true).hif.flights = [] ∧ (s.rebooted true true).sec.recovery = false ∧
    (s.rebooted true true).sec.bootSel = s.sec.bootSel ∧ (s.rebooted true true).sec.rbCount = s.sec.rbCount ∧
    (s.rebooted true true).mem.sram = [] ∧ (s.rebooted true true).clk.pcc = s.clk.pcc := by
  have hloads : ∃ u : State, s.rebooted true true = u.loadCalibration.loadCheckpoint ∧ u.hif.flights = [] ∧ u.sec.recovery = false ∧
      u.sec.bootSel = s.sec.bootSel ∧ u.sec.rbCount = s.sec.rbCount ∧ u.mem.sram = [] := by
    unfold State.rebooted
    extract_lets
    rename_i t _
    exact ⟨t, rfl, rfl, rfl, rfl, rfl, rfl⟩
  obtain ⟨u, hu, hflights, hrec, hsel, hcount, hsram⟩ := hloads
  obtain ⟨hm1, hs1, -⟩ := u.loadCalibration_stores
  obtain ⟨hm2, hs2, -⟩ := u.loadCalibration.loadCheckpoint_stores
  obtain ⟨-, hh1, -⟩ := u.loadCalibration_duties
  obtain ⟨-, hh2, -⟩ := u.loadCalibration.loadCheckpoint_duties
  have hpcc := (s.rebooted_keeps true true).2.2
  rw [hu] at hpcc ⊢
  rw [hh2, hh1, hs2, hs1, hm2, hm1]
  exact ⟨hflights, hrec, hsel, hcount, hsram, hpcc⟩

/-- A PORT island that starts leaves the tack store, the memories, the clocks and the other islands, and begins no command. -/
theorem State.startPort_effect {s : State} (p : Fin 4) (mask : BitVec 32) (h : s.hif.flights = []) : (s.startPort p mask).hif.flights = [] ∧
    s.SameStores (s.startPort p mask) ∧ (s.startPort p mask).isl.coreA = s.isl.coreA ∧ (s.startPort p mask).isl.mem = s.isl.mem := by
  obtain ⟨u, hu⟩ : ∃ u, { s with isl := { s.isl with port := s.isl.port.put p true, portAt := s.isl.portAt.put p s.now } } = u := ⟨_, rfl⟩
  have hfacts : u.hif = s.hif ∧ u.isl.coreA = s.isl.coreA ∧ u.isl.mem = s.isl.mem := by
    rw [← hu]
    exact ⟨rfl, rfl, rfl⟩
  obtain ⟨hhif, hcore, hmem⟩ := hfacts
  have hfold : (s.startPort p mask).SamePower u ∧ (s.startPort p mask).hif.flights = [] := by
    unfold State.startPort
    dsimp only
    rw [hu]
    refine ⟨State.SamePower.foldl _ _ (fun t i => ?_) u, State.foldl_flights _ _ (fun t i ht => ?_) (hhif ▸ h)⟩
    · split
      · exact State.startEnum_power _ _ _
      · exact State.SamePower.refl t
    · split
      · exact State.startEnum_flights _ _ _ ht
      · exact ht
  obtain ⟨⟨-, -, hisl, -⟩, hflights⟩ := hfold
  exact ⟨hflights, s.startPort_stores p mask, (congrArg Islands.coreA hisl).trans hcore, (congrArg Islands.mem hisl).trans hmem⟩

theorem State.allIslands_effect {s : State} (h : s.hif.flights = []) : s.allIslands.hif.flights = [] ∧ s.SameStores s.allIslands ∧
    s.allIslands.isl.coreA = true ∧ s.allIslands.isl.mem = true := by
  obtain ⟨u, hu⟩ : ∃ u, { s with isl := { s.isl with
    coreA := true, coreB := true, est := true, net := true, host := true, mem := true, tb := true, halter := true } } = u := ⟨_, rfl⟩
  have hbase : u.hif = s.hif ∧ s.SameStores u ∧ u.isl.coreA = true ∧ u.isl.mem = true := by
    rw [← hu]
    exact ⟨rfl, ⟨rfl, rfl, rfl⟩, rfl, rfl⟩
  obtain ⟨hhif, hstores, hcore, hmem⟩ := hbase
  unfold State.allIslands
  dsimp only
  rw [hu]
  refine List.foldlRecOn (places 4) _
    (motive := fun t : State => t.hif.flights = [] ∧ s.SameStores t ∧ t.isl.coreA = true ∧ t.isl.mem = true)
    ⟨(congrArg Hif.flights hhif).trans h, hstores, hcore, hmem⟩ fun t ht p _ => ?_
  obtain ⟨hflights, hstores, hcore, hmem⟩ := ht
  obtain ⟨hflights', hstores', hcore', hmem'⟩ := t.startPort_effect p 0xFFFFFFFF hflights
  exact ⟨hflights', hstores.trans hstores', hcore'.trans hcore, hmem'.trans hmem⟩

theorem State.halterStart_flights {s : State} (a b : Bool) (h : s.hif.flights = []) : (s.halterStart a b).hif.flights = [] := by
  unfold State.halterStart
  extract_lets w s1 s2
  have h2 : s2.hif = s.hif := rfl
  rw [← h2] at h
  clear_value s2
  split
  · exact s2.raiseDetail_flights .rstkStuck 0 h
  · exact h

theorem State.restart_effect (s : State) : s.restart.sec.bootDue = true ∧ s.restart.sec.recovery = false ∧
    s.restart.sec.bootSel = s.sec.bootSel ∧ s.restart.sec.rbCount = s.sec.rbCount ∧ s.restart.mem.sram = [] ∧
    s.restart.hif.flights = [] ∧ s.restart.clk.pcc = s.clk.pcc ∧ s.restart.isl.coreA = true ∧ s.restart.isl.mem = true := by
  obtain ⟨hflights, hrec, hsel, hcount, hsram, hpcc⟩ := s.rebooted_restart
  obtain ⟨hflights2, ⟨hmem2, hsec2, hclk2⟩, hcore2, hmemUp2⟩ := State.allIslands_effect hflights
  rw [← hsec2] at hrec hsel hcount
  rw [← hmem2] at hsram
  rw [← hclk2] at hpcc
  unfold State.restart
  dsimp only
  generalize (s.rebooted true true).allIslands = v at hflights2 hcore2 hmemUp2 hrec hsel hcount hsram hpcc ⊢
  obtain ⟨w, hw⟩ : ∃ w, { v with therm := { v.therm with level := 0 }, sec := { v.sec with bootDue := true } } = w := ⟨_, rfl⟩
  have hfacts : w.hif = v.hif ∧ w.sec = { v.sec with bootDue := true } ∧ w.mem = v.mem ∧ w.clk = v.clk ∧ w.isl = v.isl := by
    rw [← hw]
    exact ⟨rfl, rfl, rfl, rfl, rfl⟩
  obtain ⟨hh, hs, hm, hc, hi⟩ := hfacts
  obtain ⟨hm3, hs3, hc3⟩ := w.halterStart_stores v.halter.key.a v.halter.key.b
  obtain ⟨⟨-, -, hi3, -⟩, -, -, -⟩ := w.halterStart_effect v.halter.key.a v.halter.key.b
  have hf3 := State.halterStart_flights v.halter.key.a v.halter.key.b ((congrArg Hif.flights hh).trans hflights2)
  rw [hw, hs3, hm3, hc3, hi3, hs, hm, hc, hi]
  exact ⟨rfl, hrec, hsel, hcount, hsram, hf3, hpcc, hcore2, hmemUp2⟩

-- The boot ROM (14 R391; 18 R456 to R458).

/-- A boot that is not due does nothing. -/
theorem exec_boot_idle {code : BitVec 8} {u v : Option (Fin 0x600000)} {s : State} (h : s.sec.bootDue = false) :
    exec (.boot code u v) s = answer s s := by
  have hx : exec (.boot code u v) s = execBoot code u v s := rfl
  have hidle : (!(s.sec.bootDue && s.isl.coreA && s.isl.mem) || !(code.toNat == 0 || within 0x20 0x5F code.toNat)) = true := by simp [h]
  rw [hx]
  unfold execBoot
  dsimp only
  rw [if_pos hidle]

/-- A boot with a failed comparator stops (14 R391). -/
theorem exec_boot_failed {code : BitVec 8} {u v : Option (Fin 0x600000)} {s : State} (hdue : s.sec.bootDue = true) (hcore : s.isl.coreA = true)
    (hmem : s.isl.mem = true) (hlo : 0x20 ≤ code.toNat) (hhi : code.toNat ≤ 0x5F) :
    exec (.boot code u v) s = answer s (State.comparatorsFailed { s with sec := { s.sec with bootDue := false } } code) := by
  have hx : exec (.boot code u v) s = execBoot code u v s := rfl
  have hruns : (!(s.sec.bootDue && s.isl.coreA && s.isl.mem) || !(code.toNat == 0 || within 0x20 0x5F code.toNat)) = false := by
    simp [hdue, hcore, hmem, within, hlo, hhi]
  rw [hx]
  unfold execBoot
  dsimp only
  rw [if_neg (by rw [hruns]; exact Bool.false_ne_true), if_pos (by omega)]

theorem exec_boot_images {s : State} (hdue : s.sec.bootDue = true) (hcore : s.isl.coreA = true) (hmem : s.isl.mem = true) :
    exec (.boot 0 none none) s = answer s (State.bootImages { s with
      pctl := { s.pctl with bootCode := 0, split := s.pctl.bootSplit }
      sec := { s.sec with bootDue := false, test := s.pctl.bootTest } } none none) := by
  have hx : exec (.boot 0 none none) s = execBoot 0 none none s := rfl
  have hruns : (!(s.sec.bootDue && s.isl.coreA && s.isl.mem) || !((0 : BitVec 8).toNat == 0 || within 0x20 0x5F (0 : BitVec 8).toNat)) = false := by
    rw [hdue, hcore, hmem]
    rfl
  rw [hx]
  unfold execBoot
  dsimp only
  rw [if_neg (by rw [hruns]; exact Bool.false_ne_true), if_neg (by decide)]

theorem State.comparatorsFailed_sec (s : State) (code : BitVec 8) :
    (s.comparatorsFailed code).sec = s.sec ∧ (s.comparatorsFailed code).pairs = s.pairs := by
  unfold State.comparatorsFailed
  dsimp only
  split
  · exact ⟨rfl, rfl⟩
  · rw [(State.raiseDetail_stores _ _ _).2.1, (State.raiseDetail_pairs _ _ _).1]
    exact ⟨rfl, rfl⟩

theorem State.imageHead_congr {s t : State} (h : t.mem = s.mem) (n : Bool) : t.imageHead n = s.imageHead n := by
  unfold State.imageHead State.mramRead
  rw [h]

/-- No image verifies: the boot ROM ends in recovery mode, with both images failed (18 R457). -/
theorem State.bootImages_none {s : State} (h : ∀ n, field (s.imageHead n) 0 4 ≠ 0x4D58494D) : ∃ (b : Bank 2 Image) (k : Nat),
    s.bootImages none none = State.bootEnds { s with sec := { s.sec with img := b }, free := k } 2 s.sec.bootSel ∧
    ∀ n, (b.at n).st = 2 ∧ (b.at n).reason = 1 := by
  obtain ⟨img1, k1, h1, hst1, hre1⟩ := s.verifyImage_bad (h s.sec.bootSel)
  generalize hu : ({ s with sec := { s.sec with img := s.sec.img.put (imgPlace s.sec.bootSel) img1 }, free := k1 } : State) = u at h1
  have hhead : u.imageHead (!s.sec.bootSel) = s.imageHead (!s.sec.bootSel) := State.imageHead_congr (by rw [← hu]) _
  obtain ⟨img2, k2, h2, hst2, hre2⟩ := u.verifyImage_bad (n := !s.sec.bootSel) (by rw [hhead]; exact h _)
  have hue : ∀ n : Bool, (if n = true then (none : Option (Fin 0x600000)) else none) = none := fun _ => ite_self _
  refine ⟨(s.sec.img.put (imgPlace s.sec.bootSel) img1).put (imgPlace (!s.sec.bootSel)) img2, k2, ?_, ?_⟩
  · unfold State.bootImages
    simp only [hue, h1, h2]
    rw [← hu]
    rfl
  · intro i
    have hi : i = imgPlace (!s.sec.bootSel) ∨ i = imgPlace s.sec.bootSel ∧ imgPlace (!s.sec.bootSel) ≠ i := by
      revert i
      cases s.sec.bootSel <;> decide
    rcases hi with rfl | ⟨rfl, hne⟩
    · rw [Bank.at_put_self]
      exact ⟨hst2, hre2⟩
    · rw [Bank.at_put_of_ne _ _ hne, Bank.at_put_self]
      exact ⟨hst1, hre1⟩

/-- A state with the same tack store, pair control and memories. -/
def State.SameBoot (t s : State) : Prop := t.sec = s.sec ∧ t.pctl = s.pctl ∧ t.mem = s.mem

theorem State.SameBoot.trans {s t u : State} (h : u.SameBoot t) (h' : t.SameBoot s) : u.SameBoot s :=
  ⟨h.1.trans h'.1, h.2.1.trans h'.2.1, h.2.2.trans h'.2.2⟩

theorem State.releasePair0_boot (s : State) : s.releasePair0.SameBoot s := by
  unfold State.releasePair0
  extract_lets mode u
  have hu : u.SameBoot s := ⟨rfl, rfl, rfl⟩
  split
  · exact State.SameBoot.trans ⟨rfl, rfl, rfl⟩ hu
  · exact hu

theorem State.joinNets_boot (s : State) : s.joinNets.SameBoot s := ⟨rfl, rfl, rfl⟩

theorem State.bootRecord_boot (s : State) (result : Nat) (n : Bool) : (s.bootRecord result n).SameBoot s := by
  obtain ⟨bs, k, hdraw⟩ := s.drawBytes_eq_with 6
  unfold State.bootRecord State.SameBoot
  dsimp only
  rw [hdraw]
  simp only [State.studbook_frame, and_self]

theorem State.startLevel_boot (s : State) (level : BitVec 2) : (s.startLevel level none).SameBoot s := by
  rcases Nat.lt_trichotomy level.toNat s.pwr.level.toNat with h | h | h
  · rw [State.startLevel_up s none h]
    exact ⟨rfl, rfl, rfl⟩
  · have hsame : s.startLevel level none = s := if_pos (BitVec.eq_of_toNat_eq h)
    rw [hsame]
    exact ⟨rfl, rfl, rfl⟩
  · rw [State.startLevel_down s none h]
    exact ⟨rfl, rfl, rfl⟩

theorem State.onPwr_boot (s : State) (g : Pwr → Pwr) : (s.onPwr g).SameBoot s := ⟨rfl, rfl, rfl⟩

/-- A boot that ends in recovery mode sets the result and the mode, and nothing else of the tack store, the pair control and the memories. -/
theorem State.bootEnds_recovery (s : State) (n : Bool) : (s.bootEnds 2 n).sec = { s.sec with result := 2, recovery := true, booted := true } ∧
    (s.bootEnds 2 n).pctl = { s.pctl with mode := 2 } ∧ (s.bootEnds 2 n).mem = s.mem := by
  obtain ⟨u, hu⟩ : ∃ u, { s with
    pctl := { s.pctl with mode := 2 }, sec := { s.sec with result := 2, recovery := true, booted := true } } = u := ⟨_, rfl⟩
  have hfacts : u.sec = { s.sec with result := 2, recovery := true, booted := true } ∧ u.pctl = { s.pctl with mode := 2 } ∧ u.mem = s.mem := by
    rw [← hu]
    exact ⟨rfl, rfl, rfl⟩
  have hx : s.bootEnds 2 n = (let t := u.releasePair0.joinNets.bootRecord 2 n
      if t.pwr.startDue then (t.onPwr (fun p => { p with startDue := false })).startLevel t.pwr.cfg.startLevel none else t) := by
    rw [← hu]
    rfl
  have hjoin : u.releasePair0.joinNets.SameBoot u := State.SameBoot.trans (State.joinNets_boot _) u.releasePair0_boot
  have hrecord := State.SameBoot.trans (State.bootRecord_boot u.releasePair0.joinNets 2 n) hjoin
  have hends : (s.bootEnds 2 n).SameBoot u := by
    rw [hx]
    dsimp only
    split
    · exact State.SameBoot.trans (State.startLevel_boot _ _) (State.SameBoot.trans (State.onPwr_boot _ _) hrecord)
    · exact hrecord
  obtain ⟨hsec, hpctl, hmem⟩ := hends
  rw [hsec, hpctl, hmem]
  exact hfacts

-- Recovery mode (18 R458).

/-- The command ends in recovery mode as it would outside it. -/
theorem ending_of_recovery {s : State} {c : Cmd} {f : Flight} (h : Executing { s with sec := { s.sec with recovery := false } } c f) :
    Ending s s c f ∧ Ending s (s.executing c) c f := by
  obtain ⟨hflight, hsame, henabled, hkept, htracked, -, -⟩ := h.ending
  exact ⟨⟨h.flight, hsame, henabled, hkept, htracked, rfl, rfl⟩, ⟨hflight, hsame, henabled, hkept, htracked, rfl, rfl⟩⟩

/-- In recovery mode a command acts if the boot ROM serves it, and is refused otherwise (18 R458). -/
theorem run_recovery {s : State} {c : Cmd} {f : Flight} (h : Executing { s with sec := { s.sec with recovery := false } } c f)
    (hrec : s.sec.recovery = true) (served : Bool) (body : State → State) :
    s.run c served body = if served then body (s.executing c) else s.refuse c 0x0D07 := by
  have hflight : s.hif.flight c.stamp = some f := h.flight
  have hw : s.waits c = false := by simp [State.waits, hflight, h.going]
  cases served <;> simp [State.run, hw, hrec]

theorem answers_notServed {i : Instr} {s : State} {c : Cmd} {f : Flight} {body : State → State}
    (h : Executing { s with sec := { s.sec with recovery := false } } c f) (hrec : s.sec.recovery = true)
    (hi : exec i s = answer s (s.run c false body)) :
    Answers i s fun t => Completes s t c f 0x31 (dwords 0x0D07 0 0 0) ∧ t = { s with hif := t.hif, rings := t.rings } :=
  answers_of_complete (hi.trans (congrArg (answer s) (run_recovery h hrec false body))) (ending_of_recovery h).1 rfl fun _ hc ht => ⟨hc, ht⟩

-- The clauses.

/-- IMAGE_ACTIVATE FUNC 2 that raises the counter (18 R459). -/
theorem answers_raise {c : Cmd} {f : Flight} {n : Bool} {s : State} (h : Executing s c f) (hf : opByte c 1 = 2) (hn : s.sec.running = n)
    (hlt : s.sec.rbCount < (s.sec.img.at (imgPlace n)).rbLevel) (hm : field (s.imageHead (!n)) 0 4 ≠ 0x4D58494D) :
    Answers (.imageActivate c none none) s fun t => t.sec.rbCount = (s.sec.img.at (imgPlace n)).rbLevel ∧ t.sec.bootSel = s.sec.bootSel ∧
      Completes s t c f 0x00 (dwords (s.sec.img.at (imgPlace n)).rbLevel.toNat 1 0 0) := by
  subst hn
  have hx := exec_imageActivate h none none
  have hrises : ¬ ((s.executing c).sec.img.at (imgPlace (s.executing c).sec.running)).rbLevel.toNat ≤ (s.executing c).sec.rbCount.toNat :=
    Nat.not_le.mpr hlt
  rw [imageActivate_raise (s := s.executing c) hf h.normal, if_neg hrises] at hx
  obtain ⟨u, hu⟩ : ∃ u, { s.executing c with sec := { s.sec with rbCount := (s.sec.img.at (imgPlace s.sec.running)).rbLevel } } = u := ⟨_, rfl⟩
  have hfacts : u.hif = (s.executing c).hif ∧ u.rings = s.rings ∧ u.clk = s.clk ∧ u.mem = s.mem ∧
      u.sec = { s.sec with rbCount := (s.sec.img.at (imgPlace s.sec.running)).rbLevel } := by
    rw [← hu]
    exact ⟨rfl, rfl, rfl, rfl, rfl⟩
  obtain ⟨hhif, hrings, hclk, hmem, hsec⟩ := hfacts
  obtain ⟨hsec', hmem', hhif', hrings', hclk'⟩ := u.activateRecord_frame 2
  have hx' : exec (.imageActivate c none none) s = answer s (
      let r := (u.activateRecord 2).verifyImage (!s.sec.running) none
      r.1.ok c (dwords (s.sec.img.at (imgPlace s.sec.running)).rbLevel.toNat (bit (r.2 != 0)) 0 0)) := by
    rw [← hu]
    refine hx.trans ?_
    dsimp only
    rw [ite_self]
    rfl
  have hhead : (u.activateRecord 2).imageHead (!s.sec.running) = s.imageHead (!s.sec.running) :=
    State.imageHead_congr (hmem'.trans hmem) _
  obtain ⟨img, k, hverify, -, -⟩ := (u.activateRecord 2).verifyImage_bad (n := !s.sec.running) (by rw [hhead]; exact hm)
  rw [hverify] at hx'
  refine answers_of_exec hx' ?_
  have he : Ending s { u.activateRecord 2 with
      sec := { (u.activateRecord 2).sec with img := (u.activateRecord 2).sec.img.put (imgPlace (!s.sec.running)) img }, free := k } c f :=
    h.ending.of_eq (hhif'.trans hhif) (hrings'.trans hrings) (congrArg Clk.ytime (hclk'.trans hclk))
  refine ⟨?_, ?_, (he.completes stSuccess _).eventInterrupt s⟩
  · simp only [State.ok, eventInterrupt_frame, State.complete_frame, hsec', hsec]
  · simp only [State.ok, eventInterrupt_frame, State.complete_frame, hsec', hsec]

theorem answers_restart {c : Cmd} {f : Flight} {s : State} (h : Executing s c f) (hf : opByte c 1 = 3) (hn : opByte c 0 ≤ 1)
    (hopen : ∀ i, (s.strs.at i).st = .opened) : Answers (.imageActivate c none none) s fun t =>
      t.sec.bootDue = true ∧ t.sec.recovery = false ∧ t.sec.bootSel = s.sec.bootSel ∧ t.sec.rbCount = s.sec.rbCount ∧ t.mem.sram = [] ∧
      t.hif.flights = [] ∧ t.clk.pcc = s.clk.pcc ∧ t.isl.coreA = true ∧ t.isl.mem = true := by
  have hx := exec_imageActivate h none none
  have hall : (s.executing c).allOpen = true := (State.allOpen_iff _).mpr hopen
  rw [imageActivate_restart hf hn, hall, if_neg Bool.noConfusion] at hx
  obtain ⟨hsec, -, -, -, hclk⟩ := (s.executing c).activateRecord_frame 3
  obtain ⟨hdue, hrec, hsel, hcount, hsram, hflights, hpcc, hcore, hmem⟩ := ((s.executing c).activateRecord 3).restart_effect
  refine answers_of_exec hx ?_
  simp only [eventInterrupt_frame]
  exact ⟨hdue, hrec, hsel.trans (congrArg Sec.bootSel hsec), hcount.trans (congrArg Sec.rbCount hsec), hsram, hflights,
    hpcc.trans (congrArg Clk.pcc hclk), hcore, hmem⟩

theorem answers_boot_recovery {s : State} (hdue : s.sec.bootDue = true) (hcore : s.isl.coreA = true) (hmem : s.isl.mem = true)
    (h : ∀ n, field (s.imageHead n) 0 4 ≠ 0x4D58494D) : Answers (.boot 0 none none) s fun t =>
      t.sec.recovery = true ∧ t.sec.booted = true ∧ t.sec.result = 2 ∧ t.sec.bootSel = s.sec.bootSel ∧
      t.sec.bootDue = false ∧ t.pctl.mode = 2 ∧ t.pctl.bootCode = 0 ∧ t.pctl.split = s.pctl.bootSplit ∧
      (∀ n, (t.sec.img.at n).st = 2 ∧ (t.sec.img.at n).reason = 1) ∧ t.mem.sram = s.mem.sram := by
  have hx := exec_boot_images hdue hcore hmem
  obtain ⟨u, hu⟩ : ∃ u, { s with
      pctl := { s.pctl with bootCode := 0, split := s.pctl.bootSplit }
      sec := { s.sec with bootDue := false, test := s.pctl.bootTest } } = u := ⟨_, rfl⟩
  have hfacts : u.mem = s.mem ∧ u.pctl = { s.pctl with bootCode := 0, split := s.pctl.bootSplit } ∧
      u.sec = { s.sec with bootDue := false, test := s.pctl.bootTest } := by
    rw [← hu]
    exact ⟨rfl, rfl, rfl⟩
  obtain ⟨hm, hp, hs⟩ := hfacts
  have hheads : ∀ n, field (u.imageHead n) 0 4 ≠ 0x4D58494D := fun n => by
    rw [State.imageHead_congr hm]
    exact h n
  obtain ⟨b, k, hboot, himg⟩ := State.bootImages_none hheads
  rw [hu, hboot] at hx
  obtain ⟨hsec, hpctl, hmem'⟩ := State.bootEnds_recovery { u with sec := { u.sec with img := b }, free := k } u.sec.bootSel
  generalize State.bootEnds _ 2 _ = w at hx hsec hpctl hmem'
  refine answers_of_exec hx ?_
  simp only [eventInterrupt_frame, hsec, hpctl, hmem', hm, hp, hs]
  exact ⟨trivial, trivial, trivial, trivial, trivial, trivial, trivial, trivial, himg, trivial⟩

theorem answers_imageWrite_taken {c : Cmd} {f : Flight} {data : List Byte} {n : Bool} {s : State} (h : Executing s c f) (hform : ImageWriteForm c n)
    (hlen : data.length = opField c 0x10 4) (hruns : s.sec.booted = false ∨ s.sec.running ≠ n) : Answers (.imageWrite c data) s fun t =>
      t.mramRead (codeBase n + opField c 4 4) (opField c 0x10 4) = data ∧
      t.sec.img = s.sec.img.upd (imgPlace n) (fun i => { i with st := 0, digest := 0 }) ∧
      t.sec.waits.map MramWait.cmd = s.sec.waits.map MramWait.cmd ++ [c] ∧ t.hif.flight c.stamp = some f ∧
      t.mem.mram = s.mem.mram ∧ t.mem.sram = s.mem.sram ∧ t.rings = s.rings := by
  have hno : (s.executing c).runs n = false := by
    have hno : s.runs n = false := by
      unfold State.runs
      rcases hruns with hb | hr
      · simp [hb]
      · simp [hr]
    exact hno
  have hx := exec_imageWrite h data
  rw [imageWrite_form hform, hno, if_neg Bool.false_ne_true] at hx
  have hread := imageWrite_read hform hlen s.mem s.now
  have hkeep : ∀ m, s.mem.storeBytes s.now (codeBase n + opField c 4 4) (padTo (opField c 0x10 4) data) = m →
      m.mram = s.mem.mram ∧ m.sram = s.mem.sram := by
    rintro m rfl
    exact ⟨Mem.storeAll_mram .., Mem.storeAll_sram ..⟩
  have hmem : (s.executing c).mem.storeBytes (s.executing c).now (codeBase n + opField c 4 4) (padTo (opField c 0x10 4) data) =
    s.mem.storeBytes s.now (codeBase n + opField c 4 4) (padTo (opField c 0x10 4) data) := rfl
  rw [hmem] at hx
  generalize s.mem.storeBytes s.now (codeBase n + opField c 4 4) (padTo (opField c 0x10 4) data) = m at hx hread hkeep
  obtain ⟨hmram, hsram⟩ := hkeep m rfl
  refine answers_of_exec_of_evt_eq hx rfl ⟨hread, rfl, ?_, executing_flight_same h, hmram, hsram, rfl⟩
  exact List.map_append

/-- Settles O55. -/
theorem imagesAndBoot : Obligations.ImagesAndBoot := by
  unfold Obligations.ImagesAndBoot
  refine ⟨fun c f data n s hexec himage hoff hleast hmost hwhole hfits hlen => ⟨fun ⟨hb, hr⟩ => ?_, fun hruns => ?_⟩,
    fun c f data s hexec h => ?_, fun c f n s hexec hn hf hm => ?_, fun c f u v s hexec h => ?_,
    fun c f n s hexec hf hn => ⟨fun hlt hm => answers_raise hexec hf hn hlt hm, fun hle => ?_⟩,
    fun c f s hexec hf hn => ⟨fun ⟨i, hi⟩ => ?_, fun hopen => answers_restart hexec hf hn hopen⟩,
    fun code u v s hdue hcore hmem hlo hhi => ?_, fun s hdue hcore hmem h => answers_boot_recovery hdue hcore hmem h,
    fun code u v s hdue => answers_of_exec_of_evt_eq (exec_boot_idle hdue) rfl rfl,
    fun c f u v s hexec hrec => ⟨fun hf => ?_, answers_notServed hexec hrec rfl, answers_notServed hexec hrec rfl⟩⟩
  case refine_1 =>
    have hruns : (s.executing c).runs n = true := by
      have hruns : s.runs n = true := by simp [State.runs, hb, hr, hexec.normal]
      exact hruns
    have hx := exec_imageWrite hexec data
    rw [imageWrite_form ⟨himage, hoff, hleast, hmost, hwhole, hfits⟩, if_pos hruns] at hx
    exact answers_only_complete hexec hx
  case refine_2 => exact answers_imageWrite_taken hexec ⟨himage, hoff, hleast, hmost, hwhole, hfits⟩ hlen hruns
  case refine_3 => exact answers_badOperand hexec ((exec_imageWrite hexec data).trans (congrArg (answer s) (imageWrite_badOperand h)))
  case refine_4 =>
    obtain ⟨img, k, hverify, hst, hreason⟩ := (s.executing c).verifyImage_bad (n := n) hm
    have hx := exec_imageActivate hexec none none
    rw [imageActivate_unverified hn hf hverify Nat.one_ne_zero] at hx
    refine answers_of_complete hx (hexec.ending.of_eq rfl rfl rfl) rfl fun t hc ht => ⟨hc, ?_⟩
    have himg : ∀ i, t.sec.img.at (imgPlace n) = i → i.st = 2 ∧ i.reason = 1 := by
      rintro i rfl
      rw [ht]
      exact (Bank.at_put_self s.sec.img (imgPlace n) img).symm ▸ ⟨hst, hreason⟩
    obtain ⟨h1, h2⟩ := himg _ rfl
    exact ⟨by rw [ht]; rfl, h1, h2, by rw [ht]; rfl⟩
  case refine_5 => exact answers_badOperand hexec ((exec_imageActivate hexec u v).trans (congrArg (answer s) (imageActivate_badOperand h)))
  case refine_6 =>
    have hx := exec_imageActivate hexec none none
    subst hn
    rw [imageActivate_raise (s := s.executing c) hf hexec.normal] at hx
    exact answers_only_complete hexec (hx.trans (congrArg (answer s) (if_pos hle)))
  case refine_7 =>
    have hx := exec_imageActivate hexec none none
    have hclosed : (s.executing c).allOpen = false := Bool.eq_false_iff.mpr fun hall => hi ((State.allOpen_iff _).mp hall i)
    rw [imageActivate_restart hf hn, if_pos hclosed] at hx
    exact answers_only_complete hexec hx
  case refine_8 =>
    obtain ⟨-, hpctl, hhas, -, -⟩ := State.comparatorsFailed_effect { s with sec := { s.sec with bootDue := false } } code
    obtain ⟨hsec, hpairs⟩ := State.comparatorsFailed_sec { s with sec := { s.sec with bootDue := false } } code
    refine answers_of_exec (exec_boot_failed hdue hcore hmem hlo hhi) ?_
    simp only [eventInterrupt_frame, hpctl, hhas, hsec, hpairs, and_self]
  case refine_9 =>
    have hx : exec (.imageActivate c u v) s = execImageActivate c u v s := rfl
    unfold execImageActivate at hx
    rw [run_recovery hexec hrec, if_pos rfl, imageActivate_recovery (s := s.executing c) hf hrec] at hx
    exact answers_of_complete hx (ending_of_recovery hexec).2 rfl fun _ hc ht => ⟨hc, ht⟩

end Sys2Proof.Machine
end
